-- ==== Sys2Proof/Word.lean ====
section
/-! DEFINITION. The word types of the block and their plainest arithmetic: bytes, little-endian byte strings
(R6: multi-byte values are stored least significant byte first), saturating counters (R431). -/

namespace Sys2Proof

/-- A byte, the smallest unit of the tray's memories. -/
abbrev Byte := BitVec 8

/-- One of the eight dies S0 to S7. -/
abbrev DieId := Fin 8

/-- The four Legend masters (Table 14.4): 0 tray controller, 1 field port A, 2 field port B, 3 mailbox. -/
abbrev MasterId := Fin 4

/-- A time or a span in nanoseconds. -/
abbrev Ns := Nat

/-- The value of a little-endian byte string (R6). -/
def leNat : List Byte → Nat
  | [] => 0
  | b :: bs => b.toNat + 256 * leNat bs

/-- The `n` low bytes of `v`, least significant first (R6). -/
def leBytes : Nat → Nat → List Byte
  | 0, _ => []
  | n + 1, v => BitVec.ofNat 8 v :: leBytes n (v / 256)

/-- The `n` low bytes of `v`, most significant first (Ethernet, IPv6 and the P-384 encodings). -/
def beBytes (n v : Nat) : List Byte := (leBytes n v).reverse

/-- The value of a big-endian byte string. -/
def beNat (bs : List Byte) : Nat := leNat bs.reverse

/-- Bits `[hi:lo]` of `v`. -/
def bits (v hi lo : Nat) : Nat := (v >>> lo) % 2 ^ (hi + 1 - lo)

/-- Bit `i` of `v`. -/
def bit (v i : Nat) : Bool := v.testBit i

/-- A flag as a number. -/
def b2n (b : Bool) : Nat := if b then 1 else 0

/-- A counter of width `w` that has reached its largest value stays there (R431). -/
def satAdd (w a b : Nat) : Nat := min (a + b) (2 ^ w - 1)

/-- The two's complement field of width `w` that holds `v` modulo its range. -/
def ofInt (w : Nat) (v : Int) : Nat := (v % (2 ^ w : Nat)).toNat

/-- The signed value of a two's complement field of width `w`. -/
def toInt (w v : Nat) : Int := if v % 2 ^ w < 2 ^ (w - 1) then (v % 2 ^ w : Nat) else ((v % 2 ^ w : Nat) : Int) - (2 ^ w : Nat)

/-- `v` held within `lo` to `hi`. -/
def clampI (lo hi v : Int) : Int := max lo (min hi v)

/-- Quotient rounded up. -/
def ceilDiv (a b : Nat) : Nat := (a + b - 1) / b

/-- Quotient rounded to the nearest integer, halves upward. -/
def roundDiv (a b : Nat) : Nat := (2 * a + b) / (2 * b)

/-- The epoch length T_e in ns (R63, R109). -/
def epochNs : Nat := 1048576

/-- Insert into an ascending list, behind equal keys. -/
def insBy {α : Type} (key : α → Nat) (a : α) : List α → List α
  | [] => [a]
  | b :: bs => if key a < key b then a :: b :: bs else b :: insBy key a bs

/-- A list in ascending order of a key; equal keys keep their order. -/
def sortBy {α : Type} (key : α → Nat) (l : List α) : List α := l.foldl (fun acc a => insBy key a acc) []

/-! Keyed lists: sparse state by key, at most one entry a key when built by `put`. -/

section KeyedList
variable {κ α : Type} [DecidableEq κ]

/-- The entry of key `k`. -/
def KV.get? (m : List (κ × α)) (k : κ) : Option α := (m.find? (fun p => decide (p.1 = k))).map Prod.snd

/-- `m` without key `k`. -/
def KV.del (m : List (κ × α)) (k : κ) : List (κ × α) := m.filter (fun p => !decide (p.1 = k))

/-- `m` with `k` holding `v`. -/
def KV.put (m : List (κ × α)) (k : κ) (v : α) : List (κ × α) := (k, v) :: KV.del m k

/-- The entry of `k`, or `d`. -/
def KV.getD (m : List (κ × α)) (k : κ) (d : α) : α := (KV.get? m k).getD d

/-- `m` with the entry of `k` changed by `f`, when there is one. -/
def KV.modify (m : List (κ × α)) (k : κ) (f : α → α) : List (κ × α) :=
  m.map (fun p => if decide (p.1 = k) then (p.1, f p.2) else p)

end KeyedList

end Sys2Proof
end

