-- ==== Sys2Proof/Machine/PartsHeat.lean ====
section
/-! DEFINITION. The state of heat, coolant, meridian, energy, surveys and maps (chapters 07 to 10): every field is
plain data, its default is its value at reset. -/

namespace Sys2Proof.Machine
open Sys2Proof

/-- One protective sensor (R153 to R157, R167). Temperatures are in 1/16 °C. -/
structure Sensor where
  /-- Last reading; none before the first sample. -/
  last : Option Int := none
  /-- Readings of the preceding 1 ms, newest first: time and value (R167). -/
  window : List (Ns × Int) := []
  /-- The last sample exceeded the rate-of-rise limit (R167). -/
  above : Bool := false
  failed : Bool := false
  /-- Since when it differs by more than 15 °C from every other sensor of its tile (R157). -/
  apartSince : Option Ns := none
  /-- It samples at 250 kS/s, and the last reading at or above the near level (R155). -/
  fastUntil : Option Ns := none
  deriving DecidableEq, Repr

/-- What asserted FLOW_LOSS on a die (R170, R176). -/
inductive FlowLoss where
  | none | loop | local
  deriving DecidableEq, Repr

/-- Heat of one die (chapter 07). -/
structure Heat where
  /-- Sensors that have ever sampled, by number 0 to 575; an unlisted one is in its reset state. -/
  sensors : List (Nat × Sensor) := []
  /-- The die maximum, 1/16 °C (R157); none before any reading. -/
  dieMax : Option Int := none
  /-- Published group maxima, 0x8000 for none (R158). -/
  groupMax : List Nat := List.replicate 16 0x8000
  /-- Thermal rate h and the value of R160 it may rise to. -/
  h : Nat := 16
  hGoal : Nat := 16
  hRoseAt : Ns := 0
  /-- Throttle full reached: the die proposes F15 (R165), and since when it lies below throttle start. -/
  fullSeen : Bool := false
  belowSince : Option Ns := none
  /-- Sealed-mode heat-surge event of R166. -/
  sealedSurge : Bool := false
  /-- A heat surge and the start of its cut (R168). -/
  surgeAt : Option Ns := none
  /-- Last time any sensor exceeded the limit (R169). -/
  surgeLast : Ns := 0
  surges : Nat := 0
  throttledNs : Ns := 0
  throttleSince : Option Ns := none
  /-- Tripped and cooling (R171), latched off (R174). -/
  tripped : Bool := false
  latched : Bool := false
  /-- Accumulated runtimes of the trips on record, persistent (R174). -/
  trips : List Ns := []
  /-- Since when the die maximum lies below 70 °C (R173). -/
  coolSince : Option Ns := none
  /-- Since when the die maximum lies below throttle start minus the near band (R180) (log 121, DEDUCED). -/
  bandSince : Option Ns := none
  flowLoss : FlowLoss := .none
  flowLossAt : Ns := 0
  /-- R181 switched the rails off. -/
  flowOff : Bool := false
  /-- The die was frozen when FLOW_LOSS came, and a thaw trigger reached it meanwhile (R180). -/
  wasFrozen : Bool := false
  thawKept : Bool := false
  deriving DecidableEq, Repr

/-- Coolant of the tray (chapter 07). Flows are in 0.1 L/min. -/
structure Coolant where
  flowA : Nat := 0
  flowB : Nat := 0
  lostA : Bool := false
  lostB : Bool := false
  /-- Consecutive flow samples below 40 % of the loop nominal flow (R176). -/
  lowA : Nat := 0
  lowB : Nat := 0
  /-- Since when the flow is at or above 60 % (R180). -/
  goodA : Option Ns := none
  goodB : Option Ns := none
  inlet : Int := 0
  sensorFailA : Bool := false
  sensorFailB : Bool := false
  inletFail : Bool := false
  valveA : Nat := 100
  valveB : Nat := 100
  losses : Nat := 0
  alarms : BitVec 16 := 0
  /-- Since when the condition of a raised alarm is absent, by bit (R182). -/
  absent : List (Nat × Ns) := []
  deriving DecidableEq, Repr

/-- One member as the root knows it (R187, R191, R201). -/
structure Member where
  id : Nat
  /-- The highest step code received from it this epoch. -/
  code : Option Nat := none
  missed : Nat := 0
  deriving DecidableEq, Repr

/-- A RESULT record (Table 08.1). -/
structure MResult where
  group : Nat
  /-- The epoch at whose end it applies. -/
  epoch : Nat
  step : Nat
  amended : Bool := false
  strays : List Nat := []
  leaves : List Nat := []
  joins : List Nat := []
  /-- A further record of the same result follows (Table 12.13). -/
  more : Bool := false
  deriving DecidableEq, Repr

/-- A meridian record sent upward and not yet acknowledged (R188): its number, tree level, sending time, type, original
sender and body. -/
structure Sent where
  no : Nat
  level : Nat
  sentAt : Ns
  ty : Nat
  src : Nat
  body : List Byte
  deriving DecidableEq, Repr

/-- A loan record between dies of one tray (Table 08.4). -/
structure Loan where
  die : Nat
  amount : Nat
  committed : Bool := false
  deriving DecidableEq, Repr

/-- Meridian of one die (chapter 08). -/
structure Meridian where
  member : Bool := false
  stray : Bool := false
  joining : Bool := false
  joinRefused : Bool := false
  resultLate : Bool := false
  urgentSent : Bool := false
  /-- A leave was sent and its RESULT is awaited (R200). -/
  leaving : Bool := false
  groupStep : Nat := 15
  /-- The proposal of this epoch, and that of the last (0x10 where none was sent) (log 113, DEDUCED). -/
  proposal : Option Nat := none
  ownProposal : Nat := 0x10
  lastChange : Nat := 0
  /-- The step code of the urgent proposal of this epoch, and that of a revision (R144, R195). -/
  urgentCode : Option Nat := none
  revision : Option Nat := none
  /-- The urgent step to be repeated next epoch (R195). -/
  repeatUrgent : Option Nat := none
  missedTotal : Nat := 0
  strayTotal : Nat := 0
  lateEpochs : Nat := 0
  /-- Members, lowest identity first, as this die knows them from RESULTs (or as root). -/
  members : List Member := []
  root : Bool := false
  /-- As aggregator: highest code in its block and members heard this epoch (R190). -/
  blockMax : Option Nat := none
  heard : List Nat := []
  /-- As root: the proposals are closed, and the joins and leaves to list (R191, R200, R203). -/
  closed : Bool := false
  joins : List Nat := []
  leaves : List Nat := []
  result : Option MResult := none
  /-- Identity of the die that formed the result. -/
  resultFrom : Nat := 0
  /-- The die formed this epoch's result in place of the root, and is the root from the next boundary on (R194). -/
  standbyRoot : Bool := false
  /-- The root that a standby root took over for: it counts as missing, and has no role (R194). -/
  failedRoot : Option Nat := none
  /-- A lower root was heard: the whole group leaves (R205). -/
  merging : Bool := false
  /-- Group number and identity in force until a leave for their write takes effect (R186, R200). -/
  keptGroup : Option Nat := none
  keptId : Option Nat := none
  /-- Epoch of the last JOIN with valid time that can reach the root by 768 µs, and that the next member acknowledged it
  (R188, R203, R204). -/
  joinSent : Option Nat := none
  joinAcked : Bool := false
  /-- Epoch of the last JOIN (R203). -/
  joinEpoch : Option Nat := none
  /-- Consecutive boundaries without a RESULT (R201), and epochs without one as a non-member (R205). -/
  noResult : Nat := 0
  soloEpochs : Nat := 0
  /-- A RESULT of its group reached the die in this epoch. -/
  heardResult : Bool := false
  /-- Records sent upward and not acknowledged (R188). -/
  unacked : List Sent := []
  recNo : Nat := 0
  /-- A local emergency acts (R196), and the runtime of the release of its cause. -/
  emergency : Bool := false
  releasedAt : Option Ns := none
  /-- Budget lent and borrowed, the open request and the dies asked this epoch (R206). -/
  lent : List Loan := []
  borrowed : Nat := 0
  lendOpen : Option (Nat × Nat × Ns) := none
  /-- LEND requests that wait for their answer: borrower, amount, epoch (R207). -/
  lendWait : List (Nat × Nat × Nat) := []
  asked : List Nat := []
  deriving DecidableEq, Repr

/-- Counts of classes A0 to A7 (Table 09.2) that a queue of a context caused in the running interval, in a logical tile or, where
there is none, in a copy engine (R224, R227, R228). -/
structure Activity where
  t : Nat
  h : Nat
  q : Nat
  tile : Option Nat
  counts : List Nat
  /-- Tiles × ns that a plan occupied. -/
  tileNs : Nat := 0
  /-- Charged already, as its context left the die (09.6). -/
  paid : Bool := false
  deriving DecidableEq, Repr

/-- A running benchmark (R217, R218): its context, the groups whose units' clocks stopped, its start and whether it is spoilt. -/
structure Bench where
  t : Nat
  h : Nat
  idle : List Nat
  from_ : Ns
  spoilt : Bool
  deriving DecidableEq, Repr

/-- Estimator and ledger of one die (chapter 09). Energies are in units of 1 fJ / 10,240,000, which makes
R213's square of the voltage exact; 1 µJ is 1.024 * 10^16 of them (log 15, DESIGN CHOICE). -/
structure Energy where
  measured : Nat := 0
  attributed : Nat := 0
  unattributed : Nat := 0
  columns : List Nat := List.replicate 16 0
  /-- Estimated energy of each logical tile since power-on, of which L3 shows the mean power of a frame interval (Table 10.1). -/
  tiles : List Nat := []
  /-- Working coefficients A0 to A7 (fJ) and L (µW), and those of this epoch (R214, R216). Empty stands for the fused starting
  values (R213). -/
  coeff : List Nat := []
  coeffEpoch : List Nat := []
  /-- Activity of the running interval (Table 11.8). -/
  acts : List Activity := []
  /-- Runtime at which the running interval began, and the overhead charged in it to contexts that left (09.6). -/
  intervalFrom : Ns := 0
  partPaid : Nat := 0
  /-- The recursive least squares of R214 over classes A0 to A6: the weighted sums of products of the activities, of activity and
  measured energy, and the activities of the last 4,096 intervals. -/
  fitR : List (List Rat) := []
  fitB : List Rat := []
  window : List (List Nat) := []
  /-- Residual and measured VCORE current of the intervals of the last 1 s, mA (R215). -/
  fitErrs : List (Int × Nat) := []
  /-- The stored set (R223), non-volatile. -/
  stored : Option (List Nat) := none
  fusedLoaded : Bool := false
  frozen : Bool := false
  notDetermined : Bool := false
  benchUsed : Bool := false
  benchTotal : Nat := 0
  /-- VCORE-on time since the last used benchmark, and the frozen time t_f it is preset with (R220, R223). -/
  sinceBench : Ns := 0
  /-- Uplift last computed and in force, 0.01 %; confidence per mille (R220, R222). -/
  uplift : Nat := 0
  upliftInForce : Nat := 0
  confidence : Nat := 1000
  /-- Measured and predicted VCORE energy of this epoch, and last epoch's error in mJ (R215). -/
  vcoreEpoch : Nat := 0
  predEpoch : Nat := 0
  reconError : Int := 0
  residual : Nat := 0
  /-- The running benchmarks, at most one for each context (R217, R218). -/
  bench : List Bench := []
  /-- Overhead energy of this epoch, and the rate in mW charged in it (R225). -/
  overEpoch : Nat := 0
  overRate : Nat := 0
  /-- A benchmark ended in a holding pattern: its c_7 and c_L, applied at the first boundary after it (09.6). -/
  benchPending : Option (Nat × Nat) := none
  /-- Mean hot-spot temperature at the boundary (R224). -/
  attrT : Int := 0
  deriving DecidableEq, Repr

/-- Survey grid of one die (10.1). -/
structure Survey where
  /-- Cells 64y + x, 1/16 °C. Empty stands for the grid before the first survey, which reads 0. -/
  grid : List Int := []
  seq : Nat := 0
  time : Nat := 0
  /-- System time at the start of the running survey. -/
  running : Option Nat := none
  /-- Tray runtime at which the interval last restarted (R235). -/
  intervalFrom : Ns := 0
  deriving DecidableEq, Repr

/-- Map composer of one die (chapter 10). -/
structure Composer where
  /-- Settings in force since the last frame start, by subindex of 0x2700 (R244). -/
  active : List (Nat × Nat) := []
  /-- CRC-32 of each coefficient set as stored at its write; none for the set in force since reset (R241). -/
  setCrc : List (Option Nat) := [none, none, none, none]
  /-- Sequence of the next frame. -/
  seq : Nat := 0
  running : Bool := false
  disqualified : Bool := true
  /-- Passing checks still needed (R252). -/
  need : Nat := 1
  lastPassed : Bool := false
  crcMismatch : Bool := false
  lastSig : Nat := 0
  failedChecks : Nat := 0
  dropped : Nat := 0
  checkDue : Bool := false
  /-- The frame in progress and the port whose PF owned the mailbox at its start (R460), and the latest frame. -/
  frame : Option (List Byte) := none
  owner : Option (Fin 2) := none
  latest : Option (List Byte) := none
  /-- Host-ring output stopped by a physical-function reset or a loss of the mailbox (R247, R460). -/
  ringStopped : Bool := false
  /-- Survey sequence of the last frame's L0. -/
  lastSurvey : Nat := 0
  /-- System time of the last frame start, its runtime, and what L2 to L4 count from there: tripped cycles, tile energies and heater
  duties (R243). -/
  lastStart : Option Nat := none
  lastAt : Ns := 0
  tripsFrom : List Nat := []
  tilesFrom : List Nat := []
  heatFrom : List (Nat × Nat) := []
  deriving DecidableEq, Repr

end Sys2Proof.Machine
end

