-- ==== Sys2Proof/Machine/PartsPlan.lean ====
section
/-! DEFINITION. The state of tiles, SRAM, plans, optical links and scout banks of one die (chapters 11 to 13). -/

namespace Sys2Proof.Machine
open Sys2Proof

/-- A contour segment (Tables 05.1 and 11.5). -/
structure Segment where
  start : Nat
  dur : Nat
  classes : List Nat
  phase : Nat
  rate : Nat
  bench : Bool
  float : Bool
  /-- Bit 7 of byte 15, reserved. -/
  rsvd : Bool := false
  deriving DecidableEq, Repr

/-- A step record (Table 11.4). -/
structure Rec where
  cyc : Nat
  op : Nat
  /-- Byte 7: format code in [2:0]. -/
  fmt : Nat
  w : Nat
  deriving DecidableEq, Repr

/-- A flow entry (Table 11.6). -/
structure PlanFlow where
  tenant : Nat
  recv : Bool
  port : Nat
  id : Nat
  peer : Nat
  hops : Nat
  route : Nat
  allot : Nat
  deriving DecidableEq, Repr

/-- A barrier entry (Table 11.7). -/
structure PlanBarrier where
  id : Nat
  participants : Nat
  root : Nat
  lead : Nat
  deriving DecidableEq, Repr

/-- A loaded plan (Tables 11.2 to 11.7). -/
structure Plan where
  w : Nat
  h : Nat
  x0 : Nat
  y0 : Nat
  bankMask : Nat
  length : Nat
  floatNs : Nat
  /-- Score of plan tile (u, v) at position v * w + u. -/
  scores : List (List Rec)
  /-- Score store LA of each tile (R273). -/
  stores : List Nat
  segs : List Segment
  flows : List PlanFlow
  barriers : List PlanBarrier
  /-- Bits [23:0] of the digest of 05.3. -/
  hash : Nat
  deriving DecidableEq, Repr

/-- An operation in flight: logical tile, record and the cycle at which its result is present. -/
structure InFlight where
  tile : Nat
  op : Nat
  done : Nat
  /-- Its destination: SRAM byte ranges as (first byte, length), for R288. -/
  dest : List (Nat × Nat)
  deriving DecidableEq, Repr

/-- Why a plan holds (R283). -/
inductive HoldCause where
  | recv | sendRoom | openDone | barrier
  deriving DecidableEq, Repr

/-- Why a stop is pending on a running plan. -/
inductive StopKind where
  | none | haltPoint
  deriving DecidableEq, Repr

/-- A running plan on a die: its context, queue, plan and plan clock (11.8), and its figures in the power path
(chapter 05). -/
structure Run where
  tenant : Nat
  handle : Nat
  queue : Nat
  slot : Nat
  /-- Command slot index of its RUN_PLAN, for the completion record. -/
  cmdNo : Nat
  plan : Plan
  /-- The plan cycle the clock has reached. -/
  clock : Nat := 0
  /-- Next record of each plan tile. -/
  next : List Nat
  inFlight : List InFlight := []
  /-- A hold and since when (R283). -/
  holding : Option (HoldCause × Ns) := none
  stop : StopKind := .none
  /-- Stopped at a halt point (R290). -/
  halted : Bool := false
  /-- Occurrence count of each barrier position, arrivals sent and releases held (R291). -/
  barCount : List Nat
  barSent : List Nat
  barFree : List (Nat × Nat) := []
  /-- Carried lateness and its part gathered in this epoch, ns (R198). -/
  late : Ns := 0
  cut : Ns := 0
  /-- Lateness below 1 ns, in units of 1/debtUnit ns (R141). -/
  lateSub : Nat := 0
  /-- Tray runtime at which the plan clock had its value, and at which the plan started; compute cycles done of the running run of 16, and the rate in force in
  it (R119, R161). -/
  clockAt : Ns := 0
  runFrom : Ns := 0
  cyc : Nat := 0
  inRate : Nat := 16
  /-- Issue rate r and the cycle budget of the power path (R119, R120). -/
  rate : Nat := 16
  budget : Nat := 0
  s50 : Nat := 0
  s2 : Nat := 0
  /-- Energy of this epoch, mW·ns, and the estimated power now with its 50 µs and 2 ms averages, mW (R120). -/
  eEpoch : Nat := 0
  estMw : Nat := 0
  avg50 : Nat := 0
  avg2 : Nat := 0
  /-- Limited by its epoch budget (R206). -/
  limited : Bool := false
  /-- Index of the contour segment the plan is in and its start time. -/
  seg : Nat := 0
  segFrom : Ns := 0
  /-- A selection of this run was degraded (R369). -/
  scoutDegraded : Bool := false
  /-- k and C of the last SSELECT. -/
  lastK : Nat := 0
  /-- Tile-cycles run so far (QUERY). -/
  tileCycles : Nat := 0
  deriving DecidableEq, Repr

/-- The units of one logical tile (R277): accumulators, weights, vector registers and selector. -/
structure TileUnit where
  /-- Accumulator rows by number: whether the row holds INT32, and 128 raw 32-bit elements. An unlisted row is zero. -/
  acc : List (Nat × Bool × List Nat) := []
  /-- Shadow and active weights: format and 128 rows of 128 raw elements. -/
  shadow : Option (Nat × List (List Nat)) := none
  weights : Option (Nat × List (List Nat)) := none
  /-- Vector registers by number: 64 raw FP32 lanes. An unlisted register is zero. -/
  v : List (Nat × List Nat) := []
  sel : List Nat := []
  deriving DecidableEq, Repr

/-- Owner of a granule (R465, R481, R567). -/
inductive Granule where
  | free
  /-- Owned by an object of the tenant. -/
  | owned (tenant : Nat) (object : Nat)
  /-- Queued for zeroing. -/
  | zeroing
  /-- Restored from the vault and held for the tenant. -/
  | held (tenant : Nat)
  /-- Not yet zeroed since power-up. -/
  | unready
  deriving DecidableEq, Repr

/-- A copy engine (R489, R602): the unit in hand and the 4 KiB buffer's last tenant. -/
structure Engine where
  /-- Tenant, handle, queue and unit number of the copy in hand. -/
  unit : Option (Nat × Nat × Nat × Nat) := none
  lastTenant : Option Nat := none
  /-- The 4 KiB buffer; a byte beyond the list is 0 (R602). -/
  buffer : List Byte := []
  deriving DecidableEq, Repr

/-- Tiles, SRAM, plans and copies of one die (chapters 11 and 18). -/
structure Tiles where
  /-- Row maps k_0 to k_7 (R255). -/
  rowMap : List Nat := List.replicate 8 16
  /-- SRAM bytes by die byte address 2^23 L + 128 LA + byte; canonical, an unlisted byte reads 0 (log 6, DESIGN CHOICE). -/
  sram : List Host.Cell := []
  /-- Poisoned 64-bit words by die word address (R262). -/
  poison : List Nat := []
  corrected : Nat := 0
  uncorrected : Nat := 0
  /-- Next line of each scrubbed bank, by 8 L + bank; an unlisted bank is at line 0 (R263). -/
  scrub : List (Nat × Nat) := []
  /-- Banks that have finished the running pass, and completed passes of the die. -/
  scrubDone : List Nat := []
  scrubPasses : Nat := 0
  runs : List Run := []
  units : List (Nat × TileUnit) := []
  /-- Granule owners by number; an unlisted granule is `base`. -/
  granules : List (Nat × Granule) := []
  granuleBase : Granule := .unready
  /-- 48 resident slots: tenant and handle (R479). -/
  slots : List (Option (Nat × Nat)) := List.replicate 48 none
  engines : List Engine := List.replicate 8 {}
  unitsMoved : Nat := 0
  /-- Round robin of the copy engines: the tenant, context and queue served last (R489). -/
  rrT : Option Nat := none
  rrC : List (Nat × Nat) := []
  rrQ : List ((Nat × Nat) × Nat) := []
  /-- RUN_PLANs that wait, in order: tenant, handle, queue (R493). -/
  waiting : List (Nat × Nat × Nat) := []
  deriving DecidableEq, Repr

/-- Port states (Table 12.5). -/
inductive PortState where
  | off | search | train | up | degraded | retrain | low | down
  deriving DecidableEq, Repr

/-- Line states of one direction (0x3000:06). -/
inductive LineState where
  | lane | reserve | calibrating | failed | unlocked | weak
  deriving DecidableEq, Repr

/-- A data or close flit that crosses the die (R334, R336). -/
structure TransitFlit where
  ty : Nat
  last : Bool
  label : Nat
  tenant : Nat
  fseq : Nat
  payload : List Byte
  deriving DecidableEq, Repr

/-- One port of the fabric (chapter 12). -/
structure Port where
  state : PortState := .off
  tx : List LineState := List.replicate 40 .unlocked
  rx : List LineState := List.replicate 40 .unlocked
  /-- Line of each lane, transmit and receive; none is unmapped (R295). -/
  txMap : List (Option Nat) := List.replicate 36 none
  rxMap : List (Option Nat) := List.replicate 36 none
  /-- A received LANEMAP waiting for its link sequence (R311). -/
  rxNext : Option (Nat × List (Option Nat)) := none
  shiftTx : Nat := 0
  shiftRx : Nat := 0
  /-- Group, identity and port of the neighbour, and its tray serial (R310). -/
  neighbour : Option (Nat × Nat × Nat × List Byte) := none
  txSeq : Nat := 0
  rxSeq : Nat := 0
  nakSent : Bool := false
  /-- Unacknowledged flits, oldest first: sequence, bytes, first sent (R323). -/
  replay : List (Nat × List Byte × Ns) := []
  retrainAt : Ns := 0
  downAt : Ns := 0
  /-- The line out for calibration and since when (R315). -/
  cal : Option (Nat × Ns) := none
  calNext : Nat := 0
  /-- When the last calibration of the rotation began (R315). -/
  calAt : Ns := 0
  farLight : Bool := false
  /-- Sweeps done since VHTR came on (Table 12.4): 1 the modulator rings, 2 the drop rings too. -/
  swept : Nat := 0
  helloHeard : Bool := false
  mapHeard : Bool := false
  lowLine : Nat := 0
  /-- Labels in use on this transmit direction (R327). -/
  labels : List Nat := []
  /-- Records waiting to be sent, by class and arrival (R341). -/
  out : List (List Byte) := []
  /-- Transit flits waiting for the link stage (R334). -/
  fwd : List TransitFlit := []
  /-- The far end's last STATUS: its stage-3 and stage-5 readings (R320). -/
  far : Option (Int × List Int) := none
  /-- Code of the most severe finding, and of the last fault finding on record (R321). -/
  finding : Nat := 0
  faultCode : Nat := 0
  deriving DecidableEq, Repr

/-- A receive flow registered or installed at this die (R328). -/
structure RxFlow where
  tenant : Nat
  handle : Nat
  /-- Position in the plan's flow table. -/
  pos : Nat
  id : Nat
  peer : Nat
  port : Nat
  allot : Nat
  /-- Queue of its run. -/
  queue : Nat := 0
  /-- Label once installed. -/
  label : Option Nat := none
  data : List Byte := []
  seq : Nat := 0
  /-- Bytes consumed and not yet returned as credit (R333). -/
  owed : Nat := 0
  deriving DecidableEq, Repr

/-- A send flow of this die (R327). -/
structure TxFlow where
  tenant : Nat
  handle : Nat
  pos : Nat
  id : Nat
  peer : Nat
  port : Nat
  space : Nat
  label : Nat
  /-- Queue of its run. -/
  queue : Nat := 0
  opened : Bool := false
  credit : Nat := 0
  /-- Bytes of each FSEND not yet sent, oldest first (R332). -/
  data : List (List Byte) := []
  seq : Nat := 0
  /-- The sending plan has ended and a close flit follows the last byte (R337). -/
  closing : Bool := false
  deriving DecidableEq, Repr

/-- A transit entry (R327, R336). -/
structure Transit where
  inPort : Nat
  inLabel : Nat
  tenant : Nat
  outPort : Nat
  outLabel : Nat
  id : Nat
  source : Nat
  dest : Nat
  seq : Nat := 0
  deriving DecidableEq, Repr

/-- An OPEN in the pending table (R328): its body and the arrival port. -/
structure PendingOpen where
  port : Nat
  tenant : Nat
  id : Nat
  group : Nat
  source : Nat
  dest : Nat
  label : Nat
  deriving DecidableEq, Repr

/-- A ring lock loop (R304 to R306): command, applied duty, consecutive updates beyond 25 % and at an end of the duty,
locked, search start. -/
structure Ring where
  u : Nat := 0
  d : Nat := 0
  bad : Nat := 0
  sat : Nat := 0
  locked : Bool := false
  searchAt : Option Ns := none
  /-- Heater failed its open-load check: count, and found open (R630). -/
  openFails : Nat := 0
  isOpen : Bool := false
  deriving DecidableEq, Repr

/-- Optical links of one die (chapter 12). -/
structure Fabric where
  ports : List Port := List.replicate 16 {}
  combB : Bool := false
  failedA : Bool := false
  failedB : Bool := false
  standbyGone : Bool := false
  failover : Bool := false
  failovers : Nat := 0
  /-- Loss of the active comb without a standby, until a port trains again on its light (R302) (log 185, DEDUCED). -/
  combLost : Bool := false
  /-- 690 monitor readings and the persistent baseline, 0.01 dBm (Table 12.7). -/
  monitor : List Int := []
  baseline : Option (List Int) := none
  /-- The far ends' readings held when the baseline was recorded, by port (log 20, DESIGN CHOICE). -/
  farBase : List (Option (Int × List Int)) := []
  /-- Rings by number 80 port + 40 drop + ring index; an unlisted ring is in its reset state. -/
  rings : List (Nat × Ring) := []
  /-- Applied duty × ns of each ring since power-on, up to a runtime (Table 10.1, L4). -/
  heat : List (Nat × Nat) := []
  heatAt : Ns := 0
  /-- Refinements of the crosstalk matrix by (heater, neighbour slot), 1/16384 (R307). -/
  xtalk : List ((Nat × Nat) × Int) := []
  rx : List RxFlow := []
  tx : List TxFlow := []
  transit : List Transit := []
  pendOpen : List PendingOpen := []
  /-- Flooded records seen, with their times (R342). -/
  seen : List (List Byte × Ns) := []
  tagDiscards : Nat := 0
  tagLogged : Option Ns := none
  replays : Nat := 0
  retrains : Nat := 0
  portsLost : Nat := 0
  flowsLost : Nat := 0
  corrected : Nat := 0
  ctrlDiscards : Nat := 0
  /-- Barrier roots: tenant, identifier, occurrence, participants and members arrived (R605). -/
  barriers : List ((Nat × Nat × Nat) × (Nat × List Nat)) := []
  deriving DecidableEq, Repr

/-- Bank states (0x3100:01). -/
inductive BankState where
  | free | held | blanking | recal | failed | gated
  deriving DecidableEq, Repr

/-- One scout bank (chapter 13). -/
structure Bank where
  /-- Reset: failed until its calibration tables are built at start-up (log 2, DESIGN CHOICE) (log 181, DEDUCED). -/
  state : BankState := .failed
  holder : Option (Nat × Nat) := none
  /-- 32 rows of 36 signed weights; empty is all zero. -/
  weights : List (List Int) := []
  /-- Zero-weight duties d0 and gains G by ring; empty before the table is built (R350). -/
  d0 : List Nat := []
  gain : List Nat := []
  /-- Sum over the four reference rings of the duty changes since calibration: a quarter of it is added to every d0 (R351). -/
  refSum : Int := 0
  /-- First free value of each recalibration's refinements of the bank's crosstalk coefficients (R350, log 3, DESIGN CHOICE). -/
  refines : List Nat := []
  /-- Tap baseline of the last recalibration (R368). -/
  tapBase : Int := 0
  /-- Runtime of the last recalibration (R368). -/
  calAt : Ns := 0
  /-- Comb-loss window: from the declaration until the reference rings have relocked (R369). -/
  window : Bool := false
  /-- Key scores in key order, none where the bank has no enabled row, and whether the key was streamed in a degraded
  condition (R349, R354, R369). -/
  keys : List (Option Int × Bool) := []
  /-- End of the blanking, and when the bank becomes free (R366). -/
  blankEnd : Ns := 0
  freeAt : Ns := 0
  /-- Tap power, baseline and temperature, 0.01 dBm and 1/16 °C (R357). -/
  tap : Int := 0
  tapT : Int := 400
  degraded : Bool := false
  /-- Below 12 dB of nominal: keys are invalid (R369). -/
  dark : Bool := false
  /-- A failure while held takes effect at the plan's end (R372). -/
  failPending : Bool := false
  /-- A gating waits for the bank to become free (R373). -/
  gatePending : Bool := false
  deriving DecidableEq, Repr

/-- Scout banks of one die (chapter 13). -/
structure Scouts where
  banks : List Bank := List.replicate 8 {}
  tablesBuilt : Bool := false
  selections : Nat := 0
  degraded : Nat := 0
  blankings : Nat := 0
  /-- Columns removed (R371). -/
  columnsOut : List Nat := []
  deriving DecidableEq, Repr

end Sys2Proof.Machine
end

