-- ==== Sys2Proof/Machine/PartsHost.lean ====
section
/-! DEFINITION. The state of the Legend, the field network, the host port, contexts and the tray's service,
start-up, Frost, hold-up and firmware parts (chapters 14 to 23). -/

namespace Sys2Proof.Machine
open Sys2Proof

/-! ### The Legend and the field network (chapters 14 to 16) -/

/-- One object instance: index, subindex and die selector (R375). -/
structure ObjKey where
  idx : Nat
  sub : Nat
  sel : Nat
  deriving DecidableEq, Repr

/-- A write in a master's gate queue (R395). -/
structure GateWrite where
  key : ObjKey
  value : List Byte
  /-- Sequence and service code of the request it answers; none when it did not come by a frame. -/
  req : Option (Nat × Nat) := none
  deriving DecidableEq, Repr

/-- What an accepted write still waits for before it is acknowledged (R383, R400 to R403). -/
structure Waiting where
  master : MasterId
  write : GateWrite
  /-- Effective epoch to be named, 0 when none (R400). -/
  epoch : Nat
  /-- The effect is in force. -/
  effect : Bool
  /-- The commit is still awaited (R383). -/
  commit : Bool
  deriving DecidableEq, Repr

/-- An unlock nonce (R391): its bytes, issue time and the tray's ephemeral key pair number. -/
structure Nonce where
  bytes : List Byte
  at_ : Ns
  keyNo : Nat
  deriving DecidableEq, Repr

/-- An Expert session (R387, R394), and the UNLOCK_RESPONSE frame that opened it (R424). -/
structure Session where
  byPassword : Bool
  ends : Ns
  ktag : List Byte
  opener : List Byte := []
  deriving DecidableEq, Repr

/-- Address and UDP port of a station (R408). -/
structure Peer where
  addr : Nat
  port : Nat
  deriving DecidableEq, Repr

/-- A subscription (R418 to R420). -/
structure Subscription where
  no : Nat
  key : ObjKey
  /-- Period in ms, 0 for on change. -/
  period : Nat
  since : Ns
  renewed : Ns
  /-- Status and value last notified (on change). -/
  last : Option (List Byte) := none
  /-- Instances of a STREAM object that wait for the allowance: sample time and value, oldest first (R420). -/
  late : List (Nat × List Byte) := []
  /-- Where its notifications go: the source of its last SUBSCRIBE (R408). -/
  peer : Option Peer := none
  deriving DecidableEq, Repr

/-- One NOTIFY segment (Table 15.4): where it goes (R408), subscription, object, status, sample time, total length, offset and
data. -/
structure NotifySeg where
  peer : Option Peer
  no : Nat
  key : ObjKey
  status : Nat
  time : Nat
  total : Nat
  off : Nat
  data : List Byte
  deriving DecidableEq, Repr

/-- An SPDM responder (R535): its place in the connection sequence (0 none, 1 VERSION, 2 CAPABILITIES, 3 ALGORITHMS
answered) and the transcripts that later signatures cover: the connection, the certificate part, the measurements. -/
structure Spdm where
  stage : Nat := 0
  conn : List Byte := []
  cert : List Byte := []
  meas : List Byte := []
  deriving DecidableEq, Repr

/-- One Legend master (R385, R387, R391, R411 to R421). -/
structure Master where
  session : Option Session := none
  nonce : Option Nonce := none
  /-- Highest sequence H, seen sequences of its window, stored responses and the time of the last request. -/
  high : Option Nat := none
  seen : List Nat := []
  responses : List (Nat × List Byte) := []
  lastReq : Ns := 0
  /-- Accepted requests without a response yet: sequence, and the source address and port the response goes to (R408). -/
  peers : List (Nat × Peer) := []
  /-- Snapshot: object, bytes, number, time (R415). -/
  snapshot : Option (ObjKey × List Byte × Nat × Ns) := none
  snapNo : Nat := 0
  /-- Write assembly: object, total length, bytes, time (R417). -/
  assembly : Option (ObjKey × Nat × List Byte × Ns) := none
  subs : List Subscription := []
  subNo : Nat := 0
  notifySeq : Nat := 0
  /-- Segments of a notification begun that wait for the allowance (R421). -/
  unsent : List NotifySeg := []
  /-- Context selector 0x2600:10 of each die (R385) (log 131, DEDUCED). -/
  ctxSel : List (Nat × Nat) := []
  /-- Gate queue, oldest first, at most 64 (R395). -/
  queue : List GateWrite := []
  /-- Notification allowance in bits and the time it was last brought up to date (R421). -/
  allowance : Int := 0
  allowAt : Ns := 0
  /-- PLCA active: a BEACON is being received (R406). -/
  plca : Bool := false
  /-- SPDM responder over LAP, and the time of the last request (R535). -/
  spdm : Spdm := {}
  spdmAt : Ns := 0
  deriving DecidableEq, Repr

/-- The Legend of the tray. -/
structure Legend where
  /-- Stored settings in force, by object; an unlisted object holds its default (chapter 16). -/
  settings : List (ObjKey × Nat) := []
  /-- Tray non-volatile memory: committed values of persistent objects (R383). -/
  nv : List (ObjKey × Nat) := []
  /-- Pending raises: value and the epoch from which it applies (R401). -/
  raises : List (ObjKey × Nat × Nat) := []
  acks : List Waiting := []
  /-- Number of the last gate tick that took a write (R395). -/
  lastTick : Nat := 0
  /-- Site password: salt and hash; the unlock key (R388, R393). -/
  password : Option (List Byte × List Byte) := none
  unlockKey : Option (List Byte) := none
  pwFailures : Nat := 0
  /-- Runtime at which the lockout ends (R389). -/
  lockoutEnd : Option Ns := none
  conflicts : Nat := 0
  unlockFailures : Nat := 0
  busyRefused : Nat := 0
  commitFailures : Nat := 0
  framesDiscarded : Nat := 0
  notifSkipped : Nat := 0
  tagFailures : Nat := 0
  deriving DecidableEq, Repr

/-! ### Host port (chapter 17) -/

/-- A function: physical function of port p, or VF n of port p. -/
inductive Fn where
  | pf (port : Nat)
  | vf (port n : Nat)
  deriving DecidableEq, Repr

/-- One MSI-X vector: message address and data, mask, pending, holdoff µs and the end of a running holdoff. -/
structure MsixVec where
  addr : Nat := 0
  data : Nat := 0
  masked : Bool := true
  pend : Bool := false
  holdoff : Nat := 0
  until_ : Option Ns := none
  /-- A cause merged within the holdoff (R456). -/
  merged : Bool := false
  deriving DecidableEq, Repr

/-- Notice ring registers (Table 17.3, R452, R453). -/
structure Ring32 where
  base : Nat := 0
  size : Nat := 0
  head : Nat := 0
  tail : Nat := 0
  seq : Nat := 0
  deriving DecidableEq, Repr

/-- What the tray sends for a function and holds back while Bus Master Enable is clear (R446). -/
inductive HostOp where
  | write (addr : Nat) (bytes : List Byte)
  | notice (bytes : List Byte)
  | msix (v : Nat)
  /-- A doorbell that passed the checks before its host reads: value, context-table entry and commands as fetched. -/
  | bell (value : Nat) (entry : List Byte) (cmds : List (List Byte))
  deriving DecidableEq, Repr

/-- A DOE capability (R461, R462, R534). -/
structure Doe where
  err : Bool := false
  spdm : Spdm := {}
  deriving DecidableEq, Repr

/-- One virtual function that exists (Table 17.3) (log 13, DESIGN CHOICE). -/
structure VF where
  bme : Bool := false
  /-- Tenant latched at enable, none for 0xFFFF (R436, R443). -/
  tenant : Option Nat := none
  ctxBase : Nat := 0
  ctxSize : Nat := 0
  evBase : Nat := 0
  evSize : Nat := 0
  ring : Ring32 := {}
  funcError : BitVec 8 := 0
  errDoorbell : Nat := 0
  overflow : Bool := false
  vecs : List MsixVec := List.replicate 16 {}
  held : List HostOp := []
  /-- In reset: an FLR has begun (R463). -/
  inReset : Bool := false
  /-- VF Enable or NumVFs no longer covers it: it goes when its reset completes (R444). -/
  gone : Bool := false
  doe : Doe := {}
  deriving DecidableEq, Repr

/-- One physical function (Table 17.7) and its port (log 13, DESIGN CHOICE). -/
structure PF where
  bme : Bool := false
  /-- Memory Space Enable of the function, and of its virtual functions (R446). -/
  mse : Bool := false
  vfMse : Bool := false
  d3hot : Bool := false
  vfEnable : Bool := false
  numVFs : Nat := 0
  /-- Trained rate in GT/s, width and FLIT mode; none while in Detect (R438). -/
  link : Option (Nat × Nat × Bool) := none
  ring : Ring32 := {}
  vecs : List MsixVec := List.replicate 2 {}
  held : List HostOp := []
  claim : Bool := false
  mboxBusy : Bool := false
  mboxReady : Bool := false
  mboxNotOwner : Bool := false
  mboxNotTaken : Bool := false
  /-- Sequence of the request in progress (R458). -/
  mboxSeq : Nat := 0
  respLen : Nat := 0
  reqBuf : List Byte := []
  respBuf : List Byte := []
  doe : Doe := {}
  deriving DecidableEq, Repr

/-! ### Contexts (chapter 18) -/

/-- Kinds of binding (Table 18.7). -/
inductive Binding where
  | sram (object first count : Nat)
  | host (addr len : Nat)
  /-- A read-only binding of shared object `id`. -/
  | shared (id : Nat)
  deriving DecidableEq, Repr

/-- A fetched command: submission index and its 64 bytes, when it was exposed and when it started (R475). -/
structure Cmd where
  idx : Nat
  bytes : List Byte
  /-- Number of the doorbell that exposed it (R503). -/
  bell : Nat
  started : Option Ns := none
  /-- Refused with WAIT_CYCLE (R503). -/
  refused : Bool := false
  /-- Units of a COPY, SCRUB or LOAD_PLAN still to run, and the next unit number (R489). -/
  units : Nat := 0
  nextUnit : Nat := 0
  /-- FENCE: doorbells of the tenant counted when it started (R501). -/
  fence : Option Nat := none
  /-- Since when it waits (R506). -/
  waitFrom : Option Ns := none
  deriving DecidableEq, Repr

/-- One queue of a context (Table 18.2). -/
structure Queue where
  sub : Nat
  comp : Nat
  z : Nat
  vector : Nat
  horizon : Nat
  head : Nat := 0
  tail : Nat := 0
  /-- Completion records written, for the phase bit (R476). -/
  done : Nat := 0
  cmds : List Cmd := []
  faulted : Bool := false
  energy : Nat := 0
  deriving DecidableEq, Repr

/-- An active context (R470). -/
structure Ctx where
  gen : Nat
  queues : List (Option Queue)
  bindings : List (Nat × Binding) := []
  /-- Resident die and slot (R479). -/
  resident : Option (Nat × Nat) := none
  plans : List (Nat × Plan) := []
  energy : Nat := 0
  tileCycles : Nat := 0
  /-- Energies frozen by a reset (R230). -/
  frozen : Bool := false
  /-- SRAM bytes held at the last epoch boundary (R226). -/
  held : Nat := 0
  deriving DecidableEq, Repr

/-- A shared object (R483). -/
structure Shared where
  die : Nat
  object : Nat
  first : Nat
  count : Nat
  deriving DecidableEq, Repr

/-- One event (18.8). -/
structure Event where
  value : Nat := 0
  errored : Bool := false
  deriving DecidableEq, Repr

/-- A tenant (chapters 17, 18). -/
structure Tenant where
  shared : List (Nat × Shared) := []
  events : List (Nat × Event) := []
  energy : Nat := 0
  bells : Nat := 0
  objNo : Nat := 0
  /-- Energies of contexts ended by a reset, by handle: context, then queues (R230). -/
  frozen : List (Nat × List Nat) := []
  deriving DecidableEq, Repr

/-! ### Start-up, Frost, hold-up, firmware and service (chapters 19 to 23) -/

/-- Die states (0x6000:06). -/
inductive DieState where
  | off | starting | running | frost | flowHalt | tripped | latched
  deriving DecidableEq, Repr

/-- Frost states (0x7000:04). -/
inductive FrostState where
  | running | stopPending | entering | frozen | thawing
  deriving DecidableEq, Repr

/-- Why a die entered Frost. -/
inductive FrostCause where
  | command | holdup
  deriving DecidableEq, Repr

/-- Frost of one die (20.1 to 20.3). -/
structure Frost where
  state : FrostState := .running
  cause : FrostCause := .command
  requestAt : Ns := 0
  /-- Start of state 2. -/
  enterAt : Ns := 0
  thawAt : Ns := 0
  /-- A thaw trigger kept while the die cannot thaw (R544). -/
  thawKept : Bool := false
  /-- An entry requested during a thaw (R545). -/
  entryKept : Bool := false
  frozenAt : Ns := 0
  entries : Nat := 0
  total : Ns := 0
  deriving DecidableEq, Repr

/-- Start-up, faults and firmware of one die (chapters 19, 21, 23). -/
structure Service where
  state : DieState := .off
  /-- The start-up step the die is in, 0 none (19.2). -/
  step : Nat := 0
  /-- A start-up step ended late once already (R528). -/
  lateOnce : Bool := false
  heldOff : Bool := false
  /-- Governor firmware verified and measured (R521). -/
  fwDigest : Option (List Byte) := none
  fwRelease : Nat := 0
  fwFails : Nat := 0
  idAccepted : Bool := false
  selfTested : Bool := false
  govRuns : Bool := false
  /-- The start is a trip restart (R173). -/
  tripRestart : Bool := false
  /-- A warm reset is running (R537). -/
  warm : Bool := false
  failedTiles : BitVec 136 := 0
  /-- Logical tiles whose remap is requested (R622). -/
  remap : List Nat := []
  spares : Nat := 0
  /-- Poison events by tile within the window of R621: tile and accumulated runtime. -/
  poisonTimes : List (Nat × Ns) := []
  /-- Granules whose first poisoned word the moraine holds (R262). -/
  poisonLogged : List Nat := []
  /-- Firmware bank in use, and the holding pattern (R578 to R583). -/
  bankB : Bool := false
  holding : Option Ns := none
  handoffAt : Option Ns := none
  newImage : Bool := false
  firnTaken : Bool := false
  holdCut : Bool := false
  /-- A cold start holds the lead at 30 mV until the next boundary (R582). -/
  leadHold : Bool := false
  /-- A failed handoff: no proposal in this epoch (R583). -/
  noProposal : Bool := false
  deriving DecidableEq, Repr

/-- One granule of a vault save (R562, R564): die, granule, tenant and its bytes that are not zero. -/
structure SavedGranule where
  die : Nat
  granule : Nat
  tenant : Nat
  cells : List Host.Cell
  /-- The tag of the granule verifies (R564). -/
  tagOk : Bool := true
  deriving DecidableEq, Repr

/-- A vault save: system time of the save and its granules. -/
structure VaultSave where
  time : Nat
  granules : List SavedGranule
  deriving DecidableEq, Repr

/-- The hold-up module, charger and vault (20.4 to 20.7). Times are in accumulated runtime (R612) (log 251, DEDUCED). -/
structure HoldUp where
  present : Bool := false
  since : Ns := 0
  idRead : Bool := false
  serial : List Byte := []
  faulted : Bool := false
  voltage : Nat := 0
  current : Nat := 0
  charging : Bool := false
  charged : Bool := false
  chargedAt : Ns := 0
  capacity : Nat := 0
  countedMah : Nat := 0
  cycles : Nat := 0
  lastTest : Ns := 0
  available : Bool := false
  onHoldup : Bool := false
  converter : Bool := false
  holdAt : Ns := 0
  events : Nat := 0
  saving : Bool := false
  saves : Nat := 0
  /-- The held save: system time and its granules (die, granule, tenant, bytes that are not zero). -/
  save : Option VaultSave := none
  /-- The save in progress. -/
  partialSave : List SavedGranule := []
  saveTime : Nat := 0
  restoring : Bool := false
  /-- Runtime at which the hold of restored granules ends (R567). -/
  restoredEnd : Option Ns := none
  deriving DecidableEq, Repr

/-- Slot states (0x1600:06). -/
inductive SlotState where
  | empty | staged | active | previous | invalid
  deriving DecidableEq, Repr

/-- Firmware update (chapter 21) and tray start-up (chapter 19). -/
structure Firmware where
  slotA : SlotState := .active
  slotB : SlotState := .empty
  /-- Slot the running image came from. -/
  runB : Bool := false
  release : Nat := 0
  digest : List Byte := []
  /-- Release and digest of the other slot's image. -/
  otherRelease : Nat := 0
  otherDigest : List Byte := []
  status : Nat := 0
  result : Nat := 0
  chunkNo : Nat := 0
  chunks : List (Nat × List Byte) := []
  stageLen : Nat := 0
  /-- A write of 0 to the chunk number: the next chunk opens a delivery (R574). -/
  opening : Bool := false
  /-- Security floor of the staged image and of the tray (R575). -/
  stagedFloor : Nat := 0
  floor : Nat := 0
  /-- Earliest runtime of the tray controller's next handoff (R577). -/
  handAt : Option Ns := none
  /-- Handoff: next die to hand off, whether rolling back, and the confirmation start (R576 to R585). -/
  nextDie : Option Nat := none
  rollBack : Bool := false
  confirmFrom : Option Ns := none
  trayReady : Bool := false
  bootFailed : Bool := false
  running : Bool := false
  /-- The tray controller's own handoff runs: the gate queues writes (R398). -/
  handoff : Bool := false
  /-- The tray controller restarts after a lockstep mismatch (R611). -/
  restarting : Bool := false
  restarts : List Ns := []
  /-- Runtime of bus power, or of the trigger of a tray cold reset (R515). -/
  startAt : Ns := 0
  /-- Lockstep mismatches of the boot ROM since then (R519). -/
  lockMiss : Nat := 0
  /-- A tray cold reset has been commanded and answered, and follows at once (R403, R539). -/
  resetDue : Bool := false
  /-- Reports that did not fit the dies' buffers during the restart (R611). -/
  lostReports : Nat := 0
  deriving DecidableEq, Repr

/-- A moraine report (Table 23.3): stamp in accumulated runtime, source (die index or 0xF), code, system time, detail
bytes and repeats. -/
structure Report where
  stamp : Ns
  source : Nat
  code : Nat
  sysTime : Nat
  detail : List Byte
  repeats : Nat := 0
  deriving DecidableEq, Repr

/-- The moraine: reports stamped and not yet assigned, oldest first; entries by sequence, newest first, at most
4,096; the next sequence (R612 to R615). -/
structure Moraine where
  reports : List Report := []
  entries : List (Nat × Report) := []
  next : Nat := 0
  deriving DecidableEq, Repr

/-- Indicators (23.4). -/
structure Indicators where
  openLoads : BitVec 11 := 0
  fails : List Nat := List.replicate 11 0
  passes : List Nat := List.replicate 11 0
  deriving DecidableEq, Repr

end Sys2Proof.Machine
end

