-- ==== Sys2Proof/Machine/PartsPower.lean ====
section
/-! DEFINITION. The state of the clocks, rails, operating point and power path of one die, and of the tray's
contacts and leveling (chapters 02 to 06): every field is plain data, its default is its value at reset. -/

namespace Sys2Proof.Machine
open Sys2Proof

/-- The two reference inputs of RL (Table 03.1). -/
inductive RefIn where
  | xa | xb
  deriving DecidableEq, Repr

/-- The two compute loops CPLL-A and CPLL-B (Table 03.1). -/
inductive LoopId where
  | a | b
  deriving DecidableEq, Repr

/-- The clock sources that carry a ready flag of their own (Table 03.2). -/
inductive ClkSource where
  | xa | xb | fosc | sosc | rl | opll
  deriving DecidableEq, Repr

/-- One compute loop (R36, R43 to R47). -/
structure Loop where
  /-- Ready flag (Table 03.2); reset: clear, the count has not run (log 2, DESIGN CHOICE). -/
  ready : Bool := false
  /-- The step the loop is set to, N = 20 - step (R36). -/
  step : Nat := 15
  /-- Marked failed (R47). -/
  failed : Bool := false
  /-- Tray runtimes of its clock faults (R47 counts those of the last 24 h). -/
  faults : List Ns := []
  deriving DecidableEq, Repr

/-- Clocks and time of one die (chapter 03). -/
structure Clk where
  /-- Ready flags of XA, XB, FOSC, SOSC, RL and OPLL (Table 03.2). -/
  xaReady : Bool := false
  xbReady : Bool := false
  foscReady : Bool := false
  soscReady : Bool := false
  rlReady : Bool := false
  opllReady : Bool := false
  /-- The reference RL runs on (R37). -/
  refInUse : RefIn := .xa
  /-- RL holds over (R37). -/
  holdover : Bool := false
  /-- A relock to this input is in progress (R37). -/
  relockTo : Option RefIn := none
  /-- Since when neither reference has a ready flag (R39). -/
  bothLostAt : Option Ns := none
  /-- R39 halted the die; only a warm reset resumes it. -/
  refsLostHalt : Bool := false
  /-- The fixed domains run from FOSC (R39, Table 03.4). -/
  fixedOnFosc : Bool := false
  /-- A warm reset waits for a reference (R39). -/
  warmResetWaits : Bool := false
  /-- REF_MISMATCH (R40). -/
  refMismatch : Bool := false
  loopA : Loop := {}
  loopB : Loop := {}
  /-- The active compute loop (03.3). -/
  active : LoopId := .a
  /-- The multiplexer selects the RL/16 bridge (03.3). -/
  onBridge : Bool := false
  /-- The step at which compute runs, or last ran (R635). -/
  curStep : Nat := 15
  /-- The compute clock has run since the die start (R635). -/
  computeRan : Bool := false
  /-- The step learnt for the coming boundary (R43). -/
  nextStep : Option Nat := none
  /-- A raise waits on its old step for the idle loop (R45). -/
  raiseWaits : Bool := false
  /-- 0x5000:04 (Table 03.3). -/
  switchStatus : Nat := 0
  /-- Clock enables 0x5000:05 (R50, R55). -/
  enables : BitVec 32 := 0x0000FFFF#32
  /-- The enables kept over Frost (R55). -/
  enablesKept : Option (BitVec 32) := none
  /-- Registers of the gateable blocks by block (the enable bit) and offset; offset 0 is the identity word and not listed. An
  unlisted register is 0 (log 19, DESIGN CHOICE). -/
  blockRegs : List ((Nat × Nat) × BitVec 32) := []
  /-- CLKMON source, exponent and drive (R56, R57). -/
  monSrc : Nat := 0x0C
  monK : Nat := 0
  monDrive : Bool := false
  /-- Preferred reference 0x5000:01, volatile (R37, R38, R64). -/
  preferred : RefIn := .xa
  /-- Values in force of the four compensated circuits FOSC, SOSC, bandgap, droop (R58). -/
  comp : List Int := [0, 0, 0, 0]
  /-- System time is the larger of `timeFloor` and tray runtime + `timeOff` + what the rate has steered (R60, R62). -/
  timeOff : Int := 0
  timeFloor : Nat := 0
  /-- The rate adjustment of the running 1 ms, ns per ms, and its start (R59, R60). -/
  rateAdj : Int := 0
  rateFrom : Ns := 0
  timeValid : Bool := false
  /-- 0x5000:0B. -/
  lastOffset : Int := 0
  /-- Consecutive exchanges within 5 ns, and beyond 40 ns (R61, R62). -/
  goodExch : Nat := 0
  badExch : Nat := 0
  /-- The exchange in progress: its number and own send time (R59, R344). -/
  exchOpen : Option (Nat × Nat) := none
  exchNo : Nat := 0
  /-- Offset still to be steered out, ns (R59). -/
  steer : Int := 0
  /-- Clock faults, total, 0x6000:0C. -/
  clockFaults : Nat := 0
  deriving DecidableEq, Repr

/-- Rails, sequencer and regulator of one die (chapter 04). Voltages are in units of 0.25 mV (type MV). -/
structure Rails where
  vio : Bool := false
  vsram : Bool := false
  vcore : Bool := false
  vana : Bool := false
  vhtr : Bool := false
  /-- VSRAM held at 0.55 V retention (R87). -/
  retention : Bool := false
  /-- VSRAM operating voltage in force (R91). -/
  vsramMv : Nat := 3200
  /-- The governor controls AVSBus (R70). -/
  avsGov : Bool := false
  /-- An AVSBus fault holds the die at F15 until a warm reset (R71). -/
  avsFault : Bool := false
  /-- The voltage write in progress: its target, whether it was retried (R71). -/
  avsWrite : Option (Nat × Bool) := none
  /-- When that write was issued (R71, R74). -/
  writeAt : Ns := 0
  /-- The final target of the move in progress (R74). -/
  avsGoal : Nat := 0
  /-- The voltage of the last completed and settled write (R74). -/
  vcoreSet : Nat := 0
  /-- The last move is settled (R74). -/
  vReady : Bool := true
  /-- The target in force, 0x2100:03; 0 while none is (R638). -/
  target : Nat := 0
  /-- Measured VCORE and current (0x2100:04, 0x2100:05). -/
  vcoreMeas : Nat := 0
  vcoreMa : Nat := 0
  /-- Working VCORE phases (R69). -/
  phases : BitVec 26 := BitVec.allOnes 26
  /-- The phases in use: 24, and two spares (R69). -/
  active : BitVec 26 := 0x0FFFFFF#26
  /-- VOUT_MAX and the over-voltage fault limit, in 0.25 mV, as the tray controller configured them (R70); 0 before its first
  start (log 2, DESIGN CHOICE). -/
  voutMax : Nat := 0
  ovLimit : Nat := 0
  /-- The regulator's over-current limit in A (R69). -/
  ocLimit : Nat := 1750
  deriving DecidableEq, Repr

/-- Margin, ageing and the regulator alert of one die (chapter 04). -/
structure OpPoint where
  /-- Wide margin in force (R78). -/
  wide : Bool := false
  /-- A wide write waits for its step or its voltage (R78). -/
  wideWaits : Bool := false
  /-- A lean write waits behind a wide write (R79). -/
  leanAfterWide : Bool := false
  /-- Ageing trim T in 0.25 mV (R81, persistent). -/
  trim : Nat := 0
  /-- A fall of T waits for the boundary (R82). -/
  trimFall : Option Nat := none
  /-- T before the move that its last change started (R134). -/
  trimWas : Nat := 0
  overdue : Bool := false
  saturated : Bool := false
  /-- Lowest-numbered step allowed after saturation (R84). -/
  agedCeiling : Nat := 0
  /-- Runtime with VCORE on since the last measurement, ns (R81). -/
  ageRuntime : Ns := 0
  /-- The runtime at which the last 24 h of R83 began to count. -/
  overdueFrom : Ns := 0
  /-- Feed-forward lead in 0.25 mV (R96). -/
  lead : Nat := 0
  /-- Segments that still owe a lead: tenant, handle, segment, lead (R97). -/
  leadOwed : List (Nat × Nat × Nat × Nat) := []
  /-- REG_ALERT_n asserted (R85). -/
  alert : Bool := false
  alertCause : Nat := 0
  /-- The causes that hold REG_ALERT_n asserted now (R637). -/
  liveCauses : Nat := 0
  /-- Tray runtime of the last fall below 22 phases (R637). -/
  phaseFallAt : Ns := 0
  alertCount : Nat := 0
  /-- Tray runtime of the assertion that began the forced state (R86). -/
  alertAt : Ns := 0
  deassertAt : Option Ns := none
  /-- 0x2100:0F: hold, issue cut, awaiting release, supply lag. -/
  hold : Bool := false
  issueCut : Bool := false
  awaitRelease : Bool := false
  supplyLag : Bool := false
  /-- Alert divider at /4 (R85). -/
  div4 : Bool := false
  acked : Bool := false
  /-- The F15 write of R86 is still to settle (R88). -/
  f15Pending : Bool := false
  /-- R87 halted compute. -/
  alertHalt : Bool := false
  deriving DecidableEq, Repr

/-- One phase entry (Table 05.2); powers in 0.1 W, the margin in mV. -/
structure PhaseEntry where
  owner : Nat
  hash : Nat
  phase : Nat
  mean : Nat
  p99 : Nat
  margin : Nat
  duration : Ns := 0
  execs : Nat := 0
  /-- Consecutive executions without a trip in the first 2 µs (R100). -/
  clean : Nat := 0
  /-- A contour deviation: the learned entry stands for the contour (R102). -/
  learned : Bool := false
  deriving DecidableEq, Repr

/-- What the context of one resident slot may draw in the running epoch, mW (R111 to R115), and the energy that its ended plans
have drawn of it, mW·ns. -/
structure SlotBudget where
  budget : Nat := 0
  s50 : Nat := 0
  s2 : Nat := 0
  used : Nat := 0
  deriving DecidableEq, Repr

/-- Budgets and limits of one die (chapter 05); powers in mW. -/
structure Power where
  /-- Phase table, most recently used first, at most 4,096 entries (R101). -/
  phases : List PhaseEntry := []
  phaseHits : Nat := 0
  phaseMisses : Nat := 0
  phaseEvictions : Nat := 0
  deviations : Nat := 0
  /-- Energies in mW·ns of the last epochs, newest first, at most 28,610 (R109). -/
  epochs : List Nat := []
  /-- Energy of the running epoch, mW·ns. -/
  epochEnergy : Nat := 0
  /-- P_g, B, R_oh and C (R109, R110). -/
  pg : Nat := 0
  budget : Nat := 0
  roh : Nat := 0
  /-- Overhead measured over the last epoch, mW (R110). -/
  overhead : Nat := 0
  share : Nat := 0
  /-- Share for the next epoch, and the tray-sustainable step (R126). -/
  shareNext : Option Nat := none
  trayStep : Nat := 15
  /-- Shares did not come by 650 µs (R127). -/
  sharesLate : Bool := false
  sealed : Bool := false
  /-- The division mode waiting for the boundary (R116). -/
  sealedNext : Option Bool := none
  /-- Sealed step 0x2000:06 as written, and table 0x2000:20: reservation W and quota by tenant. -/
  sealedStep : Nat := 8
  sealedTable : List (Nat × Nat × Nat) := []
  /-- The admitted tenants in ascending order, by position, as they stood at the last boundary (R594). -/
  positions : List Nat := []
  /-- Log 111, DEDUCED. -/
  sealBroken : Bool := false
  /-- The sealed step lies above the ceiling step, and the moraine holds it (R118). -/
  sealAbove : Bool := false
  /-- The ceiling step the die then proposes (R118). -/
  sealCeil : Nat := 0
  glacierBinds : Bool := false
  shareBinds : Bool := false
  surgeCut : Bool := false
  deviated : Bool := false
  cutTime : Ns := 0
  demand : List Nat := List.replicate 16 0
  /-- The 99th-percentile demand curve (R123). -/
  demand99 : List Nat := List.replicate 16 0
  /-- Start-pool budget of each resident slot without a running plan (R111). -/
  poolShare : Nat := 0
  /-- The budgets of the resident slots, fixed at the last boundary (R112). -/
  slots : List SlotBudget := List.replicate 48 {}
  deriving DecidableEq, Repr

/-- Units of stretch debt in one ns: they make a quarter of every compute-root period a whole number (R138, R141). -/
def debtUnit : Nat := 93117024

/-- An armed window (R140, R151): the segment whose start opened it, none for the one of a thaw, and when it closes, none before
its segment has started. -/
structure Armed where
  seg : Option (Nat × Nat × Nat)
  close : Option Ns
  deriving DecidableEq, Repr

/-- Droop of one die (chapter 06). Debts are in units of 1/debtUnit ns. -/
structure Droop where
  debtEpoch : Nat := 0
  debtLast : Nat := 0
  usedLast : Ns := 0
  debtTotal : Nat := 0
  runLen : Nat := 0
  longest : Nat := 0
  longestLast : Nat := 0
  trips : List Nat := List.replicate 64 0
  trippedTotal : Nat := 0
  overruns : Nat := 0
  masked : BitVec 64 := 0
  lineFailed : BitVec 64 := 0
  /-- Detectors whose second line has failed: masked needs both (R136). -/
  lineFailed2 : BitVec 64 := 0
  /-- The line under test, 0 or 1 (R136). -/
  testLine : Nat := 0
  armed : List Armed := []
  /-- Segments with a trip in their armed window (R140): tenant, handle, segment. -/
  attributed : List (Nat × Nat × Nat) := []
  /-- Float used exceeded the die float in this epoch (R145). -/
  overrun : Bool := false
  /-- The proposal of this epoch is lowered, and the next one is to be (R143, R144). -/
  loweredThis : Bool := false
  lowerNext : Bool := false
  /-- Epochs left in which no raise is proposed. -/
  noRaise : Nat := 0
  /-- Monitor-only duty (R147). -/
  monitor : Bool := false
  /-- Moraine time of the last overrun entry. -/
  overrunAt : Option Ns := none
  deriving DecidableEq, Repr

/-- TAP controller instructions of the observation connector (R27). -/
inductive TapInstr where
  | bypass | idcode | extest | sample | preload | clamp | highz | other
  deriving DecidableEq, Repr

/-- Contacts and power of the tray (chapters 02, 04, 05). -/
structure TrayPower where
  /-- TRAY_EN_n asserted (R18); reset is before it asserts (log 2, DESIGN CHOICE). -/
  trayEn : Bool := false
  slotPins : Nat := 0
  slotLatched : Nat := 0
  /-- The 1 ms measurements of the last 10 ms, newest first: 48 V bus in mV, inlet in 1/16 °C (R31). -/
  busSamples : List Nat := []
  inletSamples : List Int := []
  /-- 48 V bus, 10 ms average, mV; inlet average, 1/16 °C; input current, mA (R31). -/
  busMv : Nat := 0
  inletT : Int := 0
  inputMa : Nat := 0
  /-- 12 V bus, mV (0x1200:21). -/
  bus12Mv : Nat := 0
  /-- When bus power began (R19). -/
  busFrom : Option Ns := none
  busLost : Bool := false
  /-- While the bus is lost: when it was last known to lie outside 40 to 60 V (R20). -/
  busBadAt : Ns := 0
  /-- Input disconnected after an over-voltage (R20). -/
  inputOff : Bool := false
  /-- Effective tray cap, and a rise waiting for the boundary (R29, R31), mW. -/
  effCap : Nat := 0
  effCapNext : Option Nat := none
  tap : TapInstr := .bypass
  /-- Working bus converters BC0 to BC3 (R67). -/
  converters : BitVec 4 := 0xF#4
  /-- The restriction of R68 is in force. -/
  convRestrict : Bool := false
  railBudget : Nat := 0
  trayStep : Nat := 15
  /-- Bus input power of the last epoch and power of loads and charger, mW (R125). -/
  busPower : Nat := 0
  loadsPower : Nat := 0
  epsilon : Nat := 0
  levelActive : Bool := false
  capSetsStep : Bool := false
  /-- Powered down by 0x1200:10 (R625). -/
  down : Bool := false
  sharesLate : Bool := false
  deriving DecidableEq, Repr

end Sys2Proof.Machine
end

