-- ==== Sys2Proof/Machine/PartsCmd.lean ====
section
/-! DEFINITION. The operand types of the commands: what a measurement, a record or a host read brings to the block
from outside. -/

namespace Sys2Proof.Machine
open Sys2Proof

/-- Why the bus is declared lost (R20). -/
inductive BusLossCause where
  | under | excess | collapse
  deriving DecidableEq, Repr

/-- The estimator's figures for one running context, without uplift (R120): power now and its 50 µs and 2 ms
averages, mW. -/
structure RateSample where
  t : Nat
  h : Nat
  estMw : Nat
  avg50 : Nat
  avg2 : Nat
  deriving DecidableEq, Repr

/-- What a 10 µs energy interval measures (R211). -/
structure EnergySample where
  /-- VCORE voltage (MV) and average current, mA. -/
  mv : Nat
  ma : Nat
  /-- VSRAM, VANA, VHTR and VIO power, mW. -/
  vsram : Nat
  vana : Nat
  vhtr : Nat
  vio : Nat
  deriving DecidableEq, Repr

/-- A host-memory read by the tray: the bytes, or the failure's detail code of HOST_FAULT. -/
inductive HostRead where
  | data (bytes : List Byte)
  | fault (detail : Nat)
  deriving DecidableEq, Repr

/-- A write as LEGEND_WRITE carries it. -/
structure GateOp where
  idx : Nat
  sub : Nat
  sel : Nat
  value : List Byte
  deriving DecidableEq, Repr

/-- A datagram at a field port (R408): IPv6 source, UDP source port, hop limit, UDP destination port, whether the checksum is
correct, whether it is a fragment or carries a VLAN tag, and its payload, a LAP frame. -/
structure Datagram where
  src : Nat
  sport : Nat
  hop : Nat
  port : Nat
  sound : Bool
  fragment : Bool
  vlan : Bool
  frame : List Byte
  deriving DecidableEq, Repr

/-- An SPDM responder: of a function's DOE capability, or of a master over LAP (R534). -/
inductive Responder where
  | doe (f : Fn)
  | lap (m : MasterId)
  deriving DecidableEq, Repr

/-- An SPDM message on its way to a responder (R534): in a data object of a DOE capability, or in the LAP frame of a datagram of a
master. -/
inductive SpdmMsg where
  | doe (f : Fn) (msg : List Byte)
  | lap (m : MasterId) (g : Datagram)
  deriving DecidableEq, Repr

/-- An OPEN record (Table 12.13). -/
structure OpenRec where
  group : Nat
  tenant : Nat
  hops : Nat
  idx : Nat
  id : Nat
  source : Nat
  dest : Nat
  route : Nat
  label : Nat
  deriving DecidableEq, Repr

/-- What a delivered image holds (R575): header and signature valid, its release, security version, oldest governor
release, the floor it carries, and the digest of its tray-controller image. -/
structure StageResult where
  headerOk : Bool
  sigOk : Bool
  release : Nat
  security : Nat
  oldest : Nat
  floor : Nat
  digest : List Byte
  deriving DecidableEq, Repr

/-- What a new image reads of a firn record before it takes it (Table 21.3, R581): its SHA-384 digest matches, its die index (0xF: the
tray controller), its format version. -/
structure FirnHeader where
  digestOk : Bool
  index : Nat
  major : Nat
  minor : Nat
  deriving DecidableEq, Repr

/-- An EMERGENCY record (Table 22.2). -/
structure EmergencyRec where
  group : Nat
  source : Nat
  kind : Nat
  code : Nat
  time : Nat
  deriving DecidableEq, Repr

end Sys2Proof.Machine
end

