-- ==== Sys2Proof/Syntax.lean ====
section
/-! DEFINITION. The commands of the block: one constructor per row of spec/opcode_table.json, in its order, with the
operands the row's rule names. What the tray measures or reads from outside comes as an operand. -/

namespace Sys2Proof
open Sys2Proof.Machine

/-- A command of the Krovjor K8 tray. -/
inductive Instr where
  /-- TRAY_EN_ASSERT. R18, R19: contacts SLOT_ID5..0 and the measured 48 V bus in mV. -/
  | trayEnAssert (pins busMv : Nat)
  /-- SLOT_ID_CHANGE. R18: the contacts now read `pins`. -/
  | slotIdChange (pins : Nat)
  /-- BUS_LOSS. R20: the bus is declared lost. -/
  | busLoss (cause : BusLossCause)
  /-- BUS_BACK. R20: the bus has stayed within 40 to 60 V for 100 ms. -/
  | busBack (busMv : Nat)
  /-- TRAY_EN_DEASSERT. R35. -/
  | trayEnDeassert
  /-- EFFECTIVE_TRAY_CAP_UPDATE. R31: a 1 ms measurement of the bus in mV and the inlet in 1/16 °C. -/
  | effectiveTrayCapUpdate (busMv : Nat) (inlet : Int)
  /-- REF_LOSS. R37: the reference in use loses its ready flag. -/
  | refLoss (d : DieId)
  /-- RL_RELOCK_DONE. R37. -/
  | rlRelockDone (d : DieId)
  /-- REF_BOTH_LOST_HALT. R39. -/
  | refBothLostHalt (d : DieId)
  /-- REF_COMPARE_INTERVAL. R40: XA and XB differ by `ppm` over the interval. -/
  | refCompareInterval (d : DieId) (ppm : Nat)
  /-- SOURCE_READY. R41, Table 03.2. -/
  | sourceReady (d : DieId) (src : ClkSource)
  /-- LOOP_LOCK_LOSS. R46. -/
  | loopLockLoss (d : DieId) (l : LoopId)
  /-- IDLE_LOOP_READY. R45. -/
  | idleLoopReady (d : DieId)
  /-- EPOCH_BOUNDARY. R63. -/
  | epochBoundary
  /-- COMP_TABLE_UPDATE. R58. -/
  | compTableUpdate (d : DieId)
  /-- TIME_EXCHANGE_TICK. R59. -/
  | timeExchangeTick (d : DieId)
  /-- TIME_REQUEST. R344: a TIME request of die identity `src` arrives at `port`. -/
  | timeRequest (d : DieId) (port : Nat) (src no t1 t2 : Nat)
  /-- TIME_RESPONSE. R61, R62: the response to exchange `no`, arriving at own count `t4`. -/
  | timeResponse (d : DieId) (no t1 t2 t3 t4 : Nat)
  /-- AVS_CURRENT_READ. R71: the read returns `ma` mA; the voltage measures `mv` (MV). -/
  | avsCurrentRead (d : DieId) (ma mv : Nat)
  /-- AVS_WRITE_TIMEOUT. R71. -/
  | avsWriteTimeout (d : DieId)
  /-- VOLTAGE_READY. R74. -/
  | voltageReady (d : DieId)
  /-- CONVERTER_FAIL. R67: converter BCn. -/
  | converterFail (n : Nat)
  /-- VCORE_PHASE_FAIL. R69: phase n. -/
  | vcorePhaseFail (d : DieId) (n : Nat)
  /-- REG_ALERT_ASSERT. R85: cause bit of Table 04.4. -/
  | regAlertAssert (d : DieId) (cause : Nat)
  /-- FORCED_STATE_END. R86. -/
  | forcedStateEnd (d : DieId)
  /-- ALERT_HALT. R87. -/
  | alertHalt (d : DieId)
  /-- REG_ALERT_DEASSERT. R637. -/
  | regAlertDeassert (d : DieId)
  /-- ALERT_ACK. R88. -/
  | alertAck (d : DieId)
  /-- ALERT_RELEASE. R88. -/
  | alertRelease (d : DieId)
  /-- AGEING_MEASUREMENT. R81, R84: required trim in 0.25 mV; lowest step that meets timing at T = 40 mV. -/
  | ageingMeasurement (d : DieId) (trim ceil : Nat)
  /-- AGEING_OVERDUE. R83. -/
  | ageingOverdue (d : DieId)
  /-- MARGIN_MODE_WRITE. R78, R79. -/
  | marginModeWrite (m : MasterId) (d : DieId) (v : Nat)
  /-- VSRAM_VOLTAGE_WRITE. R91. -/
  | vsramVoltageWrite (m : MasterId) (d : DieId) (v : Nat)
  /-- SEGMENT_LOOKAHEAD. R96: segment `seg` of context (t, h) enters the window. -/
  | segmentLookahead (d : DieId) (t h : Nat) (seg : Nat)
  /-- SEGMENT_END. R100: the context's estimated power in each microsecond of the execution, mW. -/
  | segmentEnd (d : DieId) (t h : Nat) (seg : Nat) (watts : List Nat)
  /-- RATE_CONTROL_TICK. R120: the estimator's figures of the running contexts. -/
  | rateControlTick (d : DieId) (est : List RateSample)
  /-- DEMAND_CURVE_SEND. R125. -/
  | demandCurveSend (d : DieId)
  /-- SHARES_SEND. R125, R126: power of loads and charger, bus power of the last epoch, mW. -/
  | sharesSend (loads bus : Nat)
  /-- SHARES_LATE. R127. -/
  | sharesLate
  /-- PROPOSAL_SEND. R124. -/
  | proposalSend (d : DieId)
  /-- DIE_CAP_WRITE. R128, R130. -/
  | dieCapWrite (m : MasterId) (d : DieId) (v : Nat)
  /-- TRAY_CAP_WRITE. R129, R130. -/
  | trayCapWrite (m : MasterId) (v : Nat)
  /-- GLACIER_WINDOW_WRITE. R130. -/
  | glacierWindowWrite (m : MasterId) (d : DieId) (v : Nat)
  /-- DIVISION_MODE_WRITE. R116. -/
  | divisionModeWrite (m : MasterId) (d : DieId) (v : Nat)
  /-- SEALED_TABLE_WRITE. R639. -/
  | sealedTableWrite (m : MasterId) (d : DieId) (v : List Byte)
  /-- DROOP_TRIP. R138: the sense taps of interest on consecutive compute cycles: physical tile and supply in 0.25 mV. -/
  | droopTrip (d : DieId) (taps : List (List (Nat × Nat)))
  /-- ARMED_WINDOW_CLOSE. R140. -/
  | armedWindowClose (d : DieId)
  /-- DETECTOR_TEST. R136: mask of detectors whose tested line did not trip. -/
  | detectorTest (d : DieId) (failed : Nat)
  /-- DROOP_SETTING_WRITE. R150: 0x2200:01 to :03. -/
  | droopSettingWrite (m : MasterId) (d : DieId) (sub v : Nat)
  /-- THERMAL_SAMPLE. R160: sensor n reads t 1/16 °C. -/
  | thermalSample (d : DieId) (n : Nat) (t : Int)
  /-- THERMAL_RATE_RISE. R161. -/
  | thermalRateRise (d : DieId)
  /-- GROUP_MAX_PUBLISH. R158. -/
  | groupMaxPublish (d : DieId)
  /-- HEAT_SURGE_END. R169. -/
  | heatSurgeEnd (d : DieId)
  /-- SURGE_TIMEOUT. R170. -/
  | surgeTimeout (d : DieId)
  /-- TRIP_RESTART. R173. -/
  | tripRestart (d : DieId)
  /-- CLEAR_TRIP_LATCH. R174. -/
  | clearTripLatch (m : MasterId) (d : DieId) (v : Nat)
  /-- LOOP_LOSS_DECLARE. R176: loop A (false) or B (true), and its 1 ms flow samples in 0.1 L/min. -/
  | loopLossDeclare (b : Bool) (flows : List Nat)
  /-- FLOW_LOSS_ASSERT. R177. -/
  | flowLossAssert (d : DieId)
  /-- FLOW_LOSS_RELEASE. R180. -/
  | flowLossRelease (d : DieId)
  /-- FLOW_LOSS_POWER_OFF. R181. -/
  | flowLossPowerOff (d : DieId)
  /-- VALVE_TRIM. R179. -/
  | valveTrim
  /-- COOLANT_ALARM_UPDATE. R182: 1 s averages; a flow reading unchanged for 60 s. -/
  | coolantAlarmUpdate (inlet : Int) (fa fb : Nat) (stuckA stuckB : Bool)
  /-- HEAT_THRESHOLD_WRITE. R159: 0x2300:01, :04 or :05. -/
  | heatThresholdWrite (m : MasterId) (d : DieId) (sub v : Nat)
  /-- PROPOSAL_RECEIVE. R190. -/
  | proposalReceive (d : DieId) (src epoch code : Nat) (urgent revised : Bool) (heard : Nat)
  /-- RECORD_ACK_TIMEOUT. R188. -/
  | recordAckTimeout (d : DieId) (no : Nat)
  /-- RESULT_FORM. R191. -/
  | resultForm (d : DieId)
  /-- RESULT_RECEIVE. R192. -/
  | resultReceive (d : DieId) (src : Nat) (r : MResult)
  /-- STANDBY_ROOT_TAKEOVER. R194. -/
  | standbyRootTakeover (d : DieId)
  /-- LEAVE_SEND. R200: cause of Table 12.13. -/
  | leaveSend (d : DieId) (cause : Nat)
  /-- LEAVE_RECEIVE. R200. -/
  | leaveReceive (d : DieId) (id : Nat)
  /-- LEAVE_GROUP. R200: command 0x2500:0E. -/
  | leaveGroup (m : MasterId) (d : DieId) (v : Nat)
  /-- GROUP_IDENTITY_WRITE. R186: 0x2500:01 or :02. -/
  | groupIdentityWrite (m : MasterId) (d : DieId) (sub v : Nat)
  /-- JOIN_SEND. R203. -/
  | joinSend (d : DieId)
  /-- JOIN_RECEIVE. R203. -/
  | joinReceive (d : DieId) (id : Nat) (valid : Bool)
  /-- SELF_ROOT. R205. -/
  | selfRoot (d : DieId)
  /-- ROOT_MERGE. R205: a record of the own group from the root `root`. -/
  | rootMerge (d : DieId) (root : Nat)
  /-- LEND. R207. -/
  | lend (d : DieId) (src : DieId) (amount epoch : Nat)
  /-- GRANT. R206. -/
  | grant (d : DieId) (src : DieId) (amount epoch : Nat)
  /-- COMMIT. R208. -/
  | commit (d : DieId) (src : DieId) (amount epoch : Nat)
  /-- RELEASE. R206. -/
  | release (d : DieId) (src : DieId) (amount epoch : Nat)
  /-- ENERGY_INTERVAL. R211, R224. -/
  | energyInterval (d : DieId) (r : EnergySample)
  /-- BENCHMARK_START. R217. -/
  | benchmarkStart (d : DieId) (t h : Nat)
  /-- BENCHMARK_END. R218: the context, and the values of c_7 and c_L that the benchmark determines. -/
  | benchmarkEnd (d : DieId) (t h c7 cl : Nat)
  /-- UPLIFT_RECOMPUTE. R220. -/
  | upliftRecompute (d : DieId)
  /-- COEFF_STORE. R223. -/
  | coeffStore
  /-- OVERHEAD_RULE_WRITE. R226. -/
  | overheadRuleWrite (m : MasterId) (d : DieId) (v : Nat)
  /-- CONTEXT_SELECTOR_WRITE. R385. -/
  | contextSelectorWrite (m : MasterId) (d : DieId) (v : Nat)
  /-- SURVEY_NOW. R234. -/
  | surveyNow (m : MasterId) (d : DieId) (v : Nat)
  /-- SURVEY_INTERVAL_EXPIRE. R235. -/
  | surveyIntervalExpire (d : DieId)
  /-- SURVEY_COMPLETE. R234. -/
  | surveyComplete (d : DieId) (grid : List Int)
  /-- FRAME_START. R243. -/
  | frameStart (d : DieId)
  /-- FRAME_COMPLETE. R245. -/
  | frameComplete (d : DieId) (inTime : Bool)
  /-- COMPOSER_CHECK. R251: what a fault adds to the signature of the check pipeline, and to the CRC of each set as read back. -/
  | composerCheck (d : DieId) (fault : Nat) (setFaults : List Nat)
  /-- RUN_CHECK_NOW. R251. -/
  | runCheckNow (m : MasterId) (d : DieId) (v : Nat)
  /-- COEFF_SET_WRITE. R241. -/
  | coeffSetWrite (m : MasterId) (d : DieId) (set : Nat) (v : List Byte)
  /-- COMPOSER_WRITE. R244. -/
  | composerWrite (m : MasterId) (d : DieId) (sub : Nat) (v : List Byte)
  /-- NOP. Table 11.8: the next record of the running plan of context (t, h) on plan tile (u, v). -/
  | nop (d : DieId) (t h : Nat) (u v : Nat)
  /-- MLOADW. Table 11.8: the next record of the running plan of context (t, h) on plan tile (u, v). -/
  | mloadw (d : DieId) (t h : Nat) (u v : Nat)
  /-- MSWAP. Table 11.8: the next record of the running plan of context (t, h) on plan tile (u, v). -/
  | mswap (d : DieId) (t h : Nat) (u v : Nat)
  /-- MMA. Table 11.8: the next record of the running plan of context (t, h) on plan tile (u, v). -/
  | mma (d : DieId) (t h : Nat) (u v : Nat)
  /-- MDRAIN. Table 11.8: the next record of the running plan of context (t, h) on plan tile (u, v). -/
  | mdrain (d : DieId) (t h : Nat) (u v : Nat)
  /-- MZERO. Table 11.8: the next record of the running plan of context (t, h) on plan tile (u, v). -/
  | mzero (d : DieId) (t h : Nat) (u v : Nat)
  /-- VLOAD. Table 11.8: the next record of the running plan of context (t, h) on plan tile (u, v). -/
  | vload (d : DieId) (t h : Nat) (u v : Nat)
  /-- VSTORE. Table 11.8: the next record of the running plan of context (t, h) on plan tile (u, v). -/
  | vstore (d : DieId) (t h : Nat) (u v : Nat)
  /-- VADD. Table 11.8: the next record of the running plan of context (t, h) on plan tile (u, v). -/
  | vadd (d : DieId) (t h : Nat) (u v : Nat)
  /-- VMUL. Table 11.8: the next record of the running plan of context (t, h) on plan tile (u, v). -/
  | vmul (d : DieId) (t h : Nat) (u v : Nat)
  /-- VFMA. Table 11.8: the next record of the running plan of context (t, h) on plan tile (u, v). -/
  | vfma (d : DieId) (t h : Nat) (u v : Nat)
  /-- VMAX. Table 11.8: the next record of the running plan of context (t, h) on plan tile (u, v). -/
  | vmax (d : DieId) (t h : Nat) (u v : Nat)
  /-- VEXP2. Table 11.8: the next record of the running plan of context (t, h) on plan tile (u, v). -/
  | vexp2 (d : DieId) (t h : Nat) (u v : Nat)
  /-- VRCP. Table 11.8: the next record of the running plan of context (t, h) on plan tile (u, v). -/
  | vrcp (d : DieId) (t h : Nat) (u v : Nat)
  /-- VRSQRT. Table 11.8: the next record of the running plan of context (t, h) on plan tile (u, v). -/
  | vrsqrt (d : DieId) (t h : Nat) (u v : Nat)
  /-- VRED. Table 11.8: the next record of the running plan of context (t, h) on plan tile (u, v). -/
  | vred (d : DieId) (t h : Nat) (u v : Nat)
  /-- VSCALE. Table 11.8: the next record of the running plan of context (t, h) on plan tile (u, v). -/
  | vscale (d : DieId) (t h : Nat) (u v : Nat)
  /-- VACC. Table 11.8: the next record of the running plan of context (t, h) on plan tile (u, v). -/
  | vacc (d : DieId) (t h : Nat) (u v : Nat)
  /-- MCOPY. Table 11.8: the next record of the running plan of context (t, h) on plan tile (u, v). -/
  | mcopy (d : DieId) (t h : Nat) (u v : Nat)
  /-- MFILL. Table 11.8: the next record of the running plan of context (t, h) on plan tile (u, v). -/
  | mfill (d : DieId) (t h : Nat) (u v : Nat)
  /-- MGATHER. Table 11.8: the next record of the running plan of context (t, h) on plan tile (u, v). -/
  | mgather (d : DieId) (t h : Nat) (u v : Nat)
  /-- FSEND. Table 11.8: the next record of the running plan of context (t, h) on plan tile (u, v). -/
  | fsend (d : DieId) (t h : Nat) (u v : Nat)
  /-- FRECV. Table 11.8: the next record of the running plan of context (t, h) on plan tile (u, v). -/
  | frecv (d : DieId) (t h : Nat) (u v : Nat)
  /-- SLOAD. Table 11.8: the next record of the running plan of context (t, h). -/
  | sload (d : DieId) (t h : Nat)
  /-- SSTREAM. Table 11.8: the next record of the running plan of context (t, h). -/
  | sstream (d : DieId) (t h : Nat)
  /-- SSELECT. Table 11.8: the next record of the running plan of context (t, h). -/
  | sselect (d : DieId) (t h : Nat)
  /-- SBLANK. Table 11.8: the next record of the running plan of context (t, h). -/
  | sblank (d : DieId) (t h : Nat)
  /-- BARRIER. Table 11.8: the next record of the running plan of context (t, h). -/
  | barrier (d : DieId) (t h : Nat)
  /-- HALTPT. Table 11.8: the next record of the running plan of context (t, h). -/
  | haltpt (d : DieId) (t h : Nat)
  /-- END. Table 11.8: the next record of the running plan of context (t, h). -/
  | end_ (d : DieId) (t h : Nat)
  /-- BANK_FREE. R366. -/
  | bankFree (d : DieId) (b : Fin 8)
  /-- FLOAT_SEGMENT_START. R287. -/
  | floatSegmentStart (d : DieId) (t h : Nat)
  /-- HOLD_EXPIRED. R285. -/
  | holdExpired (d : DieId) (t h : Nat)
  /-- SCRUB_LINE. R263: words of the line (0 to 15) with a single-bit and with an uncorrectable error. -/
  | scrubLine (d : DieId) (tile : Fin 128) (bank : Fin 8) (single double : List Nat)
  /-- BARRIER_ARRIVAL_SEND. R291. -/
  | barrierArrivalSend (d : DieId) (t h pos : Nat)
  /-- BARRIER_ARRIVAL. R605. -/
  | barrierArrival (d : DieId) (src t id n parts : Nat)
  /-- BARRIER_RELEASE. R291. -/
  | barrierRelease (d : DieId) (t id n : Nat)
  /-- COMB_STARTUP_CHECK. R299: deviations of the lines of comb A and B, MHz, and their stage-1 powers, 0.01 dBm. -/
  | combStartupCheck (d : DieId) (aDev bDev : List Int) (aPow bPow : Int)
  /-- COMB_LOSS. R300: the stage-1 samples of the active comb, oldest first, 0.01 dBm. -/
  | combLoss (d : DieId) (samples : List Int)
  /-- HEATER_LOOP_UPDATE. R304, R306: the new command; the monitor error lies beyond 25 %. -/
  | heaterLoopUpdate (d : DieId) (ring u : Nat) (err : Bool)
  /-- RING_LOCK_LOSS. R306. -/
  | ringLockLoss (d : DieId) (port : Fin 16) (drop : Bool) (line : Fin 40)
  /-- RING_SEARCH_TIMEOUT. R306. -/
  | ringSearchTimeout (d : DieId) (port : Fin 16) (drop : Bool) (line : Fin 40)
  /-- SWEEP_COMPLETE. R308: P_r(line) by ring and line, none where unbounded. -/
  | sweepComplete (d : DieId) (port : Fin 16) (drop : Bool) (power : List (List (Option Nat)))
  /-- FAR_LIGHT_ARRIVAL. R309. -/
  | farLightArrival (d : DieId) (port : Fin 16)
  /-- HELLO. R310. -/
  | hello (d : DieId) (port : Fin 16) (group id farPort : Nat) (serial : List Byte)
  /-- LANEMAP. R311. -/
  | lanemap (d : DieId) (port : Fin 16) (seq : Nat) (lines : List Nat)
  /-- TRAINING_COMPLETE. R310: masks of lines that passed the line test. -/
  | trainingComplete (d : DieId) (port : Fin 16) (passTx passRx : Nat)
  /-- RETRAIN_COMPLETE. R312. -/
  | retrainComplete (d : DieId) (port : Fin 16)
  /-- PORT_LOSS_TIMEOUT. R313. -/
  | portLossTimeout (d : DieId) (port : Fin 16)
  /-- DOWN_PORT_RETRY. R313. -/
  | downPortRetry (d : DieId) (port : Fin 16)
  /-- PORT_ENABLE_WRITE. R314. -/
  | portEnableWrite (m : MasterId) (d : DieId) (v : Nat)
  /-- CALIBRATION_START. R315. -/
  | calibrationStart (d : DieId) (port : Fin 16)
  /-- CAL_START. R315. -/
  | calStart (d : DieId) (port : Fin 16) (line : Nat)
  /-- CAL_END. Table 12.6. -/
  | calEnd (d : DieId) (port : Fin 16) (line : Nat) (failed : Bool)
  /-- CAL_TIMEOUT. R318. -/
  | calTimeout (d : DieId) (port : Fin 16)
  /-- LINE_BER_WEAK. R317. -/
  | lineBerWeak (d : DieId) (port : Fin 16) (drop : Bool) (line : Fin 40)
  /-- RECORD_BASELINE. R319. -/
  | recordBaseline (m : MasterId) (d : DieId) (v : Nat)
  /-- STATUS_SEND. R320: the 100 ms averages of stage 1 of comb A and B, then stages 2, 3 and 4 of the port, and stage 5 of its drop rings, 0.01 dBm. -/
  | statusSend (d : DieId) (port : Fin 16) (stages stage5 : List Int)
  /-- STATUS. R320, R321. -/
  | status (d : DieId) (port : Fin 16) (stage3 : Int) (stage5 : List Int)
  /-- FLIT_RECEIVE. R323, R324, R336: the 256 bytes after forward error correction and the symbols it corrected. -/
  | flitReceive (d : DieId) (port : Fin 16) (bytes : List Byte) (fixed : Nat)
  /-- NAK_RECEIVE. R323. -/
  | nakReceive (d : DieId) (port : Fin 16) (seq : Nat)
  /-- REPLAY_TIMEOUT. R323. -/
  | replayTimeout (d : DieId) (port : Fin 16)
  /-- OPEN. R327. -/
  | open_ (d : DieId) (port : Fin 16) (r : OpenRec)
  /-- OPEN_DONE. R330. -/
  | openDone (d : DieId) (t id allot : Nat)
  /-- CREDIT. R333. -/
  | credit (d : DieId) (t id n : Nat)
  /-- CLOSE_FLIT. R337. -/
  | closeFlit (d : DieId) (port : Fin 16) (label t : Nat)
  /-- FLOWLOST. R338. -/
  | flowlost (d : DieId) (t id cause : Nat)
  /-- TENANT_HALT. R339. -/
  | tenantHalt (d : DieId) (t : Nat) (all : Bool) (ids : List Nat)
  /-- CONTROL_RECORD_FORWARD. R342. -/
  | controlRecordForward (d : DieId) (port : Option (Fin 16)) (bytes : List Byte)
  /-- LOWRATE. R345. -/
  | lowrate (d : DieId) (port : Fin 16) (back : Bool) (line : Nat)
  /-- REF_RING_UPDATE. R351: the changes of the four reference duties. -/
  | refRingUpdate (d : DieId) (b : Fin 8) (change : List Int) (locked : Bool)
  /-- TAP_POWER_MEASURE. R357: 0.01 dBm. -/
  | tapPowerMeasure (d : DieId) (b : Fin 8) (dbm : Int)
  /-- BANK_RECALIBRATION. R368. -/
  | bankRecalibration (d : DieId) (b : Fin 8) (d0 gain : List Nat) (pass : Bool)
  /-- RECALIBRATE_NOW. R368. -/
  | recalibrateNow (m : MasterId) (d : DieId) (v : Nat)
  /-- PERSISTENT_COMMIT. R383, R384. -/
  | persistentCommit (ok : Bool)
  /-- LEGEND_WRITE. R402; `others`: writes of the same object by other masters in the same tick (R396). -/
  | legendWrite (m : MasterId) (w : GateOp) (others : List (MasterId × List Byte))
  /-- SITE_PASSWORD_WRITE. R388. -/
  | sitePasswordWrite (m : MasterId) (v : List Byte)
  /-- UNLOCK_KEY_WRITE. R393. -/
  | unlockKeyWrite (m : MasterId) (v : List Byte)
  /-- PREFERRED_REF_WRITE. R38. -/
  | preferredRefWrite (m : MasterId) (d : DieId) (v : Nat)
  /-- CLOCK_ENABLE_WRITE. R55. -/
  | clockEnableWrite (m : MasterId) (d : DieId) (v : Nat)
  /-- CLKMON_SELECT_WRITE. R56: 0x5000:06 or :07. -/
  | clkmonSelectWrite (m : MasterId) (d : DieId) (sub v : Nat)
  /-- CLKMON_DRIVE_WRITE. R57. -/
  | clkmonDriveWrite (m : MasterId) (d : DieId) (v : Nat)
  /-- TENANT_MAP_WRITE. R436. -/
  | tenantMapWrite (m : MasterId) (v : List Byte)
  /-- HOLD_TIME_WRITE. R559. -/
  | holdTimeWrite (m : MasterId) (v : Nat)
  /-- LOCKOUT_END. R389. -/
  | lockoutEnd
  /-- SESSION_EXPIRE. R394. -/
  | sessionExpire (m : MasterId)
  /-- END_ALL_EXPERT_SESSIONS. R387. -/
  | endAllExpertSessions (m : MasterId) (v : Nat)
  /-- READ. R414: a LAP frame. -/
  | read (m : MasterId) (g : Datagram)
  /-- WRITE. R414. -/
  | write (m : MasterId) (g : Datagram)
  /-- READ_BLOCK. R415. -/
  | readBlock (m : MasterId) (g : Datagram)
  /-- WRITE_BLOCK. R417. -/
  | writeBlock (m : MasterId) (g : Datagram)
  /-- COMMAND. R403. -/
  | command (m : MasterId) (g : Datagram)
  /-- SUBSCRIBE. R418. -/
  | subscribe (m : MasterId) (g : Datagram)
  /-- UNKNOWN_SERVICE. R425. -/
  | unknownService (m : MasterId) (g : Datagram)
  /-- UNLOCK_CHALLENGE. R391. -/
  | unlockChallenge (m : MasterId) (g : Datagram)
  /-- UNLOCK_RESPONSE. R640. -/
  | unlockResponse (m : MasterId) (g : Datagram)
  /-- LOCK. R387. -/
  | lock (m : MasterId) (g : Datagram)
  /-- SEQUENCE_WINDOW_CLEAR. R413. -/
  | sequenceWindowClear (m : MasterId)
  /-- ASSEMBLY_TIMEOUT. R417. -/
  | assemblyTimeout (m : MasterId)
  /-- SUBSCRIPTION_EXPIRE. R419. -/
  | subscriptionExpire (m : MasterId) (no : Nat)
  /-- NOTIFY_PERIODIC. R420. -/
  | notifyPeriodic (m : MasterId) (no : Nat)
  /-- NOTIFY_ON_CHANGE. R420. -/
  | notifyOnChange (m : MasterId) (no : Nat)
  /-- BEACON_TIMEOUT. R406: port A (false) or B (true). -/
  | beaconTimeout (p : Bool)
  /-- NEIGHBOUR_SOLICITATION. R407: 128-bit addresses. -/
  | neighbourSolicitation (p : Bool) (target src : Nat)
  /-- ICMP_ECHO. R407. -/
  | icmpEcho (p : Bool) (dst src : Nat) (body : List Byte)
  /-- GET_VERSION. R535: an SPDM message, in a DOE data object or over LAP. -/
  | getVersion (q : SpdmMsg)
  /-- GET_CAPABILITIES. R534. -/
  | getCapabilities (q : SpdmMsg)
  /-- NEGOTIATE_ALGORITHMS. R534. -/
  | negotiateAlgorithms (q : SpdmMsg)
  /-- GET_DIGESTS. R534. -/
  | getDigests (q : SpdmMsg)
  /-- GET_CERTIFICATE. R534. -/
  | getCertificate (q : SpdmMsg)
  /-- CHALLENGE. R534. -/
  | challenge (q : SpdmMsg)
  /-- GET_MEASUREMENTS. R536. -/
  | getMeasurements (q : SpdmMsg)
  /-- SPDM_UNSUPPORTED_REQUEST. R534. -/
  | spdmUnsupportedRequest (q : SpdmMsg)
  /-- SPDM_STATE_TIMEOUT. R535. -/
  | spdmStateTimeout (m : MasterId)
  /-- DOE_ABORT. R462. -/
  | doeAbort (f : Fn)
  /-- DOORBELL. R450: the write, the context-table entry read at activation and the newly exposed commands as fetched. -/
  | doorbell (port n : Nat) (size value : Nat) (entry : List Byte) (cmds : List (List Byte))
  /-- BAR_REGISTER_WRITE. R448. -/
  | barRegisterWrite (f : Fn) (off size value : Nat)
  /-- NOTICE_RING_WRITE. R453. -/
  | noticeRingWrite (f : Fn) (off value : Nat)
  /-- BUS_MASTER_ENABLE_SET. R446. -/
  | busMasterEnableSet (f : Fn) (mse : Bool)
  /-- HOLDOFF_EXPIRE. R456. -/
  | holdoffExpire (f : Fn) (v : Nat)
  /-- MSIX_UNMASK. R456. -/
  | msixUnmask (f : Fn) (v : Nat)
  /-- MBOX_CLAIM. R457: `also` when the other PF claims in the same tick. -/
  | mboxClaim (p : Fin 2) (v : Nat) (also : Bool)
  /-- MBOX_DOORBELL. R458. -/
  | mboxDoorbell (p : Fin 2) (len : Nat)
  /-- LINK_TRAINING. R438: what the partner supports. -/
  | linkTraining (p : Fin 2) (rates widths : List Nat) (flit : Bool)
  /-- VF_FLR. R463. -/
  | vfFlr (p : Fin 2) (n : Nat)
  /-- VF_FLR_COMPLETE. R463. -/
  | vfFlrComplete (p : Fin 2) (n : Nat)
  /-- VF_ENABLE_CLEAR. R444: NumVFs lowered to `num`, 0 when VF Enable is cleared. -/
  | vfEnableClear (p : Fin 2) (num : Nat)
  /-- PF_FLR. R467. -/
  | pfFlr (p : Fin 2)
  /-- CONVENTIONAL_RESET. R468. -/
  | conventionalReset (p : Fin 2)
  /-- PF_D3HOT. R447. -/
  | pfD3hot (p : Fin 2)
  /-- NOP_COMMAND. R475: the command at the head of queue q of context (t, h). -/
  | nopCommand (t h q : Nat)
  /-- BIND. R481. -/
  | bind (t h q : Nat)
  /-- UNBIND. R484. -/
  | unbind (t h q : Nat)
  /-- RESIDE. R479. -/
  | reside (t h q : Nat)
  /-- EVICT. R480. -/
  | evict (t h q : Nat)
  /-- COPY. R488. -/
  | copy (t h q : Nat)
  /-- LOAD_PLAN. R492: the container as read from host memory. -/
  | loadPlan (t h q : Nat) (container : HostRead)
  /-- RUN_PLAN. R493. -/
  | runPlan (t h q : Nat)
  /-- HALT_PLAN. R494. -/
  | haltPlan (t h q : Nat)
  /-- SIGNAL. R495. -/
  | signal (t h q : Nat)
  /-- WAIT. R497. -/
  | wait (t h q : Nat)
  /-- QUERY. R507. -/
  | query (t h q : Nat)
  /-- SCRUB. R486. -/
  | scrub (t h q : Nat)
  /-- FENCE. R501. -/
  | fence (t h q : Nat)
  /-- COPY_UNIT_DONE. R489: the host bytes read for the unit, or the failure of the access. -/
  | copyUnitDone (d : DieId) (e : Fin 8) (data : HostRead)
  /-- GRANULE_ZEROED. R481. -/
  | granuleZeroed (d : DieId) (g : Nat)
  /-- WAIT_HORIZON_EXPIRE. R506. -/
  | waitHorizonExpire (t h q : Nat)
  /-- BOOT_ROM_START. R517: whether slot A and slot B verify. -/
  | bootRomStart (okA okB : Bool)
  /-- LOCKSTEP_MISMATCH. R611. -/
  | lockstepMismatch
  /-- DIE_START. R66. -/
  | dieStart (d : DieId)
  /-- GOVERNOR_FIRMWARE_LOAD. R521. -/
  | governorFirmwareLoad (d : DieId) (ok : Bool) (digest : List Byte)
  /-- DIE_IDENTITY_CHECK. R533: the key of the die's certificate, the serial and signature that the die returns, and whether that certificate chains to the device CA. -/
  | dieIdentityCheck (d : DieId) (key serial sig : List Byte) (chains : Bool)
  /-- CLOCK_START. R522. -/
  | clockStart (d : DieId)
  /-- SELF_TEST. R523: mask of physical tiles that fail, the redundant lines that the worst bank of a tile needs, mask of detectors that pass. -/
  | selfTest (d : DieId) (tested : Nat) (lines : List (Nat × Nat)) (detectors : Nat)
  /-- START_STEP_LATE. R528. -/
  | startStepLate (d : DieId)
  /-- DIE_READY. R514. -/
  | dieReady (d : DieId)
  /-- TRAY_READY. R515. -/
  | trayReady
  /-- VAULT_RESTORE. R565. -/
  | vaultRestore
  /-- TRAY_COLD_RESET. R539. -/
  | trayColdReset (m : MasterId) (v : Nat)
  /-- DIE_POWER_CYCLE. R435. -/
  | diePowerCycle (m : MasterId) (d : DieId) (v : Nat)
  /-- DIE_WARM_RESET. R537. -/
  | dieWarmReset (m : MasterId) (d : DieId) (v : Nat)
  /-- ENTER_FROST. R541. -/
  | enterFrost (m : MasterId) (d : DieId) (v : Nat)
  /-- ENTER_FROST_TRAY. R541. -/
  | enterFrostTray (m : MasterId) (v : Nat)
  /-- HALT_POINTS_REACHED. R541. -/
  | haltPointsReached (d : DieId)
  /-- FROZEN. R541. -/
  | frozen (d : DieId)
  /-- FROST_ENTRY_TIMEOUT. R542. -/
  | frostEntryTimeout (d : DieId)
  /-- FROST_HALT_DEADLINE. R543. -/
  | frostHaltDeadline
  /-- THAW. R544. -/
  | thaw (m : MasterId) (d : DieId) (v : Nat)
  /-- THAW_TRAY. R544. -/
  | thawTray (m : MasterId) (v : Nat)
  /-- THAW_END. R544. -/
  | thawEnd (d : DieId)
  /-- MODULE_INSERTED. R552. -/
  | moduleInserted (ok : Bool) (serial : List Byte) (mv : Nat)
  /-- MODULE_REMOVED. R557. -/
  | moduleRemoved
  /-- CHARGER_START. R552. -/
  | chargerStart (mv : Nat)
  /-- CHARGE_COMPLETE. R553: the charge current in mA. -/
  | chargeComplete (ma : Nat)
  /-- CHARGE_CURRENT_COLLAPSE. R557: the charge current in mA. -/
  | chargeCurrentCollapse (ma : Nat)
  /-- CAPACITY_TEST. R554: rest voltage before and after, in mV. -/
  | capacityTest (rest0 : Nat) (rest1 : Nat)
  /-- MODULE_FAULT. R555: the module voltage in mV. -/
  | moduleFault (mv : Nat)
  /-- HOLDUP_AVAILABILITY_CHECK. R556: the counted charge. -/
  | holdupAvailabilityCheck (mah : Nat)
  /-- HOLD_TIMER_EXPIRE. R562. -/
  | holdTimerExpire
  /-- VAULT_SAVE_COMPLETE. R563. -/
  | vaultSaveComplete
  /-- DISCARD_VAULT_SAVE. R566. -/
  | discardVaultSave (m : MasterId) (v : Nat)
  /-- GRANULE_HOLD_EXPIRE. R567. -/
  | granuleHoldExpire
  /-- TRAY_POWER_DOWN. R625. -/
  | trayPowerDown (m : MasterId) (v : Nat)
  /-- IMAGE_CHUNK_NUMBER_WRITE. R574. -/
  | imageChunkNumberWrite (m : MasterId) (v : Nat)
  /-- IMAGE_CHUNK. R574. -/
  | imageChunk (m : MasterId) (v : List Byte)
  /-- STAGE_IMAGE. R575. -/
  | stageImage (m : MasterId) (v : Nat)
  /-- STAGING_COMPLETE. R575: what the checked image holds. -/
  | stagingComplete (r : StageResult)
  /-- ACTIVATE_STAGED_IMAGE. R576. -/
  | activateStagedImage (m : MasterId) (v : Nat)
  /-- FIRN_RECORD_CHECK. R581: the new image of a die, or of the tray controller (none). -/
  | firnRecordCheck (who : Option DieId) (r : FirnHeader)
  /-- HOLDING_PATTERN_CHECK. R580: estimated die power in mW. -/
  | holdingPatternCheck (d : DieId) (est : Nat)
  /-- HOLDING_PATTERN_END. R580; the digest that block 3 + i then holds (R573). -/
  | holdingPatternEnd (d : DieId) (digest : List Byte)
  /-- HANDOFF_WATCHDOG. R583: of a die, or of the tray controller (none). -/
  | handoffWatchdog (who : Option DieId)
  /-- UPDATE_CONFIRM. R585. -/
  | updateConfirm
  /-- EMERGENCY. R601. -/
  | emergency (d : DieId) (r : EmergencyRec)
  /-- MORAINE_ASSIGN. R614. -/
  | moraineAssign
  /-- REMAP_TILE. R620. -/
  | remapTile (m : MasterId) (d : DieId) (v : Nat)
  /-- TILE_REMAP. R623. -/
  | tileRemap (d : DieId) (pass : Bool)
  /-- LED_DIAGNOSIS. R629: the current of each indicator in % of its set current. -/
  | ledDiagnosis (currents : List Nat)
  /-- HEATER_DIAGNOSIS. R630: the measured current in µA, or the probe voltage in mV. -/
  | heaterDiagnosis (d : DieId) (ring : Nat) (meas : Nat)
  /-- BOUNDARY_SCAN_INSTRUCTION. R27. -/
  | boundaryScanInstruction (ir : TapInstr)
  /-- SOURCE_READY_LOSS. R42. -/
  | sourceReadyLoss (d : DieId) (src : ClkSource)
  /-- CONVERTER_RESTORED. R68. -/
  | converterRestored (n : Nat)
  /-- DETECTOR_LINE_STUCK. R136. -/
  | detectorLineStuck (d : DieId) (det : Fin 64)
  /-- STANDBY_UNAVAILABLE. R302: stage-1 power of the standby comb, 0.01 dBm, and the distances of its lines from the active ones, MHz. -/
  | standbyUnavailable (d : DieId) (pow : Int) (offs : List Int)
  /-- FRAMING_LOSS. R313. -/
  | framingLoss (d : DieId) (port : Fin 16)
  /-- BUS_MASTER_ENABLE_CLEAR. R446. -/
  | busMasterEnableClear (f : Fn) (mse : Bool)
  /-- PF_RETURN_TO_D0. R447. -/
  | pfReturnToD0 (p : Fin 2)
  /-- VF_ENABLE_SET. R444, R446. -/
  | vfEnableSet (p : Fin 2) (num : Nat) (mse : Bool)
  /-- DOE_DISCOVERY. R461. -/
  | doeDiscovery (f : Fn) (ty : Nat) (idx : Nat)
  /-- SCOUT_CALIBRATION_TABLES_BUILT. R514. -/
  | scoutCalibrationTablesBuilt (d : DieId) (d0 gain : List (List Nat))
  /-- HOLDUP_CONVERTER_TAKEOVER. R558: the 12 V bus in mV. -/
  | holdupConverterTakeover (mv : Nat)
  /-- TRAY_CONTROLLER_RESTART_DONE. R611. -/
  | trayControllerRestartDone
  /-- BEACON_REGAINED. R406. -/
  | beaconRegained (p : Bool)
  deriving DecidableEq, Repr

end Sys2Proof
end

