-- ==== Sys2Proof/Config.lean ====
section
/-! DEFINITION. What one tray fixes at manufacture (fused values) and the values the spec leaves open. A constant with
no body is a value no proof can see: a statement about it holds whatever it is. -/

namespace Sys2Proof.Config
open Sys2Proof

/-! ### Fused values -/

/-- Fused minimum voltage of a step, in 0.25 mV (0x2100:06, 04.3). -/
opaque vmin : DieId → Nat → Nat

/-- Sealed overhead, fused worst case at a sealed step, mW (R110, 0x2000:0C). -/
opaque sealedOverhead : DieId → Nat → Nat

/-- The fused leakage curve Λ(V, T) times 10,240,000: V in 0.25 mV, T in 1/16 °C (R213). -/
opaque leakage : DieId → Nat → Int → Nat

/-- Fused starting coefficients A0 to A7 in fJ, L in µW (0x2600:0C). -/
opaque fusedCoeff : DieId → Nat → Nat

/-- The 16-point compensation tables of FOSC, SOSC, bandgap and droop (03.7). -/
opaque compTable : DieId → Nat → Nat → Int

/-- Code and revision of a gateable block, by its enable bit (R51). -/
opaque blockCode : Nat → BitVec 16
opaque blockRevision : Nat → BitVec 8

/-- The protective sensor nearest to each compensated circuit: FOSC, SOSC, bandgap, droop (R58). -/
opaque compSensor : DieId → Nat → Nat

/-- Characters 2 to 15 of the tray serial (0x1000:03, R531): a digit, or a capital letter from 10 on. -/
opaque traySerialChar : Nat → Fin 36

/-- Characters 2 to 15 of the die serials (0x1000:05, R531). -/
opaque dieSerialChar : DieId → Nat → Fin 36

/-- Hardware revision (0x1000:04). -/
opaque hwRevision : BitVec 16

/-- Nominal tap power of a scout bank, 0.01 dBm (0x3100:04). -/
opaque tapNominal : DieId → Nat → BitVec 16

/-- The photonic-region sensors of a scout bank (R357): bit i is sensor 544 + i (log 186, DESIGN CHOICE). -/
opaque bankSensors : DieId → Nat → BitVec 16

/-- Fused nominal of a comb's stage-1 power and of every monitor stage, 0.01 dBm (R299, Table 12.7). -/
opaque monitorNominal : DieId → Nat → BitVec 16

/-- Fused crosstalk matrix: neighbour and S1.14 coefficient of a heater's slot (R304, R307). -/
opaque xtalkNeighbour : DieId → Nat → Nat → BitVec 11
opaque xtalkCoeff : DieId → Nat → Nat → BitVec 16

/-- Fused full-duty power of a heater over VHTR, µW: 9 to 11 mW of a link ring (12.3, R630). -/
opaque heaterFull : DieId → Nat → BitVec 16

/-- Fused weight curve g(w) of a scout bank, S1.14, by the byte of w (13.2). -/
opaque weightCurve : DieId → Nat → Nat → BitVec 16

/-- Charge in parts per thousand of a hold-up module at a rest voltage in mV: the fused curve of its type (R554). -/
opaque restCharge : Nat → BitVec 10

/-- Major [15:8] and minor [7:0] version of the firn record that the images of a release write and take (Table 21.3). -/
opaque firnVersion : Nat → BitVec 16

/-- Release and digest of the firmware in slot A and slot B at the first power-on (21.1). -/
opaque releaseA : BitVec 32
opaque releaseB : BitVec 32
opaque digestA : BitVec 384
opaque digestB : BitVec 384

/-- Public key of a die in uncompressed form, as its certificate names it (19.5). -/
opaque dieKey : DieId → List Byte

/-- The certificate chain of slot 0 (Table 19.3): what stands before and after the die binding extension of the tray
certificate. -/
opaque chainBefore : List Byte
opaque chainAfter : List Byte

/-! ### Values the spec leaves open -/

/-- The n-th free word: random numbers, undefined contents, unstated values (log 3, DESIGN CHOICE). -/
opaque freeWord : Nat → BitVec 64

/-- The n-th free byte: undefined SRAM contents (R288) and random bytes (R391). -/
opaque freeByte : Nat → Byte

/-- Sign and payload of a NaN that an operation on the operands a and b produces: the spec says only NaN (R269). -/
opaque nanOf : Nat → BitVec 32 → BitVec 32 → BitVec 32

/-- The maximum of a and b where one is a NaN, or where both are zeros of either sign (VMAX, Table 11.8). -/
opaque maxOpen : BitVec 32 → BitVec 32 → BitVec 32

/-- Heater power of the scout banks in mW, by the applied duties of their weight rings (0x3100:0B): the spec gives only its bound
(R353). -/
opaque scoutHeaterMw : DieId → List (List Nat) → BitVec 16

/-- Fused crosstalk of a bank's weight heaters: neighbour and S1.14 coefficient of a ring's slot (R350). -/
opaque scoutNeighbour : DieId → Nat → Nat → Nat → BitVec 11
opaque scoutCoeff : DieId → Nat → Nat → Nat → BitVec 16

/-- The error of the measured code of a key in a row of a bank, in codes, at the effective bits in force, in 0.01 bits (R356): key by
its number of capture. -/
opaque scoutError : DieId → Nat → Nat → Nat → Int → Int

/-- A signature by the tray controller's key over a message (19.6): R533 and R536 fix what is signed. -/
opaque sign : List Byte → BitVec 768

/-- Whether a P-384 signature verifies under an uncompressed public key over a message (R392). -/
opaque verify : List Byte → List Byte → List Byte → Bool

/-- Whether 97 bytes are a P-384 point in uncompressed form (R393). -/
opaque isPoint : List Byte → Bool

/-- The tray's ephemeral public key number n, 97 bytes as a number, and the x-coordinate of its product with a
station's key (R422). -/
opaque ephemeralKey : Nat → BitVec 776
opaque ecdhX : Nat → List Byte → BitVec 384

/-- AES-256-GCM under a key, with additional data: the plaintext when the tag verifies (R422). -/
opaque gcmOpen : List Byte → List Byte → List Byte → List Byte → Option (List Byte)

end Sys2Proof.Config
end

