-- ==== Sys2Proof/Machine/Crypto.lean ====
section
/-! DEFINITION. The digests and codes the spec names by standard: CRC-32 (R250, R322), SHA-384, HMAC-SHA-384 and HKDF
(R388, R422, R424), written out so that they evaluate. -/

namespace Sys2Proof.Machine
open Sys2Proof

/-- One byte into a reflected CRC-32 (IEEE 802.3 polynomial). -/
def crcByte (c : BitVec 32) (b : Byte) : BitVec 32 :=
  (List.range 8).foldl (fun c _ => if c.getLsbD 0 then (c >>> 1) ^^^ 0xEDB88320#32 else c >>> 1)
    (c ^^^ b.setWidth 32)

/-- CRC-32 with initial value and final XOR 0xFFFF_FFFF (R250). -/
def crc32 (bs : List Byte) : Nat := (bs.foldl crcByte 0xFFFFFFFF#32 ^^^ 0xFFFFFFFF#32).toNat

/-- Round constants 0 to 19. -/
def sha512K0 : List (BitVec 64) := [
  0x428a2f98d728ae22#64, 0x7137449123ef65cd#64, 0xb5c0fbcfec4d3b2f#64, 0xe9b5dba58189dbbc#64,
  0x3956c25bf348b538#64, 0x59f111f1b605d019#64, 0x923f82a4af194f9b#64, 0xab1c5ed5da6d8118#64,
  0xd807aa98a3030242#64, 0x12835b0145706fbe#64, 0x243185be4ee4b28c#64, 0x550c7dc3d5ffb4e2#64,
  0x72be5d74f27b896f#64, 0x80deb1fe3b1696b1#64, 0x9bdc06a725c71235#64, 0xc19bf174cf692694#64,
  0xe49b69c19ef14ad2#64, 0xefbe4786384f25e3#64, 0x0fc19dc68b8cd5b5#64, 0x240ca1cc77ac9c65#64]

/-- Round constants 20 to 39. -/
def sha512K20 : List (BitVec 64) := [
  0x2de92c6f592b0275#64, 0x4a7484aa6ea6e483#64, 0x5cb0a9dcbd41fbd4#64, 0x76f988da831153b5#64,
  0x983e5152ee66dfab#64, 0xa831c66d2db43210#64, 0xb00327c898fb213f#64, 0xbf597fc7beef0ee4#64,
  0xc6e00bf33da88fc2#64, 0xd5a79147930aa725#64, 0x06ca6351e003826f#64, 0x142929670a0e6e70#64,
  0x27b70a8546d22ffc#64, 0x2e1b21385c26c926#64, 0x4d2c6dfc5ac42aed#64, 0x53380d139d95b3df#64,
  0x650a73548baf63de#64, 0x766a0abb3c77b2a8#64, 0x81c2c92e47edaee6#64, 0x92722c851482353b#64]

/-- Round constants 40 to 59. -/
def sha512K40 : List (BitVec 64) := [
  0xa2bfe8a14cf10364#64, 0xa81a664bbc423001#64, 0xc24b8b70d0f89791#64, 0xc76c51a30654be30#64,
  0xd192e819d6ef5218#64, 0xd69906245565a910#64, 0xf40e35855771202a#64, 0x106aa07032bbd1b8#64,
  0x19a4c116b8d2d0c8#64, 0x1e376c085141ab53#64, 0x2748774cdf8eeb99#64, 0x34b0bcb5e19b48a8#64,
  0x391c0cb3c5c95a63#64, 0x4ed8aa4ae3418acb#64, 0x5b9cca4f7763e373#64, 0x682e6ff3d6b2b8a3#64,
  0x748f82ee5defb2fc#64, 0x78a5636f43172f60#64, 0x84c87814a1f0ab72#64, 0x8cc702081a6439ec#64]

/-- Round constants 60 to 79. -/
def sha512K60 : List (BitVec 64) := [
  0x90befffa23631e28#64, 0xa4506cebde82bde9#64, 0xbef9a3f7b2c67915#64, 0xc67178f2e372532b#64,
  0xca273eceea26619c#64, 0xd186b8c721c0c207#64, 0xeada7dd6cde0eb1e#64, 0xf57d4f7fee6ed178#64,
  0x06f067aa72176fba#64, 0x0a637dc5a2c898a6#64, 0x113f9804bef90dae#64, 0x1b710b35131c471b#64,
  0x28db77f523047d84#64, 0x32caab7b40c72493#64, 0x3c9ebe0a15c9bebc#64, 0x431d67c49c100d4c#64,
  0x4cc5d4becb3e42b6#64, 0x597f299cfc657e2a#64, 0x5fcb6fab3ad6faec#64, 0x6c44198c4a475817#64]

/-- The round constants of SHA-384. -/
def sha512K : List (BitVec 64) := sha512K0 ++ sha512K20 ++ sha512K40 ++ sha512K60

/-- The initial value of SHA-384. -/
def sha384H : List (BitVec 64) := [
  0xcbbb9d5dc1059ed8#64, 0x629a292a367cd507#64, 0x9159015a3070dd17#64, 0x152fecd8f70e5939#64,
  0x67332667ffc00b31#64, 0x8eb44a8768581511#64, 0xdb0c2e0d64f98fa7#64, 0x47b5481dbefa4fa4#64]

/-- The message schedule: sixteen words extended to eighty. -/
def sha512Schedule (w : List (BitVec 64)) : List (BitVec 64) :=
  ((List.range 64).foldl (fun (acc : List (BitVec 64)) _ =>
    let g (i : Nat) := acc.getD i 0#64
    let x := g 14
    let y := g 1
    let s0 := x.rotateRight 1 ^^^ x.rotateRight 8 ^^^ (x >>> 7)
    let s1 := y.rotateRight 19 ^^^ y.rotateRight 61 ^^^ (y >>> 6)
    (s1 + g 6 + s0 + g 15) :: acc) w.reverse).reverse

/-- One round. -/
def sha512Round (v : List (BitVec 64)) (kw : BitVec 64) : List (BitVec 64) :=
  match v with
  | [a, b, c, d, e, f, g, h] =>
    let t1 := h + (e.rotateRight 14 ^^^ e.rotateRight 18 ^^^ e.rotateRight 41) + ((e &&& f) ^^^ (~~~e &&& g)) + kw
    let t2 := (a.rotateRight 28 ^^^ a.rotateRight 34 ^^^ a.rotateRight 39) + ((a &&& b) ^^^ (a &&& c) ^^^ (b &&& c))
    [t1 + t2, a, b, c, d + t1, e, f, g]
  | v => v

/-- Words of a byte string, most significant byte first. -/
def beWords (bs : List Byte) (n : Nat) : List (BitVec 64) :=
  (List.range n).map fun i => BitVec.ofNat 64 (beNat ((bs.drop (8 * i)).take 8))

/-- One block of 128 bytes. -/
def sha512Block (h : List (BitVec 64)) (bs : List Byte) : List (BitVec 64) :=
  let w := sha512Schedule (beWords bs 16)
  let v := (List.zipWith (· + ·) sha512K w).foldl sha512Round h
  List.zipWith (· + ·) h v

/-- SHA-384 of a byte string, 48 bytes. -/
def sha384 (m : List Byte) : List Byte :=
  let pad := (239 - m.length % 128) % 128
  let full := m ++ [0x80#8] ++ List.replicate pad 0#8 ++ beBytes 16 (8 * m.length)
  let h := (List.range (full.length / 128)).foldl (fun h i => sha512Block h ((full.drop (128 * i)).take 128)) sha384H
  ((h.map fun x => beBytes 8 x.toNat).flatten).take 48

/-- HMAC-SHA-384. -/
def hmac384 (key m : List Byte) : List Byte :=
  let k0 := if 128 < key.length then sha384 key else key
  let k := k0 ++ List.replicate (128 - k0.length) 0#8
  sha384 ((k.map fun b => b ^^^ 0x5C#8) ++ sha384 ((k.map fun b => b ^^^ 0x36#8) ++ m))

/-- HKDF with SHA-384: 64 bytes from a salt, an input key and an info string (R422). -/
def hkdf64 (salt ikm info : List Byte) : List Byte :=
  let prk := hmac384 salt ikm
  let t1 := hmac384 prk (info ++ [1#8])
  (t1 ++ hmac384 prk (t1 ++ info ++ [2#8])).take 64

/-- The tag of a frame: the first 16 bytes of HMAC-SHA-384 (R424). -/
def lapTag (ktag frame : List Byte) : List Byte := (hmac384 ktag frame).take 16

/-! ### Identity (19.5) -/

/-- A serial of 16 characters (R531): its two fixed ones, then digits and capital letters. -/
def serialOf (a b : Byte) (f : Nat → Fin 36) : List Byte :=
  a :: b :: (List.range 14).map fun i => BitVec.ofNat 8 (if (f i).val < 10 then 0x30 + (f i).val else 0x37 + (f i).val)

/-- The tray serial begins "K8" (R531). -/
def traySerial : List Byte := serialOf 0x4B#8 0x38#8 Config.traySerialChar

/-- A die serial begins "SR" (R531). -/
def dieSerial (d : DieId) : List Byte := serialOf 0x53#8 0x52#8 (Config.dieSerialChar d)

/-- The entry of the die binding extension for a die with a serial and a public key in uncompressed form (R532). -/
def bindingEntry (serial key : List Byte) : List Byte := serial ++ sha384 key

/-- The entry of die d: its serial (R531) and its key, 64 bytes. -/
def dieEntry (d : DieId) : List Byte := bindingEntry (dieSerial d) (Config.dieKey d)

/-- The die binding extension of the tray certificate: eight entries, S0 first (R532). -/
def bindingExtension : List Byte := ((List.finRange 8).map dieEntry).flatten

/-- The certificate chain of slot 0 (Table 19.3). -/
def certChain : List Byte := Config.chainBefore ++ bindingExtension ++ Config.chainAfter

/-- The ASCII bytes of a string. -/
def ascii (s : String) : List Byte := s.toList.map fun c => BitVec.ofNat 8 c.toNat

end Sys2Proof.Machine
end

