-- ==== Sys2Proof/Machine/LegendIndex.lean ====
section
/-! DEFINITION. The Legend Index (chapter 16, Tables 16.1 to 16.20): every object with its type, access kind, level,
default, range and persistence. Defaults and ranges are in the encoded unit (R378). -/

namespace Sys2Proof.Machine
open Sys2Proof

/-- Types of Table 14.2, told apart as far as a check needs it. -/
inductive ObjTy where
  | num | bool | string | blob
  deriving DecidableEq, Repr

/-- Access kinds (Table 14.3). -/
inductive Access where
  | ro | rw | wo | cmd | stream
  deriving DecidableEq, Repr

/-- Persistence (R430). -/
inductive Persistence where
  | volatile | persistent | counter
  deriving DecidableEq, Repr

/-- One object of the index. `len` is its length in bytes, 0 where it varies; `lo` to `hi` the range, `blo` to `bhi`
the part a Basic session may write (R108); `step` the whole units a value must be in. -/
structure Obj where
  idx : Nat
  sub : Nat
  ty : ObjTy
  access : Access
  expert : Bool
  pers : Persistence
  dflt : Nat
  lo : Nat
  hi : Nat
  blo : Nat
  bhi : Nat
  step : Nat
  len : Nat
  deriving DecidableEq, Repr

/-- The objects of area 0x1000. -/
def objs1000 : List Obj := [
  ⟨0x1000, 0x01, .string, .ro, false, .persistent, 0, 0, 0, 0, 0, 1, 0⟩,
  ⟨0x1000, 0x02, .string, .ro, false, .persistent, 0, 0, 0, 0, 0, 1, 0⟩,
  ⟨0x1000, 0x03, .string, .ro, false, .persistent, 0, 0, 0, 0, 0, 1, 0⟩,
  ⟨0x1000, 0x04, .num, .ro, false, .persistent, 0, 0, 65535, 0, 65535, 1, 2⟩,
  ⟨0x1000, 0x05, .blob, .ro, false, .persistent, 0, 0, 0, 0, 0, 1, 128⟩,
  ⟨0x1000, 0x06, .num, .ro, false, .volatile, 0, 0, 63, 0, 63, 1, 1⟩,
  ⟨0x1000, 0x10, .blob, .rw, true, .persistent, 0, 0, 0, 0, 0, 1, 2048⟩]

/-- The objects of area 0x1100. -/
def objs1100 : List Obj := [
  ⟨0x1100, 0x01, .num, .ro, false, .volatile, 0, 0, 1, 0, 1, 1, 1⟩,
  ⟨0x1100, 0x02, .num, .ro, false, .volatile, 0, 0, 28800, 0, 28800, 1, 4⟩,
  ⟨0x1100, 0x03, .num, .ro, false, .persistent, 0, 0, 8, 0, 8, 1, 1⟩,
  ⟨0x1100, 0x04, .num, .ro, false, .persistent, 0, 0, 600, 0, 600, 1, 4⟩,
  ⟨0x1100, 0x05, .string, .wo, true, .persistent, 0, 0, 0, 0, 0, 1, 0⟩,
  ⟨0x1100, 0x06, .num, .ro, false, .volatile, 0, 0, 255, 0, 255, 1, 1⟩,
  ⟨0x1100, 0x07, .blob, .rw, true, .persistent, 0, 0, 0, 0, 0, 1, 97⟩,
  ⟨0x1100, 0x08, .num, .ro, false, .volatile, 0, 0, 255, 0, 255, 1, 1⟩,
  ⟨0x1100, 0x09, .num, .ro, false, .volatile, 0, 0, 4294967295, 0, 4294967295, 1, 4⟩,
  ⟨0x1100, 0x0A, .num, .ro, false, .volatile, 0, 0, 4294967295, 0, 4294967295, 1, 4⟩,
  ⟨0x1100, 0x0B, .num, .ro, true, .volatile, 0, 0, 4294967295, 0, 4294967295, 1, 4⟩,
  ⟨0x1100, 0x0C, .num, .cmd, true, .volatile, 0, 1, 1, 1, 1, 1, 1⟩,
  ⟨0x1100, 0x0D, .num, .rw, true, .persistent, 28800, 60, 28800, 60, 28800, 1, 4⟩,
  ⟨0x1100, 0x0E, .num, .ro, true, .volatile, 0, 0, 4294967295, 0, 4294967295, 1, 4⟩,
  ⟨0x1100, 0x10, .num, .ro, false, .volatile, 0, 0, 63, 0, 63, 1, 1⟩,
  ⟨0x1100, 0x11, .num, .rw, true, .persistent, 66, 2, 255, 2, 255, 1, 1⟩,
  ⟨0x1100, 0x12, .num, .ro, false, .volatile, 0, 0, 255, 0, 255, 1, 1⟩,
  ⟨0x1100, 0x13, .num, .ro, false, .counter, 0, 0, 4294967295, 0, 4294967295, 1, 4⟩,
  ⟨0x1100, 0x14, .num, .ro, false, .counter, 0, 0, 4294967295, 0, 4294967295, 1, 4⟩,
  ⟨0x1100, 0x15, .num, .ro, false, .counter, 0, 0, 4294967295, 0, 4294967295, 1, 4⟩,
  ⟨0x1100, 0x16, .num, .ro, false, .volatile, 0, 0, 64, 0, 64, 1, 1⟩]

/-- The objects of area 0x1200. -/
def objs1200 : List Obj := [
  ⟨0x1200, 0x01, .num, .rw, false, .persistent, 8000000, 2800000, 8800000, 4800000, 8000000, 1000, 4⟩,
  ⟨0x1200, 0x02, .num, .ro, false, .volatile, 0, 0, 4294967295, 0, 4294967295, 1, 4⟩,
  ⟨0x1200, 0x03, .num, .ro, true, .volatile, 0, 0, 4294967295, 0, 4294967295, 1, 4⟩,
  ⟨0x1200, 0x04, .num, .ro, false, .volatile, 0, 0, 15, 0, 15, 1, 1⟩,
  ⟨0x1200, 0x05, .num, .ro, false, .volatile, 0, 0, 4294967295, 0, 4294967295, 1, 4⟩,
  ⟨0x1200, 0x06, .num, .ro, false, .volatile, 0, 0, 255, 0, 255, 1, 1⟩,
  ⟨0x1200, 0x10, .num, .cmd, true, .volatile, 0, 1, 1, 1, 1, 1, 1⟩,
  ⟨0x1200, 0x20, .num, .ro, false, .volatile, 0, 0, 255, 0, 255, 1, 1⟩,
  ⟨0x1200, 0x21, .num, .ro, false, .volatile, 0, 0, 65535, 0, 65535, 1, 2⟩,
  ⟨0x1200, 0x22, .num, .ro, false, .volatile, 0, 0, 65535, 0, 65535, 1, 2⟩,
  ⟨0x1200, 0x23, .num, .ro, false, .volatile, 0, 0, 400000, 0, 400000, 1, 4⟩,
  ⟨0x1200, 0x24, .num, .ro, true, .volatile, 0, 7200000, 8800000, 7200000, 8800000, 1, 4⟩]

/-- The objects of area 0x1300. -/
def objs1300 : List Obj := [
  ⟨0x1300, 0x01, .num, .rw, true, .persistent, 160, 100, 200, 100, 200, 1, 2⟩,
  ⟨0x1300, 0x02, .num, .ro, false, .volatile, 0, 0, 65535, 0, 65535, 1, 2⟩,
  ⟨0x1300, 0x03, .num, .ro, false, .volatile, 0, 0, 65535, 0, 65535, 1, 2⟩,
  ⟨0x1300, 0x04, .num, .ro, false, .volatile, 0, 0, 65535, 0, 65535, 1, 2⟩,
  ⟨0x1300, 0x05, .num, .ro, false, .volatile, 0, 0, 65535, 0, 65535, 1, 2⟩,
  ⟨0x1300, 0x06, .num, .ro, true, .volatile, 25700, 70, 100, 70, 100, 1, 2⟩,
  ⟨0x1300, 0x07, .num, .ro, false, .volatile, 0, 0, 4294967295, 0, 4294967295, 1, 4⟩]

/-- The objects of area 0x1400. -/
def objs1400 : List Obj := [
  ⟨0x1400, 0x01, .num, .rw, false, .persistent, 60, 5, 120, 5, 120, 1, 2⟩,
  ⟨0x1400, 0x02, .num, .rw, true, .persistent, 0, 0, 1, 0, 1, 1, 1⟩,
  ⟨0x1400, 0x03, .bool, .rw, true, .persistent, 0, 0, 1, 0, 1, 1, 1⟩,
  ⟨0x1400, 0x04, .num, .ro, false, .volatile, 0, 0, 65535, 0, 65535, 1, 2⟩,
  ⟨0x1400, 0x05, .num, .ro, false, .volatile, 0, 0, 65535, 0, 65535, 1, 2⟩,
  ⟨0x1400, 0x06, .num, .ro, false, .volatile, 0, 0, 1100, 0, 1100, 1, 2⟩,
  ⟨0x1400, 0x07, .num, .ro, false, .volatile, 0, 0, 2200, 0, 2200, 1, 2⟩,
  ⟨0x1400, 0x08, .string, .ro, false, .volatile, 0, 0, 0, 0, 0, 1, 0⟩,
  ⟨0x1400, 0x09, .num, .ro, false, .counter, 0, 0, 4294967295, 0, 4294967295, 1, 4⟩,
  ⟨0x1400, 0x0A, .num, .ro, false, .counter, 0, 0, 4294967295, 0, 4294967295, 1, 4⟩,
  ⟨0x1400, 0x0B, .num, .ro, false, .persistent, 0, 0, 18446744073709551615, 0, 18446744073709551615, 1, 8⟩,
  ⟨0x1400, 0x0C, .num, .cmd, true, .volatile, 0, 1, 1, 1, 1, 1, 1⟩,
  ⟨0x1400, 0x10, .num, .cmd, false, .volatile, 0, 1, 1, 1, 1, 1, 1⟩,
  ⟨0x1400, 0x11, .num, .cmd, false, .volatile, 0, 1, 1, 1, 1, 1, 1⟩]

/-- The objects of area 0x1500. -/
def objs1500 : List Obj := [
  ⟨0x1500, 0x01, .bool, .rw, false, .volatile, 0, 0, 1, 0, 1, 1, 1⟩,
  ⟨0x1500, 0x02, .num, .rw, false, .persistent, 100, 5, 100, 5, 100, 1, 1⟩,
  ⟨0x1500, 0x03, .blob, .ro, false, .volatile, 0, 0, 0, 0, 0, 1, 11⟩,
  ⟨0x1500, 0x04, .num, .ro, false, .volatile, 0, 0, 65535, 0, 65535, 1, 2⟩,
  ⟨0x1500, 0x05, .num, .ro, false, .persistent, 0, 0, 4294967295, 0, 4294967295, 1, 4⟩,
  ⟨0x1500, 0x06, .num, .ro, false, .persistent, 0, 0, 4096, 0, 4096, 1, 2⟩,
  ⟨0x1500, 0x07, .num, .cmd, true, .volatile, 0, 1, 1, 1, 1, 1, 1⟩,
  ⟨0x1500, 0x08, .num, .ro, false, .counter, 0, 0, 18446744073709551615, 0, 18446744073709551615, 1, 8⟩,
  ⟨0x1500, 0x09, .num, .ro, false, .persistent, 0, 0, 18446744073709551615, 0, 18446744073709551615, 1, 8⟩,
  ⟨0x1500, 0x10, .blob, .ro, false, .persistent, 0, 0, 0, 0, 0, 1, 16384⟩,
  ⟨0x1500, 0x11, .blob, .ro, false, .persistent, 0, 0, 0, 0, 0, 1, 16384⟩,
  ⟨0x1500, 0x12, .blob, .ro, false, .persistent, 0, 0, 0, 0, 0, 1, 16384⟩,
  ⟨0x1500, 0x13, .blob, .ro, false, .persistent, 0, 0, 0, 0, 0, 1, 16384⟩,
  ⟨0x1500, 0x14, .blob, .ro, false, .persistent, 0, 0, 0, 0, 0, 1, 16384⟩,
  ⟨0x1500, 0x15, .blob, .ro, false, .persistent, 0, 0, 0, 0, 0, 1, 16384⟩,
  ⟨0x1500, 0x16, .blob, .ro, false, .persistent, 0, 0, 0, 0, 0, 1, 16384⟩,
  ⟨0x1500, 0x17, .blob, .ro, false, .persistent, 0, 0, 0, 0, 0, 1, 16384⟩,
  ⟨0x1500, 0x18, .blob, .ro, false, .persistent, 0, 0, 0, 0, 0, 1, 16384⟩,
  ⟨0x1500, 0x19, .blob, .ro, false, .persistent, 0, 0, 0, 0, 0, 1, 16384⟩,
  ⟨0x1500, 0x1A, .blob, .ro, false, .persistent, 0, 0, 0, 0, 0, 1, 16384⟩,
  ⟨0x1500, 0x1B, .blob, .ro, false, .persistent, 0, 0, 0, 0, 0, 1, 16384⟩,
  ⟨0x1500, 0x1C, .blob, .ro, false, .persistent, 0, 0, 0, 0, 0, 1, 16384⟩,
  ⟨0x1500, 0x1D, .blob, .ro, false, .persistent, 0, 0, 0, 0, 0, 1, 16384⟩,
  ⟨0x1500, 0x1E, .blob, .ro, false, .persistent, 0, 0, 0, 0, 0, 1, 16384⟩,
  ⟨0x1500, 0x1F, .blob, .ro, false, .persistent, 0, 0, 0, 0, 0, 1, 16384⟩]

/-- The objects of area 0x1600. -/
def objs1600 : List Obj := [
  ⟨0x1600, 0x01, .num, .rw, true, .volatile, 0, 0, 4095, 0, 4095, 1, 2⟩,
  ⟨0x1600, 0x02, .blob, .wo, true, .volatile, 0, 0, 0, 0, 0, 1, 65536⟩,
  ⟨0x1600, 0x03, .num, .cmd, true, .volatile, 0, 1, 268435456, 1, 268435456, 1, 4⟩,
  ⟨0x1600, 0x04, .num, .cmd, true, .volatile, 0, 1, 1, 1, 1, 1, 1⟩,
  ⟨0x1600, 0x05, .num, .ro, false, .volatile, 0, 0, 6, 0, 6, 1, 1⟩,
  ⟨0x1600, 0x06, .blob, .ro, false, .persistent, 0, 0, 0, 0, 0, 1, 2⟩,
  ⟨0x1600, 0x07, .num, .ro, false, .persistent, 0, 0, 65535, 0, 65535, 1, 2⟩]

/-- The objects of area 0x2000. -/
def objs2000 : List Obj := [
  ⟨0x2000, 0x01, .num, .rw, false, .persistent, 1000000, 350000, 1100000, 600000, 1000000, 1000, 4⟩,
  ⟨0x2000, 0x02, .num, .rw, false, .persistent, 4000, 1000, 30000, 1000, 30000, 1, 4⟩,
  ⟨0x2000, 0x03, .num, .ro, false, .volatile, 1600000, 0, 4294967295, 0, 4294967295, 1, 4⟩,
  ⟨0x2000, 0x04, .num, .ro, false, .volatile, 1300000, 0, 4294967295, 0, 4294967295, 1, 4⟩,
  ⟨0x2000, 0x05, .num, .rw, true, .volatile, 0, 0, 1, 0, 1, 1, 1⟩,
  ⟨0x2000, 0x06, .num, .rw, true, .volatile, 8, 0, 15, 0, 15, 1, 1⟩,
  ⟨0x2000, 0x07, .num, .rw, true, .persistent, 8, 2, 16, 2, 16, 1, 4⟩,
  ⟨0x2000, 0x08, .num, .ro, false, .volatile, 0, 0, 4294967295, 0, 4294967295, 1, 4⟩,
  ⟨0x2000, 0x09, .num, .ro, false, .volatile, 0, 0, 4294967295, 0, 4294967295, 1, 4⟩,
  ⟨0x2000, 0x0A, .num, .ro, true, .volatile, 0, 0, 4294967295, 0, 4294967295, 1, 4⟩,
  ⟨0x2000, 0x0B, .num, .ro, true, .volatile, 0, 0, 4294967295, 0, 4294967295, 1, 4⟩,
  ⟨0x2000, 0x0C, .num, .ro, true, .volatile, 0, 0, 4294967295, 0, 4294967295, 1, 4⟩,
  ⟨0x2000, 0x0D, .num, .ro, false, .volatile, 0, 0, 4294967295, 0, 4294967295, 1, 4⟩,
  ⟨0x2000, 0x0E, .num, .ro, false, .volatile, 0, 0, 65535, 0, 65535, 1, 2⟩,
  ⟨0x2000, 0x0F, .num, .ro, false, .volatile, 0, 0, 4294967295, 0, 4294967295, 1, 4⟩,
  ⟨0x2000, 0x10, .num, .ro, true, .volatile, 0, 0, 120, 0, 120, 1, 2⟩,
  ⟨0x2000, 0x11, .num, .ro, true, .volatile, 0, 0, 4096, 0, 4096, 1, 2⟩,
  ⟨0x2000, 0x12, .num, .ro, true, .volatile, 0, 0, 18446744073709551615, 0, 18446744073709551615, 1, 8⟩,
  ⟨0x2000, 0x13, .num, .ro, true, .volatile, 0, 0, 18446744073709551615, 0, 18446744073709551615, 1, 8⟩,
  ⟨0x2000, 0x14, .num, .ro, true, .volatile, 0, 0, 18446744073709551615, 0, 18446744073709551615, 1, 8⟩,
  ⟨0x2000, 0x15, .num, .ro, false, .volatile, 0, 0, 4294967295, 0, 4294967295, 1, 4⟩,
  ⟨0x2000, 0x16, .blob, .ro, true, .volatile, 0, 0, 0, 0, 0, 1, 64⟩,
  ⟨0x2000, 0x20, .blob, .rw, true, .volatile, 0, 0, 0, 0, 0, 1, 4096⟩,
  ⟨0x2000, 0x21, .num, .ro, true, .volatile, 0, 0, 4294967295, 0, 4294967295, 1, 4⟩]

/-- The objects of area 0x2100. -/
def objs2100 : List Obj := [
  ⟨0x2100, 0x01, .num, .rw, true, .persistent, 0, 0, 1, 0, 1, 1, 1⟩,
  ⟨0x2100, 0x02, .num, .ro, false, .volatile, 0, 0, 15, 0, 15, 1, 1⟩,
  ⟨0x2100, 0x03, .num, .ro, false, .volatile, 0, 2000, 3800, 2000, 3800, 1, 2⟩,
  ⟨0x2100, 0x04, .num, .ro, false, .volatile, 0, 0, 65535, 0, 65535, 1, 2⟩,
  ⟨0x2100, 0x05, .num, .ro, false, .volatile, 0, 0, 2080000, 0, 2080000, 1, 4⟩,
  ⟨0x2100, 0x06, .blob, .ro, true, .volatile, 0, 0, 0, 0, 0, 1, 32⟩,
  ⟨0x2100, 0x07, .num, .ro, false, .persistent, 0, 0, 160, 0, 160, 1, 2⟩,
  ⟨0x2100, 0x08, .num, .ro, false, .volatile, 0, 0, 255, 0, 255, 1, 1⟩,
  ⟨0x2100, 0x09, .num, .ro, true, .persistent, 0, 0, 4294967295, 0, 4294967295, 1, 4⟩,
  ⟨0x2100, 0x0A, .num, .ro, false, .volatile, 0, 0, 15, 0, 15, 1, 1⟩,
  ⟨0x2100, 0x0B, .num, .ro, false, .volatile, 0, 0, 65535, 0, 65535, 1, 2⟩,
  ⟨0x2100, 0x0C, .num, .ro, false, .volatile, 0, 0, 4294967295, 0, 4294967295, 1, 4⟩,
  ⟨0x2100, 0x0D, .num, .rw, true, .persistent, 3200, 3000, 3400, 3000, 3400, 1, 2⟩,
  ⟨0x2100, 0x0E, .num, .ro, true, .volatile, 0, 0, 4294967295, 0, 4294967295, 1, 4⟩,
  ⟨0x2100, 0x0F, .num, .ro, false, .volatile, 0, 0, 255, 0, 255, 1, 1⟩]

/-- The objects of area 0x2200. -/
def objs2200 : List Obj := [
  ⟨0x2200, 0x01, .num, .rw, true, .persistent, 40, 20, 40, 20, 40, 5, 1⟩,
  ⟨0x2200, 0x02, .num, .rw, true, .persistent, 1, 0, 2, 0, 2, 1, 1⟩,
  ⟨0x2200, 0x03, .num, .rw, true, .persistent, 2, 0, 2, 0, 2, 1, 1⟩,
  ⟨0x2200, 0x04, .num, .ro, false, .volatile, 0, 0, 4294967295, 0, 4294967295, 1, 4⟩,
  ⟨0x2200, 0x05, .num, .ro, false, .volatile, 0, 0, 4294967295, 0, 4294967295, 1, 4⟩,
  ⟨0x2200, 0x06, .num, .ro, false, .volatile, 0, 0, 4294967295, 0, 4294967295, 1, 4⟩,
  ⟨0x2200, 0x07, .num, .ro, false, .volatile, 0, 0, 4294967295, 0, 4294967295, 1, 4⟩,
  ⟨0x2200, 0x08, .num, .ro, true, .volatile, 0, 0, 4294967295, 0, 4294967295, 1, 4⟩,
  ⟨0x2200, 0x09, .num, .ro, false, .volatile, 0, 0, 65535, 0, 65535, 1, 2⟩,
  ⟨0x2200, 0x0A, .blob, .ro, true, .counter, 0, 0, 0, 0, 0, 1, 256⟩,
  ⟨0x2200, 0x0B, .num, .ro, false, .counter, 0, 0, 18446744073709551615, 0, 18446744073709551615, 1, 8⟩,
  ⟨0x2200, 0x0C, .num, .ro, false, .counter, 0, 0, 4294967295, 0, 4294967295, 1, 4⟩,
  ⟨0x2200, 0x0E, .num, .ro, true, .volatile, 0, 0, 18446744073709551615, 0, 18446744073709551615, 1, 8⟩,
  ⟨0x2200, 0x0F, .num, .ro, true, .volatile, 0, 0, 18446744073709551615, 0, 18446744073709551615, 1, 8⟩,
  ⟨0x2200, 0x10, .num, .ro, false, .counter, 0, 0, 18446744073709551615, 0, 18446744073709551615, 1, 8⟩]

/-- The objects of area 0x2300. -/
def objs2300 : List Obj := [
  ⟨0x2300, 0x01, .num, .rw, true, .persistent, 1520, 1120, 1680, 1120, 1680, 1, 2⟩,
  ⟨0x2300, 0x02, .num, .ro, false, .volatile, 1680, 0, 65535, 0, 65535, 1, 2⟩,
  ⟨0x2300, 0x03, .num, .ro, false, .volatile, 1920, 0, 65535, 0, 65535, 1, 2⟩,
  ⟨0x2300, 0x04, .num, .rw, true, .persistent, 128, 32, 320, 32, 320, 1, 2⟩,
  ⟨0x2300, 0x05, .num, .rw, true, .persistent, 30, 5, 200, 5, 200, 1, 2⟩,
  ⟨0x2300, 0x06, .num, .ro, false, .volatile, 0, 0, 65535, 0, 65535, 1, 2⟩,
  ⟨0x2300, 0x07, .blob, .ro, false, .volatile, 0, 0, 0, 0, 0, 1, 32⟩,
  ⟨0x2300, 0x08, .blob, .rw, true, .persistent, 0, 0, 0, 0, 0, 1, 576⟩,
  ⟨0x2300, 0x09, .num, .ro, false, .volatile, 0, 0, 65535, 0, 65535, 1, 2⟩,
  ⟨0x2300, 0x0A, .num, .ro, false, .volatile, 16, 4, 16, 4, 16, 1, 1⟩,
  ⟨0x2300, 0x0B, .num, .ro, false, .persistent, 0, 0, 3, 0, 3, 1, 1⟩,
  ⟨0x2300, 0x0D, .num, .cmd, true, .volatile, 0, 1, 1, 1, 1, 1, 1⟩,
  ⟨0x2300, 0x0E, .blob, .ro, true, .volatile, 0, 0, 0, 0, 0, 1, 72⟩,
  ⟨0x2300, 0x0F, .num, .ro, false, .counter, 0, 0, 4294967295, 0, 4294967295, 1, 4⟩,
  ⟨0x2300, 0x10, .num, .ro, false, .counter, 0, 0, 18446744073709551615, 0, 18446744073709551615, 1, 8⟩]

/-- The objects of area 0x2500. -/
def objs2500 : List Obj := [
  ⟨0x2500, 0x01, .num, .rw, true, .persistent, 0, 0, 65535, 0, 65535, 1, 2⟩,
  ⟨0x2500, 0x02, .num, .rw, true, .persistent, 0, 0, 65535, 0, 65535, 1, 2⟩,
  ⟨0x2500, 0x03, .num, .ro, false, .volatile, 0, 0, 15, 0, 15, 1, 1⟩,
  ⟨0x2500, 0x04, .num, .ro, false, .volatile, 0, 0, 16, 0, 16, 1, 1⟩,
  ⟨0x2500, 0x05, .num, .ro, false, .volatile, 0, 0, 65535, 0, 65535, 1, 2⟩,
  ⟨0x2500, 0x06, .num, .ro, false, .volatile, 0, 1, 65536, 1, 65536, 1, 4⟩,
  ⟨0x2500, 0x07, .num, .ro, false, .counter, 0, 0, 4294967295, 0, 4294967295, 1, 4⟩,
  ⟨0x2500, 0x08, .num, .ro, false, .counter, 0, 0, 4294967295, 0, 4294967295, 1, 4⟩,
  ⟨0x2500, 0x09, .num, .ro, false, .volatile, 0, 0, 4294967295, 0, 4294967295, 1, 4⟩,
  ⟨0x2500, 0x0A, .num, .ro, false, .counter, 0, 0, 4294967295, 0, 4294967295, 1, 4⟩,
  ⟨0x2500, 0x0B, .num, .ro, true, .volatile, 0, 0, 4294967295, 0, 4294967295, 1, 4⟩,
  ⟨0x2500, 0x0C, .num, .ro, true, .volatile, 0, 0, 4294967295, 0, 4294967295, 1, 4⟩,
  ⟨0x2500, 0x0D, .num, .ro, false, .volatile, 0, 0, 18446744073709551615, 0, 18446744073709551615, 1, 8⟩,
  ⟨0x2500, 0x0E, .num, .cmd, true, .volatile, 0, 1, 1, 1, 1, 1, 1⟩,
  ⟨0x2500, 0x10, .bool, .rw, true, .persistent, 1, 0, 1, 0, 1, 1, 1⟩]

/-- The objects of area 0x2600. -/
def objs2600 : List Obj := [
  ⟨0x2600, 0x01, .num, .ro, false, .counter, 0, 0, 18446744073709551615, 0, 18446744073709551615, 1, 8⟩,
  ⟨0x2600, 0x02, .num, .ro, false, .counter, 0, 0, 18446744073709551615, 0, 18446744073709551615, 1, 8⟩,
  ⟨0x2600, 0x03, .num, .ro, false, .counter, 0, 0, 18446744073709551615, 0, 18446744073709551615, 1, 8⟩,
  ⟨0x2600, 0x04, .blob, .ro, true, .counter, 0, 0, 0, 0, 0, 1, 128⟩,
  ⟨0x2600, 0x05, .num, .rw, true, .persistent, 0, 0, 2, 0, 2, 1, 1⟩,
  ⟨0x2600, 0x06, .num, .ro, false, .volatile, 0, 0, 1000, 0, 1000, 1, 2⟩,
  ⟨0x2600, 0x07, .num, .ro, false, .volatile, 0, 0, 800, 0, 800, 1, 2⟩,
  ⟨0x2600, 0x08, .num, .ro, false, .volatile, 0, 0, 255, 0, 255, 1, 1⟩,
  ⟨0x2600, 0x09, .num, .ro, false, .volatile, 0, 0, 4294967295, 0, 4294967295, 1, 4⟩,
  ⟨0x2600, 0x0A, .num, .ro, true, .volatile, 0, 0, 4294967295, 0, 4294967295, 1, 4⟩,
  ⟨0x2600, 0x0B, .num, .ro, true, .volatile, 0, 0, 4294967295, 0, 4294967295, 1, 4⟩,
  ⟨0x2600, 0x0C, .blob, .ro, true, .volatile, 0, 0, 0, 0, 0, 1, 36⟩,
  ⟨0x2600, 0x0D, .num, .ro, true, .volatile, 0, 0, 65535, 0, 65535, 1, 2⟩,
  ⟨0x2600, 0x10, .num, .rw, false, .volatile, 0, 0, 4294967295, 0, 4294967295, 1, 4⟩,
  ⟨0x2600, 0x11, .num, .ro, false, .counter, 0, 0, 18446744073709551615, 0, 18446744073709551615, 1, 8⟩,
  ⟨0x2600, 0x12, .blob, .ro, false, .counter, 0, 0, 0, 0, 0, 1, 64⟩,
  ⟨0x2600, 0x13, .num, .ro, false, .counter, 0, 0, 18446744073709551615, 0, 18446744073709551615, 1, 8⟩]

/-- The objects of area 0x2700. -/
def objs2700 : List Obj := [
  ⟨0x2700, 0x01, .num, .cmd, false, .volatile, 0, 1, 1, 1, 1, 1, 1⟩,
  ⟨0x2700, 0x02, .blob, .ro, false, .volatile, 0, 0, 0, 0, 0, 1, 8192⟩,
  ⟨0x2700, 0x03, .num, .ro, false, .volatile, 0, 0, 4294967295, 0, 4294967295, 1, 4⟩,
  ⟨0x2700, 0x04, .num, .rw, false, .persistent, 0, 0, 60000, 0, 60000, 1, 4⟩,
  ⟨0x2700, 0x05, .num, .ro, false, .volatile, 0, 0, 18446744073709551615, 0, 18446744073709551615, 1, 8⟩,
  ⟨0x2700, 0x06, .bool, .rw, false, .persistent, 0, 0, 1, 0, 1, 1, 1⟩,
  ⟨0x2700, 0x07, .num, .rw, false, .persistent, 64, 1, 256, 1, 256, 1, 2⟩,
  ⟨0x2700, 0x08, .num, .rw, false, .persistent, 64, 1, 128, 1, 128, 1, 2⟩,
  ⟨0x2700, 0x09, .num, .rw, false, .persistent, 10, 1, 1000, 1, 1000, 1, 2⟩,
  ⟨0x2700, 0x0A, .blob, .rw, false, .persistent, 0, 0, 0, 0, 0, 1, 48⟩,
  ⟨0x2700, 0x0B, .blob, .rw, true, .persistent, 0, 0, 0, 0, 0, 1, 256⟩,
  ⟨0x2700, 0x0C, .blob, .rw, true, .persistent, 0, 0, 0, 0, 0, 1, 256⟩,
  ⟨0x2700, 0x0D, .blob, .rw, true, .persistent, 0, 0, 0, 0, 0, 1, 256⟩,
  ⟨0x2700, 0x0E, .blob, .rw, true, .persistent, 0, 0, 0, 0, 0, 1, 256⟩,
  ⟨0x2700, 0x0F, .num, .rw, false, .persistent, 0, 0, 3, 0, 3, 1, 1⟩,
  ⟨0x2700, 0x10, .num, .rw, false, .persistent, 0, 0, 18446744073709551615, 0, 18446744073709551615, 4096, 8⟩,
  ⟨0x2700, 0x11, .num, .rw, false, .persistent, 16, 2, 256, 2, 256, 1, 2⟩,
  ⟨0x2700, 0x12, .num, .rw, false, .persistent, 100, 1, 1000, 1, 1000, 1, 2⟩,
  ⟨0x2700, 0x13, .blob, .rw, true, .persistent, 0, 0, 0, 0, 0, 1, 128⟩,
  ⟨0x2700, 0x14, .num, .rw, true, .persistent, 0, 0, 65535, 0, 65535, 1, 2⟩,
  ⟨0x2700, 0x15, .num, .ro, false, .volatile, 0, 0, 4294967295, 0, 4294967295, 1, 4⟩,
  ⟨0x2700, 0x16, .num, .ro, false, .volatile, 0, 0, 65535, 0, 65535, 1, 2⟩,
  ⟨0x2700, 0x17, .num, .ro, false, .volatile, 0, 0, 4294967295, 0, 4294967295, 1, 4⟩,
  ⟨0x2700, 0x18, .num, .ro, true, .volatile, 0, 0, 4294967295, 0, 4294967295, 1, 4⟩,
  ⟨0x2700, 0x19, .num, .ro, false, .volatile, 0, 0, 4294967295, 0, 4294967295, 1, 4⟩,
  ⟨0x2700, 0x1A, .num, .ro, false, .volatile, 0, 0, 4294967295, 0, 4294967295, 1, 4⟩,
  ⟨0x2700, 0x1B, .num, .cmd, true, .volatile, 0, 1, 1, 1, 1, 1, 1⟩,
  ⟨0x2700, 0x1C, .blob, .stream, false, .volatile, 0, 0, 0, 0, 0, 1, 0⟩]

/-- The objects of area 0x3000. -/
def objs3000 : List Obj := [
  ⟨0x3000, 0x01, .blob, .ro, false, .volatile, 0, 0, 0, 0, 0, 1, 16⟩,
  ⟨0x3000, 0x02, .num, .rw, true, .persistent, 65535, 0, 65535, 0, 65535, 1, 2⟩,
  ⟨0x3000, 0x03, .num, .ro, false, .volatile, 0, 0, 1, 0, 1, 1, 1⟩,
  ⟨0x3000, 0x04, .num, .ro, false, .volatile, 0, 0, 255, 0, 255, 1, 1⟩,
  ⟨0x3000, 0x05, .num, .ro, false, .counter, 0, 0, 4294967295, 0, 4294967295, 1, 4⟩,
  ⟨0x3000, 0x06, .blob, .ro, true, .volatile, 0, 0, 0, 0, 0, 1, 1280⟩,
  ⟨0x3000, 0x07, .blob, .ro, true, .volatile, 0, 0, 0, 0, 0, 1, 32⟩,
  ⟨0x3000, 0x08, .num, .rw, true, .persistent, 250, 50, 10000, 50, 10000, 1, 4⟩,
  ⟨0x3000, 0x09, .num, .rw, true, .persistent, 2, 1, 20, 1, 20, 1, 2⟩,
  ⟨0x3000, 0x0A, .blob, .ro, true, .volatile, 0, 0, 0, 0, 0, 1, 1380⟩,
  ⟨0x3000, 0x0B, .blob, .ro, true, .persistent, 0, 0, 0, 0, 0, 1, 1380⟩,
  ⟨0x3000, 0x0C, .num, .cmd, true, .volatile, 0, 1, 1, 1, 1, 1, 1⟩,
  ⟨0x3000, 0x0D, .blob, .ro, false, .volatile, 0, 0, 0, 0, 0, 1, 16⟩,
  ⟨0x3000, 0x0E, .num, .ro, false, .counter, 0, 0, 18446744073709551615, 0, 18446744073709551615, 1, 8⟩,
  ⟨0x3000, 0x0F, .num, .ro, false, .counter, 0, 0, 18446744073709551615, 0, 18446744073709551615, 1, 8⟩,
  ⟨0x3000, 0x10, .num, .ro, false, .counter, 0, 0, 4294967295, 0, 4294967295, 1, 4⟩,
  ⟨0x3000, 0x11, .num, .ro, false, .counter, 0, 0, 4294967295, 0, 4294967295, 1, 4⟩,
  ⟨0x3000, 0x12, .num, .ro, false, .counter, 0, 0, 4294967295, 0, 4294967295, 1, 4⟩,
  ⟨0x3000, 0x13, .blob, .ro, false, .volatile, 0, 0, 0, 0, 0, 1, 128⟩,
  ⟨0x3000, 0x14, .blob, .ro, true, .volatile, 0, 0, 0, 0, 0, 1, 32⟩,
  ⟨0x3000, 0x15, .num, .ro, false, .volatile, 0, 0, 4294967295, 0, 4294967295, 1, 4⟩,
  ⟨0x3000, 0x16, .blob, .ro, true, .volatile, 0, 0, 0, 0, 0, 1, 40960⟩,
  ⟨0x3000, 0x17, .num, .ro, true, .counter, 0, 0, 18446744073709551615, 0, 18446744073709551615, 1, 8⟩,
  ⟨0x3000, 0x18, .num, .ro, true, .counter, 0, 0, 4294967295, 0, 4294967295, 1, 4⟩,
  ⟨0x3000, 0x20, .blob, .rw, true, .persistent, 0, 0, 0, 0, 0, 1, 65536⟩]

/-- The objects of area 0x3100. -/
def objs3100 : List Obj := [
  ⟨0x3100, 0x01, .blob, .ro, false, .volatile, 0, 0, 0, 0, 0, 1, 8⟩,
  ⟨0x3100, 0x02, .blob, .ro, true, .volatile, 0, 0, 0, 0, 0, 1, 32⟩,
  ⟨0x3100, 0x03, .blob, .ro, true, .volatile, 0, 0, 0, 0, 0, 1, 16⟩,
  ⟨0x3100, 0x04, .blob, .ro, true, .volatile, 0, 0, 0, 0, 0, 1, 16⟩,
  ⟨0x3100, 0x05, .blob, .ro, false, .volatile, 0, 0, 0, 0, 0, 1, 16⟩,
  ⟨0x3100, 0x06, .num, .ro, false, .counter, 0, 0, 18446744073709551615, 0, 18446744073709551615, 1, 8⟩,
  ⟨0x3100, 0x07, .num, .ro, false, .counter, 0, 0, 4294967295, 0, 4294967295, 1, 4⟩,
  ⟨0x3100, 0x08, .num, .ro, true, .counter, 0, 0, 18446744073709551615, 0, 18446744073709551615, 1, 8⟩,
  ⟨0x3100, 0x09, .num, .rw, true, .persistent, 10000, 1000, 600000, 1000, 600000, 1, 4⟩,
  ⟨0x3100, 0x0A, .num, .cmd, true, .volatile, 0, 1, 255, 1, 255, 1, 1⟩,
  ⟨0x3100, 0x0B, .num, .ro, false, .volatile, 0, 0, 10500, 0, 10500, 1, 4⟩,
  ⟨0x3100, 0x0C, .num, .ro, false, .volatile, 0, 0, 65535, 0, 65535, 1, 2⟩]

/-- The objects of area 0x4000. -/
def objs4000 : List Obj := [
  ⟨0x4000, 0x01, .num, .ro, false, .volatile, 0, 0, 48, 0, 48, 1, 1⟩,
  ⟨0x4000, 0x02, .blob, .ro, true, .volatile, 0, 0, 0, 0, 0, 1, 192⟩,
  ⟨0x4000, 0x03, .num, .ro, false, .volatile, 0, 0, 48, 0, 48, 1, 1⟩,
  ⟨0x4000, 0x04, .num, .ro, false, .volatile, 16384, 0, 16384, 0, 16384, 1, 2⟩,
  ⟨0x4000, 0x05, .blob, .ro, true, .volatile, 0, 0, 0, 0, 0, 1, 32768⟩,
  ⟨0x4000, 0x06, .num, .ro, false, .counter, 0, 0, 18446744073709551615, 0, 18446744073709551615, 1, 8⟩,
  ⟨0x4000, 0x07, .num, .ro, false, .volatile, 0, 0, 48, 0, 48, 1, 2⟩]

/-- The objects of area 0x5000. -/
def objs5000 : List Obj := [
  ⟨0x5000, 0x01, .num, .rw, true, .volatile, 0, 0, 1, 0, 1, 1, 1⟩,
  ⟨0x5000, 0x02, .num, .ro, false, .volatile, 0, 0, 255, 0, 255, 1, 1⟩,
  ⟨0x5000, 0x03, .num, .ro, false, .volatile, 0, 0, 65535, 0, 65535, 1, 2⟩,
  ⟨0x5000, 0x04, .num, .ro, true, .volatile, 0, 0, 255, 0, 255, 1, 1⟩,
  ⟨0x5000, 0x05, .num, .rw, true, .volatile, 65535, 0, 4294967295, 0, 4294967295, 1, 4⟩,
  ⟨0x5000, 0x06, .num, .rw, true, .volatile, 12, 0, 13, 0, 13, 1, 1⟩,
  ⟨0x5000, 0x07, .num, .rw, true, .volatile, 0, 0, 15, 0, 15, 1, 1⟩,
  ⟨0x5000, 0x08, .bool, .rw, true, .volatile, 0, 0, 1, 0, 1, 1, 1⟩,
  ⟨0x5000, 0x09, .num, .ro, false, .volatile, 0, 0, 18446744073709551615, 0, 18446744073709551615, 1, 8⟩,
  ⟨0x5000, 0x0A, .num, .ro, false, .volatile, 0, 0, 255, 0, 255, 1, 1⟩,
  ⟨0x5000, 0x0B, .num, .ro, true, .volatile, 0, 0, 4294967295, 0, 4294967295, 1, 4⟩,
  ⟨0x5000, 0x0C, .num, .ro, false, .volatile, 0, 0, 18446744073709551615, 0, 18446744073709551615, 1, 8⟩]

/-- The objects of area 0x6000. -/
def objs6000 : List Obj := [
  ⟨0x6000, 0x01, .blob, .ro, false, .volatile, 0, 0, 0, 0, 0, 1, 8⟩,
  ⟨0x6000, 0x02, .num, .ro, false, .counter, 0, 0, 18446744073709551615, 0, 18446744073709551615, 1, 8⟩,
  ⟨0x6000, 0x03, .num, .ro, false, .counter, 0, 0, 4294967295, 0, 4294967295, 1, 4⟩,
  ⟨0x6000, 0x04, .num, .ro, false, .volatile, 0, 0, 16384, 0, 16384, 1, 2⟩,
  ⟨0x6000, 0x05, .num, .ro, true, .counter, 0, 0, 4294967295, 0, 4294967295, 1, 4⟩,
  ⟨0x6000, 0x06, .num, .ro, false, .volatile, 0, 0, 6, 0, 6, 1, 1⟩,
  ⟨0x6000, 0x07, .blob, .ro, false, .volatile, 0, 0, 0, 0, 0, 1, 17⟩,
  ⟨0x6000, 0x08, .num, .ro, false, .volatile, 0, 0, 8, 0, 8, 1, 1⟩,
  ⟨0x6000, 0x09, .num, .cmd, true, .volatile, 0, 0, 127, 0, 127, 1, 1⟩,
  ⟨0x6000, 0x0A, .num, .cmd, true, .volatile, 0, 1, 1, 1, 1, 1, 1⟩,
  ⟨0x6000, 0x0B, .num, .cmd, true, .volatile, 0, 1, 1, 1, 1, 1, 1⟩,
  ⟨0x6000, 0x0C, .num, .ro, false, .counter, 0, 0, 4294967295, 0, 4294967295, 1, 4⟩,
  ⟨0x6000, 0x0D, .num, .ro, false, .volatile, 0, 0, 65535, 0, 65535, 1, 2⟩,
  ⟨0x6000, 0x0E, .num, .ro, true, .volatile, 0, 0, 65535, 0, 65535, 1, 2⟩]

/-- The objects of area 0x7000. -/
def objs7000 : List Obj := [
  ⟨0x7000, 0x01, .num, .cmd, false, .volatile, 0, 1, 1, 1, 1, 1, 1⟩,
  ⟨0x7000, 0x02, .num, .cmd, false, .volatile, 0, 1, 1, 1, 1, 1, 1⟩,
  ⟨0x7000, 0x03, .bool, .rw, false, .persistent, 1, 0, 1, 0, 1, 1, 1⟩,
  ⟨0x7000, 0x04, .num, .ro, false, .volatile, 0, 0, 4, 0, 4, 1, 1⟩,
  ⟨0x7000, 0x05, .num, .ro, false, .counter, 0, 0, 4294967295, 0, 4294967295, 1, 4⟩,
  ⟨0x7000, 0x06, .num, .ro, false, .counter, 0, 0, 18446744073709551615, 0, 18446744073709551615, 1, 8⟩]

/-- The whole index (R429). -/
def legendIndex : List Obj :=
  objs1000 ++ objs1100 ++ objs1200 ++ objs1300 ++ objs1400 ++ objs1500 ++ objs1600 ++ objs2000 ++ objs2100 ++ objs2200 ++ objs2300 ++ objs2500 ++ objs2600 ++ objs2700 ++ objs3000 ++ objs3100 ++ objs4000 ++ objs5000 ++ objs6000 ++ objs7000

/-- The object named by index and subindex (R376). -/
def findObj (idx sub : Nat) : Option Obj := legendIndex.find? (fun o => o.idx == idx && o.sub == sub)

end Sys2Proof.Machine
end

