-- ==== Sys2Proof/Machine/State.lean ====
section
/-! DEFINITION. The state of the tray as plain data: its parts, the eight dies, the functions, contexts and tenants,
what it has sent, and the queue of waiting commands. Every default is the value at reset. -/

namespace Sys2Proof.Machine
open Sys2Proof

/-- Everything one die holds. -/
structure Die where
  clk : Clk := {}
  rails : Rails := {}
  op : OpPoint := {}
  pow : Power := {}
  droop : Droop := {}
  heat : Heat := {}
  mer : Meridian := {}
  nrg : Energy := {}
  srv : Survey := {}
  cmp : Composer := {}
  til : Tiles := {}
  fab : Fabric := {}
  sct : Scouts := {}
  frost : Frost := {}
  svc : Service := {}
  deriving DecidableEq, Repr

/-- Everything the tray itself holds. -/
structure Tray where
  /-- Tray-controller runtime since power-on, ns: the model's clock (R612, log 1, DESIGN CHOICE). -/
  now : Ns := 0
  /-- Runtime accumulated before this power-on (R612). -/
  accBase : Ns := 0
  pow : TrayPower := {}
  cool : Coolant := {}
  leg : Legend := {}
  hold : HoldUp := {}
  fw : Firmware := {}
  mor : Moraine := {}
  ind : Indicators := {}
  /-- Owner of the Legend mailbox (R457). -/
  mbox : Option (Fin 2) := none
  deriving DecidableEq, Repr

/-- What the tray sends. -/
inductive Output where
  /-- A write to host memory by function `f` (R442). -/
  | hostWrite (f : Fn) (addr : Nat) (bytes : List Byte)
  | msix (f : Fn) (v : Nat)
  /-- A LAP frame to master m: on the field port for masters 1 and 2, in a datagram to a station's address and port, from port 48710
  with hop limit 255 (R408); in the response buffer for master 3, without an address. -/
  | lap (m : MasterId) (dst : Option Peer) (bytes : List Byte)
  /-- An Ethernet payload on field port A or B (neighbour advertisement, ICMPv6). -/
  | field (portB : Bool) (src dst : Nat) (bytes : List Byte)
  /-- A flit on a port: data, close, or control with one record as its payload (Table 12.9). -/
  | flit (d : DieId) (port : Nat) (bytes : List Byte)
  /-- A data object of a DOE capability. -/
  | doe (f : Fn) (bytes : List Byte)
  deriving DecidableEq, Repr

/-- The reasons a step can stop with a fault. -/
inductive Fault where
  /-- An SRAM address outside the die's 2^30 bytes (R257): raised by no command of the table, whose addresses are
  checked before they reach the memory; safe. -/
  | noSuchAddress (addr : Nat)
  deriving DecidableEq, Repr

/-- The reasons a command can be refused. -/
inductive Refusal where
  /-- No meaning yet: raised by an arm of exec alone; safe. -/
  | notModelled (mnemonic : String)
  deriving DecidableEq, Repr

/-- The machine. -/
structure State where
  tray : Tray := {}
  dies : Vector Die 8 := Vector.replicate 8 {}
  masters : Vector Master 4 := Vector.replicate 4 {}
  pfs : Vector PF 2 := Vector.replicate 2 {}
  /-- Virtual functions that exist, by port and index (R444). -/
  vfs : List ((Nat × Nat) × VF) := []
  tenants : List (Nat × Tenant) := []
  /-- Active contexts by tenant and handle (R470). -/
  ctxs : List ((Nat × Nat) × Ctx) := []
  /-- What the tray has sent, newest first (log 5, DESIGN CHOICE). -/
  outputs : List Output := []
  /-- The model's own counter of free values taken (log 3, DESIGN CHOICE). -/
  fresh : Nat := 0
  /-- Commands that wait, first in, first out. -/
  pending : List Instr := []
  deriving DecidableEq, Repr

/-- The machine right after reset. -/
def State.reset : State := {}

end Sys2Proof.Machine
end

