-- ==== Sys2Proof/Machine/Ops.lean ====
section
/-! DEFINITION. The named operations over the state that the meanings share: time, dies, settings in force, the
moraine, host memory, notices, control records. -/

namespace Sys2Proof.Machine
open Sys2Proof

/-! ### Parts of the state -/

/-- Die `d`. -/
def State.die (s : State) (d : DieId) : Die := s.dies.get d

/-- `s` with die `d` changed by `f`. -/
def State.modDie (s : State) (d : DieId) (f : Die → Die) : State :=
  { s with dies := s.dies.set d.val (f (s.dies.get d)) d.isLt }

/-- `s` with the tray's own part changed. -/
def State.modTray (s : State) (f : Tray → Tray) : State := { s with tray := f s.tray }

/-- `s` with every die changed. -/
def State.allDies (s : State) (f : Die → Die) : State := { s with dies := s.dies.map f }

/-- A fold over the dies in index order. -/
def State.forDies (s : State) (f : State → DieId → State) : State := (List.finRange 8).foldl f s

/-- Master `m`. -/
def State.master (s : State) (m : MasterId) : Master := s.masters.get m

/-- `s` with master `m` changed. -/
def State.modMaster (s : State) (m : MasterId) (f : Master → Master) : State :=
  { s with masters := s.masters.set m.val (f (s.masters.get m)) m.isLt }

/-- Physical function of port p. -/
def State.pf (s : State) (p : Fin 2) : PF := s.pfs.get p

/-- `s` with a physical function changed. -/
def State.modPf (s : State) (p : Fin 2) (f : PF → PF) : State :=
  { s with pfs := s.pfs.set p.val (f (s.pfs.get p)) p.isLt }

/-- Port number as an index of the two host ports. -/
def portIx (p : Nat) : Fin 2 := if p % 2 = 0 then 0 else 1

/-- `s` with a virtual function changed, when it exists. -/
def State.modVf (s : State) (p n : Nat) (f : VF → VF) : State := { s with vfs := KV.modify s.vfs (p, n) f }

/-- What the tray sends (log 5, DESIGN CHOICE). -/
def State.emit (s : State) (o : Output) : State := { s with outputs := o :: s.outputs }

/-- The tenant's record, empty when it has none yet. -/
def State.tenant (s : State) (t : Nat) : Tenant := KV.getD s.tenants t {}

/-- `s` with a tenant's record changed. -/
def State.modTenant (s : State) (t : Nat) (f : Tenant → Tenant) : State :=
  { s with tenants := KV.put s.tenants t (f (s.tenant t)) }

/-- `s` with a context changed, when it is active. -/
def State.modCtx (s : State) (t h : Nat) (f : Ctx → Ctx) : State := { s with ctxs := KV.modify s.ctxs (t, h) f }

/-- `s` with the table of contexts, of virtual functions, or of tenants changed as a whole. -/
def State.setCtxs (s : State) (f : List ((Nat × Nat) × Ctx) → List ((Nat × Nat) × Ctx)) : State :=
  { s with ctxs := f s.ctxs }
def State.setVfs (s : State) (f : List ((Nat × Nat) × VF) → List ((Nat × Nat) × VF)) : State := { s with vfs := f s.vfs }
def State.setTenants (s : State) (f : List (Nat × Tenant) → List (Nat × Tenant)) : State :=
  { s with tenants := f s.tenants }

/-- `s` with every master, or both physical functions, changed. -/
def State.allMasters (s : State) (f : Master → Master) : State := { s with masters := s.masters.map f }
def State.allPfs (s : State) (f : PF → PF) : State := { s with pfs := s.pfs.map f }

/-- The test access port is served: an Expert session is open. Outside one TDO is at high impedance and TCK, TMS, TDI and
TRST_n are ignored (R27). -/
def State.tapServed (s : State) : Bool := [(1 : MasterId), 2, 3].any fun m => (s.master m).session.isSome

/-- Release of the governor image in the active slot, which a die that starts receives (R573, R585, 21.3). -/
def Firmware.activeRelease (f : Firmware) : Nat :=
  if (if f.runB then f.slotB else f.slotA) == .active then f.release else f.otherRelease

/-- Some die holds a resident context. -/
def State.anyResident (s : State) : Bool := (List.finRange 8).any fun d => (s.die d).til.slots.any Option.isSome

/-- The instruction that the TAP controller holds may stand: BYPASS always, IDCODE in an Expert session, any other only while
no die holds a resident context (R27). -/
def State.tapAllows (s : State) (i : TapInstr) : Bool :=
  i == .bypass || (s.tapServed && (i == .idcode || !s.anyResident))

/-- The TAP controller loads BYPASS when its instruction may no longer stand (R27). -/
def State.tapHold (s : State) : State :=
  if s.tapAllows s.tray.pow.tap then s else s.modTray fun y => { y with pow := { y.pow with tap := .bypass } }

/-- The next n free values are taken (log 3, DESIGN CHOICE). -/
def State.skipFree (s : State) (n : Nat) : State := { s with fresh := s.fresh + n }

/-- A free value: its number, and the state with the counter advanced (log 3, DESIGN CHOICE). -/
def State.takeFree (s : State) : Nat × State := (s.fresh, s.skipFree 1)

/-- The n next free bytes. -/
def State.freeBytes (s : State) (n : Nat) : List Byte × State :=
  ((List.range n).map (fun i => Config.freeByte (s.fresh + i)), s.skipFree n)

/-! ### Time (03.8, R612) -/

/-- The runtime is at least `t`: a command that stands for an event due at `t` carries the time to it (log 1, DESIGN CHOICE). -/
def State.advanceTo (s : State) (t : Ns) : State := s.modTray fun y => { y with now := max y.now t }

/-- Accumulated tray-controller runtime (R612) (log 104, DESIGN CHOICE). -/
def State.accNow (s : State) : Ns := s.tray.accBase + s.tray.now

/-- What the rate adjustment of the running 1 ms has added by tray runtime `now` (R59, R60). -/
def Clk.steered (c : Clk) (now : Ns) : Int := c.rateAdj * (min (now - c.rateFrom) 1000000 : Nat) / 1000000

/-- The steered count without its floor. -/
def Clk.raw (c : Clk) (now : Ns) : Int := (now : Int) + c.timeOff + c.steered now

/-- The count of a clock at tray runtime `now`: it never falls below its floor (R60, R62). -/
def Clk.count (c : Clk) (now : Ns) : Nat := max c.timeFloor (c.raw now).toNat % 2 ^ 64

/-- System time of die `d` (R63). -/
def State.sysTime (s : State) (d : DieId) : Nat := (s.die d).clk.count s.tray.now

/-- Bits [63:20] of system time (R63). -/
def State.epoch (s : State) (d : DieId) : Nat := s.sysTime d / 2 ^ 20

/-- The in-epoch time, ns (R63). -/
def State.inEpoch (s : State) (d : DieId) : Nat := s.sysTime d % 2 ^ 20

/-- The die's in-epoch time is at least `t` (log 1, DESIGN CHOICE): a command for an event of the epoch timeline carries time to it. -/
def State.advanceIn (s : State) (d : DieId) (t : Ns) : State :=
  s.modTray fun y => { y with now := y.now + (t - s.inEpoch d) }

/-- The system time a record carries: 0 while invalid (Tables 17.5, 23.3). -/
def State.stampTime (s : State) (d : DieId) : Nat := if (s.die d).clk.timeValid then s.sysTime d else 0

/-- The die whose time stands for the tray's: the lowest with valid time, else S0 (log 1, DESIGN CHOICE). -/
def State.timeDie (s : State) : DieId := ((List.finRange 8).find? fun d => (s.die d).clk.timeValid).getD 0

/-- Tray-level system time: that of `timeDie`, 0 while none is valid. -/
def State.trayTime (s : State) : Nat := s.stampTime s.timeDie

/-- Tray runtime at which a clock's count reaches `b`: within the running 1 ms at its adjusted rate, else after it (R60). -/
def Clk.reaches (c : Clk) (b : Nat) : Ns :=
  let span : Int := ((b : Int) - c.timeOff - c.rateFrom) * 1000000
  let slope : Int := 1000000 + c.rateAdj
  let u := ((span + slope - 1) / slope).toNat
  if u ≤ 1000000 then c.rateFrom + u else ((b : Int) - c.timeOff - c.rateAdj).toNat

/-- Tray runtime at which a clock's count reaches its next epoch boundary (R63). -/
def Clk.boundaryAt (c : Clk) (now : Ns) : Ns := c.reaches ((c.count now / 2 ^ 20 + 1) * 2 ^ 20)

/-! ### Settings in force (chapters 14 and 16) -/

/-- Default of an object that has no plain number as default: BLOB defaults (Tables 16.1 to 16.20), the latched slot
number and the die index (log 209, DEDUCED). -/
def objDefault (slot : Nat) (o : Obj) (sel : Nat) : Nat :=
  if o.idx = 0x1000 ∧ o.sub = 0x10 then
    (List.range 1024).foldr (fun i acc => i + 65536 * acc) 0
  else if o.idx = 0x2300 ∧ o.sub = 8 then
    (List.range 576).foldr (fun n acc =>
      (if n < 512 then n / 4 % 16 / 2 else if n < 544 then 11 else if n < 560 then 8 else if n < 568 then 9 else 10)
        + 256 * acc) 0
  else if o.idx = 0x2500 ∧ o.sub = 1 then slot
  else if o.idx = 0x2500 ∧ o.sub = 2 then sel
  else if o.idx = 0x2700 ∧ o.sub = 0x0A then 1 + 16384 * 256
  else if o.idx = 0x2700 ∧ 0x0B ≤ o.sub ∧ o.sub ≤ 0x0E then
    (List.range 16).foldr (fun ph acc =>
      ((1024 * (16 - ph)) * 2 ^ 48 + (1024 * ph) * 2 ^ 64) + 2 ^ 128 * acc) 0
  else o.dflt

/-- The value in force of a stored setting. -/
def State.setting (s : State) (idx sub sel : Nat) : Nat :=
  match KV.get? s.tray.leg.settings ⟨idx, sub, sel⟩ with
  | some v => v
  | none => match findObj idx sub with
    | some o => objDefault s.tray.pow.slotLatched o sel
    | none => 0

/-- A die's stored setting. -/
def State.dset (s : State) (d : DieId) (idx sub : Nat) : Nat := s.setting idx sub d.val

/-- `s` with a setting in force. -/
def State.putSetting (s : State) (idx sub sel v : Nat) : State :=
  s.modTray fun y => { y with leg := { y.leg with settings := KV.put y.leg.settings ⟨idx, sub, sel⟩ v } }

/-! ### The moraine (23.2) -/

/-- Record an event: source, code of Table 23.4 and detail bytes (R612, R614). While the tray controller restarts, a
die keeps up to 256 reports (R611) (log 272, DEDUCED). -/
def State.log (s : State) (source code : Nat) (detail : List Byte) : State :=
  let t := if source < 8 then s.stampTime ⟨source % 8, Nat.mod_lt _ (by decide)⟩ else s.trayTime
  let r : Report := ⟨s.accNow, source, code, t, detail, 0⟩
  if s.tray.fw.restarting ∧ 256 ≤ (s.tray.mor.reports.filter fun q => q.source == source).length then
    s.modTray fun y => { y with fw := { y.fw with lostReports := y.fw.lostReports + 1 } }
  else s.modTray fun y => { y with mor := { y.mor with reports := y.mor.reports ++ [r] } }

/-- An event of die `d` (log 273, DESIGN CHOICE). -/
def State.logDie (s : State) (d : DieId) (code : Nat) (detail : List Byte) : State := s.log d.val code detail

/-- An event of the tray (log 273, DESIGN CHOICE). -/
def State.logTray (s : State) (code : Nat) (detail : List Byte) : State := s.log 0xF code detail

/-! ### Host memory, notices and MSI-X (17.5, 17.6) -/

/-- Whether function `f` may issue requests (R446); a PF in D3hot issues none (log 73, DEDUCED). -/
def State.canSend (s : State) (f : Fn) : Bool :=
  match f with
  | .pf p => (s.pf (portIx p)).bme && !(s.pf (portIx p)).d3hot
  | .vf p n => match KV.get? s.vfs (p, n) with
    | some v => v.bme
    | none => false

/-- Hold an operation of a function back until Bus Master Enable is set (R446) (log 223, DEDUCED). -/
def State.holdOp (s : State) (f : Fn) (o : HostOp) : State :=
  match f with
  | .pf p => s.modPf (portIx p) fun x => { x with held := x.held ++ [o] }
  | .vf p n => s.modVf p n fun x => { x with held := x.held ++ [o] }

/-- Whether a function is in reset or does not exist: nothing is written for it (R444, R464). -/
def State.silent (s : State) (f : Fn) : Bool :=
  match f with
  | .pf _ => false
  | .vf p n => match KV.get? s.vfs (p, n) with
    | some v => v.inReset
    | none => true

/-- Write host memory for function `f` (R442, R446, R464). -/
def State.hostWrite (s : State) (f : Fn) (addr : Nat) (bytes : List Byte) : State :=
  if s.silent f then s
  else if s.canSend f then s.emit (.hostWrite f addr bytes)
  else s.holdOp f (.write addr bytes)

/-- Change one MSI-X vector of a function. -/
def State.modVec (s : State) (f : Fn) (v : Nat) (g : MsixVec → MsixVec) : State :=
  match f with
  | .pf p => s.modPf (portIx p) fun x => { x with vecs := x.vecs.modify v g }
  | .vf p n => s.modVf p n fun x => { x with vecs := x.vecs.modify v g }

/-- One MSI-X vector of a function. -/
def State.vec (s : State) (f : Fn) (v : Nat) : MsixVec :=
  match f with
  | .pf p => (s.pf (portIx p)).vecs.getD v {}
  | .vf p n => match KV.get? s.vfs (p, n) with
    | some x => x.vecs.getD v {}
    | none => {}

/-- Send a vector's message now and start its holdoff (R456). -/
def State.sendVec (s : State) (f : Fn) (v : Nat) : State :=
  let h := (s.vec f v).holdoff
  (s.emit (.msix f v)).modVec f v fun x =>
    { x with pend := false, merged := false, until_ := if h = 0 then none else some (s.tray.now + 1000 * h) }

/-- A cause of vector v (R456): held back by the mask, by a running holdoff or by Bus Master Enable, else sent. -/
def State.msix (s : State) (f : Fn) (v : Nat) : State :=
  if s.silent f then s
  else if !s.canSend f then s.holdOp f (.msix v)
  else
    let x := s.vec f v
    if x.masked then s.modVec f v fun x => { x with pend := true }
    else if (match x.until_ with | some u => decide (s.tray.now < u) | none => false) then
      s.modVec f v fun x => { x with merged := true }
    else s.sendVec f v

/-- The notice ring of a function. -/
def State.ring (s : State) (f : Fn) : Ring32 :=
  match f with
  | .pf p => (s.pf (portIx p)).ring
  | .vf p n => match KV.get? s.vfs (p, n) with
    | some x => x.ring
    | none => {}

/-- Change the notice ring of a function. -/
def State.modRing (s : State) (f : Fn) (g : Ring32 → Ring32) : State :=
  match f with
  | .pf p => s.modPf (portIx p) fun x => { x with ring := g x.ring }
  | .vf p n => s.modVf p n fun x => { x with ring := g x.ring }

/-- A notice's 28 bytes after its sequence (Table 17.5). -/
def noticeBody (src code die sysTime detail : Nat) : List Byte :=
  [BitVec.ofNat 8 src, BitVec.ofNat 8 code, BitVec.ofNat 8 die, 0#8] ++ leBytes 8 sysTime ++ leBytes 8 detail ++
    List.replicate 8 0#8

/-- Write a notice into the ring, or drop it (R452): a dropped notice consumes its sequence. -/
def State.writeNotice (s : State) (f : Fn) (body : List Byte) : State :=
  let r := s.ring f
  let bytes := leBytes 4 r.seq ++ body
  let s1 := s.modRing f fun r => { r with seq := (r.seq + 1) % 2 ^ 32 }
  if r.size = 0 ∨ (r.tail + 2 ^ 32 - r.head) % 2 ^ 32 = r.size then
    match f with
    | .pf _ => s1
    | .vf p n => s1.modVf p n fun x => { x with funcError := x.funcError ||| 0x40#8, overflow := true }
  else
    ((s1.emit (.hostWrite f (r.base + 32 * (r.tail % r.size)) bytes)).modRing f fun r =>
      { r with tail := (r.tail + 1) % 2 ^ 32 }).msix f (match f with | .pf _ => 1 | .vf _ _ => 0)

/-- Send a notice to a function; it waits while Bus Master Enable is clear (R446, R454). -/
def State.notice (s : State) (f : Fn) (src code die sysTime detail : Nat) : State :=
  let b := noticeBody src code die sysTime detail
  if s.silent f then s
  else if s.canSend f then s.writeNotice f b
  else s.holdOp f (.notice b)

/-- A notice to both physical functions. -/
def State.noticePfs (s : State) (src code die sysTime detail : Nat) : State :=
  (s.notice (.pf 0) src code die sysTime detail).notice (.pf 1) src code die sysTime detail

/-- The function that serves tenant t (R443). -/
def State.fnOf (s : State) (t : Nat) : Option Fn :=
  (s.vfs.find? fun p => p.2.tenant == some t).map fun p => .vf p.1.1 p.1.2

/-- Tenants with a context resident on die d, without repeats. -/
def State.residentTenants (s : State) (d : DieId) : List Nat :=
  ((s.die d).til.slots.filterMap fun o => o.map Prod.fst).eraseDups

/-- A notice to every tenant resident on die d and every PF (Table 17.6, R184). -/
def State.noticeDie (s : State) (d : DieId) (src code : Nat) : State :=
  let t := s.stampTime d
  let s1 := (s.residentTenants d).foldl (fun s x => match s.fnOf x with
    | some f => s.notice f src code d.val t 0
    | none => s) s
  s1.noticePfs src code d.val t 0

/-- A notice of source 0x03 to every VF and every PF (Table 17.6). -/
def State.noticeSupply (s : State) (code : Nat) : State :=
  let t := s.trayTime
  (s.vfs.foldl (fun s p => s.notice (.vf p.1.1 p.1.2) 3 code 0xF t 0) s).noticePfs 3 code 0xF t 0

/-- A heat event (R184, Table 07.6): notices and moraine entry 0x2300 + code (log 120, DEDUCED). -/
def State.heatEvent (s : State) (d : DieId) (code : Nat) : State :=
  (s.noticeDie d 1 code).logDie d (0x2300 + code) (leBytes 2 (ofInt 16 (((s.die d).heat.dieMax).getD (-32768))))

/-! ### Control records (12.10) -/

/-- Group number and die identity in force (R186). -/
def State.groupNo (s : State) (d : DieId) : Nat := (s.die d).mer.keptGroup.getD (s.dset d 0x2500 1)
def State.identity (s : State) (d : DieId) : Nat := (s.die d).mer.keptId.getD (s.dset d 0x2500 2)

/-- The shortest internal path of R343 from die i to die j: the lowest of P0 to P3 on a shortest path. -/
def internalNext (i port : Nat) : Nat :=
  if port = 0 then (i + 1) % 8 else if port = 1 then (i + 7) % 8 else if port = 2 then (i + 4) % 8 else i ^^^ 2

/-- R343's default route entry. -/
def defaultRoute (i id : Nat) : Nat :=
  if 8 ≤ id ∨ id = i then 0xFF
  else match (List.range 4).find? (fun p => internalNext i p == id) with
    | some p => p
    | none => ((List.range 4).find? fun p => (List.range 4).any fun q => internalNext (internalNext i p) q == id).getD 0xFF

/-- The control route table's entry for an identity (R342, R343). -/
def State.route (s : State) (d : DieId) (id : Nat) : Nat :=
  match KV.get? s.tray.leg.settings ⟨0x3000, 0x20, d.val⟩ with
  | some v => (v >>> (8 * id)) % 256
  | none => defaultRoute d.val id

/-- A port carries records while it is up, degraded or low; while it retrains they wait (R341, 12.11) (log 172, DEDUCED). -/
def PortState.carries : PortState → Bool
  | .up | .degraded | .low => true
  | _ => false

/-- Class of a record type (Table 12.11); types not listed have none. -/
def recordClass (ty : Nat) : Option Nat :=
  if 0x01 ≤ ty ∧ ty ≤ 0x05 then some 0
  else if ty = 0x08 ∨ ty = 0x09 ∨ (0x10 ≤ ty ∧ ty ≤ 0x14) then some 1
  else if (0x18 ≤ ty ∧ ty ≤ 0x1B) ∨ (0x20 ≤ ty ∧ ty ≤ 0x25) then some 2
  else if 0x28 ≤ ty ∧ ty ≤ 0x2A then some 3
  else none

/-- A control record: header of Table 12.10 and body. -/
def recordBytes (ty group dest src flags hops : Nat) (body : List Byte) : List Byte :=
  [BitVec.ofNat 8 ty, BitVec.ofNat 8 (12 + body.length)] ++ leBytes 2 group ++ leBytes 2 dest ++ leBytes 2 src ++
    [BitVec.ofNat 8 flags, BitVec.ofNat 8 hops, 0#8, 0#8] ++ body

/-- Change a port of a die. -/
def State.modPort (s : State) (d : DieId) (p : Nat) (f : Port → Port) : State :=
  s.modDie d fun x => { x with fab := { x.fab with ports := x.fab.ports.modify p f } }

/-- A port of a die. -/
def State.port (s : State) (d : DieId) (p : Nat) : Port := (s.die d).fab.ports.getD p {}

/-- Count a discarded control record (R340, R342). -/
def State.ctrlDiscard (s : State) (d : DieId) : State :=
  s.modDie d fun x => { x with fab := { x.fab with ctrlDiscards := satAdd 32 x.fab.ctrlDiscards 1 } }

/-- A flit (Table 12.9): type, last flag, NAK flag, link sequence, acknowledgement, label, tenant, flow sequence and
payload, closed by its CRC-32 (R322) (log 170, DESIGN CHOICE). -/
def flitBytes (ty : Nat) (last nak : Bool) (seq ack label tenant fseq : Nat) (payload : List Byte) : List Byte :=
  let b := [BitVec.ofNat 8 (ty + 16 * b2n last + 32 + 64 * b2n nak)] ++ leBytes 3 (seq % 4096 + 4096 * (ack % 4096)) ++
    leBytes 2 label ++ leBytes 2 tenant ++ leBytes 3 fseq ++ [BitVec.ofNat 8 payload.length] ++ payload ++
    List.replicate (240 - payload.length) 0#8
  b ++ leBytes 4 (crc32 b)

/-- Send a new flit on a port: it takes the next link sequence and stays in the replay buffer (R323). -/
def State.sendFlit (s : State) (d : DieId) (p ty : Nat) (last : Bool) (label tenant fseq : Nat) (payload : List Byte) :
    State :=
  let x := s.port d p
  let b := flitBytes ty last false x.txSeq x.rxSeq label tenant fseq payload
  (s.emit (.flit d p b)).modPort d p fun x =>
    { x with txSeq := (x.txSeq + 1) % 4096, replay := x.replay ++ [(x.txSeq, b, s.tray.now)] }

/-- Put a record on a port: sent now as a control flit; kept while the port retrains or its replay buffer is full (R323,
R341); discarded and counted when the port is not up (R342). -/
def State.putRecord (s : State) (d : DieId) (p : Nat) (bytes : List Byte) : State :=
  let x := s.port d p
  if x.state = .retrain ∨ (x.state.carries ∧ 256 ≤ x.replay.length) then
    s.modPort d p fun x => { x with out := x.out ++ [bytes] }
  else if x.state.carries then s.sendFlit d p 2 false 0 0 0 bytes
  else s.ctrlDiscard d

/-- The waiting records of a port in class order, arrival order within a class (R341). -/
def inClassOrder (rs : List (List Byte)) : List (List Byte) :=
  ((List.range 5).map fun c => rs.filter fun r => (recordClass (r.getD 0 0#8).toNat).getD 4 == c).flatten

/-- Send the records that wait on a port, as far as its replay buffer has room (log 170, DESIGN CHOICE). -/
def State.drainRecords (s : State) (d : DieId) (p : Nat) : State :=
  let x := s.port d p
  if x.state.carries then
    (inClassOrder x.out).foldl (fun s r => s.putRecord d p r) (s.modPort d p fun x => { x with out := [] })
  else s

/-- Send a record with an original sender `src` to a die identity of die d's group (R342). -/
def State.sendFor (s : State) (d : DieId) (ty dest src : Nat) (body : List Byte) : State :=
  let p := s.route d dest
  if p = 0xFF then s.ctrlDiscard d else s.putRecord d p (recordBytes ty (s.groupNo d) dest src 0 64 body)

/-- Send a record of die d's own. -/
def State.sendRecord (s : State) (d : DieId) (ty dest : Nat) (body : List Byte) : State :=
  s.sendFor d ty dest (s.identity d) body

/-- Send a record one hop on a port (log 172, DEDUCED). -/
def State.sendHop (s : State) (d : DieId) (p ty : Nat) (body : List Byte) : State :=
  s.putRecord d p (recordBytes ty (s.groupNo d) 0 (s.identity d) 2 64 body)

/-- A record as the copies of a flood are compared: without its hops remaining (R342). -/
def seenKey (b : List Byte) : List Byte := b.take 9 ++ [0#8] ++ b.drop 10

/-- Flood a record from die d on every port that carries records (R342). -/
def State.flood (s : State) (d : DieId) (ty : Nat) (body : List Byte) : State :=
  let b := recordBytes ty (s.groupNo d) 0xFFFF (s.identity d) 1 64 body
  let s1 := (List.range 16).foldl (fun s p =>
    let st := (s.port d p).state
    if st = .up ∨ st = .degraded then s.putRecord d p b else s) s
  s1.modDie d fun x => { x with fab := { x.fab with seen := (seenKey b, s.tray.now) :: x.fab.seen } }

/-! ### Voltages (04.3) -/

/-- Frequency of a step in units of 100 MHz (R36). -/
def stepN (st : Nat) : Nat := 20 - st

/-- Margin M of R72 in 0.25 mV. -/
def marginOf (wide : Bool) : Nat := if wide then 300 else 60

/-- The VCORE target of R72, in 0.25 mV, at a step, a margin, a trim and a lead, within the 0.50 to 0.95 V of R65. -/
def vcoreTarget (d : DieId) (st : Nat) (wide : Bool) (trim lead : Nat) : Nat :=
  let base := Config.vmin d st + marginOf wide + trim
  max 2000 (min 3800 (ceilDiv (base + (if wide then 0 else min lead 120)) 4 * 4))

/-- The ceiling step of R73, at a margin and a trim; R84 may set a later one (log 101, DEDUCED). -/
def ceilingStep (d : DieId) (wide : Bool) (trim aged : Nat) : Nat :=
  max aged (((List.range 16).find? fun st => decide (Config.vmin d st + marginOf wide + trim ≤ 3800)).getD 15)

/-- The ceiling step of die d in the margin in force (0x2100:0A); with both loops failed it is F15 (R47). -/
def State.ceiling (s : State) (d : DieId) : Nat :=
  let x := s.die d
  if x.clk.loopA.failed ∧ x.clk.loopB.failed then 15 else ceilingStep d x.op.wide x.op.trim x.op.agedCeiling

/-- The lead in force: 30 mV while a detector is masked in lean margin (R137), 0 in wide margin (R97). -/
def Die.leadNow (x : Die) : Nat :=
  if x.op.wide then 0 else if x.droop.masked ≠ 0#64 then 120 else x.op.lead

/-- A wide write that waits for its voltage already forms the target at a step within the wide ceiling (R78). -/
def Die.wideAt (x : Die) (d : DieId) (st : Nat) : Bool :=
  x.op.wide || (x.op.wideWaits && decide (ceilingStep d true x.op.trim x.op.agedCeiling ≤ st))

/-- The step that the restrictions on a die let it run when its group applies step g: none above its ceiling (R636), F15 from
an AVSBus fault until a warm reset (R71, R637) and from an alert until its release (R88). -/
def State.permitted (s : State) (d : DieId) (g : Nat) : Nat :=
  let x := s.die d
  if x.rails.avsFault ∨ x.op.awaitRelease then 15 else max g (s.ceiling d)

/-- The target of die d at step st (R72): 0.95 V above its ceiling step (R636), the wide F15 target from an AVSBus fault on (R71). -/
def State.targetAt (s : State) (d : DieId) (st : Nat) : Nat :=
  let x := s.die d
  if x.rails.avsFault then vcoreTarget d 15 true x.op.trim 0
  else if st < s.ceiling d then 3800 else vcoreTarget d st (x.wideAt d st) x.op.trim x.leadNow

/-- The settle time of a write from v to w, in 0.25 mV (R74, R88): at most 8 µs for a raise (log 103, DEDUCED). -/
def settleNs (v w : Nat) : Ns :=
  if v < w then min 8000 (ceilDiv (w - v) 40 * 1000 + 2000)
  else if w < v then ceilDiv (v - w) 40 * 1000 + 2000
  else 0

/-- Start the sequencer towards a target (R74, R77): one write of at most 60 mV when it rises. A write under way is merged with
the new target, so at most one transaction runs and none waits for its turn (log 105, DEDUCED). It starts none while
an alert suspends voltage writes (R85), while the governor does not own AVSBus (R70), or with VCORE off. -/
def State.moveVcore (s : State) (d : DieId) (goal : Nat) : State :=
  s.modDie d fun x =>
    if !x.rails.vcore ∨ !x.rails.avsGov ∨ x.rails.avsFault ∨ x.op.hold then x
    else if x.rails.avsGoal = goal ∧ x.rails.avsWrite.isSome then x
    else if x.rails.vcoreSet = goal ∧ x.rails.avsWrite = none then
      { x with rails := { x.rails with avsGoal := goal, target := goal, vReady := true }, op := { x.op with trimWas := x.op.trim } }
    else
      let nxt := if x.rails.vcoreSet + 240 < goal then x.rails.vcoreSet + 240 else goal
      { x with rails := { x.rails with avsGoal := goal, target := goal, vReady := false, avsWrite := some (nxt, false), writeAt := s.tray.now } }

/-- The step for which VCORE is set: that of a raise that is learnt, that waits, or that follows the release of an emergency,
else the current one (R74, R75, R77, R196). -/
def State.voltStep (s : State) (d : DieId) : Nat :=
  let x := s.die d
  let c := x.clk
  let g := match c.nextStep with
    | some g => s.permitted d g
    | none => if x.mer.releasedAt.isSome then s.permitted d x.mer.groupStep else c.curStep
  let w := if c.raiseWaits then (if c.active = .a then c.loopB.step else c.loopA.step) else c.curStep
  min c.curStep (min g w)

/-- The reference of the droop detectors, 0.25 mV (R134, R147): Vmin(step) + M + T without lead, and, while the sequencer moves
VCORE, the lesser of that before the move and that after it. -/
def State.reference (s : State) (d : DieId) : Nat :=
  let x := s.die d
  let at_ (st : Nat) (wide : Bool) (trim : Nat) : Nat := Config.vmin d st + marginOf wide + trim
  let g := s.voltStep d
  let cur := x.clk.curStep
  if x.rails.avsWrite.isSome then min (at_ cur x.op.wide x.op.trimWas) (at_ g (x.wideAt d g) x.op.trim)
  else at_ cur x.op.wide x.op.trim

/-- The trip level of every detector (R134, R135). -/
def State.tripLevel (s : State) (d : DieId) : Nat := s.reference d - 4 * s.dset d 0x2200 1

/-- Re-form the target after a change of margin, trim or lead, merged with a raise that is pending (R72, R77). -/
def State.retarget (s : State) (d : DieId) : State := s.moveVcore d (s.targetAt d (s.voltStep d))

/-- Compute is clocked: VCORE is on, and neither R39 nor R87 has halted the die. -/
def Die.computes (x : Die) : Bool := x.rails.vcore && !x.clk.refsLostHalt && !x.op.alertHalt

/-- A running benchmark is spoilt (R218): an emergency, a throttle, an ageing measurement, a step or margin change. -/
def Die.spoil (x : Die) : Die :=
  { x with nrg := { x.nrg with bench := x.nrg.bench.map fun b => { b with spoilt := true } } }

/-- The stored set of coefficients becomes the working one (R223). -/
def Energy.save (n : Energy) : Energy := if n.coeff.isEmpty then n else { n with stored := some n.coeff }

/-! ### Proposals (08.3, 08.4) -/

/-- Body of a PROPOSAL (Table 12.13). -/
def proposalBody (code epoch : Nat) (urgent revised : Bool) (heard : Nat) : List Byte :=
  [BitVec.ofNat 8 code, BitVec.ofNat 8 (b2n urgent + 2 * b2n revised), 0#8, 0#8] ++ leBytes 8 epoch ++ leBytes 4 heard

/-- The identity of the aggregator of die `id`'s level-k block among the known members (R187). -/
def aggregator (members : List Member) (id k : Nat) : Nat :=
  ((members.map Member.id).filter fun i => i / 16 ^ k == id / 16 ^ k).foldl min id

/-- The first aggregator on the way up that is not the die itself; itself when it is the root (R187). -/
def nextUp (members : List Member) (id : Nat) : Nat :=
  ((List.range 4).map fun k => aggregator members id (k + 1)).find? (fun a => a != id) |>.getD id

/-- The lowest tree level from k on whose aggregator is another die; none at the root (R187). -/
def upLevel (members : List Member) (id k : Nat) : Option Nat :=
  [1, 2, 3, 4].find? fun l => decide (k ≤ l) && aggregator members id l != id

/-- The members whose roles follow from their identities (R187): all but a failed root, for which the standby root took over
(R194). -/
def Meridian.tree (m : Meridian) : List Member := m.members.filter fun e => some e.id != m.failedRoot

/-- Send a meridian record upward, to the aggregator of level k or the next one above (R187, R188). The root sends
none. -/
def State.sendUp (s : State) (d : DieId) (k ty src : Nat) (body : List Byte) : State :=
  let m := (s.die d).mer
  let id := s.identity d
  match upLevel m.tree id k with
  | none => s
  | some l => (s.sendFor d ty (aggregator m.tree id l) src body).modDie d fun x => { x with mer := { x.mer with
      unacked := x.mer.unacked ++ [⟨x.mer.recNo, l, s.tray.now, ty, src, body⟩], recNo := x.mer.recNo + 1 } }

/-- Take a step code into the records of the root or aggregator die d (R190): the highest code, ignoring 0x10. -/
def Meridian.hear (m : Meridian) (id code : Nat) : Meridian :=
  let up (o : Option Nat) : Option Nat :=
    if code = 0x10 then o else match o with | some c => some (max c code) | none => some code
  { m with
    blockMax := up m.blockMax
    heard := if m.heard.contains id then m.heard else id :: m.heard
    members := m.members.map fun e => if e.id = id then
      { e with code := match e.code with
          | none => some code
          | some c => some (if c = 0x10 then code else if code = 0x10 then c else max c code) } else e }

/-- The zero-weight duty of a weight ring in force: its table entry and the mean change of the reference rings' duties since
calibration (R351). -/
def Bank.zeroDuty (k : Bank) (r : Nat) : Int := k.d0.getD r 0 + k.refSum / 4

/-- The command duty of a weight ring (R350): d0 + G g(w), rounded to the nearest integer; at zero weight it is d0 (R365). -/
def Bank.commandDuty (k : Bank) (d : DieId) (b r : Nat) : Int :=
  let w : Int := (k.weights.getD (r / 36) []).getD (r % 36) 0
  if w = 0 then k.zeroDuty r
  else k.zeroDuty r + (2 * (k.gain.getD r 0) * (Config.weightCurve d b (w + 128).toNat).toInt + 16384) / 32768

/-- A crosstalk coefficient of a bank: the fused one and its refinements, each at most 2^-12, all within 2^-8 (R307, R350). Their
size is free (log 3, DESIGN CHOICE). -/
def Bank.coeff (k : Bank) (d : DieId) (b r slot : Nat) : Int :=
  (Config.scoutCoeff d b r slot).toInt + k.refines.foldr (fun f x =>
    clampI (-64) 64 (x + ((Config.freeWord (f + 8 * r + slot)).toNat % 9 : Nat) - 4)) 0

/-- The applied duty of a weight ring (R304, R350). -/
def Bank.appliedDuty (k : Bank) (d : DieId) (b r : Nat) : Nat :=
  let sum := (List.range 8).foldl (fun x i =>
    x + k.coeff d b r i * k.commandDuty d b (Config.scoutNeighbour d b r i).toNat) 0
  (clampI 0 16383 (k.commandDuty d b r + (2 * sum + 16384) / 32768)).toNat

/-- How far a bank's tap lies below its nominal power, 0.01 dB, never less than 0 (R357). -/
def Bank.loss (k : Bank) (d : DieId) (b : Nat) : Nat := ((Config.tapNominal d b).toInt - k.tap).toNat

/-- The derating D in 0.01 bits (R357): 0.1 Δ + 0.3 (T - 25 °C) / 80 °C, rounded down (log 183, DESIGN CHOICE). -/
def Bank.derating (k : Bank) (d : DieId) (b : Nat) : Nat :=
  k.loss d b / 10 + 30 * (k.tapT - 400).toNat / 1280

/-! ### The addresses of the field ports (R407) -/

/-- The low 64 bits of a port's address and its MAC address (R407). -/
def State.portMac (s : State) (p : Bool) : List Byte :=
  [0x02#8, 0x4B#8, 0x38#8, 0#8, BitVec.ofNat 8 s.tray.pow.slotLatched, BitVec.ofNat 8 (b2n p)]

/-- The link-local address of a field port, fe80::4b:38ff:fe00:ss0p (R407). -/
def State.portAddr (s : State) (p : Bool) : Nat :=
  0xFE800000000000000000000000000000 + 0x004B38FFFE000000 + 256 * s.tray.pow.slotLatched + b2n p

/-- Sum of the 16-bit big-endian words. -/
def wordSum : List Byte → Nat
  | a :: b :: r => 256 * a.toNat + b.toNat + wordSum r
  | [a] => 256 * a.toNat
  | [] => 0

/-- The Internet checksum of a sum of words. -/
def onesSum (n : Nat) : Nat :=
  let fold (x : Nat) : Nat := x % 65536 + x / 65536
  65535 - fold (fold (fold n))

/-- An ICMPv6 message with its checksum over the pseudo-header (log 71, PRESUMED). -/
def icmp (src dst ty : Nat) (body : List Byte) : List Byte :=
  let msg (c : Nat) : List Byte := [BitVec.ofNat 8 ty, 0#8] ++ beBytes 2 c ++ body
  let pseudo := beBytes 16 src ++ beBytes 16 dst ++ beBytes 4 (4 + body.length) ++ beBytes 4 58
  msg (onesSum (wordSum pseudo + wordSum (msg 0)))

/-- Duplicate address detection on a field port (R407): a solicitation for the port's own address from no address, to its
solicited-node address (log 71, PRESUMED). -/
def State.dadPort (s : State) (p : Bool) : State :=
  let a := s.portAddr p
  let dst := 0xFF0200000000000000000001FF000000 + a % 2 ^ 24
  s.emit (.field p 0 dst (icmp 0 dst 135 (beBytes 4 0 ++ beBytes 16 a)))

end Sys2Proof.Machine
end

