-- ==== Sys2Proof/Machine/Gate.lean ====
section
/-! DEFINITION. The write gate (14.6, 14.7), the checks of an access (R376, R380 to R382, R425), responses and
acknowledgements (R383, R400 to R404, R410, R412). -/

namespace Sys2Proof.Machine
open Sys2Proof

/-! ### Response codes (Table 15.6) -/

def rcOk : Nat := 0x0000
def rcSegmentOk : Nat := 0x0001
def rcMalformed : Nat := 0x0010
def rcUnknownService : Nat := 0x0011
def rcWrongService : Nat := 0x0012
def rcNoSuchItem : Nat := 0x0013
def rcNotReadable : Nat := 0x0014
def rcNotWritable : Nat := 0x0015
def rcOutOfRange : Nat := 0x0016
def rcUseBlock : Nat := 0x0017
def rcSegmentOrder : Nat := 0x0018
def rcSnapshotLost : Nat := 0x0019
def rcTooManySubs : Nat := 0x001A
def rcMalformedValue : Nat := 0x001B
def rcLevelRequired : Nat := 0x0020
def rcUnlockFailed : Nat := 0x0021
def rcLockedOut : Nat := 0x0022
def rcConflict : Nat := 0x0030
def rcBusy : Nat := 0x0031
def rcGated : Nat := 0x0032
def rcDieUnavailable : Nat := 0x0033
def rcStoreFailed : Nat := 0x0034
def rcSealedConflict : Nat := 0x0035

/-! ### Responses -/

/-- A response frame without tag (Table 15.2, R410). -/
def lapFrame (tagged : Bool) (m : MasterId) (service seq : Nat) (k : ObjKey) (body : List Byte) : List Byte :=
  [0x01#8, BitVec.ofNat 8 (1 + 2 * b2n tagged), BitVec.ofNat 8 m.val, BitVec.ofNat 8 service] ++ leBytes 4 seq ++
    [BitVec.ofNat 8 k.sel, BitVec.ofNat 8 k.sub] ++ leBytes 2 k.idx ++ leBytes 2 body.length ++ [0#8, 0#8] ++ body

/-- Send the response of request `seq` to master m: on its field port to the station `dst` (R408), or into the response buffer of the mailbox owner
while its request of that sequence is in progress (R458). -/
def State.lapSend (s : State) (m : MasterId) (seq : Nat) (dst : Option Peer) (frame : List Byte) : State :=
  if m = 3 then
    match s.tray.mbox with
    | none => s
    | some p =>
      if !(s.pf p).mboxBusy ∨ (s.pf p).mboxSeq ≠ seq then s
      else ((s.emit (.lap m dst frame)).modPf p fun x =>
        { x with respBuf := frame, respLen := frame.length, mboxBusy := false, mboxReady := true }).msix (.pf p.val) 0
  else s.emit (.lap m dst frame)

/-- The station whose request `seq` waits for its response (R408). -/
def State.peerOf (s : State) (m : MasterId) (seq : Nat) : Option Peer :=
  ((s.master m).peers.find? fun p => p.1 == seq).map Prod.snd

/-- Keep a response for duplicates (R412); its request waits no more. -/
def State.keepResponse (s : State) (m : MasterId) (seq : Nat) (frame : List Byte) : State :=
  s.modMaster m fun x => { x with
    responses := ((seq, frame) :: x.responses.filter fun r => r.1 != seq).take 64
    peers := x.peers.eraseP fun p => p.1 == seq }

/-- A frame of the tray with the tag of the master's session (R424). -/
def State.tagIt (s : State) (m : MasterId) (frame : Bool → List Byte) : List Byte :=
  match (s.master m).session with
  | some e => frame true ++ lapTag e.ktag (frame true)
  | none => frame false

/-- Answer a request, with the tag of the master's session (R424), and keep the response (R412). -/
def State.respond (s : State) (m : MasterId) (service seq : Nat) (k : ObjKey) (status detail : Nat) (extra : List Byte) :
    State :=
  let body := leBytes 2 status ++ leBytes 2 detail ++ (if status = rcOk then extra else [])
  let frame := s.tagIt m fun tagged => lapFrame tagged m service seq k body
  (s.lapSend m seq (s.peerOf m seq) frame).keepResponse m seq frame

/-- Answer the request a gate write came by, when it came by one (R402, R403, R414). -/
def State.answer (s : State) (m : MasterId) (w : GateWrite) (status detail epoch : Nat) : State :=
  match w.req with
  | none => s
  | some (seq, service) => s.respond m service seq w.key status detail (if service = 5 then [] else leBytes 8 epoch)

/-! ### Checks -/

/-- Master m acts at the Expert level (Table 14.4). -/
def State.isExpert (s : State) (m : MasterId) : Bool := m = 0 || (s.master m).session.isSome

/-- The object an access names (R376). -/
def objOf (k : ObjKey) : Option Obj :=
  if (0x1000 ≤ k.idx ∧ k.idx ≤ 0x1FFF ∧ k.sel = 0xF) ∨ (0x2000 ≤ k.idx ∧ k.idx ≤ 0x7FFF ∧ k.sel < 8) then
    findObj k.idx k.sub else none

/-- The die of a per-die access. -/
def dieOf (sel : Nat) : DieId := ⟨sel % 8, Nat.mod_lt _ (by decide)⟩

/-- The enable bit of the block that serves an object (Table 03.8). -/
def gateBit (idx sub : Nat) : Option Nat :=
  if idx = 0x2300 ∧ (sub = 6 ∨ sub = 7 ∨ sub = 0xE) then some 0
  else if idx = 0x2700 ∧ (sub = 1 ∨ sub = 2 ∨ sub = 3 ∨ sub = 5) then some 1
  else if idx = 0x2200 ∧ ((5 ≤ sub ∧ sub ≤ 0xC) ∨ (0xE ≤ sub ∧ sub ≤ 0x10)) then some 2
  else if idx = 0x2600 ∧ 6 ≤ sub ∧ sub ≤ 0xD then some 3
  else if idx = 0x2700 ∧ (sub = 0x15 ∨ sub = 0x16 ∨ (0x18 ≤ sub ∧ sub ≤ 0x1C)) then some 4
  else if idx = 0x3000 ∧ (sub = 0xA ∨ sub = 0xC ∨ sub = 0xD) then some 5
  else none

/-- The tray controller serves the object (R434). -/
def trayServed (idx sub : Nat) : Bool :=
  decide (idx < 0x2000) || (idx == 0x2600 && (decide (1 ≤ sub ∧ sub ≤ 4) || decide (0x10 ≤ sub ∧ sub ≤ 0x13))) ||
    (idx == 0x6000 && (sub == 6 || sub == 7 || sub == 0xD)) || (idx == 0x7000 && sub == 4)

/-- The die's VIO domain serves the object (R434). -/
def vioServed (idx : Nat) : Bool := idx == 0x2300 || idx == 0x2700

/-- Availability of R382, R434, R516: GATED before DIE_UNAVAILABLE (R425). A write of a persistent object is stored
whatever the die's state; the resets of R435 are decided by their own rule. -/
def State.unavailable (s : State) (o : Obj) (sel : Nat) (write : Bool) : Option Nat :=
  if o.idx < 0x2000 then none
  else
    let x := s.die (dieOf sel)
    let gated := match gateBit o.idx o.sub with
      | some b => !x.clk.enables.getLsbD b
      | none => false
    if gated then some rcGated
    else if trayServed o.idx o.sub then none
    else if write && o.pers == .persistent then none
    else if o.idx = 0x6000 ∧ (o.sub = 0xA ∨ o.sub = 0xB) then none
    else if vioServed o.idx then (if x.rails.vio then none else some rcDieUnavailable)
    else if (!x.rails.vcore && !x.rails.vsram) || x.heat.latched || x.svc.state == .off || x.svc.state == .starting then
      some rcDieUnavailable
    else none

/-- The first byte at which a value sets a reserved bit or field (R7, R381). -/
def reservedAt (idx sub : Nat) (v : List Byte) : Option Nat :=
  if idx = 0x5000 ∧ sub = 5 then (List.range 4).find? fun i => 2 ≤ i && v.getD i 0#8 != 0#8
  else if idx = 0x2600 ∧ sub = 0x10 then (if 64 ≤ (v.getD 3 0#8).toNat then some 3 else none)
  else if idx = 0x2000 ∧ sub = 0x20 then (List.range v.length).find? fun i => i % 4 == 3 && v.getD i 0#8 != 0#8
  else if idx = 0x2700 ∧ sub = 0x0A then (List.range v.length).find? fun i => 5 ≤ i % 8 && v.getD i 0#8 != 0#8
  else none

/-- The fields of a BLOB lie in their ranges (R158, 10.4, R343, R436). -/
def blobOk (idx sub : Nat) (v : List Byte) : Bool :=
  if idx = 0x2300 ∧ sub = 8 then v.all fun b => decide (b.toNat < 16) || b == 0xFF#8
  else if idx = 0x2000 ∧ sub = 0x20 then (List.range 1024).all fun t =>
    decide ((v.getD (4 * t + 2) 0#8).toNat ≤ 16) &&
      (leNat ((v.drop (4 * t)).take 2) == 0 || (v.getD (4 * t + 2) 0#8) != 0#8)
  else if idx = 0x3000 ∧ sub = 0x20 then v.all fun b => decide (b.toNat < 16) || b == 0xFF#8
  else if idx = 0x2700 ∧ sub = 0x0A then (List.range 6).all fun i =>
    decide ((v.getD (8 * i) 0#8).toNat ≤ 1) && decide ((v.getD (8 * i + 3) 0#8).toNat ≤ 3) &&
      decide ((v.getD (8 * i + 4) 0#8).toNat ≤ 3)
  else if idx = 0x1000 ∧ sub = 0x10 then (List.range 1024).all fun i =>
    let e := leNat ((v.drop (2 * i)).take 2)
    decide (e < 1024) || e == 0xFFFF
  else true

/-- Valid UTF-8 (R377). -/
def utf8Ok : List Byte → Bool
  | [] => true
  | b :: bs =>
    let c (x : Byte) : Bool := x &&& 0xC0#8 == 0x80#8
    if b.toNat < 0x80 then utf8Ok bs
    else if 0xC2 ≤ b.toNat ∧ b.toNat ≤ 0xDF then
      match bs with
      | x :: r => c x && utf8Ok r
      | _ => false
    else if 0xE0 ≤ b.toNat ∧ b.toNat ≤ 0xEF then
      match bs with
      | x :: y :: r => c x && c y && (b != 0xE0#8 || decide (0xA0 ≤ x.toNat)) &&
          (b != 0xED#8 || decide (x.toNat < 0xA0)) && utf8Ok r
      | _ => false
    else if 0xF0 ≤ b.toNat ∧ b.toNat ≤ 0xF4 then
      match bs with
      | x :: y :: z :: r => c x && c y && c z && (b != 0xF0#8 || decide (0x90 ≤ x.toNat)) &&
          (b != 0xF4#8 || decide (x.toNat < 0x90)) && utf8Ok r
      | _ => false
    else false

/-- The value checks of R381: type, range, step, then reserved bits. -/
def valueCheck (o : Obj) (expert : Bool) (v : List Byte) : Option (Nat × Nat) :=
  let n := leNat v
  let bad : Option (Nat × Nat) :=
    match o.ty with
    | .num | .bool =>
      if v.length ≠ o.len then some (rcOutOfRange, 0)
      else if (reservedAt o.idx o.sub v).isSome then none
      else if n < o.lo ∨ o.hi < n then some (rcOutOfRange, 0)
      else if !expert ∧ (n < o.blo ∨ o.bhi < n) then some (rcOutOfRange, 1)
      else if o.step ≠ 0 ∧ n % o.step ≠ 0 then some (rcOutOfRange, 0)
      else none
    | .string => if 8 ≤ v.length ∧ v.length ≤ 64 ∧ utf8Ok v then none else some (rcOutOfRange, 0)
    | .blob => if v.length ≠ o.len ∨ !blobOk o.idx o.sub v then some (rcOutOfRange, 0) else none
  match bad with
  | some e => some e
  | none => (reservedAt o.idx o.sub v).map fun i => (rcMalformedValue, i)

/-- The checks of R381 on a write, in the order of R425. -/
def State.writeCheck (s : State) (m : MasterId) (k : ObjKey) (v : List Byte) : Option (Nat × Nat) :=
  match objOf k with
  | none => some (rcNoSuchItem, 0)
  | some o =>
    if o.access = .ro ∨ o.access = .stream then some (rcNotWritable, 0)
    else if o.expert ∧ !s.isExpert m ∧ !(o.idx = 0x1100 ∧ o.sub = 7 ∧ m = 3 ∧ s.tray.leg.unlockKey = none) then
      some (rcLevelRequired, 0)
    else match s.unavailable o k.sel true with
      | some c => some (c, 0)
      | none => valueCheck o (s.isExpert m) v

/-! ### The gate -/

/-- What the object's own rule does with a checked write. -/
inductive GateResult where
  /-- Refused by its defining chapter: code, detail and the state (a refused write may set a status). -/
  | refused (code detail : Nat) (s : State)
  /-- Applied or accepted: the state, the effective epoch to name (0 none), and whether the effect that the
  acknowledgement waits for is in force already. -/
  | done (s : State) (epoch : Nat) (effect : Bool)

/-- Limit-class objects (Table 14.6): whether the lower value is the more restrictive. -/
def limitClass (idx sub : Nat) : Option Bool :=
  if (idx = 0x1200 ∧ sub = 1) ∨ (idx = 0x2000 ∧ sub = 1) ∨ (idx = 0x2200 ∧ sub = 1) ∨
      (idx = 0x2300 ∧ (sub = 1 ∨ sub = 5)) then some true
  else if (idx = 0x2100 ∧ (sub = 1 ∨ sub = 0xD)) ∨ (idx = 0x2200 ∧ (sub = 2 ∨ sub = 3)) ∨ (idx = 0x2300 ∧ sub = 4) then
    some false
  else none

/-- `a` is at least as restrictive as `b` (Table 14.6). -/
def moreRestrictive (lower : Bool) (a b : Nat) : Bool := if lower then decide (a ≤ b) else decide (b ≤ a)

/-- Acknowledge now, or keep the acknowledgement until effect and commit are met (R383, R400 to R403). -/
def State.acknowledge (s : State) (m : MasterId) (w : GateWrite) (epoch : Nat) (effect : Bool) : State :=
  let commit := match objOf w.key with
    | some o => o.pers == .persistent && o.access != .cmd
    | none => false
  if effect && !commit then s.answer m w rcOk 0 epoch
  else s.modTray fun y => { y with leg := { y.leg with
    acks := y.leg.acks ++ [⟨m, w, epoch, effect, commit⟩] } }

/-- The object of a key keeps its value through a cold reset (R430). -/
def ObjKey.keeps (k : ObjKey) : Bool := match findObj k.idx k.sub with
  | some o => o.pers == .persistent
  | none => false

/-- Tray non-volatile memory takes the value that every persistent object will hold once the accepted writes have taken
effect (R383). -/
def Legend.persistNow (l : Legend) : Legend :=
  { l with nv := (l.raises.foldl (fun m r => KV.put m r.1 r.2.1) l.settings).filter fun p => p.1.keeps }

/-- Answer every accepted write whose effect and commit are both met (R383, R400). -/
def State.sweepAcks (s : State) : State :=
  let ready := s.tray.leg.acks.filter fun a => a.effect && !a.commit
  let s1 := s.modTray fun y => { y with leg := { y.leg with acks := y.leg.acks.filter fun a => !(a.effect && !a.commit) } }
  ready.foldl (fun s a => s.answer a.master a.write rcOk 0 a.epoch) s1

/-- A commit ends (R383): non-volatile memory takes the values that every accepted write gives, and the writes that waited
on a commit alone are answered. -/
def State.commitNow (s : State) : State :=
  (s.modTray fun y => { y with leg := { y.leg.persistNow with
    acks := y.leg.acks.map fun a => { a with commit := false } } }).sweepAcks

/-- The effect that accepted writes of an object with a value wait for is in force; their responses name an epoch. -/
def State.effectDone (s : State) (k : ObjKey) (v epoch : Nat) : State :=
  let mark (a : Waiting) : Waiting :=
    if a.write.key = k ∧ leNat a.write.value = v ∧ !a.effect then { a with effect := true, epoch := epoch } else a
  (s.modTray fun y => { y with leg := { y.leg with acks := y.leg.acks.map mark } }).sweepAcks

/-- The heads of the other masters' queues that name the same object: they meet in the same tick (R396). -/
def State.rivals (s : State) (m : MasterId) (k : ObjKey) : List (MasterId × GateWrite) :=
  (List.finRange 4).filterMap fun n =>
    if n = m then none else match (s.master n).queue with
      | w :: _ => if w.key = k then some (n, w) else none
      | [] => none

/-- Take a write out of the head of its master's queue. -/
def State.popGate (s : State) (m : MasterId) : State := s.modMaster m fun x => { x with queue := x.queue.drop 1 }

/-- Answer a write that lost the arbitration (R396). -/
def State.conflict (s : State) (m : MasterId) (w : GateWrite) : State :=
  (s.modTray fun y => { y with leg := { y.leg with conflicts := satAdd 32 y.leg.conflicts 1 } }).answer m w rcConflict 0 0

/-- Check, arbitrate and apply the writes that meet in one tick (R381, R396) (log 16, DESIGN CHOICE). -/
def State.gateTick (s : State) (ws : List (MasterId × GateWrite))
    (apply : State → MasterId → List Byte → GateResult) : State :=
  let checked := ws.map fun p => (p, s.writeCheck p.1 p.2.key p.2.value)
  let s1 := checked.foldl (fun s c => match c.2 with
    | some (code, det) => s.answer c.1.1 c.1.2 code det 0
    | none => s) s
  let valid := (checked.filter fun c => c.2.isNone).map Prod.fst
  let k := (ws.map fun p => p.2.key).headD ⟨0, 0, 0⟩
  let first := valid.foldl (fun (acc : Option (MasterId × GateWrite)) p => match acc with
    | none => some p
    | some q => match limitClass k.idx k.sub with
      | some lower =>
        if moreRestrictive lower (leNat q.2.value) (leNat p.2.value) then some q else some p
      | none => if q.1 ≤ p.1 then some q else some p) none
  match first with
  | none => s1
  | some win =>
    let shares (p : MasterId × GateWrite) : Bool :=
      p.1 == win.1 || ((limitClass k.idx k.sub).isSome && leNat p.2.value == leNat win.2.value)
    let s2 := (valid.filter fun p => !shares p).foldl (fun s p => s.conflict p.1 p.2) s1
    match apply s2 win.1 win.2.value with
    | .refused code det s3 => (valid.filter shares).foldl (fun s p => s.answer p.1 p.2 code det 0) s3
    | .done s3 ep eff => (valid.filter shares).foldl (fun s p => s.acknowledge p.1 p.2 ep eff) s3

/-- The gate is open: the tray controller's image runs and no firmware handoff holds the writes (R398, R611). -/
def State.gateOpen (s : State) : Bool := s.tray.fw.running && !s.tray.fw.restarting && !s.tray.fw.handoff

/-- Queue a write, or refuse it BUSY beyond 64 (R395). -/
def State.gateQueue (s : State) (m : MasterId) (w : GateWrite) : State :=
  if 64 ≤ (s.master m).queue.length then
    (s.modTray fun y => { y with leg := { y.leg with busyRefused := satAdd 32 y.leg.busyRefused 1 } }).answer m w rcBusy 0 0
  else s.modMaster m fun x => { x with queue := x.queue ++ [w] }

/-- The gate takes a write of master m (R395, R396). A write at the head of m's queue is taken from it; one that comes
while others wait joins the queue; a write that meets an empty queue is taken at once. The tick is the next one that
has taken none; the writes of the other masters' queue heads to the same object meet it there. While a firmware handoff
runs the write waits (R398); while no image runs it is lost (R611) (log 16, DESIGN CHOICE). -/
def State.gate (s : State) (m : MasterId) (k : ObjKey) (v : List Byte)
    (apply : State → MasterId → List Byte → GateResult) : State :=
  if !s.tray.fw.running || s.tray.fw.restarting then s
  else if s.tray.fw.handoff then s.gateQueue m ⟨k, v, none⟩
  else
    let hit := match (s.master m).queue with
      | [] => some ({ key := k, value := v } : GateWrite)
      | w :: _ => if w.key = k ∧ w.value = v then some w else none
    match hit with
    | none => s.gateQueue m ⟨k, v, none⟩
    | some w =>
      let tick := max (s.tray.now / 1000) (s.tray.leg.lastTick + 1)
      let s1 := (s.advanceTo (1000 * tick)).modTray fun y => { y with leg := { y.leg with lastTick := tick } }
      let rv := if k.idx = 0x2600 ∧ k.sub = 0x10 then [] else s1.rivals m k
      let s2 := rv.foldl (fun s p => s.popGate p.1) (s1.popGate m)
      s2.gateTick ((m, w) :: rv) apply

/-! ### Raises and lowerings (R400, R401) -/

/-- The pending raise of an object. -/
def State.pendingRaise (s : State) (k : ObjKey) : Option (Nat × Nat) :=
  (s.tray.leg.raises.find? fun r => r.1 == k).map Prod.snd

/-- `s` without the pending raise of an object (R401). -/
def State.cancelRaise (s : State) (k : ObjKey) : State :=
  s.modTray fun y => { y with leg := { y.leg with raises := y.leg.raises.filter fun r => r.1 != k } }

/-- `s` with a raise pending from an epoch (R401). -/
def State.setRaise (s : State) (k : ObjKey) (v epoch : Nat) : State :=
  (s.cancelRaise k).modTray fun y => { y with leg := { y.leg with raises := y.leg.raises ++ [(k, v, epoch)] } }

/-- A write of a limit-class object (R400, R401): a lowering applies `effect` now, an equal value only cancels a
pending raise, a raise waits for the next boundary of the die (or of the tray). A lowering in a holding pattern waits, with
epoch 0, until the new image takes over (05.9, R398). -/
def State.limitWrite (s : State) (k : ObjKey) (v : Nat) (effect : State → State) : GateResult :=
  let cur := s.setting k.idx k.sub k.sel
  let lower := (limitClass k.idx k.sub).getD true
  if v = cur then .done (s.cancelRaise k) 0 true
  else if moreRestrictive lower v cur ∧ 0x2000 ≤ k.idx ∧ (s.die (dieOf k.sel)).svc.holding.isSome then
    .done (s.setRaise k v 0) 0 false
  else if moreRestrictive lower v cur then
    .done (effect ((s.cancelRaise k).putSetting k.idx k.sub k.sel v)) 0 true
  else
    let d := if k.idx < 0x2000 then s.timeDie else dieOf k.sel
    .done (s.setRaise k v (s.epoch d + 1)) (s.epoch d + 1) true

/-- A plain setting that is in force when the gate applies it (R402). -/
def State.plainWrite (s : State) (k : ObjKey) (v : List Byte) : GateResult :=
  .done (s.putSetting k.idx k.sub k.sel (leNat v)) 0 true

end Sys2Proof.Machine
end

