-- ==== Sys2Proof/Machine/Sram.lean ====
section
/-! DEFINITION. SRAM of a die as a memory: reads, writes, poison, granule owners (11.2, 18.5). -/

namespace Sys2Proof.Machine
open Sys2Proof

/-- SRAM bytes of a die (R257): 128 slices of 8 MiB. -/
def sramSize : Nat := 2 ^ 30

/-- The byte at an address; an unlisted byte reads 0 (log 6, DESIGN CHOICE). -/
def Sram.read (m : List Host.Cell) (a : Nat) : Byte := ((m.find? fun c => c.1 == a).map Prod.snd).getD 0#8

/-- The n bytes from an address. -/
def Sram.readN (m : List Host.Cell) (a n : Nat) : List Byte :=
  let w := m.filter fun c => decide (a ≤ c.1 ∧ c.1 < a + n)
  (List.range n).map fun i => Sram.read w (a + i)

/-- The cells of a byte string placed at an address. -/
def Sram.cells : Nat → List Byte → List Host.Cell
  | _, [] => []
  | a, b :: bs => if b = 0#8 then Sram.cells (a + 1) bs else (a, b) :: Sram.cells (a + 1) bs

/-- Write bytes from an address on, keeping the canonical form. -/
def Sram.write (m : List Host.Cell) (a : Nat) (bs : List Byte) : List Host.Cell :=
  (m.filter fun c => decide (c.1 < a)) ++ Sram.cells a bs ++ m.filter fun c => decide (a + bs.length ≤ c.1)

/-- Zero n bytes from an address on. -/
def Sram.zero (m : List Host.Cell) (a n : Nat) : List Host.Cell :=
  m.filter fun c => !decide (a ≤ c.1 ∧ c.1 < a + n)

/-- The canonical form: addresses strictly rising, no entry equal to what an unlisted address reads as. -/
def Memory.wf : List Host.Cell → Bool
  | [] => true
  | [c] => c.2 != 0#8
  | c :: d :: m => c.2 != 0#8 && decide (c.1 < d.1) && Memory.wf (d :: m)

/-- Byte address of line LA of logical tile L (R257). -/
def lineAddr (tile la : Nat) : Nat := tile * 2 ^ 23 + la * 128

/-- Byte address of byte o of an SRAM object that begins at a die granule (R482). -/
def objAddr (first o : Nat) : Nat := (first + o / 65536) * 65536 + o % 65536

/-- Die granule of a byte address (R257). -/
def granuleOf (a : Nat) : Nat := a / 65536

/-- Owner of a granule. -/
def Tiles.owner (x : Tiles) (g : Nat) : Granule := KV.getD x.granules g x.granuleBase

/-- Set the owner of one granule; an entry equal to the base is removed. -/
def Tiles.setOwner (x : Tiles) (g : Nat) (o : Granule) : Tiles :=
  { x with granules := if o = x.granuleBase then KV.del x.granules g else KV.put x.granules g o }

/-- Set the owners of n granules from `first` on. -/
def Tiles.setOwners (x : Tiles) (first n : Nat) (o : Granule) : Tiles :=
  (List.range n).foldl (fun x i => x.setOwner (first + i) o) x

/-- `s` with the SRAM of die d changed by a write of bytes; a whole word written loses its poison (R262). -/
def State.sramWrite (s : State) (d : DieId) (a : Nat) (bs : List Byte) : State :=
  s.modDie d fun x => { x with til := { x.til with
    sram := Sram.write x.til.sram a bs,
    poison := x.til.poison.filter fun w => !(decide (a ≤ 8 * w) && decide (8 * w + 8 ≤ a + bs.length)) } }

/-- `s` with n bytes of die d's SRAM zeroed. -/
def State.sramZero (s : State) (d : DieId) (a n : Nat) : State :=
  s.modDie d fun x => { x with til := { x.til with
    sram := Sram.zero x.til.sram a n,
    poison := x.til.poison.filter fun w => !(decide (a ≤ 8 * w) && decide (8 * w + 8 ≤ a + n)) } }

/-- The n bytes from an address of die d. -/
def State.sramRead (s : State) (d : DieId) (a n : Nat) : List Byte := Sram.readN (s.die d).til.sram a n

/-- The poisoned words of a byte range. -/
def State.poisoned (s : State) (d : DieId) (a n : Nat) : List Nat :=
  (s.die d).til.poison.filter fun w => decide (a < 8 * w + 8) && decide (8 * w < a + n)

/-- Undefined bytes in a range: free values (R288). -/
def State.sramFree (s : State) (d : DieId) (a n : Nat) : State :=
  let (bs, s1) := s.freeBytes n
  s1.sramWrite d a bs

/-- All SRAM contents of a die are lost, and every granule waits for the zeroing of the next start (R487, R524). -/
def State.sramLost (s : State) (d : DieId) : State :=
  s.modDie d fun x => { x with til := { x.til with
    sram := [], poison := [], granules := [], granuleBase := .unready, scrub := [], scrubDone := [] } }

end Sys2Proof.Machine
end

