-- ==== Sys2Proof/Machine/Runs.lean ====
section
/-! DEFINITION. Queues, completion records, events, running plans and their flows: the operations that commands of
chapters 11, 12, 13, 18 and the faults of chapters 04 to 08 share. -/

namespace Sys2Proof.Machine
open Sys2Proof

/-! ### Commands and queues (18.2, 18.3) -/

/-- Byte i of a command. -/
def Cmd.byte (c : Cmd) (i : Nat) : Nat := (c.bytes.getD i 0#8).toNat

/-- The n-byte field at byte i of a command. -/
def Cmd.fld (c : Cmd) (i n : Nat) : Nat := leNat ((c.bytes.drop i).take n)

/-- The opcode (Table 18.4). -/
def Cmd.op (c : Cmd) : Nat := c.byte 0

/-! Statuses (Table 18.6). -/

def stOk : Nat := 0x00
def stNotRun : Nat := 0x01
def stMalformed : Nat := 0x02
def stNoSlot : Nat := 0x03
def stNoBudget : Nat := 0x04
def stNotResident : Nat := 0x05
def stAlreadyResident : Nat := 0x06
def stNoMemory : Nat := 0x07
def stBadBinding : Nat := 0x08
def stReadOnly : Nat := 0x09
def stWrongDie : Nat := 0x0A
def stObjectInUse : Nat := 0x0B
def stRange : Nat := 0x0C
def stHostFault : Nat := 0x0D
def stEvicted : Nat := 0x0E
def stPlanNotLoaded : Nat := 0x10
def stHalted : Nat := 0x11
def stSramUncorrectable : Nat := 0x12
def stFlowLost : Nat := 0x13
def stHoldExpired : Nat := 0x14
def stHeatHalt : Nat := 0x15
def stMeridianLost : Nat := 0x16
def stScoutUnavailable : Nat := 0x17
def stDieTripped : Nat := 0x18
def stDiePoweredOff : Nat := 0x19
def stHoldupRequired : Nat := 0x1A
def stWaitCycle : Nat := 0x20
def stWaitExpired : Nat := 0x21
def stEventErrored : Nat := 0x22
def stBadEvent : Nat := 0x23

/-- The column "Faults the queue" of Table 18.6. -/
def statusFaults (st : Nat) : Bool :=
  !(st = stOk || st = stNotRun || st = stHalted || st = stWaitCycle)

/-- A context. -/
def State.ctx? (s : State) (t h : Nat) : Option Ctx := KV.get? s.ctxs (t, h)

/-- A queue that exists. -/
def State.queue? (s : State) (t h q : Nat) : Option Queue := (s.ctx? t h).bind fun c => c.queues.getD q none

/-- `s` with a queue changed. -/
def State.modQueue (s : State) (t h q : Nat) (f : Queue → Queue) : State :=
  s.modCtx t h fun c => { c with queues := c.queues.modify q fun o => o.map f }

/-- The command at the head of a queue. -/
def State.headCmd (s : State) (t h q : Nat) : Option Cmd := (s.queue? t h q).bind fun x => x.cmds.head?

/-- `s` with the head command of a queue changed. -/
def State.modHead (s : State) (t h q : Nat) (f : Cmd → Cmd) : State :=
  s.modQueue t h q fun x => { x with cmds := match x.cmds with | [] => [] | c :: cs => f c :: cs }

/-- The VF that serves a tenant. -/
def State.vfOf (s : State) (t : Nat) : Option VF := (s.vfs.find? fun p => p.2.tenant == some t).map Prod.snd

/-- A completion record (Table 18.3). -/
def compRecord (idx status flags detail result : Nat) : List Byte :=
  leBytes 2 idx ++ [BitVec.ofNat 8 status, BitVec.ofNat 8 flags] ++ leBytes 2 detail ++ [0#8, 0#8] ++ leBytes 8 result

/-! ### Events (18.8) -/

/-- An event. -/
def State.event (s : State) (t e : Nat) : Event := KV.getD (s.tenant t).events e {}

/-- Change an event and write its mirror entry (R498). -/
def State.setEvent (s : State) (t e : Nat) (v : Event) : State :=
  let s1 := s.modTenant t fun x => { x with events := KV.put x.events e v }
  match s.fnOf t, s.vfOf t with
  | some f, some x =>
    if e < x.evSize then
      s1.hostWrite f (x.evBase + 16 * e) (leBytes 8 v.value ++ [BitVec.ofNat 8 (b2n v.errored)] ++ List.replicate 7 0#8)
    else s1
  | _, _ => s1

/-- Events of a tenant (EVENT_TABLE_SIZE). -/
def State.eventCount (s : State) (t : Nat) : Nat := match s.vfOf t with | some x => x.evSize | none => 0

/-- Mark an event errored (R500); a number beyond the table names no event. -/
def State.errEvent (s : State) (t e : Nat) : State :=
  if e < s.eventCount t then s.setEvent t e { s.event t e with errored := true } else s

/-! ### Completion (R476, R477, R499, R500) -/

/-- Complete the command at the head of a queue: write its record, send its vector, fault the queue. -/
def State.finishHead (s : State) (t h q status detail result : Nat) (deg : Bool) : State :=
  match s.queue? t h q with
  | none => s
  | some x => match x.cmds with
    | [] => s
    | c :: _ =>
      let phase := b2n (x.done / 2 ^ x.z % 2 = 0)
      let rec_ := compRecord c.idx status (phase + 2 * b2n deg) detail result
      let s1 := match s.fnOf t with
        | some f => s.hostWrite f (x.comp + 16 * c.idx) rec_
        | none => s
      let s2 := s1.modQueue t h q fun x =>
        { x with cmds := x.cmds.drop 1, done := x.done + 1, faulted := x.faulted || statusFaults status }
      let s3 := if status = stNotRun ∧ c.op = 0x09 then s2.errEvent t (c.fld 8 2) else s2
      if c.byte 1 % 2 = 1 ∧ x.vector ≠ 0 then
        match s3.fnOf t with
        | some f => s3.msix f x.vector
        | none => s3
      else s3

/-- A FENCE with resume (R499, R501). -/
def Cmd.isResume (c : Cmd) : Bool := c.op = 0x0D && bit (c.byte 1) 1

/-- One command that completes without running: a refused one with WAIT_CYCLE (R503), any other of a faulted queue with
NOT_RUN (R499), one of an unknown opcode with MALFORMED at byte 0 (R478). -/
def State.settleOnce (s : State) (t h q : Nat) : State :=
  match s.queue? t h q with
  | none => s
  | some x => match x.cmds with
    | [] => s
    | c :: _ =>
      if c.refused then s.finishHead t h q stWaitCycle 0 0 false
      else if x.faulted ∧ !c.isResume then s.finishHead t h q stNotRun 0 0 false
      else if 0x0D < c.op then s.finishHead t h q stMalformed 0 0 false
      else s

/-- Complete every command at the head of a queue that does not run (R499, R503). -/
def State.settle (s : State) (t h q : Nat) : State :=
  go ((s.queue? t h q).map (fun x => x.cmds.length) |>.getD 0) s
where
  go : Nat → State → State
    | 0, s => s
    | n + 1, s => go n (s.settleOnce t h q)

/-- Complete the head command with a status, then every command behind it that does not run. -/
def State.complete (s : State) (t h q status detail result : Nat) (deg : Bool) : State :=
  (s.finishHead t h q status detail result deg).settle t h q

/-! ### Flows (12.9) -/

/-- Header of a route's nibble n (Table 11.6). -/
def routeNibble (route n : Nat) : Nat := route / 16 ^ n % 16

/-- Change the send flows of a die. -/
def State.modTx (s : State) (d : DieId) (f : List TxFlow → List TxFlow) : State :=
  s.modDie d fun x => { x with fab := { x.fab with tx := f x.fab.tx } }

/-- Change the receive flows of a die. -/
def State.modRx (s : State) (d : DieId) (f : List RxFlow → List RxFlow) : State :=
  s.modDie d fun x => { x with fab := { x.fab with rx := f x.fab.rx } }

/-- A send flow by tenant and identifier. -/
def TxFlow.is (f : TxFlow) (t id : Nat) : Bool := f.tenant == t && f.id == id

/-- A receive flow by tenant and identifier. -/
def RxFlow.is (f : RxFlow) (t id : Nat) : Bool := f.tenant == t && f.id == id

/-- Release a label of a port's transmit direction. -/
def State.freeLabel (s : State) (d : DieId) (p l : Nat) : State :=
  s.modPort d p fun x => { x with labels := x.labels.filter fun y => y != l }

/-- A sealed die gives data slots to the tenants at positions only (R596). -/
def Die.hasSlots (x : Die) (t : Nat) : Bool := !x.pow.sealed || x.pow.positions.contains t

/-- Send at most one data or close flit of a send flow, within its credit (R332, R323, R337). -/
def State.pumpOnce (s : State) (d : DieId) (t id : Nat) : State :=
  match (s.die d).fab.tx.find? fun f => f.is t id with
  | none => s
  | some f =>
    let x := s.port d f.port
    if !f.opened ∨ !(x.state = .up ∨ x.state = .degraded) ∨ 256 ≤ x.replay.length ∨ !(s.die d).hasSlots t then s
    else match f.data with
      | [] =>
        if f.closing then
          ((s.sendFlit d f.port 3 false f.label t f.seq []).modTx d fun fs => fs.filter fun g => !g.is t id).freeLabel
            d f.port f.label
        else s
      | b :: bs =>
        let n := min 240 b.length
        if f.credit < n then s
        else
          let rest := b.drop n
          (s.sendFlit d f.port 1 rest.isEmpty f.label t f.seq (b.take n)).modTx d fun fs => fs.map fun g =>
            if g.is t id then
              { g with credit := g.credit - n, seq := (g.seq + 1) % 2 ^ 24,
                       data := if rest.isEmpty then bs else rest :: bs }
            else g

/-- Send what a send flow may send now: at most a replay buffer's worth of flits. -/
def State.pump (s : State) (d : DieId) (t id : Nat) : State := go 256 s
where
  go : Nat → State → State
    | 0, s => s
    | n + 1, s => go n (s.pumpOnce d t id)

/-- Send the transit flits that wait on a port, as far as its replay buffer has room (R334); on a sealed die those of the
tenants that hold slots, in the order of the rotation (R596). -/
def State.sendTransit (s : State) (d : DieId) (p : Nat) : State :=
  let x := s.port d p
  if !(x.state = .up ∨ x.state = .degraded) then s
  else
    let n := 256 - x.replay.length
    let out := ((inSlots (s.die d) x.fwd).take n)
    out.foldl (fun s f => s.sendFlit d p f.ty f.last f.label f.tenant f.fseq f.payload)
      (s.modPort d p fun x => { x with fwd := x.fwd.filter fun f => !out.contains f })
where
  /-- The k-th flit of every position in turn, k from 0 on. -/
  inSlots (x : Die) (fwd : List TransitFlit) : List TransitFlit :=
    if !x.pow.sealed then fwd
    else ((List.range fwd.length).map fun k => x.pow.positions.filterMap fun t =>
      (fwd.filter fun f => f.tenant == t)[k]?).flatten

/-- A send flow has a flit and, for data, credit. -/
def TxFlow.ready (f : TxFlow) : Bool := f.opened && match f.data with
  | [] => f.closing
  | b :: _ => decide (min 240 b.length ≤ f.credit)

/-- One data slot of a position on a sealed die (R596): round-robin among its tenant's flows with data and credit (log 171, DESIGN CHOICE). -/
def State.pumpSlot (s : State) (d : DieId) (p k t : Nat) : State :=
  let l := sortBy TxFlow.label ((s.die d).fab.tx.filter fun f => f.port == p && f.tenant == t && f.ready)
  match l[k % l.length]? with
  | some f => s.pumpOnce d f.tenant f.id
  | none => s

/-- Send what a port may send now: the transit flits, then its send flows one flit a turn in label order (R335), on a sealed
die one slot per position in rotation (R596) (log 171, DESIGN CHOICE). -/
def State.pumpPort (s : State) (d : DieId) (p : Nat) : State := go 256 (s.sendTransit d p)
where
  go : Nat → State → State
    | 0, s => s
    | n + 1, s => go n (if (s.die d).pow.sealed then
        (s.die d).pow.positions.foldl (fun s t => s.pumpSlot d p n t) s
      else (sortBy TxFlow.label ((s.die d).fab.tx.filter fun f => f.port == p)).foldl
        (fun s f => s.pumpOnce d f.tenant f.id) s)

/-- Body of FLOWLOST (Table 12.13). -/
def flowlostBody (t cause id src dst : Nat) : List Byte :=
  leBytes 2 t ++ [BitVec.ofNat 8 cause, 0#8] ++ leBytes 4 id ++ leBytes 2 src ++ leBytes 2 dst

/-- Send FLOWLOST to an end of a flow that is not this die (R338). -/
def State.tellLost (s : State) (d : DieId) (toId t cause id src dst : Nat) : State :=
  if toId = s.identity d then s else s.sendRecord d 0x12 toId (flowlostBody t cause id src dst)

/-! ### Running plans (11.8) -/

/-- A running plan is named by its context and queue: a queue runs one command at a time (R475). -/
def Run.is (r : Run) (t h q : Nat) : Bool := r.tenant == t && r.handle == h && r.queue == q

/-- Change a running plan. -/
def State.modRun (s : State) (d : DieId) (t h q : Nat) (f : Run → Run) : State :=
  s.modDie d fun x => { x with til := { x.til with runs := x.til.runs.map fun r => if r.is t h q then f r else r } }

/-- Logical tile of plan tile (u, v) (11.3). -/
def Plan.tile (p : Plan) (u v : Nat) : Nat := (p.x0 + u) + 16 * (p.y0 + v)

/-- The logical tiles of a plan's region. -/
def Plan.tiles (p : Plan) : List Nat :=
  ((List.range p.h).map fun v => (List.range p.w).map fun u => p.tile u v).flatten

/-- Clear the registers of a region (R268). -/
def State.clearRegion (s : State) (d : DieId) (p : Plan) : State :=
  s.modDie d fun x => { x with til := { x.til with
    units := x.til.units.filter fun u => !p.tiles.contains u.1 } }

/-- Blank one bank (R365): it takes 3 µs, and the bank is free 10 µs later (R366) (log 180, DEDUCED). -/
def Bank.blank (b : Bank) (now : Ns) (release : Bool) : Bank :=
  { b with weights := [], keys := [],
           state := if release then .blanking else b.state,
           holder := if release then none else b.holder,
           blankEnd := now + 3000, freeAt := now + 13000 }

/-- The banks of a mask at the end of their plan (R366, R372): a bank that failed while held is marked failed and not
blanked, every other one is blanked (log 180, DEDUCED). -/
def State.releaseBanks (s : State) (d : DieId) (mask : Nat) : State :=
  s.modDie d fun x => { x with sct := { x.sct with
    banks := x.sct.banks.mapIdx fun i b =>
      if !bit mask i then b
      else if b.failPending then { b with state := .failed, failPending := false, holder := none }
      else b.blank s.tray.now true
    blankings := satAdd 64 x.sct.blankings
      ((List.range 8).filter fun i => bit mask i && !(x.sct.banks.getD i {}).failPending).length } }

/-- Close the flows of a run at its end (R337): send flows close after their last data, receive entries are freed (log 173, DEDUCED). -/
def State.closeFlows (s : State) (d : DieId) (t h q : Nat) : State :=
  let mine := (s.die d).fab.tx.filter fun f => f.tenant == t && f.handle == h && f.queue == q
  let s1 := (s.modTx d fun fs => fs.map fun f =>
    if f.tenant == t && f.handle == h && f.queue == q then { f with closing := true } else f).modRx d fun fs =>
      fs.filter fun f => !(f.tenant == t && f.handle == h && f.queue == q)
  mine.foldl (fun s f => s.pump d t f.id) s1

/-- Tile-cycles of a run (Table 18.8). -/
def Run.tileCyclesNow (r : Run) : Nat := r.clock * (r.plan.w * r.plan.h)

/-! ### The ledger (09.2, 09.5) -/

/-- Units of a power in mW over a time in ns: 1 mW·ns is 1,000 fJ (log 15, DESIGN CHOICE). -/
def energyOf (mw : Nat) (ns : Ns) : Nat := mw * ns * 1000 * 10240000

/-- `s` with the estimator of a die changed. -/
def State.modNrg (s : State) (d : DieId) (f : Energy → Energy) : State := s.modDie d fun x => { x with nrg := f x.nrg }

/-- The coefficients in a list; the fused starting values while it is empty (R213). -/
def coeffsOf (d : DieId) (l : List Nat) : List Nat := if l.isEmpty then (List.range 9).map fun k => Config.fusedCoeff d k else l

/-- Dynamic energy of counts of A0 to A7 at a voltage (R213). -/
def dynEnergy (coeff counts : List Nat) (v : Nat) : Nat := (List.zipWith (· * ·) (coeff.take 8) counts).sum * v * v

/-- The VCORE target without lead (R213). -/
def State.vNoLead (s : State) (d : DieId) : Nat :=
  let x := s.die d
  vcoreTarget d x.clk.curStep (x.wideAt d x.clk.curStep) x.op.trim 0

/-- Leakage energy of one tile over a span (R213): c_L in µW times the curve, 1 µW·ns being 1 fJ. -/
def leakEnergy (d : DieId) (cl v : Nat) (t : Int) (ns : Ns) : Nat := cl * Config.leakage d v t * ns

/-- Charge an energy to a context, to one of its queues when one is named, and to its tenant (Table 09.1, R227). -/
def State.charge (s : State) (d : DieId) (t h : Nat) (q : Option Nat) (e : Nat) : State :=
  match s.ctx? t h with
  | none => s
  | some c =>
    if c.frozen then s
    else
      let s1 := s.modCtx t h fun c => { c with energy := c.energy + e }
      let s2 := match q with
        | some q => s1.modQueue t h q fun x => { x with energy := x.energy + e }
        | none => s1
      (s2.modTenant t fun x => { x with energy := x.energy + e }).modNrg d fun n => { n with attributed := n.attributed + e }

/-- What one context pays of an overhead energy e (Table 09.3). -/
def overheadPart (rule e held : Nat) : Nat :=
  if rule = 0 then e * held / 2 ^ 30 else if rule = 1 then e / 48 else 0

/-- Sum of two lists of counts. -/
def addCounts (a b : List Nat) : List Nat := (List.range 8).map fun k => a.getD k 0 + b.getD k 0

/-- Add activity to the running interval (Table 09.2, R224). -/
def State.countAct (s : State) (d : DieId) (a : Activity) : State := s.modDie d fun x => { x with nrg := { x.nrg with
  acts := match x.nrg.acts.findIdx? fun b => b.t == a.t && b.h == a.h && b.q == a.q && b.tile == a.tile && !b.paid with
    | some i => x.nrg.acts.modify i fun b => { b with counts := addCounts b.counts a.counts, tileNs := b.tileNs + a.tileNs }
    | none => x.nrg.acts ++ [a] } }

/-- What a run's tiles have been occupied for in the running interval, in tiles × ns (R224). -/
def State.occupied (s : State) (d : DieId) (r : Run) : Nat :=
  r.plan.w * r.plan.h * min 10000 (s.tray.now - max r.runFrom (s.die d).nrg.intervalFrom)

/-- Logical tiles of a run whose units are clocked: those of its region but the groups that a benchmark idles (R217). -/
def Run.clocked (r : Run) (benches : List Bench) : List Nat :=
  let idle := ((benches.find? fun b => b.t == r.tenant && b.h == r.handle).map Bench.idle).getD []
  r.plan.tiles.filter fun L => !idle.contains ((L % 16 - r.plan.x0) / 2)

/-- The clocked tile-cycles of a run in the running interval (class A7, Table 09.2): its tiles, at every compute cycle (log 130,
DESIGN CHOICE). -/
def State.clockedActs (s : State) (d : DieId) (r : Run) : List Activity :=
  let x := s.die d
  let ns := s.occupied d r / max 1 (r.plan.w * r.plan.h)
  let cycles := if x.computes then ns * stepN x.clk.curStep / 10 / (if x.op.div4 then 4 else 1) else 0
  (r.clocked x.nrg.bench).map fun L => ⟨r.tenant, r.handle, r.queue, some L, List.replicate 7 0 ++ [cycles], 0, false⟩

/-- A run's part of the running interval as it stops (R224). -/
def State.countRun (s : State) (d : DieId) (r : Run) : State :=
  (⟨r.tenant, r.handle, r.queue, none, [], s.occupied d r, false⟩ :: s.clockedActs d r).foldl (fun s a => s.countAct d a) s

/-- Energy of an activity: dynamic energy and the leakage of the occupied tiles (R213, R224). -/
def State.actEnergy (s : State) (d : DieId) (a : Activity) : Nat :=
  let x := s.die d
  let cs := coeffsOf d x.nrg.coeffEpoch
  let v := s.vNoLead d
  dynEnergy cs a.counts v + leakEnergy d (cs.getD 8 0) v x.nrg.attrT a.tileNs

/-- The highest issue rate that the interlocks leave on a die: the thermal rate h, and 4/16 under an alert's issue cut or a heat
surge (R85, R162, R168). -/
def Die.issueCap (x : Die) : Nat := if x.op.issueCut ∨ x.heat.surgeAt.isSome then min x.heat.h 4 else x.heat.h

/-- The lead falls to the largest one still owed (R97). -/
def State.leadFall (s : State) (d : DieId) : State :=
  let x := s.die d
  let l := (x.op.leadOwed.map fun e => e.2.2.2).foldl max 0
  if l = x.op.lead then s else (s.modDie d fun x => { x with op := { x.op with lead := l } }).retarget d

/-- What a run has drawn stays charged to its resident slot (R112). -/
def Die.chargeSlot (x : Die) (r : Run) : List SlotBudget :=
  x.pow.slots.mapIdx fun i b => if x.til.slots.getD i none == some (r.tenant, r.handle) then { b with used := r.eEpoch } else b

/-- A plan stops (R268, R288): operations in flight are discarded and their destinations keep undefined contents, the
region and its flows are freed, its banks blanked, the lead it owed falls (R97) (log 173, DEDUCED). -/
def State.stopRun (s : State) (d : DieId) (t h q : Nat) : State :=
  match (s.die d).til.runs.find? fun r => r.is t h q with
  | none => s
  | some r =>
    let s := s.countRun d r
    let s1 := (r.inFlight.map InFlight.dest).flatten.foldl (fun s p => s.sramFree d p.1 p.2) s
    let s2 := (s1.modDie d fun x => { x with
      til := { x.til with runs := x.til.runs.filter fun r => !r.is t h q }
      pow := { x.pow with slots := x.chargeSlot r }
      nrg := { x.nrg with bench := x.nrg.bench.filter fun b => !(b.t == t && b.h == h) }
      droop := { x.droop with
        armed := x.droop.armed.filter fun a => match a.seg with | some k => !(k.1 == t && k.2.1 == h) | none => true
        attributed := x.droop.attributed.filter fun k => !(k.1 == t && k.2.1 == h) }
      op := { x.op with leadOwed := x.op.leadOwed.filter fun a => !(a.1 == t && a.2.1 == h) } }).clearRegion d r.plan
    let s3 := (s2.releaseBanks d r.plan.bankMask).closeFlows d t h q
    (s3.modCtx t h fun c => { c with tileCycles := c.tileCycles + r.tileCyclesNow }).leadFall d

/-- A plan ends, and its RUN_PLAN completes with a status (R493). -/
def State.endRun (s : State) (d : DieId) (t h q status detail : Nat) : State :=
  match (s.die d).til.runs.find? fun r => r.is t h q with
  | none => s
  | some r => (s.stopRun d t h q).complete t h q status detail r.clock r.scoutDegraded

/-- End every plan that runs on a die. -/
def State.endRuns (s : State) (d : DieId) (status detail : Nat) : State :=
  (s.die d).til.runs.foldl (fun s r => s.endRun d r.tenant r.handle r.queue status detail) s

/-- A flow of this die ends lost (R338): its entry goes, and the plan with it ends with FLOW_LOST (log 174, DESIGN CHOICE). -/
def State.loseFlow (s : State) (d : DieId) (t id : Nat) : State :=
  let tx := (s.die d).fab.tx.find? fun f => f.is t id
  let rx := (s.die d).fab.rx.find? fun f => f.is t id
  let s1 := match tx with
    | some f => ((s.modTx d fun fs => fs.filter fun g => !g.is t id).freeLabel d f.port f.label).endRun d t f.handle
        f.queue stFlowLost 0
    | none => s
  let s2 := match rx with
    | some f => (s1.modRx d fun fs => fs.filter fun g => !g.is t id).endRun d t f.handle f.queue stFlowLost 0
    | none => s1
  if tx.isSome ∨ rx.isSome then
    s2.modDie d fun x => { x with fab := { x.fab with flowsLost := satAdd 32 x.fab.flowsLost 1 } }
  else s2

/-- A transit entry of this die is lost (R338): FLOWLOST goes to both ends. -/
def State.loseTransit (s : State) (d : DieId) (e : Transit) (cause : Nat) : State :=
  let s1 := (s.modDie d fun x => { x with fab := { x.fab with
    transit := x.fab.transit.filter fun g => !(g == e) } }).freeLabel d e.outPort e.outLabel
  (s1.tellLost d e.source e.tenant cause e.id e.source e.dest).tellLost d e.dest e.tenant cause e.id e.source e.dest

/-- Every flow of the die that a test selects, ends lost with a cause, at both ends (R338). -/
def State.loseFlows (s : State) (d : DieId) (cause : Nat) (tx : TxFlow → Bool) (rx : RxFlow → Bool)
    (tr : Transit → Bool) : State :=
  let me := s.identity d
  let txs := (s.die d).fab.tx.filter tx
  let rxs := (s.die d).fab.rx.filter rx
  let trs := (s.die d).fab.transit.filter tr
  let s1 := txs.foldl (fun s f => (s.tellLost d f.peer f.tenant cause f.id me f.peer).loseFlow d f.tenant f.id) s
  let s2 := rxs.foldl (fun s f => (s.tellLost d f.peer f.tenant cause f.id f.peer me).loseFlow d f.tenant f.id) s1
  trs.foldl (fun s e => s.loseTransit d e cause) s2

/-- Every flow that a die sends or receives ends lost, and the far ends are told, before its plans end for a cause of their own;
so do those that transit it (R202, R338). -/
def State.dropFlows (s : State) (d : DieId) (cause : Nat) : State :=
  let me := s.identity d
  let f := (s.die d).fab
  let s1 := f.tx.foldl (fun s e => (s.tellLost d e.peer e.tenant cause e.id me e.peer).freeLabel d e.port e.label) s
  let s2 := f.rx.foldl (fun s e => s.tellLost d e.peer e.tenant cause e.id e.peer me) s1
  let s3 := f.pendOpen.foldl (fun s e => s.tellLost d e.source e.tenant cause e.id e.source me) s2
  let s4 := s3.modDie d fun x => { x with fab := { x.fab with
    tx := [], rx := [], pendOpen := [], flowsLost := satAdd 32 x.fab.flowsLost (f.tx.length + f.rx.length) } }
  f.transit.foldl (fun s e => s.loseTransit d e cause) s4

/-- Every flow of a die ends lost (R178, R202, R338). -/
def State.loseAllFlows (s : State) (d : DieId) (cause : Nat) : State :=
  s.loseFlows d cause (fun _ => true) (fun _ => true) (fun _ => true)

/-! ### Ends of contexts on a die -/

/-- Contexts resident on a die. -/
def State.residents (s : State) (d : DieId) : List (Nat × Nat) := (s.die d).til.slots.filterMap id

/-- A context is charged its part of the running interval as it leaves the die (09.6, R224, R226). -/
def State.settleCtx (s : State) (d : DieId) (t h : Nat) : State :=
  let x := s.die d
  let mine (a : Activity) : Bool := a.t == t && a.h == h && !a.paid
  let s1 := (x.nrg.acts.filter mine).foldl (fun s a => s.charge d t h (some a.q) (s.actEnergy d a)) s
  let ns := min (if x.rails.vcore then 10000 else 1000000) (s.tray.now - x.nrg.intervalFrom)
  let e := overheadPart (s.dset d 0x2600 5) (energyOf x.nrg.overRate ns) (((s.ctx? t h).map Ctx.held).getD 0)
  (s1.charge d t h none e).modNrg d fun n => { n with
    acts := n.acts.map fun a => if mine a then { a with paid := true } else a, partPaid := n.partPaid + e }

/-- Whether a command runs in hardware of the die, and so dies with it: a copy, scrub or load in progress. -/
def Cmd.moving (c : Cmd) : Bool := (c.op = 0x05 || c.op = 0x06 || c.op = 0x0C) && c.started.isSome

/-- Drop the copy unit in hand of a queue, its buffer zeroed (R602). -/
def State.dropUnits (s : State) (d : DieId) (t h q : Nat) : State :=
  s.modDie d fun x => { x with til := { x.til with engines := x.til.engines.map fun e =>
    match e.unit with
    | some u => if u.1 = t ∧ u.2.1 = h ∧ u.2.2.1 = q then { e with unit := none, buffer := [] } else e
    | none => e } }

/-- Complete every running and exposed command of one queue with a status, in order (R502). -/
def State.failQueue (s : State) (d : DieId) (t h q status : Nat) : State :=
  let r := (s.die d).til.runs.find? fun r => r.is t h q
  let s1 := (s.stopRun d t h q).dropUnits d t h q
  let s2 := match r with
    | some r => s1.finishHead t h q status 0 r.clock r.scoutDegraded
    | none => s1
  go ((s2.queue? t h q).map (fun x => x.cmds.length) |>.getD 0) s2
where
  go : Nat → State → State
    | 0, s => s
    | n + 1, s => go n (match s.headCmd t h q with
        | none => s
        | some c => s.finishHead t h q (if c.refused then stWaitCycle else status) 0 0 false)

/-- The bindings that lie in SRAM. -/
def Binding.inSram : Binding → Bool
  | .sram .. => true
  | .host .. => false
  | .shared _ => true

/-- A context stops being resident: its SRAM bindings and plans go with it (18.4). -/
def Ctx.leave (c : Ctx) : Ctx :=
  { c with resident := none, plans := [], bindings := c.bindings.filter fun b => !b.2.inSram }

/-- The resident contexts of a die lose their work (R172, R181, R487, R502) (log 243, DEDUCED). -/
def State.failResidents (s : State) (d : DieId) (status : Nat) : State :=
  let rs := s.residents d
  let s1 := rs.foldl (fun s c => (List.range 8).foldl (fun s q => s.failQueue d c.1 c.2 q status) s) s
  let s2 := rs.foldl (fun s c => (s.settleCtx d c.1 c.2).modCtx c.1 c.2 Ctx.leave) s1
  let s3 := s2.modDie d fun x => { x with til := { x.til with
    slots := List.replicate 48 none, runs := [], units := [], waiting := [],
    engines := x.til.engines.map fun e => { e with unit := none, buffer := [] } } }
  s3.setTenants fun ts => ts.map fun p =>
    (p.1, { p.2 with shared := p.2.shared.filter fun o => o.2.die != d.val })

end Sys2Proof.Machine
end

