-- ==== Sys2Proof/Machine/DieOps.lean ====
section
/-! DEFINITION. What happens to a die as a whole: clock switches and faults, ports, membership, rails, tile failures. -/

namespace Sys2Proof.Machine
open Sys2Proof

/-! ### Status words of the clocks (Table 03.7) -/

/-- 0x5000:02. -/
def Clk.refStatus (c : Clk) : Nat :=
  b2n c.xaReady + 2 * b2n c.xbReady + 4 * b2n c.rlReady + 8 * b2n (c.refInUse = .xb) + 16 * b2n c.holdover +
    32 * b2n c.refMismatch

/-- The step shown in 0x5000:03 and 0x2100:02 (R635). -/
def Clk.shownStep (c : Clk) : Nat := if c.computeRan then c.curStep else 15

/-- 0x5000:03. -/
def Clk.computeStatus (c : Clk) : Nat :=
  c.shownStep + 16 * b2n (c.active = .b) + 32 * b2n c.loopA.ready + 64 * b2n c.loopB.ready + 128 * b2n c.onBridge +
    256 * b2n c.loopA.failed + 512 * b2n c.loopB.failed

/-- `s` with the clocks of a die changed. -/
def State.modClk (s : State) (d : DieId) (f : Clk → Clk) : State := s.modDie d fun x => { x with clk := f x.clk }

/-- A clock event in the moraine (codes 0x5001 to 0x5004). -/
def State.logClk (s : State) (d : DieId) (code : Nat) : State :=
  s.logDie d code (leBytes 1 (s.die d).clk.refStatus ++ leBytes 2 (s.die d).clk.computeStatus)

/-! ### Compute loops (03.3) -/

/-- A compute loop. -/
def Clk.loop (c : Clk) : LoopId → Loop
  | .a => c.loopA
  | .b => c.loopB

/-- `c` with a compute loop changed. -/
def Clk.modLoop (c : Clk) (l : LoopId) (f : Loop → Loop) : Clk :=
  match l with
  | .a => { c with loopA := f c.loopA }
  | .b => { c with loopB := f c.loopB }

/-- The other loop. -/
def LoopId.other : LoopId → LoopId
  | .a => .b
  | .b => .a

/-- The loop that is or will be retuned (R43, R46, R47): the idle loop, or the remaining one when one is failed. -/
def Clk.spare (c : Clk) : LoopId := if (c.loop c.active.other).failed then c.active else c.active.other

/-- Both compute loops are marked failed (R47). -/
def Clk.bothFailed (c : Clk) : Bool := c.loopA.failed && c.loopB.failed

/-- Exactly one compute loop is marked failed. -/
def Clk.oneFailed (c : Clk) : Bool := c.loopA.failed != c.loopB.failed

/-- Retune a loop to a step: its ready flag clears until it has locked and counted (R43) (log 143, DEDUCED). -/
def Clk.retune (c : Clk) (l : LoopId) (st : Nat) : Clk := c.modLoop l fun x => { x with step := st, ready := false }

/-- Status of a switch of the compute clock (Table 03.3): a reference switch in progress stays BUSY. -/
def Clk.status (c : Clk) (v : Nat) : Clk := { c with switchStatus := if c.relockTo.isSome then c.switchStatus else v }

/-- Move compute to the RL ÷ 16 bridge, which is F15 (03.3): the switch is DONE (Table 03.3). -/
def Clk.toBridge (c : Clk) : Clk := { c.status 0 with onBridge := true, curStep := 15, raiseWaits := false, computeRan := true }

/-- Move compute to a loop at that loop's step: the switch is DONE (Table 03.3). -/
def Clk.toLoop (c : Clk) (l : LoopId) : Clk :=
  { c.status 0 with active := l, onBridge := false, curStep := (c.loop l).step, raiseWaits := false, computeRan := true }

/-- A clock fault (R45 to R47): counted, recorded, a local emergency; a loop with three in 24 h is marked failed, and
with both failed the die runs on the bridge (log 104, DESIGN CHOICE). -/
def State.clockFault (s : State) (d : DieId) (l : Option LoopId) : State :=
  let now := s.accNow
  let s1 := s.modDie d fun x =>
    let c := match l with
      | none => x.clk
      | some l => x.clk.modLoop l fun y =>
        let fs := (now :: y.faults).filter fun t => decide (now < t + 86400000000000)
        { y with faults := fs, failed := y.failed || decide (3 ≤ fs.length) }
    let c := { c with clockFaults := satAdd 32 c.clockFaults 1 }
    { x.spoil with clk := if c.bothFailed then c.toBridge else c, mer := { x.mer with emergency := true, releasedAt := none } }
  s1.logClk d 0x5004

/-- A restriction of another layer holds the SRAM of a die in retention: R39, R87 or FLOW_LOSS (R14, R177). -/
def Die.heldInRetention (x : Die) : Bool := x.clk.refsLostHalt || x.op.alertHalt || x.heat.flowLoss != .none

/-- The voltage suffices for a raise: no rise of VCORE is under way (R74, R75). -/
def Die.vEnough (x : Die) : Bool := x.rails.vReady || decide (x.rails.avsGoal ≤ x.rails.vcoreSet)

/-- A switch at the coming step ends what an earlier raise still waited for. -/
def Die.endRaise (x : Die) : Die :=
  { x with clk := { x.clk with raiseWaits := false }, op := { x.op with supplyLag := false } }

/-- Tune the loop that is not in use to a step: none when the remaining loop runs compute, or when both are failed (R43, R47). -/
def Clk.tuneIdle (c : Clk) (st : Nat) : Clk :=
  if c.bothFailed ∨ (c.oneFailed ∧ !c.onBridge) ∨ (c.loop c.spare).step = st then c else c.retune c.spare st

/-- Tune a loop to a step unless it is tuned to it already (R43). -/
def Clk.tune (c : Clk) (l : LoopId) (st : Nat) : Clk := if (c.loop l).step = st then c else c.retune l st

/-- The loop of a raise is ready and the voltage is not (R75): a supply lag, which is a local emergency and recorded. -/
def State.supplyLag (s : State) (d : DieId) (g : Nat) : State :=
  (s.modDie d fun x => { x with
    clk := { x.clk with raiseWaits := true }
    op := { x.op with supplyLag := true }
    mer := { x.mer with emergency := true, releasedAt := none } }).logDie d 0x2102 [BitVec.ofNat 8 g]

/-- A clock fault of loop l at a switch to step g (R45): when it marks the loop failed, the die goes on with the other loop
alone, from the bridge (R47). -/
def State.loopFault (s : State) (d : DieId) (l : LoopId) (g : Nat) : State :=
  let s1 := s.clockFault d (some l)
  let c := (s1.die d).clk
  if (c.loop l).failed ∧ !(c.loop l.other).failed then s1.modClk d fun c => c.toBridge.retune l.other g else s1

/-- A raise to step g whose loop is not ready (R42, R45): the switch is refused and recorded, the die stays and waits. -/
def State.raiseRefused (s : State) (d : DieId) (l : LoopId) (g : Nat) : State :=
  let s1 := ((s.modClk d fun c => { (c.tune l g).status 1 with raiseWaits := true }).logClk d 0x5003).loopFault d l g
  let s2 := if (s.die d).rails.vReady then s1 else s1.supplyLag d g
  s2.moveVcore d (s2.targetAt d g)

/-- Switch to a step at a boundary (R44, R45, R47, R75, R76), as far as the restrictions on the die permit it: a raise needs
the idle loop and the voltage, a lowering without its loop goes by the bridge, and a die that is on the bridge leaves it for
the loop once that is ready. -/
def State.applyStep (s0 : State) (d : DieId) (g0 : Nat) : State :=
  let g := s0.permitted d g0
  let x := s0.die d
  let c := x.clk
  let s := s0.modDie d fun x => x.spoil.endRaise
  if !x.computes ∨ c.bothFailed then s0
  else if g = c.curStep ∧ !c.onBridge then s0.modDie d Die.endRaise
  else
    let l := c.spare
    let ready := (c.loop l).ready && (c.loop l).step == g
    if c.onBridge ∧ (c.oneFailed ∨ g = 15) then
      if ready then (if x.vEnough then s.modClk d fun c => c.toLoop l else s.supplyLag d g)
      else if (c.loop l).step = g then s0
      else if c.oneFailed then
        ((s.modClk d fun c => c.retune l g).clockFault d none).moveVcore d (s.targetAt d g)
      else s0.modClk d fun c => c.retune l g
    else if c.oneFailed then
      ((s.modClk d fun c => c.toBridge.retune l g).clockFault d none).moveVcore d (s.targetAt d g)
    else if c.curStep < g then
      let s1 := if ready then s.modClk d fun c => c.toLoop l
        else ((s.modClk d fun c => c.toBridge.tune l g).logClk d 0x5003).loopFault d l g
      s1.moveVcore d (s1.targetAt d g)
    else if !ready then s.raiseRefused d l g
    else if !x.rails.vReady then s.supplyLag d g
    else s.modClk d fun c => c.toLoop l

/-! ### Emergencies (22.4) -/

/-- Announce an emergency of a die: its tenants and both PFs (R184, R454), and the group by an EMERGENCY record
(R600). -/
def State.announce (s : State) (d : DieId) (src code : Nat) : State :=
  (s.noticeDie d src code).flood d 0x14
    ([BitVec.ofNat 8 src, BitVec.ofNat 8 code, 0#8, 0#8] ++ leBytes 8 (s.stampTime d))

/-- A heat event (Table 07.6): notice, moraine, and the EMERGENCY record where the table declares one (log 120, DEDUCED). -/
def State.heat (s : State) (d : DieId) (code : Nat) : State :=
  let s1 := s.heatEvent d code
  if code = 1 ∨ code = 4 ∨ code = 6 ∨ code = 8 ∨ code = 9 then
    s1.flood d 0x14 ([1#8, BitVec.ofNat 8 code, 0#8, 0#8] ++ leBytes 8 (s.stampTime d))
  else s1

/-! ### The observation output and the gateable blocks (03.5, 03.6) -/

/-- CLKMON: the die that drives it with its source and divider exponent; held low when none does, or while the CLKMON bit of
the driving die is clear (R57). -/
def State.clkmonOut (s : State) : Option (DieId × Nat × Nat) :=
  ((List.finRange 8).find? fun d => (s.die d).clk.monDrive).bind fun d =>
    let c := (s.die d).clk
    if c.enables.getLsbD 15 then some (d, c.monSrc, c.monK) else none

/-- The identity word of a block: code, revision and 0x5A (R51). -/
def blockIdentity (b : Nat) : BitVec 32 := Config.blockCode b ++ Config.blockRevision b ++ 0x5A#8

/-- A read of a register of the block with enable bit `b` (R50, R51, R52): 0 while the block is gated. -/
def Clk.blockRead (c : Clk) (b off : Nat) : BitVec 32 :=
  if !c.enables.getLsbD b then 0
  else if off = 0 then blockIdentity b else KV.getD c.blockRegs (b, off) 0

/-- A write to a register of a block (R50): ignored while the block is gated, else kept, through gating too. The identity word
stands (log 19, DESIGN CHOICE). -/
def Clk.blockWrite (c : Clk) (b off : Nat) (v : BitVec 32) : Clk :=
  if !c.enables.getLsbD b ∨ off = 0 then c else { c with blockRegs := KV.put c.blockRegs (b, off) v }

/-! ### Ports (12.4) -/

/-- Lines mapped to a lane in a direction. -/
def mapped (m : List (Option Nat)) : Nat := (m.filter Option.isSome).length

/-- A port goes DOWN (R313): its flows end lost, and it is counted and recorded. -/
def State.portDown (s : State) (d : DieId) (p : Nat) : State :=
  let s1 := s.modDie d fun x => { x with fab := { x.fab with portsLost := satAdd 32 x.fab.portsLost 1 } }
  let s2 := (s1.modPort d p fun x => { x with
    state := .down, downAt := s.tray.now, replay := [], out := [], fwd := [], cal := none, labels := [] }).logDie d 0x3003
      [BitVec.ofNat 8 p, 0#8]
  s2.loseFlows d 1 (fun f => f.port == p) (fun f => f.port == p) (fun e => e.inPort == p || e.outPort == p)

/-- A heater's lock loop. -/
def Fabric.heater (f : Fabric) (n : Nat) : Ring := KV.getD f.rings n {}

/-- Number of the ring that serves a line of a port under the shift in force (R308). -/
def Port.ringNo (x : Port) (p : Nat) (drop : Bool) (line : Nat) : Nat :=
  80 * p + 40 * b2n drop + (line + 40 - (if drop then x.shiftRx else x.shiftTx)) % 40

/-- A calibration in progress ends at once (R318): its line returns as reserve when both its rings are locked, else it is
failed. -/
def State.stopCal (s : State) (d : DieId) (p : Nat) : State :=
  match (s.port d p).cal with
  | none => s
  | some (i, _) => s.modDie d fun x =>
    let y := x.fab.ports.getD p {}
    let ok := (x.fab.heater (y.ringNo p false i)).locked && (x.fab.heater (y.ringNo p true i)).locked
    let fix (l : List LineState) := l.modify i fun st =>
      if st = .calibrating then (if ok then .reserve else .failed) else st
    { x with fab := { x.fab with ports := x.fab.ports.modify p fun y =>
      { y with cal := none, tx := fix y.tx, rx := fix y.rx } } }

/-- A port enters RETRAIN (R312, R313, R318): a calibration stops, its line returns. -/
def State.portRetrain (s : State) (d : DieId) (p : Nat) : State :=
  if (s.port d p).state.carries then
    ((s.stopCal d p).modPort d p fun x => { x with state := .retrain, retrainAt := s.tray.now }).modDie d
      fun x => { x with fab := { x.fab with retrains := satAdd 32 x.fab.retrains 1 } }
  else s

/-- A port is up at full rate in both directions with 36 lanes mapped, else degraded (R296, Table 12.5). -/
def Port.upState (x : Port) : PortState :=
  if mapped x.txMap = 36 ∧ mapped x.rxMap = 36 then .up else .degraded

/-- Every UP or DEGRADED port goes LOW (R345): LOWRATE is sent, flows that only transit the die end. -/
def State.portsLow (s : State) (d : DieId) : State :=
  let s1 := (List.range 16).foldl (fun s p =>
    let x := s.port d p
    if x.state = .up ∨ x.state = .degraded then
      let line := ((x.txMap.getD 0 none).getD 0)
      ((s.stopCal d p).sendHop d p 0x25 ([0#8, BitVec.ofNat 8 line] ++ leBytes 2 ((x.txSeq + 1) % 4096) ++ List.replicate 4 0#8)).modPort
        d p fun x => { x with state := .low, lowLine := line }
    else s) s
  s1.loseFlows d 4 (fun _ => false) (fun _ => false) (fun _ => true)

/-- LOW ports return to UP or DEGRADED (R346). -/
def State.portsBack (s : State) (d : DieId) : State :=
  (List.range 16).foldl (fun s p =>
    let x := s.port d p
    if x.state = .low then
      ((s.sendHop d p 0x25 ([1#8, BitVec.ofNat 8 x.lowLine] ++ leBytes 2 ((x.txSeq + 1) % 4096) ++
        List.replicate 4 0#8)).modPort d p fun x => { x with state := x.upState }).pumpPort d p
    else s) s

/-- Add up the heaters' duties to a runtime (Table 10.1, L4). -/
def Fabric.warmTo (f : Fabric) (now : Ns) : Fabric :=
  { f with
    heat := f.rings.foldl (fun h r => if r.2.d = 0 then h else KV.put h r.1 (KV.getD h r.1 0 + r.2.d * (now - f.heatAt))) f.heat
    heatAt := now }

/-- The optical part of a die loses its rails: ports OFF, flows and rings gone (Table 12.5, R338); an open heater stays open
(R631). -/
def Fabric.off (f : Fabric) : Fabric :=
  { f with
    ports := f.ports.map fun p => { finding := p.finding }
    flowsLost := satAdd 32 f.flowsLost (f.tx.length + f.rx.length)
    rings := (f.rings.filter fun r => r.2.isOpen).map fun r => (r.1, { isOpen := true, openFails := 3 })
    rx := [], tx := [], transit := [], pendOpen := [], barriers := [], failover := false, combLost := false }

/-! ### Membership (08.6) -/

/-- What a die that stops being a member keeps (R202): its counters. -/
def Meridian.quit (m : Meridian) : Meridian :=
  { groupStep := 15, missedTotal := m.missedTotal, strayTotal := m.strayTotal, lateEpochs := m.lateEpochs,
    stray := m.stray, joinRefused := m.joinRefused, resultLate := m.resultLate, lastChange := m.lastChange,
    recNo := m.recNo, emergency := m.emergency, releasedAt := m.releasedAt, lent := m.lent, borrowed := m.borrowed }

/-- The die stops being a member (R202): its plans end with MERIDIAN_LOST, its flows end lost, and it runs at F15 (log 143, DEDUCED). -/
def State.stopMember (s : State) (d : DieId) : State :=
  let s1 := (s.dropFlows d 2).endRuns d stMeridianLost 0
  (s1.modDie d fun x => { x with mer := x.mer.quit }).applyStep d 15

/-- Body of LEAVE (Table 12.13). -/
def leaveBody (cause id : Nat) : List Byte := [BitVec.ofNat 8 cause, 0#8] ++ leBytes 2 id ++ List.replicate 4 0#8

/-- A die takes a LEAVE into its records when it is the root, else sends it upward (R187, R200). -/
def State.passLeave (s : State) (d : DieId) (cause id : Nat) : State :=
  let m := (s.die d).mer
  if m.root ∨ m.standbyRoot then s.modDie d fun x => { x with mer := { x.mer with
    leaves := if x.mer.leaves.contains id then x.mer.leaves else x.mer.leaves ++ [id] } }
  else s.sendUp d 1 0x04 id (leaveBody cause id)

/-- A member leaves (R200): LEAVE goes towards the root, and from then on the die proposes 0x10. -/
def State.sendLeave (s : State) (d : DieId) (cause : Nat) : State :=
  let m := (s.die d).mer
  if !m.member ∨ m.leaving then s
  else (s.modDie d fun x => { x with mer := { x.mer with
    leaving := true, proposal := some 0x10 } }).passLeave d cause (s.identity d)

/-- LEAVE on behalf of a die that cannot send, through another member of the tray (R200). -/
def State.leaveFor (s : State) (d : DieId) (cause : Nat) : State :=
  match (List.finRange 8).find? fun e => e != d && (s.die e).mer.member && (s.die e).svc.state == .running &&
      s.groupNo e == s.groupNo d with
  | none => s
  | some e => if !(s.die d).mer.member then s else s.passLeave e cause (s.identity d)

/-! ### Rails and power (04.1, 07.5, 19.7) -/

/-- The clocks when the rails go: no loop or reference is ready any more, system time is invalid (R539); the step at which
compute last ran stays shown (R635). -/
def Clk.off (c : Clk) : Clk :=
  { c with
    xaReady := false, xbReady := false, foscReady := false, soscReady := false, rlReady := false, opllReady := false
    holdover := false, relockTo := none, bothLostAt := none, refsLostHalt := false, fixedOnFosc := false
    warmResetWaits := false, onBridge := false, nextStep := none, raiseWaits := false
    loopA := { c.loopA with ready := false }, loopB := { c.loopB with ready := false }
    timeValid := false, goodExch := 0, badExch := 0, exchOpen := none }

/-- The rails of a die in the order in which they come up (R66). -/
inductive Rail where
  | vio | vsram | vcore | vana | vhtr
  deriving DecidableEq, Repr

/-- That order; the rails go down in the reverse of it. -/
def railOrder : List Rail := [.vio, .vsram, .vcore, .vana, .vhtr]

/-- A rail reports power-good: it is enabled and within 5 % of its setpoint (R66); an enabled rail is taken to reach it (log 106,
DESIGN CHOICE). -/
def Rails.good (r : Rails) : Rail → Bool
  | .vio => r.vio
  | .vsram => r.vsram
  | .vcore => r.vcore
  | .vana => r.vana
  | .vhtr => r.vhtr

/-- A rail is enabled or disabled. -/
def Rails.set (r : Rails) (k : Rail) (on : Bool) : Rails :=
  match k with
  | .vio => { r with vio := on }
  | .vsram => { r with vsram := on }
  | .vcore => { r with vcore := on }
  | .vana => { r with vana := on }
  | .vhtr => { r with vhtr := on }

/-- Every rail comes up in order, each only after the rail before it is good (R66) (log 106, DESIGN CHOICE). -/
def Rails.allUp (r : Rails) : Rails :=
  (railOrder.foldl (fun (a : Rails × Bool) k =>
    let r := if a.2 then a.1.set k true else a.1
    (r, r.good k)) (r, true)).1

/-- The rails go down in the reverse order (R66); a hardware trip drives VCORE and VSRAM low first and leaves VIO on (R172). -/
def Rails.allDown (r : Rails) (trip keepVio : Bool) : Rails :=
  let order := (if trip then [Rail.vcore, .vsram] else []) ++ railOrder.reverse
  (order.filter fun k => !(keepVio && k == .vio)).foldl (fun r k => r.set k false) r

/-- The tray controller writes VOUT_COMMAND (R70): only while the governor of the die does not control AVSBus, and never above
VOUT_MAX. -/
def Rails.pmbus (r : Rails) (v : Nat) : Rails :=
  if r.avsGov then r
  else let w := min v r.voutMax; { r with vcoreSet := w, avsGoal := w, target := w, vReady := true, avsWrite := none }

/-- VCORE goes off: no target is in force, and the measured voltage and current lie near 0 (R638). -/
def Rails.coreOff (r : Rails) : Rails :=
  { r with vcore := false, target := 0, vcoreSet := 0, vReady := true, avsWrite := none, vcoreMeas := 0, vcoreMa := 0 }

/-- The rails of a die go off (R66); VIO may stay. The contexts of the die lose their work with a status (R502), its
SRAM is lost (R487), its ports go OFF, and it is no member any more. -/
def State.railsOff (s : State) (d : DieId) (keepVio : Bool) (status : Nat) : State :=
  let s1 := (s.failResidents d status).sramLost d
  s1.modDie d fun x => { x with
    rails := { (x.rails.allDown (status == stDieTripped) keepVio).coreOff with
      retention := false, avsGov := false, avsFault := false }
    clk := if keepVio then { x.clk.off with foscReady := x.clk.foscReady, soscReady := x.clk.soscReady } else x.clk.off
    fab := (x.fab.warmTo s.tray.now).off
    sct := { x.sct with banks := List.replicate 8 {}, tablesBuilt := false, columnsOut := [] }
    mer := x.mer.quit
    op := { x.op with supplyLag := false, f15Pending := false, lead := 0, leadOwed := [], wideWaits := false }
    frost := { x.frost with state := .running, thawKept := false, entryKept := false }
    droop := { x.droop with armed := [] }
    pow := { x.pow with phases := [] }
    svc := { x.svc with step := 0, govRuns := false, warm := false, holding := none, remap := [] } }

/-- The rails of a die come up (R66, Table 19.2): the tray controller configures the regulator and sets VCORE to
Vmin(F15) + 75 mV + T over PMBus (R70). The die is starting, its count starts at 0 (R62). -/
def State.railsUp (s : State) (d : DieId) : State :=
  s.modDie d fun x =>
    { x with
      rails := { x.rails with
        retention := x.heldInRetention, avsGov := false, avsFault := false, voutMax := 3800, ovLimit := 4000
        }.allUp.pmbus (vcoreTarget d 15 true x.op.trim 0)
      svc := { x.svc with state := .starting, step := 7, heldOff := false, fwFails := 0, idAccepted := false
                          selfTested := false, govRuns := false }
      clk := { x.clk with
        timeOff := -(s.tray.now : Int), timeFloor := 0, steer := 0, rateAdj := 0, curStep := 15, computeRan := false
        bothLostAt := if x.clk.xaReady ∨ x.clk.xbReady then none else some s.tray.now }
      til := { x.til with granuleBase := .unready, granules := [], units := [] } }

/-- A die is held off (R528): only VIO stays on; the cause goes to the moraine. -/
def State.holdOff (s : State) (d : DieId) (cause : Nat) : State :=
  ((s.railsOff d true stDiePoweredOff).modDie d fun x => { x with
    svc := { x.svc with state := .off, heldOff := true }
    pow := { x.pow with share := 0, shareNext := none } }).logDie d 0x6004 [BitVec.ofNat 8 cause]

/-! ### Tiles (R255, R620 to R624) -/

/-- Physical tile of logical tile L (R255). -/
def Tiles.phys (x : Tiles) (L : Nat) : Nat :=
  let k := x.rowMap.getD (L / 16) 16
  (if L % 16 < k then L % 16 else L % 16 + 1) + 17 * (L / 16)

/-- The logical tile has failed (R620). -/
def Die.tileFailed (x : Die) (L : Nat) : Bool := x.svc.failedTiles.getLsbD (x.til.phys L)

/-- The affected tiles of a requested remap of logical tile L (R622). -/
def affected (L M : Nat) : Bool := L / 16 == M / 16 && decide (L % 16 ≤ M % 16)

/-- A granule is closed to BIND by a requested remap (R622). -/
def Die.closed (x : Die) (g : Nat) : Bool := x.svc.remap.any fun L => affected L (g / 128)

/-- Logical tile L fails (R620, R622, R624): with the row's spare unused a remap is requested; a second failure in the
row withdraws it. -/
def State.failTile (s : State) (d : DieId) (L : Nat) : State :=
  let x := s.die d
  if x.tileFailed L then s
  else
    let p := x.til.phys L
    let pend := x.svc.remap.any fun M => M / 16 == L / 16
    let s1 := s.modDie d fun x => { x with svc := { x.svc with
      failedTiles := x.svc.failedTiles ||| BitVec.twoPow 136 p
      remap := if pend then x.svc.remap.filter fun M => M / 16 != L / 16
        else if x.til.rowMap.getD (L / 16) 16 = 16 then x.svc.remap ++ [L] else x.svc.remap } }
    s1.logDie d 0x6002 [BitVec.ofNat 8 L, BitVec.ofNat 8 p]

/-- A read finds an uncorrectable error in a word (R262, R620). -/
def State.poisonWord (s : State) (d : DieId) (w : Nat) : State :=
  let g := granuleOf (8 * w)
  let s1 := s.modDie d fun x => { x with til := { x.til with
    uncorrected := satAdd 32 x.til.uncorrected 1
    poison := if x.til.poison.contains w then x.til.poison else w :: x.til.poison } }
  if (s.die d).svc.poisonLogged.contains g then s1
  else
    let now := s.accNow
    let s2 := (s1.modDie d fun x => { x with svc := { x.svc with
      poisonLogged := g :: x.svc.poisonLogged
      poisonTimes := (g / 128, now) :: x.svc.poisonTimes } }).logDie d 0x6001 (leBytes 2 g)
    let n := ((s2.die d).svc.poisonTimes.filter fun p =>
      p.1 == g / 128 && decide (now < p.2 + 86400000000000)).length
    if 4 ≤ n then s2.failTile d (g / 128) else s2

end Sys2Proof.Machine
end

