-- ==== Sys2Proof/Machine/TrayOps.lean ====
section
/-! DEFINITION. What happens to the tray as a whole: cold reset, loss of power, Frost requests and thaws. -/

namespace Sys2Proof.Machine
open Sys2Proof

/-! ### Cold reset (Table 19.6, R539) -/

/-- The alert as a reset leaves it: no reset shortens or releases an interlock restriction (R538). -/
def OpPoint.coldAlert (o : OpPoint) : OpPoint :=
  { alert := o.alert, alertCause := o.alertCause, liveCauses := o.liveCauses, phaseFallAt := o.phaseFallAt, alertAt := o.alertAt
    deassertAt := o.deassertAt, hold := o.hold, issueCut := o.issueCut, awaitRelease := o.awaitRelease, div4 := o.div4
    acked := o.acked, alertHalt := o.alertHalt }

/-- The thermal restrictions as a reset leaves them (R538): rate, throttle full, surge, trip and FLOW_LOSS, with the trip record;
the sensors are read anew. -/
def Heat.cold (h : Heat) : Heat :=
  { trips := h.trips, latched := h.latched, h := h.h, hGoal := h.hGoal, hRoseAt := h.hRoseAt, fullSeen := h.fullSeen
    surgeAt := h.surgeAt, surgeLast := h.surgeLast, tripped := h.tripped, flowLoss := h.flowLoss, flowLossAt := h.flowLossAt }

/-- What a die keeps through a tray cold reset: persistent values, the trip record and latch, the counters that no chapter
clears there (R90, R174, R185, R223, R347, R571, R633), its failed phases (R69), and, unless the reset is a power-on, the
restrictions of its interlocks (R538). -/
def Die.cold (x : Die) (wide powerOn : Bool) : Die :=
  { clk := { preferred := .xa, clockFaults := x.clk.clockFaults }
    rails := { phases := x.rails.phases, active := x.rails.active, ocLimit := x.rails.ocLimit }
    op := { (if powerOn then {} else x.op.coldAlert) with
      wide := wide, trim := x.op.trim, ageRuntime := x.op.ageRuntime, overdueFrom := x.op.overdueFrom }
    heat := if powerOn then { trips := x.heat.trips, latched := x.heat.latched } else x.heat.cold
    nrg := { stored := x.nrg.stored }
    fab := { baseline := x.fab.baseline, farBase := x.fab.farBase }
    frost := { entries := x.frost.entries, total := x.frost.total }
    svc := { state := if x.heat.latched then .latched else .off } }

/-- What the Legend keeps through a tray cold reset: committed values, password, key, failure count and lockout (R384,
R389); the frame counters unless the reset is a power-on (R428, R430) (log 242, DEDUCED). -/
def Legend.cold (l : Legend) (powerOn : Bool) : Legend :=
  { settings := l.nv, nv := l.nv, password := l.password, unlockKey := l.unlockKey, pwFailures := l.pwFailures
    lockoutEnd := l.lockoutEnd
    framesDiscarded := if powerOn then 0 else l.framesDiscarded
    notifSkipped := if powerOn then 0 else l.notifSkipped
    tagFailures := if powerOn then 0 else l.tagFailures }

/-- What the hold-up part keeps: the module as it sits in its bay, the counters and the held save (R563, R571). -/
def HoldUp.cold (h : HoldUp) : HoldUp :=
  { present := h.present, since := h.since, idRead := h.idRead, serial := h.serial, faulted := h.faulted,
    voltage := h.voltage, charged := h.charged, chargedAt := h.chargedAt, capacity := h.capacity,
    countedMah := h.countedMah, cycles := h.cycles, lastTest := h.lastTest, events := h.events, saves := h.saves,
    save := h.save }

/-- An update in progress is abandoned (R586, Table 21.1): no further handoff starts. -/
def Firmware.abandon (f : Firmware) : Firmware :=
  if f.status = 4 then { f with status := 0, result := 0x2100, handAt := none, nextDie := none, rollBack := false }
  else { f with handAt := none, nextDie := none, rollBack := false }

/-- A slot that an abandoned update leaves (R586): a staged image stays staged. -/
def Firmware.cold (f0 : Firmware) : Firmware :=
  let f := f0.abandon
  { slotA := f.slotA, slotB := f.slotB, runB := f.runB, release := f.release, digest := f.digest,
    otherRelease := f.otherRelease, otherDigest := f.otherDigest, floor := f.floor, result := f.result,
    stagedFloor := f.stagedFloor, restarts := f.restarts }

/-- A tray cold reset: the tray starts from step 3 of Table 19.1. The restriction of R68 stays. A power-on also restarts the runtime of 0x1500:08
(R612). Contexts, objects and events are lost, and both host links drop (R468). -/
def State.coldReset (s : State) (powerOn : Bool) : State :=
  let nv := s.tray.leg.nv
  let wide (d : Nat) : Bool := KV.getD nv ⟨0x2100, 1, d⟩ 0 == 1
  { s with
    tray :=
      { now := if powerOn then 0 else s.tray.now
        accBase := if powerOn then s.tray.accBase + s.tray.now else s.tray.accBase
        pow := { trayEn := s.tray.pow.trayEn, slotPins := s.tray.pow.slotPins, slotLatched := s.tray.pow.slotPins,
                 converters := s.tray.pow.converters, convRestrict := s.tray.pow.convRestrict, busMv := s.tray.pow.busMv, inletT := s.tray.pow.inletT, busFrom := s.tray.pow.busFrom,
                 bus12Mv := s.tray.pow.bus12Mv }
        cool := if powerOn then {} else { lostA := s.tray.cool.lostA, lostB := s.tray.cool.lostB }
        leg := s.tray.leg.cold powerOn
        hold := s.tray.hold.cold
        fw := { s.tray.fw.cold with startAt := if powerOn then 0 else s.tray.now }
        mor := s.tray.mor
        ind := {}
        mbox := none }
    dies := s.dies.mapFinIdx fun i x _ => x.cold (wide i) powerOn
    masters := Vector.replicate 4 {}
    pfs := Vector.replicate 2 {}
    vfs := [], tenants := [], ctxs := [] }

/-! ### Loss of power -/

/-- A vault save in progress is abandoned, its partial save invalid (R35, R564): code 0x1402, valid 0. -/
def State.abandonSave (s : State) : State :=
  if s.tray.hold.saving then
    (s.logTray 0x1402 (leBytes 4 s.tray.hold.partialSave.length ++ [0#8])).modTray fun y =>
      { y with hold := { y.hold with saving := false, partialSave := [] } }
  else s

/-- Every die rail goes off in reverse order (R35, R563, R570, R625): running and exposed commands complete with
DIE_POWERED_OFF. -/
def State.allRailsOff (s : State) : State :=
  s.forDies fun s d => (s.railsOff d false stDiePoweredOff).modDie d fun x =>
    { x with svc := { x.svc with state := if x.heat.latched then .latched else .off } }

/-- The tray switches every rail, the host hub and itself off (R35, R563): the module is used no more until the bus is back
(R570). -/
def State.trayOff (s : State) : State :=
  s.allRailsOff.modTray fun y => { y with
    fw := { y.fw with running := false, trayReady := false, handoff := false, restarting := false }
    hold := { y.hold with charging := false, current := 0, available := false, onHoldup := false, converter := false
                          restoring := false } }

/-! ### Frost (20.1) -/

/-- Frost is requested for a die (R541, R543, R545): a thawing die keeps the request, a die that is frozen or already
entering only takes a hold-up cause while its entry runs. -/
def State.requestFrost (s : State) (d : DieId) (cause : FrostCause) : State :=
  let x := s.die d
  let pend (c : FrostCause) : FrostCause := if c = .holdup ∨ cause = .holdup then .holdup else .command
  if x.svc.state ≠ .running ∧ x.svc.state ≠ .frost then s
  else match x.frost.state with
    | .running =>
      let idle := x.til.runs.isEmpty
      s.modDie d fun x => { x with
        frost := { x.frost with state := if idle then .entering else .stopPending, cause := cause,
                                requestAt := s.tray.now, enterAt := s.tray.now, thawKept := false }
        til := { x.til with runs := x.til.runs.map fun r => { r with stop := .haltPoint } } }
    | .stopPending | .entering => s.modDie d fun x => { x with frost := { x.frost with cause := pend x.frost.cause } }
    | .frozen => s
    | .thawing => s.modDie d fun x => { x with frost := { x.frost with entryKept := true, cause := cause } }

/-- A cancelled entry (R542, R546): the pending stops are withdrawn and the plans run on. -/
def State.cancelFrost (s : State) (d : DieId) : State :=
  s.modDie d fun x => { x with
    frost := { x.frost with state := .running }
    til := { x.til with runs := x.til.runs.map fun r => { r with stop := .none, halted := false } } }

/-- The step a die runs at the end of a thaw: the group step in force, as far as it is permitted (R545, R547, R636). -/
def State.thawStep (s : State) (d : DieId) : Nat := s.permitted d (s.die d).mer.groupStep

/-- The charger's command in mA: 1.0 A, or what keeps within 10 W while every die is frozen (R33, R553). -/
def State.chargeLimit (s : State) : Nat :=
  if (List.finRange 8).all fun d => (s.die d).frost.state == .frozen then min 1000 (10000000 / max 1 s.tray.hold.voltage)
  else 1000

/-- The charger follows R33 when a die has frozen or begun to thaw. -/
def State.followCharge (s : State) : State :=
  s.modTray fun y => { y with hold := { y.hold with current := if y.hold.charging then s.chargeLimit else y.hold.current } }

/-- A frozen die starts to thaw (R544, R545): VSRAM and VCORE come up, one compute loop is tuned to the group step and
the other to the step already announced; the clock enables of the entry return (R55). A restriction of another layer keeps
SRAM in retention (R14, R547). -/
def State.startThaw (s : State) (d : DieId) : State :=
  let x := s.die d
  if x.frost.state ≠ .frozen then s
  else
    let g := s.thawStep d
    let n := (x.clk.nextStep).getD g
    let hi := min g n
    let target := s.targetAt d hi
    (s.modDie d fun x => { x with
      frost := { x.frost with state := .thawing, thawAt := s.tray.now, thawKept := false,
                              total := x.frost.total + (s.tray.now - x.frost.frozenAt) }
      rails := { x.rails with retention := x.heldInRetention, vcore := true, target := target, avsGoal := target,
                              vcoreSet := target, vReady := true, avsWrite := none }
      clk :=
        let c := x.clk
        let l := if c.loopA.failed then LoopId.b else .a
        let c := if c.oneFailed then c.retune l g else (c.retune .a g).retune .b n
        { c with enables := c.enablesKept.getD c.enables, enablesKept := none } }).portsBack d |>.followCharge

/-- A thaw trigger reaches a die (R544, R546, R180, R561): it cancels an entry in state 1, is kept in state 2 and during
a FLOW_LOSS halt of a frozen die, and acts at once on a frozen one (log 252, DEDUCED). -/
def State.thawTrigger (s : State) (d : DieId) : State :=
  let x := s.die d
  if x.svc.state = .flowHalt then
    (if x.heat.wasFrozen then s.modDie d fun x => { x with heat := { x.heat with thawKept := true } } else s)
  else match x.frost.state with
    | .stopPending => s.cancelFrost d
    | .entering => s.modDie d fun x => { x with frost := { x.frost with thawKept := true } }
    | .frozen =>
      if x.svc.holding.isSome then s.modDie d fun x => { x with frost := { x.frost with thawKept := true } }
      else s.startThaw d
    | .running | .thawing => s

/-- The tray may thaw a die for a command or a doorbell: not one frozen by hold-up (R548, R549, R561). -/
def Die.holdupFrozen (x : Die) : Bool := x.frost.cause == .holdup && x.frost.state != .running && x.frost.state != .thawing

end Sys2Proof.Machine
end

