-- ==== Sys2Proof/Machine/Results.lean ====
section
/-! DEFINITION. The result of an epoch on its way down the tree, and urgent proposals (08.3, 08.4). -/

namespace Sys2Proof.Machine
open Sys2Proof

/-- `s` with the meridian part of a die changed. -/
def State.modMer (s : State) (d : DieId) (f : Meridian → Meridian) : State :=
  s.modDie d fun x => { x with mer := f x.mer }
/-! ### Results (R191, R192, R195) -/

/-- The root's identity as a die knows it (R187, R194). -/
def Meridian.rootId (m : Meridian) (own : Nat) : Nat := match m.tree.map Member.id with
  | [] => own
  | i :: is => is.foldl min i

/-- The members that receive a result from die `id` directly: those that send to it, and from the root a failed root. -/
def childrenOf (m : Meridian) (id : Nat) : List Nat :=
  (m.members.map Member.id).filter fun j => j != id &&
    (if some j = m.failedRoot then m.rootId id == id else nextUp m.tree j == id)
/-- Split a list into runs of at most n. -/
def chunksOf {α : Type} (n : Nat) (l : List α) : List (List α) :=
  (List.range (ceilDiv l.length n)).map fun i => (l.drop (n * i)).take n

/-- The bodies of a RESULT (Table 12.13): at most 104 identities a record, every record but the last continued. -/
def resultBodies (r : MResult) : List (List Byte) :=
  let ids := r.strays.map (fun i => (0, i)) ++ r.leaves.map (fun i => (1, i)) ++ r.joins.map (fun i => (2, i))
  let parts := if ids.isEmpty then [[]] else chunksOf 104 ids
  parts.mapIdx fun k p =>
    let n (c : Nat) : Nat := (p.filter fun e => e.1 == c).length
    [BitVec.ofNat 8 r.step, BitVec.ofNat 8 (b2n r.amended + 2 * b2n (decide (k + 1 < parts.length))), 0#8, 0#8] ++
      leBytes 8 r.epoch ++ leBytes 2 (n 0) ++ leBytes 2 (n 1) ++ leBytes 2 (n 2) ++ [0#8, 0#8] ++
      (p.map fun e => leBytes 2 e.2).flatten

/-- Send a RESULT downward: to the members below the die in the tree, and over its ports to neighbours of its group that
are not members (R187, R203). -/
def State.sendResult (s : State) (d : DieId) (r : MResult) (src : Nat) : State :=
  let m := (s.die d).mer
  let bodies := resultBodies r
  let s1 := (childrenOf m (s.identity d)).foldl (fun s j =>
    bodies.foldl (fun s b => s.sendFor d 0x02 j src b) s) s
  (List.range 16).foldl (fun s p =>
    match (s.port d p).neighbour with
    | some (g, id, _) =>
      if g = s.groupNo d ∧ !(m.members.map Member.id).contains id ∧ (s.port d p).state.carries then
        bodies.foldl (fun s b => s.putRecord d p (recordBytes 0x02 g id src 0 64 b)) s
      else s
    | none => s) s1

/-- The step a die takes at the boundary of a result: F15 when the result ends its membership (R202). -/
def State.resultStep (s : State) (d : DieId) (r : MResult) : Nat :=
  let id := s.identity d
  if r.strays.contains id ∨ r.leaves.contains id then 15 else max r.step (s.ceiling d)

/-- A die holds a RESULT (R192): it retunes its idle loop (R43) and begins a voltage raise (R74), unless a local emergency
still acts on it (R196). A result below the die's own revision shows that the root discarded it: R144 lowers the next proposal
(R190) (log 132, DEDUCED). -/
def State.holdResult (s : State) (d : DieId) (r : MResult) (src : Nat) : State :=
  let g := s.resultStep d r
  let s1 := s.modDie d fun x => { x with
    mer := { x.mer with result := some { r with more := false }, resultFrom := src, heardResult := true }
    droop := if x.mer.revision.any fun c => decide (r.step < c) then { x.droop with lowerNext := true } else x.droop
    clk := { x.clk with nextStep := some g } }
  let x := s1.die d
  let c := x.clk
  if !x.computes ∨ x.op.awaitRelease ∨ c.bothFailed then s1
  else
    let s2 := if c.oneFailed ∨ (g = c.curStep ∧ !c.onBridge) ∨ (c.loop c.spare).step = g then s1
      else s1.modClk d fun c => c.retune c.spare g
    s2.moveVcore d (s2.targetAt d (min g c.curStep))
/-- The root (or a standby root that took over) sends an amended RESULT with a higher step (R195). -/
def State.amend (s : State) (d : DieId) (code : Nat) : State :=
  match (s.die d).mer.result with
  | none => s
  | some r =>
    if r.epoch ≠ s.epoch d ∨ code ≤ r.step then s
    else
      let r' := { r with step := code, amended := true }
      (s.sendResult d r' (s.identity d)).holdResult d r' (s.identity d)
/-! ### Urgent proposals (R195, R196) -/

/-- Send an urgent proposal for step st (R195, R196), never for one above the ceiling step (R73): it replaces the proposal of the
epoch when it is higher. After the root closed the proposals its own amends the RESULT up to 808 µs; one sent later is repeated
next epoch. A non-member sends none, a leaving one proposes 0x10 (R200). -/
def State.urgent (s : State) (d : DieId) (st0 : Nat) : State :=
  let st := max st0 (s.ceiling d)
  let s := s.modDie d fun x => { x.spoil with mer := { x.mer with emergency := true, releasedAt := none } }
  let m := (s.die d).mer
  if !m.member ∨ m.leaving then s
  else
    let code := match m.proposal with | some c => if c = 0x10 then st else max c st | none => st
    let id := s.identity d
    let s1 := s.modDie d fun x =>
      let m := (x.mer.hear id code)
      { x with mer := { m with
        proposal := some code, urgentSent := true, urgentCode := some (max st (m.urgentCode.getD 0))
        repeatUrgent := if s.inEpoch d > 808000 then some (max st (m.repeatUrgent.getD 0)) else m.repeatUrgent } }
    if (m.root ∨ m.standbyRoot) ∧ m.closed then (if s.inEpoch d ≤ 808000 then s1.amend d code else s1)
    else s1.sendUp d 1 0x01 id (proposalBody code (s.epoch d) true false (s1.die d).mer.heard.length)
end Sys2Proof.Machine
end

