-- ==== Sys2Proof/Machine/Rails.lean ====
section
/-! DEFINITION. Rails, voltages, ageing, the margin mode and the regulator alert (chapter 04). -/

namespace Sys2Proof.Machine
open Sys2Proof

/-- `s` with the operating point of a die changed. -/
def State.modOp (s : State) (d : DieId) (f : OpPoint → OpPoint) : State := s.modDie d fun x => { x with op := f x.op }

/-- `s` with the rails of a die changed. -/
def State.modRails (s : State) (d : DieId) (f : Rails → Rails) : State := s.modDie d fun x => { x with rails := f x.rails }

/-! ### Emergencies -/

/-- Some cause of a local emergency still acts on the die (Table 08.3). -/
def Die.emergencyCause (x : Die) : Bool := x.op.awaitRelease || x.heat.surgeAt.isSome || x.heat.fullSeen

/-- The last cause of a local emergency is released (R196): the spare loop is retuned to the group step and VCORE moves
to its target; the switch comes at a boundary at least 200 µs later. -/
def State.releaseEmergency (s : State) (d : DieId) : State :=
  let x := s.die d
  if x.emergencyCause then s
  else
    let g := s.permitted d x.mer.groupStep
    let s1 := s.modDie d fun x => { x with mer := { x.mer with releasedAt := some s.tray.now } }
    if !x.computes ∨ (g = x.clk.curStep ∧ !x.clk.onBridge) then s1
    else (s1.modClk d fun c => c.tuneIdle g).moveVcore d (s.targetAt d g)

/-- No step of a die lies within 0.95 V at a margin and a trim (R73). -/
def noStep (d : DieId) (wide : Bool) (trim : Nat) : Bool :=
  (List.range 16).all fun st => decide (3800 < Config.vmin d st + marginOf wide + trim)

/-- A die comes to have no step within 0.95 V by a change of its margin or trim: an entry is made (R73). -/
def State.noStepCheck (s : State) (d : DieId) (was : Bool) : State :=
  let o := (s.die d).op
  if noStep d o.wide o.trim ∧ !was then s.logDie d 0x2103 [15#8] else s

/-- A die whose step lies above its ceiling step acts under a local emergency (R636): urgent proposal for the ceiling
step, target 0.95 V. A sealed step that comes to lie above the ceiling step makes an entry, and the die proposes the lowest
ceiling step it then had until the operator writes a legal sealed step (R118) (log 101, DEDUCED). -/
def State.ceilingCheck (s : State) (d : DieId) : State :=
  let x := s.die d
  let c := s.ceiling d
  let above := x.pow.sealed && decide (x.pow.sealedStep < c)
  let s := if above ∧ !x.pow.sealAbove then s.logDie d 0x2104 [BitVec.ofNat 8 c, BitVec.ofNat 8 x.pow.sealedStep] else s
  let s0 := s.modDie d fun x => { x with pow := { x.pow with
    sealAbove := x.pow.sealAbove || above, sealCeil := if above then max x.pow.sealCeil c else x.pow.sealCeil } }
  if x.computes ∧ x.clk.curStep < c then (s0.urgent d c).retarget d else s0

/-! ### AVSBus (R71, R74) -/

/-- A periodic current read returns (R71). -/
def execAvsCurrentRead (d : DieId) (ma mv : Nat) (s : State) : Host.Outcome State Fault Refusal :=
  if !(s.die d).rails.avsGov then .next s
  else .next (s.modRails d fun r => { r with vcoreMa := ma, vcoreMeas := mv })

/-- REG_ALERT_n asserts on a die (R85, R89). Asserted already, only the cause is latched. Else the forced state begins:
divider, issue cut, voltage writes suspended, the spare loop retuned to F15, the urgent proposal, the announcement. -/
def State.assertAlert (s : State) (d : DieId) (cause : Nat) : State :=
  let x := s.die d
  let w := x.op.alertCause ||| 2 ^ cause
  let live := x.op.liveCauses ||| 2 ^ cause
  if x.op.alert then s.modOp d fun o => { o with alertCause := w, liveCauses := live }
  else
    let s1 := s.modDie d fun x => { x with
      op := { x.op with alert := true, alertCause := w, liveCauses := 2 ^ cause, alertCount := satAdd 32 x.op.alertCount 1, alertAt := s.tray.now,
                        deassertAt := none, hold := true, issueCut := true, awaitRelease := true, div4 := true,
                        acked := false, f15Pending := false }
      rails := { x.rails with avsWrite := none }
      clk := if x.computes then x.clk.tuneIdle 15 else x.clk }
    let s2 := (s1.logDie d 0x2101 (leBytes 2 w)).announce d 2 1
    if x.computes then s2.urgent d 15 else s2

/-- No good response to a voltage write 4 µs after it was issued (R71): it is retried once; a second failure is an AVSBus
fault, which asserts cause 7 and leaves VCORE at the wide F15 target over PMBus. -/
def execAvsWriteTimeout (d : DieId) (s : State) : Host.Outcome State Fault Refusal :=
  let x := s.die d
  let s1 := s.advanceTo (x.rails.writeAt + 4000)
  match x.rails.avsWrite with
  | none => .next s
  | some (v, false) => .next (s1.modRails d fun r => { r with avsWrite := some (v, true), writeAt := s1.tray.now })
  | some (_, true) =>
    .next ((s1.modRails d fun r => { r with avsFault := true, avsGov := false }.pmbus (vcoreTarget d 15 true x.op.trim 0)).assertAlert
      d 7)

/-- The wide write is in force (R78): the detectors go to monitor-only duty, the write is acknowledged, and a lean write
that waited behind it takes effect at the next boundary (R79). -/
def State.wideInForce (s : State) (d : DieId) : State :=
  let k : ObjKey := ⟨0x2100, 1, d.val⟩
  let lean := (s.die d).op.leanAfterWide
  let was := noStep d (s.die d).op.wide (s.die d).op.trim
  let s0 := (s.modDie d fun x => { x.spoil with
    op := { x.op with wide := true, wideWaits := false, lead := 0, leanAfterWide := false }
    droop := { x.droop with monitor := true } }).noStepCheck d was
  let s1 := s0.effectDone k 1 0
  if lean then (s1.setRaise k 0 (s1.epoch d + 1)).effectDone k 0 (s1.epoch d + 1) else s1

/-- A voltage write is complete and settled (R74): the next write of a larger raise goes out, or the voltage is ready. A
raise that waited switches when its loop is ready and its step is still permitted (R15, R75); a wide write comes into force (R78); the F15 write after an alert is done (R88). -/
def execVoltageReady (d : DieId) (s : State) : Host.Outcome State Fault Refusal :=
  let x := s.die d
  match x.rails.avsWrite with
  | none => .next s
  | some (v, _) =>
    let goal := x.rails.avsGoal
    let s := s.advanceTo (x.rails.writeAt + settleNs x.rails.vcoreSet v)
    if v ≠ goal then
      .next (s.modRails d fun r => { r with
        vcoreSet := v, avsWrite := some (if v + 240 < goal then v + 240 else goal, false)
        writeAt := s.tray.now })
    else
      let s1 := s.modDie d fun x => { x with
        rails := { x.rails with vcoreSet := v, avsWrite := none, vReady := true }
        op := { x.op with f15Pending := false, trimWas := x.op.trim } }
      let c := x.clk
      let st := (c.loop c.spare).step
      let s2 := if !c.raiseWaits then s1
        else if (c.loop c.spare).ready ∧ x.computes ∧ s.permitted d x.mer.groupStep ≤ st then
          s1.modDie d fun x => { x.spoil with clk := x.clk.toLoop x.clk.spare, op := { x.op with supplyLag := false } }
        else s1.modOp d fun o => { o with supplyLag := false }
      .next (if x.op.wideWaits ∧ ceilingStep d true x.op.trim x.op.agedCeiling ≤ c.curStep then s2.wideInForce d else s2)

/-! ### Converters and phases (R67 to R69) -/

/-- Number of set bits. -/
def popCount {w : Nat} (b : BitVec w) : Nat := ((List.range w).filter fun i => b.getLsbD i).length

/-- A bus converter fails (R67, R68): below three the alert goes to every die and the tray restricts its input power. -/
def execConverterFail (n : Nat) (s : State) : Host.Outcome State Fault Refusal :=
  if !s.tray.pow.converters.getLsbD n then .next s
  else
    let s1 := (s.modTray fun y => { y with pow := { y.pow with
      converters := y.pow.converters &&& ~~~BitVec.twoPow 4 n } }).logTray 0x1201 [BitVec.ofNat 8 n]
    if popCount s1.tray.pow.converters < 3 then
      .next ((s1.modTray fun y => { y with pow := { y.pow with convRestrict := true } }).forDies fun s d =>
        if (s.die d).rails.vio then s.assertAlert d 6 else s)
    else .next s1

/-- The phases in use after phase n fails (R69): the lowest working spare takes the place of one that was in use. -/
def activeAfter (work active : BitVec 26) (n : Nat) : BitVec 26 :=
  let a := active &&& ~~~BitVec.twoPow 26 n
  if !active.getLsbD n then a
  else match (List.range 26).find? fun i => work.getLsbD i && !a.getLsbD i with
    | some i => a ||| BitVec.twoPow 26 i
    | none => a

/-- A VCORE phase fails (R69): a spare takes its place. Below 22 working phases the limit falls, cause 8 asserts (R637) and the
die's share, that of the running epoch and one already sent for the next, is restricted by working phases / 22. -/
def execVcorePhaseFail (d : DieId) (n : Nat) (s : State) : Host.Outcome State Fault Refusal :=
  let r := (s.die d).rails
  if !r.phases.getLsbD n then .next s
  else
    let p := r.phases &&& ~~~BitVec.twoPow 26 n
    let c := popCount p
    let f (v : Nat) : Nat := v * c / min 22 (popCount r.phases)
    if c < 22 then
      .next ((s.modDie d fun x => { x with
        rails := { x.rails with phases := p, active := activeAfter p r.active n, ocLimit := 80 * c }
        op := { x.op with phaseFallAt := s.tray.now }
        pow := { x.pow with share := f x.pow.share, shareNext := x.pow.shareNext.map f } }).assertAlert d 8)
    else .next (s.modRails d fun r => { r with phases := p, active := activeAfter p r.active n })

/-! ### The alert (04.7) -/

/-- REG_ALERT_n asserts (R85). -/
def execRegAlertAssert (d : DieId) (cause : Nat) (s : State) : Host.Outcome State Fault Refusal :=
  .next (s.assertAlert d cause)

/-- The forced state ends 1 ms after the assertion (R86): F15 loop, divider off, F15 target; the issue cut ends unless
REG_ALERT_n is still asserted. -/
def execForcedStateEnd (d : DieId) (s : State) : Host.Outcome State Fault Refusal :=
  let x := s.die d
  if !x.op.hold then .next s
  else
    let s1 := (s.advanceTo (x.op.alertAt + 1000000)).modOp d fun o => { o with
      hold := false, div4 := false, issueCut := o.alert, f15Pending := x.computes && x.rails.avsGov }
    let s2 := if x.clk.curStep = 15 ∧ !x.clk.onBridge then s1 else s1.applyStep d 15
    let s3 := s2.moveVcore d (s2.targetAt d 15)
    .next (if (s3.die d).rails.avsWrite.isNone then s3.modOp d fun o => { o with f15Pending := false } else s3)

/-- REG_ALERT_n has stayed asserted for 10 ms (R87): compute halts, VSRAM holds retention (log 102, DEDUCED). Causes 6 to 8 are
events that end within 5 ms: they alone never halt the die (R637). -/
def execAlertHalt (d : DieId) (s : State) : Host.Outcome State Fault Refusal :=
  let x := s.die d
  if !x.op.alert ∨ x.op.alertHalt ∨ x.op.liveCauses % 64 = 0 then .next s
  else .next ((s.advanceTo (x.op.alertAt + 10000000)).modDie d fun x => { x with
    op := { x.op with alertHalt := true }, rails := { x.rails with retention := x.rails.vsram } })

/-- REG_ALERT_n deasserts (R86): no cause holds it any more. Cause 8 holds it for 1 ms from the fall; the action of cause 6 or 7
is in force with its assertion (R637). -/
def execRegAlertDeassert (d : DieId) (s : State) : Host.Outcome State Fault Refusal :=
  let o := (s.die d).op
  if !o.alert then .next s
  else
    let s1 := if bit o.liveCauses 8 then s.advanceTo (o.phaseFallAt + 1000000) else s
    .next (s1.modOp d fun o => { o with
      alert := false, liveCauses := 0, deassertAt := some s1.tray.now, issueCut := o.hold })

/-- The governor firmware acknowledges the alert (R88): never before the F15 target has settled. -/
def execAlertAck (d : DieId) (s : State) : Host.Outcome State Fault Refusal :=
  let o := (s.die d).op
  if o.awaitRelease ∧ !o.hold ∧ !o.f15Pending then .next (s.modOp d fun o => { o with acked := true }) else .next s

/-- The die is released from the alert (R88): deasserted for 100 µs and acknowledged (log 102, DEDUCED). SRAM stays in retention
where another layer holds it there (R14). -/
def execAlertRelease (d : DieId) (s : State) : Host.Outcome State Fault Refusal :=
  let o := (s.die d).op
  match o.deassertAt with
  | none => .next s
  | some t =>
    if !o.awaitRelease ∨ !o.acked ∨ o.alert ∨ o.hold then .next s
    else
      let s1 := (s.advanceTo (t + 100000)).modDie d fun x => { x with
        op := { x.op with awaitRelease := false, acked := false, alertCause := 0, deassertAt := none, alertHalt := false }
        rails := { x.rails with retention := x.rails.retention &&
          !(x.op.alertHalt && x.rails.vcore && !x.clk.refsLostHalt && x.heat.flowLoss == .none) } }
      .next (s1.releaseEmergency d)

/-! ### Ageing (04.6). Trims are in 0.25 mV: 5 mV is 20, 40 mV is 160. -/

/-- 168 h and 24 h in ns. -/
def ageDue : Ns := 604800000000000
def day : Ns := 86400000000000

/-- The trim after a measurement that requires `trim`, at `ceil` as the lowest step that meets timing at 40 mV: a rise of up
to 5 mV at once, a fall of 5 mV at the next epoch boundary when 10 mV or more are to spare (R81, R84). -/
def OpPoint.aged (o : OpPoint) (trim ceil : Nat) : OpPoint :=
  { o with
    ageRuntime := 0, overdue := false, overdueFrom := 0, saturated := decide (160 < trim)
    agedCeiling := if 160 < trim then ceil else 0
    trim := if o.trim < trim then min 160 (min (o.trim + 20) trim) else o.trim
    trimWas := if o.trim < trim then o.trim else o.trimWas
    trimFall := if o.trim < trim then none else if trim + 40 ≤ o.trim then some (max (o.trim - 20) trim) else o.trimFall }

/-- An ageing measurement in a benchmark segment, once it has fallen due (R81, R82, R84): `trim` is the required trim, `ceil` the lowest step
that meets timing at 40 mV. -/
def execAgeingMeasurement (d : DieId) (trim ceil : Nat) (s : State) : Host.Outcome State Fault Refusal :=
  let x := s.die d
  if x.nrg.bench.isEmpty ∨ !x.computes ∨ x.op.ageRuntime < ageDue then .next s
  else
    let s0 := (s.modDie d Die.spoil).modOp d fun o => o.aged trim ceil
    let s1 := if 160 < trim then s0.logDie d 0x2103 [BitVec.ofNat 8 ceil] else s0
    let s2 := if x.op.trim < trim then (s1.noStepCheck d (noStep d x.op.wide x.op.trim)).retarget d else s1
    .next (if trim + 40 ≤ x.op.trim then s2 else s2.ceilingCheck d)

/-- A measurement is overdue by 24 h, or by a further 24 h (R83): T rises by 5 mV, up to 40 mV. The spec does not say which clock
counts these hours: they are counted as the 168 h are, in runtime with VCORE on (log 107, DESIGN CHOICE). -/
def execAgeingOverdue (d : DieId) (s : State) : Host.Outcome State Fault Refusal :=
  let x := s.die d
  if !x.rails.vcore then .next s
  else
    let due := if x.op.overdue then x.op.overdueFrom + day else ageDue + day
    .next (((s.modOp d fun o => { o with
      overdue := true, overdueFrom := due, ageRuntime := max o.ageRuntime due, trim := min 160 (o.trim + 20)
      trimWas := o.trim
      }).noStepCheck d (noStep d x.op.wide x.op.trim)).retarget d |>.ceilingCheck d)

/-! ### Margin mode and VSRAM voltage -/

/-- A margin-mode write that the gate applies (R78, R79, R118). A lean write that waits behind a wide one is cancelled by a later
wide write, and kept (`keep`) when the wide one itself comes out of a holding pattern. -/
def State.marginApply (s : State) (d : DieId) (v : Nat) (keep : Bool := false) : GateResult :=
  let k : ObjKey := ⟨0x2100, 1, d.val⟩
  let x := s.die d
  if v = 1 ∧ x.pow.sealed ∧ x.pow.sealedStep < ceilingStep d true x.op.trim x.op.agedCeiling then
    .refused rcSealedConflict 0 s
  else if v = 1 ∧ x.svc.holding.isSome then
    .done ((s.setRaise k 1 0).modOp d fun o => { o with leanAfterWide := false }) 0 false
  else if v = 0 ∧ s.pendingRaise k = some (1, 0) then .done (s.modOp d fun o => { o with leanAfterWide := true }) 0 false
  else if v = 1 then
    let s1 := ((s.cancelRaise k).putSetting 0x2100 1 d.val 1).modOp d fun o => { o with leanAfterWide := keep && o.leanAfterWide }
    if x.op.wide then .done s1 0 true
    else if !x.rails.vcore then .done (s1.wideInForce d) 0 true
    else
      let s2 := (s1.modOp d fun o => { o with wideWaits := true }).retarget d
      let y := s2.die d
      if ceilingStep d true y.op.trim y.op.agedCeiling ≤ y.clk.curStep ∧ y.rails.avsWrite.isNone ∧ !y.op.hold ∧ y.rails.avsGov then
        .done (s2.wideInForce d) 0 true
      else .done s2 0 false
  else if x.op.wideWaits then
    .done ((s.putSetting 0x2100 1 d.val 0).modOp d fun o => { o with leanAfterWide := true }) 0 false
  else if x.op.wide then .done (s.setRaise k 0 (s.epoch d + 1)) (s.epoch d + 1) true
  else .done (s.putSetting 0x2100 1 d.val 0) 0 true

/-- A write of 0x2100:01 (R78 to R80). -/
def execMarginModeWrite (m : MasterId) (d : DieId) (v : Nat) (s : State) : Host.Outcome State Fault Refusal :=
  .next (s.gate m ⟨0x2100, 1, d.val⟩ (leBytes 1 v) fun s _ w => s.marginApply d (leNat w))

/-- VSRAM takes a new operating voltage, unless it holds retention. -/
def State.vsramSet (s : State) (d : DieId) (v : Nat) : State := s.modRails d fun r => { r with vsramMv := v }

/-- A write of 0x2100:0D (R91): a rise is in force before its acknowledgement, a fall waits for the boundary. -/
def execVsramVoltageWrite (m : MasterId) (d : DieId) (v : Nat) (s : State) : Host.Outcome State Fault Refusal :=
  .next (s.gate m ⟨0x2100, 0xD, d.val⟩ (leBytes 2 v) fun s _ w =>
    s.limitWrite ⟨0x2100, 0xD, d.val⟩ (leNat w) fun s => s.vsramSet d (leNat w))

end Sys2Proof.Machine
end

