-- ==== Sys2Proof/Machine/PowerOps.lean ====
section
/-! DEFINITION. Predicted power, budgets, demand, leveling and float used: the operations of chapters 05 and 06 that
the meanings share. Powers are in mW, energies in mW·ns. Quotients round down (log 7, DESIGN CHOICE). -/

namespace Sys2Proof.Machine
open Sys2Proof

/-! ### Predicted power (R92, R123) -/

/-- The lean target of a step with zero lead (R92). -/
def Die.leanV (x : Die) (d : DieId) (st : Nat) : Nat := vcoreTarget d st false x.op.trim 0

/-- Power at F0, lean, scaled to a step (R92): times f_s / f_F0 times (V_s / V_F0)². -/
def Die.scaleTo (x : Die) (d : DieId) (st p : Nat) : Nat :=
  let v := x.leanV d st
  let v0 := x.leanV d 0
  p * stepN st * v * v / (20 * v0 * v0)

/-- The contour's prediction of a segment at F0, lean, mW: class × 14 A in every group at V_F0. -/
def Die.contourF0 (x : Die) (d : DieId) (g : Segment) : Nat := g.classes.sum * 14000 * x.leanV d 0 / 4000

/-- The phase entry of a segment (R100). -/
def Power.entry (p : Power) (t hash phase : Nat) : Option PhaseEntry :=
  p.phases.find? fun e => e.owner == t && e.hash == hash && e.phase == phase

/-- Predicted mean and 99th-percentile power of a segment at F0, lean (R101, R111). -/
def Die.segF0 (x : Die) (d : DieId) (t hash : Nat) (g : Segment) : Nat × Nat :=
  match x.pow.entry t hash g.phase with
  | some e => (100 * e.mean, 100 * e.p99)
  | none => let c := x.contourF0 d g; (c, c * 5 / 4)

/-- Leakage of n tiles at the target of a step, mW (R213, R224). -/
def Die.leak (x : Die) (d : DieId) (st n : Nat) : Nat :=
  ((coeffsOf d x.nrg.coeffEpoch).getD 8 0) * Config.leakage d (x.leanV d st) x.nrg.attrT * n / (10240000 * 1000)

/-- Walk the segments from a plan cycle on: the sum of power × compute cycles over at most n compute cycles. -/
def segWalk (p : Segment → Nat) (clock : Nat) : List Segment → Nat → Nat
  | [], _ => 0
  | g :: gs, n =>
    let e := g.start + g.dur
    if e ≤ clock then segWalk p clock gs n
    else
      let c := (e - max clock g.start) * 16 / max 1 g.rate
      if n ≤ c then p g * n else p g * c + segWalk p clock gs (n - c)

/-- The mean power of a run over the coming epoch at a step, mW: (mean, 99th percentile), leakage of its tiles
included (R111, R123). -/
def Die.runPower (x : Die) (d : DieId) (st : Nat) (r : Run) : Nat × Nat :=
  let n := epochNs * stepN st / 10
  let m := segWalk (fun g => (x.segF0 d r.tenant r.plan.hash g).1) r.clock r.plan.segs n / n
  let q := segWalk (fun g => (x.segF0 d r.tenant r.plan.hash g).2) r.clock r.plan.segs n / n
  let l := x.leak d st (r.plan.w * r.plan.h)
  (x.scaleTo d st m + l, x.scaleTo d st q + l)

/-- An estimate with the uplift in force (R107, R222). -/
def Die.uplifted (x : Die) (p : Nat) : Nat := p * (10000 + (if x.pow.sealed then 800 else x.nrg.upliftInForce)) / 10000

/-! ### Budgets (R105, R109 to R115) -/

/-- W_e, the glacier window in epochs (R105). -/
def State.glacierEpochs (s : State) (d : DieId) : Nat := roundDiv (s.dset d 0x2000 2 * 1000000) epochNs

/-- P_g (R109); the running epoch counts as the newest when `run` is set. -/
def State.glacierAllowance (s : State) (d : DieId) (run : Bool) : Int :=
  let x := s.die d
  let w := s.glacierEpochs d
  let es := if run then x.pow.epochEnergy :: x.pow.epochs else x.pow.epochs
  ((s.dset d 0x2000 1 * w * epochNs : Nat) - ((es.take (w - 1)).sum : Nat)) / (epochNs : Int)

/-- Reservation in mW and quota of a tenant (R114); none where it is not admitted. -/
def Power.sealedEntry (p : Power) (t : Nat) : Option (Nat × Nat) :=
  match p.sealedTable.find? fun e => e.1 == t with
  | some (_, w, q) => if w = 0 then none else some (1000 * w, q)
  | none => none

/-- The issue rate that a tenant's quota allows: 16 in shared mode (R115, R120). -/
def Die.quota (x : Die) (t : Nat) : Nat := if x.pow.sealed then ((x.pow.sealedEntry t).map Prod.snd).getD 16 else 16

/-- R_oh (R110). -/
def Die.overheadReservation (x : Die) (d : DieId) : Nat :=
  if x.pow.sealed then Config.sealedOverhead d x.pow.sealedStep else x.pow.overhead * 11 / 10 + 25000

/-- C_s, the sealed commitment: the overhead at the sealed step and the reservations of the resident contexts (R114) (log 112, DESIGN CHOICE). -/
def Die.commitment (x : Die) (d : DieId) : Nat :=
  Config.sealedOverhead d x.pow.sealedStep +
    (x.til.slots.filterMap fun o => o.bind fun c => (x.pow.sealedEntry c.1).map Prod.fst).sum

/-- Σ C_s / 0.92 + 57 W over the sealed dies, with an addition (R114). -/
def State.sealedTray (s : State) (extra : Nat) : Nat :=
  ceilDiv ((((List.finRange 8).filter fun d => (s.die d).pow.sealed).map fun d => (s.die d).commitment d).sum * 100
    + extra * 100) 92 + 57000

/-- B and C of die d (R109, R110): a glacier allowance below R_oh leaves R_oh, and C is 0 (log 110, DESIGN CHOICE). -/
def State.budgetOf (s : State) (d : DieId) : Nat × Nat × Nat :=
  let x := s.die d
  let roh := x.overheadReservation d
  let pg := s.glacierAllowance d false
  let b := if pg < roh then roh else min pg.toNat (min x.pow.share 1300000)
  (roh, b, b - roh)

/-- A die with the budgets of the epoch that starts (R109 to R115), at the step now applied, from its overhead, its budget,
what its running slots share and its Glacier allowance; each resident slot keeps what it gets; on a frozen die every slot counts as not running (05.9). -/
def Die.withBudgets (x : Die) (d : DieId) (roh b c : Nat) (pg : Int) : Die :=
  let runs := x.til.runs
  let asleep := x.frost.state == .frozen || x.frost.state == .thawing
  let busy (o : Option (Nat × Nat)) : Bool := match o with
    | some k => !asleep && runs.any fun r => r.tenant == k.1 && r.handle == k.2
    | none => true
  let idle := (x.til.slots.filter fun o => !busy o).length
  let pool := if idle = 0 ∨ x.pow.sealed then 0 else c / 10
  let each := if idle = 0 then 0 else pool / idle
  let rest := c - pool
  let needs := runs.map fun r => (x.runPower d x.clk.curStep r).1
  let total := needs.sum
  let bud (r : Run) (n : Nat) : Nat :=
    if x.pow.sealed then ((x.pow.sealedEntry r.tenant).map Prod.fst).getD 0
    else if asleep then each
    else if total = 0 then rest / max 1 runs.length else rest * n / total
  let bs := List.zipWith bud runs needs
  let sum := if x.pow.sealed then x.commitment d - roh else if asleep then pool else bs.sum + pool
  let sb (lim v : Nat) : Nat := (lim - roh) * v / max 1 sum
  let runs' := List.zipWith (fun (r : Run) v =>
    { r with budget := v, s50 := sb 1600000 v, s2 := sb 1300000 v, eEpoch := 0, cut := 0, limited := false }) runs bs
  let slot (o : Option (Nat × Nat)) : SlotBudget := match o with
    | none => {}
    | some k =>
      let v := match runs'.find? fun r => r.tenant == k.1 && r.handle == k.2 with
        | some r => r.budget
        | none => each
      { budget := v, s50 := sb 1600000 v, s2 := sb 1300000 v }
  { x with
    pow := { x.pow with
      pg := pg.toNat, budget := b, roh := roh, poolShare := each, slots := x.til.slots.map slot
      glacierBinds := decide (b = pg.toNat), shareBinds := decide (b = x.pow.share), surgeCut := false, deviated := false
      cutTime := 0 }
    til := { x.til with runs := runs' } }

/-- Set budgets for the epoch that starts (R109 to R115). -/
def State.setBudgets (s : State) (d : DieId) : State :=
  let o := s.budgetOf d
  let pg := s.glacierAllowance d false
  s.modDie d fun x => x.withBudgets d o.1 o.2.1 o.2.2 pg

/-- A die's budget after its loans of this epoch (R206, R208). -/
def Die.afterLoans (x : Die) (b : Nat) (pg : Int) : Nat :=
  let b1 := b - (x.mer.lent.map Loan.amount).sum
  max b1 (min (b1 + x.mer.borrowed) (min pg.toNat 1300000))

/-- A die with every budget and every surge budget scaled by one factor after a limit changed within the epoch (R128, R129);
what it has lent and borrowed stands. -/
def Die.scaled (x : Die) (roh b : Nat) (pg : Int) : Die :=
  let b := x.afterLoans b pg
  let old := x.pow.budget - x.pow.roh
  let f (v : Nat) : Nat := if old = 0 then 0 else v * (b - roh) / old
  { x with
    pow := { x.pow with
      pg := pg.toNat, budget := b, roh := roh, poolShare := f x.pow.poolShare
      slots := x.pow.slots.map fun v => { v with budget := f v.budget, s50 := f v.s50, s2 := f v.s2 } }
    til := { x.til with runs := x.til.runs.map fun r =>
      { r with budget := f r.budget, s50 := f r.s50, s2 := f r.s2 } } }

/-- The highest rate at which the three bounds of R120 hold, among 1 to `top`; 1 when none does. -/
def rateFor (r : Run) (est avg50 avg2 rem top : Nat) : Nat :=
  let ok (q : Nat) : Bool :=
    let p := est * q / max 1 r.rate
    decide (r.eEpoch + p * rem ≤ r.budget * epochNs) && decide ((49 * avg50 + p) / 50 ≤ r.s50) &&
      decide ((1999 * avg2 + p) / 2000 ≤ r.s2)
  (((List.range top).map fun i => top - i).find? ok).getD 1

/-- R120 at once on the figures of the last tick: each rate falls to one that its run's budgets allow (R128). -/
def Die.limitRates (x : Die) (rem : Nat) : Die :=
  { x with til := { x.til with runs := x.til.runs.map fun r =>
    { r with rate := min r.rate (rateFor r r.estMw r.avg50 r.avg2 rem r.rate) } } }

/-- Scale every budget of a die after a limit changed within the epoch, and apply R120 at once (R128). -/
def State.scaleBudgets (s : State) (d : DieId) : State :=
  let o := s.budgetOf d
  let pg := s.glacierAllowance d false
  s.modDie d fun x => (x.scaled o.1 o.2.1 pg).limitRates (epochNs - s.inEpoch d)

/-! ### Demand and leveling (R123, R125, R126) -/

/-- The halted or frozen die draws what it measures (Table 05.5, R179). -/
def Die.resting (x : Die) : Bool := x.svc.state == .frost || x.svc.state == .flowHalt

/-- A run as it stands at the next boundary, `rem` ns from now at the current step and rate; none when its plan ends before it. -/
def Run.atBoundary (r : Run) (st rem : Nat) : Option Run :=
  let c := r.clock + rem * stepN st * r.rate / 160
  if c < ((r.plan.segs.getLast?).map fun g => g.start + g.dur).getD 0 then some { r with clock := c } else none

/-- The contexts that will run in the next epoch, as far as the die can know: those whose plan goes on past the boundary, and those
whose RUN_PLAN waits, from its start (R123) (log 115, DEDUCED). -/
def State.nextRuns (s : State) (d : DieId) : List Run :=
  let x := s.die d
  let rem := epochNs - s.inEpoch d
  let on := x.til.runs.filterMap fun r => r.atBoundary x.clk.curStep rem
  let starts := x.til.waiting.filterMap fun k =>
    match s.headCmd k.1 k.2.1 k.2.2, s.ctx? k.1 k.2.1 with
    | some c, some y => (KV.get? y.plans (c.byte 8)).map fun p =>
      { tenant := k.1, handle := k.2.1, queue := k.2.2, slot := c.byte 8, cmdNo := c.idx, plan := p
        next := [], barCount := [], barSent := [] }
    | _, _ => none
  on ++ starts

/-- d(s) and d99(s) of a die for the next epoch (R123); a die that does not run has none. -/
def State.demandAt (s : State) (d : DieId) (st : Nat) : Nat × Nat :=
  let x := s.die d
  if x.resting then (x.pow.overhead, x.pow.overhead)
  else if x.svc.state ≠ .running then (0, 0)
  else
    let ps := (s.nextRuns d).map fun r => x.runPower d st r
    let roh := x.overheadReservation d
    (roh + x.uplifted (ps.map Prod.fst).sum, roh + x.uplifted (ps.map Prod.snd).sum)

/-- One round of the division of R126: what is left goes to the dies not at the bound, in proportion to their demand. -/
def levelRound (ds : List Nat) (left : Nat) (shares : List Nat) : List Nat × Nat :=
  let open_ := List.zipWith (fun d sh => if sh < 1300000 then d else 0) ds shares
  let tot := open_.sum
  if tot = 0 then (shares, left)
  else
    let new := List.zipWith (fun o sh => if o = 0 then sh else min 1300000 (sh + left * o / tot)) open_ shares
    (new, left - (new.sum - shares.sum))

/-- Shares in proportion to demand, none above 1,300 W (R126). -/
def levelShares (ds : List Nat) (left : Nat) : List Nat :=
  ((List.range 8).foldl (fun (a : List Nat × Nat) _ => levelRound ds a.2 a.1) (ds.map fun _ => 0, left)).1

/-- B_rail (R125, R68). -/
def State.railBudgetOf (s : State) : Nat :=
  let p := s.tray.pow
  let cap := if p.convRestrict then min p.effCap (3000000 * popCount p.converters) else p.effCap
  (cap - p.loadsPower) * 92 / 100 - p.epsilon

/-- Σ d_i(s) with each sealed die at its C_s (R126). -/
def State.trayDemand (s : State) (st : Nat) : Nat :=
  ((List.finRange 8).map fun d =>
    let x := s.die d
    if x.pow.sealed then x.commitment d else x.pow.demand.getD st 0).sum

/-- The tray-sustainable step (R126). -/
def State.trayStepOf (s : State) : Nat :=
  ((List.range 16).find? fun st => decide (s.trayDemand st ≤ s.railBudgetOf)).getD 15

/-- The share of every die by its demand at the step that `step` names for it (R126, R69, R179): a halted die gets its halt power,
other sealed and resting dies what they need, the rest is leveled. -/
def State.sharesBy (s : State) (step : DieId → Nat) : List Nat :=
  let fixed (d : DieId) : Option Nat :=
    let x := s.die d
    if x.svc.heldOff then some 0
    else if x.svc.state = .flowHalt then some x.pow.overhead
    else if x.pow.sealed then some (x.commitment d)
    else if x.resting then some x.pow.overhead
    else none
  let used := ((List.finRange 8).map fun d => (fixed d).getD 0).sum
  let ds := (List.finRange 8).map fun d => if (fixed d).isSome then 0 else (s.die d).pow.demand.getD (step d) 0
  let lev := levelShares ds (s.railBudgetOf - used)
  (List.finRange 8).map fun d =>
    let v := (fixed d).getD (lev.getD d.val 0)
    let c := popCount (s.die d).rails.phases
    if c < 22 then v * c / 22 else v

/-- The share of every die at one step (R126). -/
def State.sharesAt (s : State) (st : Nat) : List Nat := s.sharesBy fun _ => st

/-- Shares for the rest of the epoch after the effective tray cap fell (R129): every die's, at its current step, applied as in
R128 (log 110, DESIGN CHOICE). -/
def State.cutShares (s : State) : State :=
  let sh := s.sharesBy fun d => (s.die d).clk.curStep
  s.forDies fun s d =>
    (s.modDie d fun x => { x with pow := { x.pow with share := sh.getD d.val 0 } }).scaleBudgets d

/-- The die maximum lies at or above throttle start minus the near band (R155, R164). -/
def Die.nearBand (x : Die) (ts near : Nat) : Bool :=
  match x.heat.dieMax with
  | some m => decide ((ts : Int) - near ≤ m)
  | none => false

/-! ### Float used (R142 to R146) -/

/-- The die float, none without a running context (R142). -/
def Die.dieFloat (x : Die) : Option Nat :=
  match x.til.runs.map fun r => r.plan.floatNs with
  | [] => none
  | f :: fs => some (fs.foldl min f)

/-- U: stretch debt and cut time (R142). -/
def Die.floatUsed (x : Die) : Nat := x.droop.debtEpoch / debtUnit + x.pow.cutTime

/-- Send a proposal of die d, first or replaced (R190): to its own records when it is the root, else one block up. -/
def State.propose (s : State) (d : DieId) (code : Nat) (urgent revised : Bool) : State :=
  let id := s.identity d
  let s1 := s.modDie d fun x => { x with mer := { x.mer.hear id code with
    proposal := some code, revision := if revised then some code else x.mer.revision } }
  s1.sendUp d 1 0x01 id (proposalBody code (s.epoch d) urgent revised (s1.die d).mer.heard.length)

/-! ### Lending: what a die asks for (R206) -/

/-- The conditions of R206 on a die. -/
def State.lends (s : State) (d : DieId) : Bool :=
  let x := s.die d
  s.dset d 0x2500 0x10 == 1 && !x.pow.sealed && x.svc.state == .running && x.frost.state == .running &&
    !x.mer.emergency && decide (20000 ≤ s.inEpoch d ∧ s.inEpoch d ≤ 1000000)

/-- The projected power of a die for the rest of the epoch: its overhead and the estimates of its runs (R206). -/
def Die.projected (x : Die) : Nat := x.pow.overhead + (x.til.runs.map Run.estMw).sum

/-- What the limited runs of a die lack for the rest of the epoch at full rate, mW (R206). -/
def Die.lack (x : Die) (rem : Nat) : Nat :=
  (x.til.runs.map fun r =>
    if !r.limited then 0
    else ceilDiv (r.eEpoch + r.estMw * 16 / max 1 r.rate * rem) epochNs - r.budget).sum

/-- Body of LEND, GRANT, COMMIT and RELEASE (Table 12.13). -/
def loanBody (amount epoch : Nat) : List Byte := leBytes 4 amount ++ leBytes 8 epoch

/-- A die whose runs are limited asks the next die it has not asked in this epoch (Table 08.4 steps 1 and 5), for no more
than min(P_g, 1,300 W) leaves room for (R208). -/
def State.askLend (s : State) (d : DieId) : State :=
  let x := s.die d
  let want := min (x.lack (epochNs - s.inEpoch d)) (min x.pow.pg 1300000 - x.pow.budget)
  if !s.lends d ∨ x.mer.lendOpen.isSome ∨ want = 0 then s
  else match (List.range 8).find? fun e => e != d.val && !x.mer.asked.contains e with
    | none => s
    | some e => (s.modMer d fun m => { m with lendOpen := some (e, want, s.tray.now), asked := m.asked ++ [e] }).sendRecord d
        0x18 (s.identity (dieOf e)) (loanBody want (s.epoch d))

end Sys2Proof.Machine
end

