-- ==== Sys2Proof/Machine/Contacts.lean ====
section
/-! DEFINITION. Contacts, bus and tray enable (chapter 02). -/

namespace Sys2Proof.Machine
open Sys2Proof

/-- The bus lies within 40 to 60 V (R19). -/
def busInRange (mv : Nat) : Bool := decide (40000 ≤ mv ∧ mv ≤ 60000)

/-- TRAY_EN_n asserts (R18, R19): the slot number is latched, and bus power counts from now when the bus is in range. -/
def execTrayEnAssert (pins busMv : Nat) (s : State) : Host.Outcome State Fault Refusal :=
  if s.tray.pow.trayEn then .next s
  else
    let s1 := (s.modTray fun y => { y with pow := { y.pow with trayEn := true, slotPins := pins, busMv := busMv } }).coldReset
      true
    .next (s1.modTray fun y => { y with pow := { y.pow with
      busFrom := if busInRange busMv then some y.now else none } })

/-- The slot contacts change (R18): the latched number stays, the change goes to the moraine. -/
def execSlotIdChange (pins : Nat) (s : State) : Host.Outcome State Fault Refusal :=
  if pins = s.tray.pow.slotPins then .next s
  else
    let s1 := s.modTray fun y => { y with pow := { y.pow with slotPins := pins } }
    .next (if s.tray.pow.trayEn then s1.logTray 0x1202 [BitVec.ofNat 8 pins] else s1)

/-- The hold-up begins (R558): the charger stops, the event is counted, Frost is requested on every die, and every
function is told. -/
def State.startHoldup (s : State) : State :=
  let s1 := s.modTray fun y => { y with hold := { y.hold with
    onHoldup := true, charging := false, current := 0, events := satAdd 32 y.hold.events 1,
    holdAt := s.accNow, converter := true } }
  (s1.forDies fun s d => s.requestFrost d .holdup).noticeSupply 1

/-- The bus is declared lost (R20). With hold-up available and the tray ready the tray goes on from the module (R558);
otherwise every rail goes off and the tray powers down (R570, 19.7). An over-voltage disconnects the input, also of a bus
that is lost already. -/
def execBusLoss (cause : BusLossCause) (s : State) : Host.Outcome State Fault Refusal :=
  if !s.tray.pow.trayEn then .next s
  else if s.tray.pow.busLost then
    .next (s.modTray fun y => { y with pow := { y.pow with
      inputOff := y.pow.inputOff || decide (cause = .excess), busBadAt := y.now } })
  else
    let s1 := (s.modTray fun y => { y with fw := y.fw.abandon }).logTray 0x1203 (leBytes 2 (s.tray.pow.busMv / 10))
    let s2 := if s1.tray.fw.trayReady ∧ s1.tray.hold.available then s1.startHoldup else s1.trayOff
    .next (s2.modTray fun y => { y with pow := { y.pow with
      busLost := true, inputOff := decide (cause = .excess), busFrom := none, busBadAt := y.now } })

/-- The bus is back once it has stayed within 40 to 60 V for 100 ms (R20), so bus power counts from 100 ms before (R19). On
hold-up: the hold timer stops, a save in progress ends invalid (R564), the dies that hold-up froze thaw (R560). After a
power-down the tray starts again (R563) (log 250, DEDUCED). -/
def execBusBack (busMv : Nat) (s : State) : Host.Outcome State Fault Refusal :=
  if !s.tray.pow.trayEn ∨ !s.tray.pow.busLost ∨ !busInRange busMv then .next s
  else
    let s1 := ((s.advanceTo (s.tray.pow.busBadAt + 100000000)).modTray fun y => { y with pow := { y.pow with
      busLost := false, inputOff := false, busMv := busMv, busFrom := some (y.now - 100000000) } }).logTray 0x1204
        (leBytes 2 (busMv / 10))
    if s1.tray.hold.onHoldup then
      let s2 := s1.abandonSave.modTray fun y => { y with hold := { y.hold with
        onHoldup := false, converter := false
        charging := y.hold.present && y.hold.idRead && !y.hold.faulted } }
      let s3 := s2.forDies fun s d => if (s.die d).holdupFrozen then s.thawTrigger d else s
      .next (s3.noticeSupply 2)
    else if s1.tray.fw.running then .next s1
    else .next ((s1.coldReset true).modTray fun y => { y with pow := { y.pow with busFrom := some y.now } })

/-- TRAY_EN_n deasserts (R35): every die rail goes off, the vault is not written, a save in progress is invalid. -/
def execTrayEnDeassert (s : State) : Host.Outcome State Fault Refusal :=
  if !s.tray.pow.trayEn then .next s
  else .next (s.abandonSave.trayOff.modTray fun y => { y with pow := { y.pow with
    trayEn := false, busFrom := none, inputMa := 0, busLost := false, inputOff := false } })

/-- The inlet ceiling in mW at a temperature in 1/16 °C (R29). -/
def inletCeiling (t : Int) : Nat :=
  if t ≤ 640 then 8800000 else if 720 ≤ t then 7200000 else 8800000 - 20000 * (t - 640).toNat

/-- The effective tray cap in mW (R29, R183): the least of the setting, 200 A times the bus voltage, and the inlet
ceiling. -/
def State.capNow (s : State) : Nat :=
  min (s.setting 0x1200 1 0xF) (min (200 * s.tray.pow.busMv)
    (inletCeiling (if s.tray.cool.inletFail then 720 else s.tray.pow.inletT)))

/-- Put a new effective cap in force: a fall at once, a rise at the next epoch boundary (R31). -/
def State.updateCap (s : State) : State :=
  let c := s.capNow
  s.modTray fun y => { y with pow :=
    if c ≤ y.pow.effCap then { y.pow with effCap := c, effCapNext := none } else { y.pow with effCapNext := some c } }

/-- The effective cap formed anew from what is measured: when it falls, every die gets a new share for the rest of the epoch
(R31, R129). -/
def State.recap (s : State) : State :=
  let t := s.updateCap
  if t.tray.pow.effCap < s.tray.pow.effCap then t.cutShares else t

/-- The mean of the measurements of the last 10 ms, rounded down (R31; log 7, DESIGN CHOICE). -/
def meanOf (l : List Int) : Int := l.sum / max 1 l.length

/-- One measurement of bus voltage and inlet enters the 10 ms averages; bus power begins with the first one in range, and a
lost bus outside the range stays lost for 100 ms more (R19, R20, R31). -/
def TrayPower.measure (p : TrayPower) (now : Ns) (busMv : Nat) (inlet : Int) : TrayPower :=
  let bs := (busMv :: p.busSamples).take 10
  let is := (inlet :: p.inletSamples).take 10
  { p with
    busSamples := bs, inletSamples := is, busMv := bs.sum / max 1 bs.length, inletT := meanOf is
    busBadAt := if p.busLost ∧ !busInRange busMv then now else p.busBadAt
    busFrom := if p.busFrom.isNone ∧ p.trayEn ∧ !p.busLost ∧ busInRange busMv then some now else p.busFrom }

/-- The 1 ms measurement of bus voltage and inlet (R31): the effective cap is formed anew from the averages; when it falls,
every die gets a new share for the rest of the epoch (R129). -/
def execEffectiveTrayCapUpdate (busMv : Nat) (inlet : Int) (s : State) : Host.Outcome State Fault Refusal :=
  .next (s.modTray fun y => { y with pow := y.pow.measure y.now busMv inlet }).recap

end Sys2Proof.Machine
end

