-- ==== Sys2Proof/Machine/Caps.lean ====
section
/-! DEFINITION. Contours, budgets, leveling, proposals and caps (chapter 05). -/

namespace Sys2Proof.Machine
open Sys2Proof

/-- Predicted VCORE current of a segment at the current step, mA (R92, R101): its power by its phase entry or its contour at the
lean target of the step. -/
def Die.segMa (x : Die) (d : DieId) (t hash : Nat) (g : Segment) : Nat :=
  x.scaleTo d x.clk.curStep (x.segF0 d t hash g).1 * 4000 / max 1 (x.leanV d x.clk.curStep)

/-- Predicted VCORE current of a die over all running contexts, with segment `seg` of run `r` started when one is named (R96). -/
def Die.dieMa (x : Die) (d : DieId) (start : Option (Run × Nat)) : Nat :=
  (x.til.runs.map fun r =>
    let i := match start with
      | some (q, seg) => if r.is q.tenant q.handle q.queue then seg else r.seg
      | none => r.seg
    match r.plan.segs[i]? with
    | some g => x.segMa d r.tenant r.plan.hash g
    | none => 0).sum

/-- The lead of a segment whose start raises the current by `di` mA (R96): its learned required margin with at least 16
executions or a deviation (R102), else 5 mV for each started 56 A, at most 30 mV. -/
def Die.segLead (x : Die) (t hash : Nat) (g : Segment) (di : Nat) : Nat :=
  let contour := min 120 (ceilDiv di 56000 * 20)
  match x.pow.entry t hash g.phase with
  | some e => if 16 ≤ e.execs ∨ e.learned then min 120 (4 * e.margin) else contour
  | none => contour

/-- Segment `seg` of a running context enters the lookahead window (R95 to R98, R140): with a rise of the die's predicted current
the lead becomes the larger of its value and the segment's, and an armed window opens; it closes 2 µs after the segment has
started. A plan cycle takes at least one compute cycle, so a start is presented when its plan cycles fit the window. -/
def execSegmentLookahead (d : DieId) (t h seg : Nat) (s : State) : Host.Outcome State Fault Refusal :=
  let x := s.die d
  match x.til.runs.find? fun r => r.tenant == t && r.handle == h with
  | none => .next s
  | some r => match r.plan.segs[seg]? with
    | none => .next s
    | some g =>
      let di : Int := (x.dieMa d (some (r, seg)) : Int) - x.dieMa d none
      if di ≤ 0 ∨ g.start < r.clock ∨ s.dset d 0x2000 7 * 100 * stepN x.clk.curStep < g.start - r.clock then .next s
      else
        let lead := x.segLead t r.plan.hash g di.toNat
        let s1 := s.modDie d fun x => { x with
          op := { x.op with lead := if x.op.wide then 0 else max x.op.lead lead
                            leadOwed := x.op.leadOwed ++ [(t, h, seg, lead)] }
          droop := { x.droop with armed := x.droop.armed ++
            [⟨some (t, h, seg), if seg ≤ r.seg then some (s.tray.now + 2000) else none⟩] } }
        .next (if (s1.die d).op.lead = x.op.lead then s1 else s1.retarget d)

/-- The most recently used entry goes first; beyond 4,096 the last is evicted (R101). The spec does not say what uses an entry: the
end of an execution does, a lookup for lead or prediction does not (log 116, DESIGN CHOICE). -/
def Power.useEntry (p : Power) (e : PhaseEntry) : Power :=
  let rest := p.phases.filter fun f => !(f.owner == e.owner && f.hash == e.hash && f.phase == e.phase)
  let all := e :: rest
  { p with phases := all.take 4096, phaseEvictions := p.phaseEvictions + (all.length - 4096) }

/-- Power at the current step, mW, converted to F0, lean, in 0.1 W: the inverse of R92's scaling (R100). -/
def Die.toF0 (x : Die) (d : DieId) (p : Nat) : Nat :=
  let v := x.leanV d x.clk.curStep
  let v0 := x.leanV d 0
  p * 20 * v0 * v0 / (100 * max 1 (stepN x.clk.curStep * v * v))

/-- The 99th percentile of a list of samples: the least value that at least 99 % of them do not exceed. -/
def percentile99 (l : List Nat) : Nat := (sortBy id l).getD (ceilDiv (99 * l.length) 100 - 1) 0

/-- The update of an entry at the end of an execution (R100): `mean` and `p99` of the execution at F0, lean, in 0.1 W. -/
def PhaseEntry.update (e : PhaseEntry) (mean p99 dur : Nat) (tripped dev : Bool) : PhaseEntry :=
  let clean := if tripped then 0 else e.clean + 1
  { e with
    mean := (7 * e.mean + mean) / 8
    p99 := if e.p99 < p99 then p99 else e.p99 - (e.p99 - p99) / 64
    margin := if tripped then min 30 (e.margin + 5) else if clean = 16 then e.margin - 1 else e.margin
    clean := if clean = 16 then 0 else clean
    duration := dur, execs := satAdd 16 e.execs 1, learned := e.learned || dev }

/-- An execution of a segment ends (R97, R100 to R102): `watts` is the estimator's power of the context in each of its
microseconds, mW; a trip in its armed window counts as one in its first 2 µs (R140). The first execution creates the entry with
the contour's figures and counts as its first, without the update of R100: the spec does not say whether it applies then
(log 116, DESIGN CHOICE). The next segment starts, and its armed window closes 2 µs later. -/
def execSegmentEnd (d : DieId) (t h seg : Nat) (watts : List Nat) (s : State) : Host.Outcome State Fault Refusal :=
  let x := s.die d
  match x.til.runs.find? fun r => r.tenant == t && r.handle == h with
  | none => .next s
  | some r => match r.plan.segs[seg]? with
    | none => .next s
    | some g =>
      let pred := x.contourF0 d g / 100
      let fs := watts.map fun p => x.toF0 d p
      let mean := if fs.isEmpty then pred else fs.sum / fs.length
      let p99 := if fs.isEmpty then pred * 5 / 4 else percentile99 fs
      let dev := decide (pred * 5 < mean * 4)
      let dur := s.tray.now - r.segFrom
      let tripped := x.droop.attributed.contains (t, h, seg)
      let old := x.pow.entry t r.plan.hash g.phase
      let e : PhaseEntry := match old with
        | some e => e.update mean p99 dur tripped dev
        | none =>
          { owner := t, hash := r.plan.hash, phase := g.phase, mean := pred, p99 := pred * 5 / 4
            margin := ((x.op.leadOwed.find? fun l => l.1 == t && l.2.1 == h && l.2.2.1 == seg).map fun l => l.2.2.2 / 4).getD 0
            duration := dur, execs := 1, learned := dev }
      let starts (a : Armed) : Armed :=
        if a.seg = some (t, h, seg + 1) ∧ a.close.isNone then { a with close := some (s.tray.now + 2000) } else a
      let s1 := s.modDie d fun x => { x with
        pow := { x.pow.useEntry e with
          phaseHits := x.pow.phaseHits + b2n old.isSome, phaseMisses := x.pow.phaseMisses + b2n old.isNone
          deviations := satAdd 32 x.pow.deviations (b2n dev), deviated := x.pow.deviated || dev }
        droop := { x.droop with
          armed := x.droop.armed.map starts, attributed := x.droop.attributed.filter fun k => k != (t, h, seg) }
        op := { x.op with leadOwed := x.op.leadOwed.filter fun l => !(l.1 == t && l.2.1 == h && l.2.2.1 == seg) } }
      .next ((s1.modRun d t h r.queue fun r => { r with seg := seg + 1, segFrom := s.tray.now }).leadFall d)

/-- The time that a running plan loses in one microsecond, ns at the current step (R198): its segment's ceiling at the group's step
against what the issue cut, the alert divider, a lower own step under a local emergency, or halted compute leave of its own
rate `e`. -/
def Die.lostTick (x : Die) (ceil e : Nat) : Nat :=
  let f := if x.computes then min e x.issueCap else 0
  let nc := stepN x.clk.curStep
  let ng := if x.mer.emergency then max nc (stepN x.mer.groupStep) else nc
  let div := if x.op.div4 then 4 else 1
  1000 * (ng * ceil * div - nc * f) / max 1 (nc * ceil * div)

/-- One µs of issue-rate control of a run (R119 to R122); cycles lost to the thermal rate are cut time too (R162, R163), those
lost to an emergency are lateness alone (R198). In a holding pattern the rate stands (R580); a held plan loses nothing to its
rate. -/
def Run.rateTick (r : Run) (x : Die) (rem est avg50 avg2 : Nat) : Run :=
  let ceil := max 1 ((r.plan.segs[r.seg]?.map Segment.rate).getD 16)
  let top := max 1 (min ceil (x.quota r.tenant))
  let cur := max 1 (min r.rate top)
  let r1 := { r with rate := cur, eEpoch := r.eEpoch + est * 1000, estMw := est, avg50 := avg50, avg2 := avg2 }
  let here := rateFor r1 est avg50 avg2 rem cur
  let up := rateFor r1 est avg50 avg2 rem (min top (cur + 1))
  let new := if x.svc.holding.isSome then cur else if here < cur then here else up
  let e := min new x.heat.h
  let runs := r.holding.isNone && !r.halted
  let lost := if runs then 1000 * (ceil - e) / ceil else 0
  let late := if runs then max lost (x.lostTick ceil e) else 0
  { r1 with rate := new, cut := r1.cut + lost, late := r1.late + late,
            limited := decide (new < top) && decide (r.budget * epochNs < r1.eEpoch + est * top / max 1 cur * rem) }

/-- 512 µs: the die sends its demand curve (Table 05.5, R123). -/
def execDemandCurveSend (d : DieId) (s : State) : Host.Outcome State Fault Refusal :=
  let s := s.advanceIn d 512000
  let ps := (List.range 16).map fun st => s.demandAt d st
  .next (s.modDie d fun x => { x with pow := { x.pow with demand := ps.map Prod.fst, demand99 := ps.map Prod.snd } })

/-- The die's own sustainable step (R123). P_g within the epoch counts the energy of the running epoch as the newest one: the spec
forms P_g at a boundary only (log 117, DESIGN CHOICE). Where no step meets every condition it is F15: the spec names none
(log 118, DESIGN CHOICE). -/
def State.ownStep (s : State) (d : DieId) : Nat :=
  let x := s.die d
  let pg := s.glacierAllowance d true
  ((List.range 16).find? fun st =>
    decide (s.ceiling d ≤ st) && decide (x.clk.curStep ≤ st + 1) &&
      decide (((x.pow.demand.getD st 0 : Nat) : Int) ≤ min pg 1300000) && decide (x.pow.demand99.getD st 0 ≤ 1300000)).getD 15

/-- 600 µs: the tray controller sends the tray-sustainable step and the shares (R125, R126), from the measured power of
loads and charger and the bus power of the last epoch. After 650 µs they come too late for this epoch (R127). -/
def execSharesSend (loads bus : Nat) (s : State) : Host.Outcome State Fault Refusal :=
  if s.tray.fw.handoff ∨ s.tray.fw.restarting then .next s else
  let s := s.advanceIn s.timeDie 600000
  let late := decide (650000 < s.inEpoch s.timeDie)
  let s1 := s.modTray fun y => { y with pow := { y.pow with
    busPower := bus, loadsPower := loads
    epsilon := ((y.pow.epsilon : Int) + ((bus : Int) - y.pow.effCap) * 92 / 200).toNat } }
  let st := s1.trayStepOf
  let sh := s1.sharesAt st
  let own := (List.finRange 8).any fun d => (s1.die d).svc.state == .running && decide (s1.ownStep d < st)
  let s2 := s1.modTray fun y => { y with pow := { y.pow with
    railBudget := s1.railBudgetOf, trayStep := st, levelActive := true, capSetsStep := own
    sharesLate := late && y.pow.sharesLate } }
  if late then .next s2
  else .next (s2.forDies fun s d => s.modDie d fun x => { x with pow := { x.pow with
    shareNext := some (sh.getD d.val 0), trayStep := st, sharesLate := false } })

/-- 650 µs without shares (R127): every die to which none have come keeps its share and proposes no higher than its current step
(log 11, DESIGN CHOICE). -/
def execSharesLate (s : State) : Host.Outcome State Fault Refusal :=
  let miss (x : Die) : Bool := x.pow.shareNext.isNone
  if !(List.finRange 8).any fun d => miss (s.die d) then .next s
  else
    let s := s.advanceIn s.timeDie 650000
    .next ((s.modTray fun y => { y with pow := { y.pow with sharesLate := true } }).allDies fun x =>
      if miss x then { x with pow := { x.pow with sharesLate := true } } else x)

/-- The proposal of R124, or the sealed step (R117), one step lower when float lowers it (R143, R144), with the other rules that
lower a proposal on top (R47, R71, R78, R88, R118, R127, R146, R164, R165). R127 against R117: a sealed die proposes its sealed
step when shares are late, though it may lie above its current step (log 119, DESIGN CHOICE). -/
def State.baseProposal (s : State) (d : DieId) (low : Bool) : Nat :=
  let x := s.die d
  let c := s.ceiling d
  let cur := x.clk.curStep
  let b0 := if x.pow.sealed then max x.pow.sealedStep (max x.pow.sealCeil c) else max (s.ownStep d) x.pow.trayStep
  let b := if low then min 15 (b0 + 1) else b0
  let lowers := [
    ((x.pow.sharesLate || s.tray.fw.handoff || s.tray.fw.restarting) && !x.pow.sealed, cur), (0 < x.droop.noRaise && !x.pow.sealed, cur),
    (x.nearBand (s.dset d 0x2300 1) (s.dset d 0x2300 4), cur),
    (x.op.awaitRelease, 15), (x.rails.avsFault, 15), (x.heat.fullSeen, 15), (x.clk.bothFailed, 15),
    (x.op.wideWaits, ceilingStep d true x.op.trim x.op.agedCeiling),
    (x.pow.share < x.pow.roh && !x.pow.sealed, 15), (true, x.mer.repeatUrgent.getD 0), (true, c)]
  (lowers.foldl (fun b p => if p.1 then max b p.2 else b) b)

/-- U exceeds the die float (R144, R145): the epoch is an overrun. Between proposal and deadline a die in shared mode sends a
revised proposal for what it would have proposed one step lower; when U first exceeds after the deadline, its next proposal is
lowered. Before the proposal R143 sees it. A sealed die keeps its proposal (R117). -/
def State.floatCheck (s : State) (d : DieId) : State :=
  let x := s.die d
  match x.dieFloat with
  | none => s
  | some f =>
    if x.floatUsed ≤ f ∨ x.droop.overrun then s
    else
      let fresh := match x.droop.overrunAt with
        | none => true
        | some t => decide (t + 60000000000 ≤ s.tray.now)
      let s1 := s.modDie d fun x => { x with droop := { x.droop with
        overrun := true, overruns := satAdd 32 x.droop.overruns 1
        overrunAt := if fresh then some s.tray.now else x.droop.overrunAt } }
      let s2 := if fresh then s1.logDie d 0x2203 (leBytes 4 x.floatUsed) else s1
      if x.droop.loweredThis ∨ x.pow.sealed then s2
      else if 768000 < s.inEpoch d then s2.modDie d fun x => { x with droop := { x.droop with lowerNext := true } }
      else match x.mer.proposal with
        | none => s2
        | some c =>
          let code := max c (s.baseProposal d true)
          let s3 := s2.modDie d fun x => { x with droop := { x.droop with loweredThis := true } }
          if x.mer.member ∧ c < code ∧ c ≠ 0x10 then s3.propose d code false true else s3

/-- The estimator's figures of this microsecond (R120 to R122); U is compared with the die float (R144); a die with
a limited run asks for a loan (R206). -/
def execRateControlTick (d : DieId) (est : List RateSample) (s : State) : Host.Outcome State Fault Refusal :=
  let x := s.die d
  let rem := epochNs - s.inEpoch d
  let f (r : Run) : Run := match est.find? fun e => e.t == r.tenant && e.h == r.handle with
    | some e => r.rateTick x rem (x.uplifted e.estMw) (x.uplifted e.avg50) (x.uplifted e.avg2)
    | none => r
  let s1 := s.modDie d fun x => { x with til := { x.til with runs := x.til.runs.map f } }
  let cut := ((s1.die d).til.runs.map Run.cut).foldl max 0
  .next ((s1.modDie d fun x => { x with pow := { x.pow with
    cutTime := max x.pow.cutTime cut
    surgeCut := x.pow.surgeCut || x.til.runs.any fun r => decide (r.rate < 16) && !r.limited && decide (0 < r.cut) } }).floatCheck d |>.askLend d)

/-- 700 µs: a member sends its proposal (R124, R143, R144, R190, R193): 0x10 in Frost and after a LEAVE. -/
def execProposalSend (d : DieId) (s : State) : Host.Outcome State Fault Refusal :=
  let s := s.advanceIn d 700000
  let x := s.die d
  if !x.mer.member ∨ x.svc.holding.isSome ∨ x.svc.noProposal then .next s
  else if x.mer.leaving ∨ x.frost.state = .frozen ∨ x.frost.state = .thawing then
    .next ((s.modDie d fun x => { x with mer := { x.mer with repeatUrgent := none } }).propose d 0x10 false false)
  else
    let low := match x.dieFloat with
      | some f => (decide (f * 700000 < x.floatUsed * 1048576) || x.droop.lowerNext) && !x.pow.sealed
      | none => false
    let code0 := s.baseProposal d low
    let code := match x.mer.proposal with
      | some p => if p = 0x10 then code0 else max p code0
      | none => code0
    .next ((s.modDie d fun x => { x with
      droop := { x.droop with loweredThis := low, lowerNext := false }
      mer := { x.mer with repeatUrgent := none } }).propose d code false false)

/-! ### Caps and the division mode (R116, R128 to R131, R639) -/

/-- A write of the die cap. -/
def State.dieCapApply (s : State) (d : DieId) (v : Nat) : GateResult :=
  if (s.die d).pow.sealed ∧ v < (s.die d).commitment d then .refused rcSealedConflict 0 s
  else s.limitWrite ⟨0x2000, 1, d.val⟩ v fun s => s.scaleBudgets d

/-- DIE_CAP_WRITE (R128, R130, R131). -/
def execDieCapWrite (m : MasterId) (d : DieId) (v : Nat) (s : State) : Host.Outcome State Fault Refusal :=
  .next (s.gate m ⟨0x2000, 1, d.val⟩ (leBytes 4 v) fun s _ w => s.dieCapApply d (leNat w))

/-- A write of the tray cap (R129, R131): refused below the sealed tray condition, a lowering sends new shares at once. While the
condition asks for more than 7,200 W, every write is refused, a raise too: the spec does not treat that case
(log 125, DESIGN CHOICE). -/
def State.trayCapApply (s : State) (v : Nat) : GateResult :=
  if ((List.finRange 8).any fun d => (s.die d).pow.sealed) ∧ min v 7200000 < s.sealedTray 0 then
    .refused rcSealedConflict 0 s
  else s.limitWrite ⟨0x1200, 1, 0xF⟩ v fun s => s.updateCap.cutShares

/-- TRAY_CAP_WRITE (R129 to R131). -/
def execTrayCapWrite (m : MasterId) (v : Nat) (s : State) : Host.Outcome State Fault Refusal :=
  .next (s.gate m ⟨0x1200, 1, 0xF⟩ (leBytes 4 v) fun s _ w => s.trayCapApply (leNat w))

/-- A write that takes effect at the next epoch boundary and names it (R130, R400). -/
def State.boundaryWrite (s : State) (k : ObjKey) (v : Nat) : GateResult :=
  let d := if k.idx < 0x2000 then s.timeDie else dieOf k.sel
  if v = s.setting k.idx k.sub k.sel then .done (s.cancelRaise k) 0 true
  else .done (s.setRaise k v (s.epoch d + 1)) (s.epoch d + 1) true

/-- GLACIER_WINDOW_WRITE (R130). -/
def execGlacierWindowWrite (m : MasterId) (d : DieId) (v : Nat) (s : State) : Host.Outcome State Fault Refusal :=
  .next (s.gate m ⟨0x2000, 2, d.val⟩ (leBytes 4 v) fun s _ w => s.boundaryWrite ⟨0x2000, 2, d.val⟩ (leNat w))

/-- The resident contexts of a die satisfy R114. -/
def State.sealedFits (s : State) (d : DieId) : Bool :=
  let x := s.die d
  let c := x.commitment d
  ((s.residents d).all fun k => (x.pow.sealedEntry k.1).isSome) && decide (c ≤ s.dset d 0x2000 1) &&
    decide (s.sealedTray (if x.pow.sealed then 0 else c) ≤ min (s.setting 0x1200 1 0xF) 7200000)

/-- A write of the division mode (R116). -/
def State.divisionApply (s : State) (d : DieId) (v : Nat) : GateResult :=
  let x := s.die d
  if v = 1 ∧ (x.pow.sealedStep < s.ceiling d ∨ !s.sealedFits d) then .refused rcSealedConflict 0 s
  else .done ((s.putSetting 0x2000 5 d.val v).modDie d fun x => { x with pow := { x.pow with
    sealedNext := some (v == 1) } }) (s.epoch d + 1) true

/-- DIVISION_MODE_WRITE (R116). -/
def execDivisionModeWrite (m : MasterId) (d : DieId) (v : Nat) (s : State) : Host.Outcome State Fault Refusal :=
  .next (s.gate m ⟨0x2000, 5, d.val⟩ (leBytes 1 v) fun s _ w => s.divisionApply d (leNat w))

/-- The entries of the sealed allocation table: tenant, reservation, quota (05.5.2). -/
def sealedEntries (v : List Byte) : List (Nat × Nat × Nat) :=
  (List.range 1024).filterMap fun t =>
    let e := (v.drop (4 * t)).take 4
    if e.all fun b => b == 0#8 then none else some (t, leNat (e.take 2), (e.getD 2 0#8).toNat)

/-- The admitted tenants of a table by position: ascending tenant numbers (R594). -/
def admitted (es : List (Nat × Nat × Nat)) : List Nat := sortBy id ((es.filter fun e => e.2.1 != 0).map Prod.fst)

/-- A write of the sealed allocation table (R639). -/
def State.sealedTableApply (s : State) (d : DieId) (v : List Byte) : GateResult :=
  let es := sealedEntries v
  if es.any fun e => decide (16 < e.2.2) || (e.2.1 != 0 && e.2.2 == 0) then .refused rcOutOfRange 0 s
  else .done ((s.putSetting 0x2000 0x20 d.val (leNat v)).modDie d fun x => { x with pow := { x.pow with
    sealedTable := es } }) 0 true

/-- SEALED_TABLE_WRITE (R639). -/
def execSealedTableWrite (m : MasterId) (d : DieId) (v : List Byte) (s : State) : Host.Outcome State Fault Refusal :=
  .next (s.gate m ⟨0x2000, 0x20, d.val⟩ v fun s _ w => s.sealedTableApply d w)

end Sys2Proof.Machine
end

