-- ==== Sys2Proof/Machine/HeatEvents.lean ====
section
/-! DEFINITION. Protective sensors, throttle, surge, trip and coolant (chapter 07). Temperatures are in 1/16 °C. -/

namespace Sys2Proof.Machine
open Sys2Proof

/-- `s` with the heat part of a die changed. -/
def State.modHeat (s : State) (d : DieId) (f : Heat → Heat) : State := s.modDie d fun x => { x with heat := f x.heat }

/-! ### Sensors (07.1) -/

/-- The sensors that stand for one another: the four of a tile, or a row of Table 07.1 (R157) (log 123, DEDUCED). -/
def sensorMates (n : Nat) : List Nat :=
  let r := if n < 544 then (4 * (n / 4), 4) else if n < 560 then (544, 16) else if n < 568 then (560, 8) else (568, 8)
  ((List.range r.2).map fun i => r.1 + i).filter fun i => i != n

/-- A sensor's record. -/
def Heat.sensor (h : Heat) (n : Nat) : Sensor := KV.getD h.sensors n {}

/-- The reading the interlocks use of a sensor: a failed one takes the highest of its mates plus 5 °C (R157) (log 123, DEDUCED). -/
def Heat.reading (h : Heat) (n : Nat) : Option Int :=
  let x := h.sensor n
  if !x.failed then x.last
  else
    let rs := (sensorMates n).filterMap fun i => let y := h.sensor i; if y.failed then none else y.last
    match rs with
    | [] => none
    | r :: rs => some (rs.foldl max r + 80)

/-- The highest of a list of readings. -/
def maxOf : List Int → Option Int
  | [] => none
  | r :: rs => some (rs.foldl max r)

/-- The die maximum (R157). -/
def Heat.maximum (h : Heat) : Option Int := maxOf (h.sensors.filterMap fun p => h.reading p.1)

/-- The thermal rate of R160 at a die maximum T and a throttle start. -/
def thermalRate (ts : Nat) (T : Int) : Nat :=
  if T < ts then 16
  else if 1680 ≤ T ∨ 1680 ≤ ts then 4
  else max 4 (16 - ceilDiv (12 * (T - ts).toNat) (1680 - ts))

/-- One reading taken into a sensor's record (R155, R157, R167): window of 1 ms, rate of rise, failure. -/
def Heat.take (h : Heat) (n : Nat) (t : Int) (now : Ns) (limit : Nat) : Heat × Bool × Bool :=
  let x := h.sensor n
  let w := x.window.filter fun p => decide (now ≤ p.1 + 1000000)
  let low := w.foldl (fun m p => min m p.2) t
  let hot := decide ((limit : Int) * 16 < (t - low) * 10)
  let mates := (sensorMates n).filterMap fun i => (h.sensor i).last
  let apart := decide (n < 544) && !mates.isEmpty && mates.all fun r => decide (240 < (t - r).natAbs)
  let since := if apart then some (x.apartSince.getD now) else none
  let bad := x.failed || decide (t < -640 ∨ 2400 < t) ||
    (match since with | some a => decide (a + 10000000 ≤ now) | none => false)
  let y : Sensor := { x with last := some t, window := (now, t) :: w, above := hot, apartSince := since, failed := bad }
  ({ h with sensors := KV.put h.sensors n y }, x.above && hot && !bad, bad && !x.failed)

/-- The sensors follow a new row map (R153): a sensor keeps its place on its physical tile; the unmapped tile of a row has the
numbers of that row's spare (Table 07.1) (log 122, DEDUCED). -/
def Heat.renumber (h : Heat) (old new : List Nat) : Heat :=
  let place (n : Nat) : Nat × Nat :=
    if n < 512 then
      let y := n / 64
      let k := old.getD y 16
      let c := n / 4 % 16
      (y, if c < k then c else c + 1)
    else ((n - 512) / 4, old.getD ((n - 512) / 4) 16)
  let number (y c i : Nat) : Nat :=
    let k := new.getD y 16
    if c = k then 512 + 4 * y + i else 4 * (16 * y + (if c < k then c else c - 1)) + i
  { h with sensors := h.sensors.map fun p => if p.1 < 544 then (number (place p.1).1 (place p.1).2 (p.1 % 4), p.2) else p }

/-! ### Trip (07.5) -/

/-- A hardware trip (R171, R172, R174): VCORE, VSRAM, VHTR and VANA off; the contexts end with DIE_TRIPPED; LEAVE goes out
on the die's behalf; the third trip within 24 h latches the die off. -/
def State.trip (s : State) (d : DieId) : State :=
  let x := s.die d
  if !(x.rails.vcore || x.rails.vsram) then s
  else
    let ts := (s.accNow :: x.heat.trips).filter fun t => decide (s.accNow < t + 86400000000000)
    let latch := decide (3 ≤ ts.length)
    let s1 := (s.heat d 6).leaveFor d 6
    let s2 := if latch then s1.heat d 8 else s1
    (s2.railsOff d true stDieTripped).modDie d fun x => { x with
      heat := { x.heat with tripped := true, latched := latch, trips := ts, surgeAt := none, fullSeen := false
                            coolSince := none, thawKept := false, wasFrozen := false }
      svc := { x.svc with state := if latch then .latched else .tripped } }

/-! ### Throttle and surge (07.3, 07.4) -/

/-- Time throttled is added up when h returns to 16. -/
def Heat.throttleEnds (h : Heat) (now : Ns) : Heat :=
  match h.throttleSince with
  | some t => { h with throttledNs := h.throttledNs + (now - t), throttleSince := none }
  | none => h

/-- A new value of R160: a fall of h applies at once, a rise later by R161; h below 16 on a sealed die is a heat surge
(R166). -/
def State.setRate (s : State) (d : DieId) (goal : Nat) : State :=
  let x := s.die d
  let s1 := (if goal < 16 then s.modDie d Die.spoil else s).modHeat d fun h =>
    if goal < h.h then { h with h := goal, hGoal := goal, hRoseAt := s.tray.now, throttleSince := some (h.throttleSince.getD s.tray.now) }
    else { h with hGoal := goal }
  if x.pow.sealed ∧ goal < 16 ∧ !x.heat.sealedSurge then
    (s1.modHeat d fun h => { h with sealedSurge := true, surges := satAdd 32 h.surges 1 }).heat d 1
  else s1

/-- Throttle full (R165): first reached, the die sends an urgent proposal for F15; the state ends after 1 ms below
throttle start. -/
def State.fullCheck (s : State) (d : DieId) (ts : Nat) (T : Int) : State :=
  let h := (s.die d).heat
  let now := s.tray.now
  if 1680 ≤ T then
    let s1 := s.modHeat d fun h => { h with fullSeen := true, belowSince := none }
    if h.fullSeen then s1 else ((s1.heatEvent d 3).urgent d 15)
  else if !h.fullSeen then s
  else if (ts : Int) ≤ T then s.modHeat d fun h => { h with belowSince := none }
  else match h.belowSince with
    | none => s.modHeat d fun h => { h with belowSince := some now }
    | some b =>
      if b + 1000000 ≤ now then (s.modHeat d fun h => { h with fullSeen := false, belowSince := none }).releaseEmergency d
      else s

/-- A heat surge begins, or goes on (R168). -/
def State.surge (s : State) (d : DieId) : State :=
  let x := s.die d
  let s1 := s.modHeat d fun h => { h with surgeLast := s.tray.now }
  if x.heat.surgeAt.isSome then s1
  else
    let s2 := (s1.modHeat d fun h => { h with surgeAt := some s.tray.now, surges := satAdd 32 h.surges 1 }).heat d 1
    if x.computes then s2.urgent d (min 15 (x.clk.curStep + 4)) else s2

/-- A protective sensor's sample (R155 to R168, R171) (log 121, DEDUCED). -/
def execThermalSample (d : DieId) (n : Nat) (t : Int) (s : State) : Host.Outcome State Fault Refusal :=
  if 576 ≤ n ∨ !(s.die d).rails.vio then .next s
  else
    let ts := s.dset d 0x2300 1
    let near := s.dset d 0x2300 4
    let now := s.tray.now
    let (h, rise, fails) := (s.die d).heat.take n t now (s.dset d 0x2300 5)
    let fast := if (ts : Int) - near ≤ t then some now else match (h.sensor n).fastUntil with
      | some f => if f + 1000000 ≤ now then none else some f
      | none => none
    let s0 := s.modHeat d fun _ => { h with sensors := KV.put h.sensors n { h.sensor n with fastUntil := fast } }
    let m := (s0.die d).heat.maximum
    let s1 := s0.modHeat d fun h => { h with
      dieMax := m
      coolSince := match m with
        | some T => if T < 1120 then some (h.coolSince.getD now) else none
        | none => none
      bandSince := match m with
        | some T => if T < (ts : Int) - near then some (h.bandSince.getD now) else none
        | none => none }
    let s2 := if fails then s1.logDie d 0x2310 (leBytes 2 n) else s1
    let s3 := if fails ∧ n < 512 ∧ (List.range 4).all (fun i => ((s2.die d).heat.sensor (4 * (n / 4) + i)).failed) then
      s2.failTile d (n / 4) else s2
    match m with
    | none => .next s3
    | some T =>
      let s4 := (s3.setRate d (thermalRate ts T)).fullCheck d ts T
      let s5 := if rise then s4.surge d else s4
      .next (if 1920 ≤ T then s5.trip d else s5)

/-- h rises by 1/16, at most once per 50 µs, up to the value of R160 (R161). -/
def execThermalRateRise (d : DieId) (s : State) : Host.Outcome State Fault Refusal :=
  let h := (s.die d).heat
  if h.hGoal ≤ h.h then .next s
  else
    let s1 := s.advanceTo (h.hRoseAt + 50000)
    let v := h.h + 1
    let s2 := s1.modHeat d fun h =>
      let h := { h with h := v, hRoseAt := s1.tray.now }
      if v = 16 then h.throttleEnds s1.tray.now else h
    .next (if v = 16 ∧ h.sealedSurge then (s2.modHeat d fun h => { h with sealedSurge := false }).heat d 2 else s2)

/-- The group maxima of R158, every 50 µs, without failed sensors (R157); a group with no member reads 0x8000. -/
def execGroupMaxPublish (d : DieId) (s : State) : Host.Outcome State Fault Refusal :=
  let v := s.dset d 0x2300 8
  let h := (s.die d).heat
  let g (k : Nat) : Nat :=
    match maxOf (h.sensors.filterMap fun p =>
      if (v >>> (8 * p.1)) % 256 = k ∧ !p.2.failed then p.2.last else none) with
    | some m => ofInt 16 m
    | none => 0x8000
  .next (s.modHeat d fun h => { h with groupMax := (List.range 16).map g })

/-- The surge ends 1 ms after the last sample beyond the limit (R169). -/
def execHeatSurgeEnd (d : DieId) (s : State) : Host.Outcome State Fault Refusal :=
  let h := (s.die d).heat
  if h.surgeAt.isNone then .next s
  else .next ((((s.advanceTo (h.surgeLast + 1000000)).modHeat d fun h => { h with surgeAt := none }).heat d 2).releaseEmergency
    d)

/-! ### FLOW_LOSS (07.6) -/

/-- FLOW_LOSS asserts on a die (R177, R178): running plans end with HEAT_HALT, VSRAM goes to retention, VCORE off, the ports go
LOW, its flows end, and it leaves its group. A die in Frost, whose plans do not run, keeps them; so does one that still enters
Frost: it counts as frozen (log 109, DESIGN CHOICE). A die that starts goes back to the step before its VCORE came up (R530). -/
def State.assertFlow (s : State) (d : DieId) (kind : FlowLoss) : State :=
  let x := s.die d
  if x.heat.flowLoss ≠ .none ∨ !x.rails.vsram then s
  else
    let frozen := decide (x.frost.state = .frozen ∨ x.frost.state = .entering)
    let s1 := (s.heat d 4).modHeat d fun h => { h with
      flowLoss := kind, flowLossAt := s.tray.now, surgeAt := none, wasFrozen := frozen }
    let s2 := if frozen then s1.loseAllFlows d 2 else (s1.dropFlows d 2).endRuns d stHeatHalt 0
    let s3 := (s2.sendLeave d 1).portsLow d
    s3.modDie d fun x =>
      let y := { x with rails := { x.rails.coreOff with retention := true } }
      if x.svc.state = .starting then { y with svc := { x.svc with step := 6 } }
      else { y with
        frost := { x.frost with state := if frozen then .frozen else .running }
        svc := { x.svc with state := .flowHalt } }

/-- A surge has not ended 5 ms after its cut began (R170). -/
def execSurgeTimeout (d : DieId) (s : State) : Host.Outcome State Fault Refusal :=
  match (s.die d).heat.surgeAt with
  | none => .next s
  | some a => .next ((s.advanceTo (a + 5000000)).assertFlow d .local)

/-- A tripped die has stayed below 70 °C for 60 s (R173), or the release condition of R181 holds: it starts again, never while
FLOW_LOSS is unreleased (R14). -/
def execTripRestart (d : DieId) (s : State) : Host.Outcome State Fault Refusal :=
  let h := (s.die d).heat
  if h.latched ∨ h.flowLoss ≠ .none then .next s
  else if h.tripped then
    match h.coolSince with
    | none => .next s
    | some t => .next (((s.advanceTo (t + 60000000000)).railsUp d).modDie d fun x => { x with
        heat := { x.heat with tripped := false, flowOff := false, coolSince := none }, svc := { x.svc with tripRestart := true } })
  else if h.flowOff then
    .next ((s.railsUp d).modDie d fun x => { x with
      heat := { x.heat with flowOff := false }, svc := { x.svc with tripRestart := true } })
  else .next s

/-- CLEAR_TRIP_LATCH (R174): latch and record are cleared, and the restart of R173 follows. -/
def State.clearLatch (s : State) (d : DieId) : GateResult :=
  .done (s.modDie d fun x => { x with
    heat := { x.heat with latched := false, trips := [], tripped := x.heat.tripped || x.heat.latched }
    svc := { x.svc with state := if x.heat.latched then .tripped else x.svc.state } }) 0 true

/-- A write of the command 0x2300:0D. -/
def execClearTripLatch (m : MasterId) (d : DieId) (v : Nat) (s : State) : Host.Outcome State Fault Refusal :=
  .next (s.gate m ⟨0x2300, 0xD, d.val⟩ (leBytes 1 v) fun s _ _ => s.clearLatch d)

/-- The loop of a die: A cools S0 to S3 (false), B S4 to S7 (true). -/
def loopB (d : DieId) : Bool := decide (4 ≤ d.val)

/-- One 1 ms sample of a loop's flow: the run below 40 % of the loop nominal flow, and since when it is at or above 60 % (R175,
R176, R180). The loop nominal flow is half of the tray's, `nom`. -/
def Coolant.flowSample (c : Coolant) (b : Bool) (nom f : Nat) (now : Ns) : Coolant :=
  let low (n : Nat) : Nat := if f * 5 < nom then n + 1 else 0
  let good (o : Option Ns) : Option Ns := if nom * 6 ≤ f * 20 then some (o.getD now) else none
  if b then { c with flowB := f, lowB := low c.lowB, goodB := good c.goodB }
  else { c with flowA := f, lowA := low c.lowA, goodA := good c.goodA }

/-- 1 ms samples of a loop's flow, in 0.1 L/min, the oldest first: loss of the loop is declared at 200 consecutive ones below
40 % of the loop nominal flow (R176); a failed flow sensor detects none (R183). -/
def execLoopLossDeclare (b : Bool) (flows : List Nat) (s : State) : Host.Outcome State Fault Refusal :=
  let nom := s.setting 0x1300 1 0xF
  let s := flows.foldl (fun s f =>
    let t := s.advanceTo (s.tray.now + 1000000)
    t.modTray fun y => { y with cool := y.cool.flowSample b nom f y.now }) s
  let c := s.tray.cool
  if (if b then c.lostB || c.sensorFailB || decide (c.lowB < 200) else c.lostA || c.sensorFailA || decide (c.lowA < 200)) then
    .next s
  else
    let w := c.alarms ||| BitVec.twoPow 16 (b2n b)
    .next ((s.modTray fun y => { y with cool := { y.cool with
      lostA := y.cool.lostA || !b, lostB := y.cool.lostB || b, losses := satAdd 32 y.cool.losses 1, alarms := w
      absent := y.cool.absent.filter fun p => p.1 != b2n b } }).logTray 0x1301 (leBytes 2 w.toNat))

/-- FLOW_LOSS asserts on a die of a lost loop (R176, R177). -/
def execFlowLossAssert (d : DieId) (s : State) : Host.Outcome State Fault Refusal :=
  if (if loopB d then s.tray.cool.lostB else s.tray.cool.lostA) then .next (s.assertFlow d .loop) else .next s

/-- FLOW_LOSS is released (R180): flow at or above 60 % for 1 s, and the die maxima below throttle start minus the near
band; a die without a reading counts as below it (log 108, DESIGN CHOICE). A restriction of another layer holds on (R14). -/
def execFlowLossRelease (d : DieId) (s : State) : Host.Outcome State Fault Refusal :=
  let x := s.die d
  let good := if loopB d then s.tray.cool.goodB else s.tray.cool.goodA
  let cool (e : DieId) : Bool := !(s.die e).nearBand (s.dset e 0x2300 1) (s.dset e 0x2300 4)
  let group := if x.heat.flowLoss = .loop then (List.finRange 8).filter fun e => loopB e == loopB d else [d]
  let since := if x.heat.flowLoss = .loop then good else if good.isSome then x.heat.bandSince else none
  match since with
  | none => .next s
  | some g =>
    if x.heat.flowLoss = .none ∨ !group.all cool then .next s
    else
      let s1 := (s.advanceTo (g + 1000000000)).modTray fun y => { y with cool :=
        if x.heat.flowLoss = .loop then { y.cool with
          lostA := y.cool.lostA && loopB d, lostB := y.cool.lostB && !loopB d } else y.cool }
      let s2 := (s1.modHeat d fun h => { h with flowLoss := .none }).heat d 5
      if x.heat.flowOff ∨ x.svc.state ≠ .flowHalt then .next s2
      else if x.heat.wasFrozen then
        let s3 := s2.modDie d fun x => { x with
          heat := { x.heat with wasFrozen := false, thawKept := false }
          frost := { x.frost with state := .frozen }, svc := { x.svc with state := .frost } }
        .next (if x.heat.thawKept then s3.startThaw d else s3)
      else
        let v := s2.targetAt d 15
        let s3 := s2.modDie d fun x => { x with
          rails := { x.rails with
            retention := x.heldInRetention, vcore := true, vcoreSet := v, avsGoal := v, target := v, vReady := true }
          clk := if x.clk.refsLostHalt then x.clk
            else if x.clk.bothFailed then x.clk.toBridge
            else let l := x.clk.spare; (x.clk.modLoop l fun y => { y with step := 15, ready := true }).toLoop l
          svc := { x.svc with state := .running } }
        .next (s3.portsBack d)

/-- FLOW_LOSS has not been released for 30 s (R181): the rails go off, the contexts end with DIE_POWERED_OFF. No sensor reads
without VIO: from then on the die counts as cool (log 108, DESIGN CHOICE). -/
def execFlowLossPowerOff (d : DieId) (s : State) : Host.Outcome State Fault Refusal :=
  let h := (s.die d).heat
  if h.flowLoss = .none ∨ h.flowOff then .next s
  else
    let s1 := (s.advanceTo (h.flowLossAt + 30000000000)).heat d 9
    .next ((s1.railsOff d false stDiePoweredOff).modDie d fun x => { x with
      heat := { x.heat with
        flowOff := true, wasFrozen := false, thawKept := false, sensors := x.heat.sensors.map fun p => (p.1, { failed := p.2.failed })
        dieMax := none, bandSince := some s1.tray.now, coolSince := some s1.tray.now }
      svc := { x.svc with state := if x.heat.latched then .latched else if x.heat.tripped then .tripped else .off } })

/-! ### Valves and alarms -/

/-- Mean of the die maxima of a loop, times 4; none when a die has none. -/
def State.loopMean (s : State) (b : Bool) : Option Int :=
  let ms := ((List.finRange 8).filter fun d => loopB d == b).map fun d => (s.die d).heat.dieMax
  if ms.all Option.isSome then some (ms.filterMap id).sum else none

/-- Once per second (R179, 07.6): both valves open while a loop is lost; else the hotter loop's valve moves towards 100 %,
the other towards 70 %. -/
def execValveTrim (s : State) : Host.Outcome State Fault Refusal :=
  if s.tray.cool.lostA ∨ s.tray.cool.lostB then
    .next (s.modTray fun y => { y with cool := { y.cool with valveA := 100, valveB := 100 } })
  else match s.loopMean false, s.loopMean true with
    | some a, some b =>
      if (a - b).natAbs ≤ 128 then .next s
      else
        let up (v : Nat) : Nat := min 100 (v + 1)
        let dn (v : Nat) : Nat := max 70 (v - 1)
        .next (s.modTray fun y => { y with cool := { y.cool with
          valveA := if b < a then up y.cool.valveA else dn y.cool.valveA
          valveB := if b < a then dn y.cool.valveB else up y.cool.valveB } })
    | _, _ => .next s

/-- The alarm conditions of Table 07.5, by bit. -/
def Coolant.conditions (c : Coolant) (inlet : Int) (fa fb : Nat) (stuckA stuckB : Bool) : List Bool :=
  [c.lostA, c.lostB, decide (fa + fb < 100), decide (640 < inlet ∧ inlet ≤ 720), decide (720 < inlet), decide (inlet < 240),
    decide (400 < fa) || stuckA, decide (400 < fb) || stuckB, decide (inlet < -160 ∨ 1280 < inlet),
    decide (25 * max fa fb < 100 * (max fa fb - min fa fb))]

/-- The 1 s averages of inlet and flow (R180, R182, R183); an alarm clears when its condition has been absent for
10 s. -/
def execCoolantAlarmUpdate (inlet : Int) (fa fb : Nat) (stuckA stuckB : Bool) (s : State) :
    Host.Outcome State Fault Refusal :=
  let c := s.tray.cool
  let now := s.tray.now
  let busy (b : Bool) : Bool := ((List.finRange 8).filter fun d => loopB d == b).all fun d =>
    decide (100000 * epochNs < ((s.die d).pow.epochs.head?).getD 0)
  let cs := c.conditions inlet fa fb (stuckA && busy false) (stuckB && busy true)
  let absent := (List.range 10).filterMap fun i =>
    if cs.getD i false ∨ !c.alarms.getLsbD i then none else some (i, KV.getD c.absent i now)
  let on (i : Nat) : Bool := cs.getD i false ||
    (c.alarms.getLsbD i && (match KV.get? absent i with | some t => decide (now < t + 10000000000) | none => true))
  let w : BitVec 16 := BitVec.ofNat 16 (((List.range 10).map fun i => if on i then 2 ^ i else 0).sum)
  let nom := s.setting 0x1300 1 0xF
  let good (f : Nat) (o : Option Ns) : Option Ns := if nom * 6 ≤ f * 20 then some (o.getD now) else none
  let s1 := s.modTray fun y => { y with cool := { y.cool with
    inlet := inlet, flowA := fa, flowB := fb, sensorFailA := cs.getD 6 false, sensorFailB := cs.getD 7 false
    inletFail := cs.getD 8 false, goodA := good fa c.goodA, goodB := good fb c.goodB, alarms := w, absent := absent } }
  let s2 := if w = c.alarms then s1 else s1.logTray 0x1301 (leBytes 2 w.toNat)
  .next (if c.inletFail = cs.getD 8 false then s2 else s2.recap)

/-- A write of 0x2300:01, :04 or :05 (R159). -/
def execHeatThresholdWrite (m : MasterId) (d : DieId) (sub v : Nat) (s : State) : Host.Outcome State Fault Refusal :=
  .next (s.gate m ⟨0x2300, sub, d.val⟩ (leBytes 2 v) fun s _ w => s.limitWrite ⟨0x2300, sub, d.val⟩ (leNat w) id)

end Sys2Proof.Machine
end

