-- ==== Sys2Proof/Machine/Clocks.lean ====
section
/-! DEFINITION. Clocks and time (chapter 03). -/

namespace Sys2Proof.Machine
open Sys2Proof

/-- A reference input's ready flag. -/
def Clk.refReady (c : Clk) : RefIn → Bool
  | .xa => c.xaReady
  | .xb => c.xbReady

/-- Set a reference input's ready flag. -/
def Clk.setRef (c : Clk) (r : RefIn) (b : Bool) : Clk :=
  match r with
  | .xa => { c with xaReady := b }
  | .xb => { c with xbReady := b }

/-- The other input. -/
def RefIn.other : RefIn → RefIn
  | .xa => .xb
  | .xb => .xa

/-- The reference in use loses its ready flag (R37): RL holds over and locks to the other input when that is ready; when
it is not, the automatic switch is refused and recorded (R42), and the 10 ms of R39 run. -/
def execRefLoss (d : DieId) (s : State) : Host.Outcome State Fault Refusal :=
  let c := (s.die d).clk
  if !c.refReady c.refInUse then .next s
  else
    let o := c.refInUse.other
    if c.refReady o then
      .next (s.modClk d fun c => { c.setRef c.refInUse false with holdover := true, relockTo := some o })
    else
      .next ((s.modClk d fun c => { c.setRef c.refInUse false with
        holdover := true, relockTo := none, bothLostAt := some s.tray.now, switchStatus := 1 }).logClk d 0x5003)

/-- A relock is complete (R37): a change of reference goes to the moraine. -/
def execRlRelockDone (d : DieId) (s : State) : Host.Outcome State Fault Refusal :=
  match (s.die d).clk.relockTo with
  | none => .next s
  | some r =>
    let s1 := s.modClk d fun c => { c with refInUse := r, relockTo := none, holdover := false, switchStatus := 0 }
    .next (if r = (s.die d).clk.refInUse then s1 else s1.logClk d 0x5001)

/-- Both references have stayed without ready flags for 10 ms (R39): compute halts, SRAM goes to retention, the optical
links go down, the fixed domains move to FOSC, system time is invalid. A FOSC that is not ready refuses the move (R42). -/
def execRefBothLostHalt (d : DieId) (s : State) : Host.Outcome State Fault Refusal :=
  let c := (s.die d).clk
  match c.bothLostAt with
  | none => .next s
  | some t =>
    if c.xaReady ∨ c.xbReady ∨ c.refsLostHalt then .next s
    else
      let s1 := (s.advanceTo (t + 10000000)).modDie d fun x => { x with
        clk := { x.clk with
          refsLostHalt := true, fixedOnFosc := c.foscReady, rlReady := false, opllReady := false, holdover := false
          timeValid := false, goodExch := 0, switchStatus := if c.foscReady then x.clk.switchStatus else 1 }
        rails := { x.rails with retention := true } }
      let s1 := if c.foscReady then s1 else s1.logClk d 0x5003
      .next ((List.range 16).foldl (fun s p =>
        let st := (s.port d p).state
        if st = .off ∨ st = .down then s else s.portDown d p) s1)

/-- One 10 ms comparison of the references (R40). -/
def execRefCompareInterval (d : DieId) (ppm : Nat) (s : State) : Host.Outcome State Fault Refusal :=
  let c := (s.die d).clk
  if !(c.xaReady && c.xbReady) then .next s
  else if 100 < ppm then .next ((s.modClk d fun c => { c with refMismatch := true }).logClk d 0x5002)
  else .next (s.modClk d fun c => { c with refMismatch := false })

/-- A reference input is ready again: RL in holdover locks to it (R37), the 10 ms of R39 stop, and a waiting warm reset
goes on (R39). -/
def Clk.refBack (c : Clk) (r : RefIn) : Clk :=
  let c := { c.setRef r true with bothLostAt := none }
  if c.holdover ∧ c.relockTo = none then { c with relockTo := some r }
  else { c with warmResetWaits := false }

/-- A source's count of good cycles is complete (R41, Table 03.2). -/
def execSourceReady (d : DieId) (src : ClkSource) (s : State) : Host.Outcome State Fault Refusal :=
  .next (s.modClk d fun c => match src with
    | .xa => c.refBack .xa
    | .xb => c.refBack .xb
    | .fosc => { c with foscReady := true }
    | .sosc => { c with soscReady := true }
    | .rl => { c with rlReady := true }
    | .opll => { c with opllReady := true })

/-- A compute loop loses its ready flag (R41, R46): when it is the active one, compute moves to the bridge and the other
loop, or this one when the other is marked failed, is retuned to the current step; that is a clock fault. -/
def execLoopLockLoss (d : DieId) (l : LoopId) (s : State) : Host.Outcome State Fault Refusal :=
  let x := s.die d
  let c := x.clk
  if !(c.loop l).ready then .next s
  else if c.active = l ∧ !c.onBridge ∧ x.computes then
    let t := if (c.loop l.other).failed then l else l.other
    .next ((s.modClk d fun c => ((c.modLoop l fun y => { y with ready := false }).retune t c.curStep).toBridge).clockFault d
      (some l))
  else .next (s.modClk d fun c => c.modLoop l fun y => { y with ready := false })

/-- The loop being retuned has its count complete (R43, R45, R46, R47): from the bridge the die moves to it; a raise that
waited for it switches when the voltage is ready too (R75). A loop tuned to a step above the one that the group applies and the
restrictions permit waits for its boundary (R15). -/
def execIdleLoopReady (d : DieId) (s : State) : Host.Outcome State Fault Refusal :=
  let c := (s.die d).clk
  let l := c.spare
  if c.bothFailed then .next s
  else
    let s1 := s.modClk d fun c => c.modLoop l fun y => { y with ready := true }
    let x := s1.die d
    let st := (c.loop l).step
    if !x.computes ∨ st < s.permitted d x.mer.groupStep then .next s1
    else if c.onBridge ∨ c.raiseWaits then
      if x.vEnough then .next (s1.modDie d fun x => { x.spoil with clk := x.clk.toLoop l, op := { x.op with supplyLag := false } })
      else if x.op.supplyLag then .next s1
      else .next (s1.supplyLag d st)
    else .next s1

/-- A compensation value at a temperature in 1/16 °C (R58): linear between the two nearest points, rounded down. -/
def compAt (d : DieId) (k : Nat) (t : Int) : Int :=
  if t ≤ 0 then Config.compTable d k 0
  else if 1920 ≤ t then Config.compTable d k 15
  else
    let i := (t / 128).toNat
    let lo := Config.compTable d k i
    lo + (Config.compTable d k (i + 1) - lo) * (t % 128) / 128

/-- The 1 ms update of the compensated circuits (R58): each takes the reading of its own nearest protective sensor; one whose
sensor has no reading keeps its value (log 17, DESIGN CHOICE). -/
def execCompTableUpdate (d : DieId) (s : State) : Host.Outcome State Fault Refusal :=
  let h := (s.die d).heat
  .next (s.modClk d fun c => { c with comp := (List.range 4).map fun k => match h.reading (Config.compSensor d k) with
    | some t => compAt d k t
    | none => c.comp.getD k 0 })

/-- Set the count of a clock to its own plus a signed amount: it never falls, it holds until the steered count reaches it
(R62). -/
def Clk.shift (c : Clk) (now : Ns) (by_ : Int) : Clk :=
  { c with timeFloor := c.count now, timeOff := (c.count now : Int) + by_ - now, rateAdj := 0, rateFrom := now }

/-- Begin another 1 ms of steering: what is left to steer, at most 200 ppm, becomes its rate (R59, R60). -/
def Clk.newRate (c : Clk) (now : Ns) : Clk :=
  let adj := if c.timeValid then clampI (-200) 200 c.steer else 0
  { c with timeOff := c.timeOff + c.steered now, rateAdj := adj, rateFrom := now, steer := c.steer - adj }

/-- The die is the time root of its group (R59): it holds valid time, and no member of a lower identity does, as far as a die
of this tray shows; a member on another tray is taken to hold it (log 18, DEDUCED). -/
def State.timeRoot (s : State) (d : DieId) : Bool :=
  let m := (s.die d).mer
  let stale (i : Nat) : Bool := (List.finRange 8).any fun e =>
    (s.die e).mer.member && s.groupNo e == s.groupNo d && s.identity e == i && !(s.die e).clk.timeValid
  (s.die d).clk.timeValid && m.member && (m.members.map Member.id).all fun i => decide (s.identity d ≤ i) || stale i

/-- The port by which a die that is no member reaches a member of its group: the lowest that carries records (R203). A
neighbour of another tray that names the group is taken for a member (log 134, DESIGN CHOICE). -/
def State.joinPort (s : State) (d : DieId) : Option Nat :=
  (List.range 16).find? fun p => (s.port d p).state.carries && (match (s.port d p).neighbour with
    | some (g, id, _) => g == s.groupNo d && (List.finRange 8).all fun e =>
        e == d || s.groupNo e != g || s.identity e != id || (s.die e).mer.member
    | none => false)

/-- The 1 kHz exchange of R59: the die steers its rate by the last offset, at most 200 ppm of 1 ms, and sends a TIME request to
its upstream die. -/
def execTimeExchangeTick (d : DieId) (s : State) : Host.Outcome State Fault Refusal :=
  let s1 := s.modClk d fun c => c.newRate s.tray.now
  let x := s1.die d
  if s1.timeRoot d then .next s1
  else
    let no := x.clk.exchNo
    let t1 := s1.sysTime d
    let s2 := s1.modClk d fun c => { c with exchOpen := some (no, t1), exchNo := (no + 1) % 2 ^ 32 }
    let body := leBytes 4 no ++ leBytes 8 t1
    if x.mer.member then
      let id := s.identity d
      let up := nextUp x.mer.tree id
      .next (if up = id then s1 else s2.sendRecord d 0x08 up body)
    else match s.joinPort d with
      | some p => .next (s2.sendHop d p 0x08 body)
      | none => .next s1

/-- A TIME request arrives (R344): the response carries t1, the arrival t2 and its own departure t3. -/
def State.takeTimeRequest (s : State) (d : DieId) (port src no t1 t2 : Nat) : State :=
  s.putRecord d port (recordBytes 0x09 (s.groupNo d) src (s.identity d) 0 64
    (leBytes 4 no ++ leBytes 8 t1 ++ leBytes 8 t2 ++ leBytes 8 (s.sysTime d)))

/-- TIME_REQUEST. -/
def execTimeRequest (d : DieId) (port src no t1 t2 : Nat) (s : State) : Host.Outcome State Fault Refusal :=
  .next (s.takeTimeRequest d port src no t1 t2)

/-- The response to an exchange (R59, R61, R62): the offset is that of the upstream time to the die's own. -/
def State.takeTimeResponse (s : State) (d : DieId) (no t1 t2 t3 t4 : Nat) : State :=
  let c := (s.die d).clk
  match c.exchOpen with
  | none => s
  | some (n, _) =>
    if n ≠ no then s
    else
      let off : Int := (((t2 : Int) - t1) + ((t3 : Int) - t4)) / 2
      if c.timeValid then
        let bad := if off < -40 ∨ 40 < off then c.badExch + 1 else 0
        if 10 ≤ bad then
          (s.modClk d fun c => { c with
            exchOpen := none, lastOffset := off, badExch := 0, goodExch := 0, timeValid := false }).sendLeave d 2
        else s.modClk d fun c => { c with exchOpen := none, lastOffset := off, steer := off, badExch := bad }
      else
        let good := if -5 ≤ off ∧ off ≤ 5 then c.goodExch + 1 else 0
        s.modClk d fun c => { c.shift s.tray.now off with
          exchOpen := none, lastOffset := off, steer := 0, goodExch := good, timeValid := decide (16 ≤ good), badExch := 0 }

/-- TIME_RESPONSE. -/
def execTimeResponse (d : DieId) (no t1 t2 t3 t4 : Nat) (s : State) : Host.Outcome State Fault Refusal :=
  .next (s.takeTimeResponse d no t1 t2 t3 t4)

end Sys2Proof.Machine
end

