-- ==== Sys2Proof/Machine/DroopEvents.lean ====
section
/-! DEFINITION. Droop detectors, the stretcher and stretch debt (chapter 06). -/

namespace Sys2Proof.Machine
open Sys2Proof

/-- The detector that covers a logical tile (R133): the two of a row at columns 2c and 2c + 1, so Dd lies in tile group d mod 8. -/
def detectorOf (L : Nat) : Nat := L / 16 * 8 + L % 16 / 2

/-- The logical tile that a physical tile holds under the row maps; none for an unmapped one, whose sense tap belongs to no
detector (R133, R255). -/
def Tiles.logical (x : Tiles) (p : Nat) : Option Nat := (List.range 128).find? fun L => x.phys L == p

/-- Quarters of a stretch setting: 25 %, 50 % or 100 % (Table 06.2). -/
def settingQuarters (v : Nat) : Nat := if v = 0 then 1 else if v = 1 then 2 else 4

/-- Quarter periods added to the n-th tripped cycle of a run (Table 06.1): the setting's for cycles 1 to 4, a whole period from
cycle 5 on. -/
def stretchOf (q n : Nat) : Nat := if n ≤ 4 then q else 4

/-- The detectors act: VCORE is on, and the die is not in Frost (R151) (log 124, DEDUCED). -/
def Die.detectorsOn (x : Die) : Bool := x.rails.vcore && x.frost.state != .frozen

/-- An interlock emergency acts on the die, so stretch is emergency lateness and not debt (R141). -/
def Die.stretchEmergency (x : Die) : Bool := x.op.hold || x.heat.surgeAt.isSome || x.heat.flowLoss != .none

/-- A quarter of the current compute-root period, after the alert divider, in units of 1/debtUnit ns (R36, R138). -/
def Die.quarterPeriod (x : Die) : Nat := (if x.op.div4 then 4 else 1) * (232792560 / stepN x.clk.curStep)

/-- The detectors with a tap below a level (R133, R134), compared without the ±3 mV that R135 allows a compensated detector
(log 138, DESIGN CHOICE). -/
def Tiles.tripped (x : Tiles) (level : Nat) (taps : List (Nat × Nat)) : List Nat :=
  (taps.filterMap fun p => if p.2 < level then (x.logical p.1).map detectorOf else none).eraseDups

/-- A window is open at a runtime (R140, R151). -/
def Armed.openAt (a : Armed) (now : Ns) : Bool := match a.close with
  | some c => decide (now ≤ c)
  | none => true

/-- One compute cycle of the detectors and the stretcher (R137 to R140, R147, R148): `live` are the unmasked detectors that trip,
`now` its runtime, `armed` and `normal` the quarters of the two settings. Answers the quarters stretched. -/
def Droop.cycle (w : Droop) (live : List Nat) (now : Ns) (armed normal : Nat) : Droop × Nat :=
  if live.isEmpty then ({ w with runLen := 0 }, 0)
  else
    let n := w.runLen + 1
    let wins := w.armed.filter fun a => a.openAt now
    let segs := wins.filterMap Armed.seg
    ({ w with
        trips := w.trips.mapIdx fun i k => if live.contains i then k + 1 else k
        trippedTotal := w.trippedTotal + 1, runLen := n, longest := max w.longest n
        attributed := w.attributed ++ segs.filter fun k => !w.attributed.contains k },
      if w.monitor then 0 else stretchOf (if wins.isEmpty then normal else armed) n)

/-- Consecutive compute cycles in which taps report their supply (R133 to R141, R147, R148): a detector trips when a tap of its
tiles lies below the trip level; each edge after a trip is stretched, which is debt, or lateness alone under an emergency. The
cycles take their time. -/
def execDroopTrip (d : DieId) (taps : List (List (Nat × Nat))) (s : State) : Host.Outcome State Fault Refusal :=
  let x := s.die d
  if !x.detectorsOn ∨ !x.computes then .next s
  else
    let level := s.tripLevel d
    let q := x.quarterPeriod
    let armed := settingQuarters (s.dset d 0x2200 3)
    let normal := settingQuarters (s.dset d 0x2200 2)
    let go (a : Droop × Nat × Nat) (c : List (Nat × Nat)) : Droop × Nat × Nat :=
      let live := (x.til.tripped level c).filter fun i => !a.1.masked.getLsbD i
      let r := a.1.cycle live (s.tray.now + a.2.2 / debtUnit) armed normal
      (r.1, a.2.1 + r.2 * q, a.2.2 + (4 + r.2) * q)
    let (w, added, spent) := taps.foldl go (x.droop, 0, 0)
    let debt := if x.stretchEmergency then 0 else added
    let late (r : Run) : Run :=
      { r with late := r.late + (r.lateSub + added) / debtUnit, lateSub := (r.lateSub + added) % debtUnit }
    .next (((s.advanceTo (s.tray.now + spent / debtUnit)).modDie d fun x => { x with
      droop := { w with debtEpoch := w.debtEpoch + debt }
      til := { x.til with runs := x.til.runs.map late } }).floatCheck d)

/-- The window that closes first closes, 2 µs after its segment started (R140). -/
def execArmedWindowClose (d : DieId) (s : State) : Host.Outcome State Fault Refusal :=
  match (s.die d).droop.armed.filterMap Armed.close with
  | [] => .next s
  | c :: cs =>
    let s1 := s.advanceTo (cs.foldl min c)
    .next (s1.modDie d fun x => { x with droop := { x.droop with
      armed := x.droop.armed.filter fun a => match a.close with | some t => decide (s1.tray.now < t) | none => true } })

/-- A detector line fails (R136, R137): the second one masks the detector, and the lead goes to 30 mV. -/
def State.lineFails (s : State) (d : DieId) (i : Nat) : State :=
  let w := (s.die d).droop
  if !w.lineFailed.getLsbD i then
    (s.modDie d fun x => { x with droop := { x.droop with
      lineFailed := x.droop.lineFailed ||| BitVec.twoPow 64 i } }).logDie d 0x2201 [BitVec.ofNat 8 i]
  else if !w.masked.getLsbD i then
    ((s.modDie d fun x => { x with droop := { x.droop with
      lineFailed2 := x.droop.lineFailed2 ||| BitVec.twoPow 64 i
      masked := x.droop.masked ||| BitVec.twoPow 64 i } }).logDie d 0x2202 [BitVec.ofNat 8 i]).retarget d
  else s

/-- Detectors that pass a retest return to service (R137). -/
def State.unmaskLines (s : State) (d : DieId) (pass : BitVec 64) : State :=
  (s.modDie d fun x => { x with droop := { x.droop with
    lineFailed := x.droop.lineFailed &&& ~~~pass, lineFailed2 := x.droop.lineFailed2 &&& ~~~pass
    masked := x.droop.masked &&& ~~~pass } }).retarget d

/-- The 1 ms test of one line of every detector that still tests (R136); during a warm reset every detector is tested anew, and
one that passes is unmasked (R137, R537). A line that fails for the first time is marked and recorded. -/
def execDetectorTest (d : DieId) (failed : Nat) (s : State) : Host.Outcome State Fault Refusal :=
  let x := s.die d
  if !x.detectorsOn then .next s
  else
    let bad := (List.range 64).filter fun i => bit failed i && !x.droop.lineFailed.getLsbD i
    let s1 := if x.svc.warm then s.unmaskLines d (~~~BitVec.ofNat 64 failed)
      else s.modDie d fun x => { x with droop := { x.droop with testLine := 1 - x.droop.testLine } }
    .next (bad.foldl (fun s i => s.lineFails d i) s1)

/-- A line stays tripped for 100 µs while VCORE measured lies within 10 mV of its target (R136). -/
def execDetectorLineStuck (d : DieId) (det : Fin 64) (s : State) : Host.Outcome State Fault Refusal :=
  let r := (s.die d).rails
  if !(s.die d).detectorsOn ∨ 40 < ((r.vcoreMeas : Int) - r.target).natAbs then .next s
  else .next (s.lineFails d det.val)

/-- A write of 0x2200:01, :02 or :03 (R150). -/
def execDroopSettingWrite (m : MasterId) (d : DieId) (sub v : Nat) (s : State) : Host.Outcome State Fault Refusal :=
  .next (s.gate m ⟨0x2200, sub, d.val⟩ (leBytes 1 v) fun s _ w => s.limitWrite ⟨0x2200, sub, d.val⟩ (leNat w) id)

end Sys2Proof.Machine
end

