-- ==== Sys2Proof/Machine/Floats.lean ====
section
/-! DEFINITION. The data formats of the units and their arithmetic (11.4): every value is exact until it is rounded once,
to nearest, ties to even (R269, R270). Not-a-number results, infinities and the sign of an exact zero follow the standards
that Table 11.1 names (log 8, DESIGN CHOICE). -/

namespace Sys2Proof.Machine
open Sys2Proof

/-- A floating-point value: not a number, an infinity, or (-1)^neg * m * 2^e. -/
inductive Fp where
  | nan
  | inf (neg : Bool)
  | fin (neg : Bool) (m : Nat) (e : Int)
  deriving DecidableEq, Repr

/-- Exponent and fraction widths of a floating-point format code (Table 11.1). -/
def fmtWidths : Nat → Nat × Nat
  | 0 => (4, 3)
  | 1 => (5, 2)
  | 3 => (8, 7)
  | 4 => (5, 10)
  | _ => (8, 23)

/-- Size s in bytes of a format code (Table 11.1). -/
def fmtSize (fmt : Nat) : Nat := if fmt < 3 then 1 else if fmt < 5 then 2 else 4

/-- The format holds integers. -/
def fmtInt (fmt : Nat) : Bool := fmt == 2 || fmt == 6

/-- Read a floating-point format. -/
def fpDecode (fmt raw : Nat) : Fp :=
  let (eb, mb) := fmtWidths fmt
  let neg := bit raw (eb + mb)
  let e := bits raw (eb + mb - 1) mb
  let m := raw % 2 ^ mb
  let bias : Int := 2 ^ (eb - 1) - 1
  if e = 2 ^ eb - 1 ∧ fmt ≠ 0 then (if m = 0 then .inf neg else .nan)
  else if e = 2 ^ eb - 1 ∧ m = 2 ^ mb - 1 then .nan
  else if e = 0 then .fin neg m (1 - bias - (mb : Int))
  else .fin neg (2 ^ mb + m) ((e : Int) - bias - mb)

/-- The encoding of m * 2^e without sign, rounded to nearest even; `sticky` says that the exact value is slightly larger.
The result may run past the largest finite encoding. -/
def fpRound (eb mb m : Nat) (e : Int) (sticky : Bool) : Nat :=
  let emin : Int := 2 - 2 ^ (eb - 1) - (mb : Int)
  if m = 0 then 0
  else
    let q := max (e + (Nat.log2 m : Int) - mb) emin
    let r := if q ≤ e then m * 2 ^ (e - q).toNat
      else
        let sh := (q - e).toNat
        let k := m / 2 ^ sh
        let rem := m % 2 ^ sh
        let half := 2 ^ (sh - 1)
        if half < rem ∨ (rem = half ∧ (sticky ∨ k % 2 = 1)) then k + 1 else k
    (q - emin).toNat * 2 ^ mb + r

/-- Encode m * 2^e in a format (R269): FP8 saturates to its largest finite value, the others overflow to infinity. -/
def fpEncode (fmt : Nat) (neg : Bool) (m : Nat) (e : Int) (sticky : Bool) : Nat :=
  let (eb, mb) := fmtWidths fmt
  let r := fpRound eb mb m e sticky
  let top := (2 ^ eb - 1) * 2 ^ mb
  let v := if fmt = 0 then min r (top + 2 ^ mb - 2) else if fmt = 1 then min r (top - 1) else min r top
  v + 2 ^ (eb + mb) * b2n neg

/-- An infinity in a format: FP8 saturates. -/
def fpInf (fmt : Nat) (neg : Bool) : Nat :=
  let (eb, mb) := fmtWidths fmt
  let top := (2 ^ eb - 1) * 2 ^ mb
  (if fmt = 0 then top + 2 ^ mb - 2 else if fmt = 1 then top - 1 else top) + 2 ^ (eb + mb) * b2n neg

/-- A NaN in a format from an operation's operands: which one the spec leaves open, but for the fraction of E4M3 (R269). -/
def fpNan (fmt op a b : Nat) : Nat :=
  let w := (Config.nanOf (256 * fmt + op) (BitVec.ofNat 32 a) (BitVec.ofNat 32 b)).toNat
  let (eb, mb) := fmtWidths fmt
  let f := w % 2 ^ mb
  (2 ^ eb - 1) * 2 ^ mb + (if fmt = 0 then 7 else if f = 0 then 1 else f) + 2 ^ (eb + mb) * b2n (bit w 31)

/-- Encode a value in a format. -/
def fpPut (fmt op a b : Nat) : Fp → Nat
  | .nan => fpNan fmt op a b
  | .inf n => fpInf fmt n
  | .fin n m e => fpEncode fmt n m e false

/-- The exact value scaled by 2^600, as an integer: every finite product of two operands is one. -/
def fpScaled (neg : Bool) (m : Nat) (e : Int) : Int :=
  let v : Int := (m * 2 ^ (e + 600).toNat : Nat)
  if neg then -v else v

/-- Product. -/
def fpMul : Fp → Fp → Fp
  | .nan, _ => .nan
  | _, .nan => .nan
  | .inf a, .inf b => .inf (a != b)
  | .inf a, .fin b m _ => if m = 0 then .nan else .inf (a != b)
  | .fin a m _, .inf b => if m = 0 then .nan else .inf (a != b)
  | .fin a m e, .fin b n f => .fin (a != b) (m * n) (e + f)

/-- What is known of a sum while its terms are added: a NaN came, infinities of either sign came, the exact sum, and
whether every term is a negative zero. -/
structure FpSum where
  nan : Bool := false
  pinf : Bool := false
  ninf : Bool := false
  sum : Int := 0
  allNegZero : Bool := true
  deriving DecidableEq, Repr

/-- Add a term exactly. -/
def FpSum.add (a : FpSum) : Fp → FpSum
  | .nan => { a with nan := true, allNegZero := false }
  | .inf n => { a with pinf := a.pinf || !n, ninf := a.ninf || n, allNegZero := false }
  | .fin n m e => { a with sum := a.sum + fpScaled n m e, allNegZero := a.allNegZero && n && m == 0 }

/-- The exact sum of terms. -/
def fpSum (ts : List Fp) : Fp :=
  let a := ts.foldl FpSum.add {}
  if a.nan || (a.pinf && a.ninf) then .nan
  else if a.pinf then .inf false
  else if a.ninf then .inf true
  else if a.sum = 0 then .fin (a.allNegZero && !ts.isEmpty) 0 0
  else .fin (decide (a.sum < 0)) a.sum.natAbs (-600)

/-- An FP32 operand. -/
def f32 (raw : Nat) : Fp := fpDecode 5 raw

/-- The exact sum of terms rounded once to FP32; `op`, a and b name the operands of an open NaN. -/
def sumTo32 (op a b : Nat) (ts : List Fp) : Nat := fpPut 5 op a b (fpSum ts)

/-! ### Integer conversions (R269, R276) -/

/-- Round a value to an integer, ties to even. -/
def fpToInt (neg : Bool) (m : Nat) (e : Int) : Int :=
  let k : Nat :=
    if 0 ≤ e then m * 2 ^ e.toNat
    else
      let sh := (-e).toNat
      let q := m / 2 ^ sh
      let rem := m % 2 ^ sh
      let half := 2 ^ (sh - 1)
      if half < rem ∨ (rem = half ∧ q % 2 = 1) then q + 1 else q
  if neg then -(k : Int) else k

/-- Convert a value to two's complement of width w: saturating, a NaN gives 0 (R276). -/
def fpToTwos (w : Nat) : Fp → Nat
  | .nan => 0
  | .inf n => ofInt w (if n then -(2 ^ (w - 1) : Nat) else (2 ^ (w - 1) : Nat) - 1)
  | .fin n m e => ofInt w (clampI (-(2 ^ (w - 1) : Nat)) ((2 ^ (w - 1) : Nat) - 1) (fpToInt n m e))

/-- The value of an integer. -/
def fpOfInt (v : Int) : Fp := .fin (decide (v < 0)) v.natAbs 0

/-- Convert an FP32 element to a memory format (R269, R276). -/
def fromF32 (fmt raw : Nat) : Nat :=
  if fmt = 5 then raw
  else if fmt = 2 then fpToTwos 8 (f32 raw)
  else if fmt = 6 then fpToTwos 32 (f32 raw)
  else fpPut fmt 1 raw 0 (f32 raw)

/-- Convert a memory element to FP32 (R276). -/
def toF32 (fmt raw : Nat) : Nat :=
  if fmt = 5 then raw
  else if fmt = 2 then fpPut 5 2 0 0 (fpOfInt (toInt 8 raw))
  else if fmt = 6 then fpPut 5 2 0 0 (fpOfInt (toInt 32 raw))
  else fpPut 5 2 raw 0 (fpDecode fmt raw)

/-- Convert an INT32 accumulator element to a memory format (R276). -/
def fromI32 (fmt raw : Nat) : Nat :=
  let v := toInt 32 raw
  if fmt = 6 then raw
  else if fmt = 2 then ofInt 8 (clampI (-128) 127 v)
  else fpPut fmt 3 0 0 (fpOfInt v)

/-! ### Vector operations (R270) -/

/-- The integer square root, by bits from `k` down. -/
def isqrt (n : Nat) : Nat := go (Nat.log2 n / 2 + 1) 0
where
  go : Nat → Nat → Nat
    | 0, r => if (r + 1) * (r + 1) ≤ n then r + 1 else r
    | k + 1, r => go k (if (r + 2 ^ (k + 1)) * (r + 2 ^ (k + 1)) ≤ n then r + 2 ^ (k + 1) else r)

/-- Va + Vb. -/
def vAdd (a b : Nat) : Nat := sumTo32 4 a b [f32 a, f32 b]

/-- Va × Vb. -/
def vMul (a b : Nat) : Nat := fpPut 5 5 a b (fpMul (f32 a) (f32 b))

/-- Va × Vb + Vc, rounded once. -/
def vFma (a b c : Nat) : Nat :=
  sumTo32 6 (a ^^^ c) b [fpMul (f32 a) (f32 b), f32 c]

/-- A number's place in the order of the finite values and infinities. -/
def fpKey : Fp → Int
  | .nan => 0
  | .inf n => if n then -(2 ^ 1000 : Nat) else (2 ^ 1000 : Nat)
  | .fin n m e => fpScaled n m e

/-- max(Va, Vb): open where one is a NaN or both are zeros of different sign. -/
def vMax (a b : Nat) : Nat :=
  match f32 a, f32 b with
  | .nan, _ => (Config.maxOpen (BitVec.ofNat 32 a) (BitVec.ofNat 32 b)).toNat
  | _, .nan => (Config.maxOpen (BitVec.ofNat 32 a) (BitVec.ofNat 32 b)).toNat
  | x, y =>
    if fpKey x = fpKey y then (if a = b then a else (Config.maxOpen (BitVec.ofNat 32 a) (BitVec.ofNat 32 b)).toNat)
    else if fpKey x < fpKey y then b else a

/-- 1 / Va. -/
def vRcp (a : Nat) : Nat :=
  match f32 a with
  | .nan => fpNan 5 7 a 0
  | .inf n => fpEncode 5 n 0 0 false
  | .fin n m e =>
    if m = 0 then fpInf 5 n
    else fpEncode 5 n (2 ^ 120 / m) (-120 - e) (2 ^ 120 % m != 0)

/-- 1 / √Va. -/
def vRsqrt (a : Nat) : Nat :=
  match f32 a with
  | .nan => fpNan 5 8 a 0
  | .inf n => if n then fpNan 5 8 a 0 else 0
  | .fin n m e =>
    if m = 0 then fpInf 5 n
    else if n then fpNan 5 8 a 0
    else
      let (m, e) := if e % 2 = 0 then (m, e) else (2 * m, e - 1)
      let q := 2 ^ 240 / m
      let r := isqrt q
      fpEncode 5 false r (-120 - e / 2) (r * r != q || 2 ^ 240 % m != 0)

/-- 2^(k / 2^n) for 0 ≤ k < 2^n, scaled by 2^200 and rounded down: the product of the square roots of 2 that the bits of k
name. -/
def exp2Frac : Nat → Nat → Nat → Nat → Nat
  | 0, _, _, acc => acc
  | n + 1, k, root, acc =>
    let root' := isqrt (root * 2 ^ 200)
    exp2Frac n k root' (if bit k n then acc * root' / 2 ^ 200 else acc)

/-- 2^Va. The power is irrational for every Va that is no integer, so it never lies on a tie. -/
def vExp2 (a : Nat) : Nat :=
  match f32 a with
  | .nan => fpNan 5 9 a 0
  | .inf n => if n then 0 else fpInf 5 false
  | .fin n m e =>
    if m = 0 then 0x3F800000
    else if 0 ≤ e then
      (if 7 < e then (if n then 0 else fpInf 5 false)
       else
         let v : Int := (m * 2 ^ e.toNat : Nat)
         if 1000 < v then (if n then 0 else fpInf 5 false) else fpEncode 5 false 1 (if n then -v else v) false)
    else
      let w := (-e).toNat
      if 60 < w ∧ m < 2 ^ (w - 30) then 0x3F800000
      else
        let v : Int := if n then -(m : Int) else m
        let i := v / (2 ^ w : Nat)
        let k := (v % (2 ^ w : Nat)).toNat
        if 1000 < i then fpInf 5 false
        else if i < -1000 then 0
        else if k = 0 then fpEncode 5 false 1 i false
        else fpEncode 5 false (exp2Frac w k (2 * 2 ^ 200) (2 ^ 200)) (i - 200) true

/-- Va × imm + Vb. -/
def vScale (a imm b : Nat) : Nat := vFma a imm b

/-- The sum or the maximum of a vector's lanes. -/
def vReduce (mx : Bool) (lanes : List Nat) : Nat :=
  match lanes with
  | [] => 0
  | a :: as => if mx then as.foldl vMax a else sumTo32 10 a 0 (lanes.map f32)

/-- One accumulator element after an MMA (R270): the products of a row and a column added exactly to the old value. -/
def mmaElem (fmt old : Nat) (row col : List Nat) : Nat :=
  if fmt = 2 then
    ofInt 32 (clampI (-(2 ^ 31 : Nat)) ((2 ^ 31 : Nat) - 1)
      (toInt 32 old + (List.zipWith (fun a w => toInt 8 a * toInt 8 w) row col).sum))
  else
    sumTo32 11 old (row.headD 0)
      (f32 old :: List.zipWith (fun a w => fpMul (fpDecode fmt a) (fpDecode fmt w)) row col)

end Sys2Proof.Machine
end

