-- ==== Sys2Proof/Machine/Operands.lean ====
section
/-! DEFINITION. The operand forms of step records (Table 11.8): fields, reserved bits, accepted formats, resources,
latencies, and the lines an operation reads and writes. -/

namespace Sys2Proof.Machine
open Sys2Proof

/-! ### Opcodes and fields -/

/-- The opcode is known (Table 11.8). -/
def opKnown (op : Nat) : Bool :=
  decide (op ≤ 5) || decide (0x10 ≤ op ∧ op ≤ 0x1B) || decide (0x20 ≤ op ∧ op ≤ 0x22) || op == 0x30 || op == 0x31 ||
    decide (0x40 ≤ op ∧ op ≤ 0x43) || decide (0x50 ≤ op ∧ op ≤ 0x52)

/-- The highest format code an opcode accepts (Table 11.11). -/
def opFmtMax (op : Nat) : Nat := if op = 1 ∨ op = 3 then 4 else if op = 4 ∨ op = 0x10 ∨ op = 0x11 then 6 else 0

/-- The operand bits that Table 11.8 names for an opcode, as ranges [hi:lo]. -/
def opFields (op : Nat) : List (Nat × Nat) :=
  match op with
  | 0x01 => [(15, 0)]
  | 0x03 | 0x04 => [(15, 0), (24, 16), (40, 32)]
  | 0x05 => [(24, 16), (40, 32)]
  | 0x10 | 0x11 => [(5, 0), (13, 8), (31, 16)]
  | 0x12 | 0x13 | 0x15 => [(5, 0), (13, 8), (21, 16)]
  | 0x14 => [(5, 0), (13, 8), (21, 16), (29, 24)]
  | 0x16 | 0x17 | 0x18 => [(5, 0), (13, 8)]
  | 0x19 => [(5, 0), (13, 8), (33, 32)]
  | 0x1A => [(5, 0), (13, 8), (21, 16), (63, 32)]
  | 0x1B => [(5, 0), (24, 16)]
  | 0x20 => [(22, 0), (45, 23), (57, 46)]
  | 0x21 => [(22, 0), (31, 23), (63, 32)]
  | 0x22 => [(15, 0), (31, 16), (39, 32), (45, 40), (61, 46)]
  | 0x30 | 0x31 => [(7, 0), (23, 8), (35, 24)]
  | 0x40 => [(2, 0), (23, 8)]
  | 0x41 => [(7, 0), (23, 8), (43, 24), (46, 44)]
  | 0x42 => [(7, 0), (19, 8), (25, 20), (38, 26), (54, 39)]
  | 0x43 => [(7, 0)]
  | 0x50 => [(9, 0)]
  | _ => []

/-- Every set operand bit lies in a named field. -/
def operandReservedOk (op w : Nat) : Bool :=
  (List.range 64).all fun i => !bit w i || (opFields op).any fun f => decide (f.2 ≤ i ∧ i ≤ f.1)

/-- LA of an RA, and its plan column and row (11.6). -/
def raLA (ra : Nat) : Nat := ra % 65536
def raU (ra : Nat) : Nat := ra / 2 ^ 19 % 16
def raV (ra : Nat) : Nat := ra / 65536 % 8

/-- M of MMA, MDRAIN and MZERO, and n of VLOAD, VSTORE, FSEND and FRECV. -/
def Rec.M (r : Rec) : Nat := bits r.w 40 32 + 1
def Rec.nv (r : Rec) : Nat := bits r.w 13 8 + 1
def Rec.nf (r : Rec) : Nat := bits r.w 35 24 + 1

/-- Source and destination of MCOPY, destination of MFILL. -/
def Rec.src (r : Rec) : Nat := bits r.w 22 0
def Rec.dst (r : Rec) : Nat := if r.op = 0x21 then bits r.w 22 0 else bits r.w 45 23

/-- Lines n of MCOPY and MFILL. -/
def Rec.nm (r : Rec) : Nat := if r.op = 0x21 then bits r.w 31 23 + 1 else bits r.w 57 46 + 1

/-- b, k and stride of MGATHER. -/
def Rec.gb (r : Rec) : Nat := bits r.w 39 32 + 1
def Rec.gk (r : Rec) : Nat := bits r.w 45 40 + 1
def Rec.stride (r : Rec) : Nat := bits r.w 61 46

/-- Keys n of SSTREAM; C, k and B of SSELECT. -/
def Rec.nk (r : Rec) : Nat := bits r.w 43 24 + 1
def Rec.selC (r : Rec) : Nat := bits r.w 19 8
def Rec.selK (r : Rec) : Nat := bits r.w 25 20 + 1
def Rec.selB (r : Rec) : Nat := bits r.w 38 26

/-- Size s of the record's format code. -/
def Rec.s (r : Rec) : Nat := fmtSize r.fmt

/-- The hop count between two tiles (11.6). -/
def hops (u v u' v' : Nat) : Nat := (u - u') + (u' - u) + (v - v') + (v' - v)

/-- The field ranges of Table 11.8 and R277. -/
def Rec.rangesOk (r : Rec) (p : Plan) : Bool :=
  match r.op with
  | 0x01 => decide (bits r.w 15 0 + 128 * r.s ≤ 65536)
  | 0x03 => decide (bits r.w 24 16 + r.M ≤ 512) && decide (bits r.w 15 0 + r.M * r.s ≤ 65536)
  | 0x04 => decide (bits r.w 24 16 + r.M ≤ 512) && decide (bits r.w 15 0 + r.M * r.s ≤ 65536)
  | 0x05 => decide (bits r.w 24 16 + r.M ≤ 512)
  | 0x10 | 0x11 => decide (bits r.w 5 0 + r.nv ≤ 64) && decide (128 * bits r.w 31 16 + 64 * r.nv * r.s ≤ 2 ^ 23)
  | 0x19 => decide (bits r.w 33 32 ≤ 1)
  | 0x1B => decide (bits r.w 5 0 ≤ 62)
  | 0x20 => decide (raU r.src < p.w) && decide (raV r.src < p.h) && decide (raU r.dst < p.w) && decide (raV r.dst < p.h) &&
      decide (raLA r.src + r.nm ≤ 65536) && decide (raLA r.dst + r.nm ≤ 65536)
  | 0x21 => decide (raU r.dst < p.w) && decide (raV r.dst < p.h) && decide (raLA r.dst + r.nm ≤ 65536)
  | 0x22 => decide (bits r.w 31 16 + r.gk * r.gb ≤ 65536)
  | 0x30 | 0x31 => decide (bits r.w 23 8 + r.nf ≤ 65536)
  | _ => true

/-! ### Resources and latencies -/

/-- The resources of a tile (11.6). -/
inductive Res where
  | meL | meA | vu | mm | fxS | fxR | sc | sy
  deriving DecidableEq, Repr

/-- The resources an operation occupies: VACC takes two. -/
def opRes (op : Nat) : List Res :=
  if op = 1 then [.meL]
  else if op = 0x1B then [.vu, .meA]
  else if 2 ≤ op ∧ op ≤ 5 then [.meA]
  else if 0x10 ≤ op ∧ op ≤ 0x1A then [.vu]
  else if 0x20 ≤ op ∧ op ≤ 0x22 then [.mm]
  else if op = 0x30 then [.fxS]
  else if op = 0x31 then [.fxR]
  else if 0x40 ≤ op ∧ op ≤ 0x43 then [.sc]
  else [.sy]

/-- Latency in plan cycles of a record on plan tile (u, v) (Table 11.8). -/
def Rec.latency (r : Rec) (u v : Nat) : Nat :=
  match r.op with
  | 0x01 => 8 + 128 * r.s
  | 0x03 => if r.s = 1 then 16 + r.M else 16 + 4 * r.M
  | 0x04 => 8 + r.s * r.M
  | 0x05 => 2 + ceilDiv r.M 8
  | 0x10 | 0x11 => 8 + ceilDiv (r.nv * r.s) 2
  | 0x12 | 0x13 | 0x14 | 0x15 | 0x1A | 0x1B => 4
  | 0x16 | 0x17 | 0x18 | 0x19 => 8
  | 0x20 => 8 + 2 * hops (raU r.src) (raV r.src) (raU r.dst) (raV r.dst) + 2 * r.nm
  | 0x21 => 8 + 2 * hops u v (raU r.dst) (raV r.dst) + 2 * r.nm
  | 0x22 => 8 + r.gk * r.gb
  | 0x30 | 0x31 => 8 + r.nf
  | 0x40 => 5016
  | 0x41 => 2 * (r.nk * 2 ^ bits r.w 46 44 + 40)
  | 0x42 => 64 + r.selK
  | 0x43 => 6000
  | 0x50 => 2
  | _ => 1

/-- Counts of classes A0 to A7 from pairs of a class and its count (Table 09.2). -/
def classCounts (l : List (Nat × Nat)) : List Nat := (List.range 8).map fun k => ((l.filter fun e => e.1 == k).map Prod.snd).sum

/-- The activity that a record on plan tile (u, v) adds (Table 11.8). -/
def Rec.activity (r : Rec) (u v : Nat) : List Nat :=
  let mm (h : Nat) : List (Nat × Nat) := [(4, 2 * r.nm * h), (6, 2 * r.nm)]
  classCounts (match r.op with
  | 0x01 => [(2, 256 * r.s)]
  | 0x03 => [if r.s = 1 then (0, r.M) else (1, 4 * r.M), (2, 2 * r.s * r.M)]
  | 0x04 => [(3, 2 * r.s * r.M)]
  | 0x10 => [(2, r.nv * r.s)]
  | 0x11 => [(3, r.nv * r.s)]
  | 0x12 | 0x13 | 0x14 | 0x15 | 0x16 | 0x17 | 0x18 | 0x19 | 0x1A | 0x1B => [(5, 1)]
  | 0x20 => [(2, 2 * r.nm), (3, 2 * r.nm)] ++ mm (hops (raU r.src) (raV r.src) (raU r.dst) (raV r.dst))
  | 0x21 => (3, 2 * r.nm) :: mm (hops u v (raU r.dst) (raV r.dst))
  | 0x22 => [(2, 2 * r.gk * r.gb), (3, 2 * r.gk * r.gb), (6, 2 * r.gk * r.gb)]
  | 0x30 => [(2, 2 * r.nf), (6, 2 * r.nf)]
  | 0x31 => [(3, 2 * r.nf), (6, 2 * r.nf)]
  | 0x40 => [(2, 18)]
  | 0x41 => [(2, ceilDiv (36 * r.nk) 64)]
  | 0x42 => [(3, 1), (5, 1)]
  | _ => [])

/-! ### Lines read and written: plan column, plan row, first LA and line count -/

/-- Lines that bytes starting on a line take. -/
def lines (bytes : Nat) : Nat := ceilDiv bytes 128

/-- The lines an operation reads; of MGATHER, those of any index below C (check 0x09). -/
def Rec.reads (r : Rec) (u v c : Nat) : List (Nat × Nat × Nat × Nat) :=
  match r.op with
  | 0x01 => [(u, v, bits r.w 15 0, 128 * r.s)]
  | 0x03 => [(u, v, bits r.w 15 0, r.M * r.s)]
  | 0x10 => [(u, v, bits r.w 31 16, lines (64 * r.nv * r.s))]
  | 0x20 => [(raU r.src, raV r.src, raLA r.src, r.nm)]
  | 0x22 => [(u, v, bits r.w 15 0, (c - 1) * r.stride + r.gb)]
  | 0x30 => [(u, v, bits r.w 23 8, r.nf)]
  | 0x40 => [(0, 0, bits r.w 23 8, 9)]
  | 0x41 => [(0, 0, bits r.w 23 8, lines (36 * r.nk))]
  | _ => []

/-- The lines an operation writes. -/
def Rec.writes (r : Rec) (u v : Nat) : List (Nat × Nat × Nat × Nat) :=
  match r.op with
  | 0x04 => [(u, v, bits r.w 15 0, r.M * r.s)]
  | 0x11 => [(u, v, bits r.w 31 16, lines (64 * r.nv * r.s))]
  | 0x20 => [(raU r.dst, raV r.dst, raLA r.dst, r.nm)]
  | 0x21 => [(raU r.dst, raV r.dst, raLA r.dst, r.nm)]
  | 0x22 => [(u, v, bits r.w 31 16, r.gk * r.gb)]
  | 0x31 => [(u, v, bits r.w 23 8, r.nf)]
  | 0x42 => [(0, 0, bits r.w 54 39, 1)]
  | _ => []

end Sys2Proof.Machine
end

