-- ==== Sys2Proof/Machine/EnergyEvents.lean ====
section
/-! DEFINITION. Energy ledger and estimator (chapter 09). Energies are in units of 1 fJ / 10,240,000 (type Energy): a
coefficient in fJ times a count times the square of a voltage in 0.25 mV. Quotients round down (log 7, DESIGN CHOICE). -/

namespace Sys2Proof.Machine
open Sys2Proof

/-! ### Estimates (R213, R224) -/

/-- The highest reading of the four hot-spot sensors from n on; the mean of the boundary while they have none. -/
def Die.tileT (x : Die) (n : Nat) : Int := (maxOf ((List.range 4).filterMap fun i => x.heat.reading (n + i))).getD x.nrg.attrT

/-- The mean of the hot-spot sensors of a die (R224). -/
def Die.hotMean (x : Die) : Option Int :=
  let rs := (List.range 544).filterMap fun n => x.heat.reading n
  if rs.isEmpty then none else some (rs.sum / rs.length)

/-- The logical tiles that a context's run occupies. -/
def Run.count (r : Run) : Nat := r.plan.w * r.plan.h

/-! ### The 10 µs interval (R210 to R216, R224 to R228) -/

/-- Charge the shared overhead of a span at the rate of the epoch (R225, R226): what no context receives is the die's
unattributed overhead. -/
def State.chargeOverhead (s : State) (d : DieId) (ns : Ns) : State :=
  let x := s.die d
  let e := energyOf x.nrg.overRate ns
  let rule := s.dset d 0x2600 5
  let parts := (s.residents d).map fun k => (k, overheadPart rule e (((s.ctx? k.1 k.2).map Ctx.held).getD 0))
  let live := parts.filter fun p => match s.ctx? p.1.1 p.1.2 with | some c => !c.frozen | none => false
  let s1 := live.foldl (fun s p => s.charge d p.1.1 p.1.2 none p.2) s
  s1.modNrg d fun n => { n with unattributed := n.unattributed + (e - (live.map Prod.snd).sum - n.partPaid), partPaid := 0 }

/-- Add up the counts of a list of activities. -/
def totalCounts (l : List Activity) : List Nat := l.foldl (fun a b => addCounts a b.counts) (List.replicate 8 0)

/-! ### The fit (R214, R215) -/

/-- Make column k of an augmented matrix that of the unit matrix; none when no row from k on has an entry there. -/
def eliminate (k : Nat) (rows : List (List Rat)) : Option (List (List Rat)) :=
  ((List.range rows.length).find? fun i => decide (k ≤ i) && (rows.getD i []).getD k 0 != 0).map fun i =>
    let p := rows.getD i []
    let q := p.map fun a => a / p.getD k 0
    ((rows.set i (rows.getD k [])).set k q).mapIdx fun j r =>
      if j = k then r else List.zipWith (fun a b => a - r.getD k 0 * b) r q

/-- The solution of a square system of equations, none when it is singular. -/
def solve (a : List (List Rat)) (b : List Rat) : Option (List Rat) :=
  ((List.range b.length).foldl (fun m k => m.bind (eliminate k)) (some (List.zipWith (fun r y => r ++ [y]) a b))).map
    fun rows => rows.map fun r => r.getLastD 0

/-- The products of two entries of a vector. -/
def outer (f : List Nat) : List (List Rat) := f.map fun a => f.map fun b => (a * b : Nat)

/-- f × the first list plus the second, entry by entry; an empty first list counts as zeros. -/
def scaleAdd (f : Rat) (a b : List Rat) : List Rat := b.mapIdx fun i y => f * a.getD i 0 + y

/-- One step of the recursive least squares (R214): activities n of A0 to A6 at voltage v against an energy y, older intervals with
the factor 1 - 2^-12. The fused start carries no weight, and the activity varies enough when the products of the last 4,096
intervals are not singular (log 136, DESIGN CHOICE). Quotients round down. -/
def Energy.learn (n : Energy) (d : DieId) (counts : List Nat) (v : Nat) (y : Int) : Energy :=
  let a := counts.take 7
  let f := a.map (· * (v * v))
  let r := (outer f).mapIdx fun i row => scaleAdd (4095 / 4096) (n.fitR.getD i []) row
  let b := scaleAdd (4095 / 4096) n.fitB (f.map fun (k : Nat) => (((k : Int) * y : Int) : Rat))
  let w := (a :: n.window).take 4096
  let gram := w.foldl (fun g c => (outer c).mapIdx fun i row => scaleAdd 1 (g.getD i []) row) []
  let sol := (solve gram (List.replicate 7 0)).bind fun _ => solve r b
  { n with
    fitR := r, fitB := b, window := w, notDetermined := sol.isNone
    coeff := match sol with | some th => th.map (fun q => q.floor.toNat) ++ (coeffsOf d n.coeff).drop 7 | none => n.coeff }

/-- The root-mean-square residual in per mille of the mean current (R215). -/
def residualOf (l : List (Int × Nat)) : Nat :=
  let mean := (l.map Prod.snd).sum
  if mean = 0 then 0
  else Nat.sqrt ((l.map fun e => e.1.natAbs ^ 2).sum * l.length * 1000000 / mean ^ 2)

/-- A die after an interval of `ns` with energies `core` of VCORE and `pred` predicted, of which `fixed` by A7 and leakage, with
`idleLeak` of idle tiles, activities `counts` and tile energies `te` (R211, R214, R215, R217, R221, R224). -/
def Die.measured (x : Die) (d : DieId) (now : Ns) (r : EnergySample) (on : Bool) (ns : Ns) (v core pred fixed idleLeak : Nat)
    (counts te : List Nat) : Die :=
  let restMw := r.vsram + r.vana + r.vhtr + r.vio
  let predMa : Nat := if r.mv = 0 then 0 else pred * 4 / (r.mv * ns * 10240000)
  let errs := if on then (((r.ma : Int) - predMa, r.ma) :: x.nrg.fitErrs).take 100000 else x.nrg.fitErrs
  let n := if !x.nrg.frozen ∧ x.svc.holding.isNone ∧ on then x.nrg.learn d counts v ((core : Int) - fixed) else x.nrg
  { x with
    nrg := { n with
      measured := x.nrg.measured + core + energyOf restMw ns
      columns := (List.range 16).map fun c =>
        x.nrg.columns.getD c 0 + ((List.range 8).map fun row => te.getD (16 * row + c) 0).sum
      tiles := te.mapIdx fun L e => x.nrg.tiles.getD L 0 + e, acts := [], intervalFrom := now, fitErrs := errs, residual := residualOf errs
      vcoreEpoch := x.nrg.vcoreEpoch + core, predEpoch := x.nrg.predEpoch + pred
      overEpoch := x.nrg.overEpoch + energyOf restMw ns + idleLeak
      sinceBench := if on then x.nrg.sinceBench + ns else x.nrg.sinceBench }
    pow := { x.pow with
      epochEnergy := x.pow.epochEnergy + max (r.mv * r.ma / 4000 * ns) (x.uplifted (pred / 10240000000)) + restMw * ns }
    op := { x.op with ageRuntime := if on then x.op.ageRuntime + ns else x.op.ageRuntime } }

/-- One measured interval (R211, R213, R214, R224), 10 µs, or 1 ms of telemetry while VCORE is off; time goes on to its end
(log 130, DESIGN CHOICE). -/
def execEnergyInterval (d : DieId) (r : EnergySample) (s : State) : Host.Outcome State Fault Refusal :=
  let on := (s.die d).rails.vcore
  let ns : Ns := if on then 10000 else 1000000
  let s := s.advanceTo ((s.die d).nrg.intervalFrom + ns)
  let x := s.die d
  let v := s.vNoLead d
  let cs := coeffsOf d x.nrg.coeffEpoch
  let core := r.mv * r.ma * ns * 10240000 / 4
  let cl := cs.getD 8 0
  let runs := x.til.runs
  let held := runs.map fun r => (⟨r.tenant, r.handle, r.queue, none, [], s.occupied d r, false⟩ : Activity)
  let busy := ((x.nrg.acts ++ held).map Activity.tileNs).sum
  let idleLeak := if on then leakEnergy d cl v x.nrg.attrT (136 * ns - busy) else 0
  let allLeak := if on then
      ((List.range 136).map fun i => leakEnergy d cl v (x.tileT (4 * i)) ns).sum else 0
  let acts := x.nrg.acts ++ (runs.map fun r => s.clockedActs d r).flatten
  let counts := totalCounts acts
  let fixed := dynEnergy cs (classCounts [(7, counts.getD 7 0)]) v + allLeak
  let te := (List.range 128).map fun L => dynEnergy cs (totalCounts (acts.filter fun a => a.tile == some L)) v +
    (if on then leakEnergy d cl v (x.tileT (4 * L)) ns else 0)
  let s1 := s.modDie d fun x => x.measured d s.tray.now r on ns v core (dynEnergy cs counts v + allLeak) fixed idleLeak counts te
  let due := (acts.filter fun a => !a.paid) ++ (if on then held else [])
  .next ((due.foldl (fun a b => a.charge d b.t b.h (some b.q) (s.actEnergy d b)) s1).chargeOverhead d ns)

/-! ### Benchmarks, confidence and uplift (09.4) -/

/-- A benchmark segment begins (R217): the clocks of its class-0 groups inside the region stop. It is spoilt from the start
while an interlock emergency or a throttle acts (R218). -/
def execBenchmarkStart (d : DieId) (t h : Nat) (s : State) : Host.Outcome State Fault Refusal :=
  let x := s.die d
  match x.til.runs.find? fun r => r.tenant == t && r.handle == h with
  | none => .next s
  | some r => match r.plan.segs[r.seg]? with
    | none => .next s
    | some g =>
      if !g.bench then .next s
      else
        let idle := (List.range (r.plan.w / 2)).filter fun j => g.classes.getD j 0 == 0
        .next (s.modNrg d fun n => { n with
          bench := (n.bench.filter fun b => !(b.t == t && b.h == h)) ++
            [⟨t, h, idle, s.tray.now, x.emergencyCause || decide (x.heat.h < 16)⟩] })

/-- A used benchmark (R218, R220): c_7, c_L, the count, and the frozen state ends. -/
def Energy.use (n : Energy) (d : DieId) (c7 cl : Nat) : Energy :=
  { n with
    coeff := ((coeffsOf d n.coeff).take 7) ++ [c7, cl], benchUsed := true, benchTotal := satAdd 32 n.benchTotal 1, sinceBench := 0
    frozen := false, uplift := 0, confidence := 1000, fusedLoaded := false }

/-- The benchmark segment of a context ends (R217, R218): it is used when it was not spoilt and holds a whole 10 µs interval; a
second one in the same interval does not count again; in a holding pattern its update waits. c_7 and c_L are what it
determines. -/
def execBenchmarkEnd (d : DieId) (t h c7 cl : Nat) (s : State) : Host.Outcome State Fault Refusal :=
  let x := s.die d
  match x.nrg.bench.find? fun b => b.t == t && b.h == h with
  | none => .next s
  | some b =>
    let cycles := match x.til.runs.find? fun r => r.tenant == t && r.handle == h with
      | some r => (r.plan.segs[r.seg]?.map Segment.dur).getD 40000
      | none => 40000
    let s1 := (s.advanceTo (b.from_ + cycles * 10 / stepN x.clk.curStep)).modNrg d fun n => { n with
      bench := n.bench.filter fun b => !(b.t == t && b.h == h) }
    let whole := decide (ceilDiv b.from_ 10000 < s1.tray.now / 10000)
    let same := x.nrg.benchUsed && x.nrg.sinceBench == 0
    if b.spoilt ∨ !whole ∨ same ∨ x.emergencyCause ∨ x.heat.h < 16 then .next s1
    else if x.svc.holding.isSome then .next (s1.modNrg d fun n => { n with benchPending := some (c7, cl) })
    else .next (s1.modNrg d fun n => n.use d c7 cl)

/-- Uplift in 0.01 % and confidence per mille at a frozen time in ns (R220). -/
def upliftAt (tf : Ns) : Nat × Nat :=
  if 28800000000000 ≤ tf then (800, 0)
  else (tf / 36000000000, 1000 - ceilDiv (125 * tf) 3600000000000)

/-- The 1 s recomputation of uplift and confidence (R220). -/
def execUpliftRecompute (d : DieId) (s : State) : Host.Outcome State Fault Refusal :=
  .next (s.modNrg d fun n =>
    if n.sinceBench ≤ 10000000000 then { n with frozen := false, uplift := 0, confidence := 1000 }
    else
      let u := upliftAt (n.sinceBench - 10000000000)
      { n with frozen := true, uplift := u.1, confidence := u.2 })

/-- The tray controller stores every die's coefficients (R223). -/
def State.storeCoeffs (s : State) : State :=
  s.allDies fun x => { x with nrg := x.nrg.save }

/-- COEFF_STORE (R223). -/
def execCoeffStore (s : State) : Host.Outcome State Fault Refusal := .next s.storeCoeffs

/-- A die loads its coefficients at its start or with an incompatible firn record (R223): the stored set in the frozen
state with t_f = 4 h, or the fused values at u = 8 %. What attribution and the governor apply changes at the next boundary (R216). -/
def State.loadCoeffs (s : State) (d : DieId) : State :=
  s.modNrg d fun n =>
    let cs := n.stored.getD (coeffsOf d [])
    let tf : Ns := if n.stored.isSome then 14400000000000 else 28800000000000
    let u := upliftAt tf
    { n with coeff := cs, fusedLoaded := n.stored.isNone, frozen := true, uplift := u.1, confidence := u.2,  sinceBench := tf + 10000000000 }

/-! ### Settings -/

/-- OVERHEAD_RULE_WRITE (R226): in effect at the next epoch boundary. -/
def execOverheadRuleWrite (m : MasterId) (d : DieId) (v : Nat) (s : State) : Host.Outcome State Fault Refusal :=
  .next (s.gate m ⟨0x2600, 5, d.val⟩ (leBytes 1 v) fun s _ w => s.boundaryWrite ⟨0x2600, 5, d.val⟩ (leNat w))

/-- A write of the context selector: it changes the writing master's own selector only (R385) (log 131, DEDUCED). -/
def State.selectApply (s : State) (d : DieId) (m : MasterId) (v : Nat) : GateResult :=
  .done (s.modMaster m fun x => { x with ctxSel := KV.put x.ctxSel d.val v }) 0 true

/-- CONTEXT_SELECTOR_WRITE (R385). -/
def execContextSelectorWrite (m : MasterId) (d : DieId) (v : Nat) (s : State) : Host.Outcome State Fault Refusal :=
  .next (s.gate m ⟨0x2600, 0x10, d.val⟩ (leBytes 4 v) fun s m w => s.selectApply d m (leNat w))

end Sys2Proof.Machine
end

