-- ==== Sys2Proof/Machine/PlanCheck.lean ====
section
/-! DEFINITION. The plan container (Tables 11.2 to 11.7) and the checks LOAD_PLAN runs on it (R281, Table 11.9, R93,
R197, R217). -/

namespace Sys2Proof.Machine
open Sys2Proof

/-! ### Reading a container -/

/-- The n-byte field at byte i; bytes beyond the end read 0. -/
def fldAt (bs : List Byte) (i n : Nat) : Nat := leNat ((bs.drop i).take n)

/-- Bytes [i, i + n) are 0 (R8). -/
def zeroAt (bs : List Byte) (i n : Nat) : Bool := ((bs.drop i).take n).all fun b => b == 0#8

/-- A step record (Table 11.4). -/
def recAt (bs : List Byte) (i : Nat) : Rec := ⟨fldAt bs i 6, fldAt bs (i + 6) 1, fldAt bs (i + 7) 1, fldAt bs (i + 8) 8⟩

/-- A contour segment (Table 11.5). -/
def segAt (bs : List Byte) (i : Nat) : Segment :=
  let c := fldAt bs (i + 10) 4
  let f := fldAt bs (i + 15) 1
  ⟨fldAt bs i 6, fldAt bs (i + 6) 4, (List.range 8).map fun j => c / 16 ^ j % 16, fldAt bs (i + 14) 1, f % 32, bit f 5,
    bit f 6, bit f 7⟩

/-- A flow entry (Table 11.6). -/
def flowAt (bs : List Byte) (i : Nat) : PlanFlow :=
  ⟨fldAt bs i 2, fldAt bs (i + 2) 1 == 1, fldAt bs (i + 3) 1, fldAt bs (i + 4) 4, fldAt bs (i + 8) 2, fldAt bs (i + 10) 1,
    fldAt bs (i + 12) 4, fldAt bs (i + 16) 4⟩

/-- A barrier entry (Table 11.7). -/
def barrierAt (bs : List Byte) (i : Nat) : PlanBarrier :=
  ⟨fldAt bs i 4, fldAt bs (i + 4) 4, fldAt bs (i + 8) 2, fldAt bs (i + 12) 4⟩

/-- A container as its header lays it out (Table 11.2). -/
structure Container where
  bytes : List Byte
  len : Nat
  tiles : Nat
  contour : Nat
  flowOff : Nat
  barOff : Nat
  nSeg : Nat
  nFlow : Nat
  nBar : Nat
  /-- Offset and record count of each score, in directory order. -/
  scores : List (Nat × Nat)
  plan : Plan

/-- The container that a byte string holds. -/
def containerOf (bs : List Byte) : Container :=
  let w := fldAt bs 12 1
  let h := fldAt bs 13 1
  let tiles := w * h
  let contour := fldAt bs 36 4
  let flowOff := fldAt bs 40 4
  let barOff := fldAt bs 44 4
  let nSeg := fldAt bs 48 2
  let nFlow := fldAt bs 50 2
  let nBar := fldAt bs 52 2
  let dir := (List.range tiles).map fun i => (fldAt bs (128 + 16 * i) 4, fldAt bs (132 + 16 * i) 4)
  let ended := contour + 16 * nSeg
  { bytes := bs, len := fldAt bs 8 4, tiles := tiles, contour := contour, flowOff := flowOff, barOff := barOff,
    nSeg := nSeg, nFlow := nFlow, nBar := nBar, scores := dir
    plan :=
      { w := w, h := h, x0 := fldAt bs 14 1, y0 := fldAt bs 15 1, bankMask := fldAt bs 16 1, length := fldAt bs 20 8
        floatNs := fldAt bs 28 4
        scores := dir.map fun p => (List.range p.2).map fun k => recAt bs (p.1 + 16 * k)
        stores := (List.range tiles).map fun i => fldAt bs (136 + 16 * i) 2
        segs := (List.range nSeg).map fun i => segAt bs (contour + 16 * i)
        flows := (List.range nFlow).map fun i => flowAt bs (flowOff + 32 * i)
        barriers := (List.range nBar).map fun i => barrierAt bs (barOff + 16 * i)
        hash := beNat ((sha384 (bs.take ended)).drop 45) } }

/-- The sections between header and end of container: offset and length, scores in the order of their offsets (R272). -/
def Container.sections (c : Container) : List (Nat × Nat) :=
  (128, 16 * c.tiles) :: (sortBy Prod.fst (c.scores.map fun p => (p.1, 16 * p.2)) ++
    [(c.contour, 16 * c.nSeg), (c.flowOff, 32 * c.nFlow), (c.barOff, 16 * c.nBar)])

/-! ### The checks of Table 11.9, in code order -/

/-- 0x01 of the header: magic, version, header length, reserved bytes. -/
def Container.headerOk (c : Container) : Bool :=
  c.bytes.take 4 == [0x4B#8, 0x38#8, 0x50#8, 0x4C#8] && fldAt c.bytes 4 2 == 1 && fldAt c.bytes 6 2 == 128 &&
    zeroAt c.bytes 17 3 && zeroAt c.bytes 54 2 && zeroAt c.bytes 64 64

/-- Sections begin at multiples of 16, one after another, each behind `from_`, the last within `len` (R272). -/
def inOrder (len : Nat) : Nat → List (Nat × Nat) → Bool
  | from_, [] => decide (from_ ≤ len)
  | from_, p :: ps => decide (from_ ≤ p.1) && p.1 % 16 == 0 && inOrder len (p.1 + p.2) ps

/-- 0x02: sections, counts and offsets within their ranges (R272, Tables 11.2, 11.3). -/
def Container.sectionsOk (c : Container) : Bool :=
  decide (128 ≤ c.len) && fldAt c.bytes 32 4 == 128 && inOrder c.len 128 c.sections &&
    c.scores.all (fun p => decide (1 ≤ p.2)) && c.plan.stores.all (fun l => l % 512 == 0) &&
    decide (1 ≤ c.nSeg ∧ c.nSeg ≤ 1024) && decide (c.nFlow ≤ 256) && decide (c.nBar ≤ 1024) &&
    decide (1 ≤ c.plan.length ∧ c.plan.length ≤ 2 ^ 48) && decide (c.plan.floatNs ≤ 1048576)

/-- Padding between and behind the sections is 0 (R272). -/
def paddingOk (bs : List Byte) (len : Nat) : Nat → List (Nat × Nat) → Bool
  | at_, [] => zeroAt bs at_ (len - at_)
  | at_, p :: ps => zeroAt bs at_ (p.1 - at_) && paddingOk bs len (p.1 + p.2) ps

/-- 0x01 of the sections: reserved fields and padding are 0. -/
def Container.reservedOk (c : Container) : Bool :=
  (List.range c.tiles).all (fun i => zeroAt c.bytes (138 + 16 * i) 6) &&
    c.plan.scores.all (fun sc => sc.all fun r => decide (r.fmt < 8)) && c.plan.segs.all (fun g => !g.rsvd) &&
    c.plan.flows.all (fun f => decide (f.tenant < 1024)) &&
    (List.range c.nFlow).all (fun i => zeroAt c.bytes (c.flowOff + 32 * i + 11) 1 &&
      zeroAt c.bytes (c.flowOff + 32 * i + 20) 12) &&
    (List.range c.nBar).all (fun i => zeroAt c.bytes (c.barOff + 16 * i + 10) 2) && paddingOk c.bytes c.len 128 c.sections

/-- 0x03: the region (R264). -/
def Plan.regionOk (p : Plan) : Bool :=
  p.w % 2 == 0 && decide (2 ≤ p.w ∧ p.w ≤ 16) && decide (1 ≤ p.h ∧ p.h ≤ 8) && p.x0 % 2 == 0 && decide (p.x0 + p.w ≤ 16) &&
    decide (p.y0 + p.h ≤ 8)

/-- Every record with the plan tile of its score. -/
def Plan.recs (p : Plan) : List (Nat × Nat × Rec) :=
  (p.scores.mapIdx fun i sc => sc.map fun r => (i % max 1 p.w, i / max 1 p.w, r)).flatten

/-- Spans [start, end) in order of their starts do not overlap. -/
def disjoint : List (Nat × Nat) → Bool
  | a :: b :: r => decide (a.2 ≤ b.1) && disjoint (b :: r)
  | _ => true

/-- Spans tagged with a key never overlap under one key. -/
def disjointBy (l : List (Nat × Nat × Nat)) : Bool :=
  ((l.map Prod.fst).eraseDups).all fun k =>
    disjoint (sortBy Prod.fst ((l.filter fun e => e.1 == k).map Prod.snd))

/-- The span of a record. -/
def Rec.span (r : Rec) (u v : Nat) : Nat × Nat := (r.cyc, r.cyc + r.latency u v)

/-- 0x04: ascending scores, one record at a time on each resource of a tile. -/
def Plan.orderOk (p : Plan) : Bool :=
  p.scores.all (fun sc => (List.zipWith (fun (a b : Rec) => decide (a.cyc ≤ b.cyc)) sc (sc.drop 1)).all id) &&
    (p.scores.mapIdx fun i sc => (i, sc)).all fun q =>
      [Res.meL, .meA, .vu, .mm, .fxS, .fxR, .sc, .sy].all fun k =>
        disjoint ((q.2.filter fun r => (opRes r.op).contains k).map fun r => r.span (q.1 % max 1 p.w) (q.1 / max 1 p.w))

/-- Every MMA has the format of the weights that are active when it issues (R277). -/
def mmaFormats : Option Nat → Option Nat → List Rec → Bool
  | _, _, [] => true
  | sh, ac, r :: rs =>
    if r.op = 0x01 then mmaFormats (some r.fmt) ac rs
    else if r.op = 0x02 then mmaFormats sh sh rs
    else if r.op = 0x03 then ac == some r.fmt && mmaFormats sh ac rs
    else mmaFormats sh ac rs

/-- 0x05: opcodes, formats, operand bits and field ranges. -/
def Plan.fieldsOk (p : Plan) : Bool :=
  p.recs.all (fun q => opKnown q.2.2.op && decide (q.2.2.fmt ≤ opFmtMax q.2.2.op) && operandReservedOk q.2.2.op q.2.2.w &&
    q.2.2.rangesOk p) && p.scores.all (mmaFormats none none)

/-- The banks whose plan ports an operation holds, as 8 (w v + u) + bank (R275, R277). -/
def Plan.portsOf (p : Plan) (u v : Nat) (r : Rec) : List Nat :=
  if r.op = 0x22 then (List.range 8).map fun b => 8 * (v * p.w + u) + b
  else (((r.reads u v 0 ++ r.writes u v).map fun l =>
    if l.2.2.2 = 0 then [] else
      (List.range ((l.2.2.1 + l.2.2.2 - 1) / 8192 - l.2.2.1 / 8192 + 1)).map fun b =>
        8 * (l.2.1 * p.w + l.1) + l.2.2.1 / 8192 + b).flatten).eraseDups

/-- 0x06: plan ports. -/
def Plan.bankPortsOk (p : Plan) : Bool :=
  disjointBy ((p.recs.map fun q =>
    (p.portsOf q.1 q.2.1 q.2.2).map fun k => (k, q.2.2.span q.1 q.2.1)).flatten)

/-- The links of the route from (u, v) to (u', v'): along the row, then along the column (R267). A link is numbered by the
tile it leaves and its direction. -/
def meshRoute (u v u' v' : Nat) : List Nat :=
  let row := if u ≤ u' then (List.range (u' - u)).map fun i => 4 * (16 * v + u + i)
    else (List.range (u - u')).map fun i => 4 * (16 * v + u - i) + 1
  let col := if v ≤ v' then (List.range (v' - v)).map fun i => 4 * (16 * (v + i) + u') + 2
    else (List.range (v - v')).map fun i => 4 * (16 * (v - i) + u') + 3
  row ++ col

/-- The links an operation uses, with the span in which its 2n flits enter each (R277). -/
def Rec.linkUse (r : Rec) (u v : Nat) : List (Nat × Nat × Nat) :=
  let route := if r.op = 0x20 then meshRoute (raU r.src) (raV r.src) (raU r.dst) (raV r.dst)
    else if r.op = 0x21 then meshRoute u v (raU r.dst) (raV r.dst) else []
  route.mapIdx fun q l => (l, r.cyc + 8 + 2 * q, r.cyc + 8 + 2 * q + 2 * r.nm)

/-- 0x07: mesh links. -/
def Plan.linksOk (p : Plan) : Bool := disjointBy ((p.recs.map fun q => q.2.2.linkUse q.1 q.2.1).flatten)

/-- Die granules of n lines of a plan tile from a line on, within the slice. -/
def Plan.granules (p : Plan) (l : Nat × Nat × Nat × Nat) : List Nat :=
  let last := min 65535 (l.2.2.1 + l.2.2.2 - 1)
  if l.2.2.2 = 0 then []
  else (List.range (last / 512 + 1 - l.2.2.1 / 512)).map fun i => 128 * p.tile l.1 l.2.1 + l.2.2.1 / 512 + i

/-- Score stores: plan column and row, line and lines (R273). -/
def Plan.scoreLines (p : Plan) : List (Nat × Nat × Nat × Nat) :=
  List.zipWith (fun (i : Nat × List Rec) la => (i.1 % max 1 p.w, i.1 / max 1 p.w, la, ceilDiv i.2.length 8))
    (p.scores.mapIdx fun i sc => (i, sc)) p.stores

/-- Two line ranges share a line. -/
def touch (a b : Nat × Nat × Nat × Nat) : Bool :=
  a.1 == b.1 && a.2.1 == b.2.1 && decide (a.2.2.1 < b.2.2.1 + b.2.2.2) && decide (b.2.2.1 < a.2.2.1 + a.2.2.2)

/-- C and k of the last SSELECT before a cycle, or before a record of the score of tile (0, 0) itself. -/
def Plan.lastSelect (p : Plan) (before : Rec → Bool) : Option (Nat × Nat) :=
  (((p.scores.getD 0 []).takeWhile before).filter fun r => r.op == 0x42).getLast?.map fun r => (r.selC, r.selK)

/-- C and k that apply to every MGATHER, in record order, with its plan tile. -/
def Plan.gathers (p : Plan) : List (Nat × Nat × Rec × Option (Nat × Nat)) :=
  (p.scores.mapIdx fun i sc => sc.filterMap fun r =>
    if r.op = 0x22 then
      some (i % max 1 p.w, i / max 1 p.w, r, p.lastSelect fun (q : Rec) =>
        if i = 0 then q != r else decide (q.cyc < r.cyc))
    else none).flatten

/-- 0x08: owners of the lines read and written, and score stores. -/
def Plan.ownersOk (p : Plan) (own shared : Nat → Bool) : Bool :=
  let stores := p.scoreLines
  p.recs.all (fun q =>
    let rd := if q.2.2.op = 0x22 then [] else q.2.2.reads q.1 q.2.1 0
    let wr := q.2.2.writes q.1 q.2.1
    rd.all (fun l => (p.granules l).all fun g => own g || shared g) && wr.all (fun l => (p.granules l).all own) &&
      (rd ++ wr).all fun l => stores.all fun t => !touch l t) &&
    stores.all (fun t => (p.granules t).all own && decide (t.2.2.1 + t.2.2.2 ≤ 65536)) &&
    p.gathers.all fun q => match q.2.2.2 with
      | none => true
      | some ck => (q.2.2.1.reads q.1 q.2.1 ck.1).all fun l => stores.all fun t => !touch l t

/-- 0x09: the range of MGATHER. -/
def Plan.gatherOk (p : Plan) (own shared : Nat → Bool) : Bool :=
  p.gathers.all fun q => match q.2.2.2 with
    | none => false
    | some ck =>
      decide (bits q.2.2.1.w 15 0 + (ck.1 - 1) * q.2.2.1.stride + q.2.2.1.gb ≤ 65536) &&
        (q.2.2.1.reads q.1 q.2.1 ck.1).all fun l => (p.granules l).all fun g => own g || shared g

/-- A flow entry within its ranges and R274, R326. -/
def PlanFlow.ok (f : PlanFlow) (tenant : Nat) : Bool :=
  f.tenant == tenant && decide (f.port < 16) && decide (1 ≤ f.hops ∧ f.hops ≤ 8) && f.allot % 256 == 0 &&
    (f.recv || (f.allot == 0 && routeNibble f.route 0 == f.port))

/-- 0x0A: flows and barriers (R274, R326). -/
def Container.flowsOk (c : Container) (tenant : Nat) : Bool :=
  let p := c.plan
  (List.range c.nFlow).all (fun i => decide (fldAt c.bytes (c.flowOff + 32 * i + 2) 1 ≤ 1)) &&
    p.flows.all (fun f => f.ok tenant) &&
    p.recs.all (fun q =>
      if q.2.2.op = 0x30 ∨ q.2.2.op = 0x31 then
        match p.flows[bits q.2.2.w 7 0]? with
        | none => false
        | some f => f.recv == (q.2.2.op == 0x31) && (!f.recv || decide (128 * q.2.2.nf ≤ f.allot))
      else q.2.2.op != 0x50 || decide (bits q.2.2.w 9 0 < c.nBar)) &&
    (List.range 16).all (fun i => decide (((p.flows.filter fun f => f.recv && f.port == i).map PlanFlow.allot).sum ≤ 262144)) &&
    p.barriers.all fun b => decide (1 ≤ b.participants ∧ b.participants ≤ 65536) && decide (1 ≤ b.lead ∧ b.lead ≤ 2 ^ 20)

/-- The banks a scout operation names, as a mask. -/
def Rec.banks (r : Rec) : Nat := if r.op = 0x40 then 2 ^ bits r.w 2 0 else bits r.w 7 0

/-- A mask names a bank of the half of bank n. -/
def sameHalf (mask n : Nat) : Bool := if n < 4 then mask % 16 != 0 else mask / 16 != 0

/-- R362: 20,000 plan cycles between the end of an SLOAD and an SSTREAM of the same half. -/
def alternation : List Nat → List Rec → Bool
  | _, [] => true
  | halves, r :: rs =>
    if r.op = 0x40 then
      let b := bits r.w 2 0
      alternation (halves.set (b / 4) (r.cyc + 5016 + 20000)) rs
    else if r.op = 0x41 then
      (List.range 2).all (fun k => !sameHalf r.banks (4 * k) || decide (halves.getD k 0 ≤ r.cyc)) && alternation halves rs
    else alternation halves rs

/-- Keys streamed into each bank after its last SLOAD or SBLANK (R363). -/
def keyCounts : List Nat → List Rec → Bool
  | _, [] => true
  | n, r :: rs =>
    if r.op = 0x40 ∨ r.op = 0x43 then keyCounts (n.mapIdx fun i k => if bit r.banks i then 0 else k) rs
    else if r.op = 0x41 then
      let n := n.mapIdx fun i k => if bit r.banks i then k + r.nk else k
      n.all (fun k => decide (k ≤ 262144)) && keyCounts n rs
    else keyCounts n rs

/-- A scout record within the ranges of R363. -/
def Rec.scoutOk (r : Rec) : Bool :=
  match r.op with
  | 0x40 => decide (bits r.w 23 8 + 9 ≤ 65536)
  | 0x41 => decide (bits r.w 46 44 ≤ 6) && decide (bits r.w 23 8 + lines (36 * r.nk) ≤ 65536)
  | 0x42 => (List.range 13).any (fun m => r.selB == 2 ^ m) && decide (1 ≤ r.selC) && decide (r.selK ≤ r.selC) &&
      decide (r.selC * r.selB ≤ 262144)
  | _ => true

/-- 0x0B: R279, R362, R363. -/
def Plan.scoutsOk (p : Plan) : Bool :=
  let sc := p.scores.getD 0 []
  let ops := sc.filter fun r => decide (0x40 ≤ r.op ∧ r.op ≤ 0x43)
  (p.scores.drop 1).all (fun s => s.all fun r => decide (r.op < 0x40)) &&
    ops.all (fun r => (List.range 8).all fun i => !bit r.banks i || bit p.bankMask i) && ops.all Rec.scoutOk &&
    alternation [0, 0] ops && keyCounts (List.replicate 8 0) ops &&
    ops.all (fun r => r.op != 0x42 || ops.all fun o => (o.op != 0x40 && o.op != 0x41) ||
      decide ((o.span 0 0).2 ≤ r.cyc) || decide ((r.span 0 0).2 ≤ o.cyc) ||
      ((o.reads 0 0 0).all fun a => (r.writes 0 0).all fun b => !touch a b)) &&
    p.gathers.all fun q => match q.2.2.2 with
      | none => true
      | some ck => decide (q.2.2.1.gk ≤ ck.2)

/-- Runs between float segments: g so far (R286). -/
def floatRuns (d : Nat) : Nat → List Segment → Bool
  | _, [] => true
  | g, s :: r =>
    if s.float then
      (g == 0 || (decide (g + d ≤ 2097152) && decide (max 2000 (ceilDiv (g * d) (2097152 - d)) ≤ s.dur))) && floatRuns d 0 r
    else floatRuns d (g + s.dur) r

/-- 0x0C: float placement (R286). -/
def Plan.floatOk (p : Plan) : Bool :=
  floatRuns (2 * p.floatNs) 0 p.segs && ((p.segs.getLast?.map Segment.float).getD false) &&
    (p.segs.filter Segment.float).all fun g => p.recs.all fun q =>
      let e := q.2.2.span q.1 q.2.1
      (q.2.2.op == 0x52 || decide (e.1 < g.start ∨ g.start + g.dur ≤ e.1)) && (decide (g.start ≤ e.1) || decide (e.2 ≤ g.start))

/-- 0x0D: halt points (R289). -/
def Plan.haltsOk (p : Plan) : Bool :=
  let sc := p.scores.getD 0 []
  let hs := (sc.filter fun r => r.op == 0x51).map Rec.cyc
  let pts := 0 :: (hs ++ (sc.filter fun r => r.op == 0x52).map Rec.cyc)
  (List.zipWith (fun a b => decide (b ≤ a + 524288)) pts (pts.drop 1)).all id &&
    hs.all fun c => p.recs.all fun q => let e := q.2.2.span q.1 q.2.1; decide (c < e.1 ∨ e.2 ≤ c + 1)

/-- 0x0E: END. -/
def Plan.endOk (p : Plan) : Bool :=
  (p.recs.filter fun q => q.2.2.op == 0x52).length == 1 &&
    (match (p.scores.getD 0 []).getLast? with
      | some r => r.op == 0x52 && r.cyc + 1 == p.length
      | none => false) &&
    (match p.segs.getLast? with
      | some g => g.float && g.start + g.dur == p.length
      | none => false) &&
    p.recs.all fun q => decide ((q.2.2.span q.1 q.2.1).2 ≤ p.length)

/-- The segments follow one another from an offset on (R93). -/
def contiguous : Nat → List Segment → Bool
  | _, [] => true
  | at_, g :: r => g.start == at_ && contiguous (g.start + g.dur) r

/-- The contour checks of R93 and R197 (log 160, DEDUCED). -/
def Plan.contourOk (p : Plan) : Bool :=
  decide (1 ≤ p.segs.length ∧ p.segs.length ≤ 1024) && contiguous 0 p.segs &&
    (match p.segs.getLast? with
      | some g => p.recs.all fun q => decide (q.2.2.cyc ≤ g.start + g.dur)
      | none => false) &&
    p.segs.all (fun g => decide (2000 ≤ g.dur) && decide (1 ≤ g.rate ∧ g.rate ≤ 16) &&
      (g.classes.drop (p.w / 2)).all (fun c => c == 0) && (!g.float || g.classes.all fun c => c == 0) &&
      (!g.bench || (decide (40000 ≤ g.dur) && (g.classes.take (p.w / 2)).any fun c => c == 0))) &&
    decide (20972 ≤ p.floatNs)

/-- R217: no record of a stopped unit issues inside a benchmark. -/
def Plan.benchOk (p : Plan) : Bool :=
  (p.segs.filter Segment.bench).all fun g => p.recs.all fun q =>
    decide (q.2.2.cyc < g.start ∨ g.start + g.dur ≤ q.2.2.cyc) || g.classes.getD (q.1 / 2) 0 != 0 ||
      !((opRes q.2.2.op).any fun k => k == .meL || k == .meA || k == .vu || k == .mm)

/-- The code of the first failed check (R281), none when every check passes. The contour checks of R93, R197 and R217 have
no code of their own: 0xFF stands here for a failure of them, and the completion's detail is a free value (log 160, DEDUCED). -/
def Container.firstFail (c : Container) (tenant : Nat) (own shared : Nat → Bool) : Option Nat :=
  let p := c.plan
  if !c.headerOk then some 0x01
  else if !c.sectionsOk then some 0x02
  else if !c.reservedOk then some 0x01
  else if !p.regionOk then some 0x03
  else if !p.orderOk then some 0x04
  else if !p.fieldsOk then some 0x05
  else if !p.bankPortsOk then some 0x06
  else if !p.linksOk then some 0x07
  else if !p.ownersOk own shared then some 0x08
  else if !p.gatherOk own shared then some 0x09
  else if !c.flowsOk tenant then some 0x0A
  else if !p.scoutsOk then some 0x0B
  else if !p.floatOk then some 0x0C
  else if !p.haltsOk then some 0x0D
  else if !p.endOk then some 0x0E
  else if !p.contourOk ∨ !p.benchOk then some 0xFF
  else none

/-- Every die granule a plan touches, its score stores among them (R282). -/
def Plan.touched (p : Plan) : List Nat :=
  let ls := p.recs.map fun q => (if q.2.2.op = 0x22 then [] else q.2.2.reads q.1 q.2.1 0) ++ q.2.2.writes q.1 q.2.1
  let gs := p.gathers.map fun q => match q.2.2.2 with
    | none => []
    | some ck => q.2.2.1.reads q.1 q.2.1 ck.1
  ((p.scoreLines ++ ls.flatten ++ gs.flatten).map p.granules).flatten.eraseDups

end Sys2Proof.Machine
end

