-- ==== Sys2Proof/Machine/MeridianEvents.lean ====
section
/-! DEFINITION. Meridian: proposals, results, membership and lending (chapter 08). -/

namespace Sys2Proof.Machine
open Sys2Proof

/-- Detail of the meridian entries 0x2501 to 0x2503 (Table 23.4): group and identity. -/
def merDetail (g id : Nat) : List Byte := leBytes 2 g ++ leBytes 2 id

/-! ### The tree (R187, R188) -/

/-- The dies that can have sent a record of `src` to die `id`: those on its way up the tree below `id`, since one that had no
acknowledgement skips a level (R188). -/
def hopsBelow (members : List Member) (src id : Nat) : List Nat :=
  let up := nextUp members
  let way := [src, up src, up (up src), up (up (up src))]
  (way.takeWhile fun i => i != id).eraseDups

/-- Acknowledge a meridian record (Table 12.13): type, original sender, epoch. -/
def State.ackRecord (s : State) (d : DieId) (dst ty src epoch : Nat) : State :=
  if dst = s.identity d then s
  else s.sendRecord d 0x05 dst ([BitVec.ofNat 8 ty, 0#8] ++ leBytes 2 src ++ leBytes 8 epoch)

/-- Acknowledge a record that climbs the tree: it names its original sender and not the die that sent it on, so every die that
can have sent it here hears of it (R188) (log 132, DEDUCED). -/
def State.ackUp (s : State) (d : DieId) (ty src : Nat) : State :=
  (hopsBelow (s.die d).mer.tree src (s.identity d)).foldl (fun s i => s.ackRecord d i ty src (s.epoch d)) s

/-- An acknowledgement arrives (R188). -/
def State.takeAck (s : State) (d : DieId) (ty src : Nat) : State :=
  s.modMer d fun m => { m with
    unacked := m.unacked.filter fun u => !(u.ty == ty && u.src == src)
    joinAcked := m.joinAcked || (ty == 3 && src == s.identity d) }

/-- A record is not acknowledged within 8 µs (R188): it goes to the aggregator one level further up, and so on up to the
root. A die that has itself become that root takes the LEAVE it still holds. -/
def execRecordAckTimeout (d : DieId) (no : Nat) (s : State) : Host.Outcome State Fault Refusal :=
  let m := (s.die d).mer
  match m.unacked.find? fun u => u.no == no with
  | none => .next s
  | some u =>
    let l := min 4 (u.level + 1)
    let s1 := s.advanceTo (u.sentAt + 8000)
    let s2 := s1.modMer d fun m => { m with unacked := m.unacked.map fun v =>
      if v.no = no then { v with level := l, sentAt := s1.tray.now } else v }
    let dst := aggregator m.tree (s.identity d) l
    if dst = s.identity d then
      let s3 := s1.modMer d fun m => { m with unacked := m.unacked.filter fun v => v.no != no }
      .next (if u.ty = 4 then s3.passLeave d 3 u.src else s3)
    else .next (s2.sendFor d u.ty dst u.src u.body)

/-! ### Results (R191, R192, R195) -/

/-- The step of R191 over the members' codes: the highest, ignoring 0x10; a missing proposal counts as the current group
step; a raise is at most one step. -/
def formStep (members : List Member) (g : Nat) : Nat :=
  let codes := members.filterMap fun e => match e.code with
    | none => some g
    | some 0x10 => none
    | some c => some c
  max (match codes with | [] => g | c :: cs => cs.foldl max c) (g - 1)

/-- The members with what the root knows of their proposals at 768 µs: a leaving die proposes 0x10 (R200), a failed root counts
as missing (R194) (log 132, DEDUCED). -/
def Meridian.closing (m : Meridian) : List Member := m.members.map fun e =>
  let code := if some e.id = m.failedRoot then none
    else if m.leaves.contains e.id ∧ e.code = none then some 0x10 else e.code
  { e with code := code, missed := if code.isNone then e.missed + 1 else 0 }

/-- Close the proposals and send the RESULT (R191, R200, R201, R203): the misses of this epoch are counted, a second one
in a row makes a member stray; leaves prevail over joins. The stray die itself records and counts its declaration. -/
def State.formResult (s : State) (d : DieId) : State :=
  let m := (s.die d).mer
  let id := s.identity d
  let ids := m.members.map Member.id
  let members := m.closing
  let strays := (members.filter fun e => decide (2 ≤ e.missed)).map Member.id
  let leaves := m.leaves.filter fun i => ids.contains i && !strays.contains i
  let joins := m.joins.filter fun i => !ids.contains i && !m.leaves.contains i
  let r : MResult := { group := s.groupNo d, epoch := s.epoch d, step := formStep members m.groupStep,
                       strays := strays, leaves := leaves, joins := joins }
  let s1 := s.modMer d fun m => { m with
    closed := true, members := members
    missedTotal := satAdd 32 m.missedTotal (members.filter fun e => e.code.isNone).length }
  (s1.sendResult d r id).holdResult d r id

/-- 768 µs: the root forms the result (R191). -/
def execResultForm (d : DieId) (s : State) : Host.Outcome State Fault Refusal :=
  let m := (s.die d).mer
  if !m.root ∨ m.closed then .next s else .next ((s.advanceIn d 768000).formResult d)

/-- The second-lowest identity of a group (R187) (log 140, DEDUCED). -/
def standbyId (members : List Member) : Option Nat := ((sortBy Member.id members).map Member.id)[1]?

/-- 800 µs without RESULT: the standby root forms it and is the root from the next boundary (R194) (log 140, DEDUCED). -/
def execStandbyRootTakeover (d : DieId) (s : State) : Host.Outcome State Fault Refusal :=
  let m := (s.die d).mer
  let held : Bool := match m.result with | some r => r.epoch == s.epoch d | none => false
  if !m.member ∨ m.root ∨ held ∨ standbyId m.tree ≠ some (s.identity d) then .next s
  else .next (((s.advanceIn d 800000).modMer d fun m => { m with standbyRoot := true }).formResult d)

/-- A further record of the result that the die holds adds its lists; an amended result only ever raises the step number (R195).
Of two results of one epoch the step of the higher holds. -/
def Meridian.joined (m : Meridian) (src : Nat) (r : MResult) : MResult × Nat :=
  match m.result with
  | none => (r, src)
  | some o =>
    if o.epoch ≠ r.epoch then (r, src)
    else if o.step = r.step ∧ o.amended = r.amended then
      ({ r with strays := (o.strays ++ r.strays).eraseDups, leaves := (o.leaves ++ r.leaves).eraseDups,
                joins := (o.joins ++ r.joins).eraseDups }, m.resultFrom)
    else if r.step ≤ o.step then (o, m.resultFrom)
    else (r, m.resultFrom)

/-- The root refused the JOIN of this epoch (R204): it was acknowledged on its way in time, no leave prevailed over it, and the whole
RESULT names it nowhere (log 133, DEDUCED). -/
def Meridian.refused (m : Meridian) (id : Nat) (r : MResult) (more : Bool) : Bool :=
  m.joining && m.joinSent == some r.epoch && m.joinAcked && !more && !r.joins.contains id && !r.leaves.contains id

/-- A RESULT reaches a die (R188, R192, R195, R203, R204). An aggregator acknowledges it and passes it on; a root that formed none
takes that of its standby root (R194). -/
def State.takeResult (s : State) (d : DieId) (src : Nat) (r : MResult) : State :=
  let m := (s.die d).mer
  if r.group ≠ s.groupNo d then s
  else if r.epoch ≠ s.epoch d then (if m.member then s else s.modMer d fun m => { m with heardResult := true })
  else
    let id := s.identity d
    let s0 := if m.member ∧ (childrenOf m id).isEmpty = false then
      (s.ackRecord d (nextUp m.tree id) 0x02 src r.epoch).sendResult d r src else s
    let o := m.joined src r
    if m.member ∨ o.1.joins.contains id then
      if some { o.1 with more := false } = m.result then s0
      else (s0.modMer d fun m => { m with closed := m.closed || m.root }).holdResult d o.1 o.2
    else
      let s1 := s0.modMer d fun m => { m with heardResult := true, result := some { o.1 with more := false }, resultFrom := o.2 }
      if m.refused id o.1 r.more then
        (s1.modMer d fun m => { m with joining := false, joinRefused := true }).logDie d 0x2503 (merDetail (s.groupNo d) id)
      else s1

/-- RESULT_RECEIVE (R192). -/
def execResultReceive (d : DieId) (src : Nat) (r : MResult) (s : State) : Host.Outcome State Fault Refusal :=
  .next (s.takeResult d src r)

/-! ### Proposals on the way up (R190, R195) -/

/-- A forwarder's count covers a whole block: every member of the largest block that `src` aggregates has been heard. -/
def Meridian.hearBlock (m : Meridian) (src heard : Nat) : Meridian :=
  let block (k : Nat) : List Nat := (m.members.map Member.id).filter fun i => i / 16 ^ k == src / 16 ^ k
  match [4, 3, 2, 1].find? fun k => aggregator m.tree src k == src && decide ((block k).length ≤ heard) with
  | none => m
  | some k => (block k).foldl (fun m i => if m.heard.contains i then m else m.hear i 0x10) m

/-- A PROPOSAL reaches a die (R188, R190, R195): it is acknowledged; the root takes it until it has closed the proposals,
an urgent one until 808 µs into an amended RESULT; an aggregator passes on each increase and each member newly heard. -/
def State.takeProposal (s : State) (d : DieId) (src epoch code : Nat) (urgent revised : Bool) (heard : Nat) : State :=
  let m := (s.die d).mer
  if !m.member then s
  else
    let s1 := s.ackUp d 0x01 src
    if epoch ≠ s.epoch d ∨ !(m.members.map Member.id).contains src then s1
    else
      let more := !m.heard.contains src || (code != 0x10 && decide ((m.blockMax.map (· + 1)).getD 0 < code + 1))
      let s2 := s1.modMer d fun m => (m.hear src code).hearBlock src heard
      if m.root ∨ m.standbyRoot then
        if m.closed then
          (if urgent ∧ s.inEpoch d ≤ 808000 then s1.amend d code else s1)
        else if revised ∧ 768000 < s.inEpoch d then s1
        else s2
      else if more then
        let m2 := (s2.die d).mer
        s2.sendUp d 1 0x01 src (proposalBody (m2.blockMax.getD 0x10) epoch urgent revised m2.heard.length)
      else s2

/-- PROPOSAL_RECEIVE (R190). -/
def execProposalReceive (d : DieId) (src epoch code : Nat) (urgent revised : Bool) (heard : Nat) (s : State) :
    Host.Outcome State Fault Refusal :=
  .next (s.takeProposal d src epoch code urgent revised heard)

/-! ### Leaving and joining (08.5) -/

/-- LEAVE_SEND (R200): the member itself, or with cause 6 its tray controller through another die. -/
def execLeaveSend (d : DieId) (cause : Nat) (s : State) : Host.Outcome State Fault Refusal :=
  .next (if cause = 6 then s.leaveFor d cause else s.sendLeave d cause)

/-- A LEAVE reaches a die (R188, R200): the root lists it, an aggregator passes it on. -/
def State.takeLeave (s : State) (d : DieId) (cause id : Nat) : State :=
  if !(s.die d).mer.member then s else (s.ackUp d 0x04 id).passLeave d cause id

/-- LEAVE_RECEIVE (R200). -/
def execLeaveReceive (d : DieId) (id : Nat) (s : State) : Host.Outcome State Fault Refusal :=
  .next (s.takeLeave d 3 id)

/-- The command 0x2500:0E (R200). -/
def execLeaveGroup (m : MasterId) (d : DieId) (v : Nat) (s : State) : Host.Outcome State Fault Refusal :=
  .next (s.gate m ⟨0x2500, 0xE, d.val⟩ (leBytes 1 v) fun s _ _ => .done (s.sendLeave d 3) 0 true)

/-- A write of the group number or the identity (R186, R200, R204): a member leaves under its old values and rejoins under
the new ones; a new identity lets a refused die join again. -/
def State.groupApply (s : State) (d : DieId) (sub v : Nat) : GateResult :=
  let m := (s.die d).mer
  let g := s.groupNo d
  let id := s.identity d
  let s1 := s.modMer d fun m => if m.member then { m with keptGroup := some g, keptId := some id } else m
  let s2 := (s1.putSetting 0x2500 sub d.val v).sendLeave d 4
  .done (if sub = 2 ∧ !m.member then s2.modMer d fun m => { m with joinRefused := false } else s2) 0 true

/-- GROUP_IDENTITY_WRITE (R186). -/
def execGroupIdentityWrite (m : MasterId) (d : DieId) (sub v : Nat) (s : State) : Host.Outcome State Fault Refusal :=
  if sub = 1 ∨ sub = 2 then
    .next (s.gate m ⟨0x2500, sub, d.val⟩ (leBytes 2 v) fun s _ w => s.groupApply d sub (leNat w))
  else .next s

/-- The conditions of R203 on the die itself, and R204. -/
def Die.mayJoin (x : Die) : Bool :=
  !x.mer.member && !x.mer.joinRefused && x.svc.holding.isNone && !x.heat.latched && !x.heat.tripped &&
    x.heat.flowLoss == .none && (x.svc.state == .running || x.svc.state == .frost || (x.svc.state == .starting && x.svc.govRuns))

/-- A non-member sends JOIN over the port that links it to a member, once per epoch (R203). -/
def execJoinSend (d : DieId) (s : State) : Host.Outcome State Fault Refusal :=
  let x := s.die d
  match s.joinPort d with
  | none => .next s
  | some p =>
    if !x.mayJoin ∨ x.mer.joinEpoch = some (s.epoch d) then .next s
    else
      let id := match (s.port d p).neighbour with | some (_, id, _) => id | none => 0
      let inTime := x.clk.timeValid && decide (s.inEpoch d ≤ 736000)
      .next ((s.putRecord d p (recordBytes 0x03 (s.groupNo d) id (s.identity d) 0 64
          [BitVec.ofNat 8 (b2n x.clk.timeValid), 0#8, 0#8, 0#8])).modMer d fun m =>
        { m with joining := true, joinSent := if inTime then some (s.epoch d) else none, joinAcked := false,
                 joinEpoch := some (s.epoch d) })

/-- A JOIN reaches a die (R188, R203, R204): the root admits it until 768 µs when it carries valid time and its identity
is free; a member passes it on. -/
def State.takeJoin (s : State) (d : DieId) (id : Nat) (valid : Bool) : State :=
  let m := (s.die d).mer
  if !m.member then s
  else
    let s1 := s.ackRecord d id 0x03 id (s.epoch d)
    if !m.root then s1.sendUp d 1 0x03 id [BitVec.ofNat 8 (b2n valid), 0#8, 0#8, 0#8]
    else if !valid ∨ m.closed ∨ 768000 < s.inEpoch d ∨ (m.members.map Member.id).contains id ∨ m.joins.contains id then s1
    else s1.modMer d fun m => { m with joins := m.joins ++ [id] }

/-- JOIN_RECEIVE (R203). -/
def execJoinReceive (d : DieId) (id : Nat) (valid : Bool) (s : State) : Host.Outcome State Fault Refusal :=
  .next (s.takeJoin d id valid)

/-- A non-member becomes the root of a group of its own after 4 epochs without RESULT (R205): its count becomes valid
time (R62), the group starts at F15. -/
def execSelfRoot (d : DieId) (s : State) : Host.Outcome State Fault Refusal :=
  let x := s.die d
  if !x.mayJoin ∨ x.mer.soloEpochs < 4 then .next s
  else .next (s.modDie d fun x => { x with
    mer := { x.mer with
      member := true, root := true, stray := false, joining := false, groupStep := 15, soloEpochs := 0, noResult := 0,
      members := [⟨s.identity d, none, 0⟩], lastChange := s.epoch d, closed := false, joins := [], leaves := [] }
    clk := { x.clk.shift s.tray.now 0 with timeValid := true, goodExch := 0, badExch := 0, exchOpen := none } })

/-- A root hears a root of its own group with a lower identity (R205): its next RESULT lists every member as leaving. -/
def State.meetRoot (s : State) (d : DieId) (root : Nat) : State :=
  let m := (s.die d).mer
  if !m.root ∨ s.identity d ≤ root ∨ m.merging then s
  else s.modMer d fun m => { m with merging := true, leaves := m.members.map Member.id, joins := [] }

/-- ROOT_MERGE (R205) (log 141, DEDUCED). -/
def execRootMerge (d : DieId) (root : Nat) (s : State) : Host.Outcome State Fault Refusal := .next (s.meetRoot d root)

/-! ### Lending (08.6, Table 08.4) -/

/-- Change the budgets of a die's runs when its own budget changes from `b` to `b'` (the path of R128). -/
def State.rescale (s : State) (d : DieId) (b' : Nat) : State :=
  s.modDie d fun x =>
    let old := x.pow.budget - x.pow.roh
    let f (v : Nat) : Nat := if old = 0 then v else v * (b' - x.pow.roh) / old
    { x with
      pow := { x.pow with budget := b', poolShare := f x.pow.poolShare }
      til := { x.til with runs := x.til.runs.map fun r => { r with budget := f r.budget, s50 := f r.s50, s2 := f r.s2 } } }

/-- A die's spare (R206), of which what it has lent and what its budget does not hold are no more to lend (R208). -/
def Die.spareMw (x : Die) : Nat :=
  min x.pow.budget (x.pow.share - (x.mer.lent.map Loan.amount).sum - x.projected - x.pow.share / 10)

/-- A LEND is answered (R206, R207): the lender grants min(request, spare) or 0, lowers its budget, and sends GRANT. -/
def State.grantLend (s : State) (d src : DieId) (amount epoch : Nat) : State :=
  let x := s.die d
  let g := if s.lends d ∧ x.mer.lendOpen.isNone ∧ epoch = s.epoch d then min amount x.spareMw else 0
  let s1 := if g = 0 then s
    else (s.rescale d (x.pow.budget - g)).modMer d fun m => { m with lent := m.lent ++ [⟨src.val, g, false⟩] }
  s1.sendRecord d 0x19 (s.identity src) (loanBody g epoch)

/-- A LEND arrives (R207): it waits with those that arrive with it. -/
def State.takeLend (s : State) (d src : DieId) (amount epoch : Nat) : State :=
  s.modMer d fun m => { m with lendWait := m.lendWait ++ [(src.val, amount, epoch)] }

/-- The lender serves the requests that wait, in ascending order of the borrower's index, and waits for no other record (R207). -/
def State.serveLends (s : State) (d : DieId) : State :=
  (sortBy Prod.fst (s.die d).mer.lendWait).foldl (fun s q => s.grantLend d (dieOf q.1) q.2.1 q.2.2)
    (s.modMer d fun m => { m with lendWait := [] })

/-- LEND (R207). -/
def execLend (d src : DieId) (amount epoch : Nat) (s : State) : Host.Outcome State Fault Refusal :=
  .next ((s.takeLend d src amount epoch).serveLends d)

/-- A GRANT arrives (R206, Table 08.4 step 3): within 10 µs of the LEND the borrower raises its budget, divides the rise
among its limited runs in proportion to their budgets and sends COMMIT, else RELEASE; it may ask the next die. -/
def State.takeGrant (s : State) (d src : DieId) (amount epoch : Nat) : State :=
  match (s.die d).mer.lendOpen with
  | none => s
  | some (e, _, t) =>
    if e ≠ src.val ∨ epoch ≠ s.epoch d then s
    else
      let s1 := s.modMer d fun m => { m with lendOpen := none }
      if t + 10000 < s.tray.now then (s1.sendRecord d 0x1B (s.identity src) (loanBody amount epoch)).askLend d
      else
        let x := s1.die d
        let rise := min amount (min x.pow.pg 1300000 - x.pow.budget)
        let lim := x.til.runs.filter Run.limited
        let tot := (lim.map Run.budget).sum
        let up (r : Run) : Run :=
          if !r.limited then r
          else
            let v := if tot = 0 then rise / max 1 lim.length else rise * r.budget / tot
            { r with budget := r.budget + v }
        let s2 := s1.modDie d fun x => { x with
          pow := { x.pow with budget := x.pow.budget + rise }
          til := { x.til with runs := x.til.runs.map up }
          mer := { x.mer with borrowed := x.mer.borrowed + rise } }
        (s2.sendRecord d 0x1A (s.identity src) (loanBody amount epoch)).askLend d

/-- GRANT (R206). -/
def execGrant (d src : DieId) (amount epoch : Nat) (s : State) : Host.Outcome State Fault Refusal :=
  .next (s.takeGrant d src amount epoch)

/-- A COMMIT arrives (R208): the loan stands until the boundary. -/
def State.takeCommit (s : State) (d src : DieId) (amount epoch : Nat) : State :=
  if epoch ≠ s.epoch d then s
  else s.modMer d fun m => { m with lent := m.lent.map fun l =>
    if l.die = src.val ∧ l.amount = amount then { l with committed := true } else l }

/-- COMMIT (R208). -/
def execCommit (d src : DieId) (amount epoch : Nat) (s : State) : Host.Outcome State Fault Refusal :=
  .next (s.takeCommit d src amount epoch)

/-- A RELEASE arrives (Table 08.4 step 4): the lender restores its budget. -/
def State.takeRelease (s : State) (d src : DieId) (amount epoch : Nat) : State :=
  let here (l : Loan) : Bool := l.die == src.val && l.amount == amount && !l.committed
  if epoch ≠ s.epoch d ∨ !((s.die d).mer.lent.any here) then s
  else (s.modMer d fun m => { m with lent := m.lent.filter fun l => !here l }).rescale d ((s.die d).pow.budget + amount)

/-- RELEASE (R206). -/
def execRelease (d src : DieId) (amount epoch : Nat) (s : State) : Host.Outcome State Fault Refusal :=
  .next (s.takeRelease d src amount epoch)

end Sys2Proof.Machine
end

