-- ==== Sys2Proof/Machine/Optics.lean ====
section
/-! DEFINITION. Shared operations of the optical links (chapter 12): lines and lanes, combs, monitors, link-level replay. -/

namespace Sys2Proof.Machine
open Sys2Proof

/-! ### Lines and lanes (R295, R296, R311, R316) -/

/-- A line that carries a lane or stands in reserve is usable. -/
def LineState.usable : LineState → Bool
  | .lane | .reserve => true
  | _ => false

/-- Usable lines in ascending order. -/
def usableLines (l : List LineState) : List Nat := (List.range 40).filter fun i => (l.getD i .unlocked).usable

/-- Put the lowest lines of `free` in the place of lanes whose line is not in `us`. -/
def replaceLanes (us : List Nat) : List Nat → List (Option Nat) → List (Option Nat)
  | _, [] => []
  | free, o :: m =>
    match o with
    | none => none :: replaceLanes us free m
    | some i =>
      if us.contains i then some i :: replaceLanes us free m
      else match free with
        | [] => none :: replaceLanes us [] m
        | f :: fs => some f :: replaceLanes us fs m

/-- The lane map after a change of line states: a lane that lost its line moves to the lowest usable reserve line (R316,
Table 12.6); when the number of lanes itself changes, the lowest usable lines carry them in order (R296, R311). -/
def refitMap (l : List LineState) (m : List (Option Nat)) : List (Option Nat) :=
  let us := usableLines l
  let n := 4 * (min us.length 36 / 4)
  if mapped m = n then replaceLanes us (us.filter fun i => !m.contains (some i)) m
  else (List.range 36).map fun k => if k < n then us[k]? else none

/-- Line states under a lane map: a usable line carries a lane or is reserve. -/
def mapStates (m : List (Option Nat)) (l : List LineState) : List LineState :=
  l.mapIdx fun i st => if st.usable then (if m.contains (some i) then .lane else .reserve) else st

/-- Body of LANEMAP (Table 12.13). -/
def lanemapBody (seq : Nat) (m : List (Option Nat)) : List Byte :=
  leBytes 2 (seq % 4096) ++ [0#8, 0#8] ++ m.map fun o => BitVec.ofNat 8 (o.getD 0xFF)

/-- Fit the lane map of a direction to its line states (R296, R311, R313): the transmitting end announces it; the receiving
end, which holds the same map and the same line states, makes the same move (log 21, DEDUCED). -/
def State.refit (s : State) (d : DieId) (p : Nat) (drop : Bool) : State :=
  let x := s.port d p
  let live := x.state.carries || x.state == .retrain
  if !live then s
  else
    let old := if drop then x.rxMap else x.txMap
    let st := if drop then x.rx else x.tx
    let m := refitMap st old
    let s1 :=
      if drop then s.modPort d p fun x => { x with rxMap := m, rx := mapStates m x.rx }
      else if m = old then s.modPort d p fun x => { x with tx := mapStates m x.tx }
      else (s.sendHop d p 0x21 (lanemapBody (x.txSeq + 1) m)).modPort d p fun x => { x with txMap := m, tx := mapStates m x.tx }
    if (usableLines st).length < 8 then s1.portDown d p
    else
      let s2 := s1.modPort d p fun x => if x.state = .up ∨ x.state = .degraded then { x with state := x.upState } else x
      if mapped m < mapped old then s2.logDie d 0x3003 [BitVec.ofNat 8 p, BitVec.ofNat 8 (mapped m)] else s2

/-- A line leaves service in a direction (R306, R316, R317, R318): a calibration on the port stops, the line's lane moves;
when its light is lost already and there is no reserve line, the port retrains (R313). -/
def State.lineOut (s : State) (d : DieId) (p : Nat) (drop : Bool) (line : Nat) (dst : LineState) (lost : Bool) : State :=
  let s1 := s.stopCal d p
  let x := s1.port d p
  let st := if drop then x.rx else x.tx
  let m := if drop then x.rxMap else x.txMap
  let noMove := m.contains (some line) && !(st.any fun y => y == .reserve)
  let s2 := s1.modPort d p fun x =>
    if drop then { x with rx := x.rx.set line dst } else { x with tx := x.tx.set line dst }
  let s3 := s2.refit d p drop
  if lost && noMove then s3.portRetrain d p else s3

/-- The ring of a line locks again (R306): the line comes back as reserve; a failed one returns only by calibration. -/
def State.lineBack (s : State) (d : DieId) (p : Nat) (drop : Bool) (line : Nat) : State :=
  let back (l : List LineState) : List LineState := l.modify line fun st => if st = .unlocked then .reserve else st
  (s.modPort d p fun x => if drop then { x with rx := back x.rx } else { x with tx := back x.tx }).refit d p drop

/-- What a line becomes when its ring loses lock: a failed or weak one stays so until a calibration passes (R306, R317). -/
def LineState.unlock : LineState → LineState
  | .failed => .failed
  | .weak => .weak
  | _ => .unlocked

/-- A ring loses lock (R306): its line leaves its lane and the loop searches. -/
def State.unlockRing (s : State) (d : DieId) (n : Nat) : State :=
  let p := n / 80
  let drop := decide (40 ≤ n % 80)
  let r := (s.die d).fab.heater n
  if !r.locked then s
  else
    let x := s.port d p
    let line := (n % 40 + (if drop then x.shiftRx else x.shiftTx)) % 40
    (s.modDie d fun x => { x with fab := { x.fab with
      rings := KV.put x.fab.rings n { r with locked := false, bad := 0, sat := 0, searchAt := some s.tray.now } } }).lineOut
        d p drop line ((if drop then x.rx else x.tx).getD line .unlocked).unlock true

/-! ### Combs (R300 to R302) -/

/-- The standby comb is unavailable (R302). -/
def Fabric.noStandby (f : Fabric) : Bool := f.standbyGone || (if f.combB then f.failedA else f.failedB)

/-- Reference power of a comb: its baseline, or its fused nominal when no baseline exists (R299; for R300 and R302 log 137,
DEDUCED). -/
def Fabric.combRef (f : Fabric) (d : DieId) (comb : Nat) : Int :=
  match f.baseline with
  | some b => b.getD comb 0
  | none => (Config.monitorNominal d comb).toInt

/-- A comb passes its start-up check (R299): every line within 15 GHz of its frequency (Table 02.8), the stage-1 power within
1 dB of the reference. Line deviations are in MHz. -/
def Fabric.combPasses (f : Fabric) (d : DieId) (comb : Nat) (dev : List Int) (pow : Int) : Bool :=
  dev.all (fun x => decide (-15000 ≤ x ∧ x ≤ 15000)) && decide (f.combRef d comb - 100 ≤ pow ∧ pow ≤ f.combRef d comb + 100)

/-- A stage-1 power lies more than 3 dB below a comb's reference (R300, R302) (log 137, DEDUCED). -/
def Fabric.combLow (f : Fabric) (d : DieId) (comb : Nat) (pow : Int) : Bool := decide (pow + 300 < f.combRef d comb)

/-- Loss of the active comb is declared (R300 to R302, R369): every port retrains; with a standby the die switches to it,
and the lost comb is marked failed. -/
def State.combLossNow (s : State) (d : DieId) : State :=
  if (s.die d).fab.combLost then s else
  let s1 := s.modDie d fun x => { x with sct := { x.sct with
    banks := x.sct.banks.map fun b => { b with window := true } } }
  let s2 := if (s.die d).fab.noStandby then
      s1.modDie d fun x => { x with fab := { x.fab with combLost := true } }
    else
      let s1 := s1.modDie d fun x =>
        let f := x.fab
        { x with fab := { f with
          combB := !f.combB, failedA := f.failedA || !f.combB, failedB := f.failedB || f.combB,
          failover := true, failovers := satAdd 32 f.failovers 1 } }
      s1.logDie d 0x3001 [BitVec.ofNat 8 (b2n (s1.die d).fab.combB)]
  (List.range 16).foldl (fun s p => s.portRetrain d p) s2

/-! ### Monitors (R319 to R321) -/

/-- A monitor reading by its place in 0x3000:0A. -/
def Fabric.mon (f : Fabric) (i : Nat) : Int := f.monitor.getD i 0

/-- Set monitor readings; before the first one every reading is 0. -/
def Fabric.setMon (f : Fabric) (vs : List (Nat × Int)) : Fabric :=
  { f with monitor := vs.foldl (fun l v => l.set v.1 v.2) (if f.monitor.isEmpty then List.replicate 690 0 else f.monitor) }

/-- Record the baseline: own readings, and the far ends' as last reported (R319, log 20, DESIGN CHOICE). -/
def Fabric.baselineNow (f : Fabric) : Fabric :=
  { f with baseline := some (if f.monitor.isEmpty then List.replicate 690 0 else f.monitor), farBase := f.ports.map Port.far }

/-- How far a reading lies below its baseline, 0.01 dB. -/
def Fabric.low (f : Fabric) (i : Nat) : Int := match f.baseline with
  | some b => b.getD i 0 - f.mon i
  | none => 0

/-- How far the far end's stage-3 and stage-5 readings of a port lie below those of the baseline. -/
def Fabric.farLow (f : Fabric) (p : Nat) : Option (Int × List Int) :=
  match (f.ports.getD p {}).far, f.farBase.getD p none with
  | some n, some b => some (b.1 - n.1, List.zipWith (· - ·) b.2 n.2)
  | _, _ => none

/-- The lines of a port that the far end reports more than `t` low, when every other line stays within 1 dB. -/
def Fabric.farLines (f : Fabric) (p : Nat) (t : Int) : List Nat :=
  match f.farLow p with
  | none => []
  | some (_, l) =>
    let bad := (List.range l.length).filter fun i => decide (t < l.getD i 0)
    if (List.range l.length).all (fun i => bad.contains i || decide (l.getD i 0 ≤ 100)) && decide (bad.length = 1) then bad
    else []

/-- The largest of a list, or 0. -/
def maxI (l : List Int) : Int := match l with | [] => 0 | x :: xs => xs.foldl max x

/-- The findings of Table 12.8 on a port: excess in 0.01 dB, code, line. -/
def Fabric.findings (f : Fabric) (p : Nat) : List (Int × Nat × Nat) :=
  if f.baseline.isNone then []
  else
    let act := b2n f.combB
    let e2 (q : Nat) : Int := f.low (2 + q) - f.low act
    let e5 := (List.range 40).map fun l => f.low (50 + 40 * p + l) - f.low (34 + p)
    let drops : List (Int × Nat × Nat) :=
      if e5.all (fun e => decide (100 < e)) then [(e5.foldl min (e5.headD 0), 8, 0)]
      else (e5.mapIdx fun l e => (e, 7, l))
    let far : List (Int × Nat × Nat) := match f.farLow p with
      | none => []
      | some (l3, l5) =>
        let lines := (f.farLines p 100).map fun l =>
          let n := ((List.range 16).filter fun q => (f.farLines q 300).contains l).length
          (l5.getD l 0, if 4 ≤ n then 9 else 10, l)
        (f.low (34 + p) - l3, 6, 0) :: lines
    ([(f.low act, 1, 0), (f.low (1 - act), 2, 0),
      (e2 p, if (List.range 16).all (fun q => decide (100 < e2 q)) then 3 else 4, 0),
      (f.low (18 + p) - f.low (2 + p), 5, 0)] ++ drops ++ far).filter fun e => decide (100 < e.1)

/-- The finding of largest excess; among equal ones the lowest code. -/
def worst (l : List (Int × Nat × Nat)) : Option (Int × Nat × Nat) :=
  l.foldl (fun acc e => match acc with
    | none => some e
    | some b => if b.1 < e.1 ∨ (b.1 = e.1 ∧ e.2.1 < b.2.1) then some e else some b) none

/-- What the die does about a fault finding (Table 12.8). -/
def State.findingAct (s : State) (d : DieId) (p : Nat) (e : Int × Nat × Nat) : State :=
  match e.2.1 with
  | 1 => s.combLossNow d
  | 2 => s.modDie d fun x => { x with fab := { x.fab with standbyGone := true } }
  | 5 => (List.range 40).foldl (fun s i =>
      if ((s.die d).fab.heater (80 * p + i)).bad = 0 then s else s.unlockRing d (80 * p + i)) s
  | 7 => s.lineOut d p true e.2.2 .failed false
  | 9 =>
    let s1 := (List.range 16).foldl (fun s q => s.lineOut d q false e.2.2 .failed false) s
    let add (l : List Nat) : List Nat := if 36 ≤ e.2.2 ∨ l.contains e.2.2 then l else l ++ [e.2.2]
    s1.modDie d fun x => { x with sct := { x.sct with columnsOut := add x.sct.columnsOut } }
  | 10 => s.lineOut d p false e.2.2 .failed false
  | _ => s

/-- Localise losses on a port (R321, R303): the most severe finding is shown, a new fault is recorded. -/
def State.localise (s : State) (d : DieId) (p : Nat) : State :=
  let fs := (s.die d).fab.findings p
  let w := worst fs
  let code := match w with | some e => e.2.1 | none => 0
  let fault := match w with | some e => if 300 < e.1 then e.2.1 else 0 | none => 0
  let x := s.port d p
  let s1 := s.modPort d p fun x => { x with finding := code, faultCode := fault }
  let s2 := if fault ≠ 0 ∧ fault ≠ x.faultCode then s1.logDie d 0x3002 [BitVec.ofNat 8 p, BitVec.ofNat 8 fault] else s1
  (fs.filter fun e => decide (300 < e.1)).foldl (fun s e => s.findingAct d p e) s2

/-! ### Acknowledgement and replay (R323) -/

/-- A flit of the replay buffer with a fresh acknowledgement and CRC. -/
def reAck (b : List Byte) (seq ack : Nat) : List Byte :=
  let c := b.take 1 ++ leBytes 3 (seq % 4096 + 4096 * (ack % 4096)) ++ (b.drop 4).take 248
  c ++ leBytes 4 (crc32 c)

/-- An idle flit: it carries the acknowledgement, and the NAK when one is due (R322, R323). -/
def State.sendIdle (s : State) (d : DieId) (p : Nat) (nak : Bool) : State :=
  s.emit (.flit d p (flitBytes 0 false nak 0 (s.port d p).rxSeq 0 0 0 []))

/-- The far end expects `ack` next: everything before it is acknowledged. -/
def State.takeAckSeq (s : State) (d : DieId) (p ack : Nat) : State :=
  s.modPort d p fun x => { x with replay := x.replay.filter fun r =>
    let n := (ack + 4096 - r.1 % 4096) % 4096
    !(decide (1 ≤ n) && decide (n ≤ 256)) }

/-- Resend every unacknowledged flit in order (R312, R323); that is one link replay when there is any. The 8 µs of R323 run
from the first transmission, or from the end of the retrain (log 175, DEDUCED). -/
def State.resend (s : State) (d : DieId) (p : Nat) (anew : Bool) : State :=
  let x := s.port d p
  let s1 := x.replay.foldl (fun s r => s.emit (.flit d p (reAck r.2.1 r.1 x.rxSeq))) s
  if x.replay.isEmpty then s1
  else
    let t := s.tray.now
    (s1.modPort d p fun x => { x with replay := x.replay.map fun r =>
      (r.1, reAck r.2.1 r.1 x.rxSeq, if anew then t else r.2.2) }).modDie d fun x =>
      { x with fab := { x.fab with replays := satAdd 64 x.fab.replays 1 } }

/-- A NAK names the expected sequence (R323): what lies before it is acknowledged, the rest is resent. -/
def State.takeNak (s : State) (d : DieId) (p seq : Nat) : State := (s.takeAckSeq d p seq).resend d p false

/-- Send a record on a port in training, where flits are not numbered yet (R310). -/
def State.trainSend (s : State) (d : DieId) (p ty : Nat) (body : List Byte) : State :=
  s.emit (.flit d p (flitBytes 2 false false 0 0 0 0 0
    (recordBytes ty (s.groupNo d) 0 (s.identity d) 2 64 body)))

/-- Start training on a port (R310): framing lock, then the HELLO record (log 175, DEDUCED). -/
def State.startTraining (s : State) (d : DieId) (p : Nat) : State :=
  (s.modPort d p fun x => { x with helloHeard := false, mapHeard := false }).trainSend d p 0x20
    ([BitVec.ofNat 8 p, 0x01#8, 0#8, 0#8] ++ traySerial)

/-- The die runs its ports at low rate (R345): it is frozen, or a FLOW_LOSS halt holds it. -/
def Die.lowRate (x : Die) : Bool := x.frost.state == .frozen || x.svc.state == .flowHalt

/-- Free a port of everything a disabled port loses (R314). -/
def State.portOff (s : State) (d : DieId) (p : Nat) : State :=
  (s.modPort d p fun x => { x with state := .off, replay := [], out := [], fwd := [], cal := none, labels := [] }).loseFlows
    d 1 (fun f => f.port == p) (fun f => f.port == p) (fun e => e.inPort == p || e.outPort == p)

end Sys2Proof.Machine
end

