-- ==== Sys2Proof/Machine/PlanOps.lean ====
section
/-! DEFINITION. The operations of a running plan (Table 11.8, R277, 13.1 to 13.7): each command issues the next record of
one plan tile. Results are in place at once; until their planned cycle they count as in flight (R275, R288). -/

namespace Sys2Proof.Machine
open Sys2Proof

/-! ### Issue -/

/-- The next record of plan tile (u, v). -/
def Run.nextRec (r : Run) (u v : Nat) : Option Rec :=
  let i := v * r.plan.w + u
  (r.plan.scores.getD i [])[r.next.getD i 0]?

/-- No plan tile has an earlier record still to issue (R266). -/
def Run.isNext (r : Run) (cyc : Nat) : Bool :=
  (List.zipWith (fun sc n => match sc[n]? with
    | some (q : Rec) => decide (cyc ≤ q.cyc)
    | none => true) r.plan.scores r.next).all id

/-- The run of context (t, h) whose next record on plan tile (u, v) has an opcode and may issue: its plan clock runs, it is
not stopped at a halt point, and a hold lets only the records that hold be tried again (R283, R290). -/
def Die.issuing (x : Die) (t h op u v : Nat) : Option (Run × Rec) :=
  if !x.computes ∨ x.op.alertHalt then none
  else x.til.runs.findSome? fun r =>
    match r.nextRec u v with
    | none => none
    | some q =>
      if r.tenant = t ∧ r.handle = h ∧ q.op = op ∧ u < r.plan.w ∧ v < r.plan.h ∧ !r.halted ∧ r.isNext q.cyc ∧
          (r.holding.isNone ∨ op = 0x30 ∨ op = 0x31 ∨ op = 0x50) then some (r, q) else none

/-- Die byte ranges of lines named by plan tile. -/
def Plan.ranges (p : Plan) (ls : List (Nat × Nat × Nat × Nat)) : List (Nat × Nat) :=
  ls.map fun l => (lineAddr (p.tile l.1 l.2.1) l.2.2.1, 128 * l.2.2.2)

/-- The byte ranges a record reads when it issues, of MGATHER those of the indices its selector holds. -/
def State.readRanges (s : State) (d : DieId) (r : Run) (q : Rec) (u v : Nat) : List (Nat × Nat) :=
  let tile := r.plan.tile u v
  if q.op = 0x22 then
    (((KV.getD (s.die d).til.units tile {}).sel).take q.gk).map fun i =>
      (lineAddr tile (bits q.w 15 0 + i * q.stride), 128 * q.gb)
  else r.plan.ranges (q.reads u v 0)

/-- Compute cycle c of a run of 16 advances a plan clock at issue rate r (R119). -/
def advances (r c : Nat) : Bool := decide (c * r % 16 < r)

/-- On compute cycle c of a run of 16 every plan clock of the die pauses, and the vector and mesh edges are suppressed (R162). -/
def Die.pausesAll (x : Die) (c : Nat) : Bool := !advances x.issueCap c

/-- Compute cycles from the start of a run of 16 to its n-th plan cycle at rate r: the pattern of `advances` puts the k-th, counted
from 0, on cycle ⌈16 k / r⌉ (R119). -/
def patternCycles (r n : Nat) : Nat := if n = 0 then 0 else ceilDiv (16 * (n - 1)) (max 1 r) + 1

/-- The rate at which a context's plan clock runs: the lesser of its own and what the interlocks leave (R85, R162, R168). -/
def Run.issueRate (r : Run) (x : Die) : Nat := max 1 (min r.rate x.issueCap)

/-- n plan cycles of a run take this many compute cycles, and leave this place in a run of 16 and this rate in force: a change of
rate takes effect at the next run of 16 (R119, R161). -/
def Run.ahead (r : Run) (rate n : Nat) : Nat × Nat × Nat :=
  let left := (List.range 16).filter fun c => decide (r.cyc ≤ c) && decide (r.cyc ≠ 0) && advances r.inRate c
  if n = 0 then (0, r.cyc, r.inRate)
  else if n ≤ left.length then
    let c := left.getD (n - 1) 15 + 1
    (c - r.cyc, c % 16, r.inRate)
  else
    let k := patternCycles rate (n - left.length)
    ((if r.cyc = 0 then 0 else 16 - r.cyc) + k, k % 16, rate)

/-- The plan clock of a run reaches a plan cycle: runtime goes on by the compute cycles that this takes at the current step and
alert divider (R36, R119, R138). -/
def State.runTo (s : State) (d : DieId) (r : Run) (cyc : Nat) : State :=
  let x := s.die d
  let a := r.ahead (r.issueRate x) (cyc - r.clock)
  let s1 := s.advanceTo (r.clockAt + a.1 * (if x.op.div4 then 4 else 1) * 10 / stepN x.clk.curStep)
  s1.modRun d r.tenant r.handle r.queue fun r => { r with
    clock := max r.clock cyc, clockAt := s1.tray.now, cyc := a.2.1, inRate := a.2.2 }

/-- The clock reaches a record's cycle, and the record is issued: it counts as in flight until its latency has passed. -/
def Run.issued (r : Run) (q : Rec) (u v : Nat) : Run :=
  { r with
    clock := max r.clock q.cyc
    next := r.next.modify (v * r.plan.w + u) (· + 1)
    inFlight := (r.inFlight.filter fun f => decide (q.cyc < f.done)) ++
      [⟨r.plan.tile u v, q.op, q.cyc + q.latency u v, r.plan.ranges (q.writes u v)⟩]
    holding := none }

/-- Issue the next record of plan tile (u, v) of context (t, h) when it has opcode `op`, at its plan cycle. A poisoned word in the score store
or in a source line ends the plan (R262). Its activity counts in its tile's column (Table 11.8). `wait` says whether the record holds the plan (R283); time held is lateness (log 164, DEDUCED). -/
def State.issue (s0 : State) (d : DieId) (t h op u v : Nat) (wait : State → Run → Rec → Option HoldCause)
    (eff : State → Run → Rec → Nat → State) : State :=
  match (s0.die d).issuing t h op u v with
  | none => s0
  | some (r, q) =>
    let s := s0.runTo d r q.cyc
    let i := v * r.plan.w + u
    let tile := r.plan.tile u v
    let n := r.next.getD i 0
    let fetch := lineAddr tile (r.plan.stores.getD i 0 + n / 8) + 16 * (n % 8)
    let bad := s.poisoned d fetch 16 ++ ((s.readRanges d r q u v).map fun p => s.poisoned d p.1 p.2).flatten
    if !bad.isEmpty then
      (bad.foldl (fun s w => s.poisonWord d w) s).endRun d t h r.queue stSramUncorrectable 0
    else match wait s r q with
      | some c => s.modRun d t h r.queue fun r => { r with
          holding := some (c, match r.holding with | some p => p.2 | none => s.tray.now) }
      | none =>
        let held := match r.holding with | some p => s.tray.now - p.2 | none => 0
        eff ((s.modRun d t h r.queue fun r => { (r.issued q u v) with late := r.late + held }).countAct d
          ⟨t, h, r.queue, some tile, q.activity u v, 0, false⟩) r q tile

/-- Issue a record that never holds (log 164, DEDUCED). -/
def State.issueNow (s : State) (d : DieId) (t h op u v : Nat) (eff : State → Run → Rec → Nat → State) : State :=
  s.issue d t h op u v (fun _ _ _ => none) eff

/-! ### Units -/

/-- The units of a logical tile. -/
def State.unit (s : State) (d : DieId) (tile : Nat) : TileUnit := KV.getD (s.die d).til.units tile {}

/-- `s` with the units of a logical tile changed. -/
def State.modUnit (s : State) (d : DieId) (tile : Nat) (f : TileUnit → TileUnit) : State :=
  s.modDie d fun x => { x with til := { x.til with units := KV.put x.til.units tile (f (KV.getD x.til.units tile {})) } }

/-- The elements of size n in a byte string. -/
def elems (n : Nat) (bs : List Byte) : List Nat := (List.range (bs.length / n)).map fun i => leNat ((bs.drop (n * i)).take n)

/-- The bytes of a list of elements of size n. -/
def elemBytes (n : Nat) (es : List Nat) : List Byte := (es.map fun e => leBytes n e).flatten

/-- Vector register lanes. -/
def TileUnit.vec (x : TileUnit) (i : Nat) : List Nat := KV.getD x.v i (List.replicate 64 0)

/-- Set a vector register. -/
def TileUnit.setVec (x : TileUnit) (i : Nat) (l : List Nat) : TileUnit := { x with v := KV.put x.v i l }

/-- Registers Vd, Va, Vb and Vc of a record. -/
def Rec.vd (q : Rec) : Nat := bits q.w 5 0
def Rec.va (q : Rec) : Nat := bits q.w 13 8
def Rec.vb (q : Rec) : Nat := bits q.w 21 16
def Rec.vc (q : Rec) : Nat := bits q.w 29 24

/-- A lane-wise operation of one, two or three registers. -/
def State.lanes (s : State) (d : DieId) (t h op u v : Nat) (f : Rec → Nat → Nat → Nat → Nat) : State :=
  s.issueNow d t h op u v fun s _ q tile => s.modUnit d tile fun x =>
    let b := x.vec q.vb
    let c := x.vec q.vc
    x.setVec q.vd ((x.vec q.va).mapIdx fun i a => f q a (b.getD i 0) (c.getD i 0))

/-! ### Matrix engine -/

/-- NOP. -/
def execNop (d : DieId) (t h u v : Nat) (s : State) : Host.Outcome State Fault Refusal :=
  .next (s.issueNow d t h 0x00 u v fun s _ _ _ => s)

/-- MLOADW: fill the shadow weights, row k at line LA + ks (R277). -/
def execMloadw (d : DieId) (t h u v : Nat) (s : State) : Host.Outcome State Fault Refusal :=
  .next (s.issueNow d t h 0x01 u v fun s _ q tile =>
    let bs := s.sramRead d (lineAddr tile (bits q.w 15 0)) (128 * 128 * q.s)
    let es := elems q.s bs
    let rows := (List.range 128).map fun k => (es.drop (128 * k)).take 128
    s.modUnit d tile fun x => { x with shadow := some (q.fmt, rows) })

/-- MSWAP: the shadow becomes the active weights (R277). -/
def execMswap (d : DieId) (t h u v : Nat) (s : State) : Host.Outcome State Fault Refusal :=
  .next (s.issueNow d t h 0x02 u v fun s _ _ tile => s.modUnit d tile fun x => { x with weights := x.shadow })

/-- The active weights by column; cleared weights are zero (R268, R290). -/
def TileUnit.columns (x : TileUnit) : List (List Nat) :=
  let rows := match x.weights with | some w => w.2 | none => List.replicate 128 (List.replicate 128 0)
  (List.range 128).map fun j => rows.map fun r => r.getD j 0

/-- MMA: acc[base + i][j] += Σ_k A[i][k] × W[k][j] (R270, R277). An accumulator row that holds the other kind of number
takes free values: the spec gives no sum of the two (log 8, DESIGN CHOICE). -/
def State.mma (s : State) (d : DieId) (q : Rec) (tile : Nat) : State :=
  let x := s.unit d tile
  let cols := x.columns
  let fmt := match x.weights with | some w => w.1 | none => q.fmt
  let base := bits q.w 24 16
  let row (i : Nat) : Nat × Bool × List Nat :=
    let a := elems q.s (s.sramRead d (lineAddr tile (bits q.w 15 0 + i * q.s)) (128 * q.s))
    let old := KV.getD x.acc (base + i) (fmtInt fmt, List.replicate 128 0)
    (base + i, fmtInt fmt,
      if old.1 = fmtInt fmt then cols.mapIdx fun j c => mmaElem fmt (old.2.getD j 0) a c
      else (List.range 128).map fun j => (Config.freeWord (s.fresh + 128 * i + j)).toNat % 2 ^ 32)
  let rows := (List.range q.M).map row
  (s.skipFree (128 * q.M)).modUnit d tile fun x =>
    { x with acc := rows.foldl (fun a (r : Nat × Bool × List Nat) => KV.put a r.1 r.2) x.acc }

/-- MMA. -/
def execMma (d : DieId) (t h u v : Nat) (s : State) : Host.Outcome State Fault Refusal :=
  .next (s.issueNow d t h 0x03 u v fun s _ q tile => s.mma d q tile)

/-- MDRAIN: convert accumulator rows and write row i at LA + is (R276, R277). -/
def execMdrain (d : DieId) (t h u v : Nat) (s : State) : Host.Outcome State Fault Refusal :=
  .next (s.issueNow d t h 0x04 u v fun s _ q tile =>
    let x := s.unit d tile
    let row (i : Nat) : List Byte :=
      let a := KV.getD x.acc (bits q.w 24 16 + i) (false, List.replicate 128 0)
      elemBytes q.s (a.2.map fun e => if a.1 then fromI32 q.fmt e else fromF32 q.fmt e)
    s.sramWrite d (lineAddr tile (bits q.w 15 0)) ((List.range q.M).map row).flatten)

/-- MZERO: accumulator rows become zero. -/
def execMzero (d : DieId) (t h u v : Nat) (s : State) : Host.Outcome State Fault Refusal :=
  .next (s.issueNow d t h 0x05 u v fun s _ q tile => s.modUnit d tile fun x =>
    { x with acc := x.acc.filter fun r => !decide (bits q.w 24 16 ≤ r.1 ∧ r.1 < bits q.w 24 16 + q.M) })

/-! ### Vector unit -/

/-- VLOAD: vector i of n from byte 64 i s, converted to FP32 (R276, R277). -/
def execVload (d : DieId) (t h u v : Nat) (s : State) : Host.Outcome State Fault Refusal :=
  .next (s.issueNow d t h 0x10 u v fun s _ q tile =>
    let a := lineAddr tile (bits q.w 31 16)
    s.modUnit d tile fun x => (List.range q.nv).foldl (fun x i =>
      x.setVec (q.vd + i) ((elems q.s (s.sramRead d (a + 64 * i * q.s) (64 * q.s))).map (toF32 q.fmt))) x)

/-- VSTORE: the converse of VLOAD. -/
def execVstore (d : DieId) (t h u v : Nat) (s : State) : Host.Outcome State Fault Refusal :=
  .next (s.issueNow d t h 0x11 u v fun s _ q tile =>
    let x := s.unit d tile
    s.sramWrite d (lineAddr tile (bits q.w 31 16))
      ((List.range q.nv).map fun i => elemBytes q.s ((x.vec (q.vd + i)).map (fromF32 q.fmt))).flatten)

/-- VADD: Vd = Va + Vb. -/
def execVadd (d : DieId) (t h u v : Nat) (s : State) : Host.Outcome State Fault Refusal :=
  .next (s.lanes d t h 0x12 u v fun _ a b _ => vAdd a b)

/-- VMUL: Vd = Va × Vb. -/
def execVmul (d : DieId) (t h u v : Nat) (s : State) : Host.Outcome State Fault Refusal :=
  .next (s.lanes d t h 0x13 u v fun _ a b _ => vMul a b)

/-- VFMA: Vd = Va × Vb + Vc. -/
def execVfma (d : DieId) (t h u v : Nat) (s : State) : Host.Outcome State Fault Refusal :=
  .next (s.lanes d t h 0x14 u v fun _ a b c => vFma a b c)

/-- VMAX: Vd = max(Va, Vb). -/
def execVmax (d : DieId) (t h u v : Nat) (s : State) : Host.Outcome State Fault Refusal :=
  .next (s.lanes d t h 0x15 u v fun _ a b _ => vMax a b)

/-- VEXP2: Vd = 2^Va. -/
def execVexp2 (d : DieId) (t h u v : Nat) (s : State) : Host.Outcome State Fault Refusal :=
  .next (s.lanes d t h 0x16 u v fun _ a _ _ => vExp2 a)

/-- VRCP: Vd = 1 / Va. -/
def execVrcp (d : DieId) (t h u v : Nat) (s : State) : Host.Outcome State Fault Refusal :=
  .next (s.lanes d t h 0x17 u v fun _ a _ _ => vRcp a)

/-- VRSQRT: Vd = 1 / √Va. -/
def execVrsqrt (d : DieId) (t h u v : Nat) (s : State) : Host.Outcome State Fault Refusal :=
  .next (s.lanes d t h 0x18 u v fun _ a _ _ => vRsqrt a)

/-- VRED: the sum or maximum of Va's lanes in every lane of Vd. -/
def execVred (d : DieId) (t h u v : Nat) (s : State) : Host.Outcome State Fault Refusal :=
  .next (s.issueNow d t h 0x19 u v fun s _ q tile => s.modUnit d tile fun x =>
    x.setVec q.vd (List.replicate 64 (vReduce (bits q.w 33 32 == 1) (x.vec q.va))))

/-- VSCALE: Vd = Va × imm + Vb. -/
def execVscale (d : DieId) (t h u v : Nat) (s : State) : Host.Outcome State Fault Refusal :=
  .next (s.lanes d t h 0x1A u v fun q a b _ => vScale a (bits q.w 63 32) b)

/-- VACC: Vd and Vd + 1 take an accumulator row, converted to FP32. -/
def execVacc (d : DieId) (t h u v : Nat) (s : State) : Host.Outcome State Fault Refusal :=
  .next (s.issueNow d t h 0x1B u v fun s _ q tile => s.modUnit d tile fun x =>
    let a := KV.getD x.acc (bits q.w 24 16) (false, List.replicate 128 0)
    let l := a.2.map fun e => if a.1 then fromI32 5 e else e
    (x.setVec q.vd (l.take 64)).setVec (q.vd + 1) (l.drop 64))

/-! ### Memory mover -/

/-- MCOPY: n lines from one tile of the region to another (R277). -/
def execMcopy (d : DieId) (t h u v : Nat) (s : State) : Host.Outcome State Fault Refusal :=
  .next (s.issueNow d t h 0x20 u v fun s r q _ =>
    let a := lineAddr (r.plan.tile (raU q.src) (raV q.src)) (raLA q.src)
    s.sramWrite d (lineAddr (r.plan.tile (raU q.dst) (raV q.dst)) (raLA q.dst)) (s.sramRead d a (128 * q.nm)))

/-- MFILL: n lines of a 32-bit pattern. -/
def execMfill (d : DieId) (t h u v : Nat) (s : State) : Host.Outcome State Fault Refusal :=
  .next (s.issueNow d t h 0x21 u v fun s r q _ =>
    s.sramWrite d (lineAddr (r.plan.tile (raU q.dst) (raV q.dst)) (raLA q.dst))
      (List.replicate (32 * q.nm) (leBytes 4 (bits q.w 63 32))).flatten)

/-- MGATHER: b lines for each of the first k indices of the tile's selector (R277). A position whose selector holds no index
leaves undefined lines (log 161, DEDUCED). -/
def execMgather (d : DieId) (t h u v : Nat) (s : State) : Host.Outcome State Fault Refusal :=
  .next (s.issueNow d t h 0x22 u v fun s _ q tile =>
    let sel := (s.unit d tile).sel
    let src (i : Nat) : List Byte := s.sramRead d (lineAddr tile (bits q.w 15 0 + i * q.stride)) (128 * q.gb)
    let parts := (List.range q.gk).map fun pos =>
      (lineAddr tile (bits q.w 31 16 + pos * q.gb), (sel[pos]?).map src)
    parts.foldl (fun s p => match p.2 with
      | some bs => s.sramWrite d p.1 bs
      | none => s.sramFree d p.1 (128 * q.gb)) s)

/-! ### Fabric (R280, R330, R332, R333) -/

/-- The send flow and the receive flow of a run at a position of its flow table. -/
def Die.txOf (x : Die) (r : Run) (pos : Nat) : Option TxFlow :=
  x.fab.tx.find? fun f => f.tenant == r.tenant && f.handle == r.handle && f.queue == r.queue && f.pos == pos
def Die.rxOf (x : Die) (r : Run) (pos : Nat) : Option RxFlow :=
  x.fab.rx.find? fun f => f.tenant == r.tenant && f.handle == r.handle && f.queue == r.queue && f.pos == pos

/-- FSEND holds until its flow is open and its send space has room (R330, R332). -/
def sendWait (d : DieId) (s : State) (r : Run) (q : Rec) : Option HoldCause :=
  match (s.die d).txOf r (bits q.w 7 0) with
  | none => none
  | some f =>
    if !f.opened then some .openDone
    else if f.space < (f.data.map List.length).sum + 128 * q.nf then some .sendRoom
    else none

/-- FSEND: n lines go into the flow's send space, and what credit allows is sent (R332) (log 163, DEDUCED). -/
def execFsend (d : DieId) (t h u v : Nat) (s : State) : Host.Outcome State Fault Refusal :=
  .next (s.issue d t h 0x30 u v (sendWait d) fun s r q tile =>
    match (s.die d).txOf r (bits q.w 7 0) with
    | none => s
    | some f =>
      let bs := s.sramRead d (lineAddr tile (bits q.w 23 8)) (128 * q.nf)
      (s.modTx d fun fs => fs.map fun g => if g.is f.tenant f.id then { g with data := g.data ++ [bs] } else g).pump d
        f.tenant f.id)

/-- FRECV holds until its bytes have arrived (R280). -/
def recvWait (d : DieId) (s : State) (r : Run) (q : Rec) : Option HoldCause :=
  match (s.die d).rxOf r (bits q.w 7 0) with
  | none => none
  | some f => if f.data.length < 128 * q.nf then some .recv else none

/-- Return credit for n consumed bytes of a flow (R333): after every 4 KiB, and at the end in multiples of 256. -/
def State.returnCredit (s : State) (d : DieId) (f : RxFlow) (n : Nat) : State :=
  let total := f.owed + n
  let full := n / 4096
  let last := (total - 4096 * full) / 256 * 256
  let send (s : State) (k : Nat) : State :=
    s.sendRecord d 0x2A f.peer (leBytes 2 f.tenant ++ [0#8, 0#8] ++ leBytes 4 f.id ++ leBytes 4 k)
  let s1 := (List.replicate full 4096).foldl send s
  let s2 := if last = 0 then s1 else send s1 last
  s2.modRx d fun fs => fs.map fun g => if g.is f.tenant f.id then { g with owed := total - 4096 * full - last } else g

/-- FRECV: the oldest 128n bytes of the allotment are written, and credit is returned (R333) (log 163, DEDUCED). -/
def execFrecv (d : DieId) (t h u v : Nat) (s : State) : Host.Outcome State Fault Refusal :=
  .next (s.issue d t h 0x31 u v (recvWait d) fun s r q tile =>
    match (s.die d).rxOf r (bits q.w 7 0) with
    | none => s
    | some f =>
      let n := 128 * q.nf
      let s1 := s.sramWrite d (lineAddr tile (bits q.w 23 8)) (f.data.take n)
      (s1.modRx d fun fs => fs.map fun g => if g.is f.tenant f.id then { g with data := g.data.drop n } else g).returnCredit
        d f n)

/-! ### Scout banks (chapter 13) -/

/-- Change a bank. -/
def State.modBank (s : State) (d : DieId) (b : Nat) (f : Bank → Bank) : State :=
  s.modDie d fun x => { x with sct := { x.sct with banks := x.sct.banks.modify b f } }

/-- A stored weight or key element: -128 acts as -127 (R348). -/
def scoutElem (b : Byte) : Int := max (-127) b.toInt

/-- SLOAD: 1,152 weights, and the key counter and score pyramid are cleared (R352). -/
def execSload (d : DieId) (t h : Nat) (s : State) : Host.Outcome State Fault Refusal :=
  .next (s.issueNow d t h 0x40 0 0 fun s _ q tile =>
    let bs := (s.sramRead d (lineAddr tile (bits q.w 23 8)) 1152).map scoutElem
    let rows := (List.range 32).map fun r => (bs.drop (36 * r)).take 36
    s.modBank d (bits q.w 2 0) fun b => { b with weights := rows, keys := [] })

/-- y / 4,572 rounded to nearest, ties to even (R348, R269). -/
def idealCode (y : Int) : Int :=
  let f := y / 4572
  let r := y % 4572
  clampI (-127) 127 (if 2286 < r ∨ (r = 2286 ∧ f % 2 ≠ 0) then f + 1 else f)

/-- The effective bits in force at a τ code, in 0.01 bits (R357, Table 13.1): b0(τ) less the derating. -/
def Bank.effectiveBits (b : Bank) (d : DieId) (bank tau : Nat) : Int :=
  ([350, 400, 450, 500, 550, 600, 640].getD tau 640 : Nat) - (b.derating d bank : Int)

/-- The key score of one key in a bank (R348, R349, R371): the largest measured code over the enabled rows. `k` numbers the
capture among all captures (R356). -/
def Bank.score (d : DieId) (bank : Nat) (out : List Nat) (b : Bank) (key : List Int) (k tau : Nat) : Option Int :=
  let x := key.mapIdx fun c e => if out.contains c then 0 else e
  let rows := (b.weights.mapIdx fun i w => (i, w)).filter fun p => p.2.any fun w => w != 0
  let codes := rows.map fun p =>
    clampI (-127) 127 (idealCode (List.zipWith (· * ·) p.2 x).sum + Config.scoutError d bank p.1 k
      (b.effectiveBits d bank tau))
  match codes with
  | [] => none
  | c :: cs => some (cs.foldl max c)

/-- SSTREAM: n keys go to every bank of the mask (R354, R369, R372): in a comb-loss window, below 12 dB, or in a failed bank
a key takes the score -128. -/
def execSstream (d : DieId) (t h : Nat) (s : State) : Host.Outcome State Fault Refusal :=
  .next (s.issueNow d t h 0x41 0 0 fun s _ q tile =>
    let bs := (s.sramRead d (lineAddr tile (bits q.w 23 8)) (36 * q.nk)).map scoutElem
    let keys := (List.range q.nk).map fun j => (bs.drop (36 * j)).take 36
    let c := (s.die d).sct
    let s1 := s.skipFree q.nk
    (List.range 8).foldl (fun s' i =>
      if !bit q.w i then s'
      else s'.modBank d i fun b =>
        let dead := b.window || b.dark || b.failPending
        let new := keys.mapIdx fun j key =>
          (match b.score d i c.columnsOut key (s.fresh + j) (bits q.w 46 44) with
            | none => none
            | some v => some (if dead then -128 else v), dead || b.degraded || !c.columnsOut.isEmpty)
        { b with keys := (b.keys ++ new).take 262144 }) s1)

/-- The block score over the banks of a mask (R359). -/
def blockScore (banks : List Bank) (B i : Nat) : Option Int :=
  maxOf' ((banks.map fun b => ((b.keys.drop (i * B)).take B).filterMap Prod.fst).flatten)
where
  maxOf' : List Int → Option Int
    | [] => none
    | x :: xs => some (xs.foldl max x)

/-- The k blocks of highest rank, in ascending order of index (R359, R360). -/
def selectBlocks (banks : List Bank) (C k B : Nat) : List Nat :=
  let key (i : Nat) : Nat := match blockScore banks B i with | none => 1000 | some v => (127 - v).toNat
  sortBy id ((sortBy key (List.range C)).take k)

/-- SSELECT (R359, R360, R369). -/
def execSselect (d : DieId) (t h : Nat) (s : State) : Host.Outcome State Fault Refusal :=
  .next (s.issueNow d t h 0x42 0 0 fun s r q tile =>
    let c := (s.die d).sct
    let banks := ((List.range 8).filter fun i => bit q.w i).map fun i => c.banks.getD i {}
    let sel := selectBlocks banks q.selC q.selK q.selB
    let deg := !c.columnsOut.isEmpty || banks.any fun b => (b.keys.take (q.selC * q.selB)).any Prod.snd
    let s1 := r.plan.tiles.foldl (fun s L => s.modUnit d L fun x => { x with sel := sel }) s
    let s2 := s1.sramWrite d (lineAddr tile (bits q.w 54 39)) (elemBytes 2 (sel ++ List.replicate (64 - sel.length) 0xFFFF))
    (s2.modDie d fun x => { x with sct := { x.sct with
      selections := satAdd 64 x.sct.selections 1, degraded := satAdd 32 x.sct.degraded (b2n deg) } }).modRun d t h r.queue fun r =>
        { r with scoutDegraded := r.scoutDegraded || deg, lastK := q.selK })

/-- SBLANK (R365). -/
def execSblank (d : DieId) (t h : Nat) (s : State) : Host.Outcome State Fault Refusal :=
  .next (s.issueNow d t h 0x43 0 0 fun s _ q _ => s.modDie d fun x => { x with sct := { x.sct with
    banks := x.sct.banks.mapIdx fun i b => if bit q.w i then b.blank s.tray.now false else b
    blankings := satAdd 64 x.sct.blankings ((List.range 8).filter fun i => bit q.w i).length } })

/-! ### Barriers, halt points, end (11.8, 11.9) -/

/-- Body of a barrier arrival or release (R605, Table 12.13). -/
def barrierBody (t id n parts : Nat) : List Byte := leBytes 2 t ++ [0#8, 0#8] ++ leBytes 4 id ++ leBytes 4 n ++ leBytes 4 parts

/-- A release reaches a die (R291): every run of the tenant with that barrier may pass its occurrence n (log 162, DEDUCED). -/
def State.takeRelease11 (s : State) (d : DieId) (t id n : Nat) : State :=
  s.modDie d fun x => { x with til := { x.til with runs := x.til.runs.map fun r =>
    let o := r.plan.barriers.findIdx? (fun b => b.id == id)
    match o with
      | none => r
      | some p => if r.tenant != t || r.barFree.contains (p, n) then r else { r with barFree := r.barFree ++ [(p, n)] } } }

/-- An arrival reaches the barrier root (R291, R605): when the stated number of dies has arrived, a release goes to each (log 162, DEDUCED). -/
def State.takeArrival (s : State) (d : DieId) (src t id n parts : Nat) : State :=
  let k := (t, id, n)
  let old := KV.getD (s.die d).fab.barriers k (parts, [])
  let ms := if old.2.contains src then old.2 else old.2 ++ [src]
  let put (f : List ((Nat × Nat × Nat) × (Nat × List Nat))) (s : State) : State :=
    s.modDie d fun x => { x with fab := { x.fab with barriers := f } }
  if ms.length < parts then put (KV.put (s.die d).fab.barriers k (parts, ms)) s
  else
    let s1 := put (KV.del (s.die d).fab.barriers k) s
    ms.foldl (fun s m =>
      if m = s.identity d then s.takeRelease11 d t id n
      else s.sendRecord d 0x11 m (barrierBody t id n parts)) s1

/-- Send a run's next arrival for a barrier position (R291). -/
def State.sendArrival (s : State) (d : DieId) (t h q pos : Nat) : State :=
  match (s.die d).til.runs.find? fun r => r.is t h q with
  | none => s
  | some r => match r.plan.barriers[pos]? with
    | none => s
    | some b =>
      let n := r.barSent.getD pos 0 + 1
      let s1 := s.modRun d t h q fun r => { r with barSent := r.barSent.set pos n }
      if b.root = s.identity d then s1.takeArrival d b.root t b.id n b.participants
      else s1.sendRecord d 0x10 b.root (barrierBody t b.id n b.participants)

/-- BARRIER: its arrival has gone out at the latest when it is reached; it issues when its release has arrived, and holds
until then (R283, R291). -/
def execBarrier (d : DieId) (t h : Nat) (s : State) : Host.Outcome State Fault Refusal :=
  let pos (q : Rec) : Nat := bits q.w 9 0
  let s0 := match (s.die d).issuing t h 0x50 0 0 with
    | some (r, q) => if r.barSent.getD (pos q) 0 = r.barCount.getD (pos q) 0 then s.sendArrival d t h r.queue (pos q) else s
    | none => s
  .next (s0.issue d t h 0x50 0 0
    (fun _ r q => if r.barFree.contains (pos q, r.barCount.getD (pos q) 0 + 1) then none else some .barrier)
    fun s r q _ => s.modRun d t h r.queue fun r =>
      let n := r.barCount.getD (pos q) 0 + 1
      { r with barCount := r.barCount.set (pos q) n, barFree := r.barFree.filter fun f => f != (pos q, n) })

/-- Clear the registers of a region and blank its banks at a halt point (R290, R367). -/
def State.haltHere (s : State) (d : DieId) (r : Run) : State :=
  (s.clearRegion d r.plan).modDie d fun x => { x with sct := { x.sct with
    banks := x.sct.banks.mapIdx fun i b => if bit r.plan.bankMask i then b.blank s.tray.now false else b
    blankings := satAdd 64 x.sct.blankings ((List.range 8).filter fun i => bit r.plan.bankMask i).length } }

/-- HALTPT: with a stop pending the plan clock stops here (R290). -/
def execHaltpt (d : DieId) (t h : Nat) (s : State) : Host.Outcome State Fault Refusal :=
  .next (s.issueNow d t h 0x51 0 0 fun s r _ _ =>
    if r.stop = .none then s
    else (s.haltHere d r).modRun d t h r.queue fun r => { r with halted := true })

/-- END: the plan ends, and its RUN_PLAN completes OK (R268, R493). -/
def execEnd (d : DieId) (t h : Nat) (s : State) : Host.Outcome State Fault Refusal :=
  .next (s.issueNow d t h 0x52 0 0 fun s r q _ =>
    (s.modRun d t h r.queue fun r => { r with clock := q.cyc + 1, inFlight := [] }).endRun d t h r.queue stOk 0)

end Sys2Proof.Machine
end

