-- ==== Sys2Proof/Machine/Records.lean ====
section
/-! DEFINITION. Control records as they arrive (12.9 to 12.11): flows, calibration, lane maps, floods, and the dispatch of
every record type to the operation that its own command also takes. -/

namespace Sys2Proof.Machine
open Sys2Proof

/-! ### Training and calibration records -/

/-- A HELLO arrives (R310). -/
def State.takeHello (s : State) (d : DieId) (p group id farPort : Nat) (serial : List Byte) : State :=
  s.modPort d p fun x => { x with neighbour := some (group, id, farPort, serial), helloHeard := true }

/-- Put a received lane map in force (R311). -/
def State.applyRxMap (s : State) (d : DieId) (p : Nat) (m : List (Option Nat)) : State :=
  let old := (s.port d p).rxMap
  let s1 := s.modPort d p fun x =>
    let y : Port := { x with rxMap := m, rxNext := none, mapHeard := true, rx := mapStates m x.rx }
    if y.state = .up ∨ y.state = .degraded then { y with state := y.upState } else y
  if mapped m < mapped old then s1.logDie d 0x3003 [BitVec.ofNat 8 p, BitVec.ofNat 8 (mapped m)] else s1

/-- A LANEMAP arrives (R311): it applies from the link sequence that it names. -/
def State.takeLanemap (s : State) (d : DieId) (p seq : Nat) (lines : List Nat) : State :=
  let m := (List.range 36).map fun k => match lines[k]? with
    | some l => if l < 40 then some l else none
    | none => none
  let x := s.port d p
  if x.state = .train ∨ x.state = .down ∨ seq % 4096 = x.rxSeq then s.applyRxMap d p m
  else s.modPort d p fun x => { x with rxNext := some (seq % 4096, m) }

/-- This end leads the calibration of a port (R315): lower group number, then lower identity. -/
def State.leads (s : State) (d : DieId) (p : Nat) : Bool :=
  match (s.port d p).neighbour with
  | none => false
  | some (g, id, _) => decide (s.groupNo d < g) || (decide (s.groupNo d = g) && decide (s.identity d < id))

/-- Take a line out in both directions for calibration (Table 12.6 steps 2 and 3): a lane on it moves to a reserve line. -/
def State.calOut (s : State) (d : DieId) (p line : Nat) : State :=
  let x := s.port d p
  let fix (st : LineState) : LineState := .calibrating
  ((s.modPort d p fun x => { x with cal := some (line, s.tray.now), tx := x.tx.modify line fix, rx := x.rx.modify line fix
      }).refit d p false).refit d p true

/-- CAL_START arrives (R315): one from an end that does not lead is ignored. -/
def State.takeCalStart (s : State) (d : DieId) (p line : Nat) : State :=
  let x := s.port d p
  if s.leads d p ∨ !(x.state = .up ∨ x.state = .degraded) ∨ x.cal.isSome ∨ 40 ≤ line then s else s.calOut d p line

/-- A coefficient's refinement by one calibration (R307): at most 2^-12, within 2^-8 of its fused value. Its size is free
(log 3, DESIGN CHOICE). -/
def refineXtalk (x : List ((Nat × Nat) × Int)) (free : Nat) (ring : Nat) : List ((Nat × Nat) × Int) :=
  (List.range 8).foldl (fun x k =>
    let dlt : Int := ((Config.freeWord (free + k)).toNat % 9 : Nat) - 4
    KV.put x (ring, k) (clampI (-64) 64 (KV.getD x (ring, k) 0 + dlt))) x

/-- The calibration of a line ends (Table 12.6 step 4): the line becomes reserve, its rings re-centred and locked, or failed;
its two rings' coefficients are refined (R307), a column that had lost the line returns (R371). -/
def State.calFinish (s : State) (d : DieId) (p line : Nat) (failed : Bool) : State :=
  let x := s.port d p
  if x.cal.map Prod.fst ≠ some line then s
  else
    let free := s.fresh
    let end_ : LineState := if failed then .failed else .reserve
    let fix (st : LineState) : LineState := if st = .calibrating then end_ else st
    let s1 := (s.skipFree 16).modDie d fun y =>
      let q := y.fab.ports.getD p {}
      { y with
        fab := { y.fab with
          ports := y.fab.ports.modify p fun q => { q with cal := none, tx := q.tx.modify line fix, rx := q.rx.modify line fix }
          rings := if failed then y.fab.rings else [false, true].foldl (fun rs drop =>
            let n := q.ringNo p drop line
            KV.put rs n { KV.getD rs n {} with locked := true, bad := 0, sat := 0, searchAt := none }) y.fab.rings
          xtalk := refineXtalk (refineXtalk y.fab.xtalk free (q.ringNo p false line)) (free + 8) (q.ringNo p true line) }
        sct := { y.sct with columnsOut := if failed then y.sct.columnsOut else y.sct.columnsOut.filter fun c => c != line } }
    (s1.refit d p false).refit d p true

/-- CAL_END arrives from the leader (Table 12.6). -/
def State.takeCalEnd (s : State) (d : DieId) (p line : Nat) (failed : Bool) : State :=
  if s.leads d p then s else s.calFinish d p line failed

/-- A STATUS arrives (R320, R321): the far readings are kept, and losses are localised; in a holding pattern that pauses. -/
def State.takeStatus (s : State) (d : DieId) (p : Nat) (stage3 : Int) (stage5 : List Int) : State :=
  let s1 := s.modPort d p fun x => { x with far := some (stage3, stage5) }
  if (s.die d).svc.holding.isSome then s1 else s1.localise d p

/-- LOWRATE arrives (R345, R346): both ends switch. A die that runs its own ports at low rate stays there. -/
def State.takeLowrate (s : State) (d : DieId) (p : Nat) (back : Bool) (line : Nat) : State :=
  let x := s.port d p
  if back then
    if x.state = .low ∧ !(s.die d).lowRate then
      ((s.modPort d p fun x => { x with state := x.upState }).drainRecords d p).pumpPort d p
    else s
  else if x.state = .up ∨ x.state = .degraded then
    (s.stopCal d p).modPort d p fun x => { x with state := .low, lowLine := line }
  else s

/-! ### Flows (12.9) -/

/-- The lowest free label of a port's transmit direction (R327). -/
def Port.freeLabel (x : Port) : Option Nat := (List.range 4096).find? fun l => !x.labels.contains l

/-- Body of OPEN (Table 12.13). -/
def openBody (r : OpenRec) : List Byte :=
  leBytes 2 r.tenant ++ [BitVec.ofNat 8 r.hops, BitVec.ofNat 8 r.idx] ++ leBytes 4 r.id ++ leBytes 2 r.source ++
    leBytes 2 r.dest ++ leBytes 4 r.route ++ leBytes 2 r.label ++ [0#8, 0#8]

/-- Send OPEN one hop on a port, with the group number it names. -/
def State.sendOpen (s : State) (d : DieId) (p : Nat) (r : OpenRec) : State :=
  s.putRecord d p (recordBytes 0x28 r.group 0 (s.identity d) 2 64 (openBody r))

/-- A refused OPEN ends the flow at both ends (R329, R338). -/
def State.refuseOpen (s : State) (d : DieId) (r : OpenRec) : State :=
  let tell (s : State) (dst : Nat) : State :=
    if dst = s.identity d then s.loseFlow d r.tenant r.id else s.tellLost d dst r.tenant 3 r.id r.source r.dest
  tell (tell s r.source) r.dest

/-- Install a receive flow under its label and answer OPEN_DONE (R328). -/
def State.installRx (s : State) (d : DieId) (f : RxFlow) (label : Nat) : State :=
  (s.modRx d fun fs => fs.map fun g => if g == f then { g with label := some label, seq := 0 } else g).sendRecord d 0x29 f.peer
    (leBytes 2 f.tenant ++ [0#8, 0#8] ++ leBytes 4 f.id ++ leBytes 4 f.allot)

/-- A registered receive flow matches an OPEN (R328). -/
def RxFlow.fits (f : RxFlow) (port t id source : Nat) : Bool :=
  f.tenant == t && f.id == id && f.peer == source && f.port == port

/-- An OPEN arrives (R327 to R329). -/
def State.takeOpen (s : State) (d : DieId) (p : Nat) (r : OpenRec) : State :=
  if r.idx < r.hops then
    let out := routeNibble r.route r.idx
    let x := s.port d out
    match x.freeLabel with
    | none => s.refuseOpen d r
    | some l =>
      if !(x.state = .up ∨ x.state = .degraded) then s.refuseOpen d r
      else
        let old := (s.die d).fab.transit.filter fun e => e.inPort == p && e.inLabel == r.label
        let s1 := old.foldl (fun s e => s.freeLabel d e.outPort e.outLabel) s
        let s2 := (s1.modDie d fun x => { x with fab := { x.fab with
          transit := (x.fab.transit.filter fun e => !(e.inPort == p && e.inLabel == r.label)) ++
            [{ inPort := p, inLabel := r.label, tenant := r.tenant, outPort := out, outLabel := l, id := r.id,
               source := r.source, dest := r.dest }] } }).modPort d out fun x => { x with labels := x.labels ++ [l] }
        s2.sendOpen d out { r with idx := r.idx + 1, label := l }
  else if r.group ≠ s.groupNo d then s.refuseOpen d r
  else match (s.die d).fab.rx.find? fun f => f.fits p r.tenant r.id r.source with
    | some f => if f.label.isSome then s.refuseOpen d r else s.installRx d f r.label
    | none =>
      if 1024 ≤ (s.die d).fab.pendOpen.length then s.refuseOpen d r
      else s.modDie d fun x => { x with fab := { x.fab with
        pendOpen := x.fab.pendOpen ++ [⟨p, r.tenant, r.id, r.group, r.source, r.dest, r.label⟩] } }

/-- OPEN_DONE arrives at the source (R330): sending starts with the credit of the allotment. -/
def State.takeOpenDone (s : State) (d : DieId) (t id allot : Nat) : State :=
  (s.modTx d fun fs => fs.map fun f => if f.is t id ∧ !f.opened then { f with opened := true, credit := allot } else f).pump
    d t id

/-- CREDIT arrives at the source (R333). -/
def State.takeCredit (s : State) (d : DieId) (t id n : Nat) : State :=
  (s.modTx d fun fs => fs.map fun f => if f.is t id then { f with credit := f.credit + n } else f).pump d t id

/-- A tag check fails (R336): the flit is discarded and counted; the first failure in each 60 s is recorded. -/
def State.tagDiscard (s : State) (d : DieId) (p label : Nat) : State :=
  let now := s.tray.now
  let due := match (s.die d).fab.tagLogged with
    | none => true
    | some t => decide (t + 60000000000 ≤ now)
  let s1 := s.modDie d fun x => { x with fab := { x.fab with
    tagDiscards := satAdd 64 x.fab.tagDiscards 1, tagLogged := if due then some now else x.fab.tagLogged } }
  if due then s1.logDie d 0x3004 ([BitVec.ofNat 8 p] ++ leBytes 2 label) else s1

/-- The transit entry at an arrival port and label. -/
def Fabric.transitAt (f : Fabric) (p label : Nat) : Option Transit :=
  f.transit.find? fun e => e.inPort == p && e.inLabel == label

/-- The installed receive flow at an arrival port and label. -/
def Fabric.rxAt (f : Fabric) (p label : Nat) : Option RxFlow := f.rx.find? fun e => e.port == p && e.label == some label

/-- A data flit passes the tag check or is discarded; it is forwarded in order or delivered once (R333, R334, R336). -/
def State.takeData (s : State) (d : DieId) (p : Nat) (last : Bool) (label t fseq : Nat) (pay : List Byte) : State :=
  let f := (s.die d).fab
  match f.transitAt p label, f.rxAt p label with
  | some e, _ =>
    if e.tenant ≠ t then s.tagDiscard d p label
    else
      let s1 := s.modDie d fun x => { x with fab := { x.fab with transit := x.fab.transit.map fun g =>
        if g == e then { g with seq := (fseq + 1) % 2 ^ 24 } else g } }
      (s1.modPort d e.outPort fun x => { x with fwd := x.fwd ++ [⟨1, last, e.outLabel, t, fseq, pay⟩] }).pumpPort d e.outPort
  | none, some r =>
    if r.tenant ≠ t then s.tagDiscard d p label
    else if fseq ≠ r.seq then s
    else s.modRx d fun fs => fs.map fun g => if g == r then
      { g with seq := (g.seq + 1) % 2 ^ 24, data := g.data ++ pay } else g
  | none, none => s.tagDiscard d p label

/-- A close flit frees the entry of each die it passes (R337); it also drops an OPEN that still waits (R328). -/
def State.takeClose (s : State) (d : DieId) (p label t fseq : Nat) : State :=
  let f := (s.die d).fab
  match f.transitAt p label, f.rxAt p label with
  | some e, _ =>
    if e.tenant ≠ t then s.tagDiscard d p label
    else
      let s1 := (s.modPort d e.outPort fun x => { x with fwd := x.fwd ++ [⟨3, false, e.outLabel, t, fseq, []⟩] }).modDie d
        fun x => { x with fab := { x.fab with transit := x.fab.transit.filter fun g => !(g == e) } }
      (s1.freeLabel d e.outPort e.outLabel).pumpPort d e.outPort
  | none, some r =>
    if r.tenant ≠ t then s.tagDiscard d p label
    else s.modRx d fun fs => fs.map fun g => if g == r then { g with label := none } else g
  | none, none =>
    if f.pendOpen.any fun o => o.port == p && o.label == label && o.tenant == t then
      s.modDie d fun x => { x with fab := { x.fab with
        pendOpen := x.fab.pendOpen.filter fun o => !(o.port == p && o.label == label && o.tenant == t) } }
    else s.tagDiscard d p label

/-- TENANT_HALT arrives (R339): every flow of the tenant with an endpoint among the identities ends, and every entry of
those flows is freed at once. -/
def State.takeTenantHalt (s : State) (d : DieId) (t : Nat) (all : Bool) (ids : List Nat) : State :=
  let me := ids.contains (s.identity d)
  let hit (x : Nat) (a b : Bool) : Bool := (all || x == t) && (a || b)
  let s1 := s.loseFlows d 5 (fun f => hit f.tenant me (ids.contains f.peer)) (fun f => hit f.tenant me (ids.contains f.peer))
    (fun e => hit e.tenant (ids.contains e.source) (ids.contains e.dest))
  s1.modDie d fun x => { x with fab := { x.fab with
    pendOpen := x.fab.pendOpen.filter fun o => !hit o.tenant (ids.contains o.source) (ids.contains o.dest) } }

/-- An EMERGENCY record arrives (R601): a notice with die index 0xF to every resident tenant's VF and to every PF. -/
def State.takeEmergency (s : State) (d : DieId) (r : EmergencyRec) : State :=
  let s1 := (s.residentTenants d).foldl (fun s t => match s.fnOf t with
    | some f => s.notice f r.kind r.code 0xF r.time 0
    | none => s) s
  s1.noticePfs r.kind r.code 0xF r.time 0

/-! ### Dispatch (R340, R342) -/

/-- The record length that Table 12.13 gives: 12 plus the body, with the count fields' part. -/
def recordLen (b : List Byte) : Option Nat :=
  let at_ (i : Nat) : Nat := (b.getD i 0#8).toNat
  let u16 (i : Nat) : Nat := at_ i + 256 * at_ (i + 1)
  match at_ 0 with
  | 0x01 => some 28
  | 0x02 => some (32 + 2 * (u16 24 + u16 26 + u16 28))
  | 0x03 => some 16
  | 0x04 => some 20
  | 0x05 => some 24
  | 0x08 => some 24
  | 0x09 => some 40
  | 0x10 => some 28
  | 0x11 => some 28
  | 0x12 => some 24
  | 0x13 => if at_ 15 ≤ 8 then some (16 + 2 * at_ 15) else none
  | 0x14 => some 24
  | 0x18 => some 24
  | 0x19 => some 24
  | 0x1A => some 24
  | 0x1B => some 24
  | 0x20 => some 32
  | 0x21 => some 52
  | 0x22 => some 16
  | 0x23 => some 16
  | 0x24 => some 96
  | 0x25 => some 20
  | 0x28 => some 32
  | 0x29 => some 24
  | 0x2A => some 24
  | _ => none

/-- The reserved bytes of each record's body, and flag bytes with the bits they may set (Table 12.13). -/
def reservedBytes (ty : Nat) : List Nat × List (Nat × Nat) :=
  match ty with
  | 0x01 => ([14, 15], [(13, 3)])
  | 0x02 => ([14, 15, 30, 31], [(13, 3)])
  | 0x03 => ([13, 14, 15], [(12, 1)])
  | 0x04 => ([13, 16, 17, 18, 19], [])
  | 0x05 => ([13], [])
  | 0x10 => ([14, 15], [])
  | 0x11 => ([14, 15], [])
  | 0x12 => ([15], [])
  | 0x13 => ([], [(14, 1)])
  | 0x14 => ([14, 15], [])
  | 0x20 => ([14, 15], [])
  | 0x21 => ([14, 15], [(13, 15)])
  | 0x22 => ([13, 14, 15], [])
  | 0x23 => ([14, 15], [])
  | 0x24 => ([13], [])
  | 0x25 => ([16, 17, 18, 19], [(15, 15)])
  | 0x28 => ([30, 31], [(29, 15)])
  | 0x29 => ([14, 15], [])
  | 0x2A => ([14, 15], [])
  | _ => ([], [])

/-- A record that R340 lets a die take. -/
def recordOk (b : List Byte) : Bool :=
  let at_ (i : Nat) : Nat := (b.getD i 0#8).toNat
  let rv := reservedBytes (at_ 0)
  recordLen b == some b.length && at_ 1 == b.length && at_ 8 < 4 && at_ 10 == 0 && at_ 11 == 0 &&
    rv.1.all (fun i => at_ i == 0) && rv.2.all (fun p => at_ p.1 % (p.2 + 1) == at_ p.1)

/-- The die of the tray that holds an identity. -/
def State.dieOfId (s : State) (id : Nat) : Option DieId := (List.finRange 8).find? fun e => s.identity e == id

/-- A die consumes a record (Table 12.11). -/
def State.consume (s : State) (d : DieId) (p : Nat) (b : List Byte) : State :=
  let n (i k : Nat) : Nat := leNat ((b.drop i).take k)
  let ty := n 0 1
  let group := n 2 2
  let src := n 6 2
  let fromDie (f : DieId → State) : State := match s.dieOfId src with | some e => f e | none => s
  let root := (s.die d).mer.root
  match ty with
  | 0x01 => s.takeProposal d src (n 16 8) (n 12 1) (bit (n 13 1) 0) (bit (n 13 1) 1) (n 24 4)
  | 0x02 =>
    let ids (k c : Nat) : List Nat := (List.range c).map fun i => n (32 + 2 * (k + i)) 2
    let a := n 24 2; let l := n 26 2; let j := n 28 2
    if root ∧ ((s.die d).mer.closed ∨ standbyId (s.die d).mer.tree ≠ some src) then s.meetRoot d src
    else s.takeResult d src { group := group, epoch := n 16 8, step := n 12 1, amended := bit (n 13 1) 0, more := bit (n 13 1) 1,
                              strays := ids 0 a, leaves := ids a l, joins := ids (a + l) j }
  | 0x03 => s.takeJoin d src (bit (n 12 1) 0)
  | 0x04 => s.takeLeave d (n 12 1) (n 14 2)
  | 0x05 => s.takeAck d (n 12 1) (n 14 2)
  | 0x08 => s.takeTimeRequest d p src (n 12 4) (n 16 8) (s.sysTime d)
  | 0x09 => s.takeTimeResponse d (n 12 4) (n 16 8) (n 24 8) (n 32 8) (s.sysTime d)
  | 0x10 => s.takeArrival d src (n 12 2) (n 16 4) (n 20 4) (n 24 4)
  | 0x11 => s.takeRelease11 d (n 12 2) (n 16 4) (n 20 4)
  | 0x12 => s.loseFlow d (n 12 2) (n 16 4)
  | 0x13 => s.takeTenantHalt d (n 12 2) (bit (n 14 1) 0) ((List.range (n 15 1)).map fun i => n (16 + 2 * i) 2)
  | 0x14 => s.takeEmergency d ⟨group, src, n 12 1, n 13 1, n 16 8⟩
  | 0x18 => fromDie fun e => s.takeLend d e (n 12 4) (n 16 8)
  | 0x19 => fromDie fun e => s.takeGrant d e (n 12 4) (n 16 8)
  | 0x1A => fromDie fun e => s.takeCommit d e (n 12 4) (n 16 8)
  | 0x1B => fromDie fun e => s.takeRelease d e (n 12 4) (n 16 8)
  | 0x20 => if n 13 1 = 1 then s.takeHello d p group src (n 12 1) ((b.drop 16).take 16) else s.ctrlDiscard d
  | 0x21 => s.takeLanemap d p (n 12 2) ((List.range 36).map fun i => n (16 + i) 1)
  | 0x22 => s.takeCalStart d p (n 12 1)
  | 0x23 => s.takeCalEnd d p (n 12 1) (n 13 1 == 1)
  | 0x24 => s.takeStatus d p (toInt 16 (n 14 2)) ((List.range 40).map fun i => toInt 16 (n (16 + 2 * i) 2))
  | 0x25 => s.takeLowrate d p (n 12 1 == 1) (n 13 1)
  | 0x28 => s.takeOpen d p { group := group, tenant := n 12 2, hops := n 14 1, idx := n 15 1, id := n 16 4, source := n 20 2,
                             dest := n 22 2, route := n 24 4, label := n 28 2 }
  | 0x29 => s.takeOpenDone d (n 12 2) (n 16 4) (n 20 4)
  | 0x2A => s.takeCredit d (n 12 2) (n 16 4) (n 20 4)
  | _ => s

/-- A record with one hop fewer remaining; none when it reaches 0 (R342). -/
def lessHop (b : List Byte) : Option (List Byte) :=
  let h := (b.getD 9 0#8).toNat
  if h ≤ 1 then none else some (b.set 9 (BitVec.ofNat 8 (h - 1)))

/-- A flooded record goes on, once, on every port that is up but the one it came by (R342). -/
def State.refloodOn (s : State) (d : DieId) (from_ : Option Nat) (b : List Byte) : State :=
  match lessHop b with
  | none => s
  | some c => (List.range 16).foldl (fun s q =>
      let st := (s.port d q).state
      if some q ≠ from_ ∧ (st = .up ∨ st = .degraded) then s.putRecord d q c else s) s

/-- The records of Table 08.1, which a die of another group discards (R188). -/
def isMeridian (ty : Nat) : Bool := (decide (1 ≤ ty) && decide (ty ≤ 5)) || (decide (0x18 ≤ ty) && decide (ty ≤ 0x1B))

/-- A control record arrives at a die, by a port or from the die itself (R188, R340, R342). -/
def State.takeRecord (s : State) (d : DieId) (port : Option Nat) (b : List Byte) : State :=
  let p := port.getD 0
  if !recordOk b then s.ctrlDiscard d
  else
    let fl := (b.getD 8 0#8).toNat
    let group := leNat ((b.drop 2).take 2)
    let dest := leNat ((b.drop 4).take 2)
    if bit fl 1 then s.consume d p b
    else if bit fl 0 then
      let k := seenKey b
      let now := s.tray.now
      if (s.die d).fab.seen.any fun e => e.1 == k && decide (now < e.2 + 1000000000) then s
      else
        let s1 := s.modDie d fun x => { x with fab := { x.fab with
          seen := (k, now) :: x.fab.seen.filter fun e => decide (now < e.2 + 1000000000) } }
        let s2 := s1.refloodOn d port b
        if group = s.groupNo d then s2.consume d p b else s2
    else if group = s.groupNo d ∧ dest = s.identity d then s.consume d p b
    else if group ≠ s.groupNo d ∧ isMeridian (b.getD 0 0#8).toNat then s
    else
      let q := s.route d dest
      if q = 0xFF then s.ctrlDiscard d
      else match lessHop b with
        | none => s
        | some c => s.putRecord d q c

/-- The records of a control flit, one after the other; a length that does not fit ends them (R340). The LENDs among them are
served together (R207). -/
def State.takeRecords (s : State) (d : DieId) (p : Nat) (pay : List Byte) : State := (go 21 s pay).serveLends d
where
  go : Nat → State → List Byte → State
    | 0, s, _ => s
    | n + 1, s, l =>
      match l with
      | [] => s
      | _ =>
        let k := (l.getD 1 0#8).toNat
        if k < 12 ∨ l.length < k then s.ctrlDiscard d else go n (s.takeRecord d (some p) (l.take k)) (l.drop k)

end Sys2Proof.Machine
end

