-- ==== Sys2Proof/Machine/QueueOps.lean ====
section
/-! DEFINITION. What the commands of a queue share (chapter 18): field checks, bindings, waits, copy engines, the start of a
plan. -/

namespace Sys2Proof.Machine
open Sys2Proof

/-! ### Fields of a command (Tables 18.4 and 18.5, R478) -/

/-- The fields of a command that Table 18.5 names: first byte, length, and whether a value is in range. -/
def cmdFields (c : Cmd) : List (Nat × Nat × (Nat → Bool)) :=
  let any (_ : Nat) : Bool := true
  let bind (n : Nat) : Bool := decide (n ≤ 1023)
  let slot (n : Nat) : Bool := decide (n ≤ 15)
  let m64 (n : Nat) : Bool := n % 64 == 0
  let m4k (n : Nat) : Bool := n % 4096 == 0
  match c.op with
  | 0x01 => [(8, 2, bind), (10, 1, fun n => decide (n ≤ 3))] ++
      (if c.byte 10 = 0 then [(16, 2, fun n => decide (n < 16384)),
          (18, 2, fun n => decide (1 ≤ n) && decide (c.fld 16 2 + n ≤ 16384))]
       else if c.byte 10 = 1 then [(16, 8, m4k), (24, 8, fun n => m4k n && decide (4096 ≤ n ∧ n ≤ 2 ^ 40))]
       else [(12, 2, fun n => decide (n ≤ 4095))])
  | 0x02 => [(8, 2, bind)]
  | 0x03 => [(8, 1, fun n => decide (n < 8) || n == 0xF)]
  | 0x04 => [(8, 1, fun n => decide (n ≤ 1))]
  | 0x05 => [(8, 2, bind), (10, 2, bind), (16, 8, m64), (24, 8, m64),
      (32, 8, fun n => m64 n && decide (64 ≤ n ∧ n ≤ 2 ^ 32 - 64))]
  | 0x06 => [(8, 2, bind), (10, 1, slot), (16, 8, any)]
  | 0x07 | 0x08 => [(8, 1, slot)]
  | 0x09 => [(8, 2, any), (10, 1, fun n => decide (n ≤ 1)), (16, 8, any)]
  | 0x0A => [(8, 2, any), (16, 8, any)]
  | 0x0B => [(8, 2, bind), (10, 1, fun n => decide (n ≤ 2)), (16, 8, fun n => n % 128 == 0)] ++
      (if c.byte 10 = 2 then [(11, 1, fun n => decide (n < 8)), (12, 2, any)] else [])
  | 0x0C => [(8, 2, bind), (16, 8, m4k), (24, 8, m4k)]
  | 0x0D => [(8, 1, any)]
  | _ => []

/-- The byte offset of the first bad field of a command (R478), none when every field is good (log 230, DEDUCED). -/
def Cmd.badAt (c : Cmd) : Option Nat :=
  let fs := (0, 1, fun _ => true) :: (1, 1, fun n => decide (n ≤ if c.op = 0x0D then 3 else 1)) :: cmdFields c
  (List.range 64).find? fun i =>
    match fs.find? fun f => decide (f.1 ≤ i ∧ i < f.1 + f.2.1) with
    | some f => i == f.1 && !f.2.2 (c.fld f.1 f.2.1)
    | none => c.byte i != 0

/-! ### Running and waiting -/

/-- Run `f` on the command at the head of a queue when it has an opcode and may start (R475, R499); a malformed one
completes at once (R478). -/
def State.withHead (s : State) (t h q op : Nat) (f : State → Cmd → State) : State :=
  match s.headCmd t h q with
  | none => s
  | some c =>
    if c.op ≠ op ∨ c.refused ∨ (((s.queue? t h q).map Queue.faulted).getD false ∧ !c.isResume) then s
    else match c.badAt with
      | some i => s.complete t h q stMalformed i 0 false
      | none => f s c

/-- The head command waits; its horizon counts from its first wait (R506). -/
def State.waits (s : State) (t h q : Nat) : State :=
  s.modHead t h q fun c => { c with waitFrom := some (c.waitFrom.getD s.tray.now) }

/-- The die takes no die command now: it is not running, in Frost, or in a warm reset (R549, R541, R537). -/
def State.dieBusy (s : State) (d : DieId) : Bool :=
  let x := s.die d
  x.svc.state != .running || x.svc.warm || x.frost.state == .entering || x.frost.state == .frozen ||
    x.frost.state == .thawing

/-- Run `f` with the die a context is resident on: NOT_RESIDENT on none (18.4); while the die is busy the command
waits. -/
def State.onDie (s : State) (t h q : Nat) (f : State → DieId → State) : State :=
  match (s.ctx? t h).bind Ctx.resident with
  | none => s.complete t h q stNotResident 0 0 false
  | some r => if s.dieBusy (dieOf r.1) then s.waits t h q else f s (dieOf r.1)

/-- The head command completes with a status and no detail. -/
def State.ends (s : State) (t h q status : Nat) : State := s.complete t h q status 0 0 false

/-! ### Bindings (18.5) -/

/-- A binding of a context. -/
def State.binding (s : State) (t h n : Nat) : Option Binding := (s.ctx? t h).bind fun c => KV.get? c.bindings n

/-- The granules a binding names on its die: first and count. -/
def State.granulesOf (s : State) (t : Nat) : Binding → Option (Nat × Nat)
  | .sram _ first count => some (first, count)
  | .host .. => none
  | .shared id => (KV.get? (s.tenant t).shared id).map fun o => (o.first, o.count)

/-- Bytes of the object a binding names. -/
def State.sizeOf (s : State) (t : Nat) (b : Binding) : Nat :=
  match b with
  | .host _ len => len
  | b => match s.granulesOf t b with
    | some p => 65536 * p.2
    | none => 0

/-- A granule lies in an object the context owns. -/
def Ctx.owns (c : Ctx) (g : Nat) : Bool :=
  c.bindings.any fun b => match b.2 with
    | .sram _ first count => decide (first ≤ g ∧ g < first + count)
    | _ => false

/-- A granule lies in a shared object the context binds. -/
def State.shares (s : State) (t : Nat) (c : Ctx) (g : Nat) : Bool :=
  c.bindings.any fun b => match b.2 with
    | .shared id => match KV.get? (s.tenant t).shared id with
      | some o => decide (o.first ≤ g ∧ g < o.first + o.count)
      | none => false
    | _ => false

/-- SRAM bytes a context holds: its own objects, and an equal part of each shared object it binds (R226). -/
def State.heldBytes (s : State) (t h : Nat) : Nat :=
  match s.ctx? t h with
  | none => 0
  | some c => (c.bindings.map fun b => match b.2 with
    | .sram _ _ count => 65536 * count
    | .host .. => 0
    | .shared id =>
      let users := (s.ctxs.filter fun p => p.1.1 == t && p.2.bindings.any fun e => e.2 == .shared id).length
      match KV.get? (s.tenant t).shared id with
      | some o => 65536 * o.count / max 1 users
      | none => 0).sum

/-- A plan touches one of the granules. -/
def Plan.touches (p : Plan) (first count : Nat) : Bool := p.touched.any fun g => decide (first ≤ g ∧ g < first + count)

/-- A running plan of a context touches one of the granules. -/
def State.runTouches (s : State) (d : DieId) (t h first count : Nat) : Bool :=
  (s.die d).til.runs.any fun r => r.tenant == t && r.handle == h && r.plan.touches first count

/-- Unload a context's plans that touch granules (R282). -/
def State.unloadPlans (s : State) (t h first count : Nat) : State :=
  s.modCtx t h fun c => { c with plans := c.plans.filter fun p => !p.2.touches first count }

/-- Free granules of a die: they are queued for zeroing (R484, R465). -/
def State.freeGranules (s : State) (d : DieId) (first count : Nat) : State :=
  s.modDie d fun x => { x with til := x.til.setOwners first count .zeroing }

/-- Remove one binding of a context; the object goes with its last binding (R484). -/
def State.removeBinding (s : State) (d : DieId) (t h n : Nat) : State :=
  match s.binding t h n with
  | none => s
  | some b =>
    let s1 := s.modCtx t h fun c => { c with bindings := KV.del c.bindings n }
    match b, s.granulesOf t b with
    | .host .., _ => s1
    | .sram .., some g => (s1.unloadPlans t h g.1 g.2).freeGranules d g.1 g.2
    | .shared id, some g =>
      let s2 := s1.unloadPlans t h g.1 g.2
      if s2.ctxs.any fun p => p.1.1 == t && p.2.bindings.any fun e => e.2 == .shared id then s2
      else (s2.modTenant t fun x => { x with shared := KV.del x.shared id }).freeGranules d g.1 g.2
    | _, none => s1

/-! ### Copy engines (R489) -/

/-- Bytes a COPY or SCRUB moves. -/
def Cmd.length (c : Cmd) : Nat := if c.op = 0x05 then c.fld 32 8 else c.fld 24 8

/-- Units of a COPY or SCRUB. -/
def Cmd.total (c : Cmd) : Nat := ceilDiv c.length 4096

/-- A context whose EVICT acts hands no further unit to an engine (R480). -/
def Ctx.evicting (c : Ctx) : Bool := c.queues.any fun o => match o with
  | some x => match x.cmds with
    | e :: _ => e.op == 0x04 && e.started.isSome
    | [] => false
  | none => false

/-- Queues of a die with a unit to hand out. -/
def State.pendingUnits (s : State) (d : DieId) : List (Nat × Nat × Nat) :=
  ((s.residents d).map fun k => match s.ctx? k.1 k.2 with
    | none => []
    | some c =>
      if c.evicting ∨ ((s.vfOf k.1).map VF.inReset).getD false then []
      else (List.range 8).filterMap fun q => match s.headCmd k.1 k.2 q with
        | some e => if (e.op = 0x05 ∨ e.op = 0x0C) ∧ e.started.isSome ∧ e.nextUnit < e.total then some (k.1, k.2, q) else none
        | none => none).flatten

/-- The next number behind the last one served, round the list (R489). -/
def nextRound (l : List Nat) (last : Option Nat) : Option Nat :=
  let l := sortBy id l
  match last with
  | none => l.head?
  | some n => (l.find? fun x => decide (n < x)).or l.head?

/-- The copy engines of a die run now: the die runs, no Frost entry holds the units, and COPY is clocked (R541, R55). -/
def State.copies (s : State) (d : DieId) : Bool :=
  let x := s.die d
  !s.dieBusy d && x.frost.state == .running && x.clk.enables.getLsbD 14

/-- The units an engine may take: on a sealed die those of the tenant at position e mod n (R595). -/
def State.unitsFor (s : State) (d : DieId) (e : Nat) : List (Nat × Nat × Nat) :=
  let w := (s.die d).pow
  let p := s.pendingUnits d
  if !w.sealed then p
  else match w.positions[e % w.positions.length]? with
    | some t => p.filter fun k => k.1 == t
    | none => []

/-- An idle engine takes the next unit (R489); its buffer is zeroed before a unit of another tenant (R602). -/
def State.feedOne (s : State) (d : DieId) (e : Nat) : State :=
  let x := (s.die d).til
  let p := s.unitsFor d e
  if (x.engines.getD e {}).unit.isSome then s
  else match nextRound (p.map fun k => k.1) x.rrT with
    | none => s
    | some t => match nextRound ((p.filter fun k => k.1 == t).map fun k => k.2.1) (KV.get? x.rrC t) with
      | none => s
      | some h => match nextRound ((p.filter fun k => k.1 == t && k.2.1 == h).map fun k => k.2.2) (KV.get? x.rrQ (t, h)) with
        | none => s
        | some q =>
          let n := ((s.headCmd t h q).map Cmd.nextUnit).getD 0
          (s.modHead t h q fun c => { c with nextUnit := n + 1 }).modDie d fun x => { x with til := { x.til with
            engines := x.til.engines.modify e fun g => { g with
              unit := some (t, h, q, n), lastTenant := some t, buffer := if g.lastTenant = some t then g.buffer else [] }
            rrT := some t, rrC := KV.put x.til.rrC t h, rrQ := KV.put x.til.rrQ (t, h) q } }

/-- Every idle engine of a die takes a unit. -/
def State.feedEngines (s : State) (d : DieId) : State :=
  if s.copies d then (List.range 8).foldl (fun s e => s.feedOne d e) s else s

/-- Units of a queue in the engines. -/
def Tiles.inHand (x : Tiles) (t h q : Nat) : Nat :=
  (x.engines.filter fun e => match e.unit with
    | some u => u.1 == t && u.2.1 == h && u.2.2.1 == q
    | none => false).length

/-- Read SRAM for a copy: a poisoned word is met as on every later read (R262). -/
def State.copyRead (s : State) (d : DieId) (a n : Nat) : State × List Byte :=
  ((s.poisoned d a n).foldl (fun s w => s.poisonWord d w) s, s.sramRead d a n)

/-- The bytes of one unit as its engine stages them: zeros for a SCRUB, else those of the source (R486, R488, R602). -/
def State.stageUnit (s : State) (d : DieId) (t h : Nat) (c : Cmd) (k : Nat) (data : List Byte) : State × List Byte :=
  let o := 4096 * k
  let n := min 4096 (c.length - o)
  if c.op = 0x0C then (s, List.replicate n 0#8)
  else match (s.binding t h (c.fld 8 2)).bind (s.granulesOf t) with
    | some g => s.copyRead d (objAddr g.1 (c.fld 16 8 + o)) n
    | none => (s, (List.range n).map fun i => data.getD i 0#8)

/-- The staged bytes of one unit go to their destination (R486, R488) (log 51, DEDUCED). -/
def State.placeUnit (s : State) (d : DieId) (t h : Nat) (c : Cmd) (k : Nat) (bytes : List Byte) : State :=
  let o := 4096 * k
  let put (a : Nat) (s : State) : State := if c.op = 0x0C then s.sramZero d a bytes.length else s.sramWrite d a bytes
  match s.binding t h (if c.op = 0x0C then c.fld 8 2 else c.fld 10 2) with
  | none => s
  | some dst =>
    let off := (if c.op = 0x0C then c.fld 16 8 else c.fld 24 8) + o
    match dst, s.granulesOf t dst with
    | .host addr _, _ => match s.fnOf t with
      | some f => s.hostWrite f (addr + off) bytes
      | none => s
    | _, some g => put (objAddr g.1 off) s
    | _, none => s

/-- One unit of a COPY or SCRUB moves through the buffer of its engine, which keeps what an earlier unit of the tenant left behind
the unit's bytes; only those are written out (R602). -/
def State.moveUnit (s : State) (d : DieId) (e t h : Nat) (c : Cmd) (k : Nat) (data : List Byte) : State :=
  let r := s.stageUnit d t h c k data
  (r.1.placeUnit d t h c k r.2).modDie d fun x => { x with til := { x.til with
    engines := x.til.engines.modify e fun g => { g with buffer := r.2 ++ g.buffer.drop r.2.length } } }

/-- The activity of one unit of a COPY or SCRUB (Table 09.2): transfers of its engine, and accesses to SRAM in the tile they
fall in (log 130, DESIGN CHOICE). -/
def State.countUnit (s : State) (d : DieId) (t h q : Nat) (c : Cmd) (k : Nat) : State :=
  let o := 4096 * k
  let n := ceilDiv (min 4096 (c.length - o)) 64
  let sram (s : State) (cls : Nat) (b off : Nat) : State := match (s.binding t h b).bind (s.granulesOf t) with
    | some g => s.countAct d ⟨t, h, q, some (objAddr g.1 (off + o) / 2 ^ 23), classCounts [(cls, n)], 0, false⟩
    | none => s
  let s1 := s.countAct d ⟨t, h, q, none, classCounts [(6, n)], 0, false⟩
  if c.op = 0x0C then sram s1 3 (c.fld 8 2) (c.fld 16 8)
  else sram (sram s1 2 (c.fld 8 2) (c.fld 16 8)) 3 (c.fld 10 2) (c.fld 24 8)

/-! ### Sealed admission and slots (R114, R479, R550) -/

/-- A free slot of a die. -/
def Tiles.freeSlot (x : Tiles) : Option Nat := x.slots.findIdx? Option.isNone

/-- A sealed die admits a context of a tenant (R114); an unsealed die always does. -/
def State.admits (s : State) (d : DieId) (t h : Nat) : Bool :=
  let x := s.die d
  if !x.pow.sealed then true
  else match x.pow.sealedEntry t, x.til.freeSlot with
    | some (w, _), some i =>
      let x' := { x with til := { x.til with slots := x.til.slots.set i (some (t, h)) } }
      decide (x'.commitment d ≤ s.dset d 0x2000 1) &&
        decide (s.sealedTray w ≤ min (s.setting 0x1200 1 0xF) 7200000)
    | _, _ => false

/-- Place a context on a free slot of a die and complete its RESIDE (R479). -/
def State.place (s : State) (d : DieId) (t h q slot : Nat) : State :=
  (((s.modDie d fun x => { x with til := { x.til with slots := x.til.slots.set slot (some (t, h)) } }).modCtx t h fun c =>
    { c with resident := some (d.val, slot) }).tapHold).complete t h q stOk 0 (d.val + 256 * slot) false

/-! ### RUN_PLAN (R493, R325 to R328, R364) -/

/-- Two plans share a tile, a bank, or the store of a port in one direction (R493). -/
def Plan.rivals (a b : Plan) : Bool :=
  (a.tiles.any fun L => b.tiles.contains L) || (List.range 8).any (fun i => bit a.bankMask i && bit b.bankMask i) ||
    a.flows.any fun f => b.flows.any fun g => f.port == g.port && f.recv == g.recv

/-- The send space of a flow: its largest FSEND, rounded up to a multiple of 256 (R325). -/
def Plan.sendSpace (p : Plan) (pos : Nat) : Nat :=
  let ns := (p.scores.map fun sc => (sc.filter fun r => r.op == 0x30 && bits r.w 7 0 == pos).map fun r => 128 * r.nf).flatten
  ceilDiv (ns.foldl max 0) 256 * 256

/-- The flows of a plan with their positions. -/
def Plan.flowsAt (p : Plan) : List (Nat × PlanFlow) := p.flows.mapIdx fun i f => (i, f)

/-- The reservations of a plan fit in the stores of every port (R325). -/
def Die.reserves (x : Die) (p : Plan) : Bool :=
  (List.range 16).all fun k =>
    decide (((x.fab.rx.filter fun f => f.port == k).map RxFlow.allot).sum +
      ((p.flows.filter fun f => f.recv && f.port == k).map PlanFlow.allot).sum ≤ 2 ^ 20) &&
    decide (((x.fab.tx.filter fun f => f.port == k && !f.closing).map TxFlow.space).sum +
      ((p.flowsAt.filter fun f => !f.2.recv && f.2.port == k).map fun f => p.sendSpace f.1).sum ≤ 2 ^ 20)

/-- The plan in the slot that a waiting RUN_PLAN names. -/
def State.waitingPlan (s : State) (k : Nat × Nat × Nat) : Option Plan :=
  match s.headCmd k.1 k.2.1 k.2.2, s.ctx? k.1 k.2.1 with
  | some c, some x => if c.op = 0x07 then KV.get? x.plans (c.byte 8) else none
  | _, _ => none

/-- The conditions of R493 and R364; a context has one plan clock, so one running plan (R266, log 40, DEDUCED). -/
def State.mayStart (s : State) (d : DieId) (t h q : Nat) (p : Plan) : Bool :=
  let x := s.die d
  x.frost.state == .running &&
    x.til.runs.all (fun r => !(r.tenant == t && r.handle == h) && p.tiles.all fun L => !r.plan.tiles.contains L) &&
    p.tiles.all (fun L => !x.tileFailed L) &&
    (p.bankMask == 0 || (x.til.runs.all (fun r => r.plan.bankMask == 0) &&
      (List.range 8).all fun i => !bit p.bankMask i || (x.sct.banks.getD i {}).state == .free)) &&
    x.reserves p &&
    (x.til.waiting.takeWhile fun k => k != (t, h, q)).all fun k => match s.waitingPlan k with
      | some o => !o.rivals p
      | none => true

/-- On a sealed die a RUN_PLAN comes to wait for what another tenant's plan holds (R598). -/
def State.sealedWait (s : State) (d : DieId) (t h q : Nat) : Bool :=
  let x := s.die d
  x.pow.sealed && !x.til.waiting.contains (t, h, q) && match s.waitingPlan (t, h, q) with
    | some p => x.til.runs.any fun r => r.tenant != t && p.rivals r.plan
    | none => false

/-- A RUN_PLAN joins those that wait on its die, behind earlier ones (R493, R598). -/
def State.waitRun (s0 : State) (d : DieId) (t h q : Nat) : State :=
  let s := if s0.sealedWait d t h q then s0.logDie d 0x6006 (leBytes 2 t) else s0
  (s.waits t h q).modDie d fun x => { x with til := { x.til with
    waiting := if x.til.waiting.contains (t, h, q) then x.til.waiting else x.til.waiting ++ [(t, h, q)] } }

/-- A RUN_PLAN waits no more. -/
def State.leaveWait (s : State) (d : DieId) (t h q : Nat) : State :=
  s.modDie d fun x => { x with til := { x.til with waiting := x.til.waiting.filter fun k => k != (t, h, q) } }

/-- Register a receive flow; an OPEN that waited for it installs it (R327, R328). -/
def State.registerRx (s : State) (d : DieId) (f : RxFlow) : State :=
  let s1 := s.modRx d fun fs => fs ++ [f]
  match (s.die d).fab.pendOpen.find? fun o => f.fits o.port o.tenant o.id o.source && o.group == s.groupNo d with
  | none => s1
  | some o => (s1.modDie d fun x => { x with fab := { x.fab with pendOpen := x.fab.pendOpen.filter fun e => e != o } }).installRx
      d f o.label

/-- Open a send flow (R327): with no free label, or on a port that is not in use, the flow is lost. -/
def State.openTx (s : State) (d : DieId) (t h q pos space : Nat) (f : PlanFlow) : State :=
  let x := s.port d f.port
  let entry (l : Nat) : TxFlow :=
    { tenant := t, handle := h, pos := pos, id := f.id, peer := f.peer, port := f.port, space := space, label := l, queue := q }
  match x.freeLabel with
  | some l =>
    let s1 := (s.modPort d f.port fun x => { x with labels := x.labels ++ [l] }).modTx d fun fs => fs ++ [entry l]
    if x.state = .up ∨ x.state = .degraded ∨ x.state = .retrain then
      s1.sendOpen d f.port
        { group := s.groupNo d, tenant := t, hops := f.hops, idx := 1, id := f.id, source := s.identity d, dest := f.peer,
          route := f.route, label := l }
    else s1.loseFlow d t f.id
  | none => (s.modTx d fun fs => fs ++ [entry 4096]).loseFlow d t f.id

/-- The budgets of the resident slot of a context in the running epoch: on a sealed die its reservation (R115), else what the
last boundary gave the slot, less what its ended plans have drawn; a slot that was empty then has none (R112)
(log 115, DEDUCED). -/
def Die.slotBudget (x : Die) (d : DieId) (t h : Nat) : SlotBudget :=
  let b := ((x.til.slots.findIdx? fun o => o == some (t, h)).bind fun i => x.pow.slots[i]?).getD {}
  if !x.pow.sealed then b
  else
    let w := ((x.pow.sealedEntry t).map Prod.fst).getD 0
    let sb (lim : Nat) : Nat := (lim - x.pow.roh) * w / max 1 (x.commitment d - x.pow.roh)
    { budget := w, s50 := sb 1600000, s2 := sb 1300000, used := b.used }

/-- A run that starts, on the budgets of its slot and at no more than min(segment ceiling, quota) (R112, R113, R115, R120). -/
def Die.newRun (x : Die) (d : DieId) (now : Ns) (t h q slot idx : Nat) (p : Plan) : Run :=
  let b := x.slotBudget d t h
  { tenant := t, handle := h, queue := q, slot := slot, cmdNo := idx, plan := p, next := p.scores.map fun _ => 0
    barCount := p.barriers.map fun _ => 0, barSent := p.barriers.map fun _ => 0
    rate := min (if x.svc.holding.isSome ∧ x.svc.holdCut then 4 else 16)
      (min (((p.segs[0]?).map Segment.rate).getD 16) (x.quota t))
    budget := b.budget, s50 := b.s50, s2 := b.s2, eEpoch := b.used, segFrom := now, clockAt := now, runFrom := now }

/-- A RUN_PLAN starts (R493): banks are held, receive flows registered, send flows opened. -/
def State.startRun (s : State) (d : DieId) (t h q : Nat) (c : Cmd) (p : Plan) : State :=
  let now := s.tray.now
  let run := (s.die d).newRun d now t h q (c.byte 8) c.idx p
  let hold (i : Nat) (b : Bank) : Bank := if bit p.bankMask i then { b with state := .held, holder := some (t, h) } else b
  let s1 := ((s.leaveWait d t h q).modHead t h q fun c => { c with started := some now, waitFrom := none }).modDie d fun x =>
    { x with til := { x.til with runs := x.til.runs ++ [run] }
             sct := { x.sct with banks := x.sct.banks.mapIdx hold } }
  let s2 := (p.flowsAt.filter fun f => f.2.recv).foldl (fun s f => s.registerRx d
    { tenant := t, handle := h, pos := f.1, id := f.2.id, peer := f.2.peer, port := f.2.port, allot := f.2.allot, queue := q }) s1
  (p.flowsAt.filter fun f => !f.2.recv).foldl (fun s f =>
    if (s.die d).til.runs.any fun r => r.is t h q then s.openTx d t h q f.1 (p.sendSpace f.1) f.2 else s) s2

/-! ### QUERY (18.10) -/

/-- Runs of consecutive numbers in an ascending list, as first and count. -/
def runsOf : List Nat → List (Nat × Nat)
  | [] => []
  | g :: gs => match runsOf gs with
    | (f, n) :: r => if f = g + 1 then (g, n + 1) :: r else (g, 1) :: (f, n) :: r
    | [] => [(g, 1)]

/-- The ranges of granules that a die holds for a tenant (R508). -/
def State.heldRanges (s : State) (d : DieId) (t : Nat) : List (Nat × Nat) :=
  let gs := (s.die d).til.granules.filterMap fun p => match p.2 with
    | .held x => if x = t then some p.1 else none
    | _ => none
  runsOf (sortBy id gs)

/-- An energy in µJ (log 231, DEDUCED). -/
def microJ (e : Nat) : Nat := e / 10240000000000000

/-- The record of kinds 0 and 1 (Table 18.8) (log 231, DEDUCED). -/
def State.queryCtx (s : State) (t h : Nat) (own : Bool) : List Byte :=
  let x := s.tenant t
  let c := (s.ctx? t h).getD { gen := 0, queues := [] }
  let runs := ((List.finRange 8).map fun d => ((s.die d).til.runs.filter fun r => r.tenant == t && r.handle == h).map
    Run.tileCyclesNow).flatten
  let v (n : Nat) : Nat := if own then n else 0
  leBytes 8 s.trayTime ++ leBytes 8 (v (c.tileCycles + runs.sum)) ++ leBytes 8 (v (s.heldBytes t h)) ++
    leBytes 8 (v (microJ c.energy)) ++
    ((List.range 8).map fun q => leBytes 8 (v (((c.queues.getD q none).map fun y => microJ y.energy).getD 0))).flatten ++
    leBytes 8 (microJ x.energy) ++
    [BitVec.ofNat 8 (v ((c.resident.map Prod.fst).getD 0xFF)), BitVec.ofNat 8 (v ((c.resident.map Prod.snd).getD 0xFF))] ++
    List.replicate 22 0#8

/-- The record of kind 2 (Table 18.10). -/
def State.queryHeld (s : State) (d : DieId) (t first : Nat) : List Byte :=
  let rs := s.heldRanges d t
  let part := (rs.drop first).take 26
  let left := match s.tray.hold.restoredEnd with
    | some e => (e - s.accNow) / 1000000000
    | none => 0
  leBytes 8 s.trayTime ++ leBytes 8 s.tray.hold.saveTime ++ leBytes 2 rs.length ++ leBytes 2 part.length ++ leBytes 4 left ++
    (part.map fun r => leBytes 2 r.1 ++ leBytes 2 r.2).flatten ++ List.replicate (4 * (26 - part.length)) 0#8

end Sys2Proof.Machine
end

