-- ==== Sys2Proof/Machine/FrostEvents.lean ====
section
/-! DEFINITION. Frost, the hold-up module and the vault save (chapter 20). -/

namespace Sys2Proof.Machine
open Sys2Proof

/-! ### Entry (20.1.1) -/

/-- The effect of 0x7000:01 (R541, R516). -/
def State.frostApply (s : State) (d : DieId) : GateResult := .done (s.requestFrost d .command) 0 true

/-- ENTER_FROST (R541). -/
def execEnterFrost (m : MasterId) (d : DieId) (v : Nat) (s : State) : Host.Outcome State Fault Refusal :=
  .next (s.gate m ⟨0x7000, 1, d.val⟩ (leBytes 1 v) fun s _ _ => s.frostApply d)

/-- The effect of 0x1400:10. -/
def State.frostTrayApply (s : State) : GateResult := .done (s.forDies fun s d => s.requestFrost d .command) 0 true

/-- ENTER_FROST_TRAY (R541). -/
def execEnterFrostTray (m : MasterId) (v : Nat) (s : State) : Host.Outcome State Fault Refusal :=
  .next (s.gate m ⟨0x1400, 0x10, 0xF⟩ (leBytes 1 v) fun s _ _ => s.frostTrayApply)

/-- A die in state 1 enters state 2. -/
def State.enterStage2 (s : State) (d : DieId) : State :=
  s.modDie d fun x => { x with frost := { x.frost with state := .entering, enterAt := s.tray.now } }

/-- Every running plan of a die in state 1 has stopped at a halt point: state 2 (R541). -/
def execHaltPointsReached (d : DieId) (s : State) : Host.Outcome State Fault Refusal :=
  let x := s.die d
  if x.frost.state = .stopPending ∧ x.til.runs.all Run.halted then .next (s.enterStage2 d) else .next s

/-- A thaw of which the trigger came during the entry, or the entry that came during a thaw, begins (R545, R546) (log 252, DEDUCED). -/
def State.frostFollow (s : State) (d : DieId) : State :=
  let f := (s.die d).frost
  if f.state = .frozen ∧ f.thawKept ∧ (s.die d).svc.holding.isNone then s.startThaw d else s

/-- The die is frozen, 150 µs after state 2 began at the latest (R541, Table 20.2, R345, R55, R87): ports LOW, compute clock
stopped, VCORE off, VSRAM in retention, the clock enables kept. -/
def execFrozen (d : DieId) (s : State) : Host.Outcome State Fault Refusal :=
  let x := s.die d
  if x.frost.state ≠ .entering ∨ x.til.engines.any (fun e => e.unit.isSome) then .next s
  else
    let s1 := s.portsLow d
    let s2 := s1.modDie d fun x => { x with
      rails := { x.rails.coreOff with retention := true }
      clk := { x.clk with
        opllReady := false, raiseWaits := false, enablesKept := some x.clk.enables
        loopA := { x.clk.loopA with ready := false }, loopB := { x.clk.loopB with ready := false } }
      droop := { x.droop with armed := [] }
      svc := { x.svc with state := .frost }
      frost := { x.frost with state := .frozen, frozenAt := s.tray.now, entries := satAdd 32 x.frost.entries 1 } }
    .next (s2.followCharge.frostFollow d)

/-- A commanded entry has left a plan short of its halt point for 100 ms: it is cancelled (R542). -/
def execFrostEntryTimeout (d : DieId) (s : State) : Host.Outcome State Fault Refusal :=
  let f := (s.die d).frost
  if f.state = .stopPending ∧ f.cause = .command ∧ (s.die d).til.runs.any (fun r => !r.halted) then
    .next (((s.advanceTo (f.requestAt + 100000000)).cancelFrost d).logDie d 0x7001 [])
  else .next s

/-- 1.5 ms after a bus loss every plan that is not at a halt point stops at its step boundary: HALTED, detail 1 (R543). -/
def execFrostHaltDeadline (s : State) : Host.Outcome State Fault Refusal :=
  if !s.tray.hold.onHoldup then .next s
  else .next ((s.modTray fun y => { y with now := y.now + (s.tray.hold.holdAt + 1500000 - s.accNow) }).forDies fun s d =>
    let x := s.die d
    if x.frost.state ≠ .stopPending ∨ x.frost.cause ≠ .holdup then s
    else ((x.til.runs.filter fun r => !r.halted).foldl (fun s r =>
      s.endRun d r.tenant r.handle r.queue stHalted 1) s).enterStage2 d)

/-! ### Thaw (20.1.2) -/

/-- A thaw command reaches a die: not one frozen by hold-up while the tray runs on hold-up (R561). -/
def State.thawCommand (s : State) (d : DieId) : State :=
  if s.tray.hold.onHoldup ∧ (s.die d).holdupFrozen then s else s.thawTrigger d

/-- THAW (R544). -/
def execThaw (m : MasterId) (d : DieId) (v : Nat) (s : State) : Host.Outcome State Fault Refusal :=
  .next (s.gate m ⟨0x7000, 2, d.val⟩ (leBytes 1 v) fun s _ _ => .done (s.thawCommand d) 0 true)

/-- The effect of 0x1400:11. -/
def State.thawTrayApply (s : State) : GateResult := .done (s.forDies fun s d => s.thawCommand d) 0 true

/-- THAW_TRAY (R544). -/
def execThawTray (m : MasterId) (v : Nat) (s : State) : Host.Outcome State Fault Refusal :=
  .next (s.gate m ⟨0x1400, 0x11, 0xF⟩ (leBytes 1 v) fun s _ _ => s.thawTrayApply)

/-- A command of a context waits for die d: the die it resides on, or the one a RESIDE names. -/
def Ctx.waitsOn (x : Ctx) (d : DieId) (c : Cmd) : Bool :=
  match x.resident with
  | some r => r.1 == d.val
  | none => c.op == 0x03 && (c.byte 8 == d.val || c.byte 8 == 0xF)

/-- The horizons of the commands that waited while a die was frozen did not count meanwhile (R506). -/
def State.shiftWaits (s : State) (d : DieId) : State :=
  let by_ (t : Ns) : Ns := s.tray.now - max t (s.die d).frost.frozenAt
  s.setCtxs fun cs => cs.map fun p =>
    let f (c : Cmd) : Cmd := if p.2.waitsOn d c = true then { c with waitFrom := c.waitFrom.map fun t => t + by_ t } else c
    (p.1, { p.2 with queues := p.2.queues.map fun o => o.map fun q =>
      { q with cmds := match q.cmds with | [] => [] | c :: cs => f c :: cs } })

/-- The thaw ends, exactly 400 µs after its start (R544 to R547, R636): the loop of the step that applies is switched in, or
the bridge with a clock fault; stopped plans run on under an armed window of 2 µs; a kept entry follows. -/
def execThawEnd (d : DieId) (s : State) : Host.Outcome State Fault Refusal :=
  let x := s.die d
  if x.frost.state ≠ .thawing then .next s
  else
    let s0 := s.advanceTo (x.frost.thawAt + 400000)
    let now := s0.tray.now
    let g := s0.thawStep d
    let c := x.clk
    let hit (l : LoopId) : Bool := !(c.loop l).failed && (c.loop l).step == g
    let s1 := if c.bothFailed then s0.modClk d fun c => { c.toBridge with opllReady := true }
      else match [LoopId.a, LoopId.b].find? fun l => hit l with
        | some l => s0.modClk d fun c => { (c.modLoop l fun y => { y with ready := true }).toLoop l with opllReady := true }
        | none => (s0.modClk d fun c => { (c.toBridge).retune c.spare g with opllReady := true }).clockFault d (some c.spare)
    let s2 := (s1.modDie d fun x => { x with
      frost := { x.frost with state := .running }
      svc := { x.svc with state := .running }
      til := { x.til with runs := x.til.runs.map fun r => { r with stop := .none, halted := false, clockAt := now } }
      droop := { x.droop with armed := x.droop.armed ++ [⟨none, some (now + 2000)⟩] } }).retarget d
    let s2 := if x.mer.member ∧ x.mer.groupStep < s0.ceiling d then s2.urgent d (s0.ceiling d) else s2
    let s3 := (s2.shiftWaits d).feedEngines d
    .next (if x.frost.entryKept then
      (s3.modDie d fun x => { x with frost := { x.frost with entryKept := false } }).requestFrost d x.frost.cause
    else s3)

/-! ### The hold-up module (20.2) -/

/-- `s` with the hold-up part changed. -/
def State.modHold (s : State) (f : HoldUp → HoldUp) : State := s.modTray fun y => { y with hold := f y.hold }

/-- Recompute availability (R556) and tell every function of a change. -/
def State.setAvailable (s : State) (b : Bool) : State :=
  if b = s.tray.hold.available then s
  else (s.modHold fun h => { h with available := b }).noticeSupply (if b then 4 else 3)

/-- The module is faulted (R555): not charged and not used. -/
def State.faultModule (s : State) : State :=
  if s.tray.hold.faulted then s
  else ((s.modHold fun h => { h with faulted := true, charging := false, current := 0 }).logTray 0x1401
    (leBytes 2 (s.tray.hold.voltage / 10) ++ leBytes 2 s.tray.hold.capacity)).setAvailable false

/-- MODULE_INSERTED (R552, R632): presence begins; the identity block is read within 1 s, a module that cannot be read is
faulted. It counts no charge yet. -/
def execModuleInserted (ok : Bool) (serial : List Byte) (mv : Nat) (s : State) : Host.Outcome State Fault Refusal :=
  if s.tray.hold.present then .next s
  else
    let s1 := s.modHold fun h => { h with
      present := true, since := s.accNow, idRead := ok, serial := if ok then serial else [], faulted := false
      voltage := mv, current := 0, charging := false, charged := false, chargedAt := 0, countedMah := 0, capacity := 0 }
    .next (if ok then s1 else s1.faultModule)

/-- MODULE_REMOVED (R557): the charger stops and hold-up becomes unavailable; while the tray runs on it, the 12 V bus
fails and all SRAM is lost (20.4). -/
def execModuleRemoved (s : State) : Host.Outcome State Fault Refusal :=
  if !s.tray.hold.present then .next s
  else
    let s1 := (s.modHold fun h => { h with
      present := false, idRead := false, serial := [], faulted := false, charging := false, current := 0, voltage := 0
      charged := false, countedMah := 0 }).setAvailable false
    .next (if s.tray.hold.onHoldup then s1.abandonSave.trayOff else s1)

/-- CHARGER_START (R552, R553): after a good read and 1 s of presence, and again when the rest voltage of a charged module
falls below 26.4 V; never on hold-up. The charger draws 1.0 A, and no more than 10 W while every die is frozen (R33). -/
def execChargerStart (mv : Nat) (s : State) : Host.Outcome State Fault Refusal :=
  let h := s.tray.hold
  if !h.present ∨ !h.idRead ∨ h.faulted ∨ h.onHoldup ∨ h.charging ∨ !s.tray.pow.trayEn ∨ s.tray.pow.busLost ∨ s.tray.pow.down ∨
      (h.charged ∧ 26400 ≤ mv) then .next s
  else
    let s1 := if h.charged then s else s.modTray fun y =>
      { y with now := y.now + ((h.since + 1000000000) - s.accNow) }
    let s2 := s1.modHold fun h => { h with charging := true, voltage := mv }
    .next (s2.modHold fun h => { h with current := s2.chargeLimit })

/-- CHARGE_COMPLETE (R553, R632): at 29.2 V the current has fallen below 50 mA; the counted charge is that of a full
module (log 251, DEDUCED). -/
def execChargeComplete (ma : Nat) (s : State) : Host.Outcome State Fault Refusal :=
  if !s.tray.hold.charging ∨ 50 ≤ ma then .next s
  else .next (s.modHold fun h => { h with
    charging := false, current := 0, voltage := 29200, charged := true, chargedAt := s.accNow
    countedMah := if h.capacity = 0 then 2000 else h.capacity, cycles := h.cycles + 1 })

/-- CHARGE_CURRENT_COLLAPSE (R557): the current lies below 20 % of the charger's command: the charger stops. -/
def execChargeCurrentCollapse (ma : Nat) (s : State) : Host.Outcome State Fault Refusal :=
  if s.tray.hold.current ≤ 5 * ma then .next s
  else .next (s.modHold fun h => { h with charging := false, current := 0 })

/-- The capacity in mAh that 400 mAh drawn and the fall of the rest voltage give, against the fused curve of the module type
(R554). -/
def capacityOf (rest0 rest1 : Nat) : Nat :=
  400 * 1000 / max 1 ((Config.restCharge rest0).toNat - (Config.restCharge rest1).toNat)

/-- CAPACITY_TEST (R554): every 720 h of accumulated runtime, of a module charged for 24 h with the bus present; 400 mAh
are drawn, and the rest voltage before and after gives the capacity; below 1,400 mAh the module is at end of life. -/
def execCapacityTest (rest0 rest1 : Nat) (s : State) : Host.Outcome State Fault Refusal :=
  let h := s.tray.hold
  let mah := capacityOf rest0 rest1
  if !h.present ∨ !h.charged ∨ h.faulted ∨ !s.tray.pow.trayEn ∨ s.tray.pow.busLost then .next s
  else
    let due := max (h.lastTest + 2592000000000000) (h.chargedAt + 86400000000000)
    let s1 := s.modTray fun y => { y with now := y.now + (due - s.accNow) }
    let s2 := s1.modHold fun h => { h with
      capacity := mah, lastTest := s1.accNow, countedMah := mah - 400, charging := true, current := s.chargeLimit }
    .next (if mah < 1400 then s2.faultModule else s2)

/-- MODULE_FAULT (R555): the module's voltage, outside 20.0 to 30.0 V, has lain there for 1 s. -/
def execModuleFault (mv : Nat) (s : State) : Host.Outcome State Fault Refusal :=
  if !s.tray.hold.present ∨ (20000 ≤ mv ∧ mv ≤ 30000) then .next s
  else .next (s.modHold fun h => { h with voltage := mv }).faultModule

/-- The charge that the hold time in force and a vault save take, mAh: the Frost load of Table 02.12 without the charger,
590 W at the 12 V bus through the converter at 0.92, and 700 W for 6 s, at 24.0 V (R556, log 41, DEDUCED). -/
def holdCharge (secs : Nat) : Nat := ceilDiv ((590 * 100 * secs + 700 * 6 * 92) * 1000) (92 * 24 * 3600)

/-- HOLDUP_AVAILABILITY_CHECK, every 1 s (R556, R632): a module that has not been charged yet counts no charge. -/
def execHoldupAvailabilityCheck (mah : Nat) (s : State) : Host.Outcome State Fault Refusal :=
  let h := s.tray.hold
  let counted := if h.charged then mah else 0
  let ok := h.present && h.idRead && !h.faulted && decide (holdCharge (s.setting 0x1400 1 0xF) ≤ counted)
  .next ((s.modHold fun h => { h with countedMah := counted }).setAvailable ok)

/-- HOLDUP_CONVERTER_TAKEOVER (20.3): the 12 V bus falls below 11.4 V, and hold-up is available. With TRAY_EN_n deasserted the
module is not used (R35). -/
def execHoldupConverterTakeover (mv : Nat) (s : State) : Host.Outcome State Fault Refusal :=
  if 11400 ≤ mv ∨ !s.tray.hold.available ∨ !s.tray.pow.trayEn then
    .next (s.modTray fun y => { y with pow := { y.pow with bus12Mv := mv } })
  else .next (s.modTray fun y => { y with pow := { y.pow with bus12Mv := mv }, hold := { y.hold with converter := true } })

/-! ### Vault save (20.4) -/

/-- The granules of a die that an object owns, ascending, with their tenants. -/
def Tiles.ownedGranules (x : Tiles) : List (Nat × Nat) :=
  sortBy Prod.fst (x.granules.filterMap fun p => match p.2 with
    | .owned t _ => some (p.1, t)
    | _ => none)

/-- The save of one die's granules (R562): a die whose SRAM is lost owns none (log 253, DEDUCED). -/
def State.saveOf (s : State) (d : DieId) : List SavedGranule :=
  (s.die d).til.ownedGranules.map fun g => ⟨d.val, g.1, g.2,
    (s.die d).til.sram.filter fun c => decide (65536 * g.1 ≤ c.1 ∧ c.1 < 65536 * g.1 + 65536), true⟩

/-- The hold time expires, or 0x1500:07 ends it (R559, R561 to R563): the vault save starts; with nothing to save the tray
powers down. -/
def State.startSave (s : State) : State :=
  if s.tray.hold.saving then s
  else
    let gs := ((List.finRange 8).map s.saveOf).flatten
    if gs.isEmpty then s.trayOff
    else s.modHold fun h => { h with saving := true, partialSave := gs }

/-- HOLD_TIMER_EXPIRE (R559, R562): the hold time as it stands, counted from the declaration. -/
def execHoldTimerExpire (s : State) : Host.Outcome State Fault Refusal :=
  if !s.tray.hold.onHoldup then .next s
  else
    let due := s.tray.hold.holdAt + 1000000000 * s.setting 0x1400 1 0xF
    .next (s.modTray fun y => { y with now := y.now + (due - s.accNow) }).startSave

/-- VAULT_SAVE_COMPLETE (R562, R563): the valid mark is written, the save replaces any earlier one, and the tray powers
down. Its time is that of the bus loss. -/
def execVaultSaveComplete (s : State) : Host.Outcome State Fault Refusal :=
  let h := s.tray.hold
  if !h.saving then .next s
  else
    let t := s.trayTime - (s.accNow - h.holdAt)
    let s1 := (s.modHold fun h => { h with
      saving := false, partialSave := [], saves := satAdd 32 h.saves 1, save := some ⟨t, h.partialSave⟩, saveTime := t }).logTray
        0x1402 (leBytes 4 h.partialSave.length ++ [1#8])
    .next s1.trayOff

/-- DISCARD_VAULT_SAVE (R566). -/
def execDiscardVaultSave (m : MasterId) (v : Nat) (s : State) : Host.Outcome State Fault Refusal :=
  .next (s.gate m ⟨0x1400, 0xC, 0xF⟩ (leBytes 1 v) fun s _ _ => .done (s.modHold fun h => { h with save := none }) 0 true)

/-- Free the granules held for a tenant, or for every tenant: they are queued for zeroing (R567). -/
def State.dropHeld (s : State) (t : Option Nat) : State :=
  let mine (o : Granule) : Bool := match o with
    | .held u => t.isNone || t == some u
    | _ => false
  s.allDies fun x =>
    let gs := (x.til.granules.filter fun p => mine p.2).map Prod.fst
    { x with til := gs.foldl (fun y g => y.setOwner g .zeroing) x.til }

/-- GRANULE_HOLD_EXPIRE (R567): 600 s after tray ready. -/
def execGranuleHoldExpire (s : State) : Host.Outcome State Fault Refusal :=
  match s.tray.hold.restoredEnd with
  | none => .next s
  | some e =>
    let s1 := s.modTray fun y => { y with now := y.now + (e - s.accNow), hold := { y.hold with restoredEnd := none } }
    .next (s1.dropHeld none)

/-- The effect of 0x1200:10 (R625): LEAVE of every die, every command ends with DIE_POWERED_OFF, the rails go off, the
charger stops, coefficients are stored and persistent values committed. -/
def State.powerDown (s : State) : State :=
  let s1 := s.forDies fun s d => s.sendLeave d 5
  let s2 := s1.allDies fun x => { x with nrg := x.nrg.save }
  let rest := (s2.allRailsOff).ctxs.map Prod.fst
  let s3 := rest.foldl (fun s k => (List.range 8).foldl (fun s q => s.failQueue 0 k.1 k.2 q stDiePoweredOff) s) s2.allRailsOff
  s3.modTray fun y => { y with
    pow := { y.pow with down := true }
    fw := { y.fw with trayReady := false }
    leg := y.leg.persistNow
    hold := { y.hold with charging := false, current := 0, available := false, onHoldup := false } }

/-- TRAY_POWER_DOWN (R625). -/
def execTrayPowerDown (m : MasterId) (v : Nat) (s : State) : Host.Outcome State Fault Refusal :=
  .next (s.gate m ⟨0x1200, 0x10, 0xF⟩ (leBytes 1 v) fun s _ _ => .done s.powerDown 0 true)

end Sys2Proof.Machine
end

