-- ==== Sys2Proof/Machine/StartEvents.lean ====
section
/-! DEFINITION. Start-up of tray and dies, and the resets (chapter 19). -/

namespace Sys2Proof.Machine
open Sys2Proof

/-! ### Tray controller (19.2) -/

/-- `s` with the firmware part of the tray changed. -/
def State.modFw (s : State) (f : Firmware → Firmware) : State := s.modTray fun y => { y with fw := f y.fw }

/-- The state of a firmware slot, A or B (true) (log 47, DESIGN CHOICE). -/
def Firmware.slot (f : Firmware) (b : Bool) : SlotState := if b then f.slotB else f.slotA

/-- Set the state of a firmware slot. -/
def Firmware.setSlot (f : Firmware) (b : Bool) (v : SlotState) : Firmware :=
  if b then { f with slotB := v } else { f with slotA := v }

/-- The image of a slot becomes the running one: its release and digest, read at the first start from the factory
images. -/
def Firmware.runSlot (f : Firmware) (b : Bool) : Firmware :=
  let f := if f.digest.isEmpty then
      { f with release := Config.releaseA.toNat, digest := beBytes 48 Config.digestA.toNat, runB := false
               otherRelease := Config.releaseB.toNat, otherDigest := beBytes 48 Config.digestB.toNat } else f
  if f.runB = b then f
  else { f with runB := b, release := f.otherRelease, digest := f.otherDigest, otherRelease := f.release
                otherDigest := f.digest }

/-- The image runs: the field ports check their addresses (R407), the persistent values are in force, the dies that may start are
starting (R513, R514), and a restore is due when one is called for (R565). -/
def State.imageRuns (s0 : State) : State :=
  let s := (s0.dadPort false).dadPort true
  let due := s.setting 0x1400 3 0xF = 1 && s.tray.hold.save.isSome
  (s.modTray fun y => { y with
    fw := { y.fw with running := true, status := 0 }, hold := { y.hold with restoring := due } }).allDies fun x =>
      if x.heat.latched ∨ x.heat.tripped then
        { x with rails := { x.rails with vio := true }, svc := { x.svc with state := if x.heat.latched then .latched else .tripped } }
      else { x with svc := { x.svc with state := .starting, step := 6, heldOff := false } }

/-- The tray has power and its controller may boot. -/
def State.mayBoot (s : State) : Bool :=
  s.tray.pow.trayEn && s.tray.pow.busFrom.isSome && !s.tray.pow.busLost && !s.tray.fw.running && !s.tray.fw.bootFailed

/-- The boot ROM verifies the active slot, then the previous one (R517); when none verifies the tray stays in its boot ROM
(R518) (log 47, DESIGN CHOICE). -/
def execBootRomStart (okA okB : Bool) (s : State) : Host.Outcome State Fault Refusal :=
  if !s.mayBoot then .next s
  else
    let f := s.tray.fw
    let b := f.slotA != .active && f.slotB == .active
    let ok (b : Bool) : Bool := if b then okB else okA
    .next (if ok b then (s.modFw fun f => f.runSlot b).imageRuns
      else if ok (!b) ∧ f.slot (!b) = .previous then
        (((s.modFw fun f => (((f.runSlot (!b)).setSlot b .invalid).setSlot (!b) .active)).imageRuns).logTray 0x1601
          [BitVec.ofNat 8 (b2n b)])
      else s.modFw fun f => { f with bootFailed := true })

/-- The lockstep cores disagree. In the boot ROM a first mismatch restarts it and a second one is a failed boot (R519).
While the image runs, the tray controller restarts (R611): sessions, subscriptions, windows, snapshots, assemblies, nonces,
unsent responses and queued writes are lost, and a mailbox request in progress is abandoned. -/
def execLockstepMismatch (s : State) : Host.Outcome State Fault Refusal :=
  if !s.tray.pow.trayEn ∨ s.tray.pow.busFrom.isNone ∨ s.tray.fw.restarting ∨ s.tray.fw.bootFailed then .next s
  else if !s.tray.fw.running then
    .next (s.modFw fun f => { f with lockMiss := f.lockMiss + 1, bootFailed := decide (1 ≤ f.lockMiss) })
  else
    let clear (m : Master) : Master :=
      { ctxSel := m.ctxSel, plca := m.plca, spdm := m.spdm, spdmAt := m.spdmAt, allowance := m.allowance, allowAt := m.allowAt }
    let s1 := s.modTray fun y => { y with
      fw := { y.fw with restarting := true, restarts := y.now :: y.fw.restarts, lostReports := 0, status := 0, handoff := false }
      leg := { y.leg with acks := [] } }
    .next ((s1.allMasters clear).allPfs fun p =>
      if p.mboxBusy then { p with mboxBusy := false, mboxNotTaken := true, mboxReady := false } else p)

/-! ### Start of a die (19.3) -/

/-- The settings that a die has in force from its start: persistent values as stored (R526, R516), a value that waited for a
boundary among them (log 242, DEDUCED). -/
def State.loadSettings (s0 : State) (d : DieId) : State :=
  let due := s0.tray.leg.raises.filter fun r => decide (0x2000 ≤ r.1.idx) && r.1.sel == d.val
  let s := due.foldl (fun s r => (s.cancelRaise r.1).putSetting r.1.idx r.1.sub r.1.sel r.2.1) s0
  let wide := s.dset d 0x2100 1 == 1
  (s.modDie d fun x => { x with
    op := { x.op with wide := wide, wideWaits := false, leanAfterWide := false }
    droop := { x.droop with monitor := wide }
    rails := { x.rails with vsramMv := s.dset d 0x2100 0xD }
    pow := { x.pow with
      sealed := s.dset d 0x2000 5 == 1, sealedNext := none, sealedStep := s.dset d 0x2000 6
      sealedTable := sealedEntries (leBytes 4096 (s.dset d 0x2000 0x20))
      positions := admitted (sealedEntries (leBytes 4096 (s.dset d 0x2000 0x20))) } }).noStepCheck d false

/-- DIE_START (step 7 of Table 19.1, R66, R530): the loop's flow has stayed at or above 60 % for 200 samples, and die Si
starts 5i ms behind S0 (log 240, DEDUCED). Under FLOW_LOSS the start waits for its release (R538). -/
def execDieStart (d : DieId) (s : State) : Host.Outcome State Fault Refusal :=
  let x := s.die d
  let good := if loopB d then s.tray.cool.goodB else s.tray.cool.goodA
  match good with
  | none => .next s
  | some g =>
    if x.svc.state ≠ .starting ∨ x.svc.step ≠ 6 ∨ !s.tray.fw.running ∨ x.heat.flowLoss ≠ .none then .next s
    else
      let at_ := match s.tray.pow.busFrom with | some b => b + 1100000000 + 5000000 * d.val | none => 0
      .next ((((s.advanceTo (max at_ (g + 200000000))).loadSettings d).railsUp d))

/-- The governor firmware of the active slot is loaded (R521, 21.3): measured when it verifies, asked for once more when it
does not, the die held off at the second failure. A warm reset goes on with its clocks (R537). -/
def execGovernorFirmwareLoad (d : DieId) (ok : Bool) (digest : List Byte) (s : State) : Host.Outcome State Fault Refusal :=
  let v := (s.die d).svc
  if !((v.state == .starting && v.step == 7) || (v.warm && !v.govRuns)) ∨ !(s.die d).rails.vio then .next s
  else if ok then
    .next (s.modDie d fun x => { x with svc := { x.svc with
      fwDigest := some digest, fwRelease := s.tray.fw.activeRelease, newImage := false, govRuns := x.svc.govRuns || x.svc.warm || x.svc.idAccepted } })
  else if v.fwFails = 0 then .next (s.modDie d fun x => { x with svc := { x.svc with fwFails := 1 } })
  else .next (s.holdOff d 1)

/-- The answer to a nonce is accepted (R533): the signature over nonce, serial and measurement verifies under the key of the die's
certificate, which chains to the device CA, and serial and key digest are those of the die's entry. -/
def identityOk (d : DieId) (key nonce serial measurement sig : List Byte) (chains : Bool) : Bool :=
  chains && Config.verify key (nonce ++ serial ++ measurement) sig && bindingEntry serial key == dieEntry d

/-- The identity check (R533), with a random nonce of 32 bytes: a die that is not accepted is held off; with its firmware measured
the governor runs. -/
def execDieIdentityCheck (d : DieId) (key serial sig : List Byte) (chains : Bool) (s : State) : Host.Outcome State Fault Refusal :=
  let v := (s.die d).svc
  match v.fwDigest with
  | none => .next s
  | some m =>
    if v.state ≠ .starting ∨ v.step < 7 then .next s
    else
      let r := s.freeBytes 32
      if identityOk d key r.1 serial m sig chains then
        .next (r.2.modDie d fun x => { x with svc := { x.svc with idAccepted := true, govRuns := true, step := 9 } })
      else .next (r.2.holdOff d 2)

/-- The clocks start (R522): with a reference ready RL locks to the preferred one, then OPLL, then both loops at N = 5;
compute runs F15 from CPLL-A, the governor takes AVSBus and moves VCORE to the F15 target. A change of reference is recorded
(R37); a restriction of another layer keeps SRAM in retention (R538). -/
def execClockStart (d : DieId) (s : State) : Host.Outcome State Fault Refusal :=
  let x := s.die d
  if !x.svc.govRuns ∨ !(x.svc.state = .starting ∨ x.svc.warm) ∨ !(x.clk.xaReady ∨ x.clk.xbReady) then .next s
  else
    let c := x.clk
    let ref := if c.refReady c.preferred then c.preferred else c.preferred.other
    let s1 := s.modDie d fun x =>
      let c := { x.clk with
        refInUse := ref, rlReady := true, opllReady := true, holdover := false, relockTo := none, bothLostAt := none
        refsLostHalt := false, fixedOnFosc := false, warmResetWaits := false, switchStatus := 0, nextStep := none
        loopA := { x.clk.loopA with step := 15, ready := !x.clk.loopA.failed }
        loopB := { x.clk.loopB with step := 15, ready := !x.clk.loopB.failed } }
      { x with
        clk := if c.bothFailed then c.toBridge else c.toLoop (if c.loopA.failed then .b else .a)
        rails := { x.rails with avsGov := true, retention :=
          if x.svc.warm ∧ x.rails.vcore then x.op.alertHalt || x.heat.flowLoss != .none else x.rails.retention } }
    let s2 := if ref = c.refInUse then s1 else s1.logClk d 0x5001
    .next (s2.moveVcore d (s2.targetAt d 15))

/-- The failed columns of a row in a mask of physical tiles. -/
def rowFails (mask y : Nat) : List Nat := (List.range 17).filter fun c => bit mask (c + 17 * y)

/-- Physical tiles with a bank that needs more than its 32 redundant lines, repairs fused at manufacture included: pairs of a tile and
the lines that its worst bank needs (R523). -/
def lineFails (lines : List (Nat × Nat)) : Nat :=
  (lines.filter fun p => decide (32 < p.2)).foldl (fun m p => m ||| 2 ^ p.1) 0

/-- The self-test ends (R523 to R526): row maps from the failed tiles, SRAM zero and every granule free, registers clear;
two failed tiles in a row hold the die off; the sensors of a mapped spare take their numbers (R153); a detector that passes is
unmasked, one that does not has a failed line (R136, R137). -/
def execSelfTest (d : DieId) (tested : Nat) (lines : List (Nat × Nat)) (detectors : Nat) (s : State) : Host.Outcome State Fault Refusal :=
  let x := s.die d
  if x.svc.state ≠ .starting ∨ !x.svc.govRuns ∨ !x.rails.vcore ∨ x.svc.selfTested then .next s
  else
    let failed := tested ||| lineFails lines
    let rows := (List.range 8).map fun y => rowFails failed y
    let maps := rows.map fun l => (l.head?).getD 16
    let s1 := ((s.sramLost d).modDie d fun x => { x with
      svc := { x.svc with
        failedTiles := BitVec.ofNat 136 failed, remap := [], spares := (maps.filter fun k => k != 16).length
        poisonLogged := [], poisonTimes := [], selfTested := true, step := 10 }
      heat := x.heat.renumber x.til.rowMap maps
      til := { x.til with rowMap := maps, granuleBase := .free, units := [] } }).loadCoeffs d
    let pass : BitVec 64 := BitVec.ofNat 64 detectors
    let s2 := ((List.range 64).filter fun i => !bit detectors i && !x.droop.lineFailed.getLsbD i).foldl
      (fun s i => s.lineFails d i) (s1.unmaskLines d pass)
    .next (if rows.any fun l => decide (2 ≤ l.length) then s2.holdOff d 3 else s2)

/-! ### Ready (R514, R515, R565 to R567) -/

/-- The die holds what R514 asks for. -/
def State.readyNow (s : State) (d : DieId) : Bool :=
  let x := s.die d
  let open_ := (List.range 4).any fun p => let st := (s.port d p).state; st == .up || st == .degraded
  let restore := s.tray.hold.restoring && match s.tray.hold.save with
    | some v => v.granules.any fun g => g.die == d.val
    | none => false
  x.mer.member && !x.mer.leaving && open_ && x.rails.avsGov && x.sct.tablesBuilt && x.svc.selfTested && x.svc.govRuns && !restore

/-- DIE_READY (R514): the die enters state 2, at which a trip restart is complete (R184); after a warm reset it takes commands again. -/
def execDieReady (d : DieId) (s : State) : Host.Outcome State Fault Refusal :=
  let v := (s.die d).svc
  if !s.readyNow d then .next s
  else if v.state = .starting then
    let s1 := s.modDie d fun x => { x with svc := { x.svc with state := .running, step := 0, lateOnce := false, tripRestart := false } }
    .next (if v.tripRestart then s1.heat d 7 else s1)
  else if v.warm then .next ((s.modDie d fun x => { x with svc := { x.svc with warm := false, step := 0 } }).feedEngines d)
  else .next s

/-- The tray becomes ready (R515): with every die ready or held off, else 12 s after its start with at least one ready die.
The hold of restored granules runs from now (R567); a save that no restore was called for is discarded (R566). -/
def execTrayReady (s : State) : Host.Outcome State Fault Refusal :=
  let up (d : DieId) : Bool := (s.die d).svc.state == .running || (s.die d).svc.state == .frost
  if s.tray.fw.trayReady ∨ !s.tray.fw.running ∨ s.tray.pow.down ∨ !(List.finRange 8).any up then .next s
  else
    let all := (List.finRange 8).all fun d => up d || (s.die d).svc.heldOff
    let start := max s.tray.fw.startAt (s.tray.pow.busFrom.getD 0)
    let s1 := if all then s else s.advanceTo (start + 12000000000)
    let held := (List.finRange 8).any fun d => (s.die d).til.granules.any fun p => match p.2 with | .held _ => true | _ => false
    .next (s1.modTray fun y => { y with
      fw := { y.fw with trayReady := true }
      hold := { y.hold with
        restoredEnd := if held then some (s1.accNow + 600000000000) else none
        save := if y.hold.restoring then y.hold.save else none } })

/-- One granule of the save is restored into its die (R565): a failed tag leaves it zero; a held-off die's is dropped (log 253, DEDUCED). -/
def State.restoreGranule (s : State) (g : SavedGranule) : State :=
  let d := dieOf g.die
  if !(s.die d).svc.selfTested ∨ (s.die d).svc.heldOff then s
  else if !g.tagOk then s.logTray 0x1403 ([BitVec.ofNat 8 g.die] ++ leBytes 2 g.granule)
  else (g.cells.foldl (fun s c => s.sramWrite d c.1 [c.2]) s).modDie d fun x =>
    { x with til := x.til.setOwner g.granule (.held g.tenant) }

/-- VAULT_RESTORE (step 14, R565, R566): once every die that starts has been tested, each saved granule is restored and held
for its tenant, and the save is discarded. -/
def execVaultRestore (s : State) : Host.Outcome State Fault Refusal :=
  match s.tray.hold.save with
  | none => .next s
  | some v =>
    let due (g : SavedGranule) : Bool :=
      let x := s.die (dieOf g.die)
      x.svc.selfTested || x.svc.heldOff || x.heat.latched || x.heat.tripped
    if !s.tray.hold.restoring ∨ !v.granules.all due then .next s
    else .next ((v.granules.foldl State.restoreGranule s).modHold fun h => { h with restoring := false, save := none })

/-! ### Resets (19.7) -/

/-- The tray cold reset that a command asked for happens once its response is out (R403, R539) and the next commit has ended,
so that every accepted persistent value outlasts it (R4, R383, R384). -/
def State.finishReset (s : State) : State :=
  if s.tray.fw.resetDue then
    ((s.advanceTo (ceilDiv s.tray.now 5000000 * 5000000)).commitNow).coldReset false
  else s

/-- The effect of 0x1500:07 (R539, R561): on hold-up the vault save starts at once, and the reset follows its power-down (log 250, DEDUCED). -/
def State.coldResetApply (s : State) : GateResult :=
  if s.tray.hold.onHoldup then .done s.startSave 0 true
  else .done (s.modFw fun f => { f with resetDue := true }) 0 true

/-- TRAY_COLD_RESET (R539). -/
def execTrayColdReset (m : MasterId) (v : Nat) (s : State) : Host.Outcome State Fault Refusal :=
  .next (s.gate m ⟨0x1500, 7, 0xF⟩ (leBytes 1 v) fun s _ _ => s.coldResetApply).finishReset

/-- A die power cycle (Table 19.6, R618): rails off, contexts lost with DIE_POWERED_OFF, marks of failed loops and heaters gone, those of
detectors until their test; the die
starts again from step 7 (log 241, DEDUCED). -/
def State.powerCycle (s : State) (d : DieId) : State :=
  (s.railsOff d false stDiePoweredOff).modDie d fun x => { x with
    clk := { x.clk with loopA := { x.clk.loopA with failed := false, faults := [] }
                        loopB := { x.clk.loopB with failed := false, faults := [] } }
    fab := { x.fab with rings := [] }
    svc := { x.svc with state := .starting, step := 6, heldOff := false, idAccepted := false, selfTested := false
                        fwDigest := none, fwFails := 0 } }

/-- The effect of 0x6000:0B (R435) (log 243, DEDUCED) (log 271, DEDUCED). -/
def State.powerCycleApply (s : State) (d : DieId) : GateResult :=
  let v := (s.die d).svc
  if s.tray.pow.down ∨ !(v.heldOff ∨ v.state = .starting ∨ v.state = .running ∨ v.state = .frost) then
    .refused rcDieUnavailable 0 s
  else .done ((s.powerCycle d).modDie d fun x => { x with svc := { x.svc with lateOnce := false } }) 0 true

/-- DIE_POWER_CYCLE (R435). -/
def execDiePowerCycle (m : MasterId) (d : DieId) (v : Nat) (s : State) : Host.Outcome State Fault Refusal :=
  .next (s.gate m ⟨0x6000, 0xB, d.val⟩ (leBytes 1 v) fun s _ _ => s.powerCycleApply d)

/-- A die warm reset begins (R537): plans end with MERIDIAN_LOST, flows end, the die leaves its group, its firmware and clocks
start again, ports retrain, free banks go into recalibration, an AVSBus fault is cleared, the phase table is dropped and the
stored coefficients are loaded. Without a reference it waits (R39) (log 241, DEDUCED). -/
def State.warmReset (s : State) (d : DieId) : State :=
  let s1 := ((s.dropFlows d 2).endRuns d stMeridianLost 0).sendLeave d 3
  let s2 := (List.range 16).foldl (fun s p => s.portRetrain d p) s1
  let f (b : Bank) : Bank := if b.state = .free then { b with state := .recal } else b
  (s2.modDie d fun x => { x with
    svc := { x.svc with warm := true, govRuns := false, step := 7, fwFails := 0 }
    rails := { x.rails with avsFault := false, avsGov := false, avsWrite := none, retention := true }
    clk := { x.clk with
      rlReady := false, opllReady := false, warmResetWaits := !x.clk.xaReady && !x.clk.xbReady, raiseWaits := false
      loopA := { x.clk.loopA with ready := false }, loopB := { x.clk.loopB with ready := false } }
    pow := { x.pow with phases := [] }
    sct := { x.sct with banks := x.sct.banks.map f } }).loadCoeffs d

/-- The effect of 0x6000:0A (R435) (log 271, DEDUCED). -/
def State.warmResetApply (s : State) (d : DieId) : GateResult :=
  let v := (s.die d).svc
  if v.state = .running ∨ v.state = .frost then .done (s.warmReset d) 0 true else .refused rcDieUnavailable 0 s

/-- DIE_WARM_RESET (R435, R537). -/
def execDieWarmReset (m : MasterId) (d : DieId) (v : Nat) (s : State) : Host.Outcome State Fault Refusal :=
  .next (s.gate m ⟨0x6000, 0xA, d.val⟩ (leBytes 1 v) fun s _ _ => s.warmResetApply d)

/-- A start-up step ends late (R528): the first time the die is power-cycled, the second time held off (log 11, DESIGN CHOICE). -/
def execStartStepLate (d : DieId) (s : State) : Host.Outcome State Fault Refusal :=
  let v := (s.die d).svc
  if v.state ≠ .starting then .next s
  else if v.lateOnce then .next (s.holdOff d 5)
  else .next ((s.powerCycle d).modDie d fun x => { x with svc := { x.svc with lateOnce := true } })

end Sys2Proof.Machine
end

