-- ==== Sys2Proof/Machine/FirmwareOps.lean ====
section
/-! DEFINITION. Delivery, staging and activation of a release (21.2), and what a handoff does to a die (21.3). -/

namespace Sys2Proof.Machine
open Sys2Proof

/-! ### Delivery and staging (R574 to R576) -/

/-- The free slot: the one that is not active (21.2). -/
def Firmware.freeSlot (f : Firmware) : Bool := f.slotA == .active

/-- A write of the chunk number (R574) (log 260, DEDUCED). -/
def State.chunkNoApply (s : State) (v : Nat) : GateResult :=
  let f := s.tray.fw
  if v = 0 ∧ f.status ≠ 4 ∧ !f.rollBack then .done (s.modFw fun f => { f with chunkNo := 0, opening := true }) 0 true
  else if v = f.chunkNo then .done s 0 true
  else .refused rcOutOfRange 0 s

/-- IMAGE_CHUNK_NUMBER_WRITE (R574). -/
def execImageChunkNumberWrite (m : MasterId) (v : Nat) (s : State) : Host.Outcome State Fault Refusal :=
  .next (s.gate m ⟨0x1600, 1, 0xF⟩ (leBytes 2 v) fun s _ w => s.chunkNoApply (leNat w))

/-- A write of a chunk (R574): after a 0 in the chunk number it opens a delivery (log 260, DEDUCED). -/
def State.chunkApply (s : State) (v : List Byte) : GateResult :=
  let f := s.tray.fw
  if f.status = 4 ∨ f.rollBack then .refused rcBusy 0 s
  else if 4096 ≤ f.chunkNo then .refused rcOutOfRange 0 s
  else
    .done (s.modFw fun f =>
      let f := if f.opening then { f.setSlot f.freeSlot .empty with opening := false, status := 1, chunks := [] } else f
      { f with chunks := KV.put f.chunks f.chunkNo v, chunkNo := f.chunkNo + 1 }) 0 true

/-- IMAGE_CHUNK (R574). -/
def execImageChunk (m : MasterId) (v : List Byte) (s : State) : Host.Outcome State Fault Refusal :=
  .next (s.gate m ⟨0x1600, 2, 0xF⟩ v fun s _ w => s.chunkApply w)

/-- The command 0x1600:03: verification of an image of the given length starts (R575). -/
def State.stageApply (s : State) (v : Nat) : GateResult :=
  if s.tray.fw.status = 4 ∨ s.tray.fw.rollBack then .refused rcBusy 0 s
  else .done (s.modFw fun f => { f with stageLen := v, status := 2 }) 0 true

/-- STAGE_IMAGE (R575). -/
def execStageImage (m : MasterId) (v : Nat) (s : State) : Host.Outcome State Fault Refusal :=
  .next (s.gate m ⟨0x1600, 3, 0xF⟩ (leBytes 4 v) fun s _ w => s.stageApply (leNat w))

/-- The result code of the checks of R575, in their order; 0 when all pass. -/
def Firmware.stageCode (f : Firmware) (r : StageResult) : Nat :=
  let n := ceilDiv f.stageLen 65536
  let last := KV.getD f.chunks (n - 1) []
  if (List.range n).any fun i => (KV.get? f.chunks i).isNone then 0x1000
  else if !r.headerOk ∨ (last.drop (f.stageLen - 65536 * (n - 1))).any (fun b => b != 0#8) then 0x1100
  else if !r.sigOk then 0x1200
  else if r.security < f.floor then 0x1300
  else if f.release < r.oldest then 0x1400
  else 0

/-- STAGING_COMPLETE (R575). -/
def execStagingComplete (r : StageResult) (s : State) : Host.Outcome State Fault Refusal :=
  let f := s.tray.fw
  if f.status ≠ 2 then .next s
  else
    let code := f.stageCode r
    .next (s.modFw fun f =>
      if code = 0 then
        { f.setSlot f.freeSlot .staged with
          status := 3, otherRelease := r.release, otherDigest := r.digest, stagedFloor := r.floor }
      else { f.setSlot f.freeSlot .invalid with status := 6, result := code })

/-- The command 0x1600:04 (R576, R577): the handoffs begin at the first boundary at least 20 ms later. -/
def State.activateApply (s : State) : GateResult :=
  let f := s.tray.fw
  if f.slot f.freeSlot ≠ .staged ∨ !f.trayReady ∨ f.status = 4 ∨ f.rollBack ∨
      (List.finRange 8).any (fun d => (s.die d).svc.holding.isSome) then .refused rcBusy 0 s
  else .done (s.modFw fun f =>
    { f with status := 4, handAt := some (s.tray.now + 20000000), nextDie := none, confirmFrom := none }) 0 true

/-- ACTIVATE_STAGED_IMAGE (R576). -/
def execActivateStagedImage (m : MasterId) (v : Nat) (s : State) : Host.Outcome State Fault Refusal :=
  .next (s.gate m ⟨0x1600, 4, 0xF⟩ (leBytes 1 v) fun s _ _ => s.activateApply)

/-! ### Handoffs (R577 to R585) -/

/-- A die that takes no handoff at its turn (R577); in a rollback one that is not on the new image (R584). -/
def State.skipsHandoff (s : State) (d : DieId) : Bool :=
  let x := s.die d
  (!x.rails.vcore && !x.rails.vsram) || x.heat.latched || x.svc.heldOff || (s.tray.fw.rollBack && !x.svc.newImage)

/-- Step 1 and 2 of Table 21.2 on a die: the old image writes its record and stops, the spare bank starts (log 261, DEDUCED). -/
def State.beginHandoff (s : State) (d : DieId) : State :=
  if s.skipsHandoff d then s
  else s.modDie d fun x => { x with svc := { x.svc with
    holding := some s.tray.now, handoffAt := some s.tray.now, firnTaken := false, holdCut := false, bankB := !x.svc.bankB } }

/-- What a boundary of the tray's epoch count does to an update (R577, R584): the tray controller's own handoff, then one
die at each following boundary (log 261, DEDUCED). -/
def State.handoffBoundary (s : State) : State :=
  let f := s.tray.fw
  match f.handAt with
  | some t => if t ≤ s.tray.now then s.modFw fun f => { f with handoff := true, handAt := none } else s
  | none => match f.nextDie with
    | none => s
    | some i =>
      (s.beginHandoff (dieOf i)).modFw fun f =>
        { f with nextDie := if i = 7 then none else some (i + 1), rollBack := f.rollBack && i != 7 }

/-- A cold start of the governor (R582). -/
def State.coldStart (s : State) (d : DieId) : State :=
  let x := s.die d
  let s1 := (s.modDie d fun x => { x with
    pow := { x.pow with phases := [] }
    op := { x.op with lead := if x.op.wide then 0 else 120 }
    svc := { x.svc with leadHold := !x.op.wide }
    droop := { x.droop with noRaise := max 4 x.droop.noRaise } }).loadCoeffs d
  let s2 := (s1.retarget d).scaleBudgets d
  if x.pow.sealed then s2 else s2.urgent d (min 15 (x.mer.groupStep + 1))

/-- A lowering that waited for a holding pattern comes into force (05.9, R400). -/
def State.lowerNow (s : State) (k : ObjKey) (v : Nat) : State :=
  let d := dieOf k.sel
  let s1 := s.cancelRaise k
  let r := if k.idx = 0x2100 ∧ k.sub = 1 then s1.marginApply d v true
    else if k.idx = 0x2100 ∧ k.sub = 0xD then s1.limitWrite k v fun s => s.vsramSet d v
    else if k.idx = 0x2000 then s1.limitWrite k v fun s => s.scaleBudgets d
    else s1.limitWrite k v id
  match r with
  | .refused _ _ t => t.effectDone k v 0
  | .done t _ eff => if eff then t.effectDone k v 0 else t

/-- A holding pattern ends with the new image running (Table 21.2 step 5): it takes over the lowerings written meanwhile, and
a thaw that waited starts (R544). -/
def State.endHandoff (s : State) (d : DieId) (digest : List Byte) : State :=
  let f := s.tray.fw
  let s1 := (s.modDie d fun x => { x with svc := { x.svc with
    holding := none, handoffAt := none, newImage := !f.rollBack && f.status == 4
    fwDigest := some digest, fwRelease := f.release } }).modFw fun f => { f with confirmFrom := some s.tray.now }
  let due := s1.tray.leg.raises.filter fun r => r.2.2 == 0 && decide (0x2000 ≤ r.1.idx) && r.1.sel == d.val
  (due.foldl (fun s r => s.lowerNow r.1 r.2.1) s1).frostFollow d

/-- A handoff has failed on a die or on the tray controller (R584): the new slot is invalid, and whatever already runs the
new image hands back, the tray controller first. -/
def State.rollBackAll (s : State) (who : Nat) : State :=
  if s.tray.fw.status ≠ 4 then s
  else
    let back := who != 0x0F
    (s.modFw fun f => { f.setSlot f.freeSlot .invalid with
      status := 5, result := 0x2000 + who, rollBack := back, nextDie := none, confirmFrom := none
      handAt := if back then some s.tray.now else none }).logTray 0x1602 (leBytes 2 (0x2000 + who))

/-- The watchdog of a die (R583): the old bank resumes from its own record; the die sends no proposal in this epoch. -/
def State.dieWatchdog (s : State) (d : DieId) : State :=
  let s1 := s.modDie d fun x => { x with svc := { x.svc with
    holding := none, handoffAt := none, bankB := !x.svc.bankB, noProposal := true } }
  let due := s1.tray.leg.raises.filter fun r => r.2.2 == 0 && decide (0x2000 ≤ r.1.idx) && r.1.sel == d.val
  (due.foldl (fun s r => s.lowerNow r.1 r.2.1) s1).rollBackAll d.val |>.frostFollow d

/-- HOLDING_PATTERN_CHECK (R580): the recorded uplift applies to the estimate, the mean of the last 50 µs; the hardware cuts
every context to 4/16 when the power or the energy of the epoch would pass its bound. -/
def execHoldingPatternCheck (d : DieId) (est : Nat) (s : State) : Host.Outcome State Fault Refusal :=
  let x := s.die d
  if x.svc.holding.isNone then .next s
  else
    let p := x.uplifted est
    if p ≤ min x.pow.budget 1300000 ∧ x.pow.epochEnergy + p * 10000 ≤ x.pow.budget * epochNs then .next s
    else .next (s.modDie d fun x => { x with
      svc := { x.svc with holdCut := true }
      til := { x.til with runs := x.til.runs.map fun r => { r with rate := min r.rate 4 } } })

/-- UPDATE_CONFIRM (R585): 1 s after the last handoff with no watchdog action the new slot is active and the old one
previous. -/
def execUpdateConfirm (s : State) : Host.Outcome State Fault Refusal :=
  let f := s.tray.fw
  match f.confirmFrom with
  | none => .next s
  | some t =>
    if f.status ≠ 4 ∨ f.handAt.isSome ∨ f.nextDie.isSome ∨ f.handoff ∨
        (List.finRange 8).any (fun d => (s.die d).svc.holding.isSome) then .next s
    else
      let s1 := (s.advanceTo (t + 1000000000)).modFw fun f =>
        { (f.setSlot (!f.freeSlot) .previous).setSlot f.freeSlot .active with
          status := 0, result := 1, confirmFrom := none, floor := max f.floor f.stagedFloor }
      .next ((s1.allDies fun x => { x with svc := { x.svc with newImage := false } }).logTray 0x1602 (leBytes 2 1))

end Sys2Proof.Machine
end

