-- ==== Sys2Proof/Machine/Epoch.lean ====
section
/-! DEFINITION. The epoch boundary (R63): what every die and the tray controller do when a count of system time reaches a
multiple of 2^20 ns. -/

namespace Sys2Proof.Machine
open Sys2Proof

/-! ### Pending values (R130, R401) -/

/-- The effect of a pending value that comes into force: the detectors are armed for a lean margin (R79), VSRAM falls (R91).
Every other one acts through its setting. -/
def State.raiseInForce (s : State) (k : ObjKey) (v : Nat) : State :=
  let d := dieOf k.sel
  let s1 := (s.cancelRaise k).putSetting k.idx k.sub k.sel v
  if k.idx = 0x2100 ∧ k.sub = 1 then s1.modDie d fun x => { x.spoil with
    op := { x.op with wide := false }, droop := { x.droop with monitor := false } }
  else if k.idx = 0x2100 ∧ k.sub = 0xD then s1.vsramSet d v
  else s1

/-- The pending values of a selector that apply from epoch n. -/
def State.dueRaises (s : State) (sel n : Nat) : List (ObjKey × Nat × Nat) :=
  s.tray.leg.raises.filter fun r => r.1.sel == sel && r.2.2 != 0 && decide (r.2.2 ≤ n)

/-- They come into force. -/
def State.applyRaises (s : State) (sel n : Nat) : State :=
  (s.dueRaises sel n).foldl (fun s r => s.raiseInForce r.1 r.2.1) s

/-! ### What a die closes with its epoch -/

/-- Half the die float or less was used, or there is no die float (R146). -/
def Die.floatGood (x : Die) : Bool := match x.dieFloat with
  | none => true
  | some f => decide (2 * x.floatUsed ≤ f)

/-- Stretch debt, float used and the hold of a raise (R141, R145, R146). -/
def Die.closeDroop (x : Die) : Droop :=
  { x.droop with
    debtLast := x.droop.debtEpoch, usedLast := x.floatUsed, debtTotal := x.droop.debtTotal + x.droop.debtEpoch
    debtEpoch := 0, longestLast := x.droop.longest, longest := 0, overrun := false, loweredThis := false
    noRaise := if x.droop.loweredThis then 4 else if x.floatGood then x.droop.noRaise - 1
      else if x.droop.noRaise = 0 then 0 else 4 }

/-- The ledger's figures of the epoch that starts (R215, R216, R222, R224, R225); in a holding pattern the coefficients stay,
and the benchmark recorded in one counts now (09.6). -/
def Die.closeEnergy (x : Die) (d : DieId) : Energy :=
  let held := x.svc.holding.isSome
  let n := match x.nrg.benchPending with
    | some (c7, cl) => if held then x.nrg else { x.nrg.use d c7 cl with benchPending := none }
    | none => x.nrg
  { n with
    reconError := ((n.vcoreEpoch : Int) - n.predEpoch) / (1000000000000 * 10240000)
    vcoreEpoch := 0, predEpoch := 0, overRate := n.overEpoch / energyOf 1 epochNs, overEpoch := 0
    coeffEpoch := if held then n.coeffEpoch else n.coeff
    upliftInForce := if held then n.upliftInForce else n.uplift
    benchUsed := false, attrT := x.hotMean.getD n.attrT }

/-- Energy of the epoch, share, division mode and positions (R109, R110, R116, R126, R594). -/
def Die.closePower (x : Die) : Power :=
  { x.pow with
    epochs := (x.pow.epochEnergy :: x.pow.epochs).take 28610, epochEnergy := 0
    overhead := x.nrg.overEpoch / energyOf 1 epochNs
    share := x.pow.shareNext.getD x.pow.share, shareNext := none, sharesLate := false
    sealed := x.pow.sealedNext.getD x.pow.sealed, sealedNext := none
    sealAbove := x.pow.sealAbove && x.pow.sealedNext.getD x.pow.sealed
    sealCeil := if x.pow.sealedNext.getD x.pow.sealed then x.pow.sealCeil else 0, positions := admitted x.pow.sealedTable }

/-- The emergency of a die is over: no cause acts and the die runs at its group's step again (R196, R636). -/
def Die.backAtGroup (x : Die) : Bool :=
  !x.emergencyCause && x.clk.curStep == x.mer.groupStep && (!x.clk.onBridge || x.clk.bothFailed) && !x.op.supplyLag

/-- Proposals, records, loans and an emergency that is over end with the epoch (R190, R196, R199, R206, R208). A root keeps the leaves
that came after it closed the proposals (R200). A result below the die's urgent step shows that it came too late, and the die
repeats it (R195) (log 132, DEDUCED). -/
def Die.closeMeridian (x : Die) : Meridian :=
  let m := x.mer
  { m with
    ownProposal := m.proposal.getD 0x10, proposal := none, urgentSent := false, blockMax := none, heard := []
    members := m.members.map fun e => { e with code := none }
    closed := false, joins := [], result := none, urgentCode := none, revision := none
    leaves := if m.root then m.leaves.filter fun i =>
      (m.members.map Member.id).contains i && !m.result.any fun r => r.leaves.contains i else []
    repeatUrgent := match m.urgentCode with
      | none => m.repeatUrgent
      | some u => if m.result.all fun r => decide (r.step < u) then some (max u (m.repeatUrgent.getD 0)) else m.repeatUrgent
    unacked := m.unacked.filter fun u => u.ty != 1
    soloEpochs := if m.member ∨ m.heardResult then 0 else m.soloEpochs + 1, heardResult := false
    lateEpochs := if x.til.runs.any fun r => r.late != 0 then satAdd 32 m.lateEpochs 1 else m.lateEpochs
    emergency := m.emergency && !x.backAtGroup, releasedAt := if x.backAtGroup then none else m.releasedAt
    lent := [], borrowed := 0, lendOpen := none, lendWait := [], asked := [] }

/-- A fall of T applies (R82). -/
def OpPoint.closeTrim (o : OpPoint) : OpPoint := { o with trim := o.trimFall.getD o.trim, trimFall := none, trimWas := if o.trimFall.isSome then o.trim else o.trimWas }

/-- The bytes that every resident context holds (R226). -/
def State.closeHeld (s : State) (d : DieId) : State :=
  (s.residents d).foldl (fun s k => s.modCtx k.1 k.2 fun c => { c with held := s.heldBytes k.1 k.2 }) s

/-! ### Membership (R187, R192, R200 to R205) -/

/-- Identities of a member list. -/
def ids (l : List Member) : List Nat := l.map Member.id

/-- The least identity of a list, `d` when it is empty. -/
def leastId (l : List Member) (d : Nat) : Nat := match ids l with
  | [] => d
  | i :: is => is.foldl min i

/-- The member list after a result, lowest identity first (R187). -/
def MResult.after (r : MResult) (l : List Member) : List Member :=
  let stay := l.filter fun e => !r.strays.contains e.id && !r.leaves.contains e.id
  sortBy Member.id (stay ++ (r.joins.filter fun i => !(ids stay).contains i).map fun i => ⟨i, none, 0⟩)

/-- The members a joining die starts from: those that another die of the tray in its group knows, else the die that formed the
result (log 22, DEDUCED). -/
def State.knownMembers (s : State) (d : DieId) (src : Nat) : List Member :=
  match (List.finRange 8).find? fun e => e != d && (s.die e).mer.member && s.groupNo e == s.groupNo d with
  | some e => (s.die e).mer.members.map fun m => ⟨m.id, none, 0⟩
  | none => [⟨src, none, 0⟩]

/-- The whole group leaves for a lower root (R205) (log 141, DEDUCED). -/
def Meridian.merges (m : Meridian) (r : MResult) : Bool :=
  m.merging || (!m.root && !m.members.isEmpty && (ids m.members).all fun i => r.leaves.contains i)

/-- The die stops being a member by a result (R200 to R202, R205): a merging group gives up its time. -/
def State.leaveGroup (s : State) (d : DieId) (stray merges : Bool) : State :=
  (s.stopMember d).modDie d fun x => { x with
    mer := { x.mer with stray := stray, keptGroup := none, keptId := none }
    clk := if merges then { x.clk with timeValid := false, goodExch := 0, badExch := 0 } else x.clk }

/-- The die takes its place in the group after a result (R187, R194, R203): the lowest identity is the root. A result that its
standby formed shows that the root failed, and it has no role while it is a member. -/
def Meridian.update (m : Meridian) (r : MResult) (base : List Member) (own epoch : Nat) : Meridian :=
  let l := r.after base
  let failed := (if m.member ∧ some m.resultFrom = ((sortBy Member.id m.tree).map Member.id)[1]? then some (m.rootId own)
    else m.failedRoot).filter fun i => (ids l).contains i
  let n := { m with
    member := true, joining := false, stray := false, joinRefused := false, members := l, failedRoot := failed, standbyRoot := false }
  { n with
    root := n.rootId own == own
    groupStep := r.step, noResult := 0, resultLate := false
    lastChange := if r.step ≠ m.groupStep ∨ !m.member then epoch else m.lastChange }

/-- The die may raise its step at this boundary (R196): no emergency cause acts, and the release lies 200 µs back. -/
def Die.mayRaise (x : Die) (now : Ns) : Bool :=
  !x.emergencyCause && match x.mer.releasedAt with
    | some t => decide (t + 200000 ≤ now)
    | none => true

/-- Switch to the step of the group (R44, R192, R196): a die under an emergency only lowers its step, and in the forced state of
an alert the loop tuned to F15 takes a lowering (R86). A die whose compute is off takes it up at its thaw (R545). -/
def State.groupSwitch (s : State) (d : DieId) : State :=
  let x := s.die d
  let g := x.mer.groupStep
  if x.frost.state = .thawing ∨ x.frost.state = .frozen then s
  else
    if x.op.hold ∧ max g (s.ceiling d) ≤ x.clk.curStep then s
    else if x.mer.emergency ∧ !x.mayRaise s.tray.now ∧ s.permitted d g < x.clk.curStep then s
    else s.applyStep d g

/-- No result at the boundary (R192, R201): the die runs on the bridge; a second time in a row it is stray. -/
def State.noResult (s : State) (d : DieId) : State :=
  let det := merDetail (s.groupNo d) (s.identity d)
  let s1 := (s.modDie d fun x => { x.spoil with
    mer := { x.mer with resultLate := true, noResult := x.mer.noResult + 1, emergency := true, releasedAt := none }
    clk := if x.computes then x.clk.toBridge else x.clk }).logDie d 0x2502 det
  let s2 := if (s.die d).computes then s1.moveVcore d (s1.targetAt d 15) else s1
  if 1 ≤ (s.die d).mer.noResult then
    ((s2.leaveGroup d true false).modDie d fun x => { x with mer := { x.mer with
      strayTotal := satAdd 32 x.mer.strayTotal 1 } }).logDie d 0x2501 det
  else s2

/-- What the result of the epoch that ends does to a die: membership, roles and step. `n` is the epoch that starts. -/
def State.applyResult (s : State) (d : DieId) (n : Nat) : State :=
  let m := (s.die d).mer
  let id := s.identity d
  match m.result with
  | none => if m.member then s.noResult d else s
  | some r =>
    if r.epoch + 1 ≠ n then (if m.member then s.noResult d else s)
    else if m.member ∧ (r.strays.contains id ∨ r.leaves.contains id) then
      let stray := r.strays.contains id
      let s1 := s.leaveGroup d stray (m.merges r)
      if stray then (s1.modDie d fun x => { x with mer := { x.mer with strayTotal := satAdd 32 x.mer.strayTotal 1 } }).logDie d
        0x2501 (merDetail r.group id) else s1
    else if m.member ∨ r.joins.contains id then
      let base := if m.member then m.members else s.knownMembers d m.resultFrom
      (s.modDie d fun x => { x with mer := x.mer.update r base id n }).groupSwitch d
    else s

/-! ### The boundary of a die -/

/-- SEAL_BROKEN of the epoch that starts (R117, R118): the group lies below the sealed step, and came there, or lay there as
sealed mode began, or stays there, by no emergency of the die (log 111, DEDUCED). -/
def Die.sealNow (x : Die) (old : Nat) (begins : Bool) : Bool :=
  x.pow.sealed && x.mer.member && decide (x.pow.sealedStep < x.mer.groupStep) &&
    (x.pow.sealAbove || (if old < x.mer.groupStep ∨ begins then !x.mer.emergency else x.pow.sealBroken))

/-- A wide write that waited for its step comes into force when no voltage move is left to await (R78). -/
def State.wideAtBoundary (s : State) (d : DieId) : State :=
  let x := s.die d
  if x.op.wideWaits ∧ ceilingStep d true x.op.trim x.op.agedCeiling ≤ x.clk.curStep ∧ x.rails.avsWrite.isNone ∧
      x.rails.vReady ∧ x.rails.avsGov ∧ !x.op.hold then s.wideInForce d else s

/-- The target is formed anew at the step now applied, unless a raise waits for its voltage (R75, R77, R79, R82). -/
def State.boundaryTarget (s : State) (d : DieId) : State :=
  if (s.die d).clk.raiseWaits then s else s.retarget d

/-- The boundary at which epoch n starts on a die whose count runs. -/
def State.dieBoundary (s : State) (d : DieId) (n : Nat) : State :=
  let old := (s.die d).mer.groupStep
  let s1 := (s.applyRaises d.val n).closeHeld d
  let s2 := s1.modDie d fun x => { x with
    op := x.op.closeTrim, droop := x.closeDroop, nrg := x.closeEnergy d, pow := x.closePower
    svc := { x.svc with leadHold := false, noProposal := false } }
  let s3 := (s2.applyResult d n).modDie d fun x => { x with mer := x.closeMeridian, clk := { x.clk with nextStep := none } }
  let s4 := s3.modDie d fun x => { x with pow := { x.pow with sealBroken := x.sealNow old (!(s.die d).pow.sealed) } }
  let s5 := if (s.die d).svc.leadHold then s4.leadFall d else s4
  ((s5.boundaryTarget d).wideAtBoundary d).setBudgets d

/-- The count of a die runs: it has power and has started (R62). -/
def Die.counts (x : Die) : Bool := x.rails.vio && x.svc.state != .off && x.svc.state != .latched

/-- What the boundary of the tray's count does: raises of tray objects, a rise of the effective cap (R31), and the handoffs
(R577). -/
def State.trayBoundary (s : State) (n : Nat) : State :=
  let due := !(s.dueRaises 0xF n).isEmpty
  let s1 := s.applyRaises 0xF n
  let s2 := if due then s1.updateCap else s1
  (s2.modTray fun y => { y with pow := { y.pow with
    effCap := y.pow.effCapNext.getD y.pow.effCap, effCapNext := none } }).handoffBoundary

/-- The runtime of the next boundary of any die (log 142, DESIGN CHOICE). -/
def State.nextBoundary (s : State) : Option Ns :=
  match ((List.finRange 8).filter fun d => (s.die d).counts).map fun d => (s.die d).clk.boundaryAt s.tray.now with
  | [] => none
  | t :: ts => some (ts.foldl min t)

/-- EPOCH_BOUNDARY (R63): time goes on to the next boundary of any die; the dies that reach theirs apply the group step,
budgets, shares and pending raises, the lowest index first, then the tray controller (log 142, DESIGN CHOICE). -/
def execEpochBoundary (s : State) : Host.Outcome State Fault Refusal :=
  match s.nextBoundary with
  | none => .next s
  | some t =>
    let s0 := s.advanceTo t
    let hit (d : DieId) : Bool := (s.die d).counts && decide ((s.die d).clk.boundaryAt s.tray.now ≤ t)
    let s1 := s0.forDies fun a d => if hit d then a.dieBoundary d (s0.epoch d) else a
    .next (if hit s.timeDie then s1.trayBoundary (s0.epoch s.timeDie) else s1)

end Sys2Proof.Machine
end

