-- ==== Sys2Proof/Machine/MapEvents.lean ====
section
/-! DEFINITION. Surveys and the map composer (chapter 10). -/

namespace Sys2Proof.Machine
open Sys2Proof

/-- `s` with the survey grid of a die changed. -/
def State.modSrv (s : State) (d : DieId) (f : Survey → Survey) : State := s.modDie d fun x => { x with srv := f x.srv }

/-- `s` with the composer of a die changed. -/
def State.modCmp (s : State) (d : DieId) (f : Composer → Composer) : State := s.modDie d fun x => { x with cmp := f x.cmp }

/-! ### Surveys (10.1) -/

/-- The survey block works: VIO is on and its clock runs (R236). -/
def Die.surveys (x : Die) : Bool := x.rails.vio && x.clk.enables.getLsbD 1

/-- The command 0x2700:01 (R234, R235). -/
def State.surveyNow (s : State) (d : DieId) : GateResult :=
  if (s.die d).srv.running.isSome then .refused rcBusy 0 s
  else .done (s.modSrv d fun x => { x with running := some (s.sysTime d) }) 0 true

/-- SURVEY_NOW (R234). -/
def execSurveyNow (m : MasterId) (d : DieId) (v : Nat) (s : State) : Host.Outcome State Fault Refusal :=
  .next (s.gate m ⟨0x2700, 1, d.val⟩ (leBytes 1 v) fun s _ _ => s.surveyNow d)

/-- The survey interval elapses (R234, R235): a survey that falls due while another runs is skipped. -/
def execSurveyIntervalExpire (d : DieId) (s : State) : Host.Outcome State Fault Refusal :=
  let ms := s.dset d 0x2700 4
  if ms = 0 ∨ !(s.die d).surveys then .next s
  else
    let due := (s.die d).srv.intervalFrom + ms * 1000000
    let s1 := s.advanceTo due
    if (s.die d).srv.running.isSome then .next s1
    else .next (s1.modSrv d fun x => { x with running := some (s1.sysTime d), intervalFrom := s1.tray.now })

/-- A survey completes (R234, R235, R236): the whole grid is replaced at once; a skipped survey restarts the interval. -/
def execSurveyComplete (d : DieId) (grid : List Int) (s : State) : Host.Outcome State Fault Refusal :=
  if !(s.die d).surveys then .next s
  else match (s.die d).srv.running with
  | none => .next s
  | some t =>
    let ms := s.dset d 0x2700 4
    .next (s.modSrv d fun x => { x with
      grid := (List.range 4096).map fun i => grid.getD i 0
      seq := (x.seq + 1) % 2 ^ 32, time := t, running := none
      intervalFrom := if x.intervalFrom + ms * 1000000 ≤ s.tray.now then s.tray.now else x.intervalFrom })

/-! ### Scaling and blending (10.3, 10.4) -/

/-- A temperature as a layer sample (Table 10.1). -/
def tempSample (t : Int) : Nat := (clampI 0 65535 (t + 1024)).toNat

/-- The test pattern (R237). -/
def testPattern (x y : Nat) : Nat := if (x + y) % 2 = 0 then 1024 * x + 16 * y else 65535 - (1024 * x + 16 * y)

/-- Coefficient of phase φ and tap t of a set's 256 bytes (10.3). -/
def coeffAt (set : List Byte) (phase t : Nat) : Int := toInt 16 (leNat ((set.drop (2 * (8 * phase + t))).take 2))

/-- Round an S1.14 sum and clamp it (R240, R242). -/
def round14 (acc : Int) : Nat := (clampI 0 65535 ((acc + 8192) / 16384)).toNat

/-- One pass over a row of samples (R239, R240). -/
def scalePass (set : List Byte) (out : Nat) (row : List Nat) : List Nat :=
  let sz := row.length
  (List.range out).map fun o =>
    let q : Int := ((((2 * o + 1) * sz : Nat) : Int) - out) * 16 / (2 * out : Nat)
    let b := q / 16
    let ph := (q - 16 * b).toNat
    round14 (((List.range 8).map fun (t : Nat) =>
      coeffAt set ph t * ((row.getD (clampI 0 ((sz : Int) - 1) (b - 3 + (t : Int))).toNat 0 : Nat) : Int)).sum)

/-- Columns of a list of rows. -/
def columnsOf (w : Nat) (rows : List (List Nat)) : List (List Nat) := (List.range w).map fun x => rows.map fun r => r.getD x 0

/-- A layer scaled to W × H: the horizontal pass on every row, then the vertical pass (10.3). -/
def scaleLayer (hset vset : List Byte) (w h : Nat) (rows : List (List Nat)) : List (List Nat) :=
  columnsOf h ((columnsOf w (rows.map fun r => scalePass hset w r)).map fun c => scalePass vset h c)

/-- Rows of width w of a list of samples, saturating at 65,535. -/
def rowsOf (w h : Nat) (l : List Nat) : List (List Nat) :=
  (List.range h).map fun y => (List.range w).map fun x => min 65535 (l.getD (w * y + x) 0)

/-- Composer setting in force at the frame start (R244). -/
def Composer.set (c : Composer) (sub : Nat) : Nat := KV.getD c.active sub 0

/-- An entry of the layer configuration: enable, weight, horizontal and vertical set (10.4). -/
def layerCfg (cfg i : Nat) : Bool × Int × Nat × Nat :=
  let e := (cfg >>> (64 * i)) % 2 ^ 64
  (e % 256 == 1, toInt 16 (e / 256 % 65536), e / 2 ^ 24 % 256, e / 2 ^ 32 % 256)

/-- A set's bytes as in force. -/
def Composer.setBytes (c : Composer) (k : Nat) : List Byte := leBytes 256 (c.set (0xB + k))

/-- The pixels of a frame (R242). -/
def Composer.pixels (c : Composer) (layers : List (List (List Nat))) : List (List Nat) :=
  let w := c.set 7
  let h := c.set 8
  let parts := (List.range 6).filterMap fun i =>
    let (en, wt, hs, vs) := layerCfg (c.set 0xA) i
    if en then some (wt, scaleLayer (c.setBytes hs) (c.setBytes vs) w h (layers.getD i [])) else none
  (List.range h).map fun y => (List.range w).map fun x =>
    round14 (parts.map fun p => p.1 * (((p.2.getD y []).getD x 0 : Nat) : Int)).sum

/-- The signature of region r (R250). -/
def Composer.signature (c : Composer) (px : List (List Nat)) (r : Nat) : Nat :=
  let f (k : Nat) : Nat := (c.set 0x13 >>> (64 * r + 16 * k)) % 65536
  let rows := (px.drop (f 1)).take (f 3 + 1 - f 1)
  let bs := (rows.map fun row => (((row.drop (f 0)).take (f 2 + 1 - f 0)).map fun p => leBytes 2 p).flatten).flatten
  if !bit (c.set 0x14) r ∨ bs.isEmpty then 0 else crc32 bs

/-- The bytes of a frame (Table 10.2). -/
def Composer.frameBytes (c : Composer) (d : DieId) (flags time survey : Nat) (px : List (List Nat)) : List Byte :=
  let en := ((List.range 6).map fun i => b2n (layerCfg (c.set 0xA) i).1 * 2 ^ i).sum
  let b := leBytes 2 1 ++ [BitVec.ofNat 8 d.val, BitVec.ofNat 8 flags] ++ leBytes 4 c.seq ++ leBytes 8 time ++
    leBytes 2 (c.set 7) ++ leBytes 2 (c.set 8) ++ leBytes 4 survey ++ [BitVec.ofNat 8 en] ++ List.replicate 7 0#8 ++
    (px.map fun row => (row.map fun p => leBytes 2 p).flatten).flatten ++
    ((List.range 16).map fun r => leBytes 4 (c.signature px r)).flatten
  b ++ leBytes 4 (crc32 b)

/-! ### Frames (R243 to R247) -/

/-- Tripped cycles of each detector since the previous frame start (Table 10.1, L2). -/
def Die.frameTrips (x : Die) : List Nat := x.droop.trips.mapIdx fun i n => n - x.cmp.tripsFrom.getD i 0

/-- Estimated mean power of each logical tile since the previous frame start, mW (Table 10.1, L3). -/
def Die.framePower (x : Die) (ns : Ns) : List Nat :=
  (List.range 128).map fun L => (x.nrg.tiles.getD L 0 - x.cmp.tilesFrom.getD L 0) / (10240000000 * max 1 ns)

/-- Mean heater power of each link ring since the previous frame start, µW, transmit before receive (Table 10.1, L4). -/
def Die.frameHeat (x : Die) (d : DieId) (ns : Ns) : List Nat :=
  (List.range 1280).map fun i =>
    let p := i / 80
    let k := (x.fab.ports.getD p {}).ringNo p (decide (40 ≤ i % 80)) (i % 40)
    (KV.getD x.fab.heat k 0 - KV.getD x.cmp.heatFrom k 0) * (Config.heaterFull d k).toNat / (16384 * max 1 ns)

/-- The samples of L0 to L5 at a frame start (Table 10.1). A logical tile whose sensors have not sampled yet gives a free
value; L2 to L4 cover the interval since the previous frame start (R243) and read 0 on a tripped die (10.6). -/
def State.layers (s : State) (d : DieId) : List (List (List Nat)) :=
  let x := s.die d
  let ns := s.tray.now - x.cmp.lastAt
  let dark (l : List Nat) : List Nat := if x.heat.tripped then [] else l
  [ rowsOf 64 64 ((List.range 4096).map fun i => tempSample (x.srv.grid.getD i 0)),
    rowsOf 16 8 ((List.range 128).map fun L =>
      match maxOf ((List.range 4).filterMap fun i => x.heat.reading (4 * L + i)) with
      | some t => tempSample t
      | none => (Config.freeWord (s.fresh + L)).toNat % 65536),
    rowsOf 8 8 (dark x.frameTrips), rowsOf 16 8 (dark (x.framePower ns)), rowsOf 80 16 (dark (x.frameHeat d ns)),
    (List.range 64).map fun y => (List.range 64).map fun x => testPattern x y ]

/-- The composer works: VIO is on and its clock runs (R236). -/
def Die.composes (x : Die) : Bool := x.rails.vio && x.clk.enables.getLsbD 4

/-- The next frame start of a die's count at period P (R243). -/
def nextFrame (t per : Nat) (last : Option Nat) : Nat :=
  let n := ceilDiv t per * per
  if last = some n then n + per else n

/-- FRAME_START (R243, R244): the writes made since the last frame take effect; all layers are sampled. A frame still in
progress is dropped (R247). -/
def execFrameStart (d : DieId) (s : State) : Host.Outcome State Fault Refusal :=
  let x := s.die d
  if !x.composes then .next (s.modCmp d fun c => { c with running := false })
  else if s.dset d 0x2700 6 = 0 then .next (s.modCmp d fun c => { c with running := false })
  else
    let per := 1000000 / s.dset d 0x2700 9 * 1000
    let t0 := s.sysTime d
    let t := nextFrame t0 per x.cmp.lastStart
    let s0 := s.advanceTo (s.tray.now + (t - t0))
    let s1 := s0.modDie d fun x => { x with fab := x.fab.warmTo s0.tray.now }
    let act := (List.range 0x15).map fun k => (k, s.dset d 0x2700 k)
    let c0 := x.cmp
    let c := { c0 with
      active := act, running := true
      disqualified := c0.disqualified || !c0.running
      need := if c0.running then c0.need else max 1 c0.need
      dropped := satAdd 32 c0.dropped (b2n c0.frame.isSome) }
    let px := c.pixels (s1.layers d)
    let flags := b2n (x.srv.seq ≠ c.lastSurvey) + 2 * b2n c.disqualified + 4 * b2n (!x.clk.timeValid)
    let bytes := c.frameBytes d flags t x.srv.seq px
    .next ((s1.skipFree 128).modCmp d fun _ => { c with
      seq := (c.seq + 1) % 0xFFFFFFFF, frame := some bytes, owner := s.tray.mbox
      lastSurvey := x.srv.seq, lastStart := some t, lastAt := s1.tray.now
      tripsFrom := x.droop.trips, tilesFrom := x.nrg.tiles, heatFrom := (s1.die d).fab.heat
      checkDue := c.checkDue || !c0.running || c.seq % 256 == 255 })

/-- Bytes of a frame of the settings in force. -/
def Composer.frameLen (c : Composer) : Nat := 100 + 2 * c.set 7 * c.set 8

/-- Write a frame into the host ring (R245, R460): the invalid sequence first, the real one last; without an owner of the
mailbox at the frame start, or after ring output stopped, there is no write (log 150, DEDUCED). -/
def State.ringFrame (s : State) (d : DieId) (bytes : List Byte) : State :=
  let c := (s.die d).cmp
  let slot := ceilDiv c.frameLen 4096 * 4096
  let seq := leNat ((bytes.drop 4).take 4)
  let a := c.set 0x10 + slot * (seq % c.set 0x11)
  match c.owner with
  | none => s
  | some p =>
    let f := Fn.pf p.val
    if c.ringStopped then s
    else (((s.hostWrite f (a + 4) (leBytes 4 0xFFFFFFFF)).hostWrite f a (bytes.take 4)).hostWrite f (a + 8)
      (bytes.drop 8)).hostWrite f (a + 4) ((bytes.drop 4).take 4)

/-! ### The check (10.6) -/

/-- The stored CRC of a coefficient set (R241). -/
def State.storedCrc (s : State) (d : DieId) (k : Nat) : Nat :=
  ((s.die d).cmp.setCrc.getD k none).getD (crc32 (leBytes 256 (s.dset d 0x2700 (0xB + k))))

/-- The check set in ROM, which is the default of every set: linear interpolation (10.3). -/
def linearSet : List Byte :=
  ((List.range 16).map fun f => ((List.range 8).map fun t =>
    leBytes 2 (if t = 3 then 1024 * (16 - f) else if t = 4 then 1024 * f else 0)).flatten).flatten

/-- The expected check signature of the composer (R251): the CRC-32 of the test pattern alone, with weight 16,384, through the check
set in both passes, to 256 × 128. -/
def checkSignature : Nat :=
  let rows := (List.range 64).map fun y => (List.range 64).map fun x => testPattern x y
  crc32 (((scaleLayer linearSet linearSet 256 128 rows).map fun row =>
    (row.map fun (p : Nat) => leBytes 2 (round14 (16384 * (p : Int)))).flatten).flatten)

/-- COMPOSER_CHECK (R241, R251, R252): the signature of the check pipeline is compared with the expected one, and the CRC of each set
that an enabled layer uses with the stored one; the operands are what a fault adds to either. A failed check disqualifies,
and two passing checks in a row end it; an enable needs one. -/
def execComposerCheck (d : DieId) (fault : Nat) (setFaults : List Nat) (s : State) : Host.Outcome State Fault Refusal :=
  let x := s.die d
  if !x.composes ∨ !x.cmp.running ∨ !x.cmp.checkDue then .next s
  else
    let used := (List.range 4).filter fun k => (List.range 6).any fun i =>
      let (en, _, hs, vs) := layerCfg (x.cmp.set 0xA) i
      en && (hs == k || vs == k)
    let crc (k : Nat) : Nat := (crc32 (leBytes 256 (s.dset d 0x2700 (0xB + k)))).xor (setFaults.getD k 0)
    let mism := used.any fun k => crc k != s.storedCrc d k
    let sig := checkSignature.xor fault
    let pass := fault == 0 && !mism
    let s1 := s.modCmp d fun c => { c with
      checkDue := false, lastSig := sig, lastPassed := pass, crcMismatch := mism
      need := if pass then c.need - 1 else 2
      disqualified := if pass then c.disqualified && decide (1 < c.need) else true
      failedChecks := satAdd 32 c.failedChecks (b2n !pass) }
    .next (if pass then s1 else s1.logDie d 0x2701 (leBytes 4 sig))

/-- RUN_CHECK_NOW (R251): a check at the next frame period. -/
def execRunCheckNow (m : MasterId) (d : DieId) (v : Nat) (s : State) : Host.Outcome State Fault Refusal :=
  .next (s.gate m ⟨0x2700, 0x1B, d.val⟩ (leBytes 1 v) fun s _ _ =>
    .done (s.modCmp d fun c => { c with checkDue := true }) 0 true)

/-! ### Settings -/

/-- Bits per second that a die's field stream takes (R248), of which the ceiling is compared: bits × rate and divisor. -/
def State.streamRate (s : State) (d : DieId) (sub v : Nat) : Nat × Nat :=
  let g (k : Nat) : Nat := if k = sub then v else s.dset d 0x2700 k
  ((100 + 2 * g 7 * g 8) * 8 * g 9, g 0x12)

/-- A write of size, rate or divisor keeps Σ bits × rate / m over all dies within 250,000 b/s (R248). -/
def State.streamFits (s : State) (d : DieId) (sub v : Nat) : Bool :=
  let rs := (List.finRange 8).map fun e => if e = d then s.streamRate e sub v else s.streamRate e 0 0
  let den := (rs.map Prod.snd).foldl (· * ·) 1
  decide ((rs.map fun r => r.1 * den / max 1 r.2).sum ≤ 250000 * den)

/-- A write of a composer object (R235, R241, R244, R245, R247, R248). -/
def State.composerApply (s : State) (d : DieId) (sub : Nat) (v : List Byte) : GateResult :=
  let n := leNat v
  if sub = 0x10 ∧ n % 4096 ≠ 0 then .refused rcOutOfRange 0 s
  else if (sub = 7 ∨ sub = 8 ∨ sub = 9 ∨ sub = 0x12) ∧ !s.streamFits d sub n then .refused rcOutOfRange 0 s
  else
    let s1 := s.putSetting 0x2700 sub d.val n
    let s2 := if 0xB ≤ sub ∧ sub ≤ 0xE then s1.modCmp d fun c => { c with setCrc := c.setCrc.set (sub - 0xB) (some (crc32 v)) }
      else if sub = 0x10 then s1.modCmp d fun c => { c with ringStopped := false }
      else if sub = 4 then s1.modSrv d fun x => { x with intervalFrom := s.tray.now }
      else s1
    .done s2 0 true

/-- COMPOSER_WRITE (R244). -/
def execComposerWrite (m : MasterId) (d : DieId) (sub : Nat) (v : List Byte) (s : State) : Host.Outcome State Fault Refusal :=
  if sub = 4 ∨ (6 ≤ sub ∧ sub ≤ 0xA) ∨ (0xF ≤ sub ∧ sub ≤ 0x14) then
    .next (s.gate m ⟨0x2700, sub, d.val⟩ v fun s _ w => s.composerApply d sub w)
  else .next s

/-- COEFF_SET_WRITE (R241). -/
def execCoeffSetWrite (m : MasterId) (d : DieId) (set : Nat) (v : List Byte) (s : State) : Host.Outcome State Fault Refusal :=
  if set < 4 then
    .next (s.gate m ⟨0x2700, 0xB + set, d.val⟩ v fun s _ w => s.composerApply d (0xB + set) w)
  else .next s

end Sys2Proof.Machine
end

