-- ==== Sys2Proof/Machine/OpticEvents.lean ====
section
/-! DEFINITION. Events of the optical links (chapter 12). -/

namespace Sys2Proof.Machine
open Sys2Proof

/-! ### Combs, rings and the search -/

/-- A port enabled in 0x3000:02. -/
def State.portOn (s : State) (d : DieId) (p : Nat) : Bool := bit (s.dset d 0x3000 2) p

/-- The comb start-up check (R299, R301, R527): comb A when it passes, comb B otherwise; with neither the die is held off.
The search of the enabled ports begins. -/
def execCombStartupCheck (d : DieId) (aDev bDev : List Int) (aPow bPow : Int) (s : State) :
    Host.Outcome State Fault Refusal :=
  let x := s.die d
  let aOk := x.fab.combPasses d 0 aDev aPow
  let bOk := x.fab.combPasses d 1 bDev bPow
  if x.svc.state ≠ .starting ∨ !x.rails.vana then .next s
  else
    let s1 := s.modDie d fun x => { x with fab := { x.fab with
      combB := !aOk, failedA := !aOk, failedB := !bOk, standbyGone := false, failover := false, combLost := false } }
    if !aOk ∧ !bOk then .next (s1.holdOff d 4)
    else .next ((List.range 16).foldl (fun s p =>
      if s.portOn d p then s.modPort d p fun x => if x.state = .off then { x with state := .search } else x else s) s1)

/-- Loss of the active comb is declared after 8 consecutive samples more than 3 dB below its reference (R300, R302). -/
def execCombLoss (d : DieId) (samples : List Int) (s : State) : Host.Outcome State Fault Refusal :=
  let f := (s.die d).fab
  if !(s.die d).rails.vana ∨ f.combLost ∨ samples.length < 8 ∨
      !(samples.drop (samples.length - 8)).all (f.combLow d (b2n f.combB)) then .next s
  else .next (s.combLossNow d)

/-- The standby comb becomes unavailable, or available again (R302): by its stage-1 power and by how far, in MHz, its lines lie
from the matching active ones. -/
def execStandbyUnavailable (d : DieId) (pow : Int) (offs : List Int) (s : State) : Host.Outcome State Fault Refusal :=
  let f := (s.die d).fab
  let gone := f.combLow d (1 - b2n f.combB) pow || offs.any fun x => decide (x < -5000 ∨ 5000 < x)
  .next (s.modDie d fun x => { x with fab := { x.fab with standbyGone := gone } })

/-- The applied duty of a heater (R304): its command and its neighbours' by the crosstalk matrix in force (R307). -/
def Fabric.duty (f : Fabric) (d : DieId) (k : Nat) : Nat :=
  let c (i : Nat) : Int := (Config.xtalkCoeff d k i).toInt + KV.getD f.xtalk (k, i) 0
  let u (i : Nat) : Int := (f.heater (Config.xtalkNeighbour d k i).toNat).u
  let sum := ((List.range 8).map fun i => c i * u i).foldl (· + ·) 0
  if (f.heater k).isOpen then 0 else (clampI 0 16383 ((f.heater k).u + (2 * sum + 16384) / 32768)).toNat

/-- One update of a ring's lock loop (R304, R306): the new command, the applied duties, and the counts that end in a loss of
lock. A searching ring whose error is within bounds has locked again. -/
def execHeaterLoopUpdate (d : DieId) (ring u : Nat) (err : Bool) (s : State) : Host.Outcome State Fault Refusal :=
  let x := s.die d
  if !x.rails.vhtr ∨ 1280 ≤ ring then .next s
  else
    let f1 := x.fab.warmTo s.tray.now
    let f0 : Fabric := { f1 with rings := KV.put x.fab.rings ring { x.fab.heater ring with u := min u 16383 } }
    let f : Fabric := { f0 with rings := f0.rings.map fun (r : Nat × Ring) => (r.1, { r.2 with d := f0.duty d r.1 }) }
    let r := f.heater ring
    let bad := if err then r.bad + 1 else 0
    let sat := if r.d = 0 ∨ r.d = 16383 then r.sat + 1 else 0
    let back := !r.locked && r.searchAt.isSome && !err
    let r1 : Ring := { r with
      bad := bad, sat := sat, locked := r.locked || back, searchAt := if back then none else r.searchAt }
    let s1 := s.modDie d fun x => { x with fab := { f with rings := KV.put f.rings ring r1 } }
    if back then
      let p := ring / 80
      let drop := decide (40 ≤ ring % 80)
      let y := s1.port d p
      .next (s1.lineBack d p drop ((ring % 40 + (if drop then y.shiftRx else y.shiftTx)) % 40))
    else if 10 ≤ bad ∨ 10 ≤ sat then .next (s1.unlockRing d ring)
    else .next s1

/-- The ring that serves a line loses lock (R306). -/
def execRingLockLoss (d : DieId) (port : Fin 16) (drop : Bool) (line : Fin 40) (s : State) :
    Host.Outcome State Fault Refusal :=
  .next (s.unlockRing d ((s.port d port.val).ringNo port.val drop line.val))

/-- A ring has not locked again within 2 ms (R306): its line is failed in that direction. -/
def execRingSearchTimeout (d : DieId) (port : Fin 16) (drop : Bool) (line : Fin 40) (s : State) :
    Host.Outcome State Fault Refusal :=
  let n := (s.port d port.val).ringNo port.val drop line.val
  let r := (s.die d).fab.heater n
  match r.searchAt with
  | none => .next s
  | some t =>
    if r.locked then .next s
    else
      let s1 := (s.advanceTo (t + 2000000)).modDie d fun x => { x with fab := { x.fab with
        rings := KV.put x.fab.rings n { r with searchAt := none } } }
      .next (s1.lineOut d port.val drop line.val .failed true)

/-- The choice of R308: the shift with the fewest unbounded rings, then the least total power, then the least shift. -/
def bestShift (power : List (List (Option Nat))) : Nat :=
  let at_ (r b : Nat) : Option Nat := ((power.getD r []).getD ((r + b) % 40) none)
  let cost (b : Nat) : Nat × Nat :=
    let ps := (List.range 40).map fun r => at_ r b
    ((ps.filter Option.isNone).length, (ps.filterMap id).sum)
  (List.range 40).foldl (fun best b =>
    let x := cost b
    let y := cost best
    if x.1 < y.1 ∨ (x.1 = y.1 ∧ x.2 < y.2) then b else best) 0

/-- The round of a port is running (12.4.1): no port of an earlier round is still to be swept. A port that waits for its far
light holds no round up (R309). -/
def Fabric.roundOf (f : Fabric) (p : Nat) : Bool :=
  (f.ports.take (4 * (p / 4))).all fun q => !(q.state == .search) || (decide (q.swept = 1) && !q.farLight)

/-- A sweep of a port ends (R308): rings are assigned to lines and locked, an unbounded ring is failed. The modulator rings
come first, each port in its round; after the drop rings the port trains (Table 12.4). -/
def execSweepComplete (d : DieId) (port : Fin 16) (drop : Bool) (power : List (List (Option Nat))) (s : State) :
    Host.Outcome State Fault Refusal :=
  let p := port.val
  if (s.port d p).state ≠ .search ∨ !(s.die d).rails.vhtr ∨ (s.port d p).swept ≠ b2n drop ∨
      (if drop then !(s.port d p).farLight else !(s.die d).fab.roundOf p) then .next s
  else
    let b := bestShift power
    let pw (r : Nat) : Option Nat := (power.getD r []).getD ((r + b) % 40) none
    let duty (n w : Nat) : Nat := min 16383 (w * 16384 / (Config.heaterFull d n).toNat)
    let base := 80 * p + 40 * b2n drop
    let st (line : Nat) : LineState := if (pw ((line + 40 - b) % 40)).isSome then .reserve else .failed
    let s1 := s.modDie d fun x => { x with fab := { x.fab with
      rings := (List.range 40).foldl (fun rs r =>
        let o := KV.getD rs (base + r) {}
        match pw r with
        | some w => KV.put rs (base + r) { o with u := duty (base + r) w, locked := true, bad := 0, sat := 0, searchAt := none }
        | none => KV.put rs (base + r) { o with locked := false, searchAt := none }) x.fab.rings } }
    if drop then
      .next ((s1.modPort d p fun x => { x with state := .train, swept := 2, shiftRx := b, rx := (List.range 40).map st }).startTraining d p)
    else .next (s1.modPort d p fun x => { x with swept := 1, shiftTx := b, tx := (List.range 40).map st })

/-- Far light reaches a searching port (R309): its drop rings are swept. -/
def execFarLightArrival (d : DieId) (port : Fin 16) (s : State) : Host.Outcome State Fault Refusal :=
  if (s.port d port.val).state ≠ .search then .next s
  else .next (s.modPort d port.val fun x => { x with farLight := true })

/-! ### Training and port states -/

/-- HELLO (R310). -/
def execHello (d : DieId) (port : Fin 16) (group id farPort : Nat) (serial : List Byte) (s : State) :
    Host.Outcome State Fault Refusal :=
  .next (s.takeHello d port.val group id farPort serial)

/-- LANEMAP (R311). -/
def execLanemap (d : DieId) (port : Fin 16) (seq : Nat) (lines : List Nat) (s : State) : Host.Outcome State Fault Refusal :=
  .next (s.takeLanemap d port.val seq lines)

/-- Line states after the line test (R310): a locked line that passed is usable, one that did not is failed. -/
def testedLines (pass : Nat) (l : List LineState) : List LineState :=
  l.mapIdx fun i st => if st = .unlocked then st else if bit pass i then .reserve else .failed

/-- Training of a port completes (R310, R311, R313), its HELLO exchanged: the lane map is announced, link sequences start
at 0. A die without a baseline records one when all its ports are UP (R319). -/
def execTrainingComplete (d : DieId) (port : Fin 16) (passTx passRx : Nat) (s : State) : Host.Outcome State Fault Refusal :=
  let p := port.val
  let x := s.port d p
  if (x.state ≠ .train ∧ x.state ≠ .down) ∨ !x.helloHeard then .next s
  else
    let tx := testedLines passTx x.tx
    let rx := testedLines passRx x.rx
    let none36 : List (Option Nat) := List.replicate 36 none
    let txm := refitMap tx none36
    let rxm := if x.mapHeard then x.rxMap else refitMap rx none36
    if (usableLines tx).length < 8 ∨ (usableLines rx).length < 8 then
      .next (s.modPort d p fun x => { x with state := .down, downAt := s.tray.now, tx := tx, rx := rx })
    else
      let s1 := (s.modPort d p fun x =>
        let y : Port := { x with
          tx := mapStates txm tx, rx := mapStates rxm rx, txMap := txm, rxMap := rxm, rxNext := none, txSeq := 0, rxSeq := 0,
          nakSent := false, replay := [], labels := [], cal := none }
        { y with state := y.upState }).trainSend d p 0x21 (lanemapBody 0 txm)
      let y := s1.port d p
      let s2 := if y.state = .degraded then
          s1.logDie d 0x3003 [BitVec.ofNat 8 p, BitVec.ofNat 8 (min (mapped txm) (mapped rxm))] else s1
      let s3 := s2.modDie d fun x =>
        let f := { x.fab with combLost := false }
        { x with fab := if f.baseline.isNone && f.ports.all (fun q => q.state == .up) then f.baselineNow else f }
      .next ((s3.drainRecords d p).pumpPort d p)

/-- A retrain completes (R312, R346): the port goes back to its state, and the link sequence resumes at the first
unacknowledged flit. Without light from the lost comb none does (R302). -/
def execRetrainComplete (d : DieId) (port : Fin 16) (s : State) : Host.Outcome State Fault Refusal :=
  let p := port.val
  if (s.port d p).state ≠ .retrain ∨ (s.die d).fab.combLost then .next s
  else
    let low := (s.die d).lowRate
    let s1 := (s.modPort d p fun x => { x with state := if low then .low else x.upState, nakSent := false }).modDie d fun x =>
      { x with fab := { x.fab with failover := false } }
    .next (((s1.resend d p true).drainRecords d p).pumpPort d p)

/-- A port loses framing (R313). -/
def execFramingLoss (d : DieId) (port : Fin 16) (s : State) : Host.Outcome State Fault Refusal :=
  .next (s.portRetrain d port.val)

/-- A port has not left RETRAIN within the port-loss timeout (R313). -/
def execPortLossTimeout (d : DieId) (port : Fin 16) (s : State) : Host.Outcome State Fault Refusal :=
  let x := s.port d port.val
  if x.state ≠ .retrain then .next s
  else .next ((s.advanceTo (x.retrainAt + 1000000 * s.dset d 0x3000 9)).portDown d port.val)

/-- A DOWN port retries its training every 1 s (R313) (log 175, DEDUCED). -/
def execDownPortRetry (d : DieId) (port : Fin 16) (s : State) : Host.Outcome State Fault Refusal :=
  let x := s.port d port.val
  if x.state ≠ .down then .next s
  else
    let s1 := s.advanceTo (x.downAt + 1000000000)
    .next ((s1.modPort d port.val fun x => { x with downAt := s1.tray.now }).startTraining d port.val)

/-- The effect of a write of the port enables (R314): a disabled port is OFF and its flows end; an enabled one trains, or
joins the search when its rings have not been assigned. -/
def State.portEnableApply (s : State) (d : DieId) (v : Nat) : State :=
  let s0 := s.putSetting 0x3000 2 d.val v
  (List.range 16).foldl (fun s p =>
    let x := s.port d p
    if !bit v p then (if x.state = .off then s else s.portOff d p)
    else if x.state = .off ∧ (s.die d).rails.vhtr then
      if x.swept < 2 then s.modPort d p fun x => { x with state := .search }
      else (s.modPort d p fun x => { x with state := .train }).startTraining d p
    else s) s0

/-- PORT_ENABLE_WRITE (R314). -/
def execPortEnableWrite (m : MasterId) (d : DieId) (v : Nat) (s : State) : Host.Outcome State Fault Refusal :=
  .next (s.gate m ⟨0x3000, 2, d.val⟩ (leBytes 2 v) fun s _ w => .done (s.portEnableApply d (leNat w)) 0 true)

/-! ### Calibration and line faults (12.5) -/

/-- A direction of a port has a usable reserve line (R318) (log 184, DEDUCED). -/
def hasReserve (l : List LineState) : Bool := l.any fun y => y == .reserve

/-- The leader starts to calibrate the next line of its rotation, once per calibration interval (R315, R318). -/
def execCalibrationStart (d : DieId) (port : Fin 16) (s : State) : Host.Outcome State Fault Refusal :=
  let p := port.val
  let x := s.port d p
  if !s.leads d p ∨ !(x.state = .up ∨ x.state = .degraded) ∨ x.cal.isSome ∨ (s.die d).svc.holding.isSome ∨
      !hasReserve x.tx ∨ !hasReserve x.rx then .next s
  else
    let line := x.calNext
    let s0 := s.advanceTo (x.calAt + 1000000 * s.dset d 0x3000 8)
    .next (((s0.sendHop d p 0x22 [BitVec.ofNat 8 line, 0#8, 0#8, 0#8]).modPort d p fun x =>
      { x with calNext := (line + 1) % 40, calAt := s0.tray.now }).calOut d p line)

/-- CAL_START arrives (R315). -/
def execCalStart (d : DieId) (port : Fin 16) (line : Nat) (s : State) : Host.Outcome State Fault Refusal :=
  .next (s.takeCalStart d port.val line)

/-- CAL_END (Table 12.6 step 4): the leader sends it when its line test has ended; the other end takes it. -/
def execCalEnd (d : DieId) (port : Fin 16) (line : Nat) (failed : Bool) (s : State) : Host.Outcome State Fault Refusal :=
  let p := port.val
  if (s.port d p).cal.map Prod.fst ≠ some line then .next s
  else if s.leads d p then
    .next ((s.sendHop d p 0x23 [BitVec.ofNat 8 line, BitVec.ofNat 8 (b2n failed), 0#8, 0#8]).calFinish d p line failed)
  else .next (s.calFinish d p line failed)

/-- The hardware timer returns a line at 5 ms (R318). -/
def execCalTimeout (d : DieId) (port : Fin 16) (s : State) : Host.Outcome State Fault Refusal :=
  match (s.port d port.val).cal with
  | none => .next s
  | some (_, t) => .next ((((s.advanceTo (t + 5000000)).stopCal d port.val).refit d port.val false).refit d port.val true)

/-- A line's bit error ratio is too high (R317): it leaves its lane as weak. -/
def execLineBerWeak (d : DieId) (port : Fin 16) (drop : Bool) (line : Fin 40) (s : State) :
    Host.Outcome State Fault Refusal :=
  let x := s.port d port.val
  let st := (if drop then x.rx else x.tx).getD line.val .unlocked
  if !st.usable then .next s else .next (s.lineOut d port.val drop line.val .weak false)

/-- RECORD_BASELINE (R319). -/
def execRecordBaseline (m : MasterId) (d : DieId) (v : Nat) (s : State) : Host.Outcome State Fault Refusal :=
  .next (s.gate m ⟨0x3000, 0xC, d.val⟩ (leBytes 1 v) fun s _ _ =>
    .done (s.modDie d fun x => { x with fab := x.fab.baselineNow }) 0 true)

/-- The 100 ms averages of a port (Table 12.7, R320, R321): an UP port localises losses and sends STATUS. -/
def execStatusSend (d : DieId) (port : Fin 16) (stages stage5 : List Int) (s : State) : Host.Outcome State Fault Refusal :=
  let p := port.val
  let v (i : Nat) : Int := stages.getD i 0
  let r5 := (List.range 40).map fun i => stage5.getD i 0
  let all := [(0, v 0), (1, v 1), (2 + p, v 2), (18 + p, v 3), (34 + p, v 4)] ++ r5.mapIdx fun i a => (50 + 40 * p + i, a)
  let s1 := s.modDie d fun x => { x with fab := x.fab.setMon all }
  if (s.port d p).state ≠ .up then .next s1
  else
    let w (a : Int) : List Byte := leBytes 2 (ofInt 16 a)
    let s2 := if (s.die d).svc.holding.isSome then s1 else s1.localise d p
    .next (s2.sendHop d p 0x24 ([BitVec.ofNat 8 p, 0#8] ++ w (v 3) ++ (r5.map w).flatten))

/-- STATUS (R320, R321). -/
def execStatus (d : DieId) (port : Fin 16) (stage3 : Int) (stage5 : List Int) (s : State) :
    Host.Outcome State Fault Refusal :=
  .next (s.takeStatus d port.val stage3 stage5)

/-! ### Flits (12.7, 12.8) -/

/-- A flit's fixed part (Table 12.9). -/
structure FlitHead where
  ty : Nat
  last : Bool
  ackValid : Bool
  nak : Bool
  seq : Nat
  ack : Nat
  label : Nat
  tenant : Nat
  fseq : Nat
  pay : List Byte

/-- Read a flit; none where the link layer discards it: a bad CRC, a reserved type, a reserved field that is not 0 (R322). -/
def readFlit (b : List Byte) : Option FlitHead :=
  let n (i k : Nat) : Nat := leNat ((b.drop i).take k)
  let h := n 0 1
  if b.length ≠ 256 ∨ n 252 4 ≠ crc32 (b.take 252) ∨ bit h 7 ∨ 4 ≤ h % 16 ∨ 4096 ≤ n 4 2 ∨ 1024 ≤ n 6 2 ∨ 240 < n 11 1 then none
  else some { ty := h % 16, last := bit h 4, ackValid := bit h 5, nak := bit h 6, seq := n 1 3 % 4096, ack := n 1 3 / 4096,
              label := n 4 2, tenant := n 6 2, fseq := n 8 3, pay := (b.drop 12).take (n 11 1) }

/-- What the receiver does with an accepted flit. -/
def State.takeFlit (s : State) (d : DieId) (p : Nat) (f : FlitHead) : State :=
  if f.ty = 1 then s.takeData d p f.last f.label f.tenant f.fseq f.pay
  else if f.ty = 2 then s.takeRecords d p f.pay
  else s.takeClose d p f.label f.tenant f.fseq

/-- A flit cannot be accepted (R323): one NAK names the expected sequence. -/
def State.refuseFlit (s : State) (d : DieId) (p : Nat) : State :=
  if (s.port d p).nakSent then s else (s.modPort d p fun x => { x with nakSent := true }).sendIdle d p true

/-- A flit arrives (R322 to R324, R334, R336). On a port in training only HELLO and LANEMAP mean anything (R310). -/
def execFlitReceive (d : DieId) (port : Fin 16) (bytes : List Byte) (fixed : Nat) (s0 : State) :
    Host.Outcome State Fault Refusal :=
  let p := port.val
  let st := (s0.port d p).state
  let s := s0.modDie d fun x => { x with fab := { x.fab with corrected := satAdd 64 x.fab.corrected fixed } }
  if st = .train ∨ st = .down then
    match readFlit bytes with
    | some f => .next (if f.ty = 2 ∧ ((f.pay.getD 0 0#8) = 0x20#8 ∨ (f.pay.getD 0 0#8) = 0x21#8) then
        s.takeRecords d p f.pay else s)
    | none => .next s
  else if !st.carries then .next s0
  else match readFlit bytes with
    | none => .next (s.refuseFlit d p)
    | some f =>
      let s1 := if f.nak then s.takeNak d p f.ack else if f.ackValid then s.takeAckSeq d p f.ack else s
      let s2 := if f.ackValid ∨ f.nak then (s1.drainRecords d p).pumpPort d p else s1
      if f.ty = 0 then .next s2
      else if f.seq ≠ (s2.port d p).rxSeq then .next (s2.refuseFlit d p)
      else
        let s3 := s2.modPort d p fun x => { x with rxSeq := (x.rxSeq + 1) % 4096, nakSent := false }
        let s4 := match (s3.port d p).rxNext with
          | some (q, m) => if q = (s3.port d p).rxSeq then s3.applyRxMap d p m else s3
          | none => s3
        .next ((s4.sendIdle d p false).takeFlit d p f)

/-- A NAK arrives (R323). -/
def execNakReceive (d : DieId) (port : Fin 16) (seq : Nat) (s : State) : Host.Outcome State Fault Refusal :=
  let p := port.val
  if !(s.port d p).state.carries then .next s
  else .next (((s.takeNak d p seq).drainRecords d p).pumpPort d p)

/-- A flit stays unacknowledged 8 µs after its first transmission (R323): the port retrains. -/
def execReplayTimeout (d : DieId) (port : Fin 16) (s : State) : Host.Outcome State Fault Refusal :=
  let p := port.val
  let x := s.port d p
  match x.replay with
  | [] => .next s
  | r :: _ => if !x.state.carries then .next s else .next ((s.advanceTo (r.2.2 + 8000)).portRetrain d p)

/-! ### Flows (12.9) -/

/-- OPEN (R327). -/
def execOpen (d : DieId) (port : Fin 16) (r : OpenRec) (s : State) : Host.Outcome State Fault Refusal :=
  .next (s.takeOpen d port.val r)

/-- OPEN_DONE (R330). -/
def execOpenDone (d : DieId) (t id allot : Nat) (s : State) : Host.Outcome State Fault Refusal :=
  .next (s.takeOpenDone d t id allot)

/-- CREDIT (R333). -/
def execCredit (d : DieId) (t id n : Nat) (s : State) : Host.Outcome State Fault Refusal := .next (s.takeCredit d t id n)

/-- CLOSE_FLIT (R337). -/
def execCloseFlit (d : DieId) (port : Fin 16) (label t : Nat) (s : State) : Host.Outcome State Fault Refusal :=
  let q := match (s.die d).fab.transitAt port.val label with | some e => e.seq | none => 0
  .next (s.takeClose d port.val label t q)

/-- FLOWLOST (R338) (log 174, DESIGN CHOICE). -/
def execFlowlost (d : DieId) (t id cause : Nat) (s : State) : Host.Outcome State Fault Refusal := .next (s.loseFlow d t id)

/-- TENANT_HALT (R339). -/
def execTenantHalt (d : DieId) (t : Nat) (all : Bool) (ids : List Nat) (s : State) : Host.Outcome State Fault Refusal :=
  .next (s.takeTenantHalt d t all ids)

/-- A control record is taken, forwarded, flooded or discarded (R340, R342). -/
def execControlRecordForward (d : DieId) (port : Option (Fin 16)) (bytes : List Byte) (s : State) :
    Host.Outcome State Fault Refusal :=
  .next ((s.takeRecord d (port.map Fin.val) bytes).serveLends d)

/-- LOWRATE (R345, R346). -/
def execLowrate (d : DieId) (port : Fin 16) (back : Bool) (line : Nat) (s : State) : Host.Outcome State Fault Refusal :=
  .next (s.takeLowrate d port.val back line)

end Sys2Proof.Machine
end

