-- ==== Sys2Proof/Machine/QueueCmds.lean ====
section
/-! DEFINITION. The commands of chapter 18, each for the command at the head of queue q of context (t, h), and the events of
copy engines, zeroing and horizons. A command that waits stays at the head and is tried again. -/

namespace Sys2Proof.Machine
open Sys2Proof

/-- NOP (Table 18.5). -/
def execNopCommand (t h q : Nat) (s : State) : Host.Outcome State Fault Refusal :=
  .next (s.withHead t h q 0x00 fun s _ => s.ends t h q stOk)

/-- BIND of kind 0 (R481, R567, R622): an owned, closed or foreign held granule refuses it; one not yet zeroed makes it
wait; held granules of the tenant come with their contents. -/
def State.bindSram (s : State) (d : DieId) (t h q n first count : Nat) : State :=
  let x := s.die d
  let gs := (List.range count).map fun i => first + i
  let refused (g : Nat) : Bool := x.closed g || match x.til.owner g with
    | .owned _ _ => true
    | .held u => u != t
    | _ => false
  let waits (g : Nat) : Bool := match x.til.owner g with
    | .zeroing | .unready => true
    | _ => false
  if gs.any refused then s.ends t h q stNoMemory
  else if gs.any waits then s.waits t h q
  else
    let o := (s.tenant t).objNo
    (((s.modTenant t fun x => { x with objNo := o + 1 }).modDie d fun x => { x with til := x.til.setOwners first count (.owned t o) }).modCtx
      t h fun c => { c with bindings := KV.put c.bindings n (.sram o first count) }).ends t h q stOk

/-- BIND of kind 2: publish an SRAM object of the context (R483, R282). -/
def State.publish (s : State) (t h q n id : Nat) : State :=
  match s.binding t h n, (s.ctx? t h).bind Ctx.resident with
  | some (.sram o first count), some r =>
    if (KV.get? (s.tenant t).shared id).isSome then s.ends t h q stBadBinding
    else (((s.unloadPlans t h first count).modTenant t fun x => { x with
      shared := KV.put x.shared id ⟨r.1, o, first, count⟩ }).modCtx t h fun c => { c with
        bindings := KV.put c.bindings n (.shared id) }).ends t h q stOk
  | _, _ => s.ends t h q stBadBinding

/-- BIND (Table 18.7, R481, R483). -/
def execBind (t h q : Nat) (s : State) : Host.Outcome State Fault Refusal :=
  .next (s.withHead t h q 0x01 fun s c =>
    let n := c.fld 8 2
    let id := c.fld 12 2
    let used := (s.binding t h n).isSome
    match c.byte 10 with
    | 0 => s.onDie t h q fun s d =>
      if used then s.ends t h q stBadBinding else s.bindSram d t h q n (c.fld 16 2) (c.fld 18 2)
    | 1 =>
      if used then s.ends t h q stBadBinding
      else (s.modCtx t h fun x => { x with bindings := KV.put x.bindings n (.host (c.fld 16 8) (c.fld 24 8)) }).ends t h q stOk
    | 2 => s.publish t h q n id
    | _ => s.onDie t h q fun s d =>
      match KV.get? (s.tenant t).shared id with
      | none => s.ends t h q stBadBinding
      | some o =>
        if used then s.ends t h q stBadBinding
        else if o.die ≠ d.val then s.ends t h q stWrongDie
        else (s.modCtx t h fun x => { x with bindings := KV.put x.bindings n (.shared id) }).ends t h q stOk)

/-- UNBIND (R484, R282). -/
def execUnbind (t h q : Nat) (s : State) : Host.Outcome State Fault Refusal :=
  .next (s.withHead t h q 0x02 fun s c =>
    match (s.ctx? t h).bind Ctx.resident, s.binding t h (c.fld 8 2) with
    | none, _ => s.ends t h q stNotResident
    | _, none => s.ends t h q stBadBinding
    | some r, some b =>
      let d := dieOf r.1
      let inUse := match s.granulesOf t b with
        | some g => s.runTouches d t h g.1 g.2
        | none => false
      if inUse then s.ends t h q stObjectInUse
      else (s.removeBinding d t h (c.fld 8 2)).ends t h q stOk)

/-- RESIDE naming a die (R479, R114): in die states 2 and 3 alone a slot can be free, and a busy die is waited for. -/
def State.resideOn (s : State) (d : DieId) (t h q : Nat) : State :=
  let st := (s.die d).svc.state
  if st ≠ .running ∧ st ≠ .frost then s.ends t h q stNoSlot
  else if s.dieBusy d then s.waits t h q
  else match (s.die d).til.freeSlot with
    | none => s.ends t h q stNoSlot
    | some i => if s.admits d t h then s.place d t h q i else s.ends t h q stNoBudget

/-- The dies in die state 2 or 3 with a free slot (R479). -/
def State.openDies (s : State) : List DieId :=
  (List.finRange 8).filter fun d =>
    ((s.die d).svc.state == .running || (s.die d).svc.state == .frost) && (s.die d).til.freeSlot.isSome

/-- The die that RESIDE with die 0xF takes a slot on (R479, R550): the lowest open one that is not frozen and admits the
context; a frozen one, or one in state 2 of its entry, only when no other does. -/
def State.anyDie (s : State) (t h : Nat) : Option DieId :=
  let ok := s.openDies.filter fun d => s.admits d t h
  (ok.find? fun d => (s.die d).frost.state != .frozen && (s.die d).frost.state != .entering).or ok.head?

/-- RESIDE with die 0xF (R479, R550). -/
def State.resideAny (s : State) (t h q : Nat) : State :=
  match s.anyDie t h with
  | some d => s.resideOn d t h q
  | none => s.ends t h q (if s.openDies.isEmpty then stNoSlot else stNoBudget)

/-- RESIDE (R479). -/
def execReside (t h q : Nat) (s : State) : Host.Outcome State Fault Refusal :=
  .next (s.withHead t h q 0x03 fun s c =>
    let v := c.byte 8
    match (s.ctx? t h).bind Ctx.resident with
    | some r =>
      if v = 0xF ∨ v = r.1 then s.complete t h q stOk 0 (r.1 + 256 * r.2) false else s.ends t h q stAlreadyResident
    | none => if v = 0xF then s.resideAny t h q else s.resideOn (dieOf v) t h q)

/-- End the plans and the copies without a unit in hand of a context's queues with EVICTED (R480). -/
def State.evictRunning (s : State) (d : DieId) (t h : Nat) : State :=
  let runs := (s.die d).til.runs.filter fun r => r.tenant == t && r.handle == h
  let s1 := runs.foldl (fun s r => s.endRun d t h r.queue stEvicted 0) s
  (List.range 8).foldl (fun s q =>
    let s := s.leaveWait d t h q
    match s.headCmd t h q with
    | none => s
    | some c => if c.moving ∧ (s.die d).til.inHand t h q = 0 then s.ends t h q stEvicted else s) s1

/-- Complete every exposed command of one queue of a context that is destroyed: a started one with EVICTED, the others with
NOT_RUN (R480). -/
def State.dropQueue (s : State) (t h q : Nat) : State := go ((s.queue? t h q).map (fun x => x.cmds.length) |>.getD 0) s
where
  go : Nat → State → State
    | 0, s => s
    | n + 1, s => go n (match s.headCmd t h q with
        | none => s
        | some c => s.finishHead t h q
            (if c.refused then stWaitCycle else if c.started.isSome then stEvicted else stNotRun) 0 0 false)

/-- The context leaves its die (R480): plans unloaded, objects destroyed, bindings removed, slot freed; the
ledger charges the part of the interval (09.6). -/
def State.leaveDie (s : State) (d : DieId) (t h : Nat) : State :=
  let bs := ((s.ctx? t h).map fun c => (c.bindings.filter fun b => b.2.inSram).map Prod.fst).getD []
  ((bs.foldl (fun s n => s.removeBinding d t h n) (s.settleCtx d t h)).modCtx t h Ctx.leave).modDie d fun x => { x with til := { x.til with
    slots := x.til.slots.map fun o => if o = some (t, h) then none else o } }

/-- EVICT (R480, R472): it acts once the die can, and completes when the copy units in hand have ended. -/
def execEvict (t h q : Nat) (s : State) : Host.Outcome State Fault Refusal :=
  .next (s.withHead t h q 0x04 fun s c => s.onDie t h q fun s d =>
    let s1 := (s.modHead t h q fun e => { e with started := some (e.started.getD s.tray.now), waitFrom := none }).evictRunning
      d t h
    if (List.range 8).any fun k => 0 < (s1.die d).til.inHand t h k then s1
    else
      let s2 := (s1.leaveDie d t h).ends t h q stOk
      if c.byte 8 % 2 = 1 then
        let s3 := (List.range 8).foldl (fun s k => s.dropQueue t h k) s2
        s3.setCtxs fun cs => KV.del cs (t, h)
      else s2)

/-- A range lies in an object. -/
def inObject (off len size : Nat) : Bool := decide (off + len ≤ size)

/-- COPY (R488, R489): cut into units that the engines take (log 230, DEDUCED). -/
def execCopy (t h q : Nat) (s : State) : Host.Outcome State Fault Refusal :=
  .next (s.withHead t h q 0x05 fun s c =>
    if c.started.isSome then s
    else s.onDie t h q fun s d =>
      match s.binding t h (c.fld 8 2), s.binding t h (c.fld 10 2) with
      | some (.host ..), some (.host ..) => s.ends t h q stBadBinding
      | some _, some (.shared _) => s.ends t h q stReadOnly
      | some a, some b =>
        if !inObject (c.fld 16 8) c.length (s.sizeOf t a) ∨ !inObject (c.fld 24 8) c.length (s.sizeOf t b) then
          s.ends t h q stRange
        else (s.modHead t h q fun e => { e with
          started := some s.tray.now, waitFrom := none, units := c.total, nextUnit := 0 }).feedEngines d
      | _, _ => s.ends t h q stBadBinding)

/-- SCRUB (R486). -/
def execScrub (t h q : Nat) (s : State) : Host.Outcome State Fault Refusal :=
  .next (s.withHead t h q 0x0C fun s c =>
    if c.started.isSome then s
    else s.onDie t h q fun s d =>
      match s.binding t h (c.fld 8 2) with
      | some (.sram o first count) =>
        if !inObject (c.fld 16 8) c.length (s.sizeOf t (.sram o first count)) then s.ends t h q stRange
        else if c.total = 0 then s.ends t h q stOk
        else (s.modHead t h q fun e => { e with
          started := some s.tray.now, waitFrom := none, units := c.total, nextUnit := 0 }).feedEngines d
      | some (.shared _) => s.ends t h q stReadOnly
      | _ => s.ends t h q stBadBinding)

/-- A copy engine finishes its unit (R489, R480, R485) and takes the next one (log 51, DEDUCED). -/
def execCopyUnitDone (d : DieId) (e : Fin 8) (data : HostRead) (s : State) : Host.Outcome State Fault Refusal :=
  let x := (s.die d).til
  match (x.engines.getD e.val {}).unit with
  | none => .next s
  | some (t, h, q, k) =>
    if !(s.die d).rails.vcore ∨ !(s.die d).clk.enables.getLsbD 14 then .next s
    else
      let s1 := s.modDie d fun x => { x with til := { x.til with
        engines := x.til.engines.modify e.val fun g => { g with unit := none }
        unitsMoved := satAdd 64 x.til.unitsMoved 1 } }
      match s.headCmd t h q with
      | none => .next (s1.feedEngines d)
      | some c =>
        let fromHost := c.op == 0x05 && match s.binding t h (c.fld 8 2) with
          | some (.host ..) => true
          | _ => false
        match data, fromHost with
        | .fault det, true => .next (((s1.dropUnits d t h q).complete t h q stHostFault det 0 false).feedEngines d)
        | data, _ =>
          let bytes := match data with | .data bs => bs | .fault _ => []
          let s2 := ((s1.countUnit d t h q c k).moveUnit d e.val t h c k bytes).modHead t h q fun c => { c with units := c.units - 1 }
          let evicted := ((s2.ctx? t h).map Ctx.evicting).getD false
          .next ((if c.units ≤ 1 then s2.ends t h q stOk
            else if evicted ∧ (s2.die d).til.inHand t h q = 0 then s2.ends t h q stEvicted
            else s2).feedEngines d)

/-- Place the scores of a container in their stores (R273) (log 232, DEDUCED). -/
def State.placeScores (s : State) (d : DieId) (c : Container) : State :=
  (List.zip (c.scores.mapIdx fun i p => (i, p)) c.plan.stores).foldl (fun s (e : (Nat × Nat × Nat) × Nat) =>
    s.sramWrite d (lineAddr (c.plan.tile (e.1.1 % max 1 c.plan.w) (e.1.1 / max 1 c.plan.w)) e.2)
      ((c.bytes.drop e.1.2.1).take (16 * e.1.2.2))) s

/-- LOAD_PLAN (R492, R281, R273): the scores move in copy units, counted here. The contour checks of R93, R197 and R217 have
no code: the detail is then a free value (log 232, DEDUCED). -/
def execLoadPlan (t h q : Nat) (container : HostRead) (s : State) : Host.Outcome State Fault Refusal :=
  .next (s.withHead t h q 0x06 fun s c => s.onDie t h q fun s d =>
    if !s.copies d then s.waits t h q
    else match s.binding t h (c.fld 8 2), s.ctx? t h with
    | some (.host _ len), some x =>
      let slot := c.byte 10
      if (s.die d).til.runs.any fun r => r.tenant == t && r.handle == h && r.slot == slot then s.ends t h q stObjectInUse
      else match container with
        | .fault det => s.complete t h q stHostFault det 0 false
        | .data bytes =>
          let k := containerOf bytes
          if !inObject (c.fld 16 8) (max 128 k.len) len then s.ends t h q stRange
          else match k.firstFail t x.owns (s.shares t x) with
            | some code =>
              let s' := s.takeFree
              if code = 0xFF then s'.2.complete t h q stMalformed ((Config.freeWord s'.1).toNat % 65536) 0 false
              else s.complete t h q stMalformed code 0 false
            | none =>
              let n := (k.scores.map fun p => ceilDiv (16 * p.2) 4096).sum
              (((s.placeScores d k).modDie d fun x => { x with til := { x.til with
                unitsMoved := satAdd 64 x.til.unitsMoved n } }).modCtx t h fun x => { x with
                  plans := KV.put x.plans slot k.plan }).complete t h q stOk 0 k.plan.hash false
    | _, _ => s.ends t h q stBadBinding)

/-- A bank under recalibration that a RUN_PLAN needs is taken out of it and blanked (R368, R366). -/
def State.abandonRecal (s : State) (d : DieId) (mask : Nat) : State :=
  let f (i : Nat) (b : Bank) : Bank := if bit mask i ∧ b.state = .recal then b.blank s.tray.now true else b
  s.modDie d fun x => { x with sct := { x.sct with
    banks := x.sct.banks.mapIdx f
    blankings := satAdd 64 x.sct.blankings
      ((List.range 8).filter fun i => bit mask i && (x.sct.banks.getD i {}).state == .recal).length } }

/-- A RUN_PLAN of a loaded plan on a die that takes commands (R493, R202, R364, R569). -/
def State.tryRun (s : State) (d : DieId) (t h q : Nat) (c : Cmd) (p : Plan) : State :=
  let x := s.die d
  let dead (i : Nat) : Bool :=
    bit p.bankMask i && ((x.sct.banks.getD i {}).state == .failed || (x.sct.banks.getD i {}).state == .gated)
  if !x.mer.member then (s.leaveWait d t h q).ends t h q stMeridianLost
  else if (List.range 8).any dead then (s.leaveWait d t h q).ends t h q stScoutUnavailable
  else
    let s1 := s.abandonRecal d p.bankMask
    if !s1.mayStart d t h q p then s1.waitRun d t h q
    else if s.setting 0x1400 2 0xF = 1 ∧ !s.tray.hold.available ∧ s.tray.fw.trayReady then
      (s1.leaveWait d t h q).ends t h q stHoldupRequired
    else s1.startRun d t h q c p

/-- RUN_PLAN (R493). -/
def execRunPlan (t h q : Nat) (s : State) : Host.Outcome State Fault Refusal :=
  .next (s.withHead t h q 0x07 fun s c =>
    match s.ctx? t h with
    | none => s
    | some x => match x.resident with
      | none => s.ends t h q stNotResident
      | some r =>
        let d := dieOf r.1
        if (s.die d).til.runs.any fun r => r.is t h q then s
        else match KV.get? x.plans (c.byte 8) with
          | none => (s.leaveWait d t h q).ends t h q stPlanNotLoaded
          | some p => if s.dieBusy d then s.waitRun d t h q else s.tryRun d t h q c p)

/-- HALT_PLAN (R494, R288). -/
def execHaltPlan (t h q : Nat) (s : State) : Host.Outcome State Fault Refusal :=
  .next (s.withHead t h q 0x08 fun s c => s.onDie t h q fun s d =>
    let s1 := match (s.die d).til.runs.find? fun r => r.tenant == t && r.handle == h && r.slot == c.byte 8 with
      | some r => s.endRun d t h r.queue stHalted 0
      | none => s
    s1.ends t h q stOk)

/-- SIGNAL (R495, R496, R500). -/
def execSignal (t h q : Nat) (s : State) : Host.Outcome State Fault Refusal :=
  .next (s.withHead t h q 0x09 fun s c =>
    let e := c.fld 8 2
    if s.eventCount t ≤ e then s.ends t h q stBadEvent
    else
      let old := s.event t e
      let new : Event := { value := max old.value (c.fld 16 8), errored := old.errored && c.byte 10 != 1 }
      (if new = old then s else s.setEvent t e new).complete t h q stOk 0 new.value false)

/-- WAIT (R497). -/
def execWait (t h q : Nat) (s : State) : Host.Outcome State Fault Refusal :=
  .next (s.withHead t h q 0x0A fun s c =>
    let e := c.fld 8 2
    let v := s.event t e
    if s.eventCount t ≤ e then s.ends t h q stBadEvent
    else if v.errored then s.ends t h q stEventErrored
    else if c.fld 16 8 ≤ v.value then s.complete t h q stOk 0 v.value false
    else (s.waits t h q).modHead t h q fun c => { c with started := some (c.started.getD s.tray.now) })

/-- QUERY (R507, R508). -/
def execQuery (t h q : Nat) (s : State) : Host.Outcome State Fault Refusal :=
  .next (s.withHead t h q 0x0B fun s c =>
    match s.binding t h (c.fld 8 2) with
    | some (.host addr len) =>
      let off := c.fld 16 8
      if !inObject off 128 len then s.ends t h q stRange
      else
        let rec_ := if c.byte 10 = 2 then s.queryHeld (dieOf (c.byte 11)) t (c.fld 12 2) else s.queryCtx t h (c.byte 10 = 0)
        (match s.fnOf t with
          | some f => s.hostWrite f (addr + off) rec_
          | none => s).ends t h q stOk
    | _ => s.ends t h q stBadBinding)

/-- FENCE (R501): it waits for every command of the other queues of its mask that was exposed before it started; with resume
it clears the fault of its queue. -/
def execFence (t h q : Nat) (s : State) : Host.Outcome State Fault Refusal :=
  .next (s.withHead t h q 0x0D fun s c =>
    let bell := c.fence.getD (s.tenant t).bells
    let held := (List.range 8).any fun k => k != q && bit (c.byte 8) k &&
      (((s.queue? t h k).map fun y => y.cmds.any fun e => decide (e.bell ≤ bell)).getD false)
    if held then
      (s.waits t h q).modHead t h q fun c => { c with started := some (c.started.getD s.tray.now), fence := some bell }
    else (if c.isResume then s.modQueue t h q fun y => { y with faulted := false } else s).ends t h q stOk)

/-- A queued granule has been zeroed: it is free (R465, R481). -/
def execGranuleZeroed (d : DieId) (g : Nat) (s : State) : Host.Outcome State Fault Refusal :=
  let x := s.die d
  let due := match x.til.owner g with
    | .zeroing | .unready => true
    | _ => false
  if !due ∨ !x.rails.vcore ∨ 16384 ≤ g then .next s
  else .next ((s.sramZero d (65536 * g) 65536).modDie d fun x => { x with til := x.til.setOwner g .free })

/-- The commands whose waits the horizon ends (R506, R549). -/
def Cmd.horizonEnds (c : Cmd) : Bool := c.waitFrom.isSome && (c.op == 0x0A || c.op == 0x0D || c.started.isNone)

/-- The die that a waiting command needs: the context's, or the one its RESIDE takes a slot on (R549, R550). -/
def State.waitDie (s : State) (t h : Nat) (c : Cmd) : Option DieId :=
  match (s.ctx? t h).bind Ctx.resident with
  | some r => some (dieOf r.1)
  | none =>
    if c.op ≠ 0x03 then none
    else if c.byte 8 < 8 then some (dieOf (c.byte 8))
    else s.anyDie t h

/-- The wait horizon of a queue has passed (R506): it does not run while the die that the command needs is frozen. -/
def execWaitHorizonExpire (t h q : Nat) (s : State) : Host.Outcome State Fault Refusal :=
  match s.headCmd t h q, s.queue? t h q with
  | some c, some y =>
    let die := s.waitDie t h c
    let frozen : Bool := match die with
      | some d => (s.die d).frost.state == .frozen
      | none => false
    match c.waitFrom with
    | none => .next s
    | some at_ =>
      if !c.horizonEnds ∨ frozen then .next s
      else
        let horizon := 1000000 * (if y.horizon = 0 then 2000 else y.horizon)
        let s1 := s.advanceTo (at_ + horizon)
        .next ((match die with
          | some d => s1.leaveWait d t h q
          | none => s1).ends t h q stWaitExpired)
  | _, _ => .next s

end Sys2Proof.Machine
end

