-- ==== Sys2Proof/Machine/ScoutEvents.lean ====
section
/-! DEFINITION. Events of the scout banks (chapter 13). -/

namespace Sys2Proof.Machine
open Sys2Proof

/-- A bank fails (R358, R372): while a plan holds it the failure is marked at the plan's end. -/
def State.failBank (s : State) (d : DieId) (b : Nat) : State :=
  let k := (s.die d).sct.banks.getD b {}
  if k.state = .failed ∨ k.state = .gated ∨ k.failPending then s
  else
    let s1 := s.modBank d b fun k => if k.state = .held then { k with failPending := true }
      else { k with state := .failed, holder := none }
    s1.logDie d 0x3101 [BitVec.ofNat 8 b]

/-- The 10 µs update of a bank's reference rings (R351, R358, R369, R370). -/
def execRefRingUpdate (d : DieId) (b : Fin 8) (change : List Int) (locked : Bool) (s : State) :
    Host.Outcome State Fault Refusal :=
  let k := (s.die d).sct.banks.getD b.val {}
  if locked then
    .next (s.modBank d b.val fun k => { k with refSum := k.refSum + ((change.take 4).foldl (· + ·) 0), window := false })
  else if k.window then .next s
  else .next (s.failBank d b.val)

/-- The highest reading of a bank's photonic-region sensors, a failed one left out (R357, R157) (log 186, DESIGN CHOICE). -/
def State.bankTemp (s : State) (d : DieId) (b : Nat) : Option Int :=
  maxOf ((List.range 16).filterMap fun i =>
    let x := (s.die d).heat.sensor (544 + i)
    if (Config.bankSensors d b).getLsbD i && !x.failed then x.last else none)

/-- The 1 ms measurement of a bank's tap power, with the temperature of its sensors (R357, R358, R369). -/
def execTapPowerMeasure (d : DieId) (b : Fin 8) (dbm : Int) (s : State) : Host.Outcome State Fault Refusal :=
  let s1 := s.modBank d b.val fun k =>
    let k := { k with tap := dbm, tapT := (s.bankTemp d b.val).getD k.tapT }
    { k with degraded := decide (600 < k.loss d b.val), dark := decide (1200 < k.loss d b.val) }
  .next (if ((s1.die d).sct.banks.getD b.val {}).dark then s1.failBank d b.val else s1)

/-- A bank with new calibration tables (R351, R368). -/
def Bank.calibrated (k : Bank) (d0 gain : List Nat) (free : Nat) (now : Ns) : Bank :=
  { k with d0 := d0, gain := gain, refSum := 0, calAt := now, refines := free :: k.refines, tapBase := k.tap }

/-- A recalibration of a free bank ends (R368, R372), once per interval, or on the command: it rebuilds the tables; a bank that does not pass is failed. A failed
bank returns only by passing one at a die warm reset or start. A holding pattern pauses recalibration. -/
def execBankRecalibration (d : DieId) (b : Fin 8) (d0 gain : List Nat) (pass : Bool) (s : State) :
    Host.Outcome State Fault Refusal :=
  let x := s.die d
  let k := x.sct.banks.getD b.val {}
  let may := k.state == .free || k.state == .recal || (k.state == .failed && x.sct.tablesBuilt && x.svc.warm)
  if !may ∨ x.svc.holding.isSome then .next s
  else if !pass then
    .next ((s.modBank d b.val fun k => if k.state = .recal then { k with state := .free } else k).failBank d b.val)
  else
    let s1 := if k.state = .free then s.advanceTo (k.calAt + 1000000 * s.dset d 0x3100 9) else s
    .next ((s1.skipFree 9216).modBank d b.val fun k =>
      { (k.calibrated d0 gain s.fresh s1.tray.now) with state := .free })

/-- The effect of the command 0x3100:0A (R368): the free banks of the mask go into recalibration. -/
def State.recalApply (s : State) (d : DieId) (v : Nat) : State :=
  let f (i : Nat) (k : Bank) : Bank := if bit v i ∧ k.state = .free then { k with state := .recal } else k
  s.modDie d fun x => { x with sct := { x.sct with banks := x.sct.banks.mapIdx f } }

/-- RECALIBRATE_NOW (R368). -/
def execRecalibrateNow (m : MasterId) (d : DieId) (v : Nat) (s : State) : Host.Outcome State Fault Refusal :=
  .next (s.gate m ⟨0x3100, 0xA, d.val⟩ (leBytes 1 v) fun s _ w => .done (s.recalApply d (leNat w)) 0 true)

/-- The scout calibration tables are built at start-up, all banks in parallel (13.2, Table 19.1 step 13) (log 181, DEDUCED). -/
def execScoutCalibrationTablesBuilt (d : DieId) (d0 gain : List (List Nat)) (s : State) :
    Host.Outcome State Fault Refusal :=
  let x := s.die d
  if x.svc.state ≠ .starting ∨ !x.rails.vhtr ∨ x.sct.tablesBuilt then .next s
  else
    let free := s.fresh
    .next ((s.skipFree 73728).modDie d fun x => { x with sct := { x.sct with
      tablesBuilt := true
      banks := x.sct.banks.mapIdx fun i (k : Bank) =>
        { (k.calibrated (d0.getD i []) (gain.getD i []) (free + 9216 * i) s.tray.now) with
          state := if x.clk.enables.getLsbD (6 + i) then .free else .gated } } })

end Sys2Proof.Machine
end

