-- ==== Sys2Proof/Machine/ServiceEvents.lean ====
section
/-! DEFINITION. Emergencies from elsewhere, the moraine, tile remap, diagnoses and boundary scan (02.7, 22.4, chapter 23). -/

namespace Sys2Proof.Machine
open Sys2Proof

/-- EMERGENCY (R601). -/
def execEmergency (d : DieId) (r : EmergencyRec) (s : State) : Host.Outcome State Fault Refusal := .next (s.takeEmergency d r)

/-! ### The moraine (R612 to R616) -/

/-- The order of reports of equal stamp: the tray first, then the dies in index order (R614). -/
def sourceRank (source : Nat) : Nat := if source < 8 then source + 1 else 0

/-- A report takes the next sequence and the slot it names (R613), or raises the repeat count of its source's newest entry
(R615). -/
def Moraine.assign (m : Moraine) (r : Report) : Moraine :=
  let merges : Option Nat := match m.entries.find? fun e => e.2.source == r.source with
    | some e => if e.2.code = r.code ∧ r.stamp ≤ e.2.stamp + 1000000000 then some e.1 else none
    | none => none
  match merges with
  | some n => { m with entries := m.entries.map fun e =>
      if e.1 = n then (e.1, { e.2 with repeats := satAdd 16 e.2.repeats 1 }) else e }
  | none => { m with entries := ((m.next, r) :: m.entries).take 4096, next := (m.next + 1) % 2 ^ 32 }

/-- MORAINE_ASSIGN (R614): 2 ms after the oldest stamp that waits, every report that old takes its sequence, in ascending
order of stamp and source (log 272, DEDUCED). -/
def execMoraineAssign (s : State) : Host.Outcome State Fault Refusal :=
  match s.tray.mor.reports with
  | [] => .next s
  | r :: rs =>
    if !s.tray.fw.running ∨ s.tray.fw.restarting then .next s
    else
      let first := (rs.map Report.stamp).foldl min r.stamp
      let s1 := s.modTray fun y => { y with now := y.now + (first + 2000000 - s.accNow) }
      let old (q : Report) : Bool := decide (q.stamp + 2000000 ≤ s1.accNow)
      let due := sortBy Report.stamp (sortBy (fun (q : Report) => sourceRank q.source) ((r :: rs).filter old))
      .next (s1.modTray fun y => { y with
        mor := due.foldl Moraine.assign { y.mor with reports := y.mor.reports.filter fun q => !old q } })

/-! ### Tiles (R620 to R624) -/

/-- The effect of 0x6000:09 (R620, R624) (log 270, DEDUCED). -/
def State.remapApply (s : State) (d : DieId) (v : Nat) : GateResult :=
  let x := s.die d
  if x.til.rowMap.getD (v / 16) 16 ≠ 16 ∨ x.tileFailed v then .refused rcOutOfRange 0 s
  else .done (s.failTile d v) 0 true

/-- REMAP_TILE (R620). -/
def execRemapTile (m : MasterId) (d : DieId) (v : Nat) (s : State) : Host.Outcome State Fault Refusal :=
  .next (s.gate m ⟨0x6000, 9, d.val⟩ (leBytes 1 v) fun s _ w => s.remapApply d (leNat w))

/-- The quiescent point of the remap of logical tile L (R623). -/
def Die.quiescent (x : Die) (L : Nat) : Bool :=
  let tiles := (List.range 128).filter fun M => affected L M
  x.rails.vcore && (tiles.all fun M => (List.range 128).all fun i => x.til.owner (128 * M + i) == .free) &&
    x.til.runs.all fun r => r.plan.tiles.all fun M => !affected L M

/-- TILE_REMAP (R623): the first remap at its quiescent point is carried out when the spare passes its test; a spare that
fails leaves the row without one (log 122, DEDUCED) (log 270, DEDUCED). -/
def execTileRemap (d : DieId) (pass : Bool) (s : State) : Host.Outcome State Fault Refusal :=
  let x := s.die d
  match x.svc.remap.find? fun L => x.quiescent L with
  | none => .next s
  | some L =>
    let y := L / 16
    let rest := x.svc.remap.filter fun M => M != L
    if !pass then
      .next (s.modDie d fun x => { x with svc := { x.svc with
        remap := rest, failedTiles := x.svc.failedTiles ||| BitVec.twoPow 136 (16 + 17 * y) } })
    else
      let c := x.til.phys L % 17
      let lo := 128 * L
      let n := 128 * (16 * (y + 1)) - lo
      let s1 := s.sramFree d (65536 * lo) (65536 * n)
      let s2 := s1.modDie d fun x => { x with
        til := { x.til.setOwners lo n .free with rowMap := x.til.rowMap.set y c }
        heat := x.heat.renumber x.til.rowMap (x.til.rowMap.set y c)
        svc := { x.svc with
          remap := rest, spares := x.svc.spares + 1
          poisonLogged := x.svc.poisonLogged.filter fun g => !(decide (lo ≤ g ∧ g < lo + n))
          poisonTimes := x.svc.poisonTimes.filter fun p => !affected L p.1 } }
      .next (s2.logDie d 0x6003 [BitVec.ofNat 8 L, BitVec.ofNat 8 ((s2.die d).til.phys L)])

/-! ### Diagnoses (R629 to R631) -/

/-- LED_DIAGNOSIS (R629): the current of each indicator at the end of its pulse, in % of its set current; below 50 % the diagnosis
of this second fails. Three failures in a row set an indicator's bit, three passes clear it. -/
def execLedDiagnosis (currents : List Nat) (s : State) : Host.Outcome State Fault Refusal :=
  let step (s : State) (i : Nat) : State :=
    let v := s.tray.ind
    let bad := decide (currents.getD i 100 < 50)
    let f := if bad then v.fails.getD i 0 + 1 else 0
    let p := if bad then 0 else v.passes.getD i 0 + 1
    let was := v.openLoads.getLsbD i
    let is := if 3 ≤ f then true else if 3 ≤ p then false else was
    let one : BitVec 11 := BitVec.twoPow 11 i
    let s1 := s.modTray fun y => { y with ind := { y.ind with
      fails := y.ind.fails.set i (min f 3), passes := y.ind.passes.set i (min p 3)
      openLoads := if is then y.ind.openLoads ||| one else y.ind.openLoads &&& ~~~one } }
    if is = was then s1 else s1.logTray 0x1501 [BitVec.ofNat 8 i, BitVec.ofNat 8 (b2n is)]
  .next ((List.range 11).foldl step s)

/-- A heater is marked open (R630, R631): a link ring loses its line, a scout ring its bank. -/
def State.heaterOpens (s : State) (d : DieId) (ring : Nat) : State :=
  let s1 := s.modDie d fun x => { x with fab := { x.fab.warmTo s.tray.now with
    rings := KV.put x.fab.rings ring { x.fab.heater ring with isOpen := true, u := 0, d := 0, locked := false, searchAt := none } } }
  if ring < 1280 then
    let p := ring / 80
    let drop := decide (40 ≤ ring % 80)
    let y := s1.port d p
    (s1.logDie d 0x6005 ([BitVec.ofNat 8 p] ++ leBytes 2 (ring % 80))).lineOut d p drop
      ((ring % 40 + (if drop then y.shiftRx else y.shiftTx)) % 40) .failed true
  else
    let b := (ring - 1280) / 1192
    (s1.logDie d 0x6005 ([BitVec.ofNat 8 b] ++ leBytes 2 ((ring - 1280) % 1192))).failBank d b

/-- A heater's diagnosis fails (R630): from duty 6,554 on the measured current in µA lies below 25 % of full power over VHTR; below
it the 100 µA probe has reached its compliance of 2.5 V, `meas` in mV. -/
def heaterBad (d : DieId) (ring duty meas : Nat) : Bool :=
  if 6554 ≤ duty then decide (4 * 3300 * meas < 1000 * (Config.heaterFull d ring).toNat) else decide (2500 ≤ meas)

/-- The applied duty of a heater (R304): link rings first, then 1,192 rings of each scout bank. -/
def Die.heaterDuty (x : Die) (d : DieId) (ring : Nat) : Nat :=
  if ring < 1280 then (x.fab.heater ring).d
  else (x.sct.banks.getD ((ring - 1280) / 1192) {}).appliedDuty d ((ring - 1280) / 1192) ((ring - 1280) % 1192)

/-- HEATER_DIAGNOSIS (R630, R631): heaters 0 to 1,279 are link rings, 1,280 + 1,192 b + r ring r of scout bank b. -/
def execHeaterDiagnosis (d : DieId) (ring meas : Nat) (s : State) : Host.Outcome State Fault Refusal :=
  let x := s.die d
  let r := x.fab.heater ring
  if 10816 ≤ ring ∨ !x.rails.vhtr ∨ r.isOpen then .next s
  else
    let n := if heaterBad d ring (x.heaterDuty d ring) meas then r.openFails + 1 else 0
    let s1 := s.modDie d fun x => { x with fab := { x.fab with rings := KV.put x.fab.rings ring { r with openFails := n } } }
    .next (if n < 3 then s1 else s1.heaterOpens d ring)

/-! ### Boundary scan -/

/-- TDO is at high impedance (R27): no Expert session is open, and TCK, TMS, TDI and TRST_n are ignored. -/
def State.tdoOff (s : State) : Bool := !s.tapServed

/-- BOUNDARY_SCAN_INSTRUCTION (R27). -/
def execBoundaryScanInstruction (i : TapInstr) (s : State) : Host.Outcome State Fault Refusal :=
  if s.tdoOff then .next s
  else .next (s.modTray fun y => { y with pow := { y.pow with tap := if s.tapAllows i then i else .bypass } })

end Sys2Proof.Machine
end

