-- ==== Sys2Proof/Machine/LegendOps.lean ====
section
/-! DEFINITION. What writes of the Legend's own objects and of the clock objects do (03.2, 03.5, 03.6, 14.5), and the end of an
Expert session (R387, R419). -/

namespace Sys2Proof.Machine
open Sys2Proof

/-! ### Clock objects -/

/-- A write of the preferred reference (R38): always stored; RL relocks only to a ready input. -/
def State.preferredApply (s : State) (d : DieId) (v : Nat) : GateResult :=
  let r : RefIn := if v = 0 then .xa else .xb
  let f (c : Clk) : Clk :=
    let c := { c with preferred := r }
    if c.relockTo.isSome then { c with switchStatus := 2 }
    else if c.refInUse = r ∧ !c.holdover then c
    else if c.refReady r then { c with relockTo := some r, switchStatus := 2 }
    else { c with switchStatus := 1 }
  .done (s.modClk d f) 0 true

/-- A bank follows its clock enable (R373): a held or blanking bank is gated when it becomes free (log 114, DEDUCED). -/
def Bank.enable (k : Bank) (on : Bool) : Bank :=
  if on then (if k.state = .gated then { k with state := .free } else { k with gatePending := false })
  else match k.state with
    | .free | .recal => { k with state := .gated }
    | .held | .blanking => { k with gatePending := true }
    | .failed | .gated => k

/-- A write of the clock enables (R50, R55): gating stops the survey, the composer and the copies; banks follow R373 (log 114, DEDUCED). -/
def State.enablesApply (s : State) (d : DieId) (v : Nat) : GateResult :=
  let s1 := s.modDie d fun x => { x with
    clk := { x.clk with enables := BitVec.ofNat 32 v }
    srv := if bit v 1 then x.srv else { x.srv with running := none }
    cmp := if bit v 4 then x.cmp else { x.cmp with running := false, frame := none }
    sct := { x.sct with banks := x.sct.banks.mapIdx fun i k => k.enable (bit v (6 + i)) } }
  .done (if bit v 14 then s1.feedEngines d else s1) 0 true

/-- Highest frequency of a CLKMON source in kHz (Table 03.6) (log 100, DESIGN CHOICE). -/
def clkmonKhz : List Nat := [100000, 100000, 412000, 33, 8000000, 2000000, 2000000, 2000000, 34000000, 1000000, 1000000,
  500000, 100000, 1]

/-- A write of CLKMON source or exponent (R56): the output may not exceed 250 MHz (log 100, DESIGN CHOICE). -/
def State.clkmonApply (s : State) (d : DieId) (sub v : Nat) : GateResult :=
  let c := (s.die d).clk
  let src := if sub = 6 then v else c.monSrc
  let k := if sub = 6 then c.monK else v
  if 250000 * 2 ^ k < clkmonKhz.getD src 0 then .refused rcOutOfRange 0 (s.modClk d fun c => { c with switchStatus := 3 })
  else .done (s.modClk d fun c => { c with monSrc := src, monK := k }) 0 true

/-- A write of CLKMON drive (R57): at most one die drives. -/
def State.driveApply (s : State) (d : DieId) (v : Nat) : GateResult :=
  let s1 := if v = 1 then s.allDies fun x => { x with clk := { x.clk with monDrive := false } } else s
  .done (s1.modClk d fun c => { c with monDrive := v == 1 }) 0 true

/-! ### The end of a session -/

/-- Bits of a LAP frame (R421). -/
def frameBits (n : Nat) : Int := 8 * n

/-- One NOTIFY (Table 15.4, R410): it takes the master's next notification sequence, and its size leaves the allowance
(R421). -/
def State.sendNotify (s : State) (m : MasterId) (q : NotifySeg) : State :=
  let body := leBytes 2 q.status ++ leBytes 2 q.no ++ leBytes 8 q.time ++ leBytes 4 q.total ++ leBytes 4 q.off ++ q.data
  let frame := s.tagIt m fun tagged => lapFrame tagged m 7 (s.master m).notifySeq q.key body
  (s.emit (.lap m q.peer frame)).modMaster m fun x => { x with
    notifySeq := (x.notifySeq + 1) % 2 ^ 32, allowance := x.allowance - frameBits frame.length }

/-- The system time of a sample of an object: its die's, or the tray's (Table 15.4). -/
def State.sampleTime (s : State) (k : ObjKey) : Nat := if k.sel < 8 then s.stampTime (dieOf k.sel) else s.trayTime

/-- An Expert session ends (R387), and with the last one the service of the observation connector (R27): the subscriptions of Expert objects end with one NOTIFY each (R419). -/
def State.endSession (s : State) (m : MasterId) : State :=
  if (s.master m).session.isNone then s
  else
    let exp (q : Subscription) : Bool := match findObj q.key.idx q.key.sub with
      | some o => o.expert
      | none => false
    let gone := (s.master m).subs.filter exp
    let s1 := (s.modMaster m fun x => { x with session := none, subs := x.subs.filter fun q => !exp q }).tapHold
    gone.foldl (fun s q => s.sendNotify m ⟨q.peer, q.no, q.key, rcLevelRequired, s.sampleTime q.key, 0, 0, []⟩) s1

/-- The effect of 0x1100:0C (R387). -/
def State.endAllApply (s : State) : GateResult :=
  .done ([(1 : MasterId), 2, 3].foldl (fun s m => s.endSession m) s) 0 true

/-! ### Password, key and tenant map -/

/-- The master's session was opened by challenge and response. -/
def State.bySignature (s : State) (m : MasterId) : Bool := match (s.master m).session with
  | some e => !e.byPassword
  | none => false

/-- A write of the site password (R388): a new salt, and only the hash of salt and password is kept (log 208, DEDUCED). -/
def State.passwordApply (s : State) (m : MasterId) (v : List Byte) : GateResult :=
  if s.tray.leg.password.isNone ∧ !s.bySignature m then .refused rcLevelRequired 0 s
  else
    let (salt, s1) := s.freeBytes 16
    .done (s1.modTray fun y => { y with leg := { y.leg with password := some (salt, sha384 (salt ++ v)) } }) 0 true

/-- A write of the unlock key (R393). -/
def State.keyApply (s : State) (m : MasterId) (v : List Byte) : GateResult :=
  if s.tray.leg.unlockKey.isSome ∧ !s.bySignature m then .refused rcLevelRequired 0 s
  else if !Config.isPoint v then .refused rcOutOfRange 0 s
  else .done (s.modTray fun y => { y with leg := { y.leg with unlockKey := some v } }) 0 true

/-- A write of the tenant map (R436): no tenant number twice. -/
def State.mapApply (s : State) (v : List Byte) : GateResult :=
  let es := (chunksOf 2 v).map leNat
  let ts := es.filter fun e => e != 0xFFFF
  if ts.eraseDups.length ≠ ts.length then .refused rcOutOfRange 0 s
  else s.plainWrite ⟨0x1000, 0x10, 0xF⟩ v

/-- A write of the sealed step (05.5.2). -/
def State.sealedStepApply (s : State) (d : DieId) (v : Nat) : GateResult :=
  let legal := (List.finRange 8).all fun e => s.groupNo e != s.groupNo d || (!(s.die e).mer.member && e != d) || decide (s.ceiling e ≤ v)
  .done ((s.putSetting 0x2000 6 d.val v).modDie d fun x => { x with pow := { x.pow with
    sealedStep := v, sealAbove := x.pow.sealAbove && !legal, sealCeil := if legal then 0 else x.pow.sealCeil } }) 0 true

/-- A write of the hold time (R559): it applies to a running hold, and one that has already passed starts the save at
once. -/
def State.holdApply (s : State) (v : Nat) : GateResult :=
  let s1 := s.putSetting 0x1400 1 0xF v
  .done (if s1.tray.hold.onHoldup ∧ s1.tray.hold.holdAt + 1000000000 * v ≤ s1.accNow then s1.startSave else s1) 0 true

/-! ### The object's own rule, for every object that can be written -/

/-- A write of a tray object. -/
def State.applyTray (s : State) (m : MasterId) (k : ObjKey) (v : List Byte) : GateResult :=
  let n := leNat v
  let o := 256 * k.idx + k.sub
  if o = 0x100010 then s.mapApply v
  else if o = 0x110005 then s.passwordApply m v
  else if o = 0x110007 then s.keyApply m v
  else if o = 0x11000C then s.endAllApply
  else if o = 0x120001 then s.trayCapApply n
  else if o = 0x120010 then .done s.powerDown 0 true
  else if o = 0x140001 then s.holdApply n
  else if o = 0x14000C then .done (s.modHold fun h => { h with save := none }) 0 true
  else if o = 0x140010 then s.frostTrayApply
  else if o = 0x140011 then s.thawTrayApply
  else if o = 0x150007 then s.coldResetApply
  else if o = 0x160001 then s.chunkNoApply n
  else if o = 0x160002 then s.chunkApply v
  else if o = 0x160003 then s.stageApply n
  else if o = 0x160004 then s.activateApply
  else s.plainWrite k v

/-- A write of an object of 0x2000 to 0x2600. -/
def State.applyLow (s : State) (m : MasterId) (k : ObjKey) (v : List Byte) : GateResult :=
  let n := leNat v
  let d := dieOf k.sel
  let o := 256 * k.idx + k.sub
  if o = 0x200001 then s.dieCapApply d n
  else if o = 0x200002 then s.boundaryWrite k n
  else if o = 0x200005 then s.divisionApply d n
  else if o = 0x200006 then s.sealedStepApply d n
  else if o = 0x200020 then s.sealedTableApply d v
  else if o = 0x210001 then s.marginApply d n
  else if o = 0x21000D then s.limitWrite k n fun s => s.vsramSet d n
  else if o = 0x23000D then s.clearLatch d
  else if o = 0x250001 ∨ o = 0x250002 then s.groupApply d k.sub n
  else if o = 0x25000E then .done (s.sendLeave d 3) 0 true
  else if o = 0x260005 then s.boundaryWrite k n
  else if o = 0x260010 then s.selectApply d m n
  else if (limitClass k.idx k.sub).isSome then s.limitWrite k n fun s => s
  else s.plainWrite k v

/-- A write of an object of 0x2700 to 0x7000. -/
def State.applyHigh (s : State) (k : ObjKey) (v : List Byte) : GateResult :=
  let n := leNat v
  let d := dieOf k.sel
  let o := 256 * k.idx + k.sub
  if o = 0x270001 then s.surveyNow d
  else if o = 0x27001B then .done (s.modCmp d fun c => { c with checkDue := true }) 0 true
  else if k.idx = 0x2700 then s.composerApply d k.sub v
  else if o = 0x300002 then .done (s.portEnableApply d n) 0 true
  else if o = 0x30000C then .done (s.modDie d fun x => { x with fab := x.fab.baselineNow }) 0 true
  else if o = 0x31000A then .done (s.recalApply d n) 0 true
  else if o = 0x500001 then s.preferredApply d n
  else if o = 0x500005 then s.enablesApply d n
  else if o = 0x500006 ∨ o = 0x500007 then s.clkmonApply d k.sub n
  else if o = 0x500008 then s.driveApply d n
  else if o = 0x600009 then s.remapApply d n
  else if o = 0x60000A then s.warmResetApply d
  else if o = 0x60000B then s.powerCycleApply d
  else if o = 0x700001 then s.frostApply d
  else if o = 0x700002 then .done (s.thawCommand d) 0 true
  else s.plainWrite k v

/-- The rule of the object a checked write names. -/
def State.applyWrite (s : State) (m : MasterId) (k : ObjKey) (v : List Byte) : GateResult :=
  if k.idx < 0x2000 then s.applyTray m k v
  else if k.idx < 0x2700 then s.applyLow m k v
  else s.applyHigh k v

/-! ### The queues -/

/-- The heads of the gate queues, in master order. -/
def State.gateHeads (s : State) : List (MasterId × GateWrite) :=
  (List.finRange 4).filterMap fun m => match (s.master m).queue with
    | w :: _ => some (m, w)
    | [] => none

/-- One tick of the gate over the queues (R395, R396): one write of each master, in ascending master number; writes of one
object meet. -/
def State.gateRound (s : State) : State :=
  match s.gateHeads with
  | [] => s
  | ws =>
    let tick := max (s.tray.now / 1000) (s.tray.leg.lastTick + 1)
    let s1 := (s.advanceTo (1000 * tick)).modTray fun y => { y with leg := { y.leg with lastTick := tick } }
    let s2 := ws.foldl (fun s p => s.popGate p.1) s1
    let keys := (ws.map fun p => p.2.key).eraseDups
    let meet (k : ObjKey) : List (List (MasterId × GateWrite)) :=
      let g := ws.filter fun p => p.2.key == k
      if k.idx = 0x2600 ∧ k.sub = 0x10 then g.map fun p => [p] else [g]
    ((keys.map meet).flatten).foldl (fun s g => match g with
      | [] => s
      | p :: _ => s.gateTick g fun s m v => s.applyWrite m p.2.key v) s2

/-- The gate works its queues off (R398). -/
def State.drainGate (s : State) : State :=
  ((List.range 64).foldl (fun s _ => if s.gateOpen then s.gateRound else s) s).finishReset

/-- A write that a request brings to the gate (R395): it joins its master's queue and is taken in its turn. -/
def State.submit (s : State) (m : MasterId) (w : GateWrite) : State :=
  if !s.tray.fw.running || s.tray.fw.restarting then s else (s.gateQueue m w).drainGate

end Sys2Proof.Machine
end

