-- ==== Sys2Proof/Machine/Flags.lean ====
section
/-! DEFINITION. What every object of the Legend reads as (chapter 16): settings in force, counters, and the status words whose
bits are computed from the state. -/

namespace Sys2Proof.Machine
open Sys2Proof

/-! ### Words -/

/-- A number with the given bits, bit 0 first. -/
def flags (l : List Bool) : Nat := l.foldr (fun b acc => b2n b + 2 * acc) 0

/-- Values of `n` bytes each. -/
def words (n : Nat) (l : List Nat) : List Byte := (l.map fun v => leBytes n v).flatten

/-- Signed 16-bit values. -/
def i16s (l : List Int) : List Byte := words 2 (l.map fun v => ofInt 16 v)

/-- Energy in µJ as U64. -/
def energyBytes (e : Nat) : List Byte := leBytes 8 (min (microJ e) (2 ^ 64 - 1))

/-! ### Indicators (23.6) -/

/-- A row of a die's tile array cannot be repaired on the tray (R624). -/
def Die.unrepairable (x : Die) : Bool :=
  (List.range 128).any fun L => x.tileFailed L && !x.svc.remap.any (fun M => M / 16 == L / 16)

/-- Service is needed (Table 23.8) (log 211, DEDUCED). -/
def State.serviceNeeded (s : State) : Bool :=
  let y := s.tray
  ((List.finRange 8).any fun d =>
    let x := s.die d
    x.svc.heldOff || x.heat.latched || x.unrepairable || x.fab.failedA || x.fab.failedB ||
      (x.rails.vcore && !(x.clk.xaReady && x.clk.xbReady))) ||
    y.pow.converters != 0xF#4 || y.hold.faulted ||
    decide (3 ≤ (y.fw.restarts.filter fun t => decide (y.now < t + 86400000000000)).length)

/-- The pattern of the lowest row that holds (R627); 0 when none does. -/
def lastRow (rows : List (Bool × Nat)) : Nat := rows.foldl (fun p r => if r.1 then r.2 else p) 0

/-- STATUS, LOCATE and HOLDUP (log 211, DEDUCED). -/
def State.trayPatterns (s : State) : List Nat :=
  let y := s.tray
  let up := y.fw.running && !y.pow.down
  let late := match y.pow.busFrom with
    | some t => decide (t + 12000000000 ≤ y.now)
    | none => false
  let need := s.serviceNeeded
  let loc := s.setting 0x1500 1 0xF == 1
  [lastRow [(up && !y.fw.trayReady, 2), (up && y.fw.trayReady && !need, 1),
      (up && ((y.fw.trayReady && need) || (!y.fw.trayReady && late)), 6), (y.fw.bootFailed, 5),
      (y.hold.onHoldup || y.hold.saving, 7)],
   lastRow [(loc, 1), (loc && y.pow.down, 3)],
   lastRow [(!y.hold.available && y.hold.charging, 2), (!y.hold.present || y.hold.faulted, 1), (y.hold.onHoldup, 3)]]

/-- The die fault status 0x6000:0D (16.3.12) (log 213, DEDUCED). -/
def Die.faultStatus (x : Die) : Nat :=
  flags [(List.range 128).any fun L => x.tileFailed L, !x.svc.remap.isEmpty, x.clk.loopA.failed || x.clk.loopB.failed,
    x.droop.masked != 0#64, x.fab.failedA || x.fab.failedB, x.sct.tablesBuilt && x.sct.banks.any (fun k => k.state == .failed),
    x.rails.phases != BitVec.allOnes 26, !x.til.poison.isEmpty]

/-- FAULT of a die. -/
def Die.faultPattern (x : Die) : Nat :=
  let f := x.faultStatus
  lastRow [(x.svc.state == .running && (bit f 0 || bit f 2 || bit f 4 || bit f 5), 2),
    (x.svc.heldOff || x.heat.tripped || x.heat.flowOff, 1), (x.heat.latched, 3)]

/-- The pulse in ns at which indicator i is diagnosed (R628, R629): the on-time of its PWM, stretched to 20 µs when that is shorter or
the indicator is off. -/
def State.ledPulse (s : State) (i : Nat) : Ns :=
  let shown := (s.trayPatterns ++ (List.finRange 8).map fun d => (s.die d).faultPattern).getD i 0
  max 20000 (if shown = 0 then 0 else 2500 * s.setting 0x1500 2 0xF)

/-! ### The moraine (23.2) -/

/-- Class of a moraine code (Table 23.4). -/
def codeClass (code : Nat) (detail : List Byte) : Nat :=
  if code = 0x1202 ∨ code = 0x1204 ∨ code = 0x1402 ∨ code = 0x1602 ∨ code = 0x2203 ∨ code = 0x3004 ∨ code = 0x6006 ∨
    code = 0x7001 then 0
  else if code / 256 = 0x12 ∨ code / 256 = 0x13 ∨ code / 256 = 0x15 ∨ code = 0x1601 ∨ code = 0x1401 then 5
  else if code = 0x2301 ∨ code = 0x2304 ∨ code = 0x2306 ∨ code = 0x2308 ∨ code = 0x2309 ∨ code = 0x6004 then 4
  else if code = 0x2103 ∨ code = 0x2104 ∨ code = 0x2202 ∨ code = 0x2503 ∨ code = 0x2701 ∨ code = 0x3101 ∨ code = 0x6002 ∨
    code = 0x6005 then 3
  else if code = 0x1403 ∨ code = 0x2501 ∨ code = 0x6001 then 2
  else if code = 0x3003 ∧ detail.getD 1 0#8 = 0#8 then 2
  else 1

/-- An entry's 64 bytes (Table 23.3). -/
def Report.bytes (r : Report) (seq : Nat) : List Byte :=
  leBytes 4 seq ++ leBytes 8 r.sysTime ++ leBytes 8 r.stamp ++ [BitVec.ofNat 8 r.source, BitVec.ofNat 8 (codeClass r.code r.detail)] ++
    leBytes 2 r.code ++ leBytes 2 r.repeats ++ List.replicate 6 0#8 ++ (r.detail ++ List.replicate 32 0#8).take 32

/-- A page of the moraine (R437): slots 256p to 256p + 255. -/
def Moraine.page (m : Moraine) (p : Nat) : List Byte :=
  ((List.range 256).map fun i => match m.entries.find? fun e => e.1 % 4096 == 256 * p + i with
    | some e => e.2.bytes e.1
    | none => List.replicate 64 0#8).flatten

/-! ### Tray objects -/

/-- Whole seconds from now to a time. -/
def secsTo (now t : Nat) : Nat := (t - now) / 1000000000

/-- Objects 0x1000 and 0x1100 that are no plain settings. -/
def State.readControl (s : State) (m : MasterId) (idx sub : Nat) : Option (List Byte) :=
  let l := s.tray.leg
  let x := s.master m
  let slot := s.tray.pow.slotLatched
  match idx, sub with
  | 0x1000, 1 => some (ascii "Cerxon")
  | 0x1000, 2 => some (ascii "Krovjor K8")
  | 0x1000, 3 => some (traySerial)
  | 0x1000, 4 => some (leBytes 2 Config.hwRevision.toNat)
  | 0x1000, 5 => some (((List.finRange 8).map dieSerial).flatten)
  | 0x1000, 6 => some (leBytes 1 slot)
  | 0x1100, 1 => some (leBytes 1 (b2n (s.isExpert m)))
  | 0x1100, 2 => some (leBytes 4 (match x.session with | some e => secsTo s.tray.now e.ends | none => 0))
  | 0x1100, 3 => some (leBytes 1 l.pwFailures)
  | 0x1100, 4 => some (leBytes 4 (match l.lockoutEnd with | some t => secsTo s.accNow t | none => 0))
  | 0x1100, 6 => some (leBytes 1 (flags [l.password.isSome, l.unlockKey.isSome, l.lockoutEnd.isSome]))
  | 0x1100, 7 => some (l.unlockKey.getD (List.replicate 97 0#8))
  | 0x1100, 8 => some (leBytes 1 (flags [false, (s.master 1).session.isSome, (s.master 2).session.isSome,
      (s.master 3).session.isSome]))
  | 0x1100, 9 => some (leBytes 4 l.conflicts)
  | 0x1100, 0xA => some (leBytes 4 l.unlockFailures)
  | 0x1100, 0xB => some (leBytes 4 l.busyRefused)
  | 0x1100, 0xE => some (leBytes 4 l.commitFailures)
  | 0x1100, 0x10 => some (leBytes 1 slot)
  | 0x1100, 0x12 => some (leBytes 1 (flags [(s.master 1).plca, (s.master 2).plca, slot == 0]))
  | 0x1100, 0x13 => some (leBytes 4 l.framesDiscarded)
  | 0x1100, 0x14 => some (leBytes 4 l.notifSkipped)
  | 0x1100, 0x15 => some (leBytes 4 l.tagFailures)
  | 0x1100, 0x16 => some (leBytes 1 x.subs.length)
  | _, _ => none

/-- Bits of 0x1400:04 (16.2.5). -/
def State.holdStatus (s : State) : Nat :=
  let h := s.tray.hold
  flags [h.present, h.charging, h.charged, h.onHoldup, !h.available, h.faulted, h.saving, h.save.isSome,
    !h.available && s.setting 0x1400 2 0xF == 0]

/-- Objects 0x1200 to 0x1400 that are no plain settings. -/
def State.readSupply (s : State) (idx sub : Nat) : Option (List Byte) :=
  let p := s.tray.pow
  let c := s.tray.cool
  let h := s.tray.hold
  match idx, sub with
  | 0x1200, 2 => some (leBytes 4 p.effCap)
  | 0x1200, 3 => some (leBytes 4 p.railBudget)
  | 0x1200, 4 => some (leBytes 1 p.trayStep)
  | 0x1200, 5 => some (leBytes 4 p.busPower)
  | 0x1200, 6 => some (leBytes 1 (flags [p.levelActive, p.capSetsStep, p.sharesLate]))
  | 0x1200, 0x20 => some (leBytes 1 p.converters.toNat)
  | 0x1200, 0x21 => some (leBytes 2 (p.bus12Mv / 10))
  | 0x1200, 0x22 => some (leBytes 2 (p.busMv / 10))
  | 0x1200, 0x23 => some (leBytes 4 p.inputMa)
  | 0x1200, 0x24 => some (leBytes 4 (inletCeiling (if c.inletFail then 720 else p.inletT)))
  | 0x1300, 2 => some (leBytes 2 c.flowA)
  | 0x1300, 3 => some (leBytes 2 c.flowB)
  | 0x1300, 4 => some (leBytes 2 (ofInt 16 c.inlet))
  | 0x1300, 5 => some (leBytes 2 c.alarms.toNat)
  | 0x1300, 6 => some [BitVec.ofNat 8 c.valveA, BitVec.ofNat 8 c.valveB]
  | 0x1300, 7 => some (leBytes 4 c.losses)
  | 0x1400, 4 => some (leBytes 2 s.holdStatus)
  | 0x1400, 5 => some (leBytes 2 (h.voltage / 10))
  | 0x1400, 6 => some (leBytes 2 h.current)
  | 0x1400, 7 => some (leBytes 2 h.capacity)
  | 0x1400, 8 => some h.serial
  | 0x1400, 9 => some (leBytes 4 h.events)
  | 0x1400, 0xA => some (leBytes 4 h.saves)
  | 0x1400, 0xB => some (leBytes 8 (match h.save with | some v => v.time | none => 0))
  | _, _ => none

/-- Value of a slot state (16.2.7). -/
def SlotState.code : SlotState → Nat
  | .empty => 0
  | .staged => 1
  | .active => 2
  | .previous => 3
  | .invalid => 4

/-- Objects 0x1500 and 0x1600 that are no plain settings. -/
def State.readService (s : State) (idx sub : Nat) : Option (List Byte) :=
  let f := s.tray.fw
  let m := s.tray.mor
  if idx = 0x1500 ∧ 0x10 ≤ sub then some (m.page (sub - 0x10))
  else match idx, sub with
  | 0x1500, 3 => some (words 1 (s.trayPatterns ++ (List.finRange 8).map fun d => (s.die d).faultPattern))
  | 0x1500, 4 => some (leBytes 2 s.tray.ind.openLoads.toNat)
  | 0x1500, 5 => some (leBytes 4 m.next)
  | 0x1500, 6 => some (leBytes 2 m.entries.length)
  | 0x1500, 8 => some (leBytes 8 s.tray.now)
  | 0x1500, 9 => some (leBytes 8 s.accNow)
  | 0x1600, 1 => some (leBytes 2 f.chunkNo)
  | 0x1600, 5 => some (leBytes 1 f.status)
  | 0x1600, 6 => some (words 1 [f.slotA.code, f.slotB.code])
  | 0x1600, 7 => some (leBytes 2 f.result)
  | _, _ => none

/-! ### Die objects -/

/-- Objects 0x2000 (Table 05.6) (log 112, DESIGN CHOICE). A negative P_g shows 0, one past 2^32 - 1 mW its low 32 bits: the spec
does not say what 0x2000:0A shows there (log 126, DESIGN CHOICE). -/
def State.readCaps (s : State) (d : DieId) (sub : Nat) : Option (List Byte) :=
  let x := s.die d
  let p := x.pow
  let w := s.glacierEpochs d
  match sub with
  | 3 => some (leBytes 4 1600000)
  | 4 => some (leBytes 4 1300000)
  | 8 => some (leBytes 4 p.budget)
  | 9 => some (leBytes 4 ((p.epochs.take w).sum / (max 1 w * epochNs)))
  | 0xA => some (leBytes 4 (s.glacierAllowance d true).toNat)
  | 0xB => some (leBytes 4 p.roh)
  | 0xC => some (leBytes 4 (Config.sealedOverhead d p.sealedStep))
  | 0xD => some (leBytes 4 p.share)
  | 0xE => some (leBytes 2 (flags [p.glacierBinds, p.shareBinds, p.surgeCut, p.deviated, p.sealBroken]))
  | 0xF => some (leBytes 4 p.cutTime)
  | 0x10 => some (leBytes 2 x.leadNow)
  | 0x11 => some (leBytes 2 p.phases.length)
  | 0x12 => some (leBytes 8 p.phaseHits)
  | 0x13 => some (leBytes 8 p.phaseMisses)
  | 0x14 => some (leBytes 8 p.phaseEvictions)
  | 0x15 => some (leBytes 4 p.deviations)
  | 0x16 => some (words 4 p.demand)
  | 0x21 => some (leBytes 4 (if p.sealed then x.commitment d else 0))
  | _ => none

/-- Objects 0x2100 (Table 04.5). -/
def State.readPoint (s : State) (d : DieId) (sub : Nat) : Option (List Byte) :=
  let x := s.die d
  let o := x.op
  let r := x.rails
  match sub with
  | 2 => some (leBytes 1 x.clk.shownStep)
  | 3 => some (leBytes 2 r.target)
  | 4 => some (leBytes 2 r.vcoreMeas)
  | 5 => some (leBytes 4 r.vcoreMa)
  | 6 => some (words 2 ((List.range 16).map fun st => Config.vmin d st))
  | 7 => some (leBytes 2 o.trim)
  | 8 => some (leBytes 1 (flags [o.overdue, o.saturated]))
  | 9 => some (leBytes 4 (o.ageRuntime / 3600000000000))
  | 0xA => some (leBytes 1 (s.ceiling d))
  | 0xB => some (leBytes 2 o.alertCause)
  | 0xC => some (leBytes 4 o.alertCount)
  | 0xE => some (leBytes 4 r.phases.toNat)
  | 0xF => some (leBytes 1 (flags [o.hold, o.issueCut, o.awaitRelease, o.supplyLag]))
  | _ => none

/-- Objects 0x2200 (Table 06.3) (log 124, DEDUCED). A count of 0x2200:0A past 2^32 - 1 shows its low 32 bits: the spec does not say
what it shows there (log 127, DESIGN CHOICE). -/
def State.readDroop (s : State) (d : DieId) (sub : Nat) : Option (List Byte) :=
  let x := s.die d
  let v := x.droop
  match sub with
  | 4 => some (leBytes 4 (x.dieFloat.getD 0xFFFFFFFF))
  | 5 => some (leBytes 4 (v.debtEpoch / debtUnit))
  | 6 => some (leBytes 4 (v.debtLast / debtUnit))
  | 7 => some (leBytes 4 v.usedLast)
  | 8 => some (leBytes 4 v.longestLast)
  | 9 => some (leBytes 2 (flags [x.detectorsOn && !v.monitor, v.monitor, !v.armed.isEmpty, v.overrun, v.loweredThis,
      decide (0 < v.noRaise), v.masked != 0#64, v.lineFailed != 0#64]))
  | 0xA => some (words 4 v.trips)
  | 0xB => some (leBytes 8 v.trippedTotal)
  | 0xC => some (leBytes 4 v.overruns)
  | 0xE => some (leBytes 8 v.masked.toNat)
  | 0xF => some (leBytes 8 v.lineFailed.toNat)
  | 0x10 => some (leBytes 8 (v.debtTotal / debtUnit))
  | _ => none

/-- Objects 0x2300 (Table 07.7). The die maximum reads 0x8000 before any sensor has a reading, as an empty report group does
(log 128, DESIGN CHOICE). -/
def State.readHeat (s : State) (d : DieId) (sub : Nat) : Option (List Byte) :=
  let x := s.die d
  let h := x.heat
  let failed := h.sensors.filterMap fun p => if p.2.failed then some p.1 else none
  match sub with
  | 2 => some (leBytes 2 1680)
  | 3 => some (leBytes 2 1920)
  | 6 => some (leBytes 2 (match h.dieMax with | some t => ofInt 16 t | none => 0x8000))
  | 7 => some (words 2 h.groupMax)
  | 9 => some (leBytes 2 (flags [x.nearBand (s.dset d 0x2300 1) (s.dset d 0x2300 4), decide (h.h < 16), h.fullSeen,
      h.surgeAt.isSome || h.sealedSurge, x.svc.state == .flowHalt, h.tripped, h.latched, !failed.isEmpty]))
  | 0xA => some (leBytes 1 h.h)
  | 0xB => some (leBytes 1 (min 3 (h.trips.filter fun t => decide (s.accNow < t + day)).length))
  | 0xE => some (leBytes 72 (failed.foldl (fun acc n => acc ||| 2 ^ n) 0))
  | 0xF => some (leBytes 4 h.surges)
  | 0x10 => some (leBytes 8 (h.throttledNs + match h.throttleSince with | some t => s.tray.now - t | none => 0))
  | _ => none

/-- Objects 0x2500 (Table 08.5) (log 113, DEDUCED). -/
def State.readMeridian (s : State) (d : DieId) (sub : Nat) : Option (List Byte) :=
  let x := s.die d
  let m := x.mer
  let below := m.member && x.computes && decide (m.groupStep < x.clk.curStep)
  match sub with
  | 3 => some (leBytes 1 m.groupStep)
  | 4 => some (leBytes 1 m.ownProposal)
  | 5 => some (leBytes 2 (flags [m.member, m.member && !(childrenOf m (s.identity d)).isEmpty, m.root, m.stray,
      m.joining, below, m.resultLate, m.joinRefused, m.urgentSent]))
  | 6 => some (leBytes 4 (max 1 m.members.length))
  | 7 => some (leBytes 4 m.missedTotal)
  | 8 => some (leBytes 4 m.strayTotal)
  | 9 => some (leBytes 4 ((x.til.runs.map Run.late).foldl max 0))
  | 0xA => some (leBytes 4 m.lateEpochs)
  | 0xB => some (leBytes 4 (m.lent.map Loan.amount).sum)
  | 0xC => some (leBytes 4 m.borrowed)
  | 0xD => some (leBytes 8 m.lastChange)
  | _ => none

/-- Energies of the context a master selects: its own, its queues', or those a reset has frozen (R230, R232). -/
def State.selected (s : State) (m : MasterId) (d : DieId) : Option (Nat × List Nat) :=
  let sel := KV.getD (s.master m).ctxSel d.val 0
  let t := bits sel 29 20
  let h := bits sel 19 0
  match s.ctx? t h with
  | some c => some (c.energy, c.queues.map fun q => match q with | some q => q.energy | none => 0)
  | none => match KV.get? (s.tenant t).frozen h with
    | some (e :: qs) => some (e, qs)
    | _ => none

/-- Objects 0x2600 (Table 09.4). -/
def State.readEnergy (s : State) (m : MasterId) (d : DieId) (sub : Nat) : Option (List Byte) :=
  let n := (s.die d).nrg
  match sub with
  | 1 => some (energyBytes n.measured)
  | 2 => some (energyBytes n.attributed)
  | 3 => some (energyBytes n.unattributed)
  | 4 => some ((n.columns.map energyBytes).flatten)
  | 6 => some (leBytes 2 n.confidence)
  | 7 => some (leBytes 2 n.upliftInForce)
  | 8 => some (leBytes 1 (flags [n.frozen, n.benchUsed, n.notDetermined, n.fusedLoaded]))
  | 9 => some (leBytes 4 (n.sinceBench / 1000000000))
  | 0xA => some (leBytes 4 n.benchTotal)
  | 0xB => some (leBytes 4 (ofInt 32 n.reconError))
  | 0xC => some (words 4 (coeffsOf d n.coeff))
  | 0xD => some (leBytes 2 n.residual)
  | 0x10 => some (leBytes 4 (KV.getD (s.master m).ctxSel d.val 0))
  | 0x11 => (s.selected m d).map fun e => energyBytes e.1
  | 0x12 => (s.selected m d).map fun e => ((List.range 8).map fun i => energyBytes (e.2.getD i 0)).flatten
  | 0x13 => (s.selected m d).map fun _ => energyBytes (s.tenant (bits (KV.getD (s.master m).ctxSel d.val 0) 29 20)).energy
  | _ => none

/-- Objects 0x2700 that are no plain settings (10.4). -/
def State.readMaps (s : State) (d : DieId) (sub : Nat) : Option (List Byte) :=
  let x := s.die d
  let c := x.cmp
  match sub with
  | 2 => some (i16s (if x.srv.grid.isEmpty then List.replicate 4096 0 else x.srv.grid))
  | 3 => some (leBytes 4 x.srv.seq)
  | 5 => some (leBytes 8 x.srv.time)
  | 0x15 => some (leBytes 4 (c.seq - 1))
  | 0x16 => some (leBytes 2 (flags [c.running, c.disqualified, c.lastPassed, c.crcMismatch, !x.clk.timeValid]))
  | 0x17 => some (leBytes 4 checkSignature)
  | 0x18 => some (leBytes 4 c.lastSig)
  | 0x19 => some (leBytes 4 c.failedChecks)
  | 0x1A => some (leBytes 4 c.dropped)
  | 0x1C => c.latest
  | _ => none

/-- Values of Table 12.5. -/
def PortState.code : PortState → Nat
  | .off => 0
  | .search => 1
  | .train => 2
  | .up => 3
  | .degraded => 4
  | .retrain => 5
  | .low => 6
  | .down => 7

/-- Values of 0x3000:06. -/
def LineState.code : LineState → Nat
  | .lane => 0
  | .reserve => 1
  | .calibrating => 2
  | .failed => 3
  | .unlocked => 4
  | .weak => 5

/-- Neighbour entry: 0 while none is known (log 176, DESIGN CHOICE). -/
def Port.neighbourBytes (x : Port) : List Byte := match x.neighbour with
  | some (g, id, p, _) => leBytes 2 g ++ leBytes 2 id ++ [BitVec.ofNat 8 p, 0#8, 0#8, 0#8]
  | none => List.replicate 8 0#8

/-- Link heater power in mW: full-duty power times duty, over all link rings (12.3). -/
def Fabric.heaterMw (f : Fabric) (d : DieId) : Nat :=
  ((f.rings.filter fun r => decide (r.1 < 1280)).map fun r => (Config.heaterFull d r.1).toNat * r.2.d).sum / 16384000

/-- The crosstalk matrix in force (R307). -/
def Fabric.matrix (f : Fabric) (d : DieId) : List Byte :=
  ((List.range 1280).map fun k => ((List.range 8).map fun i =>
    leBytes 2 (Config.xtalkNeighbour d k i).toNat ++
      leBytes 2 (ofInt 16 ((Config.xtalkCoeff d k i).toInt + KV.getD f.xtalk (k, i) 0))).flatten).flatten

/-- Objects 0x3000 that are no plain settings (Table 12.12) (log 176, DESIGN CHOICE). -/
def State.readLinks (s : State) (d : DieId) (sub : Nat) : Option (List Byte) :=
  let f := (s.die d).fab
  match sub with
  | 1 => some (words 1 (f.ports.map fun p => p.state.code))
  | 3 => some (leBytes 1 (b2n f.combB))
  | 4 => some (leBytes 1 (flags [f.failedA, f.failedB, f.noStandby, f.failover]))
  | 5 => some (leBytes 4 f.failovers)
  | 6 => some (words 1 ((f.ports.map fun p => (p.tx ++ p.rx).map LineState.code).flatten))
  | 7 => some (words 1 ((f.ports.map fun p => [p.shiftTx, p.shiftRx]).flatten))
  | 0xA => some (i16s ((List.range 690).map f.mon))
  | 0xB => some (i16s ((List.range 690).map fun i => (f.baseline.getD []).getD i 0))
  | 0xD => some (words 1 (f.ports.map Port.finding))
  | 0xE => some (leBytes 8 f.tagDiscards)
  | 0xF => some (leBytes 8 f.replays)
  | 0x10 => some (leBytes 4 f.retrains)
  | 0x11 => some (leBytes 4 f.portsLost)
  | 0x12 => some (leBytes 4 f.flowsLost)
  | 0x13 => some ((f.ports.map Port.neighbourBytes).flatten)
  | 0x14 => some (words 2 (f.ports.map fun p => p.labels.length))
  | 0x15 => some (leBytes 4 (f.heaterMw d))
  | 0x16 => some (f.matrix d)
  | 0x17 => some (leBytes 8 f.corrected)
  | 0x18 => some (leBytes 4 f.ctrlDiscards)
  | 0x20 => some (words 1 ((List.range 65536).map fun i => s.route d i))
  | _ => none

/-- A bank's state as 0x3100:01 shows it (R634). -/
def Die.bankCode (x : Die) (i : Nat) (k : Bank) : Nat :=
  if !x.clk.enables.getLsbD (6 + i) then 5
  else match k.state with
    | .free => 0
    | .held => 1
    | .blanking => 2
    | .recal => 3
    | .failed => 4
    | .gated => 5

/-- Objects 0x3100 that are no plain settings (Table 13.2). -/
def State.readScouts (s : State) (d : DieId) (sub : Nat) : Option (List Byte) :=
  let x := s.die d
  let c := x.sct
  let on (i : Nat) : Bool := x.clk.enables.getLsbD (6 + i)
  match sub with
  | 1 => some (words 1 (c.banks.mapIdx fun i k => x.bankCode i k))
  | 2 => some (words 4 (c.banks.map fun k => match k.holder with | some (t, h) => h + 2 ^ 20 * t | none => 0xFFFFFFFF))
  | 3 => some (i16s (c.banks.mapIdx fun i k => if on i then k.tap else 0))
  | 4 => some (i16s ((List.range 8).map fun b => (Config.tapNominal d b).toInt))
  | 5 => some (words 2 (c.banks.mapIdx fun i k => if on i then k.derating d i else 0))
  | 6 => some (leBytes 8 c.selections)
  | 7 => some (leBytes 4 c.degraded)
  | 8 => some (leBytes 8 c.blankings)
  | 0xB => some (leBytes 4 (min 10500 (Config.scoutHeaterMw d
      (c.banks.mapIdx fun i k => (List.range 1152).map (k.appliedDuty d i))).toNat))
  | 0xC => some (leBytes 2 (flags [c.banks.any Bank.degraded, !c.columnsOut.isEmpty, c.banks.any Bank.window,
      c.banks.any fun k => k.state == .recal]))
  | _ => none

/-- The owner of a granule as 0x4000:05 shows it (log 212, DEDUCED). -/
def Granule.code : Granule → Nat
  | .owned t _ => t
  | .held t => t
  | .free | .zeroing | .unready => 0xFFFF

/-- Objects 0x4000 (Table 18.11) (log 212, DEDUCED). -/
def State.readQueries (s : State) (d : DieId) (sub : Nat) : Option (List Byte) :=
  let x := s.die d
  let t := x.til
  match sub with
  | 1 => some (leBytes 1 (s.residents d).length)
  | 2 => some (words 4 (t.slots.map fun o => match o with | some k => k.2 + 2 ^ 20 * k.1 | none => 0xFFFFFFFF))
  | 3 => some (leBytes 1 t.runs.length)
  | 4 => some (leBytes 2 ((List.range 16384).filter fun g => t.owner g == .free && !x.closed g).length)
  | 5 => some (words 2 ((List.range 16384).map fun g => (t.owner g).code))
  | 6 => some (leBytes 8 t.unitsMoved)
  | 7 => some (leBytes 2 (s.residentTenants d).length)
  | _ => none

/-- Objects 0x5000 (Table 03.7). -/
def State.readClocks (s : State) (d : DieId) (sub : Nat) : Option (List Byte) :=
  let c := (s.die d).clk
  match sub with
  | 1 => some (leBytes 1 (b2n (c.preferred = .xb)))
  | 2 => some (leBytes 1 c.refStatus)
  | 3 => some (leBytes 2 c.computeStatus)
  | 4 => some (leBytes 1 c.switchStatus)
  | 5 => some (leBytes 4 c.enables.toNat)
  | 6 => some (leBytes 1 c.monSrc)
  | 7 => some (leBytes 1 c.monK)
  | 8 => some (leBytes 1 (b2n c.monDrive))
  | 9 => some (leBytes 8 (s.sysTime d))
  | 0xA => some (leBytes 1 (flags [c.timeValid, s.timeRoot d]))
  | 0xB => some (leBytes 4 (ofInt 32 c.lastOffset))
  | 0xC => some (leBytes 8 (s.epoch d))
  | _ => none

/-- Values of 0x6000:06. -/
def DieState.code : DieState → Nat
  | .off => 0
  | .starting => 1
  | .running => 2
  | .frost => 3
  | .flowHalt => 4
  | .tripped => 5
  | .latched => 6

/-- Values of 0x7000:04. -/
def FrostState.code : FrostState → Nat
  | .running => 0
  | .stopPending => 1
  | .entering => 2
  | .frozen => 3
  | .thawing => 4

/-- Objects 0x6000 and 0x7000 (Tables 16.19 and 16.20). -/
def State.readFaults (s : State) (d : DieId) (idx sub : Nat) : Option (List Byte) :=
  let x := s.die d
  let t := x.til
  let f := x.frost
  match idx, sub with
  | 0x6000, 1 => some (words 1 t.rowMap)
  | 0x6000, 2 => some (leBytes 8 t.corrected)
  | 0x6000, 3 => some (leBytes 4 t.uncorrected)
  | 0x6000, 4 => some (leBytes 2 ((t.poison.map fun w => granuleOf (8 * w)).eraseDups).length)
  | 0x6000, 5 => some (leBytes 4 t.scrubPasses)
  | 0x6000, 6 => some (leBytes 1 x.svc.state.code)
  | 0x6000, 7 => some (leBytes 17 x.svc.failedTiles.toNat)
  | 0x6000, 8 => some (leBytes 1 x.svc.spares)
  | 0x6000, 0xC => some (leBytes 4 x.clk.clockFaults)
  | 0x6000, 0xD => some (leBytes 2 x.faultStatus)
  | 0x6000, 0xE => some (leBytes 2 (x.fab.rings.filter fun r => r.2.isOpen).length)
  | 0x7000, 4 => some (leBytes 1 f.state.code)
  | 0x7000, 5 => some (leBytes 4 f.entries)
  | 0x7000, 6 => some (leBytes 8 (f.total + if f.state = .frozen then s.tray.now - f.frozenAt else 0))
  | _, _ => none

/-! ### Any object -/

/-- An object whose value is its own setting (log 209, DEDUCED). -/
def State.readSetting (s : State) (o : Obj) (sel : Nat) : List Byte := leBytes o.len (s.setting o.idx o.sub sel)

/-- The value a read of an object returns (R397); none where no instance exists. A setting of Table 16.x that no function
above shows is read as it stands. -/
def State.valueOf (s : State) (m : MasterId) (k : ObjKey) (o : Obj) : Option (List Byte) :=
  let d := dieOf k.sel
  let special :=
    if k.idx = 0x1000 ∨ k.idx = 0x1100 then s.readControl m k.idx k.sub
    else if k.idx < 0x1500 then s.readSupply k.idx k.sub
    else if k.idx < 0x2000 then s.readService k.idx k.sub
    else if k.idx = 0x2000 then s.readCaps d k.sub
    else if k.idx = 0x2100 then s.readPoint d k.sub
    else if k.idx = 0x2200 then s.readDroop d k.sub
    else if k.idx = 0x2300 then s.readHeat d k.sub
    else if k.idx = 0x2500 then s.readMeridian d k.sub
    else if k.idx = 0x2600 then s.readEnergy m d k.sub
    else if k.idx = 0x2700 then s.readMaps d k.sub
    else if k.idx = 0x3000 then s.readLinks d k.sub
    else if k.idx = 0x3100 then s.readScouts d k.sub
    else if k.idx = 0x4000 then s.readQueries d k.sub
    else if k.idx = 0x5000 then s.readClocks d k.sub
    else s.readFaults d k.idx k.sub
  match special with
  | some v => some v
  | none => if o.access = .rw then some (s.readSetting o k.sel) else none

/-- A read as master m (R376, R380, R382, R425): the value, or the code of the first check that fails. -/
def State.readObj (s : State) (m : MasterId) (k : ObjKey) : Except Nat (List Byte) :=
  match objOf k with
  | none => .error rcNoSuchItem
  | some o =>
    if o.access = .wo ∨ o.access = .cmd then .error rcNotReadable
    else if o.expert ∧ !s.isExpert m then .error rcLevelRequired
    else match s.unavailable o k.sel false with
      | some c => .error c
      | none => match s.valueOf m k o with
        | some v => .ok v
        | none => .error rcNoSuchItem

end Sys2Proof.Machine
end

