-- ==== Sys2Proof/Machine/SpdmOps.lean ====
section
/-! DEFINITION. The SPDM 1.2 responder (19.6, R534 to R536). The spec fixes what is supported, the measurement blocks and the
three errors; message codes, field places and transcripts are those of the SPDM standard it names (log 70, PRESUMED). -/

namespace Sys2Proof.Machine
open Sys2Proof

/-! ### Responder state (R535) -/

/-- The state of a responder. -/
def State.spdm (s : State) : Responder → Spdm
  | .lap m => (s.master m).spdm
  | .doe (.pf p) => (s.pf (portIx p)).doe.spdm
  | .doe (.vf p n) => ((KV.get? s.vfs (p, n)).map fun v => v.doe.spdm).getD {}

/-- `s` with the DOE capability of a function changed. -/
def State.modDoe (s : State) (f : Fn) (g : Doe → Doe) : State :=
  match f with
  | .pf p => s.modPf (portIx p) fun x => { x with doe := g x.doe }
  | .vf p n => s.modVf p n fun x => { x with doe := g x.doe }

/-- `s` with the state of a responder changed. -/
def State.modSpdm (s : State) (r : Responder) (g : Spdm → Spdm) : State :=
  match r with
  | .lap m => s.modMaster m fun x => { x with spdm := g x.spdm }
  | .doe f => s.modDoe f fun x => { x with spdm := g x.spdm }

/-- Largest message of a responder in either direction (Table 19.4). -/
def Responder.limit : Responder → Nat
  | .lap _ => 1312
  | .doe _ => 8192

/-! ### Measurement blocks (Table 19.5, R536) -/

/-- One block in the DMTF representation: index, then type and value. -/
def measBlock (i ty : Nat) (v : List Byte) : List Byte :=
  [BitVec.ofNat 8 i, 1#8] ++ leBytes 2 (3 + v.length) ++ [BitVec.ofNat 8 ty] ++ leBytes 2 v.length ++ v

/-- The governor measurement of a die: zeros while it is held off or has none (R536). -/
def State.govDigest (s : State) (d : DieId) : List Byte :=
  let v := (s.die d).svc
  if v.heldOff then List.replicate 48 0#8 else v.fwDigest.getD (List.replicate 48 0#8)

/-- Release number of the governor firmware (Table 19.5): that of the active slot, which changes when an update is confirmed
(R573, R585). -/
def State.govRelease (s : State) : Nat := s.tray.fw.activeRelease

/-- The value of block i. -/
def State.measValue (s : State) (i : Nat) : List Byte :=
  if i = 1 then s.tray.fw.digest
  else if i = 2 then leBytes 4 s.tray.fw.release
  else if i ≤ 10 then s.govDigest (dieOf (i - 3))
  else if i = 11 then leBytes 4 s.govRelease
  else if i = 12 then leBytes 2 Config.hwRevision.toNat ++
    ((List.finRange 8).map dieSerial).flatten
  else [0x03#8]

/-- Value type of block i: firmware digest, release number, hardware configuration. -/
def measType (i : Nat) : Nat := if i = 1 ∨ (3 ≤ i ∧ i ≤ 10) then 0x01 else if i = 2 ∨ i = 11 then 0x86 else 0x82

/-- Block i. -/
def State.meas (s : State) (i : Nat) : List Byte := measBlock i (measType i) (s.measValue i)

/-- All thirteen blocks. -/
def State.measAll (s : State) : List Byte := ((List.range 13).map fun i => s.meas (i + 1)).flatten

/-! ### Messages -/

/-- Errors of R534, and InvalidRequest for a field the standard does not allow. -/
def spdmInvalid : Nat := 0x01
def spdmUnexpected : Nat := 0x04
def spdmUnsupported : Nat := 0x07
def spdmVersion : Nat := 0x41

/-- An ERROR response. -/
def spdmError (code data : Nat) : List Byte := [0x12#8, 0x7F#8, BitVec.ofNat 8 code, BitVec.ofNat 8 data]

/-- What a request brings: the new responder state, the response, and the random bytes it took. -/
structure SpdmAnswer where
  next : Spdm
  reply : List Byte
  free : Nat := 0

/-- An error leaves the responder state. -/
def Spdm.err (x : Spdm) (code data : Nat) : SpdmAnswer := { next := x, reply := spdmError code data }

/-- The bytes a signature of the standard covers: the version words, zero padding and the context to 100 bytes, and the digest
of the transcript. -/
def spdmSigned (context : String) (transcript : List Byte) : List Byte :=
  let w := ((List.replicate 4 (ascii "dmtf-spdm-v1.2.*")).flatten)
  let c := ascii context
  w ++ List.replicate (36 - c.length) 0#8 ++ c ++ sha384 transcript

/-- A signature by the tray controller's key (R534). -/
def spdmSign (context : String) (transcript : List Byte) : List Byte :=
  beBytes 96 (Config.sign (spdmSigned context transcript)).toNat

/-- GET_VERSION: one entry, 1.2; the state starts anew (R535). -/
def spdmGetVersion (msg : List Byte) : SpdmAnswer :=
  let r := [0x10#8, 0x04#8, 0#8, 0#8, 0#8, 1#8] ++ leBytes 2 0x1200
  { next := { stage := 1, conn := msg ++ r }, reply := r }

/-- GET_CAPABILITIES: CERT_CAP, CHAL_CAP and MEAS_CAP = 2, CTExponent 17. -/
def Spdm.getCapabilities (x : Spdm) (limit : Nat) (msg : List Byte) : SpdmAnswer :=
  if x.stage ≠ 1 then x.err spdmUnexpected 0
  else if msg.length ≠ 20 then x.err spdmInvalid 0
  else
    let r := [0x12#8, 0x61#8, 0#8, 0#8, 0#8, 17#8, 0#8, 0#8] ++ leBytes 4 0x16 ++ leBytes 4 limit ++ leBytes 4 limit
    { next := { x with stage := 2, conn := x.conn ++ msg ++ r }, reply := r }

/-- NEGOTIATE_ALGORITHMS: of what is offered, ECDSA P-384, SHA-384 and the DMTF specification. -/
def Spdm.negotiate (x : Spdm) (msg : List Byte) : SpdmAnswer :=
  if x.stage ≠ 2 then x.err spdmUnexpected 0
  else if msg.length < 32 ∨ leNat ((msg.drop 4).take 2) ≠ msg.length then x.err spdmInvalid 0
  else
    let spec := (msg.getD 6 0#8) &&& 1#8
    let asym := leNat ((msg.drop 8).take 4)
    let hash := leNat ((msg.drop 12).take 4)
    let r := [0x12#8, 0x63#8, 0#8, 0#8] ++ leBytes 2 36 ++ [spec, 0#8] ++ leBytes 4 (if spec = 1#8 then 4 else 0) ++
      leBytes 4 (if bit asym 7 then 0x80 else 0) ++ leBytes 4 (if bit hash 1 then 2 else 0) ++ List.replicate 16 0#8
    { next := { x with stage := 3, conn := x.conn ++ msg ++ r }, reply := r }

/-- GET_DIGESTS: slot 0 alone holds a chain. -/
def Spdm.getDigests (x : Spdm) (msg : List Byte) : SpdmAnswer :=
  if x.stage ≠ 3 then x.err spdmUnexpected 0
  else
    let r := [0x12#8, 0x01#8, 0#8, 1#8] ++ sha384 certChain
    { next := { x with cert := x.cert ++ msg ++ r }, reply := r }

/-- GET_CERTIFICATE: a part of the chain of slot 0 (Table 19.3). -/
def Spdm.getCertificate (x : Spdm) (limit : Nat) (msg : List Byte) : SpdmAnswer :=
  if x.stage ≠ 3 then x.err spdmUnexpected 0
  else
    let off := leNat ((msg.drop 4).take 2)
    let len := leNat ((msg.drop 6).take 2)
    let c := certChain
    if msg.length ≠ 8 ∨ (msg.getD 2 0#8) ≠ 0#8 ∨ c.length ≤ off then x.err spdmInvalid 0
    else
      let p := ((c.drop off).take (min len (limit - 8)))
      let r := [0x12#8, 0x02#8, 0#8, 0#8] ++ leBytes 2 p.length ++ leBytes 2 (c.length - off - p.length) ++ p
      { next := { x with cert := x.cert ++ msg ++ r }, reply := r }

/-- CHALLENGE: signed with the tray controller's key (R534). `nonce` is the responder's. -/
def Spdm.challenge (x : Spdm) (all nonce msg : List Byte) : SpdmAnswer :=
  let kind := msg.getD 3 0#8
  if x.stage ≠ 3 then x.err spdmUnexpected 0
  else if msg.length ≠ 36 ∨ (msg.getD 2 0#8) ≠ 0#8 ∨ !(kind == 0#8 || kind == 1#8 || kind == 0xFF#8) then x.err spdmInvalid 0
  else
    let r := [0x12#8, 0x03#8, 0#8, 1#8] ++ sha384 certChain ++ nonce ++
      (if kind = 0#8 then [] else sha384 all) ++ [0#8, 0#8]
    let sig := spdmSign "responder-challenge_auth signing" (x.conn ++ x.cert ++ msg ++ r)
    { next := { x with cert := [], meas := [] }, reply := r ++ sig, free := 32 }

/-- GET_MEASUREMENTS: the number of blocks, one block or all of them, signed when asked (R534, R536). -/
def State.getMeasurements (s : State) (x : Spdm) (nonce msg : List Byte) : SpdmAnswer :=
  let signed := (msg.getD 2 0#8).getLsbD 0
  let op := (msg.getD 3 0#8).toNat
  if x.stage ≠ 3 then x.err spdmUnexpected 0
  else if msg.length ≠ (if signed then 37 else 4) ∨ (signed ∧ (msg.getD 36 0#8) &&& 0x0F#8 ≠ 0#8) ∨
      (13 < op ∧ op ≠ 0xFF) then x.err spdmInvalid 0
  else
    let rec_ := if op = 0 then [] else if op = 0xFF then s.measAll else s.meas op
    let n := if op = 0 then 0 else if op = 0xFF then 13 else 1
    let r := [0x12#8, 0x60#8, BitVec.ofNat 8 (if op = 0 then 13 else 0), 0#8, BitVec.ofNat 8 n] ++
      leBytes 3 rec_.length ++ rec_ ++ nonce ++ [0#8, 0#8]
    let l := x.meas ++ msg ++ r
    if signed then
      { next := { x with meas := [] }, reply := r ++ spdmSign "responder-measurements signing" (x.conn ++ l), free := 32 }
    else { next := { x with meas := l }, reply := r, free := 32 }

/-- Codes of the requests of Table 19.4. -/
def spdmCodes : List Nat := [0x84, 0xE1, 0xE3, 0x81, 0x82, 0x83, 0xE0]

/-- The answer of a responder to a message (R534). -/
def State.spdmAnswer (s : State) (r : Responder) (msg : List Byte) : SpdmAnswer :=
  let x := s.spdm r
  let code := (msg.getD 1 0#8).toNat
  let nonce := (s.freeBytes 32).1
  if msg.length < 4 then x.err spdmInvalid 0
  else if !spdmCodes.contains code then x.err spdmUnsupported code
  else if (msg.getD 0 0#8) ≠ (if code = 0x84 then 0x10#8 else 0x12#8) then x.err spdmVersion 0
  else if code = 0x84 then spdmGetVersion msg
  else if code = 0xE1 then x.getCapabilities r.limit msg
  else if code = 0xE3 then x.negotiate msg
  else if code = 0x81 then x.getDigests msg
  else if code = 0x82 then x.getCertificate r.limit msg
  else if code = 0x83 then x.challenge s.measAll nonce msg
  else s.getMeasurements x nonce msg

/-- A responder answers a message: the new state and the response. -/
def State.spdmRun (s : State) (r : Responder) (msg : List Byte) : State × List Byte :=
  let a := s.spdmAnswer r msg
  let s1 := (s.modSpdm r fun _ => a.next).skipFree a.free
  (match r with
    | .lap m => s1.modMaster m fun x => { x with spdmAt := s.tray.now }
    | .doe _ => s1, a.reply)

/-- The tray controller's image runs and answers (19.7, R611). -/
def State.trayAnswers (s : State) : Bool := s.tray.fw.running && !s.tray.fw.restarting

/-! ### Data objects (17.8) -/

/-- A DOE data object: header of vendor 0x0001, type and length in words, padded. -/
def doeObject (ty : Nat) (body : List Byte) : List Byte :=
  let n := ceilDiv body.length 4
  leBytes 2 1 ++ [BitVec.ofNat 8 ty, 0#8] ++ leBytes 4 (2 + n) ++ body ++ List.replicate (4 * n - body.length) 0#8

/-- The function exists and is not in reset (R444, R463). -/
def State.fnLives (s : State) (f : Fn) : Bool :=
  match f with
  | .pf _ => true
  | .vf p n => match KV.get? s.vfs (p, n) with
    | some v => !v.inReset
    | none => false

/-- A CMA/SPDM data object reaches a function (R461, R462): no answer once the error bit is set, until a DOE Abort. -/
def State.doeSpdm (s : State) (f : Fn) (msg : List Byte) : State :=
  let err : Bool := match f with
    | .pf p => (s.pf (portIx p)).doe.err
    | .vf p n => ((KV.get? s.vfs (p, n)).map fun v => v.doe.err).getD true
  if !s.fnLives f ∨ !s.trayAnswers ∨ err then s
  else if 8192 < msg.length + 8 then s.modDoe f fun x => { x with err := true }
  else
    let p := s.spdmRun (.doe f) msg
    p.1.emit (.doe f (doeObject 1 p.2))

end Sys2Proof.Machine
end

