-- ==== Sys2Proof/Machine/LapOps.lean ====
section
/-! DEFINITION. The Legend Access Protocol (chapter 15): the checks of a frame, sequence numbers, the services, the unlock,
and notifications. -/

namespace Sys2Proof.Machine
open Sys2Proof

/-! ### Frames (15.2) -/

/-- Byte `i` of a frame, 0 beyond its end. -/
def fByte (f : List Byte) (i : Nat) : Nat := (f.getD i 0#8).toNat

/-- The little-endian field of `n` bytes at `i`. -/
def fField (f : List Byte) (i n : Nat) : Nat := leNat ((f.drop i).take n)

/-- Fields of the header (Table 15.2). -/
def fTagged (f : List Byte) : Bool := (f.getD 1 0#8).getLsbD 1
def fService (f : List Byte) : Nat := fByte f 3
def fSeq (f : List Byte) : Nat := fField f 4 4
def fKey (f : List Byte) : ObjKey := ⟨fField f 10 2, fByte f 9, fByte f 8 % 16⟩
def fBodyLen (f : List Byte) : Nat := fField f 12 2

/-- The body. -/
def fBody (f : List Byte) : List Byte := (f.drop 16).take (fBodyLen f)

/-- Length, master number and flag bit [0] of R409 (log 210, DEDUCED). -/
def frameFits (m : MasterId) (f : List Byte) : Bool :=
  decide (16 ≤ f.length) && f.length == 16 + fBodyLen f + 16 * b2n (fTagged f) && fByte f 2 == m.val &&
    !(f.getD 1 0#8).getLsbD 0

/-- The tag of a frame is correct under a key (R424). -/
def tagOk (key f : List Byte) : Bool :=
  fTagged f && lapTag key (f.take (16 + fBodyLen f)) == f.drop (16 + fBodyLen f)

/-- First non-zero byte of a reserved span. -/
def nonZeroAt (f : List Byte) (i n : Nat) : Option Nat := if ((f.drop i).take n).all fun b => b == 0#8 then none else some i

/-- The services of Table 15.3 that a station may request. -/
def knownService (svc : Nat) : Bool := decide (1 ≤ svc ∧ svc ≤ 0x0B) && svc != 7

/-- The fixed body length of a service (R409). -/
def fixedLen (svc : Nat) : Option Nat :=
  if svc = 0x01 ∨ svc = 0x08 ∨ svc = 0x0A then some 0 else if svc = 0x03 ∨ svc = 0x06 then some 8 else none

/-- The first bad field of a frame of the right length (R409): header, reserved fields of the service, body length of the
service. R640 checks UNLOCK_RESPONSE (log 200, DEDUCED) (log 201, DEDUCED). -/
def malformedAt (f : List Byte) : Option Nat :=
  let n := fBodyLen f
  let svc := fService f
  if fByte f 0 ≠ 1 then some 0
  else if 4 ≤ fByte f 1 then some 1
  else if 16 ≤ fByte f 8 then some 8
  else if 1316 < n then some 12
  else if fField f 14 2 ≠ 0 then some 14
  else
    let rsv := if svc = 3 ∧ 8 ≤ n then nonZeroAt f 22 2 else if svc = 6 ∧ 4 ≤ n then nonZeroAt f 17 3 else none
    match rsv with
    | some i => some i
    | none => match fixedLen svc with
      | some l => if n ≠ l then some 12 else none
      | none => if svc = 4 ∧ n < 8 then some 12 else none

/-! ### Discards and responses -/

/-- A discard without a response: the mailbox shows it (R459). -/
def State.lapDrop (s : State) (m : MasterId) : State :=
  if m = 3 then match s.tray.mbox with
    | none => s
    | some p => s.modPf p fun x => { x with mboxBusy := false, mboxNotTaken := true }
  else s

/-- A discard that 0x1100:13 counts (R409, R411). -/
def State.lapDiscard (s : State) (m : MasterId) : State :=
  (s.modTray fun y => { y with leg := { y.leg with framesDiscarded := satAdd 32 y.leg.framesDiscarded 1 } }).lapDrop m

/-- A discard that 0x1100:15 counts (R424). -/
def State.tagFail (s : State) (m : MasterId) : State :=
  (s.modTray fun y => { y with leg := { y.leg with tagFailures := satAdd 32 y.leg.tagFailures 1 } }).lapDrop m

/-- MALFORMED with the offset of the first bad field (R409): the version is copied (R410), and no duplicate is kept. -/
def State.lapMalformed (s : State) (m : MasterId) (dst : Option Peer) (f : List Byte) (at_ : Nat) : State :=
  s.lapSend m (fSeq f) dst (s.tagIt m fun tagged =>
    f.take 1 ++ (lapFrame tagged m (fService f) (fSeq f) (fKey f) (leBytes 2 rcMalformed ++ leBytes 2 at_)).drop 1)

/-- A response to the request `f`. -/
def State.lapReply (s : State) (m : MasterId) (f : List Byte) (status detail : Nat) (extra : List Byte) : State :=
  s.respond m (fService f) (fSeq f) (fKey f) status detail extra

/-- A refusal without detail. -/
def State.lapRefuse (s : State) (m : MasterId) (f : List Byte) (status : Nat) : State := s.lapReply m f status 0 []

/-! ### Sequence numbers (R411 to R413) -/

/-- How a sequence stands to the record of a master. -/
inductive SeqClass where
  | new | duplicate | old
  deriving DecidableEq, Repr

/-- The window of a master: cleared when it has sent no request for 10 s (R413) (log 204, DEDUCED). -/
def Master.window (x : Master) (now : Ns) : Master :=
  if x.lastReq + 10000000000 ≤ now then { x with high := none, seen := [], responses := [] } else x

/-- The class of a sequence (R411) (log 204, DEDUCED). -/
def Master.classify (x : Master) (seq : Nat) : SeqClass :=
  match x.high with
  | none => .new
  | some h =>
    let ahead := (seq + 2 ^ 32 - h) % 2 ^ 32
    let back := (h + 2 ^ 32 - seq) % 2 ^ 32
    if 0 < ahead ∧ ahead < 2 ^ 31 then .new
    else if back ≤ 63 then (if x.seen.contains seq then .duplicate else .new)
    else .old

/-- A new sequence enters the record (R411), and its source waits for the response (R408). -/
def Master.accept (x : Master) (seq : Nat) (now : Ns) (dst : Option Peer) : Master :=
  let h := match x.high with
    | none => seq
    | some h => let ahead := (seq + 2 ^ 32 - h) % 2 ^ 32
                if 0 < ahead ∧ ahead < 2 ^ 31 then seq else h
  let near (n : Nat) : Bool := decide ((h + 2 ^ 32 - n) % 2 ^ 32 ≤ 63)
  let wait := match dst with
    | some p => x.peers ++ [(seq, p)]
    | none => x.peers
  { x with high := some h, seen := (seq :: x.seen).filter near, lastReq := now, peers := wait }

/-- A duplicate gets the stored response again, or nothing before the first copy is answered (R412). -/
def State.lapResend (s : State) (m : MasterId) (dst : Option Peer) (seq : Nat) : State :=
  let s1 := s.modMaster m fun x => { x with lastReq := s.tray.now }
  match (s.master m).responses.find? fun r => r.1 == seq with
  | some r => s1.lapSend m seq dst r.2
  | none => s1

/-! ### Reads and block transfers (15.4.1, 15.4.2) -/

/-- READ (R414). -/
def State.lapRead (s : State) (m : MasterId) (f : List Byte) : State :=
  match s.readObj m (fKey f) with
  | .error c => s.lapRefuse m f c
  | .ok v => if 1312 < v.length then s.lapRefuse m f rcUseBlock else s.lapReply m f rcOk 0 v

/-- A segment of a snapshot. -/
def State.snapReply (s : State) (m : MasterId) (f : List Byte) (no off count : Nat) (v : List Byte) : State :=
  s.lapReply m f rcOk 0 (leBytes 4 no ++ leBytes 4 v.length ++ (v.drop off).take count)

/-- READ_BLOCK (R415, R416). -/
def State.lapReadBlock (s : State) (m : MasterId) (f : List Byte) : State :=
  let off := fField f 16 4
  let count := fField f 20 2
  match s.readObj m (fKey f) with
  | .error c => s.lapRefuse m f c
  | .ok v =>
    if count = 0 ∨ 1024 < count then s.lapRefuse m f rcOutOfRange
    else if off = 0 then
      if v.length < count then s.lapRefuse m f rcOutOfRange
      else
        let no := ((s.master m).snapNo + 1) % 2 ^ 32
        (s.modMaster m fun x => { x with snapNo := no, snapshot := some (fKey f, v, no, s.tray.now) }).snapReply m f no 0
          count v
    else match (s.master m).snapshot with
      | none => s.lapRefuse m f rcSnapshotLost
      | some (k, w, no, t) =>
        if k ≠ fKey f ∨ t + 1000000000 < s.tray.now then s.lapRefuse m f rcSnapshotLost
        else if w.length < off + count then s.lapRefuse m f rcOutOfRange
        else s.snapReply m f no off count w

/-- A write or command enters the gate, once it fits the object's access kind (R414, R425). -/
def State.lapWrite (s : State) (m : MasterId) (f : List Byte) (cmd : Bool) (value : List Byte) : State :=
  match objOf (fKey f) with
  | none => s.lapRefuse m f rcNoSuchItem
  | some o =>
    if (o.access = .cmd) ≠ (cmd = true) then s.lapRefuse m f rcWrongService
    else s.submit m ⟨fKey f, value, some (fSeq f, fService f)⟩

/-- The checks of a write segment before it joins an assembly: existence, access kind, level (R425) (log 202, DEDUCED). -/
def State.segmentCheck (s : State) (m : MasterId) (k : ObjKey) : Option Nat :=
  match objOf k with
  | none => some rcNoSuchItem
  | some o =>
    if o.access = .cmd then some rcWrongService
    else if o.access = .ro ∨ o.access = .stream then some rcNotWritable
    else if o.expert ∧ !s.isExpert m ∧ !(o.idx = 0x1100 ∧ o.sub = 7 ∧ m = 3 ∧ s.tray.leg.unlockKey = none) then
      some rcLevelRequired
    else none

/-- The open assembly of a master that a segment continues: none after 1 s without a segment (R417). -/
def Master.openAssembly (x : Master) (now : Ns) : Option (ObjKey × Nat × List Byte) :=
  match x.assembly with
  | some (k, total, bytes, t) => if t + 1000000000 < now then none else some (k, total, bytes)
  | none => none

/-- WRITE_BLOCK (R417) (log 202, DEDUCED). -/
def State.lapWriteBlock (s : State) (m : MasterId) (f : List Byte) : State :=
  let total := fField f 16 4
  let off := fField f 20 4
  let data := (fBody f).drop 8
  match s.segmentCheck m (fKey f) with
  | some c => s.lapRefuse m f c
  | none =>
    if 65536 < total then s.lapRefuse m f rcOutOfRange
    else
      let have_ : Option (List Byte) := if off = 0 then some [] else match (s.master m).openAssembly s.tray.now with
        | some (k, t, bytes) => if k = fKey f ∧ t = total ∧ bytes.length = off then some bytes else none
        | none => none
      let drop := s.modMaster m fun x => { x with assembly := none }
      match have_ with
      | none => drop.lapRefuse m f rcSegmentOrder
      | some bytes =>
        if total < off + data.length ∨ (off + data.length < total ∧ data.length ≠ 1024) then
          drop.lapRefuse m f rcSegmentOrder
        else if off + data.length = total then drop.lapWrite m f false (bytes ++ data)
        else (s.modMaster m fun x => { x with
          assembly := some (fKey f, total, bytes ++ data, s.tray.now) }).lapRefuse m f rcSegmentOk

/-! ### Notifications (R420, R421) -/

/-- The allowance of a master brought up to date: 1 bit a µs, up to 1,000,000 (R421). -/
def Master.refill (x : Master) (now : Ns) : Master :=
  { x with allowance := min 1000000 (x.allowance + ((now / 1000 : Nat) : Int) - ((x.allowAt / 1000 : Nat) : Int)), allowAt := now }

/-- `s` with a master's allowance brought up to date. -/
def State.refill (s : State) (m : MasterId) : State := s.modMaster m fun x => x.refill s.tray.now

/-- Size of a NOTIFY frame of `n` data bytes, in bits (R421). -/
def State.notifyBits (s : State) (m : MasterId) (n : Nat) : Int :=
  frameBits (16 + 20 + n + 16 * b2n (s.master m).session.isSome)

/-- A notification cut into segments of at most 1,024 bytes (R421). -/
def segmentsOf (q : Subscription) (status time : Nat) (v : List Byte) : List NotifySeg :=
  (List.range (max 1 (ceilDiv v.length 1024))).map fun i =>
    ⟨q.peer, q.no, q.key, status, time, v.length, 1024 * i, (v.drop (1024 * i)).take 1024⟩

/-- Send segments while the allowance covers them; the rest waits (R421) (log 206, DEDUCED). -/
def State.sendSegs (s : State) (m : MasterId) (l : List NotifySeg) : State :=
  l.foldl (fun s q =>
    let x := s.master m
    if x.unsent.isEmpty ∧ s.notifyBits m q.data.length ≤ x.allowance then s.sendNotify m q
    else s.modMaster m fun x => { x with unsent := x.unsent ++ [q] }) s

/-- Segments that waited are sent as far as the allowance now reaches (log 206, DEDUCED). -/
def State.flushSegs (s : State) (m : MasterId) : State :=
  let s1 := s.refill m
  (s1.modMaster m fun x => { x with unsent := [] }).sendSegs m (s1.master m).unsent

/-- The value of a subscription's object as a notification carries it: status and value (R420). -/
def State.sample (s : State) (m : MasterId) (k : ObjKey) : Nat × List Byte :=
  match s.readObj m k with
  | .ok v => (rcOk, v)
  | .error c => (c, [])

/-- A subscription of a master. -/
def State.sub? (s : State) (m : MasterId) (no : Nat) : Option Subscription := (s.master m).subs.find? fun q => q.no == no

/-- `s` with a subscription changed. -/
def State.modSub (s : State) (m : MasterId) (no : Nat) (g : Subscription → Subscription) : State :=
  s.modMaster m fun x => { x with subs := x.subs.map fun q => if q.no = no then g q else q }

/-- The object is a STREAM. -/
def ObjKey.stream (k : ObjKey) : Bool := match findObj k.idx k.sub with
  | some o => o.access == .stream
  | none => false

/-- A notification may begin: none is under way, and the allowance covers its first segment. -/
def State.mayNotify (s : State) (m : MasterId) (n : Nat) : Bool :=
  (s.master m).unsent.isEmpty && decide (s.notifyBits m (min n 1024) ≤ (s.master m).allowance)

/-- Send the instances of a STREAM object that wait, oldest first (R420). -/
def State.sendLate (s : State) (m : MasterId) (no : Nat) : State :=
  match s.sub? m no with
  | none => s
  | some q => q.late.foldl (fun s e =>
      if (((s.sub? m no).map fun q => q.late.head? == some e).getD false) ∧ s.mayNotify m e.2.length then
        (s.modSub m no fun q => { q with late := q.late.drop 1 }).sendSegs m (segmentsOf q rcOk e.1 e.2)
      else s) s

/-- Notify the value in force when it differs from the one last notified; delayed while the allowance does not reach
(R420, R421) (log 205, DEDUCED). -/
def State.notifyChange (s : State) (m : MasterId) (no : Nat) : State :=
  match s.sub? m no with
  | none => s
  | some q =>
    let v := s.sample m q.key
    let now := leBytes 2 v.1 ++ v.2
    if q.last = some now ∨ !s.mayNotify m v.2.length then s
    else (s.modSub m no fun q => { q with last := some now, since := s.tray.now }).sendSegs m
      (segmentsOf q v.1 (s.sampleTime q.key) v.2)

/-- A new instance of a STREAM object goes to its subscribers (R420). -/
def State.streamInstance (s : State) (k : ObjKey) (v : List Byte) : State :=
  let t := s.sampleTime k
  [(1 : MasterId), 2].foldl (fun s m =>
    match (s.master m).subs.find? fun q => q.key == k with
    | none => s
    | some q => if q.renewed + 60000000000 ≤ s.tray.now then s
      else ((s.modSub m q.no fun q => { q with late := q.late ++ [(t, v)] }).flushSegs m).sendLate m q.no) s

/-! ### SUBSCRIBE (R418) -/

/-- Cancel the subscription to an object (mode 0). -/
def State.lapCancel (s : State) (m : MasterId) (f : List Byte) : State :=
  if (objOf (fKey f)).isNone then s.lapRefuse m f rcNoSuchItem
  else if fField f 20 4 ≠ 0 then s.lapRefuse m f rcOutOfRange
  else
    let no := (((s.master m).subs.find? fun q => q.key == fKey f).map Subscription.no).getD 0
    (s.modMaster m fun x => { x with subs := x.subs.filter fun q => q.key != fKey f }).lapReply m f rcOk 0
      (leBytes 2 no ++ [0#8, 0#8])

/-- Drop the subscriptions whose 60 s have passed (R419). -/
def Master.liveSubs (x : Master) (now : Ns) : Master :=
  { x with subs := x.subs.filter fun q => decide (now < q.renewed + 60000000000) }

/-- SUBSCRIBE (R418 to R420) (log 205, DEDUCED). -/
def State.lapSubscribe (s : State) (m : MasterId) (f : List Byte) : State :=
  let mode := fByte f 16
  let period := fField f 20 4
  let k := fKey f
  let s := s.modMaster m fun x => x.liveSubs s.tray.now
  if m = 3 then s.lapRefuse m f rcWrongService
  else if mode = 0 then s.lapCancel m f
  else match objOf k with
    | none => s.lapRefuse m f rcNoSuchItem
    | some o =>
      if o.access = .wo ∨ o.access = .cmd then s.lapRefuse m f rcNotReadable
      else if o.expert ∧ !s.isExpert m then s.lapRefuse m f rcLevelRequired
      else if 2 < mode ∨ (mode = 1 ∧ (period = 0 ∨ 10000 < period)) ∨ (mode = 2 ∧ period ≠ 0) ∨
          (mode = 1 ∧ o.access = .stream) then s.lapRefuse m f rcOutOfRange
      else
        let x := s.master m
        let old := x.subs.find? fun q => q.key == k
        if old.isNone ∧ 64 ≤ x.subs.length then s.lapRefuse m f rcTooManySubs
        else
          let no := match old with
            | some q => q.no
            | none => x.subNo % 65535 + 1
          let per := if mode = 1 then period else 0
          let q : Subscription := { no := no, key := k, period := per, since := s.tray.now, renewed := s.tray.now, peer := s.peerOf m (fSeq f) }
          let add (x : Master) : Master :=
            let keep := x.subs.filter fun q => q.key != k
            let last := if old.isNone then no else x.subNo
            { x with subs := keep ++ [q], subNo := last }
          let s1 := (s.modMaster m add).lapReply m f rcOk 0 (leBytes 2 no ++ [0#8, 0#8])
          let s2 := s1.flushSegs m
          if mode = 1 then s2
          else if k.stream then match s2.readObj m k with
            | .ok v => (s2.modSub m no fun q => { q with late := [(s2.sampleTime k, v)] }).sendLate m no
            | .error _ => s2
          else s2.notifyChange m no

/-! ### Unlock (15.5) -/

/-- UNLOCK_CHALLENGE (R391): a fresh nonce replaces the master's old one; a fresh ephemeral key comes with it (R422). -/
def State.lapChallenge (s : State) (m : MasterId) (f : List Byte) : State :=
  let (nonce, s1) := s.freeBytes 16
  let (no, s2) := s1.takeFree
  (s2.modMaster m fun x => { x with nonce := some ⟨nonce, s.tray.now, no⟩ }).lapReply m f rcOk 0
    (nonce ++ traySerial ++ leBytes 97 (Config.ephemeralKey no).toNat)

/-- Count an UNLOCK_FAILED and answer it (R640) (log 203, DEDUCED). -/
def State.unlockFailed (s : State) (m : MasterId) (f : List Byte) : State :=
  (s.modTray fun y => { y with leg := { y.leg with unlockFailures := satAdd 32 y.leg.unlockFailures 1 } }).lapRefuse m f
    rcUnlockFailed

/-- A lockout that has ended leaves a count of 0 (R389). -/
def State.endLockout (s : State) : State :=
  match s.tray.leg.lockoutEnd with
  | some t => if t ≤ s.accNow then s.modTray fun y => { y with leg := { y.leg with lockoutEnd := none, pwFailures := 0 } } else s
  | none => s

/-- A failed password (R389): the eighth in a row starts the lockout. -/
def State.pwFailed (s : State) : State :=
  let n := s.tray.leg.pwFailures + 1
  s.modTray fun y => { y with leg := { y.leg with
    pwFailures := n, lockoutEnd := if 8 ≤ n then some (s.accNow + 600000000000) else y.leg.lockoutEnd } }

/-- Expert opens (R387, R394, R413): the sequence record then holds this UNLOCK_RESPONSE alone. -/
def State.openSession (s : State) (m : MasterId) (f : List Byte) (byPassword : Bool) (ktag : List Byte) : State :=
  let dur := fField f 20 4
  (s.modMaster m fun x => { x with
    session := some { byPassword := byPassword, ends := s.tray.now + 1000000000 * dur, ktag := ktag, opener := f }
    high := some (fSeq f), seen := [fSeq f], responses := [] }).lapReply m f rcOk 0 (leBytes 4 dur)

/-- Stage 1 of R640: reserved fields, body length, then ranges. -/
def State.unlockBody (s : State) (f : List Byte) : Option (Nat × Nat) :=
  let n := fBodyLen f
  let method := fByte f 16
  let len := fByte f 128
  let dur := fField f 20 4
  let rsv := ((nonZeroAt (f.take (16 + n)) 18 2).or (nonZeroAt (f.take (16 + n)) 121 7)).or
    (if method = 0 then nonZeroAt (f.take (16 + n)) 129 3 else none)
  match rsv with
  | some i => some (rcMalformed, i)
  | none =>
    if (method = 1 ∧ n ≠ 208) ∨ (method = 0 ∧ (n < 132 ∨ n ≠ 132 + len)) then some (rcMalformed, 12)
    else if 1 < method ∨ fByte f 17 ≠ 1 ∨ (method = 0 ∧ (len < 8 ∨ 64 < len)) ∨ dur < 60 ∨
        min 28800 (s.setting 0x1100 0xD 0xF) < dur then some (rcOutOfRange, 0)
    else none

/-- Stage 4 of R640 by password (R389, R422, R423): `keys` is K_tag and K_enc. -/
def State.unlockPassword (s : State) (m : MasterId) (f keys : List Byte) : State :=
  match s.tray.leg.password with
  | none => s.unlockFailed m f
  | some (salt, hash) =>
    let len := fByte f 128
    match Config.gcmOpen (keys.drop 32) ((f.drop 16).take 116) ((f.drop 132).take len) ((f.drop (132 + len)).take 16) with
    | none => s.pwFailed.unlockFailed m f
    | some pw =>
      if sha384 (salt ++ pw) ≠ hash then s.pwFailed.unlockFailed m f
      else (s.modTray fun y => { y with leg := { y.leg with pwFailures := 0 } }).openSession m f true (keys.take 32)

/-- Stage 4 of R640 by signature (R390, R392). -/
def State.unlockSignature (s : State) (m : MasterId) (f nonce keys : List Byte) : State :=
  let msg := ascii "K8UNLOCK" ++ nonce ++ traySerial ++ [(f.getD 17 0#8), 0#8, 0#8, 0#8] ++ (f.drop 20).take 4
  match s.tray.leg.unlockKey with
  | none => s.unlockFailed m f
  | some key =>
    if !Config.verify key msg ((f.drop 128).take 96) then s.unlockFailed m f
    else
      let free (l : Legend) : Legend := if l.lockoutEnd.isSome then { l with lockoutEnd := none, pwFailures := 0 } else l
      (s.modTray fun y => { y with leg := free y.leg }).openSession m f false (keys.take 32)

/-- UNLOCK_RESPONSE: the four stages of R640. The keys come by HKDF from the nonce and the ECDH product (R422) (log 203, DEDUCED). -/
def State.lapUnlock (s0 : State) (m : MasterId) (f : List Byte) : State :=
  let s := s0.endLockout
  match s.unlockBody f with
  | some (c, det) => s.lapReply m f c det []
  | none =>
    if fByte f 16 = 0 ∧ s.tray.leg.lockoutEnd.isSome then s.lapRefuse m f rcLockedOut
    else
      let s1 := s.modMaster m fun x => { x with nonce := none }
      match (s.master m).nonce with
      | none => s1.unlockFailed m f
      | some nc =>
        let key := (f.drop 24).take 97
        if nc.at_ + 60000000000 < s.tray.now ∨ !Config.isPoint key then s1.unlockFailed m f
        else
          let z := beBytes 48 (Config.ecdhX nc.keyNo key).toNat
          let keys := hkdf64 nc.bytes z (ascii "K8LAP" ++ traySerial ++ [BitVec.ofNat 8 m.val])
          if fByte f 16 = 0 then s1.unlockPassword m f keys else s1.unlockSignature m f nc.bytes keys

/-- LOCK (R387): its response is the last tagged frame (R424). -/
def State.lapLock (s : State) (m : MasterId) (f : List Byte) : State := (s.lapReply m f rcOk 0 []).endSession m

/-- The SPDM service (R534, R535). -/
def State.lapSpdm (s : State) (m : MasterId) (f : List Byte) : State :=
  let p := s.spdmRun (.lap m) (fBody f)
  p.1.lapReply m f rcOk 0 p.2

/-! ### A request (R425) -/

/-- The service of a request that is new. -/
def State.lapService (s : State) (m : MasterId) (f : List Byte) : State :=
  match fService f with
  | 0x01 => s.lapRead m f
  | 0x02 => s.lapWrite m f false (fBody f)
  | 0x03 => s.lapReadBlock m f
  | 0x04 => s.lapWriteBlock m f
  | 0x05 => s.lapWrite m f true (fBody f)
  | 0x06 => s.lapSubscribe m f
  | 0x08 => s.lapChallenge m f
  | 0x09 => s.lapUnlock m f
  | 0x0A => s.lapLock m f
  | 0x0B => s.lapSpdm m f
  | _ => s.lapRefuse m f rcUnknownService

/-- UNLOCK_RESPONSE is MALFORMED by stage 1 of R640: as under R409, it does not count as a request (log 200, DEDUCED). -/
def State.malformed (s : State) (f : List Byte) : Option Nat :=
  match malformedAt f with
  | some i => some i
  | none => if fService f = 9 then match s.unlockBody f with
      | some (c, i) => if c = rcMalformed then some i else none
      | none => none
    else none

/-- The tag check of R424. -/
inductive TagCheck where
  | pass | fail
  /-- The untagged copy of the UNLOCK_RESPONSE that opened the session. -/
  | opener
  deriving DecidableEq, Repr

/-- R424 for a frame of a master. -/
def Master.tagCheck (x : Master) (f : List Byte) : TagCheck :=
  match x.session with
  | none => if fTagged f then .fail else .pass
  | some e => if tagOk e.ktag f then .pass else if !fTagged f ∧ f = e.opener then .opener else .fail

/-- A frame of master m, from the station `dst`, reaches the tray: frame and tag checks, sequence, service (R409 to R425). While no image runs it is
lost (R611) (log 210, DEDUCED). -/
def State.lapRequest (s : State) (m : MasterId) (dst : Option Peer) (f : List Byte) : State :=
  if !s.trayAnswers then s.lapDrop m
  else if !frameFits m f then s.lapDiscard m
  else match (s.master m).tagCheck f with
    | .fail => s.tagFail m
    | .opener => s.lapResend m dst (fSeq f)
    | .pass => match s.malformed f with
      | some i => s.lapMalformed m dst f i
      | none =>
        let s1 := s.modMaster m fun x => x.window s.tray.now
        match (s1.master m).classify (fSeq f) with
        | .old => s1.lapDiscard m
        | .duplicate => s1.lapResend m dst (fSeq f)
        | .new => (s1.modMaster m fun x => x.accept (fSeq f) s.tray.now dst).lapService m f

/-- A frame in the request buffer of the mailbox owner (R458, R459). -/
def State.mailbox (s : State) (p : Fin 2) (f : List Byte) : State :=
  (s.modPf p fun x => { x with mboxBusy := true, mboxReady := false, mboxNotTaken := false, mboxSeq := fSeq f }).lapRequest 3 none f

/-- A frame as a row of the table carries it: from a station on field port A or B, or of the mailbox owner for master 3 while it has no
request in progress (log 207, DEDUCED). -/
def State.lapRow (s : State) (m : MasterId) (dst : Peer) (f : List Byte) : State :=
  if m = 0 then s
  else if m = 3 then match s.tray.mbox with
    | none => s
    | some p => if (s.pf p).mboxBusy then s else s.mailbox p f
  else s.lapRequest m (some dst) f

end Sys2Proof.Machine
end

