-- ==== Sys2Proof/Machine/FrameEvents.lean ====
section
/-! DEFINITION. The end of a frame of the map composer (10.5, 10.6). -/

namespace Sys2Proof.Machine
open Sys2Proof

/-- FRAME_COMPLETE (R245 to R248, R460): a frame that is not written in full in time is dropped, and one for the host ring
without an owner of the mailbox. The field stream takes every m-th frame (log 150, DEDUCED). -/
def execFrameComplete (d : DieId) (inTime : Bool) (s : State) : Host.Outcome State Fault Refusal :=
  let c := (s.die d).cmp
  match c.frame with
  | none => .next s
  | some bytes =>
    let s1 := s.modCmp d fun c => { c with frame := none }
    let out := c.set 0xF
    let drop (s : State) : State := s.modCmp d fun c => { c with dropped := satAdd 32 c.dropped 1 }
    if !inTime ∨ !(s.die d).composes then .next (drop s1)
    else
      let s2 := if !bit out 0 then s1 else if c.owner.isNone ∧ !c.ringStopped then drop s1 else s1.ringFrame d bytes
      let n := leNat ((bytes.drop 4).take 4)
      if !bit out 1 ∨ n % max 1 (c.set 0x12) ≠ 0 then .next s2
      else
        .next ((s2.modCmp d fun c => { c with latest := some bytes }).streamInstance ⟨0x2700, 0x1C, d.val⟩ bytes)

end Sys2Proof.Machine
end

