-- ==== Sys2Proof/Machine/HostOps.lean ====
section
/-! DEFINITION. What the host-port rows share (chapters 17 and 18): function errors, activation, doorbells, the cycle check,
the mailbox, register writes and the resets of functions. -/

namespace Sys2Proof.Machine
open Sys2Proof

/-- A virtual function that exists. -/
def State.vf? (s : State) (p n : Nat) : Option VF := KV.get? s.vfs (p, n)

/-- BAR accesses of the function complete: it exists, Memory Space Enable is set, and it is no PF in D3hot (R446, R447). -/
def State.readable (s : State) (f : Fn) : Bool :=
  match f with
  | .pf p => (s.pf (portIx p)).mse && !(s.pf (portIx p)).d3hot
  | .vf p n => (s.pf (portIx p)).vfMse && (s.vf? p n).isSome

/-- BAR writes of the function are taken: a VF in reset ignores them (R463) (log 229, DEDUCED). -/
def State.decodes (s : State) (f : Fn) : Bool :=
  s.readable f && match f with
    | .pf _ => true
    | .vf p n => match s.vf? p n with
      | some v => !v.inReset
      | none => false

/-! ### Function errors (R449, R450) -/

/-- FUNC_ERROR bits (Table 17.3). -/
def feHandle : Nat := 0
def feQueue : Nat := 1
def feTail : Nat := 2
def fePartial : Nat := 3
def feNotReady : Nat := 4
def feTable : Nat := 5
def feRing : Nat := 7

/-- A failed check of a doorbell: FUNC_ERROR bit, ERROR_DOORBELL and the function-error notice with the bit in its byte 16
(R450, Table 17.6) (log 220, DEDUCED). -/
def State.funcError (s : State) (p n b value : Nat) : State :=
  (s.modVf p n fun x => { x with funcError := x.funcError ||| BitVec.ofNat 8 (2 ^ b), errDoorbell := value }).notice (.vf p n)
    4 1 0xF s.trayTime (b + 256 * (value % 2 ^ 56))

/-! ### Activation (R470, R471) -/

/-- The queue that descriptor q of a context-table entry describes (Table 18.2) (log 221, DEDUCED). -/
def entryQueue (e : List Byte) (q : Nat) : Option Queue :=
  let b := 64 + 24 * q
  let sub := leNat ((e.drop b).take 8)
  if sub = 0 then none
  else some { sub := sub, comp := leNat ((e.drop (b + 8)).take 8), z := (e.getD (b + 16) 0#8).toNat,
              vector := (e.getD (b + 17) 0#8).toNat, horizon := leNat ((e.drop (b + 20)).take 4) }

/-- The entry is usable for a generation (R470) (log 221, DEDUCED). -/
def entryUsable (e : List Byte) (gen : Nat) : Bool :=
  let zero (i n : Nat) : Bool := ((e.drop i).take n).all fun b => b == 0#8
  e.getD 0 0#8 == 1#8 && (e.getD 1 0#8).toNat == gen && zero 2 62 &&
    (List.range 8).all fun q => zero (64 + 24 * q + 18) 2 && match entryQueue e q with
      | none => true
      | some x => decide (4 ≤ x.z ∧ x.z ≤ 16) && decide (x.horizon ≤ 60000) && decide (x.vector ≤ 15)

/-- The context an entry describes. -/
def entryCtx (e : List Byte) (gen : Nat) : Ctx := { gen := gen, queues := (List.range 8).map fun q => entryQueue e q }

/-- An EVICT with destroy of the context is under way (18.11). -/
def Ctx.dying (c : Ctx) : Bool := c.queues.any fun o => match o with
  | some x => match x.cmds with
    | e :: _ => e.op == 0x04 && e.started.isSome && e.byte 8 % 2 == 1
    | [] => false
  | none => false

/-- The context a doorbell names, activated by its entry when need be, or the FUNC_ERROR bit of the check it fails (R450,
R470, R471). -/
def State.bellCtx (s : State) (t h : Nat) (v : VF) (entry : List Byte) : Except Nat Ctx :=
  match s.ctx? t h with
  | some c => if c.dying then .error feHandle else .ok c
  | none =>
    if (s.ctxs.any fun p => p.1.1 == t && p.1.2 % 4096 == h % 4096) ∨ v.ctxSize ≤ h % 4096 then .error feHandle
    else if entry.length < 256 then .error feTable
    else if !entryUsable entry (h / 4096) ∨ 65536 ≤ s.ctxs.length then .error feHandle
    else .ok (entryCtx entry (h / 4096))

/-! ### Cycles of waits (R503, 18.9.2) -/

/-- A command that waits in a queue: context handle, queue, place in the queue. -/
structure CycleNode where
  h : Nat
  q : Nat
  i : Nat
  c : Cmd
  deriving DecidableEq, Repr

/-- The commands of every queue of a tenant that are not refused, in queue order. -/
def State.chains (s : State) (t : Nat) : List (List CycleNode) :=
  ((s.ctxs.filter fun p => p.1.1 == t).map fun p =>
    (List.range 8).map fun q => match p.2.queues.getD q none with
      | some x => (x.cmds.mapIdx fun i c => CycleNode.mk p.1.2 q i c).filter fun y => !y.c.refused
      | none => []).flatten

/-- The satisfier set of a WAIT: exposed SIGNALs that have not started and name its event with a value that is enough. -/
def satisfiers (ns : List CycleNode) (w : CycleNode) : List CycleNode :=
  ns.filter fun x => x.c.op == 0x09 && x.c.started.isNone && x.c.fld 8 2 == w.c.fld 8 2 && decide (w.c.fld 16 8 ≤ x.c.fld 16 8)

/-- A WAIT with satisfiers, all of them in a set. -/
def waitIn (ns D : List CycleNode) (x : CycleNode) : Bool :=
  x.c.op == 0x0A && !(satisfiers ns x).isEmpty && (satisfiers ns x).all fun y => D.contains y

/-- One round of the dependents of a set: the commands behind a member of their queue, and the WAITs whose every satisfier
is a member. -/
def dependStep (cs : List (List CycleNode)) (D : List CycleNode) : List CycleNode :=
  let ns := cs.flatten
  (cs.map fun ch => ch.filter fun x =>
    D.contains x || (ch.any fun y => decide (y.i < x.i) && D.contains y) || waitIn ns D x).flatten

/-- The commands that depend on a command (18.9.2). -/
def dependents (cs : List (List CycleNode)) (x : CycleNode) : List CycleNode :=
  (List.range cs.flatten.length).foldl (fun D _ => dependStep cs D) [x]

/-- A WAIT closes a cycle (18.9.2). -/
def State.closes (s : State) (t : Nat) (cs : List (List CycleNode)) (w : CycleNode) : Bool :=
  w.c.op == 0x0A && decide ((s.event t (w.c.fld 8 2)).value < w.c.fld 16 8) && waitIn cs.flatten (dependents cs w) w

/-- The command to refuse (R503): the newest WAIT of a cycle that doorbell `bell` exposed, else its newest SIGNAL (log 224, DEDUCED). -/
def State.cycleVictim (s : State) (t bell : Nat) : Option CycleNode :=
  let cs := s.chains t
  match cs.flatten.find? fun w => s.closes t cs w with
  | none => none
  | some w =>
    let cyc := (dependents cs w).filter fun x => (x.c.op == 0x09 || x.c.op == 0x0A) && x.c.bell == bell &&
      (dependents cs x).contains w
    let newest (op : Nat) : Option CycleNode := (sortBy CycleNode.i (cyc.filter fun x => x.c.op == op)).getLast?
    (newest 0x0A).or (newest 0x09)

/-- Refuse one command (R503, R504): it takes its place in order. -/
def State.refuse (s : State) (t : Nat) (x : CycleNode) : State :=
  (s.modQueue t x.h x.q fun y => { y with cmds := y.cmds.modify x.i fun c => { c with refused := true } }).settle t x.h x.q

/-- The check after a doorbell, repeated until no cycle remains (R503) (log 224, DEDUCED). -/
def State.breakCycles (s : State) (t bell : Nat) : State :=
  (List.range (s.chains t).flatten.length).foldl (fun s _ => match s.cycleVictim t bell with
    | some x => s.refuse t x
    | none => s) s

/-! ### Doorbells (R449 to R451, R473, R475, R548) -/

/-- The dies that a doorbell of a context thaws: the one it is resident on, and those that an exposed RESIDE names (R548). -/
def State.bellDies (s : State) (t h : Nat) (cmds : List Cmd) : List Nat :=
  (match (s.ctx? t h).bind Ctx.resident with
    | some r => [r.1]
    | none => []) ++ (cmds.filter fun c => c.op == 0x03 && decide (c.byte 8 < 8)).map fun c => c.byte 8

/-- Thaw a frozen die for a doorbell while 0x7000:03 is 1 and hold-up does not hold it (R548). -/
def State.bellThaw (s : State) (n : Nat) : State :=
  let d := dieOf n
  if s.dset d 0x7000 3 = 1 ∧ !(s.die d).holdupFrozen then s.thawTrigger d else s

/-- A doorbell that is fetched: its context, queue and tail are checked, and the newly exposed commands join their queue (log 222, DESIGN CHOICE). -/
def State.bellGo (s : State) (p n value : Nat) (entry : List Byte) (cmds : List (List Byte)) : State :=
  match s.vf? p n with
  | none => s
  | some v => match v.tenant with
    | none => s
    | some t =>
      let h := bits value 19 0
      let q := bits value 22 20
      let tail := bits value 47 32
      match s.bellCtx t h v entry with
      | .error b => s.funcError p n b value
      | .ok c => match c.queues.getD q none with
        | none => s.funcError p n feQueue value
        | some x =>
          if 2 ^ x.z ≤ tail then s.funcError p n feTail value
          else
            let bell := (s.tenant t).bells + 1
            let count := (tail + 2 ^ x.z - x.tail) % 2 ^ x.z
            let new := (List.range count).map fun i =>
              ({ idx := (x.tail + i) % 2 ^ x.z, bytes := cmds.getD i (List.replicate 64 0#8), bell := bell } : Cmd)
            let s1 := (if (s.ctx? t h).isSome then s else s.setCtxs fun cs => KV.put cs (t, h) c).modTenant t fun y =>
              { y with bells := bell }
            let s2 := (s1.modQueue t h q fun y => { y with tail := tail, cmds := y.cmds ++ new }).settle t h q
            ((s2.breakCycles t bell).bellDies t h new).foldl State.bellThaw (s2.breakCycles t bell)

/-- A doorbell reaches a function that takes BAR writes: size, readiness and reserved fields first (R449, R450). Its host reads
wait while Bus Master Enable is clear (R446) (log 220, DEDUCED). -/
def State.doorbell (s : State) (p n size value : Nat) (entry : List Byte) (cmds : List (List Byte)) : State :=
  match s.vf? p n with
  | none => s
  | some v =>
    if !s.decodes (.vf p n) then s
    else if size ≠ 8 then s.funcError p n fePartial value
    else if !s.tray.fw.trayReady ∨ v.tenant.isNone then s.funcError p n feNotReady value
    else if bits value 31 23 ≠ 0 ∨ bits value 63 48 ≠ 0 then s.funcError p n feHandle value
    else if !v.bme then s.holdOp (.vf p n) (.bell value entry cmds)
    else s.bellGo p n value entry cmds

/-- The operations that waited for Bus Master Enable follow in their order (R446) (log 223, DEDUCED). -/
def State.flushHeld (s : State) (f : Fn) : State :=
  let run (l : List HostOp) (s : State) : State := l.foldl (fun s o => match o with
    | .write a b => s.hostWrite f a b
    | .notice b => s.writeNotice f b
    | .msix v => s.msix f v
    | .bell v e c => match f with
      | .vf p n => s.bellGo p n v e c
      | .pf _ => s) s
  if !s.canSend f then s
  else match f with
    | .pf p => run (s.pf (portIx p)).held (s.modPf (portIx p) fun x => { x with held := [] })
    | .vf p n => run (((s.vf? p n).map VF.held).getD []) (s.modVf p n fun x => { x with held := [] })

/-! ### The mailbox (R457 to R460) -/

/-- The mailbox owner loses it: a request in progress is abandoned, and host-ring output stops (R457, R460, R247) (log 225, DEDUCED). -/
def State.mboxRelease (s : State) : State :=
  match s.tray.mbox with
  | none => s
  | some p => ((s.modPf p fun x => { x with mboxBusy := false, claim := false }).modTray fun y => { y with mbox := none }).allDies
      fun x => { x with cmp := { x.cmp with ringStopped := true } }

/-- A write of MBOX_CLAIM (R457): a claim succeeds while no PF owns the mailbox or the owner's link is down. -/
def State.claim (s : State) (p : Fin 2) (v : Nat) : State :=
  if v % 2 = 0 then
    if s.tray.mbox = some p then s.mboxRelease else s.modPf p fun x => { x with claim := false }
  else
    let s1 := s.modPf p fun x => { x with claim := true }
    match s.tray.mbox with
    | none => s1.modTray fun y => { y with mbox := some p }
    | some o =>
      if o ≠ p ∧ (s.pf o).link.isNone then (s1.mboxRelease).modTray fun y => { y with mbox := some p } else s1

/-- A write of MBOX_DOORBELL (R458, R459). -/
def State.mboxBell (s : State) (p : Fin 2) (len : Nat) : State :=
  let x := s.pf p
  if s.tray.mbox ≠ some p then s.modPf p fun x => { x with mboxNotOwner := true }
  else if x.mboxBusy then s.modPf p fun x => { x with mboxNotTaken := true }
  else
    let s1 := s.modPf p fun x => { x with mboxNotOwner := false }
    if 2048 < len then
      (s1.modPf p fun x => { x with mboxReady := false }).lapDiscard 3
    else s1.mailbox p ((x.reqBuf ++ List.replicate (2048 - x.reqBuf.length) 0#8).take len)

/-! ### Register writes (R448, R453) -/

/-- Replace 32-bit word i of a number. -/
def putWord (old i v : Nat) : Nat := old - bits old (32 * i + 31) (32 * i) * 2 ^ (32 * i) + v % 2 ^ 32 * 2 ^ (32 * i)

/-- A write that R453 ignores. -/
def State.ringIgnored (s : State) (f : Fn) : State :=
  match f with
  | .pf _ => s
  | .vf p n => s.modVf p n fun x => { x with funcError := x.funcError ||| 0x80#8 }

/-- A valid notice ring size (R453). -/
def ringSizeOk (v : Nat) : Bool := (List.range 9).any fun k => v == 2 ^ (k + 4)

/-- A word written to a notice ring register (R453). -/
def State.ringWord (s : State) (f : Fn) (off v : Nat) : State :=
  let r := s.ring f
  match off with
  | 0x2010 => if r.size ≠ 0 ∨ v % 4096 ≠ 0 then s.ringIgnored f
      else s.modRing f fun r => { r with base := putWord r.base 0 v }
  | 0x2014 => if r.size ≠ 0 then s.ringIgnored f else s.modRing f fun r => { r with base := putWord r.base 1 v }
  | 0x2018 =>
    if v = 0 then s.modRing f fun r => { r with size := 0, head := 0, tail := 0 }
    else if r.size = 0 ∧ ringSizeOk v then s.modRing f fun r => { r with size := v, head := 0, tail := 0 }
    else s.ringIgnored f
  | 0x201C =>
    if r.size = 0 ∨ r.size < (r.tail + 2 ^ 32 - v % 2 ^ 32) % 2 ^ 32 then s.ringIgnored f
    else s.modRing f fun r => { r with head := v % 2 ^ 32 }
  | _ => s

/-- A vector is unmasked: a pending cause is sent (R456). -/
def State.unmask (s : State) (f : Fn) (v : Nat) : State :=
  let s1 := s.modVec f v fun x => { x with masked := false, pend := false }
  if (s.vec f v).pend then s1.msix f v else s1

/-- A word written to the MSI-X table. -/
def State.msixWord (s : State) (f : Fn) (i v : Nat) : State :=
  let n := i / 4
  match i % 4 with
  | 0 => s.modVec f n fun x => { x with addr := putWord x.addr 0 v }
  | 1 => s.modVec f n fun x => { x with addr := putWord x.addr 1 v }
  | 2 => s.modVec f n fun x => { x with data := v % 2 ^ 32 }
  | _ => if v % 2 = 1 then s.modVec f n fun x => { x with masked := true } else s.unmask f n

/-- Number of vectors of a function (R455). -/
def Fn.vectors : Fn → Nat
  | .pf _ => 2
  | .vf _ _ => 16

/-- A word written to a register of its own of a VF (Table 17.3). The low 12 bits of a table base, which is 4 KiB aligned, are dropped,
and a table size above its limit is ignored (log 280, DESIGN CHOICE). -/
def State.vfWord (s : State) (p n off v : Nat) : State :=
  match s.vf? p n with
  | none => s
  | some x =>
    let free : Bool := match x.tenant with
      | some t => !s.ctxs.any fun c => c.1.1 == t && c.2.resident.isSome
      | none => true
    let low := v / 4096 * 4096
    match off with
    | 0x10 => if free then s.modVf p n fun x => { x with ctxBase := putWord x.ctxBase 0 low } else s
    | 0x14 => if free then s.modVf p n fun x => { x with ctxBase := putWord x.ctxBase 1 v } else s
    | 0x18 => if free ∧ v ≤ 4096 then s.modVf p n fun x => { x with ctxSize := v } else s
    | 0x20 => s.modVf p n fun x => { x with
        funcError := x.funcError &&& ~~~(BitVec.ofNat 8 v), overflow := x.overflow && !bit v 6 }
    | 0x2000 => if free then s.modVf p n fun x => { x with evBase := putWord x.evBase 0 low } else s
    | 0x2004 => if free then s.modVf p n fun x => { x with evBase := putWord x.evBase 1 v } else s
    | 0x2008 => if free ∧ v ≤ 65536 then s.modVf p n fun x => { x with evSize := v } else s
    | _ => s

/-- A word written to a register of its own of a PF (Table 17.7). -/
def State.pfWord (s : State) (p : Fin 2) (off v : Nat) : State :=
  if off = 0x10 then s.claim p v
  else if off = 0x14 then s.mboxBell p (v % 4096)
  else if 0x1000 ≤ off ∧ off < 0x1800 then s.modPf p fun x =>
    let b := x.reqBuf ++ List.replicate (2048 - x.reqBuf.length) 0#8
    { x with reqBuf := b.take (off - 0x1000) ++ leBytes 4 v ++ b.drop (off - 0x1000 + 4) }
  else s

/-- A word written to BAR0 of a function: reserved offsets and read-only registers ignore it (R448). -/
def State.barWord (s : State) (f : Fn) (off v : Nat) : State :=
  if 0x2010 ≤ off ∧ off ≤ 0x201C then s.ringWord f off v
  else if 0x3000 ≤ off ∧ off < 0x3000 + 16 * f.vectors then s.msixWord f ((off - 0x3000) / 4) v
  else if 0x3400 ≤ off ∧ off < 0x3400 + 4 * f.vectors then
    s.modVec f ((off - 0x3400) / 4) fun x => { x with holdoff := v % 256 }
  else match f with
    | .pf p => s.pfWord (portIx p) off v
    | .vf p n => s.vfWord p n off v

/-! ### Register reads (R445, R448) -/

/-- Word i of a number of 64 bits. -/
def wordOf (v i : Nat) : Nat := bits v (32 * i + 31) (32 * i)

/-- The registers that a VF and a PF have alike: notice ring, MSI-X table, holdoffs and pending bits (Tables 17.3 and 17.7). -/
def State.sharedRead (s : State) (f : Fn) (off : Nat) : Nat :=
  let r := s.ring f
  let w := (off - 0x3000) / 4
  if off = 0x2010 then wordOf r.base 0
  else if off = 0x2014 then wordOf r.base 1
  else if off = 0x2018 then r.size
  else if off = 0x201C then r.head
  else if off = 0x2020 then r.tail
  else if 0x3000 ≤ off ∧ off < 0x3000 + 16 * f.vectors then
    let v := s.vec f (w / 4)
    [wordOf v.addr 0, wordOf v.addr 1, v.data, b2n v.masked].getD (w % 4) 0
  else if 0x3400 ≤ off ∧ off < 0x3400 + 4 * f.vectors then (s.vec f ((off - 0x3400) / 4)).holdoff
  else if off = 0x3800 then ((List.range f.vectors).map fun i => b2n (s.vec f i).pend * 2 ^ i).sum
  else 0

/-- A word of a VF's BAR0 (Table 17.3, R443); 0 at a reserved offset and at DOORBELL. -/
def State.vfRead (s : State) (p n off : Nat) : Nat :=
  match s.vf? p n with
  | none => 0
  | some v =>
    match off with
    | 0x00 => 0x4856015A
    | 0x04 => match v.tenant with | some t => t + 2 ^ 31 | none => 0
    | 0x08 => b2n (s.tray.fw.trayReady && v.tenant.isSome) + 2 * b2n v.overflow + 4 * b2n (v.funcError != 0)
    | 0x10 => wordOf v.ctxBase 0
    | 0x14 => wordOf v.ctxBase 1
    | 0x18 => v.ctxSize
    | 0x20 => v.funcError.toNat
    | 0x28 => wordOf v.errDoorbell 0
    | 0x2C => wordOf v.errDoorbell 1
    | 0x2000 => wordOf v.evBase 0
    | 0x2004 => wordOf v.evBase 1
    | 0x2008 => v.evSize
    | _ => s.sharedRead (.vf p n) off

/-- A word of a buffer of bytes. -/
def bufWord (l : List Byte) (off : Nat) : Nat := leNat ((l.drop off).take 4)

/-- A word of a PF's BAR0 (Table 17.7, R439). -/
def State.pfRead (s : State) (p : Fin 2) (off : Nat) : Nat :=
  let x := s.pf p
  let other : Fin 2 := if p = 0 then 1 else 0
  match off with
  | 0x00 => 0x4850015A
  | 0x04 => p.val
  | 0x08 => b2n s.tray.fw.trayReady + 2 * b2n (s.tray.mbox == some p) + 4 * b2n (s.tray.mbox == some other) +
      8 * b2n (s.pf other).link.isSome
  | 0x10 => b2n x.claim
  | 0x18 => b2n x.mboxBusy + 2 * b2n x.mboxReady + 4 * b2n x.mboxNotOwner + 8 * b2n x.mboxNotTaken
  | 0x1C => x.respLen
  | _ =>
    if 0x400 ≤ off ∧ off < 0x440 then
      ((List.range 32).map fun i => match s.vf? p.val (8 * (off - 0x400) + i) with
        | some v => b2n v.inReset * 2 ^ i
        | none => 0).sum
    else if 0x1000 ≤ off ∧ off < 0x1800 then bufWord x.reqBuf (off - 0x1000)
    else if 0x1800 ≤ off ∧ off < 0x2000 then bufWord x.respBuf (off - 0x1800)
    else s.sharedRead (.pf p.val) off

/-- A word of BAR0 of a function. -/
def State.barValue (s : State) (f : Fn) (off : Nat) : Nat := match f with
  | .pf p => s.pfRead (portIx p) off
  | .vf p n => s.vfRead p n off

/-- A read of BAR0 of a function (R445, R448): its value, none where it completes as Unsupported Request (R446, R447), and the state
after it, which it leaves as it is. -/
def State.barRead (s : State) (f : Fn) (off size : Nat) : Option Nat × State :=
  (if !s.readable f then none
    else some (if size = 8 ∧ off % 8 = 0 then s.barValue f off + 2 ^ 32 * s.barValue f (off + 4)
      else if size = 4 ∧ off % 4 = 0 then s.barValue f off else 0), s)

/-! ### Resets (17.9) -/

/-- Detail of the notices of source 0x10 (Table 17.6). -/
def resetDetail (v : VF) (p n : Nat) : Nat := v.tenant.getD 0xFFFF + p * 2 ^ 16 + n * 2 ^ 18

/-- Body of TENANT_HALT (R339, Table 12.13). -/
def State.haltBody (s : State) (t : Nat) (all : Bool) : List Byte :=
  leBytes 2 t ++ [BitVec.ofNat 8 (b2n all), 8#8] ++ ((List.finRange 8).map fun d => leBytes 2 (s.identity d)).flatten

/-- TENANT_HALT goes out through one die of the tray (R339) (log 227, DEDUCED). -/
def State.sendHalt (s : State) (t : Nat) (all : Bool) : State :=
  match (List.finRange 8).find? fun d => (s.die d).svc.state == .running || (s.die d).svc.state == .frost with
  | none => s
  | some d =>
    (s.takeTenantHalt d t all ((List.finRange 8).map fun e => s.identity e)).flood d 0x13 (s.haltBody t all)

/-- Steps 2, 3, 4 and 6 of Table 17.9 for a tenant: its plans stop, its banks are blanked, its counters freeze, its exposed
commands are dropped without records, its phase entries go (R463, R510, R230, R103). -/
def State.haltTenant (s : State) (t : Nat) : State :=
  let s1 := s.forDies fun s d => ((s.die d).til.runs.filter fun r => r.tenant == t).foldl
    (fun s r => s.stopRun d t r.handle r.queue) s
  let mine := s1.ctxs.filter fun p => p.1.1 == t
  let frozen := mine.map fun p => (p.1.2, p.2.energy :: p.2.queues.map fun o => match o with | some q => q.energy | none => 0)
  let stop (c : Ctx) : Ctx := { c with frozen := true, queues := c.queues.map fun o => o.map fun q => { q with cmds := [] } }
  let f (p : (Nat × Nat) × Ctx) : (Nat × Nat) × Ctx := if p.1.1 = t then (p.1, stop p.2) else p
  let s2 := s1.setCtxs fun cs => cs.map f
  let s3 := s2.modTenant t fun x => { x with frozen := frozen }
  s3.allDies fun x => { x with
    pow := { x.pow with phases := x.pow.phases.filter fun e => e.owner != t }
    til := { x.til with waiting := x.til.waiting.filter fun k => k.1 != t } }

/-- A VF reset begins (Table 17.9 steps 1 to 7): `gone` when the function ceases to exist. TENANT_HALT goes out for it alone
unless one for all tenants does. -/
def State.vfReset (s : State) (p n : Nat) (gone own : Bool) : State :=
  match s.vf? p n with
  | none => s
  | some v =>
    if v.inReset then s.modVf p n fun x => { x with gone := x.gone || gone }
    else
      let s1 := (s.modVf p n fun x => { x with inReset := true, gone := gone, held := [] }).noticePfs 0x10 1 0xF s.trayTime
        (resetDetail v p n)
      match v.tenant with
      | none => s1
      | some t => if own then (s1.haltTenant t).sendHalt t false else s1.haltTenant t

/-- Step 8 of Table 17.9 for a tenant: contexts, objects and events are destroyed, slots and reservations freed, granules
queued for zeroing, held granules given up (R463, R510, R567). -/
def State.clearTenant (s : State) (t : Nat) : State :=
  let s1 := s.setCtxs fun cs => cs.filter fun p => p.1.1 != t
  let s2 := s1.modTenant t fun x => { energy := x.energy, bells := x.bells, objNo := x.objNo, frozen := x.frozen }
  let mine (g : Granule) : Bool := match g with
    | .owned u _ => u == t
    | .held u => u == t
    | _ => false
  s2.allDies fun x =>
    let gs := (x.til.granules.filter fun p => mine p.2).map Prod.fst
    let y := gs.foldl (fun y g => y.setOwner g .zeroing) x.til
    { x with til := { y with
      slots := y.slots.map fun o => match o with
        | some k => if k.1 = t then none else o
        | none => none
      engines := y.engines.map fun e => match e.unit with
        | some u => if u.1 = t then { e with unit := none, buffer := [] } else e
        | none => e } }

/-- A VF reset completes (Table 17.9 step 8): the function holds its reset values, or is gone. -/
def State.vfResetDone (s : State) (p n : Nat) : State :=
  match s.vf? p n with
  | none => s
  | some v =>
    if !v.inReset then s
    else
      let s1 := match v.tenant with
        | some t => s.clearTenant t
        | none => s
      let s2 := if v.gone then s1.setVfs fun vs => KV.del vs (p, n) else s1.modVf p n fun x => { tenant := x.tenant }
      s2.noticePfs 0x10 2 0xF s.trayTime (resetDetail v p n)

/-- Reset every VF of a port from index `from_` on as it ceases to exist (Table 17.8) (log 228, DEDUCED). -/
def State.dropVfs (s : State) (p from_ : Nat) : State :=
  ((s.vfs.map Prod.fst).filter fun k => k.1 == p && decide (from_ ≤ k.2)).foldl (fun s k => s.vfReset k.1 k.2 true true) s

/-- Virtual function n of port p exists from now on: it takes the tenant of its entry of 0x1000:10 (R443, R436), and the
counters that a reset froze give way (R230). -/
def State.addVf (s : State) (p n : Nat) : State :=
  let e := s.setting 0x1000 0x10 0xF >>> (16 * (512 * p + n)) % 65536
  let v : VF := { tenant := if e = 0xFFFF then none else some e }
  let s1 := s.setVfs fun vs => KV.put vs (p, n) v
  match v.tenant with
  | some t => s1.modTenant t fun x => { x with frozen := [] }
  | none => s1

/-- VF Enable or NumVFs comes to cover a function (R444); a reset of its earlier self completes first. -/
def State.enableVf (s : State) (p n : Nat) : State :=
  match s.vf? p n with
  | some v => if v.gone then (s.vfResetDone p n).addVf p n else s
  | none => s.addVf p n

end Sys2Proof.Machine
end

