-- ==== Sys2Proof/Machine/HostEvents.lean ====
section
/-! DEFINITION. The rows of the host port (chapter 17): doorbells, register writes, interrupts, the mailbox, link training and
the resets of functions. -/

namespace Sys2Proof.Machine
open Sys2Proof

/-- DOORBELL (R449 to R451, R470, R473, R503, R548) (log 222, DESIGN CHOICE). -/
def execDoorbell (port n size value : Nat) (entry : List Byte) (cmds : List (List Byte)) (s : State) :
    Host.Outcome State Fault Refusal :=
  .next ((s.doorbell port n size value entry cmds).finishReset)

/-- BAR_REGISTER_WRITE (R448, R449): words, and 64-bit registers as one access of 8 bytes. A write of 8 bytes at 0x1000 is the
DOORBELL row's; one of another size there is partial (log 229, DEDUCED). -/
def execBarRegisterWrite (f : Fn) (off size value : Nat) (s : State) : Host.Outcome State Fault Refusal :=
  let bell : Bool := match f with
    | .vf _ _ => decide (off < 0x1008 ∧ 0x1000 < off + size)
    | .pf _ => false
  if !s.decodes f then .next s
  else if bell then
    match f with
    | .vf p n => if off = 0x1000 ∧ size = 8 then .next s else .next (s.funcError p n fePartial value)
    | .pf _ => .next s
  else if size = 4 ∧ off % 4 = 0 then .next (s.barWord f off (value % 2 ^ 32)).finishReset
  else if size = 8 ∧ off % 8 = 0 then
    .next ((s.barWord f off (value % 2 ^ 32)).barWord f (off + 4) (value / 2 ^ 32 % 2 ^ 32)).finishReset
  else .next s

/-- NOTICE_RING_WRITE (R453): a value above 32 bits is a write of a 64-bit register as one access. -/
def execNoticeRingWrite (f : Fn) (off value : Nat) (s : State) : Host.Outcome State Fault Refusal :=
  if !s.decodes f then .next s
  else
    let s1 := s.ringWord f off (value % 2 ^ 32)
    .next (if value < 2 ^ 32 ∨ off ≠ 0x2010 then s1 else s1.ringWord f 0x2014 (value / 2 ^ 32 % 2 ^ 32))

/-- BUS_MASTER_ENABLE_SET (R446): a write of the Command register, with the Memory Space Enable of a PF beside it; what waited
follows in its original order (log 229, DEDUCED). -/
def execBusMasterEnableSet (f : Fn) (mse : Bool) (s : State) : Host.Outcome State Fault Refusal :=
  if !s.fnLives f then .next s
  else
    let s1 := match f with
      | .pf p => s.modPf (portIx p) fun x => { x with bme := true, mse := mse }
      | .vf p n => s.modVf p n fun x => { x with bme := true }
    .next (s1.flushHeld f)

/-- HOLDOFF_EXPIRE (R456): causes merged within the holdoff give one message at its end. -/
def execHoldoffExpire (f : Fn) (v : Nat) (s : State) : Host.Outcome State Fault Refusal :=
  let x := s.vec f v
  match x.until_ with
  | none => .next s
  | some t =>
    let s1 := (s.advanceTo t).modVec f v fun x => { x with until_ := none, merged := false }
    .next (if x.merged then s1.msix f v else s1)

/-- MSIX_UNMASK (R456): a pending vector sends one message. -/
def execMsixUnmask (f : Fn) (v : Nat) (s : State) : Host.Outcome State Fault Refusal :=
  if s.decodes f then .next (s.unmask f v) else .next s

/-- MBOX_CLAIM (R457): of two claims in one tick of the gate, the PF of H0 wins. -/
def execMboxClaim (p : Fin 2) (v : Nat) (also : Bool) (s : State) : Host.Outcome State Fault Refusal :=
  let go (q : Fin 2) (w : Nat) (s : State) : State := if s.decodes (.pf q.val) then s.claim q w else s
  .next (if !also then go p v s else if v % 2 = 1 then go 1 1 (go 0 1 s) else go (if p = 0 then 1 else 0) 1 (go p v s))

/-- MBOX_DOORBELL (R458, R459). -/
def execMboxDoorbell (p : Fin 2) (len : Nat) (s : State) : Host.Outcome State Fault Refusal :=
  if s.decodes (.pf p.val) then .next (s.mboxBell p len).finishReset else .next s

/-- LINK_TRAINING (R438): the highest common rate, 64 GT/s in FLIT mode alone, and the widest common width of x4 and above. No
port leaves Detect without bus power or after a failed boot (R439, R518). -/
def execLinkTraining (p : Fin 2) (rates widths : List Nat) (flit : Bool) (s : State) : Host.Outcome State Fault Refusal :=
  if s.tray.pow.busFrom.isNone ∨ !s.tray.pow.trayEn ∨ s.tray.fw.bootFailed ∨ s.tray.pow.down then .next s
  else
    let rate := [64, 32, 16, 8].find? fun r => rates.contains r && (flit || r != 64)
    let width := [16, 8, 4].find? fun w => widths.contains w
    .next (s.modPf p fun x => { x with link := match rate, width with
      | some r, some w => some (r, w, flit)
      | _, _ => none })

/-- VF_FLR (R463, Table 17.9). -/
def execVfFlr (p : Fin 2) (n : Nat) (s : State) : Host.Outcome State Fault Refusal :=
  .next (s.vfReset p.val n false true)

/-- VF_FLR_COMPLETE (R463, Table 17.9 step 8). -/
def execVfFlrComplete (p : Fin 2) (n : Nat) (s : State) : Host.Outcome State Fault Refusal :=
  .next (s.vfResetDone p.val n)

/-- VF_ENABLE_CLEAR (R444, Table 17.8): each function that ceases to exist is reset. -/
def execVfEnableClear (p : Fin 2) (num : Nat) (s : State) : Host.Outcome State Fault Refusal :=
  .next ((s.modPf p fun x => { x with
    numVFs := min x.numVFs num, vfEnable := x.vfEnable && num != 0 }).dropVfs p.val num)

/-- The end of master 3's session and of its queued writes, and of the mailbox (R467, R387) (log 225, DEDUCED) (log 226, DEDUCED). -/
def State.endMailbox (s : State) : State :=
  (s.modMaster 3 fun x => { x with queue := [] }).mboxRelease.endSession 3

/-- PF_FLR (R467): a VF reset of every function of both ports under one TENANT_HALT for all tenants; VF Enable of the own port
clears; the function itself is reset, its link stays (log 226, DEDUCED) (log 228, DEDUCED). -/
def execPfFlr (p : Fin 2) (s : State) : Host.Outcome State Fault Refusal :=
  let s1 := (s.vfs.map Prod.fst).foldl (fun s k => s.vfReset k.1 k.2 (k.1 == p.val) false) s
  let s2 := (s1.sendHalt 0 true).endMailbox.allDies fun x => { x with cmp := { x.cmp with ringStopped := true } }
  .next (s2.modPf p fun x => { link := x.link })

/-- CONVENTIONAL_RESET (R468): the PF of the port to its reset state, each of its VFs as by an FLR; the mailbox and master 3's
session end when this PF owned it. The port trains anew. -/
def execConventionalReset (p : Fin 2) (s : State) : Host.Outcome State Fault Refusal :=
  let s1 := s.dropVfs p.val 0
  let s2 := if s1.tray.mbox = some p then s1.mboxRelease.endSession 3 else s1
  .next (s2.modPf p fun _ => {})

/-- PF_D3HOT (R447, R457). -/
def execPfD3hot (p : Fin 2) (s : State) : Host.Outcome State Fault Refusal :=
  let s1 := if s.tray.mbox = some p then s.mboxRelease else s
  .next (s1.modPf p fun x => { x with d3hot := true })

end Sys2Proof.Machine
end

