-- ==== Sys2Proof/Machine/LapEvents.lean ====
section
/-! DEFINITION. The rows of the field network (chapter 15): requests, the ends of windows, assemblies and subscriptions,
notifications, PLCA, neighbour solicitation and echo. -/

namespace Sys2Proof.Machine
open Sys2Proof

/-! ### Requests -/

/-- The tray takes a datagram (R408): to port 48710, from a link-local source, with hop limit 255 and a correct checksum, neither a
fragment nor with a VLAN tag. -/
def Datagram.taken (g : Datagram) : Bool :=
  g.port == 48710 && g.src / 2 ^ 118 == 0x3FA && g.hop == 255 && g.sound && !g.fragment && !g.vlan

/-- The station a datagram comes from (R408). -/
def Datagram.peer (g : Datagram) : Peer := ⟨g.src, g.sport⟩

/-- A frame whose service the row names; a frame of another service is another row's command (log 207, DEDUCED). On a field port
it comes in a datagram of R408; every other one is discarded. -/
def State.lapOf (s : State) (m : MasterId) (g : Datagram) (ok : Nat → Bool) : State :=
  if ok (fService g.frame) ∧ (m = 3 ∨ g.taken) then s.lapRow m g.peer g.frame else s

/-- READ (R414). -/
def execRead (m : MasterId) (g : Datagram) (s : State) : Host.Outcome State Fault Refusal :=
  .next (s.lapOf m g fun c => c == 0x01).finishReset

/-- WRITE (R414, R402). -/
def execWrite (m : MasterId) (g : Datagram) (s : State) : Host.Outcome State Fault Refusal :=
  .next (s.lapOf m g fun c => c == 0x02).finishReset

/-- READ_BLOCK (R415, R416). -/
def execReadBlock (m : MasterId) (g : Datagram) (s : State) : Host.Outcome State Fault Refusal :=
  .next (s.lapOf m g fun c => c == 0x03).finishReset

/-- WRITE_BLOCK (R417). -/
def execWriteBlock (m : MasterId) (g : Datagram) (s : State) : Host.Outcome State Fault Refusal :=
  .next (s.lapOf m g fun c => c == 0x04).finishReset

/-- COMMAND (R403). -/
def execCommand (m : MasterId) (g : Datagram) (s : State) : Host.Outcome State Fault Refusal :=
  .next (s.lapOf m g fun c => c == 0x05).finishReset

/-- SUBSCRIBE (R418). -/
def execSubscribe (m : MasterId) (g : Datagram) (s : State) : Host.Outcome State Fault Refusal :=
  .next (s.lapOf m g fun c => c == 0x06).finishReset

/-- UNKNOWN_SERVICE (R425). -/
def execUnknownService (m : MasterId) (g : Datagram) (s : State) : Host.Outcome State Fault Refusal :=
  .next (s.lapOf m g fun c => !knownService c).finishReset

/-- UNLOCK_CHALLENGE (R391). -/
def execUnlockChallenge (m : MasterId) (g : Datagram) (s : State) : Host.Outcome State Fault Refusal :=
  .next (s.lapOf m g fun c => c == 0x08).finishReset

/-- UNLOCK_RESPONSE (R640, R422, R423). -/
def execUnlockResponse (m : MasterId) (g : Datagram) (s : State) : Host.Outcome State Fault Refusal :=
  .next (s.lapOf m g fun c => c == 0x09).finishReset

/-- LOCK (R387, R424). -/
def execLock (m : MasterId) (g : Datagram) (s : State) : Host.Outcome State Fault Refusal :=
  .next (s.lapOf m g fun c => c == 0x0A).finishReset

/-! ### Ends of spans -/

/-- SEQUENCE_WINDOW_CLEAR (R413): 10 s without a request. -/
def execSequenceWindowClear (m : MasterId) (s : State) : Host.Outcome State Fault Refusal :=
  if (s.master m).high.isNone then .next s
  else
    let s1 := s.advanceTo ((s.master m).lastReq + 10000000000)
    .next (s1.modMaster m fun x => x.window s1.tray.now)

/-- ASSEMBLY_TIMEOUT (R417): 1 s without a segment. -/
def execAssemblyTimeout (m : MasterId) (s : State) : Host.Outcome State Fault Refusal :=
  match (s.master m).assembly with
  | none => .next s
  | some a => .next ((s.advanceTo (a.2.2.2 + 1000000000)).modMaster m fun x => { x with assembly := none })

/-- SUBSCRIPTION_EXPIRE (R419): 60 s after its last SUBSCRIBE. -/
def execSubscriptionExpire (m : MasterId) (no : Nat) (s : State) : Host.Outcome State Fault Refusal :=
  match s.sub? m no with
  | none => .next s
  | some q =>
    let s1 := s.advanceTo (q.renewed + 60000000000)
    .next (s1.modMaster m fun x => x.liveSubs s1.tray.now)

/-! ### Notifications -/

/-- NOTIFY_PERIODIC (R420, R421): the next multiple of the period after the SUBSCRIBE; skipped and counted when it would
exceed the allowance. -/
def execNotifyPeriodic (m : MasterId) (no : Nat) (s : State) : Host.Outcome State Fault Refusal :=
  match s.sub? m no with
  | none => .next s
  | some q =>
    if q.period = 0 ∨ !s.trayAnswers then .next s
    else
      let p := 1000000 * q.period
      let due := q.since + p * max 1 (ceilDiv (s.tray.now - q.since) p)
      if q.renewed + 60000000000 ≤ due then .next s
      else
        let s1 := ((s.advanceTo due).modSub m no fun q => { q with since := due }).flushSegs m
        let v := s1.sample m q.key
        let segs := segmentsOf q v.1 (s1.sampleTime q.key) v.2
        let cost := (segs.map fun g => s1.notifyBits m g.data.length).sum
        if !(s1.master m).unsent.isEmpty ∨ (s1.master m).allowance < cost then
          .next (s1.modTray fun y => { y with leg := { y.leg with notifSkipped := satAdd 32 y.leg.notifSkipped 1 } })
        else .next (s1.sendSegs m segs)

/-- NOTIFY_ON_CHANGE (R420, R421): the value in force when it has changed, at most once per 1 ms; the instances of a STREAM
object that wait for the allowance. -/
def execNotifyOnChange (m : MasterId) (no : Nat) (s : State) : Host.Outcome State Fault Refusal :=
  match s.sub? m no with
  | none => .next s
  | some q =>
    if q.period ≠ 0 ∨ !s.trayAnswers ∨ q.renewed + 60000000000 ≤ s.tray.now then .next s
    else if q.key.stream then .next ((s.flushSegs m).sendLate m no)
    else
      let v := s.sample m q.key
      if q.last = some (leBytes 2 v.1 ++ v.2) then .next (s.flushSegs m)
      else .next (((if q.last.isSome then s.advanceTo (q.since + 1000000) else s).flushSegs m).notifyChange m no)

/-! ### The segment: PLCA, addresses, echo -/

/-- The master of a field port. -/
def portMaster (p : Bool) : MasterId := if p then 2 else 1

/-- BEACON_TIMEOUT (R406): the port runs CSMA/CD. -/
def execBeaconTimeout (p : Bool) (s : State) : Host.Outcome State Fault Refusal :=
  .next (s.modMaster (portMaster p) fun x => { x with plca := false })

/-- NEIGHBOUR_SOLICITATION (R407): answered for the port's own address; a solicitation from no address is answered to all
nodes. -/
def execNeighbourSolicitation (p : Bool) (target src : Nat) (s : State) : Host.Outcome State Fault Refusal :=
  let a := s.portAddr p
  if target ≠ a ∨ !s.trayAnswers then .next s
  else
    let dst := if src = 0 then 0xFF020000000000000000000000000001 else src
    .next (s.emit (.field p a dst (icmp a dst 136
      (beBytes 4 (if src = 0 then 0x20000000 else 0x60000000) ++ beBytes 16 a ++ [2#8, 1#8] ++ s.portMac p))))

/-- ICMP_ECHO (R407): answered when it is sent to the port's own address; `body` follows the checksum. -/
def execIcmpEcho (p : Bool) (dst src : Nat) (body : List Byte) (s : State) : Host.Outcome State Fault Refusal :=
  let a := s.portAddr p
  if dst ≠ a ∨ !s.trayAnswers then .next s
  else .next (s.emit (.field p a src (icmp a src 129 body)))

end Sys2Proof.Machine
end

