-- ==== Sys2Proof/Machine/LateEvents.lean ====
section
/-! DEFINITION. Rows that undo what another row did, and what no other family holds: readiness lost, a converter back, bus
mastering cleared, functions enabled, DOE discovery, the end of a tray-controller restart. -/

namespace Sys2Proof.Machine
open Sys2Proof

/-- A reference input that is not in use loses its ready flag (R42, R37): a relock to it ends; with no input left the 10 ms of
R39 run. -/
def State.refGone (s : State) (d : DieId) (r : RefIn) : State :=
  let c := (s.die d).clk
  if !c.refReady r ∨ (c.refInUse = r ∧ !c.holdover) then s
  else
    let relock := c.relockTo == some r
    let none_ := !c.refReady r.other
    let s1 := s.modClk d fun c => { c.setRef r false with
      relockTo := if relock then none else c.relockTo
      switchStatus := if relock then 1 else c.switchStatus
      bothLostAt := if none_ then some (c.bothLostAt.getD s.tray.now) else c.bothLostAt }
    if relock ∧ c.holdover then s1.logClk d 0x5003 else s1

/-- SOURCE_READY_LOSS (R41, R42, Table 03.2): FOSC, SOSC, XA or XB while it is not the reference in use; OPLL, and RL outside
holdover and relock (R37). -/
def execSourceReadyLoss (d : DieId) (src : ClkSource) (s : State) : Host.Outcome State Fault Refusal :=
  .next (match src with
    | .xa => s.refGone d .xa
    | .xb => s.refGone d .xb
    | .fosc => s.modClk d fun c => { c with foscReady := false }
    | .sosc => s.modClk d fun c => { c with soscReady := false }
    | .rl => s.modClk d fun c => if c.holdover ∨ c.relockTo.isSome then c else { c with rlReady := false }
    | .opll => s.modClk d fun c => { c with opllReady := false })

/-- CONVERTER_RESTORED (R68): the restriction ends when three converters work again. -/
def execConverterRestored (n : Nat) (s : State) : Host.Outcome State Fault Refusal :=
  .next (s.modTray fun y =>
    let w := if n < 4 then y.pow.converters ||| BitVec.twoPow 4 n else y.pow.converters
    { y with pow := { y.pow with converters := w, convRestrict := y.pow.convRestrict && decide (popCount w < 3) } })

/-- BUS_MASTER_ENABLE_CLEAR (R446): a write of the Command register, with the Memory Space Enable of a PF beside it. -/
def execBusMasterEnableClear (f : Fn) (mse : Bool) (s : State) : Host.Outcome State Fault Refusal :=
  .next (match f with
    | .pf p => s.modPf (portIx p) fun x => { x with bme := false, mse := mse }
    | .vf p n => s.modVf p n fun x => { x with bme := false })

/-- PF_RETURN_TO_D0 (R447): nothing is reset. -/
def execPfReturnToD0 (p : Fin 2) (s : State) : Host.Outcome State Fault Refusal :=
  if (s.pf p).d3hot then .next ((s.modPf p fun x => { x with d3hot := false }).flushHeld (.pf p.val)) else .next s

/-- VF_ENABLE_SET (R443, R444, R436): VF Enable is set, or NumVFs raised, at up to 512 functions, with the Memory Space
Enable of the virtual functions beside it (R446). -/
def execVfEnableSet (p : Fin 2) (num : Nat) (mse : Bool) (s : State) : Host.Outcome State Fault Refusal :=
  let n := max (if (s.pf p).vfEnable then (s.pf p).numVFs else 0) (min num 512)
  .next ((List.range n).foldl (fun s i => s.enableVf p.val i) (s.modPf p fun x => { x with vfEnable := true, numVFs := n, vfMse := mse }))

/-- DOE_DISCOVERY (R461): type 0x00 names the two types of vendor 0x0001; a type other than 0x00 and 0x01 gets no answer and
sets the error bit. -/
def execDoeDiscovery (f : Fn) (ty idx : Nat) (s : State) : Host.Outcome State Fault Refusal :=
  let err : Bool := match f with
    | .pf p => (s.pf (portIx p)).doe.err
    | .vf p n => ((s.vf? p n).map fun v => v.doe.err).getD true
  if !s.fnLives f ∨ err ∨ ty = 1 then .next s
  else if ty ≠ 0 then .next (s.modDoe f fun x => { x with err := true })
  else
    let body := if idx = 0 then [1#8, 0#8, 0#8, 1#8] else if idx = 1 then [1#8, 0#8, 1#8, 0#8] else [0xFF#8, 0xFF#8, 0#8, 0#8]
    .next (s.emit (.doe f (doeObject 0 body)))

/-- TRAY_CONTROLLER_RESTART_DONE (R611): the image of the active slot runs again and records the restart with the number of
reports lost. -/
def execTrayControllerRestartDone (s : State) : Host.Outcome State Fault Refusal :=
  if !s.tray.fw.restarting then .next s
  else
    let b := s.tray.fw.slotB == .active
    let s1 := s.modFw fun f =>
      let f := if f.runB = b then f else f.runSlot b
      { f with restarting := false, lostReports := 0 }
    .next (s1.logTray 0x1502 (leBytes 2 (min s.tray.fw.lostReports 65535)))

/-- BEACON_REGAINED (R406). -/
def execBeaconRegained (p : Bool) (s : State) : Host.Outcome State Fault Refusal :=
  .next (s.modMaster (if p then 2 else 1) fun x => { x with plca := true })

end Sys2Proof.Machine
end

