-- ==== Sys2Proof/Machine/LegendEvents.lean ====
section
/-! DEFINITION. The Legend's commands (chapter 14, 03.5, 03.6), and the handoff rows that open the gate again (21.3). -/

namespace Sys2Proof.Machine
open Sys2Proof

/-! ### Commits -/

/-- PERSISTENT_COMMIT (R383, R384): the commit of the next whole 5 ms ends (log 208, DEDUCED). -/
def execPersistentCommit (ok : Bool) (s : State) : Host.Outcome State Fault Refusal :=
  if !s.tray.fw.running ∨ s.tray.fw.restarting then .next s
  else
    let s1 := s.advanceTo (ceilDiv s.tray.now 5000000 * 5000000)
    if ok then .next s1.commitNow
    else
      let lost := s1.tray.leg.acks.filter Waiting.commit
      let s2 := (s1.modTray fun y => { y with leg := { y.leg with
        commitFailures := satAdd 32 y.leg.commitFailures 1, acks := y.leg.acks.filter fun a => !a.commit } }).logTray 0x1503 []
      .next (lost.foldl (fun s a => s.answer a.master a.write rcStoreFailed 0 0) s2)

/-! ### Writes -/

/-- LEGEND_WRITE (R402): a write of any object by master m; `others` are the writes of the same object by other masters that
reach the gate in the same tick (R396). -/
def execLegendWrite (m : MasterId) (w : GateOp) (others : List (MasterId × List Byte)) (s : State) :
    Host.Outcome State Fault Refusal :=
  let k : ObjKey := ⟨w.idx, w.sub, w.sel⟩
  let s1 := others.foldl (fun s p =>
    if p.1 ≠ m ∧ (s.master p.1).queue.isEmpty ∧ s.gateOpen then s.modMaster p.1 fun x => { x with queue := [⟨k, p.2, none⟩] }
    else s) s
  .next (s1.gate m k w.value fun s m v => s.applyWrite m k v).finishReset

/-- SITE_PASSWORD_WRITE (R388). -/
def execSitePasswordWrite (m : MasterId) (v : List Byte) (s : State) : Host.Outcome State Fault Refusal :=
  .next (s.gate m ⟨0x1100, 5, 0xF⟩ v fun s m w => s.passwordApply m w)

/-- UNLOCK_KEY_WRITE (R393). -/
def execUnlockKeyWrite (m : MasterId) (v : List Byte) (s : State) : Host.Outcome State Fault Refusal :=
  .next (s.gate m ⟨0x1100, 7, 0xF⟩ v fun s m w => s.keyApply m w)

/-- PREFERRED_REF_WRITE (R38). -/
def execPreferredRefWrite (m : MasterId) (d : DieId) (v : Nat) (s : State) : Host.Outcome State Fault Refusal :=
  .next (s.gate m ⟨0x5000, 1, d.val⟩ (leBytes 1 v) fun s _ w => s.preferredApply d (leNat w))

/-- CLOCK_ENABLE_WRITE (R55). -/
def execClockEnableWrite (m : MasterId) (d : DieId) (v : Nat) (s : State) : Host.Outcome State Fault Refusal :=
  .next (s.gate m ⟨0x5000, 5, d.val⟩ (leBytes 4 v) fun s _ w => s.enablesApply d (leNat w))

/-- CLKMON_SELECT_WRITE (R56). -/
def execClkmonSelectWrite (m : MasterId) (d : DieId) (sub v : Nat) (s : State) : Host.Outcome State Fault Refusal :=
  if sub = 6 ∨ sub = 7 then
    .next (s.gate m ⟨0x5000, sub, d.val⟩ (leBytes 1 v) fun s _ w => s.clkmonApply d sub (leNat w))
  else .next s

/-- CLKMON_DRIVE_WRITE (R57). -/
def execClkmonDriveWrite (m : MasterId) (d : DieId) (v : Nat) (s : State) : Host.Outcome State Fault Refusal :=
  .next (s.gate m ⟨0x5000, 8, d.val⟩ (leBytes 1 v) fun s _ w => s.driveApply d (leNat w))

/-- TENANT_MAP_WRITE (R436). -/
def execTenantMapWrite (m : MasterId) (v : List Byte) (s : State) : Host.Outcome State Fault Refusal :=
  .next (s.gate m ⟨0x1000, 0x10, 0xF⟩ v fun s _ w => s.mapApply w)

/-- HOLD_TIME_WRITE (R559). -/
def execHoldTimeWrite (m : MasterId) (v : Nat) (s : State) : Host.Outcome State Fault Refusal :=
  .next (s.gate m ⟨0x1400, 1, 0xF⟩ (leBytes 2 v) fun s _ w => s.holdApply (leNat w))

/-- END_ALL_EXPERT_SESSIONS (R387). -/
def execEndAllExpertSessions (m : MasterId) (v : Nat) (s : State) : Host.Outcome State Fault Refusal :=
  .next (s.gate m ⟨0x1100, 0xC, 0xF⟩ (leBytes 1 v) fun s _ _ => s.endAllApply)

/-! ### Lockout and sessions -/

/-- LOCKOUT_END (R389): 10 min after the eighth failure the count is 0 again. -/
def execLockoutEnd (s : State) : Host.Outcome State Fault Refusal :=
  match s.tray.leg.lockoutEnd with
  | none => .next s
  | some t => .next (s.modTray fun y => { y with
      now := y.now + (t - s.accNow), leg := { y.leg with lockoutEnd := none, pwFailures := 0 } })

/-- SESSION_EXPIRE (R394). -/
def execSessionExpire (m : MasterId) (s : State) : Host.Outcome State Fault Refusal :=
  match (s.master m).session with
  | none => .next s
  | some e => .next ((s.advanceTo e.ends).endSession m)

/-! ### Handoff rows (21.3) -/

/-- The tray controller's new image runs (R578): its release and measurement are in force (R573), the dies hand off from the
next boundary on, and the gate applies what it queued (R398). A refused record brings neither the queued writes nor the LAP
windows and snapshots (log 262, DEDUCED). -/
def State.trayHandoffDone (s : State) (accept : Bool) : State :=
  let clear (x : Master) : Master :=
    { x with queue := [], high := none, seen := [], responses := [], snapshot := none, assembly := none }
  let s1 := s.modFw fun f =>
    { f.runSlot (!f.runB) with handoff := false, nextDie := some 0, confirmFrom := some s.tray.now }
  if accept then s1.drainGate
  else
    (s1.allMasters clear).modTray fun y => { y with pow := { y.pow with epsilon := 0, levelActive := false } }

/-- The new image of a die, or of the tray controller, takes the record (R581): digest and index match, the major version is its own,
the minor version at most its own. A die's new image is that of the running release. -/
def State.firnOk (s : State) (who : Option DieId) (r : FirnHeader) : Bool :=
  let v := (Config.firnVersion (if who.isSome then s.tray.fw.release else s.tray.fw.otherRelease)).toNat
  r.digestOk && r.index == (match who with | some d => d.val | none => 0xF) && r.major == v / 256 && decide (r.minor ≤ v % 256)

/-- FIRN_RECORD_CHECK (R581, R582): within 150 µs of its start the new image accepts its record and goes on, or refuses it and
cold-starts its loops. -/
def execFirnRecordCheck (who : Option DieId) (r : FirnHeader) (s : State) : Host.Outcome State Fault Refusal :=
  match who with
  | none => if s.tray.fw.handoff then .next (s.trayHandoffDone (s.firnOk none r)) else .next s
  | some d =>
    let v := (s.die d).svc
    match v.handoffAt with
    | none => .next s
    | some t =>
      if v.firnTaken ∨ t + 150000 < s.tray.now then .next s
      else
        let s1 := s.modDie d fun x => { x with svc := { x.svc with firnTaken := true } }
        .next (if s.firnOk (some d) r then s1 else s1.coldStart d)

/-- HOLDING_PATTERN_END (R580): when the new image runs, or 300 µs after the pattern began (log 262, DEDUCED). -/
def execHoldingPatternEnd (d : DieId) (digest : List Byte) (s : State) : Host.Outcome State Fault Refusal :=
  match (s.die d).svc.holding with
  | none => .next s
  | some t =>
    if (s.die d).svc.firnTaken then .next (s.endHandoff d digest)
    else .next ((s.advanceTo (t + 300000)).dieWatchdog d)

/-- HANDOFF_WATCHDOG (R583, R584): 150 µs without a decision, or a stop before the loops run; the old image resumes and the
release rolls back. -/
def execHandoffWatchdog (who : Option DieId) (s : State) : Host.Outcome State Fault Refusal :=
  match who with
  | none =>
    if !s.tray.fw.handoff then .next s
    else .next ((s.modFw fun f => { f with handoff := false, nextDie := if f.rollBack then some 0 else none }).rollBackAll 0x0F).drainGate
  | some d => match (s.die d).svc.handoffAt with
    | none => .next s
    | some t => .next ((if (s.die d).svc.firnTaken then s else s.advanceTo (t + 150000)).dieWatchdog d)

end Sys2Proof.Machine
end

