-- ==== Sys2Proof/Machine/PlanEvents.lean ====
section
/-! DEFINITION. Events of running plans, banks and SRAM: bank release, float segments, holds, the scrubber, barriers
(chapters 11 and 13). -/

namespace Sys2Proof.Machine
open Sys2Proof

/-- A blanked bank becomes free 10 µs after its blanking ends (R366); a gating that waited takes effect (R373). -/
def execBankFree (d : DieId) (b : Fin 8) (s : State) : Host.Outcome State Fault Refusal :=
  let k := (s.die d).sct.banks.getD b.val {}
  if k.state ≠ .blanking then .next s
  else .next ((s.advanceTo k.freeAt).modBank d b.val fun k =>
    if k.gatePending then { k with state := .gated, gatePending := false } else { k with state := .free })

/-- The first float segment of a run that its clock has not entered. -/
def Run.nextFloat (r : Run) : Option Segment := r.plan.segs.find? fun g => g.float && decide (r.clock ≤ g.start)

/-- A float segment starts (R287): the plan clock skips n = min(d − 1, ⌊Λ f_s ρ / 16⌋) plan cycles, and the carried
lateness falls by what the skip makes up. -/
def execFloatSegmentStart (d : DieId) (t h : Nat) (s : State) : Host.Outcome State Fault Refusal :=
  let x := s.die d
  match x.til.runs.find? fun r => r.tenant == t && r.handle == h && !r.halted && r.holding.isNone with
  | none => .next s
  | some r => match r.nextFloat with
    | none => .next s
    | some g =>
      if !r.isNext g.start ∨ !x.computes ∨ x.op.alertHalt then .next s
      else
        let f := stepN x.clk.curStep
        let n := min (g.dur - 1) (r.late * f * g.rate / 160)
        .next ((s.runTo d r g.start).modRun d t h r.queue fun r => { r with
          clock := g.start + n, late := r.late - n * 160 / (g.rate * f) })

/-- The wait horizon of a queue, ns; 0 is the default of 2,000 ms (Table 18.2). -/
def Queue.horizonNs (q : Queue) : Ns := 1000000 * (if q.horizon = 0 then 2000 else q.horizon)

/-- A hold has lasted longer than the wait horizon of the plan's queue (R285). -/
def execHoldExpired (d : DieId) (t h : Nat) (s : State) : Host.Outcome State Fault Refusal :=
  match (s.die d).til.runs.find? fun r => r.tenant == t && r.handle == h && r.holding.isSome with
  | none => .next s
  | some r => match r.holding, s.queue? t h r.queue with
    | some (_, since), some q => .next ((s.advanceTo (since + q.horizonNs)).endRun d t h r.queue stHoldExpired 0)
    | _, _ => .next s

/-- Lines of an SRAM bank (R257). -/
def bankLines : Nat := 8192

/-- The scrubber of a bank reads its next line (R263): single-bit errors are corrected and counted (R261), a word with an
uncorrectable error is poisoned (R262). The pass of the die is complete when every bank has ended its own. -/
def execScrubLine (d : DieId) (tile : Fin 128) (bank : Fin 8) (single double : List Nat) (s : State) :
    Host.Outcome State Fault Refusal :=
  let x := s.die d
  if !x.rails.vcore then .next s
  else
    let key := 8 * tile.val + bank.val
    let line := KV.getD x.til.scrub key 0
    let word := lineAddr tile.val (bankLines * bank.val + line) / 8
    let ok (l : List Nat) := (l.filter fun i => decide (i < 16)).eraseDups
    let s1 := s.modDie d fun x =>
      let done := if line + 1 = bankLines ∧ !x.til.scrubDone.contains key then x.til.scrubDone ++ [key] else x.til.scrubDone
      let all := decide (done.length = 1024)
      { x with til := { x.til with
        corrected := satAdd 64 x.til.corrected (ok single).length
        scrub := KV.put x.til.scrub key ((line + 1) % bankLines)
        scrubDone := if all then [] else done
        scrubPasses := satAdd 32 x.til.scrubPasses (b2n all) } }
    .next ((ok double).foldl (fun s i => s.poisonWord d (word + i)) s1)

/-- The plan clock reaches a BARRIER's cycle minus its lead: the arrival goes to the barrier root (R291, R292). -/
def execBarrierArrivalSend (d : DieId) (t h pos : Nat) (s : State) : Host.Outcome State Fault Refusal :=
  match (s.die d).til.runs.find? fun r => r.tenant == t && r.handle == h && !r.halted && r.holding.isNone with
  | none => .next s
  | some r =>
    let recs := (r.plan.scores.getD 0 []).filter fun q => q.op == 0x50 && bits q.w 9 0 == pos
    match recs[r.barSent.getD pos 0]?, r.plan.barriers[pos]? with
    | some q, some b =>
      let at_ := q.cyc - b.lead
      if !r.isNext at_ ∨ !(s.die d).computes ∨ (s.die d).op.alertHalt then .next s
      else .next ((s.runTo d r at_).sendArrival d t h r.queue pos)
    | _, _ => .next s

/-- A barrier arrival reaches this die as barrier root (R291, R605). -/
def execBarrierArrival (d : DieId) (src t id n parts : Nat) (s : State) : Host.Outcome State Fault Refusal :=
  .next (s.takeArrival d src t id n parts)

/-- A barrier release reaches this die (R291). -/
def execBarrierRelease (d : DieId) (t id n : Nat) (s : State) : Host.Outcome State Fault Refusal :=
  .next (s.takeRelease11 d t id n)

end Sys2Proof.Machine
end

