-- ==== Sys2Proof/Machine/SpdmEvents.lean ====
section
/-! DEFINITION. The SPDM rows (19.6, R534 to R536): a message that reaches a responder by a data object of its DOE
capability, or by the LAP SPDM service, in the frame of a datagram. -/

namespace Sys2Proof.Machine
open Sys2Proof

/-- A message whose code the row names reaches a responder. Over LAP the datagram and its frame pass the checks of every
request; a frame of another service or code is another row's command. -/
def State.spdmRow (s : State) (q : SpdmMsg) (ok : Nat → Bool) : State :=
  match q with
  | .doe f msg => if ok (msg.getD 1 0#8).toNat then s.doeSpdm f msg else s
  | .lap m g => if ok (g.frame.getD 17 0#8).toNat then s.lapOf m g fun c => c == 0x0B else s

/-- GET_VERSION (R535). -/
def execGetVersion (q : SpdmMsg) (s : State) : Host.Outcome State Fault Refusal :=
  .next (s.spdmRow q (fun c => c == 0x84))

/-- GET_CAPABILITIES (R534, Table 19.4). -/
def execGetCapabilities (q : SpdmMsg) (s : State) : Host.Outcome State Fault Refusal :=
  .next (s.spdmRow q (fun c => c == 0xE1))

/-- NEGOTIATE_ALGORITHMS (R534, Table 19.4). -/
def execNegotiateAlgorithms (q : SpdmMsg) (s : State) : Host.Outcome State Fault Refusal :=
  .next (s.spdmRow q (fun c => c == 0xE3))

/-- GET_DIGESTS (R534). -/
def execGetDigests (q : SpdmMsg) (s : State) : Host.Outcome State Fault Refusal :=
  .next (s.spdmRow q (fun c => c == 0x81))

/-- GET_CERTIFICATE (R534, Table 19.3). -/
def execGetCertificate (q : SpdmMsg) (s : State) : Host.Outcome State Fault Refusal :=
  .next (s.spdmRow q (fun c => c == 0x82))

/-- CHALLENGE (R534). -/
def execChallenge (q : SpdmMsg) (s : State) : Host.Outcome State Fault Refusal :=
  .next (s.spdmRow q (fun c => c == 0x83))

/-- GET_MEASUREMENTS (R534, R536). -/
def execGetMeasurements (q : SpdmMsg) (s : State) : Host.Outcome State Fault Refusal :=
  .next (s.spdmRow q (fun c => c == 0xE0))

/-- SPDM_UNSUPPORTED_REQUEST (R534): any other code. -/
def execSpdmUnsupportedRequest (q : SpdmMsg) (s : State) : Host.Outcome State Fault Refusal :=
  .next (s.spdmRow q (fun c => !spdmCodes.contains c))

/-- SPDM_STATE_TIMEOUT (R535): the state of a LAP master ends 60 s after its last request. -/
def execSpdmStateTimeout (m : MasterId) (s : State) : Host.Outcome State Fault Refusal :=
  let x := s.master m
  if x.spdm.stage = 0 then .next s
  else .next ((s.advanceTo (x.spdmAt + 60000000000)).modMaster m fun x => { x with spdm := {} })

/-- DOE_ABORT (R462): the request in progress and the responder state of that capability are discarded; the error bit of R461
clears. -/
def execDoeAbort (f : Fn) (s : State) : Host.Outcome State Fault Refusal := .next (s.modDoe f fun _ => {})

end Sys2Proof.Machine
end

