-- ==== Sys2Proof/Machine/Dispatch.lean ====
section
/-! DEFINITION. One arm per command. -/

namespace Sys2Proof.Machine
open Sys2Proof

def exec (i : Instr) (s : State) : Host.Outcome State Fault Refusal :=
  match i with
  | .trayEnAssert pins busMv => Sys2Proof.Machine.execTrayEnAssert pins busMv s
  | .slotIdChange pins => Sys2Proof.Machine.execSlotIdChange pins s
  | .busLoss cause => Sys2Proof.Machine.execBusLoss cause s
  | .busBack busMv => Sys2Proof.Machine.execBusBack busMv s
  | .trayEnDeassert => Sys2Proof.Machine.execTrayEnDeassert s
  | .effectiveTrayCapUpdate busMv inlet => Sys2Proof.Machine.execEffectiveTrayCapUpdate busMv inlet s
  | .refLoss d => Sys2Proof.Machine.execRefLoss d s
  | .rlRelockDone d => Sys2Proof.Machine.execRlRelockDone d s
  | .refBothLostHalt d => Sys2Proof.Machine.execRefBothLostHalt d s
  | .refCompareInterval d ppm => Sys2Proof.Machine.execRefCompareInterval d ppm s
  | .sourceReady d src => Sys2Proof.Machine.execSourceReady d src s
  | .loopLockLoss d l => Sys2Proof.Machine.execLoopLockLoss d l s
  | .idleLoopReady d => Sys2Proof.Machine.execIdleLoopReady d s
  | .epochBoundary => Sys2Proof.Machine.execEpochBoundary s
  | .compTableUpdate d => Sys2Proof.Machine.execCompTableUpdate d s
  | .timeExchangeTick d => Sys2Proof.Machine.execTimeExchangeTick d s
  | .timeRequest d port src no t1 t2 => Sys2Proof.Machine.execTimeRequest d port src no t1 t2 s
  | .timeResponse d no t1 t2 t3 t4 => Sys2Proof.Machine.execTimeResponse d no t1 t2 t3 t4 s
  | .avsCurrentRead d ma mv => Sys2Proof.Machine.execAvsCurrentRead d ma mv s
  | .avsWriteTimeout d => Sys2Proof.Machine.execAvsWriteTimeout d s
  | .voltageReady d => Sys2Proof.Machine.execVoltageReady d s
  | .converterFail n => Sys2Proof.Machine.execConverterFail n s
  | .vcorePhaseFail d n => Sys2Proof.Machine.execVcorePhaseFail d n s
  | .regAlertAssert d cause => Sys2Proof.Machine.execRegAlertAssert d cause s
  | .forcedStateEnd d => Sys2Proof.Machine.execForcedStateEnd d s
  | .alertHalt d => Sys2Proof.Machine.execAlertHalt d s
  | .regAlertDeassert d => Sys2Proof.Machine.execRegAlertDeassert d s
  | .alertAck d => Sys2Proof.Machine.execAlertAck d s
  | .alertRelease d => Sys2Proof.Machine.execAlertRelease d s
  | .ageingMeasurement d trim ceil => Sys2Proof.Machine.execAgeingMeasurement d trim ceil s
  | .ageingOverdue d => Sys2Proof.Machine.execAgeingOverdue d s
  | .marginModeWrite m d v => Sys2Proof.Machine.execMarginModeWrite m d v s
  | .vsramVoltageWrite m d v => Sys2Proof.Machine.execVsramVoltageWrite m d v s
  | .segmentLookahead d t h seg => Sys2Proof.Machine.execSegmentLookahead d t h seg s
  | .segmentEnd d t h seg watts => Sys2Proof.Machine.execSegmentEnd d t h seg watts s
  | .rateControlTick d est => Sys2Proof.Machine.execRateControlTick d est s
  | .demandCurveSend d => Sys2Proof.Machine.execDemandCurveSend d s
  | .sharesSend loads bus => Sys2Proof.Machine.execSharesSend loads bus s
  | .sharesLate => Sys2Proof.Machine.execSharesLate s
  | .proposalSend d => Sys2Proof.Machine.execProposalSend d s
  | .dieCapWrite m d v => Sys2Proof.Machine.execDieCapWrite m d v s
  | .trayCapWrite m v => Sys2Proof.Machine.execTrayCapWrite m v s
  | .glacierWindowWrite m d v => Sys2Proof.Machine.execGlacierWindowWrite m d v s
  | .divisionModeWrite m d v => Sys2Proof.Machine.execDivisionModeWrite m d v s
  | .sealedTableWrite m d v => Sys2Proof.Machine.execSealedTableWrite m d v s
  | .droopTrip d taps => Sys2Proof.Machine.execDroopTrip d taps s
  | .armedWindowClose d => Sys2Proof.Machine.execArmedWindowClose d s
  | .detectorTest d failed => Sys2Proof.Machine.execDetectorTest d failed s
  | .droopSettingWrite m d sub v => Sys2Proof.Machine.execDroopSettingWrite m d sub v s
  | .thermalSample d n t => Sys2Proof.Machine.execThermalSample d n t s
  | .thermalRateRise d => Sys2Proof.Machine.execThermalRateRise d s
  | .groupMaxPublish d => Sys2Proof.Machine.execGroupMaxPublish d s
  | .heatSurgeEnd d => Sys2Proof.Machine.execHeatSurgeEnd d s
  | .surgeTimeout d => Sys2Proof.Machine.execSurgeTimeout d s
  | .tripRestart d => Sys2Proof.Machine.execTripRestart d s
  | .clearTripLatch m d v => Sys2Proof.Machine.execClearTripLatch m d v s
  | .loopLossDeclare b flows => Sys2Proof.Machine.execLoopLossDeclare b flows s
  | .flowLossAssert d => Sys2Proof.Machine.execFlowLossAssert d s
  | .flowLossRelease d => Sys2Proof.Machine.execFlowLossRelease d s
  | .flowLossPowerOff d => Sys2Proof.Machine.execFlowLossPowerOff d s
  | .valveTrim => Sys2Proof.Machine.execValveTrim s
  | .coolantAlarmUpdate inlet fa fb stuckA stuckB => Sys2Proof.Machine.execCoolantAlarmUpdate inlet fa fb stuckA stuckB s
  | .heatThresholdWrite m d sub v => Sys2Proof.Machine.execHeatThresholdWrite m d sub v s
  | .proposalReceive d src epoch code urgent revised heard => Sys2Proof.Machine.execProposalReceive d src epoch code urgent revised heard s
  | .recordAckTimeout d no => Sys2Proof.Machine.execRecordAckTimeout d no s
  | .resultForm d => Sys2Proof.Machine.execResultForm d s
  | .resultReceive d src r => Sys2Proof.Machine.execResultReceive d src r s
  | .standbyRootTakeover d => Sys2Proof.Machine.execStandbyRootTakeover d s
  | .leaveSend d cause => Sys2Proof.Machine.execLeaveSend d cause s
  | .leaveReceive d id => Sys2Proof.Machine.execLeaveReceive d id s
  | .leaveGroup m d v => Sys2Proof.Machine.execLeaveGroup m d v s
  | .groupIdentityWrite m d sub v => Sys2Proof.Machine.execGroupIdentityWrite m d sub v s
  | .joinSend d => Sys2Proof.Machine.execJoinSend d s
  | .joinReceive d id valid => Sys2Proof.Machine.execJoinReceive d id valid s
  | .selfRoot d => Sys2Proof.Machine.execSelfRoot d s
  | .rootMerge d root => Sys2Proof.Machine.execRootMerge d root s
  | .lend d src amount epoch => Sys2Proof.Machine.execLend d src amount epoch s
  | .grant d src amount epoch => Sys2Proof.Machine.execGrant d src amount epoch s
  | .commit d src amount epoch => Sys2Proof.Machine.execCommit d src amount epoch s
  | .release d src amount epoch => Sys2Proof.Machine.execRelease d src amount epoch s
  | .energyInterval d r => Sys2Proof.Machine.execEnergyInterval d r s
  | .benchmarkStart d t h => Sys2Proof.Machine.execBenchmarkStart d t h s
  | .benchmarkEnd d t h c7 cl => Sys2Proof.Machine.execBenchmarkEnd d t h c7 cl s
  | .upliftRecompute d => Sys2Proof.Machine.execUpliftRecompute d s
  | .coeffStore => Sys2Proof.Machine.execCoeffStore s
  | .overheadRuleWrite m d v => Sys2Proof.Machine.execOverheadRuleWrite m d v s
  | .contextSelectorWrite m d v => Sys2Proof.Machine.execContextSelectorWrite m d v s
  | .surveyNow m d v => Sys2Proof.Machine.execSurveyNow m d v s
  | .surveyIntervalExpire d => Sys2Proof.Machine.execSurveyIntervalExpire d s
  | .surveyComplete d grid => Sys2Proof.Machine.execSurveyComplete d grid s
  | .frameStart d => Sys2Proof.Machine.execFrameStart d s
  | .frameComplete d inTime => Sys2Proof.Machine.execFrameComplete d inTime s
  | .composerCheck d fault setFaults => Sys2Proof.Machine.execComposerCheck d fault setFaults s
  | .runCheckNow m d v => Sys2Proof.Machine.execRunCheckNow m d v s
  | .coeffSetWrite m d set v => Sys2Proof.Machine.execCoeffSetWrite m d set v s
  | .composerWrite m d sub v => Sys2Proof.Machine.execComposerWrite m d sub v s
  | .nop d t h u v => Sys2Proof.Machine.execNop d t h u v s
  | .mloadw d t h u v => Sys2Proof.Machine.execMloadw d t h u v s
  | .mswap d t h u v => Sys2Proof.Machine.execMswap d t h u v s
  | .mma d t h u v => Sys2Proof.Machine.execMma d t h u v s
  | .mdrain d t h u v => Sys2Proof.Machine.execMdrain d t h u v s
  | .mzero d t h u v => Sys2Proof.Machine.execMzero d t h u v s
  | .vload d t h u v => Sys2Proof.Machine.execVload d t h u v s
  | .vstore d t h u v => Sys2Proof.Machine.execVstore d t h u v s
  | .vadd d t h u v => Sys2Proof.Machine.execVadd d t h u v s
  | .vmul d t h u v => Sys2Proof.Machine.execVmul d t h u v s
  | .vfma d t h u v => Sys2Proof.Machine.execVfma d t h u v s
  | .vmax d t h u v => Sys2Proof.Machine.execVmax d t h u v s
  | .vexp2 d t h u v => Sys2Proof.Machine.execVexp2 d t h u v s
  | .vrcp d t h u v => Sys2Proof.Machine.execVrcp d t h u v s
  | .vrsqrt d t h u v => Sys2Proof.Machine.execVrsqrt d t h u v s
  | .vred d t h u v => Sys2Proof.Machine.execVred d t h u v s
  | .vscale d t h u v => Sys2Proof.Machine.execVscale d t h u v s
  | .vacc d t h u v => Sys2Proof.Machine.execVacc d t h u v s
  | .mcopy d t h u v => Sys2Proof.Machine.execMcopy d t h u v s
  | .mfill d t h u v => Sys2Proof.Machine.execMfill d t h u v s
  | .mgather d t h u v => Sys2Proof.Machine.execMgather d t h u v s
  | .fsend d t h u v => Sys2Proof.Machine.execFsend d t h u v s
  | .frecv d t h u v => Sys2Proof.Machine.execFrecv d t h u v s
  | .sload d t h => Sys2Proof.Machine.execSload d t h s
  | .sstream d t h => Sys2Proof.Machine.execSstream d t h s
  | .sselect d t h => Sys2Proof.Machine.execSselect d t h s
  | .sblank d t h => Sys2Proof.Machine.execSblank d t h s
  | .barrier d t h => Sys2Proof.Machine.execBarrier d t h s
  | .haltpt d t h => Sys2Proof.Machine.execHaltpt d t h s
  | .end_ d t h => Sys2Proof.Machine.execEnd d t h s
  | .bankFree d b => Sys2Proof.Machine.execBankFree d b s
  | .floatSegmentStart d t h => Sys2Proof.Machine.execFloatSegmentStart d t h s
  | .holdExpired d t h => Sys2Proof.Machine.execHoldExpired d t h s
  | .scrubLine d tile bank single double => Sys2Proof.Machine.execScrubLine d tile bank single double s
  | .barrierArrivalSend d t h pos => Sys2Proof.Machine.execBarrierArrivalSend d t h pos s
  | .barrierArrival d src t id n parts => Sys2Proof.Machine.execBarrierArrival d src t id n parts s
  | .barrierRelease d t id n => Sys2Proof.Machine.execBarrierRelease d t id n s
  | .combStartupCheck d aDev bDev aPow bPow => Sys2Proof.Machine.execCombStartupCheck d aDev bDev aPow bPow s
  | .combLoss d samples => Sys2Proof.Machine.execCombLoss d samples s
  | .heaterLoopUpdate d ring u err => Sys2Proof.Machine.execHeaterLoopUpdate d ring u err s
  | .ringLockLoss d port drop line => Sys2Proof.Machine.execRingLockLoss d port drop line s
  | .ringSearchTimeout d port drop line => Sys2Proof.Machine.execRingSearchTimeout d port drop line s
  | .sweepComplete d port drop power => Sys2Proof.Machine.execSweepComplete d port drop power s
  | .farLightArrival d port => Sys2Proof.Machine.execFarLightArrival d port s
  | .hello d port group id farPort serial => Sys2Proof.Machine.execHello d port group id farPort serial s
  | .lanemap d port seq lines => Sys2Proof.Machine.execLanemap d port seq lines s
  | .trainingComplete d port passTx passRx => Sys2Proof.Machine.execTrainingComplete d port passTx passRx s
  | .retrainComplete d port => Sys2Proof.Machine.execRetrainComplete d port s
  | .portLossTimeout d port => Sys2Proof.Machine.execPortLossTimeout d port s
  | .downPortRetry d port => Sys2Proof.Machine.execDownPortRetry d port s
  | .portEnableWrite m d v => Sys2Proof.Machine.execPortEnableWrite m d v s
  | .calibrationStart d port => Sys2Proof.Machine.execCalibrationStart d port s
  | .calStart d port line => Sys2Proof.Machine.execCalStart d port line s
  | .calEnd d port line failed => Sys2Proof.Machine.execCalEnd d port line failed s
  | .calTimeout d port => Sys2Proof.Machine.execCalTimeout d port s
  | .lineBerWeak d port drop line => Sys2Proof.Machine.execLineBerWeak d port drop line s
  | .recordBaseline m d v => Sys2Proof.Machine.execRecordBaseline m d v s
  | .statusSend d port stages stage5 => Sys2Proof.Machine.execStatusSend d port stages stage5 s
  | .status d port stage3 stage5 => Sys2Proof.Machine.execStatus d port stage3 stage5 s
  | .flitReceive d port bytes fixed => Sys2Proof.Machine.execFlitReceive d port bytes fixed s
  | .nakReceive d port seq => Sys2Proof.Machine.execNakReceive d port seq s
  | .replayTimeout d port => Sys2Proof.Machine.execReplayTimeout d port s
  | .open_ d port r => Sys2Proof.Machine.execOpen d port r s
  | .openDone d t id allot => Sys2Proof.Machine.execOpenDone d t id allot s
  | .credit d t id n => Sys2Proof.Machine.execCredit d t id n s
  | .closeFlit d port label t => Sys2Proof.Machine.execCloseFlit d port label t s
  | .flowlost d t id cause => Sys2Proof.Machine.execFlowlost d t id cause s
  | .tenantHalt d t all ids => Sys2Proof.Machine.execTenantHalt d t all ids s
  | .controlRecordForward d port bytes => Sys2Proof.Machine.execControlRecordForward d port bytes s
  | .lowrate d port back line => Sys2Proof.Machine.execLowrate d port back line s
  | .refRingUpdate d b change locked => Sys2Proof.Machine.execRefRingUpdate d b change locked s
  | .tapPowerMeasure d b dbm => Sys2Proof.Machine.execTapPowerMeasure d b dbm s
  | .bankRecalibration d b d0 gain pass => Sys2Proof.Machine.execBankRecalibration d b d0 gain pass s
  | .recalibrateNow m d v => Sys2Proof.Machine.execRecalibrateNow m d v s
  | .persistentCommit ok => Sys2Proof.Machine.execPersistentCommit ok s
  | .legendWrite m w others => Sys2Proof.Machine.execLegendWrite m w others s
  | .sitePasswordWrite m v => Sys2Proof.Machine.execSitePasswordWrite m v s
  | .unlockKeyWrite m v => Sys2Proof.Machine.execUnlockKeyWrite m v s
  | .preferredRefWrite m d v => Sys2Proof.Machine.execPreferredRefWrite m d v s
  | .clockEnableWrite m d v => Sys2Proof.Machine.execClockEnableWrite m d v s
  | .clkmonSelectWrite m d sub v => Sys2Proof.Machine.execClkmonSelectWrite m d sub v s
  | .clkmonDriveWrite m d v => Sys2Proof.Machine.execClkmonDriveWrite m d v s
  | .tenantMapWrite m v => Sys2Proof.Machine.execTenantMapWrite m v s
  | .holdTimeWrite m v => Sys2Proof.Machine.execHoldTimeWrite m v s
  | .lockoutEnd => Sys2Proof.Machine.execLockoutEnd s
  | .sessionExpire m => Sys2Proof.Machine.execSessionExpire m s
  | .endAllExpertSessions m v => Sys2Proof.Machine.execEndAllExpertSessions m v s
  | .read m g => Sys2Proof.Machine.execRead m g s
  | .write m g => Sys2Proof.Machine.execWrite m g s
  | .readBlock m g => Sys2Proof.Machine.execReadBlock m g s
  | .writeBlock m g => Sys2Proof.Machine.execWriteBlock m g s
  | .command m g => Sys2Proof.Machine.execCommand m g s
  | .subscribe m g => Sys2Proof.Machine.execSubscribe m g s
  | .unknownService m g => Sys2Proof.Machine.execUnknownService m g s
  | .unlockChallenge m g => Sys2Proof.Machine.execUnlockChallenge m g s
  | .unlockResponse m g => Sys2Proof.Machine.execUnlockResponse m g s
  | .lock m g => Sys2Proof.Machine.execLock m g s
  | .sequenceWindowClear m => Sys2Proof.Machine.execSequenceWindowClear m s
  | .assemblyTimeout m => Sys2Proof.Machine.execAssemblyTimeout m s
  | .subscriptionExpire m no => Sys2Proof.Machine.execSubscriptionExpire m no s
  | .notifyPeriodic m no => Sys2Proof.Machine.execNotifyPeriodic m no s
  | .notifyOnChange m no => Sys2Proof.Machine.execNotifyOnChange m no s
  | .beaconTimeout p => Sys2Proof.Machine.execBeaconTimeout p s
  | .neighbourSolicitation p target src => Sys2Proof.Machine.execNeighbourSolicitation p target src s
  | .icmpEcho p dst src body => Sys2Proof.Machine.execIcmpEcho p dst src body s
  | .getVersion q => Sys2Proof.Machine.execGetVersion q s
  | .getCapabilities q => Sys2Proof.Machine.execGetCapabilities q s
  | .negotiateAlgorithms q => Sys2Proof.Machine.execNegotiateAlgorithms q s
  | .getDigests q => Sys2Proof.Machine.execGetDigests q s
  | .getCertificate q => Sys2Proof.Machine.execGetCertificate q s
  | .challenge q => Sys2Proof.Machine.execChallenge q s
  | .getMeasurements q => Sys2Proof.Machine.execGetMeasurements q s
  | .spdmUnsupportedRequest q => Sys2Proof.Machine.execSpdmUnsupportedRequest q s
  | .spdmStateTimeout m => Sys2Proof.Machine.execSpdmStateTimeout m s
  | .doeAbort f => Sys2Proof.Machine.execDoeAbort f s
  | .doorbell port n size value entry cmds => Sys2Proof.Machine.execDoorbell port n size value entry cmds s
  | .barRegisterWrite f off size value => Sys2Proof.Machine.execBarRegisterWrite f off size value s
  | .noticeRingWrite f off value => Sys2Proof.Machine.execNoticeRingWrite f off value s
  | .busMasterEnableSet f mse => Sys2Proof.Machine.execBusMasterEnableSet f mse s
  | .holdoffExpire f v => Sys2Proof.Machine.execHoldoffExpire f v s
  | .msixUnmask f v => Sys2Proof.Machine.execMsixUnmask f v s
  | .mboxClaim p v also => Sys2Proof.Machine.execMboxClaim p v also s
  | .mboxDoorbell p len => Sys2Proof.Machine.execMboxDoorbell p len s
  | .linkTraining p rates widths flit => Sys2Proof.Machine.execLinkTraining p rates widths flit s
  | .vfFlr p n => Sys2Proof.Machine.execVfFlr p n s
  | .vfFlrComplete p n => Sys2Proof.Machine.execVfFlrComplete p n s
  | .vfEnableClear p num => Sys2Proof.Machine.execVfEnableClear p num s
  | .pfFlr p => Sys2Proof.Machine.execPfFlr p s
  | .conventionalReset p => Sys2Proof.Machine.execConventionalReset p s
  | .pfD3hot p => Sys2Proof.Machine.execPfD3hot p s
  | .nopCommand t h q => Sys2Proof.Machine.execNopCommand t h q s
  | .bind t h q => Sys2Proof.Machine.execBind t h q s
  | .unbind t h q => Sys2Proof.Machine.execUnbind t h q s
  | .reside t h q => Sys2Proof.Machine.execReside t h q s
  | .evict t h q => Sys2Proof.Machine.execEvict t h q s
  | .copy t h q => Sys2Proof.Machine.execCopy t h q s
  | .loadPlan t h q container => Sys2Proof.Machine.execLoadPlan t h q container s
  | .runPlan t h q => Sys2Proof.Machine.execRunPlan t h q s
  | .haltPlan t h q => Sys2Proof.Machine.execHaltPlan t h q s
  | .signal t h q => Sys2Proof.Machine.execSignal t h q s
  | .wait t h q => Sys2Proof.Machine.execWait t h q s
  | .query t h q => Sys2Proof.Machine.execQuery t h q s
  | .scrub t h q => Sys2Proof.Machine.execScrub t h q s
  | .fence t h q => Sys2Proof.Machine.execFence t h q s
  | .copyUnitDone d e data => Sys2Proof.Machine.execCopyUnitDone d e data s
  | .granuleZeroed d g => Sys2Proof.Machine.execGranuleZeroed d g s
  | .waitHorizonExpire t h q => Sys2Proof.Machine.execWaitHorizonExpire t h q s
  | .bootRomStart okA okB => Sys2Proof.Machine.execBootRomStart okA okB s
  | .lockstepMismatch => Sys2Proof.Machine.execLockstepMismatch s
  | .dieStart d => Sys2Proof.Machine.execDieStart d s
  | .governorFirmwareLoad d ok digest => Sys2Proof.Machine.execGovernorFirmwareLoad d ok digest s
  | .dieIdentityCheck d key serial sig chains => Sys2Proof.Machine.execDieIdentityCheck d key serial sig chains s
  | .clockStart d => Sys2Proof.Machine.execClockStart d s
  | .selfTest d tested lines detectors => Sys2Proof.Machine.execSelfTest d tested lines detectors s
  | .startStepLate d => Sys2Proof.Machine.execStartStepLate d s
  | .dieReady d => Sys2Proof.Machine.execDieReady d s
  | .trayReady => Sys2Proof.Machine.execTrayReady s
  | .vaultRestore => Sys2Proof.Machine.execVaultRestore s
  | .trayColdReset m v => Sys2Proof.Machine.execTrayColdReset m v s
  | .diePowerCycle m d v => Sys2Proof.Machine.execDiePowerCycle m d v s
  | .dieWarmReset m d v => Sys2Proof.Machine.execDieWarmReset m d v s
  | .enterFrost m d v => Sys2Proof.Machine.execEnterFrost m d v s
  | .enterFrostTray m v => Sys2Proof.Machine.execEnterFrostTray m v s
  | .haltPointsReached d => Sys2Proof.Machine.execHaltPointsReached d s
  | .frozen d => Sys2Proof.Machine.execFrozen d s
  | .frostEntryTimeout d => Sys2Proof.Machine.execFrostEntryTimeout d s
  | .frostHaltDeadline => Sys2Proof.Machine.execFrostHaltDeadline s
  | .thaw m d v => Sys2Proof.Machine.execThaw m d v s
  | .thawTray m v => Sys2Proof.Machine.execThawTray m v s
  | .thawEnd d => Sys2Proof.Machine.execThawEnd d s
  | .moduleInserted ok serial mv => Sys2Proof.Machine.execModuleInserted ok serial mv s
  | .moduleRemoved => Sys2Proof.Machine.execModuleRemoved s
  | .chargerStart mv => Sys2Proof.Machine.execChargerStart mv s
  | .chargeComplete ma => Sys2Proof.Machine.execChargeComplete ma s
  | .chargeCurrentCollapse ma => Sys2Proof.Machine.execChargeCurrentCollapse ma s
  | .capacityTest rest0 rest1 => Sys2Proof.Machine.execCapacityTest rest0 rest1 s
  | .moduleFault mv => Sys2Proof.Machine.execModuleFault mv s
  | .holdupAvailabilityCheck mah => Sys2Proof.Machine.execHoldupAvailabilityCheck mah s
  | .holdTimerExpire => Sys2Proof.Machine.execHoldTimerExpire s
  | .vaultSaveComplete => Sys2Proof.Machine.execVaultSaveComplete s
  | .discardVaultSave m v => Sys2Proof.Machine.execDiscardVaultSave m v s
  | .granuleHoldExpire => Sys2Proof.Machine.execGranuleHoldExpire s
  | .trayPowerDown m v => Sys2Proof.Machine.execTrayPowerDown m v s
  | .imageChunkNumberWrite m v => Sys2Proof.Machine.execImageChunkNumberWrite m v s
  | .imageChunk m v => Sys2Proof.Machine.execImageChunk m v s
  | .stageImage m v => Sys2Proof.Machine.execStageImage m v s
  | .stagingComplete r => Sys2Proof.Machine.execStagingComplete r s
  | .activateStagedImage m v => Sys2Proof.Machine.execActivateStagedImage m v s
  | .firnRecordCheck who r => Sys2Proof.Machine.execFirnRecordCheck who r s
  | .holdingPatternCheck d est => Sys2Proof.Machine.execHoldingPatternCheck d est s
  | .holdingPatternEnd d digest => Sys2Proof.Machine.execHoldingPatternEnd d digest s
  | .handoffWatchdog who => Sys2Proof.Machine.execHandoffWatchdog who s
  | .updateConfirm => Sys2Proof.Machine.execUpdateConfirm s
  | .emergency d r => Sys2Proof.Machine.execEmergency d r s
  | .moraineAssign => Sys2Proof.Machine.execMoraineAssign s
  | .remapTile m d v => Sys2Proof.Machine.execRemapTile m d v s
  | .tileRemap d pass => Sys2Proof.Machine.execTileRemap d pass s
  | .ledDiagnosis currents => Sys2Proof.Machine.execLedDiagnosis currents s
  | .heaterDiagnosis d ring meas => Sys2Proof.Machine.execHeaterDiagnosis d ring meas s
  | .boundaryScanInstruction ir => Sys2Proof.Machine.execBoundaryScanInstruction ir s
  | .sourceReadyLoss d src => Sys2Proof.Machine.execSourceReadyLoss d src s
  | .converterRestored n => Sys2Proof.Machine.execConverterRestored n s
  | .detectorLineStuck d det => Sys2Proof.Machine.execDetectorLineStuck d det s
  | .standbyUnavailable d pow offs => Sys2Proof.Machine.execStandbyUnavailable d pow offs s
  | .framingLoss d port => Sys2Proof.Machine.execFramingLoss d port s
  | .busMasterEnableClear f mse => Sys2Proof.Machine.execBusMasterEnableClear f mse s
  | .pfReturnToD0 p => Sys2Proof.Machine.execPfReturnToD0 p s
  | .vfEnableSet p num mse => Sys2Proof.Machine.execVfEnableSet p num mse s
  | .doeDiscovery f ty idx => Sys2Proof.Machine.execDoeDiscovery f ty idx s
  | .scoutCalibrationTablesBuilt d d0 gain => Sys2Proof.Machine.execScoutCalibrationTablesBuilt d d0 gain s
  | .holdupConverterTakeover mv => Sys2Proof.Machine.execHoldupConverterTakeover mv s
  | .trayControllerRestartDone => Sys2Proof.Machine.execTrayControllerRestartDone s
  | .beaconRegained p => Sys2Proof.Machine.execBeaconRegained p s

end Sys2Proof.Machine
end

