-- ==== Sys2Proof/Machine/Step.lean ====
section
/-! DEFINITION. One step of the block: the command at the front of the queue takes effect; on an empty queue the block
idles for 1 ns of tray-controller runtime (log 4, DESIGN CHOICE). -/

namespace Sys2Proof.Machine
open Sys2Proof

/-- The command at the front of the queue is run with the queue's rest; an empty queue idles (log 4, DESIGN CHOICE). -/
def step (s : State) : Host.Outcome State Fault Refusal :=
  match s.pending with
  | [] => .next { s with tray := { s.tray with now := s.tray.now + 1 } }
  | c :: cs => exec c { s with pending := cs }

/-- The state with the command that a word spells put at the front of the queue (log 12, DEDUCED). -/
def State.withFetchWord (s : State) (nbits w : Nat) : State :=
  match Sys2Proof.decodeTableWord nbits w with
  | some c => { s with pending := c :: s.pending }
  | none => s

end Sys2Proof.Machine
end

