-- ==== Sys2Proof/Safety.lean ====
section
/-! DEFINITION. What counts as a sound state of the tray, in the terms that claims use: bounds that the spec states and
that every command keeps. -/

namespace Sys2Proof
open Sys2Proof.Machine

/-- A sound die. -/
structure DieInv (x : Die) : Prop where
  /-- The SRAM contents are in canonical form (R257, log 6, DESIGN CHOICE). -/
  sram : Memory.wf x.til.sram = true
  /-- The ageing trim lies within 0 to 40 mV, and so does a fall that waits (R81, R84). -/
  trim : x.op.trim ≤ 160
  fall : ∀ v, x.op.trimFall = some v → v ≤ 160
  /-- The phase table holds at most 4,096 entries (R101). -/
  phases : x.pow.phases.length ≤ 4096
  /-- The energy of at most the last 28,610 epochs is kept (R109). -/
  epochs : x.pow.epochs.length ≤ 28610
  /-- A die has 48 resident slots (R479). -/
  slots : x.til.slots.length = 48

/-- A sound master: at most 64 writes wait in its gate queue (R395), at most 64 responses are kept (R412). -/
structure MasterInv (m : Master) : Prop where
  queue : m.queue.length ≤ 64
  responses : m.responses.length ≤ 64

/-- A sound state. -/
structure Inv (s : State) : Prop where
  dies : ∀ d, DieInv (s.die d)
  masters : ∀ m, MasterInv (s.master m)

/-- Command c takes effect in s: it ends in a next state, of which P tells what it holds. -/
def Does (c : Instr) (s : State) (P : State → Prop) : Prop := ∃ t, Machine.exec c s = .next t ∧ P t

/-! ### Frames: what a command leaves as it was -/

/-- Nothing changed but die d. -/
structure DieOnly (d : DieId) (s t : State) : Prop where
  rest : t = { s with dies := t.dies }
  others : ∀ e, e ≠ d → t.die e = s.die e

/-- Nothing changed but die d, the time and the reports that wait for the moraine. -/
structure DieNoted (d : DieId) (s t : State) : Prop where
  rest : t = { s with dies := t.dies, tray := { s.tray with
    now := t.tray.now, mor := t.tray.mor, fw := { s.tray.fw with lostReports := t.tray.fw.lostReports } } }
  others : ∀ e, e ≠ d → t.die e = s.die e

/-- Nothing changed but the tray's own part. -/
def TrayOnly (s t : State) : Prop := t = { s with tray := t.tray }

/-- Nothing changed but the one master m. -/
structure MasterOnly (m : MasterId) (s t : State) : Prop where
  rest : t = { s with masters := t.masters }
  others : ∀ n, n ≠ m → t.master n = s.master n

/-- Nothing changed but the physical function of port p. -/
structure PfOnly (p : Fin 2) (s t : State) : Prop where
  rest : t = { s with pfs := t.pfs }
  others : ∀ q, q ≠ p → t.pf q = s.pf q

/-- The report of an event was handed to the moraine, unless the tray controller restarts (R611, R612). -/
def Reported (t s : State) (source code : Nat) (detail : List Byte) : Prop :=
  s.tray.fw.restarting = false → ∃ r ∈ t.tray.mor.reports, r.source = source ∧ r.code = code ∧ r.detail = detail

/-- Nothing changed but die d and what was sent. -/
structure DieSends (d : DieId) (s t : State) : Prop where
  rest : t = { s with dies := t.dies, outputs := t.outputs }
  others : ∀ e, e ≠ d → t.die e = s.die e

/-- Nothing changed but die d, what was sent, the time and the reports that wait for the moraine. -/
structure DieActs (d : DieId) (s t : State) : Prop where
  rest : t = { s with dies := t.dies, outputs := t.outputs, tray := { s.tray with
    now := t.tray.now, mor := t.tray.mor, fw := { s.tray.fw with lostReports := t.tray.fw.lostReports } } }
  others : ∀ e, e ≠ d → t.die e = s.die e

/-- Die d is held off for the cause given: only VIO is left of its rails, it runs nothing and gets no share (R528). -/
structure HeldOff (d : DieId) (cause : Nat) (s t : State) : Prop where
  heldOff : (t.die d).svc.heldOff = true
  state : (t.die d).svc.state = .off
  vio : (t.die d).rails.vio = (s.die d).rails.vio
  rails : (t.die d).rails.vsram = false ∧ (t.die d).rails.vcore = false ∧ (t.die d).rails.vana = false ∧
    (t.die d).rails.vhtr = false
  runs : (t.die d).til.runs = []
  share : (t.die d).pow.share = 0
  reported : Reported t s d.val 0x6004 [BitVec.ofNat 8 cause]

/-! ### The write gate, free for one write -/

/-- The state in which the gate applies its next write: a whole microsecond, later than its last (R395). -/
def Machine.State.atTick (s : State) : State :=
  let tick := max (s.tray.now / 1000) (s.tray.leg.lastTick + 1)
  (s.advanceTo (1000 * tick)).modTray fun y => { y with leg := { y.leg with lastTick := tick } }

/-- The gate takes a write of master m to object k at once: the tray controller runs, no write waits, and the checks of
the write pass when it is taken (R402). -/
structure GateTakes (m : MasterId) (k : ObjKey) (v : List Byte) (s : State) : Prop where
  runs : s.tray.fw.running = true
  answers : s.tray.fw.restarting = false
  noHandoff : s.tray.fw.handoff = false
  idle : ∀ n, (s.master n).queue = []
  valid : s.atTick.writeCheck m k v = none

/-- What is left of a write that no request carried, after the gate applied or refused it. -/
def gateEnd (m : MasterId) (k : ObjKey) (v : List Byte) : GateResult → State
  | .refused _ _ t => t
  | .done t epoch effect => t.acknowledge m ⟨k, v, none⟩ epoch effect

/-- Beyond the dies, a write of object k changes only the time of the gate, the object's setting, its pending raise and the
acknowledgements that wait. -/
structure GateOnly (k : ObjKey) (s t : State) : Prop where
  rest : t = { s with dies := t.dies, tray := { s.tray with now := t.tray.now, leg := { s.tray.leg with
    lastTick := t.tray.leg.lastTick, settings := t.tray.leg.settings, raises := t.tray.leg.raises
    acks := t.tray.leg.acks } } }
  settings : ∀ i u l, (⟨i, u, l⟩ : ObjKey) ≠ k → t.setting i u l = s.setting i u l
  raises : ∀ j, j ≠ k → t.pendingRaise j = s.pendingRaise j

/-- A write changed nothing but the firmware and hold-up parts of the tray, the time of the gate and the acknowledgements that
wait. -/
def GateTray (s t : State) : Prop :=
  t = { s with tray := { s.tray with now := t.tray.now, fw := t.tray.fw, hold := t.tray.hold, leg := { s.tray.leg with
    lastTick := t.tray.leg.lastTick, acks := t.tray.leg.acks } } }

/-- What a write of the value v to a limit-class object does to its setting and its pending raise (R400, R401): the equal
value cancels a raise, a lowering is in force at once unless the die of the object is in a holding pattern, and a raise waits
for the next epoch of the die d that counts for it. -/
structure LimitRule (k : ObjKey) (d : DieId) (lower : Bool) (v : Nat) (s t : State) : Prop where
  equal : v = s.setting k.idx k.sub k.sel → t.setting k.idx k.sub k.sel = v ∧ t.pendingRaise k = none
  lowers : v ≠ s.setting k.idx k.sub k.sel → moreRestrictive lower v (s.setting k.idx k.sub k.sel) = true →
    (0x2000 ≤ k.idx → (s.die d).svc.holding = none) → t.setting k.idx k.sub k.sel = v ∧ t.pendingRaise k = none
  held : v ≠ s.setting k.idx k.sub k.sel → moreRestrictive lower v (s.setting k.idx k.sub k.sel) = true →
    0x2000 ≤ k.idx → (s.die d).svc.holding.isSome = true →
    t.setting k.idx k.sub k.sel = s.setting k.idx k.sub k.sel ∧ t.pendingRaise k = some (v, 0)
  raises : moreRestrictive lower v (s.setting k.idx k.sub k.sel) = false →
    t.setting k.idx k.sub k.sel = s.setting k.idx k.sub k.sel ∧ t.pendingRaise k = some (v, s.atTick.epoch d + 1)

/-- What a write of the value v to an object that takes effect at the next epoch boundary of die d does (R402). -/
structure BoundaryRule (k : ObjKey) (d : DieId) (v : Nat) (s t : State) : Prop where
  now : t.setting k.idx k.sub k.sel = s.setting k.idx k.sub k.sel
  equal : v = s.setting k.idx k.sub k.sel → t.pendingRaise k = none
  waits : v ≠ s.setting k.idx k.sub k.sel → t.pendingRaise k = some (v, s.atTick.epoch d + 1)

/-! ### A record of a running plan -/

/-- The record q of the running plan r issues cleanly on tile `tile`: it is the next of its unit, and no word it is
fetched from or reads is poisoned (R262). -/
structure Issues (s : State) (d : DieId) (t h op u v : Nat) (r : Run) (q : Rec) : Prop where
  next : (s.die d).issuing t h op u v = some (r, q)
  fetched : s.poisoned d (lineAddr (r.plan.tile u v) (r.plan.stores.getD (v * r.plan.w + u) 0 +
    r.next.getD (v * r.plan.w + u) 0 / 8) + 16 * (r.next.getD (v * r.plan.w + u) 0 % 8)) 16 = []
  read : ∀ p ∈ s.readRanges d r q u v, s.poisoned d p.1 p.2 = []

/-- The state after a record's issue, before its effect: time has gone on to the record's cycle (R119, R263), the plan clock stands
there, the time the plan was held counts as late, and the record's activity is counted for the ledger (R213). -/
def Machine.State.issued (s0 : State) (d : DieId) (t h u v : Nat) (r : Run) (q : Rec) : State :=
  let s := s0.runTo d r q.cyc
  (s.modRun d t h r.queue fun x =>
    { (x.issued q u v) with late := x.late + (match r.holding with | some p => s.tray.now - p.2 | none => 0) }).countAct d
      ⟨t, h, r.queue, some (r.plan.tile u v), q.activity u v, 0, false⟩

/-- Nothing changed since the issue i of a record but the units of one logical tile. -/
structure UnitOnly (d : DieId) (tile : Nat) (i t : State) : Prop where
  rest : t = { i with dies := t.dies, fresh := t.fresh }
  die : t.die d = { i.die d with til := { (i.die d).til with units := (t.die d).til.units } }
  units : ∀ j, j ≠ tile → t.unit d j = i.unit d j
  others : ∀ e, e ≠ d → t.die e = i.die e

/-- Nothing changed since the issue i of a record but the SRAM of die d in the n bytes from a on, and the poison there. -/
structure SramOnly (d : DieId) (a n : Nat) (i t : State) : Prop where
  rest : t = { i with dies := t.dies, fresh := t.fresh }
  die : t.die d = { i.die d with til := { (i.die d).til with sram := (t.die d).til.sram, poison := (t.die d).til.poison } }
  bytes : ∀ b, b < a ∨ a + n ≤ b → t.sramRead d b 1 = i.sramRead d b 1
  others : ∀ e, e ≠ d → t.die e = i.die e

/-- Records of opcode op, each issued by the command c, write f of the record and the lanes of three vectors to the lanes of
the destination vector. -/
def LaneRecords (op : Nat) (c : DieId → Nat → Nat → Nat → Nat → Instr) (f : Rec → Nat → Nat → Nat → Nat) : Prop :=
  ∀ (s : State) (d : DieId) (t h u v : Nat) (r : Run) (q : Rec), Issues s d t h op u v r q → Does (c d t h u v) s fun x =>
    x.unit d (r.plan.tile u v) = (s.unit d (r.plan.tile u v)).setVec q.vd
      (((s.unit d (r.plan.tile u v)).vec q.va).mapIdx fun i a =>
        f q a (((s.unit d (r.plan.tile u v)).vec q.vb).getD i 0) (((s.unit d (r.plan.tile u v)).vec q.vc).getD i 0)) ∧
    UnitOnly d (r.plan.tile u v) (s.issued d t h u v r q) x

/-! ### Commands of a tenant's queue -/

/-- The command e of opcode op stands at the head of queue q of context (t, h) and starts: it is well formed (R478), was not
refused (R503), and its queue is not faulted, unless it resumes it (R499, R501). -/
structure Heads (s : State) (t h q op : Nat) (e : Cmd) : Prop where
  head : s.headCmd t h q = some e
  op : e.op = op
  taken : e.refused = false
  runs : ((s.queue? t h q).map Queue.faulted).getD false = true → e.isResume = true
  formed : e.badAt = none

/-- Context (t, h) is resident on die d, which runs commands. -/
structure OnDie (s : State) (t h : Nat) (d : DieId) : Prop where
  resident : ∃ r, (s.ctx? t h).bind Ctx.resident = some r ∧ dieOf r.1 = d
  free : s.dieBusy d = false

/-! ### Requests of the Legend Access Protocol and of SPDM -/

/-- Datagram g is one that R408 lets in, and carries frame f. -/
structure Carries (g : Datagram) (f : List Byte) : Prop where
  taken : g.taken = true
  frame : g.frame = f

/-- Frame f of a field port reaches the running tray as a new request of master m: it fits, passes the tag check, has no bad
field, and its sequence is new (R409, R411, R424). -/
structure NewRequest (m : MasterId) (f : List Byte) (s : State) : Prop where
  port : m = 1 ∨ m = 2
  answers : s.trayAnswers = true
  noReset : s.tray.fw.resetDue = false
  fits : frameFits m f = true
  tag : (s.master m).tagCheck f = .pass
  formed : s.malformed f = none
  new : ((s.master m).window s.tray.now).classify (fSeq f) = .new

/-- The state in which the service of a new request acts: its sequence has entered the record (R411, R413),
and the station that sent it waits for the response (R408). -/
def Machine.State.accepted (s : State) (m : MasterId) (g : Datagram) : State :=
  (s.modMaster m fun x => x.window s.tray.now).modMaster m fun x => x.accept (fSeq g.frame) s.tray.now (some g.peer)

/-- Nothing changed but master m and what was sent. -/
structure MasterSends (m : MasterId) (s t : State) : Prop where
  rest : t = { s with masters := t.masters, outputs := t.outputs }
  others : ∀ n, n ≠ m → t.master n = s.master n

/-- The capability of function f takes a message: the function lives, the tray answers, and no error waits for an abort
(R461, R462). -/
structure DoeTakes (f : Fn) (s : State) : Prop where
  lives : s.fnLives f = true
  answers : s.trayAnswers = true
  clear : match f with
    | .pf p => (s.pf (portIx p)).doe.err = false
    | .vf p n => ∃ v, KV.get? s.vfs (p, n) = some v ∧ v.doe.err = false

/-- A row of an SPDM message, over a DOE capability or over the LAP service: the responder answers it (R534). -/
def SpdmRequests (c : SpdmMsg → Instr) (ok : Nat → Bool) : Prop :=
  (∀ (s : State) (f : Fn) (msg : List Byte), DoeTakes f s → msg.length ≤ 8184 → ok (msg.getD 1 0#8).toNat = true →
    Does (c (.doe f msg)) s fun t =>
      t = (s.spdmRun (.doe f) msg).1.emit (.doe f (doeObject 1 (s.spdmRun (.doe f) msg).2))) ∧
  (∀ (s : State) (m : MasterId) (g : Datagram) (f : List Byte), Carries g f → NewRequest m f s → fService f = 0x0B →
    ok (f.getD 17 0#8).toNat = true → Does (c (.lap m g)) s fun t => t = (s.accepted m g).lapSpdm m f)

end Sys2Proof
end

