-- ==== Sys2Proof/Certificates/Slice0/Obligations.lean ====
section
/-! DEFINITION. The statements about the tray: what every command does to the whole machine, then family by family what
each command does when it takes effect, and what it leaves as it was. -/

open Sys2Proof Sys2Proof.Machine

/-! ### The machine as a whole -/

/-- One step runs the command at the front of the queue with the queue's rest. -/
def Obligations.StepRunsTheFrontCommand : Prop :=
  ∀ (c : Instr) (cs : List Instr) (s : State),
    Sys2Proof.Machine.step { s with pending := c :: cs } = Sys2Proof.Machine.exec c { s with pending := cs }

/-- With no command waiting, a step idles: runtime moves by 1 ns and nothing else changes (the model's choice, log 4). -/
def Obligations.EmptyQueueIdles : Prop :=
  ∀ s : State, s.pending = [] → ∃ t, Sys2Proof.Machine.step s = .next t ∧ t.accNow = s.accNow + 1 ∧
    t = { s with tray := { s.tray with now := s.tray.now + 1 } }

/-- Every command of the table ends in a next state, from every state: none faults and none is refused. No command touches
the queue of commands. Accumulated runtime never falls, and what was sent stays sent, whatever the command (R612 gives the
runtime). -/
def Obligations.EveryCommandCompletes : Prop :=
  (∀ (c : Instr) (s : State), ∃ t, Sys2Proof.Machine.exec c s = .next t) ∧
  (∀ (c : Instr) (s t : State), Sys2Proof.Machine.exec c s = .next t → t.pending = s.pending) ∧
  (∀ (c : Instr) (s t : State), Sys2Proof.Machine.exec c s = .next t → s.accNow ≤ t.accNow ∧ s.outputs <:+ t.outputs)

/-- The state right after reset is sound. -/
def Obligations.ResetIsSound : Prop := Inv State.reset

/-- A sound state stays sound over every step: canonical SRAM on every die, an ageing trim of 0 to 40 mV, at most 4,096
phase entries, at most 28,610 kept epoch energies, 48 resident slots, and at most 64 queued writes and 64 kept responses
per master. -/
def Obligations.EveryStepKeepsTheStateSound : Prop :=
  ∀ s t : State, Inv s → Sys2Proof.Machine.step s = .next t → Inv t

/-- A byte of SRAM reads as it was last written, and a write leaves every other byte alone; zeroing makes its range read 0
(R257). -/
def Obligations.SramReadsWhatWasWritten : Prop :=
  ∀ (s : State) (d : DieId) (a : Nat) (bs : List Byte),
    (∀ i, i < bs.length → (s.sramWrite d a bs).sramRead d (a + i) 1 = [bs.getD i 0#8]) ∧
    (∀ b, b < a ∨ a + bs.length ≤ b → (s.sramWrite d a bs).sramRead d b 1 = s.sramRead d b 1) ∧
    (∀ e b, e ≠ d → (s.sramWrite d a bs).sramRead e b 1 = s.sramRead e b 1) ∧
    (∀ n b, a ≤ b → b < a + n → (s.sramZero d a n).sramRead d b 1 = [0#8]) ∧
    (∀ n b, b < a ∨ a + n ≤ b → (s.sramZero d a n).sramRead d b 1 = s.sramRead d b 1)

/-! ### Contacts, clocks and time (chapters 02 and 03) -/

/-- TRAY_EN_n latches the slot number and starts the tray cold, its runtime at 0; bus power counts from there when the bus
lies within 40 to 60 V. A changed contact is reported and leaves the latched number. Deassertion takes the input away and
the tray controller down, and no hold-up runs (R18, R19, R35). Losing the bus with the hold-up module unavailable, or
before TRAY_READY, takes the tray controller down; in every case the bus counts as lost, and an over-voltage disconnects
the input, also of a bus that is lost already. BUS_BACK takes a bus within 40 to 60 V as back, 100 ms at least after it was
last seen outside, and is reported (R20). -/
def Obligations.TrayEnableAndBus : Prop :=
  (∀ (s : State) (pins mv : Nat), s.tray.pow.trayEn = false → Does (.trayEnAssert pins mv) s fun t =>
    t.tray.pow.trayEn = true ∧ t.tray.pow.slotPins = pins ∧ t.tray.pow.slotLatched = pins ∧ t.tray.now = 0 ∧
    t.accNow = s.accNow ∧ t.tray.pow.busFrom = (if 40000 ≤ mv ∧ mv ≤ 60000 then some 0 else none) ∧
    t.ctxs = [] ∧ t.outputs = s.outputs ∧ ∀ d, (t.die d).rails = {} ∧ (t.die d).til = {}) ∧
  (∀ (s : State) (pins : Nat), pins ≠ s.tray.pow.slotPins → Does (.slotIdChange pins) s fun t =>
    t.tray.pow = { s.tray.pow with slotPins := pins } ∧
    (s.tray.pow.trayEn = true → Reported t s 0xF 0x1202 [BitVec.ofNat 8 pins]) ∧
    TrayOnly s t) ∧
  (∀ s : State, s.tray.pow.trayEn = true → Does .trayEnDeassert s fun t =>
    t.tray.pow.trayEn = false ∧ t.tray.pow.inputMa = 0 ∧ t.tray.pow.busFrom = none ∧ t.tray.fw.running = false ∧
    t.tray.hold.onHoldup = false ∧ t.tray.hold.converter = false) ∧
  (∀ (s : State) (cause : BusLossCause), s.tray.pow.trayEn = true → s.tray.pow.busLost = false →
    ¬ (s.tray.fw.trayReady = true ∧ s.tray.hold.available = true) → Does (.busLoss cause) s fun t =>
      t.tray.pow.busLost = true ∧ t.tray.pow.inputOff = decide (cause = .excess) ∧ t.tray.fw.running = false) ∧
  (∀ (s : State) (cause : BusLossCause), s.tray.pow.trayEn = true → s.tray.pow.busLost = false →
    s.tray.fw.trayReady = true → s.tray.hold.available = true → Does (.busLoss cause) s fun t =>
      t.tray.pow.busLost = true ∧ t.tray.pow.inputOff = decide (cause = .excess)) ∧
  (∀ s : State, s.tray.pow.trayEn = true → s.tray.pow.busLost = true → Does (.busLoss .excess) s fun t =>
    t.tray.pow.inputOff = true ∧ t.tray.pow.busLost = true ∧ TrayOnly s t) ∧
  (∀ (s : State) (mv : Nat), s.tray.pow.trayEn = true → s.tray.pow.busLost = true → s.tray.hold.onHoldup = false →
    s.tray.fw.running = true → 40000 ≤ mv → mv ≤ 60000 → Does (.busBack mv) s fun t =>
      t.tray.now = max s.tray.now (s.tray.pow.busBadAt + 100000000) ∧
      t.tray.pow = { s.tray.pow with
        busLost := false, inputOff := false, busMv := mv, busFrom := some (t.tray.now - 100000000) } ∧
      Reported t s 0xF 0x1204 (leBytes 2 (mv / 10)) ∧ TrayOnly s t) ∧
  (∀ (s : State) (mv : Nat), ¬ (40000 ≤ mv ∧ mv ≤ 60000) → Does (.busBack mv) s fun t => t = s)

/-- A die keeps its reference until the other is locked: a loss of the reference in use is holdover, with a relock to the
other input when that is ready; RL keeps its ready flag. The end of the relock names the reference in use and is recorded
(R37). The comparison of two ready references sets REF_MISMATCH above 100 ppm and clears it at 100 ppm or less (R40). Losing
the lock of the active loop of a die that computes puts it on the RL ÷ 16 bridge, which is F15, as a clock fault and a local
emergency; the die moves to the idle loop as soon as that is ready (R45, R46), but to no step above the one that its group
applies and its restrictions permit (R15). A compensated circuit takes its value from
the reading of its own nearest protective sensor: the table's value at each of its 16 points (0 to 120 °C in steps of 8 °C),
linear between two points, and held below the first and above the last (R58; quotients are rounded down, log 7). -/
def Obligations.ClockSources : Prop :=
  (∀ (s : State) (d : DieId), (s.die d).clk.refReady (s.die d).clk.refInUse = true →
    Does (.refLoss d) s fun t =>
      (t.die d).clk.refReady (s.die d).clk.refInUse = false ∧ (t.die d).clk.holdover = true ∧
      (t.die d).clk.refInUse = (s.die d).clk.refInUse ∧ (t.die d).clk.rlReady = (s.die d).clk.rlReady ∧
      (t.die d).clk.relockTo = (if (s.die d).clk.refReady (s.die d).clk.refInUse.other = true
        then some (s.die d).clk.refInUse.other else none) ∧
      t.die d = { s.die d with clk := (t.die d).clk } ∧ DieNoted d s t) ∧
  (∀ (s : State) (d : DieId) (r : RefIn), (s.die d).clk.relockTo = some r → Does (.rlRelockDone d) s fun t =>
    t.die d = { s.die d with clk := { (s.die d).clk with
      refInUse := r, relockTo := none, holdover := false, switchStatus := 0 } } ∧ DieNoted d s t ∧
    (r ≠ (s.die d).clk.refInUse → s.tray.fw.restarting = false →
      ∃ e ∈ t.tray.mor.reports, e.source = d.val ∧ e.code = 0x5001) ∧
    (r = (s.die d).clk.refInUse → DieOnly d s t)) ∧
  (∀ (s : State) (d : DieId) (since : Ns), (s.die d).clk.bothLostAt = some since → (s.die d).clk.xaReady = false →
    (s.die d).clk.xbReady = false → (s.die d).clk.refsLostHalt = false →
    (∀ p, p < 16 → (s.port d p).state = .off ∨ (s.port d p).state = .down) → Does (.refBothLostHalt d) s fun t =>
      (t.die d).clk.refsLostHalt = true ∧ (t.die d).clk.fixedOnFosc = (s.die d).clk.foscReady ∧
      (t.die d).clk.timeValid = false ∧
      (t.die d).rails.retention = true ∧ since + 10000000 ≤ t.tray.now ∧ (t.die d).til = (s.die d).til ∧ DieNoted d s t) ∧
  (∀ (s : State) (d : DieId) (ppm : Nat), (s.die d).clk.xaReady = true → (s.die d).clk.xbReady = true →
    Does (.refCompareInterval d ppm) s fun t =>
      t.die d = { s.die d with clk := { (s.die d).clk with refMismatch := decide (100 < ppm) } } ∧ DieNoted d s t) ∧
  (∀ (s : State) (d : DieId) (src : ClkSource), Does (.sourceReady d src) s fun t =>
    (match src with
      | .xa => (t.die d).clk.xaReady = true
      | .xb => (t.die d).clk.xbReady = true
      | .fosc => (t.die d).clk.foscReady = true
      | .sosc => (t.die d).clk.soscReady = true
      | .rl => (t.die d).clk.rlReady = true
      | .opll => (t.die d).clk.opllReady = true) ∧
    t.die d = { s.die d with clk := (t.die d).clk } ∧ DieOnly d s t) ∧
  (∀ (s : State) (d : DieId), ((s.die d).clk.loop (s.die d).clk.active).ready = true → (s.die d).clk.onBridge = false →
    (s.die d).computes = true → Does (.loopLockLoss d (s.die d).clk.active) s fun t =>
      (t.die d).clk.onBridge = true ∧ (t.die d).clk.curStep = 15 ∧ (t.die d).mer.emergency = true ∧
      (t.die d).clk.clockFaults = satAdd 32 (s.die d).clk.clockFaults 1 ∧ (t.die d).til = (s.die d).til ∧
      DieNoted d s t) ∧
  (∀ (s : State) (d : DieId), (s.die d).clk.bothFailed = false → (s.die d).computes = true →
    (s.die d).clk.onBridge = true → (s.die d).rails.vReady = true →
    s.permitted d (s.die d).mer.groupStep ≤ ((s.die d).clk.loop (s.die d).clk.spare).step →
    Does (.idleLoopReady d) s fun t =>
      (t.die d).clk.onBridge = false ∧ (t.die d).clk.active = (s.die d).clk.spare ∧
      (t.die d).clk.curStep = ((s.die d).clk.loop (s.die d).clk.spare).step ∧
      t.die d = { s.die d with clk := (t.die d).clk, op := { (s.die d).op with supplyLag := false } } ∧ DieOnly d s t) ∧
  (∀ (s : State) (d : DieId), (s.die d).clk.bothFailed = false →
    ((s.die d).clk.loop (s.die d).clk.spare).step < s.permitted d (s.die d).mer.groupStep →
    Does (.idleLoopReady d) s fun t => (t.die d).clk.curStep = (s.die d).clk.curStep ∧
      (t.die d).clk.onBridge = (s.die d).clk.onBridge ∧ t.die d = { s.die d with clk := (t.die d).clk } ∧ DieOnly d s t) ∧
  (∀ (s : State) (d : DieId) (u : Nat → Int), (∀ k, k < 4 → (s.die d).heat.reading (Config.compSensor d k) = some (u k)) →
    Does (.compTableUpdate d) s fun t =>
    t.die d = { s.die d with clk := { (s.die d).clk with comp := (t.die d).clk.comp } } ∧ DieOnly d s t ∧
    (t.die d).clk.comp.length = 4 ∧ ∀ k, k < 4 →
      (u k ≤ 0 → (t.die d).clk.comp.getD k 0 = Config.compTable d k 0) ∧
      (1920 ≤ u k → (t.die d).clk.comp.getD k 0 = Config.compTable d k 15) ∧
      (∀ i : Nat, i < 15 → 128 * (i : Int) ≤ u k → u k < 128 * (i + 1) → 0 < u k →
        (t.die d).clk.comp.getD k 0 = Config.compTable d k i +
          (Config.compTable d k (i + 1) - Config.compTable d k i) * (u k - 128 * i) / 128)) ∧
  (∀ (s : State) (d : DieId), (∀ k, k < 4 → (s.die d).heat.reading (Config.compSensor d k) = none) →
    Does (.compTableUpdate d) s fun t => ∀ k, k < 4 → (t.die d).clk.comp.getD k 0 = (s.die d).clk.comp.getD k 0)

/-- While time is valid, a tick of the time root steers its rate by at most 200 ppm of what is left to steer; its count does not
jump (R59, R60). A
request is answered with its three timestamps, on the port it came by (R344); a response within 40 ns steers the rate of a
die with valid time and sets the count of bad exchanges to 0, and the 16th consecutive one within 5 ns makes time valid
(R61, R62). A half nanosecond of the offset is rounded down (log 7). -/
def Obligations.TimeExchange : Prop :=
  (∀ (s : State) (d : DieId), s.timeRoot d = true → Does (.timeExchangeTick d) s fun t =>
      (t.die d).clk.rateAdj = max (-200) (min 200 (s.die d).clk.steer) ∧ (t.die d).clk.rateFrom = s.tray.now ∧
      (t.die d).clk.count s.tray.now = (s.die d).clk.count s.tray.now ∧
      (∀ n, n ≤ 1000000 → (t.die d).clk.raw (s.tray.now + n) =
        (s.die d).clk.raw s.tray.now + n + (t.die d).clk.rateAdj * n / 1000000) ∧
      (t.die d).clk.steer = (s.die d).clk.steer - max (-200) (min 200 (s.die d).clk.steer) ∧
      t.die d = { s.die d with clk := (t.die d).clk } ∧ DieOnly d s t) ∧
  (∀ (s : State) (d : DieId) (port src no t1 t2 : Nat), (s.port d port).state = .up →
    (s.port d port).replay.length < 256 → Does (.timeRequest d port src no t1 t2) s fun t =>
      t.outputs = .flit d port (flitBytes 2 false false (s.port d port).txSeq (s.port d port).rxSeq 0 0 0
        (recordBytes 0x09 (s.groupNo d) src (s.identity d) 0 64
          (leBytes 4 no ++ leBytes 8 t1 ++ leBytes 8 t2 ++ leBytes 8 (s.sysTime d)))) :: s.outputs ∧
      t.die d = { s.die d with fab := (t.die d).fab } ∧ DieSends d s t) ∧
  (∀ (s : State) (d : DieId) (no own t1 t2 t3 t4 : Nat), (s.die d).clk.exchOpen = some (no, own) →
    (s.die d).clk.timeValid = true →
    -40 ≤ (((t2 : Int) - t1) + ((t3 : Int) - t4)) / 2 → (((t2 : Int) - t1) + ((t3 : Int) - t4)) / 2 ≤ 40 →
    Does (.timeResponse d no t1 t2 t3 t4) s fun t =>
      t.die d = { s.die d with clk := { (s.die d).clk with
        exchOpen := none, badExch := 0, lastOffset := (((t2 : Int) - t1) + ((t3 : Int) - t4)) / 2
        steer := (((t2 : Int) - t1) + ((t3 : Int) - t4)) / 2 } } ∧ DieOnly d s t) ∧
  (∀ (s : State) (d : DieId) (no own t1 t2 t3 t4 : Nat), (s.die d).clk.exchOpen = some (no, own) →
    (s.die d).clk.timeValid = false →
    -5 ≤ (((t2 : Int) - t1) + ((t3 : Int) - t4)) / 2 → (((t2 : Int) - t1) + ((t3 : Int) - t4)) / 2 ≤ 5 →
    Does (.timeResponse d no t1 t2 t3 t4) s fun t =>
      ((t.die d).clk.timeValid = true ↔ 15 ≤ (s.die d).clk.goodExch) ∧
      (t.die d).clk.goodExch = (s.die d).clk.goodExch + 1 ∧
      t.die d = { s.die d with clk := (t.die d).clk } ∧ DieOnly d s t)

/-- An epoch boundary comes with the first running count whose bits [19:0] become 0 (R63): runtime reaches it, every die whose
count reaches its boundary starts its epoch, the lowest index first, then the tray does when its count is among them. With no
count running nothing happens. A die that starts its epoch takes the step of the result of the epoch that ended (R192), its
share and its mode of division (R116, R126); the debt of the epoch becomes that of the last one (R141), no due raise is left
(R401), and it has no energy used, no cut, no deviation and no proposal. -/
def Obligations.EpochBoundary : Prop :=
  (∀ s : State, (∀ d, (s.die d).counts = false) → Does .epochBoundary s fun t => t = s) ∧
  (∀ (s : State) (b : Ns), s.nextBoundary = some b → Does .epochBoundary s fun t => s.tray.accBase + b ≤ t.accNow) ∧
  (∀ (s : State) (b : Ns) (hits : List DieId), s.nextBoundary = some b →
    hits = (List.finRange 8).filter (fun d => (s.die d).counts && decide ((s.die d).clk.boundaryAt s.tray.now ≤ b)) →
    hits ≠ [] ∧ Does .epochBoundary s fun t =>
      t = (if s.timeDie ∈ hits then State.trayBoundary else fun u _ => u)
        (hits.foldl (fun u d => u.dieBoundary d ((s.advanceTo b).epoch d)) (s.advanceTo b))
        ((s.advanceTo b).epoch s.timeDie)) ∧
  (∀ (s : State) (d : DieId) (n : Nat),
    ((s.dieBoundary d n).die d).droop.debtLast = (s.die d).droop.debtEpoch ∧
    ((s.dieBoundary d n).die d).droop.debtEpoch = 0 ∧ ((s.dieBoundary d n).die d).pow.epochEnergy = 0 ∧
    ((s.dieBoundary d n).die d).pow.share = (s.die d).pow.shareNext.getD (s.die d).pow.share ∧
    ((s.dieBoundary d n).die d).pow.sealed = (s.die d).pow.sealedNext.getD (s.die d).pow.sealed ∧
    ((s.dieBoundary d n).die d).mer.proposal = none ∧ ((s.dieBoundary d n).die d).mer.closed = false ∧
    ∀ r ∈ s.dueRaises d.val n, ¬ (r.1.idx = 0x2100 ∧ r.1.sub = 1) → (s.dieBoundary d n).pendingRaise r.1 = none) ∧
  (∀ (s : State) (d : DieId) (n : Nat) (r : MResult), s.dueRaises d.val n = [] →
    (s.die d).mer.result = some r → r.epoch + 1 = n → (s.die d).mer.member = true → r.strays.contains (s.identity d) = false → r.leaves.contains (s.identity d) = false →
    ((s.dieBoundary d n).die d).mer.groupStep = r.step ∧ ((s.dieBoundary d n).die d).mer.member = true) ∧
  (∀ (s : State) (d : DieId) (n : Nat), ((s.dieBoundary d n).die d).pow.surgeCut = false ∧
    ((s.dieBoundary d n).die d).pow.deviated = false ∧ ((s.dieBoundary d n).die d).pow.cutTime = 0 ∧
    ∀ r ∈ ((s.dieBoundary d n).die d).til.runs, r.eEpoch = 0 ∧ r.cut = 0 ∧ r.limited = false)

/-! ### Rails and operating points (chapter 04) -/

/-- The AVSBus sequencer reads current and voltage; a write without a good response is retried once, and a second failure
is an AVSBus fault that leaves VCORE at the wide F15 target and joins the causes of an asserted alert (R71). A rise is
made of writes of at most 60 mV, each settled ⌈ΔV / 10 mV⌉ + 2 µs after its issue, and VCORE is ready when the last of
them has settled (R74, log 103). One failed bus converter of
which three are left changes nothing else and is reported (R67); the restriction of the tray's power ends when three
converters work again (R68). The lowest working spare phase takes the place of a failed one. A VCORE regulator keeps its limit
while 22 phases work; with fewer its limit is 80 A for each and the share, that of the running epoch and one that waits, falls
to that part of 22 (R69). After an AVSBus fault the die is held to F15, whatever step its group applies (R71, R637). Voltages
count in 0.25 mV. -/
def Obligations.AvsBusAndConverters : Prop :=
  (∀ (s : State) (d : DieId) (ma mv : Nat), (s.die d).rails.avsGov = true → Does (.avsCurrentRead d ma mv) s fun t =>
    t.die d = { s.die d with rails := { (s.die d).rails with vcoreMa := ma, vcoreMeas := mv } } ∧ DieOnly d s t) ∧
  (∀ (s : State) (d : DieId) (v : Nat), (s.die d).rails.avsWrite = some (v, false) → Does (.avsWriteTimeout d) s fun t =>
    t.die d = { s.die d with rails := { (s.die d).rails with avsWrite := some (v, true), writeAt := t.tray.now } } ∧
    DieOnly d (s.advanceTo ((s.die d).rails.writeAt + 4000)) t) ∧
  (∀ (s : State) (d : DieId) (v : Nat), (s.die d).rails.avsWrite = some (v, true) → (s.die d).op.alert = true →
    Does (.avsWriteTimeout d) s fun t =>
      (t.die d).rails.avsFault = true ∧ (t.die d).rails.avsGov = false ∧
      (t.die d).rails.vcoreSet = vcoreTarget d 15 true (s.die d).op.trim 0 ∧
      (t.die d).op.alertCause = (s.die d).op.alertCause ||| 2 ^ 7 ∧
      DieOnly d (s.advanceTo ((s.die d).rails.writeAt + 4000)) t) ∧
  (∀ (s : State) (d : DieId) (v : Nat) (again : Bool), (s.die d).rails.avsWrite = some (v, again) →
    v ≠ (s.die d).rails.avsGoal → Does (.voltageReady d) s fun t =>
      (t.die d).rails = { (s.die d).rails with
        vcoreSet := v, avsWrite := some (min (v + 240) (s.die d).rails.avsGoal, false), writeAt := t.tray.now } ∧
      t.die d = { s.die d with rails := (t.die d).rails } ∧
      DieOnly d (s.advanceTo ((s.die d).rails.writeAt + settleNs (s.die d).rails.vcoreSet v)) t) ∧
  (∀ (s : State) (d : DieId) (again : Bool), (s.die d).rails.avsWrite = some ((s.die d).rails.avsGoal, again) →
    (s.die d).clk.raiseWaits = false → (s.die d).op.wideWaits = false → Does (.voltageReady d) s fun t =>
      (t.die d).rails = { (s.die d).rails with vcoreSet := (s.die d).rails.avsGoal, avsWrite := none, vReady := true } ∧
      (t.die d).til = (s.die d).til ∧ (t.die d).clk = (s.die d).clk ∧
      DieOnly d (s.advanceTo ((s.die d).rails.writeAt +
        settleNs (s.die d).rails.vcoreSet (s.die d).rails.avsGoal)) t) ∧
  (∀ (s : State) (n : Nat), s.tray.pow.converters.getLsbD n = true →
    3 ≤ popCount (s.tray.pow.converters &&& ~~~BitVec.twoPow 4 n) → Does (.converterFail n) s fun t =>
      t.tray.pow = { s.tray.pow with converters := s.tray.pow.converters &&& ~~~BitVec.twoPow 4 n } ∧
      Reported t s 0xF 0x1201 [BitVec.ofNat 8 n] ∧ TrayOnly s t) ∧
  (∀ (s : State) (n : Nat), n < 4 → Does (.converterRestored n) s fun t =>
    t.tray.pow.converters = s.tray.pow.converters ||| BitVec.twoPow 4 n ∧
    (3 ≤ popCount (s.tray.pow.converters ||| BitVec.twoPow 4 n) → t.tray.pow.convRestrict = false) ∧
    (popCount (s.tray.pow.converters ||| BitVec.twoPow 4 n) < 3 → t.tray.pow.convRestrict = s.tray.pow.convRestrict) ∧
    TrayOnly s t) ∧
  (∀ (s : State) (d : DieId) (n : Nat), (s.die d).rails.phases.getLsbD n = true →
    22 ≤ popCount ((s.die d).rails.phases &&& ~~~BitVec.twoPow 26 n) → Does (.vcorePhaseFail d n) s fun t =>
      t.die d = { s.die d with rails := { (s.die d).rails with
        phases := (s.die d).rails.phases &&& ~~~BitVec.twoPow 26 n
        active := activeAfter ((s.die d).rails.phases &&& ~~~BitVec.twoPow 26 n) (s.die d).rails.active n } } ∧ DieOnly d s t) ∧
  (∀ (work active : BitVec 26) (n i : Nat), active.getLsbD n = true → work.getLsbD n = false → i < 26 →
    work.getLsbD i = true → active.getLsbD i = false → (∀ j, j < i → work.getLsbD j = true → active.getLsbD j = true) →
    (activeAfter work active n).getLsbD i = true ∧ (activeAfter work active n).getLsbD n = false) ∧
  (∀ (s : State) (d : DieId) (g : Nat), (s.die d).rails.avsFault = true → s.permitted d g = 15) ∧
  (∀ (s : State) (d : DieId) (n : Nat), (s.die d).rails.phases.getLsbD n = true → (s.die d).op.alert = true →
    popCount ((s.die d).rails.phases &&& ~~~BitVec.twoPow 26 n) < 22 → Does (.vcorePhaseFail d n) s fun t =>
      (t.die d).rails.ocLimit = 80 * popCount ((s.die d).rails.phases &&& ~~~BitVec.twoPow 26 n) ∧
      (t.die d).pow.share = (s.die d).pow.share * popCount ((s.die d).rails.phases &&& ~~~BitVec.twoPow 26 n) /
        min 22 (popCount (s.die d).rails.phases) ∧
      (t.die d).pow.shareNext = (s.die d).pow.shareNext.map (fun v =>
        v * popCount ((s.die d).rails.phases &&& ~~~BitVec.twoPow 26 n) / min 22 (popCount (s.die d).rails.phases)) ∧
      (t.die d).op.alertCause = (s.die d).op.alertCause ||| 2 ^ 8 ∧ DieOnly d s t)

/-- An alert of a die whose REG_ALERT_n is asserted already adds its cause. At 10 ms the die's tiles are gated and its SRAM
is held in retention (R87), but never on the causes 6 to 8 alone (R637); the deassertion, 1 ms after the fall at least while
cause 8 holds it, starts the 100 µs, and ends the issue cut unless the forced state still runs (R86, R88, R637); the acknowledgement of the firmware waits for the end of the forced state and for its F15 write (R88). The
ageing trim T rises by at most 5 mV at once, falls by at most 5 mV and only when the required trim lies 10 mV or more below,
at the next epoch boundary, and stays within 0 to 40 mV (R81, R82, R84); a benchmark before 168 h of runtime measures no
ageing (R81); a measurement overdue by 24 h raises it by 5 mV (R83; which clock counts the 24 h is the model's choice, log
107). Voltages count in 0.25 mV. -/
def Obligations.AlertsAndTrim : Prop :=
  (∀ (s : State) (d : DieId) (cause : Nat), (s.die d).op.alert = true → Does (.regAlertAssert d cause) s fun t =>
    t.die d = { s.die d with op := { (s.die d).op with
      alertCause := (s.die d).op.alertCause ||| 2 ^ cause, liveCauses := (s.die d).op.liveCauses ||| 2 ^ cause } } ∧
    DieOnly d s t) ∧
  (∀ (s : State) (d : DieId) (cause : Nat), (s.die d).op.alert = false → Does (.regAlertAssert d cause) s fun t =>
      (t.die d).op.alert = true ∧ (t.die d).op.hold = true ∧ (t.die d).op.div4 = true ∧ (t.die d).op.issueCut = true ∧
      (t.die d).op.alertAt = s.tray.now ∧ (t.die d).op.awaitRelease = true ∧ (t.die d).rails.avsWrite = none ∧
      (t.die d).til = (s.die d).til ∧ ((s.die d).computes = true → (t.die d).mer.emergency = true) ∧
      ∀ e, e ≠ d → t.die e = s.die e) ∧
  (∀ (s : State) (d : DieId), (s.die d).op.hold = true → Does (.forcedStateEnd d) s fun t =>
      (t.die d).op.hold = false ∧ (t.die d).op.div4 = false ∧ (t.die d).op.issueCut = (s.die d).op.alert ∧
      (s.die d).op.alertAt + 1000000 ≤ t.tray.now ∧ DieNoted d s t) ∧
  (∀ (s : State) (d : DieId), (s.die d).op.liveCauses % 64 = 0 → Does (.alertHalt d) s fun t => t = s) ∧
  (∀ (s : State) (d : DieId), (s.die d).op.alert = true → (s.die d).op.alertHalt = false →
    (s.die d).op.liveCauses % 64 ≠ 0 → Does (.alertHalt d) s fun t =>
    t.die d = { s.die d with op := { (s.die d).op with alertHalt := true }
                             rails := { (s.die d).rails with retention := (s.die d).rails.vsram } } ∧
    (s.die d).op.alertAt + 10000000 ≤ t.tray.now ∧ DieNoted d s t) ∧
  (∀ (s : State) (d : DieId), (s.die d).op.alert = true → Does (.regAlertDeassert d) s fun t =>
    t.die d = { s.die d with op := { (s.die d).op with
      alert := false, liveCauses := 0, deassertAt := some t.tray.now, issueCut := (s.die d).op.hold } } ∧ DieNoted d s t ∧
    t.tray.now = if bit (s.die d).op.liveCauses 8 then max s.tray.now ((s.die d).op.phaseFallAt + 1000000) else s.tray.now) ∧
  (∀ (s : State) (d : DieId), (s.die d).op.awaitRelease = true → (s.die d).op.hold = false →
    (s.die d).op.f15Pending = false → Does (.alertAck d) s fun t =>
      t.die d = { s.die d with op := { (s.die d).op with acked := true } } ∧ DieOnly d s t) ∧
  (∀ (s : State) (d : DieId), (s.die d).op.f15Pending = true → Does (.alertAck d) s fun t => t = s) ∧
  (∀ (s : State) (d : DieId) (at_ : Ns), (s.die d).op.deassertAt = some at_ → (s.die d).op.awaitRelease = true →
    (s.die d).op.acked = true → (s.die d).op.alert = false → (s.die d).op.hold = false → Does (.alertRelease d) s fun t =>
      (t.die d).op.awaitRelease = false ∧ (t.die d).op.alertCause = 0 ∧ (t.die d).op.deassertAt = none ∧
      at_ + 100000 ≤ t.tray.now ∧ DieNoted d s t) ∧
  (∀ (s : State) (d : DieId) (need ceil : Nat), (s.die d).op.ageRuntime < 604800000000000 →
    Does (.ageingMeasurement d need ceil) s fun t => t = s) ∧
  (∀ (s : State) (d : DieId) (need ceil : Nat), (s.die d).nrg.bench ≠ [] → (s.die d).computes = true →
    604800000000000 ≤ (s.die d).op.ageRuntime → (s.die d).op.trim ≤ 160 → need < (s.die d).op.trim → Does (.ageingMeasurement d need ceil) s fun t =>
      (t.die d).op.trim = (s.die d).op.trim ∧ (t.die d).op.overdue = false ∧ (t.die d).op.ageRuntime = 0 ∧
      (need + 40 ≤ (s.die d).op.trim → (t.die d).op.trimFall = some (max ((s.die d).op.trim - 20) need))) ∧
  (∀ (o : OpPoint) (need ceil : Nat), o.trim ≤ 160 →
    (o.trim < need → (o.aged need ceil).trim = min (min (o.trim + 20) need) 160 ∧ (o.aged need ceil).trimFall = none) ∧
    (need ≤ o.trim → (o.aged need ceil).trim = o.trim) ∧
    (o.aged need ceil).saturated = decide (160 < need) ∧ (o.aged need ceil).trim ≤ 160 ∧
    (160 < need → (o.aged need ceil).agedCeiling = ceil)) ∧
  (∀ (s : State) (d : DieId), (s.die d).rails.vcore = true → Does (.ageingOverdue d) s fun t =>
    (t.die d).op.overdue = true ∧ (t.die d).op.trim = min 160 ((s.die d).op.trim + 20) ∧
    (s.die d).op.ageRuntime ≤ (t.die d).op.ageRuntime ∧
    ((s.die d).op.overdue = false → 604800000000000 + 86400000000000 ≤ (t.die d).op.ageRuntime))

/-! ### Contours and caps (chapter 05), and the writes that lower, raise or wait (chapter 14) -/

/-- The writes of limit-class objects: a more restrictive value is in force at once, the equal value cancels a pending raise,
and a raise waits for the next epoch boundary (R400, R401; R91, R130, R150, R159). A lower tray cap gives every die a new
share, levelled at the step each runs (R129). A cap below the sealed commitment is no case of this statement. -/
def Obligations.LimitWrites : Prop :=
  (∀ (s : State) (m : MasterId) (d : DieId) (v : Nat), GateTakes m ⟨0x2100, 0xD, d.val⟩ (leBytes 2 v) s →
    Does (.vsramVoltageWrite m d v) s fun t =>
      LimitRule ⟨0x2100, 0xD, d.val⟩ d false (v % 256 ^ 2) s t ∧
      (v % 256 ^ 2 ≤ s.setting 0x2100 0xD d.val → t.dies = s.dies) ∧
      (s.setting 0x2100 0xD d.val < v % 256 ^ 2 → (s.die d).svc.holding = none →
        t.die d = { s.die d with rails := { (s.die d).rails with vsramMv := v % 256 ^ 2 } }) ∧
      GateOnly ⟨0x2100, 0xD, d.val⟩ s t ∧ ∀ e, e ≠ d → t.die e = s.die e) ∧
  (∀ (s : State) (m : MasterId) (d : DieId) (v : Nat), (s.die d).pow.sealed = false →
    GateTakes m ⟨0x2000, 1, d.val⟩ (leBytes 4 v) s → Does (.dieCapWrite m d v) s fun t =>
      LimitRule ⟨0x2000, 1, d.val⟩ d true (v % 256 ^ 4) s t ∧
      (s.setting 0x2000 1 d.val ≤ v % 256 ^ 4 → t.dies = s.dies) ∧
      (v % 256 ^ 4 < s.setting 0x2000 1 d.val → (s.die d).svc.holding = none → t.dies =
        (((s.atTick.cancelRaise ⟨0x2000, 1, d.val⟩).putSetting 0x2000 1 d.val (v % 256 ^ 4)).scaleBudgets d).dies) ∧
      GateOnly ⟨0x2000, 1, d.val⟩ s t ∧ ∀ e, e ≠ d → t.die e = s.die e) ∧
  (∀ (s : State) (m : MasterId) (v : Nat), (∀ d, (s.die d).pow.sealed = false) →
    GateTakes m ⟨0x1200, 1, 0xF⟩ (leBytes 4 v) s → Does (.trayCapWrite m v) s fun t =>
      LimitRule ⟨0x1200, 1, 0xF⟩ s.timeDie true (v % 256 ^ 4) s t ∧
      (s.setting 0x1200 1 0xF ≤ v % 256 ^ 4 → t.dies = s.dies ∧ t.tray.pow = s.tray.pow) ∧
      (v % 256 ^ 4 < s.setting 0x1200 1 0xF → t.tray.pow =
        ((s.atTick.putSetting 0x1200 1 0xF (v % 256 ^ 4)).updateCap).tray.pow ∧
        ∀ d, (t.die d).pow.share = (((s.atTick.putSetting 0x1200 1 0xF (v % 256 ^ 4)).updateCap).sharesBy
          fun e => (s.die e).clk.curStep).getD d.val 0)) ∧
  (∀ (s : State) (m : MasterId) (d : DieId) (sub v : Nat), sub = 1 ∨ sub = 2 ∨ sub = 3 →
    GateTakes m ⟨0x2200, sub, d.val⟩ (leBytes 1 v) s → Does (.droopSettingWrite m d sub v) s fun t =>
      LimitRule ⟨0x2200, sub, d.val⟩ d (sub == 1) (v % 256 ^ 1) s t ∧
      GateOnly ⟨0x2200, sub, d.val⟩ s t ∧ t.dies = s.dies) ∧
  (∀ (s : State) (m : MasterId) (d : DieId) (sub v : Nat), sub = 1 ∨ sub = 4 ∨ sub = 5 →
    GateTakes m ⟨0x2300, sub, d.val⟩ (leBytes 2 v) s → Does (.heatThresholdWrite m d sub v) s fun t =>
      LimitRule ⟨0x2300, sub, d.val⟩ d (sub != 4) (v % 256 ^ 2) s t ∧
      GateOnly ⟨0x2300, sub, d.val⟩ s t ∧ t.dies = s.dies)

/-- The writes that take effect at the next epoch boundary: the glacier window (R130), the overhead rule (R226) and a
return to lean margin (R78); the mode of division, stored at once, which the die takes over at the boundary (R116); and
those in force at once: wide margin of a die without VCORE, the sealed table (R639) and the hold time (R559). -/
def Obligations.BoundaryWrites : Prop :=
  (∀ (s : State) (m : MasterId) (d : DieId) (v : Nat), GateTakes m ⟨0x2000, 2, d.val⟩ (leBytes 4 v) s →
    Does (.glacierWindowWrite m d v) s fun t => BoundaryRule ⟨0x2000, 2, d.val⟩ d (v % 256 ^ 4) s t ∧
      GateOnly ⟨0x2000, 2, d.val⟩ s t ∧ t.dies = s.dies) ∧
  (∀ (s : State) (m : MasterId) (d : DieId) (v : Nat), GateTakes m ⟨0x2600, 5, d.val⟩ (leBytes 1 v) s →
    Does (.overheadRuleWrite m d v) s fun t => BoundaryRule ⟨0x2600, 5, d.val⟩ d (v % 256 ^ 1) s t ∧
      GateOnly ⟨0x2600, 5, d.val⟩ s t ∧ t.dies = s.dies) ∧
  (∀ (s : State) (m : MasterId) (d : DieId) (v : Nat), GateTakes m ⟨0x2100, 1, d.val⟩ (leBytes 1 v) s →
    v % 256 ^ 1 = 0 → (s.die d).op.wide = true → (s.die d).op.wideWaits = false →
    s.pendingRaise ⟨0x2100, 1, d.val⟩ ≠ some (1, 0) →
    Does (.marginModeWrite m d v) s fun t =>
      t.pendingRaise ⟨0x2100, 1, d.val⟩ = some (0, s.atTick.epoch d + 1) ∧
      GateOnly ⟨0x2100, 1, d.val⟩ s t ∧ t.dies = s.dies) ∧
  (∀ (s : State) (m : MasterId) (d : DieId) (v : Nat), GateTakes m ⟨0x2100, 1, d.val⟩ (leBytes 1 v) s →
    v % 256 ^ 1 = 1 → (s.die d).op.wide = false → (s.die d).rails.vcore = false → (s.die d).pow.sealed = false →
    (s.die d).svc.holding = none → Does (.marginModeWrite m d v) s fun t =>
      t.setting 0x2100 1 d.val = 1 ∧ (t.die d).op.wide = true ∧ (t.die d).op.lead = 0 ∧ (t.die d).droop.monitor = true ∧
      GateOnly ⟨0x2100, 1, d.val⟩ s { t with tray := { t.tray with
        mor := s.tray.mor, fw := { t.tray.fw with lostReports := s.tray.fw.lostReports } } } ∧
      ∀ e, e ≠ d → t.die e = s.die e) ∧
  (∀ (s : State) (m : MasterId) (d : DieId) (v : Nat), GateTakes m ⟨0x2000, 5, d.val⟩ (leBytes 1 v) s →
    (v % 256 ^ 1 ≠ 1 ∨ (s.ceiling d ≤ (s.die d).pow.sealedStep ∧ s.sealedFits d = true)) →
    Does (.divisionModeWrite m d v) s fun t =>
      t.setting 0x2000 5 d.val = v % 256 ^ 1 ∧
      t.die d = { s.die d with pow := { (s.die d).pow with sealedNext := some (v % 256 ^ 1 == 1) } } ∧
      GateOnly ⟨0x2000, 5, d.val⟩ s t ∧ ∀ e, e ≠ d → t.die e = s.die e) ∧
  (∀ (s : State) (m : MasterId) (d : DieId) (v : List Byte), GateTakes m ⟨0x2000, 0x20, d.val⟩ v s →
    (∀ e ∈ sealedEntries v, e.2.2 ≤ 16 ∧ (e.2.1 = 0 ∨ e.2.2 ≠ 0)) → Does (.sealedTableWrite m d v) s fun t =>
      t.die d = { s.die d with pow := { (s.die d).pow with sealedTable := sealedEntries v } } ∧
      t.setting 0x2000 0x20 d.val = leNat v ∧ GateOnly ⟨0x2000, 0x20, d.val⟩ s t ∧ ∀ e, e ≠ d → t.die e = s.die e) ∧
  (∀ (s : State) (m : MasterId) (v : Nat), GateTakes m ⟨0x1400, 1, 0xF⟩ (leBytes 2 v) s →
    (s.tray.hold.onHoldup = false ∨ s.atTick.accNow < s.tray.hold.holdAt + 1000000000 * (v % 256 ^ 2)) →
    Does (.holdTimeWrite m v) s fun t =>
      t.setting 0x1400 1 0xF = v % 256 ^ 2 ∧ GateOnly ⟨0x1400, 1, 0xF⟩ s t ∧ t.dies = s.dies) ∧
  (∀ (s : State) (m : MasterId) (v : Nat), GateTakes m ⟨0x1400, 1, 0xF⟩ (leBytes 2 v) s → s.tray.hold.onHoldup = true →
    s.tray.hold.holdAt + 1000000000 * (v % 256 ^ 2) ≤ s.atTick.accNow → (∃ d, (s.die d).til.ownedGranules ≠ []) →
    Does (.holdTimeWrite m v) s fun t =>
      t.setting 0x1400 1 0xF = v % 256 ^ 2 ∧ t.tray.hold.saving = true ∧ t.dies = s.dies)

/-- The effective tray cap of the averages over the last ten measurements is in force at once when it is no higher, a fall
with new shares for every die (R129), and waits otherwise (R31). The lookahead reaches as many µs ahead as 0x2000:07 says
(R95): a segment within it whose start raises the die's current, with no phase entry, gives the lead of 5 mV for each started
56 A, at most 30 mV (R96); farther ahead it does nothing. A segment's end moves the mean of its phase entry by an eighth, its
99th percentile up at once or down by a 64th, and its margin by R100, from the power measured over it, scaled to F0 in lean
margin; the governor's tick applies R120 to every context that the estimator measured, within 1 and the segment's rate. The
demand curve is that of the state at 512 µs; shares correct ε, name the lowest step whose demand fits, and wait; shares after
650 µs are not taken, and a die without shares by then keeps its share (R123 to R127); while the tray controller hands off or
restarts it sends none (R578, R611). The proposal of a sealed die is its base proposal; the float exceeded, or a lowering
carried over, lowers the base proposal of another die by one step in R124's own value (Table 05.5, R143, R144). Quotients are
rounded down (log 7). -/
def Obligations.LevelingCycle : Prop :=
  (∀ (s : State) (busMv : Nat) (inlet : Int), Does (.effectiveTrayCapUpdate busMv inlet) s fun t =>
    t.tray.pow.busSamples = (busMv :: s.tray.pow.busSamples).take 10 ∧
    t.tray.pow.inletSamples = (inlet :: s.tray.pow.inletSamples).take 10 ∧
    t.tray.pow.busMv = t.tray.pow.busSamples.sum / t.tray.pow.busSamples.length ∧
    t.tray.pow.inletT = t.tray.pow.inletSamples.sum / t.tray.pow.inletSamples.length ∧
    (t.capNow ≤ s.tray.pow.effCap → t.tray.pow.effCap = t.capNow ∧ t.tray.pow.effCapNext = none) ∧
    (s.tray.pow.effCap < t.capNow → t.tray.pow.effCap = s.tray.pow.effCap ∧ t.tray.pow.effCapNext = some t.capNow) ∧
    (s.tray.pow.effCap ≤ t.capNow → t.dies = s.dies) ∧
    (t.capNow < s.tray.pow.effCap → ∀ d, (t.die d).pow.share =
      (State.sharesBy { s with tray := t.tray } fun d => (s.die d).clk.curStep).getD d.val 0) ∧
    t = { s with dies := t.dies, tray := { s.tray with pow := t.tray.pow } }) ∧
  (∀ (s : State) (d : DieId) (t h seg di : Nat) (r : Run) (g : Segment),
    ((s.die d).til.runs.find? fun r => r.tenant == t && r.handle == h) = some r → r.plan.segs[seg]? = some g →
    (s.die d).dieMa d (some (r, seg)) = (s.die d).dieMa d none + di → 0 < di → r.clock ≤ g.start →
    g.start ≤ r.clock + s.dset d 0x2000 7 * 100 * stepN (s.die d).clk.curStep →
    (s.die d).pow.entry t r.plan.hash g.phase = none → Does (.segmentLookahead d t h seg) s fun u =>
      (u.die d).op.lead =
        (if (s.die d).op.wide then 0 else max (s.die d).op.lead (min 120 (ceilDiv di 56000 * 20))) ∧
      (u.die d).op.leadOwed = (s.die d).op.leadOwed ++ [(t, h, seg, min 120 (ceilDiv di 56000 * 20))] ∧
      (u.die d).til = (s.die d).til ∧ DieOnly d s u) ∧
  (∀ (s : State) (d : DieId) (t h seg : Nat) (r : Run) (g : Segment),
    ((s.die d).til.runs.find? fun r => r.tenant == t && r.handle == h) = some r → r.plan.segs[seg]? = some g →
    r.clock + s.dset d 0x2000 7 * 100 * stepN (s.die d).clk.curStep < g.start →
    Does (.segmentLookahead d t h seg) s fun u => u = s) ∧
  (∀ (s : State) (d : DieId) (t h seg mean p99 : Nat) (watts : List Nat) (tripped : Bool) (r : Run) (g : Segment)
    (e : PhaseEntry),
    ((s.die d).til.runs.find? fun r => r.tenant == t && r.handle == h) = some r → r.plan.segs[seg]? = some g →
    (s.die d).pow.entry t r.plan.hash g.phase = some e → watts ≠ [] →
    mean = (watts.map ((s.die d).toF0 d)).sum / watts.length → p99 = percentile99 (watts.map ((s.die d).toF0 d)) →
    tripped = (s.die d).droop.attributed.contains (t, h, seg) →
    Does (.segmentEnd d t h seg watts) s fun u =>
      (∃ n, (u.die d).pow.entry t r.plan.hash g.phase = some n ∧ n.mean = (7 * e.mean + mean) / 8 ∧
        n.p99 = (if e.p99 < p99 then p99 else e.p99 - (e.p99 - p99) / 64) ∧
        (tripped = true → n.margin = min 30 (e.margin + 5) ∧ n.clean = 0) ∧
        (tripped = false → e.clean < 15 → n.margin = e.margin ∧ n.clean = e.clean + 1) ∧
        (tripped = false → e.clean = 15 → n.margin = e.margin - 1 ∧ n.clean = 0)) ∧
      (u.die d).droop.attributed.contains (t, h, seg) = false ∧
      (u.die d).pow.phaseHits = (s.die d).pow.phaseHits + 1 ∧ (u.die d).til.sram = (s.die d).til.sram ∧ DieOnly d s u) ∧
  (∀ (s : State) (d : DieId) (est : List RateSample), Does (.rateControlTick d est) s fun u =>
    (∀ r ∈ (s.die d).til.runs, ∀ e, (est.find? fun e => e.t == r.tenant && e.h == r.handle) = some e →
      r.rateTick (s.die d) (epochNs - s.inEpoch d) ((s.die d).uplifted e.estMw) ((s.die d).uplifted e.avg50)
        ((s.die d).uplifted e.avg2) ∈ (u.die d).til.runs) ∧
    (u.die d).til.sram = (s.die d).til.sram ∧ (u.die d).til.runs.length = (s.die d).til.runs.length ∧ DieActs d s u) ∧
  (∀ (r : Run) (x : Die) (rem est avg50 avg2 : Nat),
    1 ≤ (r.rateTick x rem est avg50 avg2).rate ∧
    (r.rateTick x rem est avg50 avg2).rate ≤ max 1 (r.rate + 1) ∧
    (r.rateTick x rem est avg50 avg2).rate ≤ max 1 ((r.plan.segs[r.seg]?.map Segment.rate).getD 16)) ∧
  (∀ (s : State) (d : DieId), Does (.demandCurveSend d) s fun t =>
    (t.die d).pow.demand = (List.range 16).map (fun st => ((s.advanceIn d 512000).demandAt d st).1) ∧
    (t.die d).pow.demand99 = (List.range 16).map (fun st => ((s.advanceIn d 512000).demandAt d st).2) ∧
    (t.die d).til = (s.die d).til ∧ DieNoted d s t) ∧
  (∀ (s : State) (loads bus : Nat), s.tray.fw.handoff = true ∨ s.tray.fw.restarting = true →
    Does (.sharesSend loads bus) s fun t => t = s) ∧
  (∀ (s : State) (loads bus : Nat), s.tray.fw.handoff = false → s.tray.fw.restarting = false →
    650000 < (s.advanceIn s.timeDie 600000).inEpoch s.timeDie → Does (.sharesSend loads bus) s fun t =>
      t.dies = s.dies ∧ TrayOnly s t) ∧
  (∀ (s : State) (loads bus : Nat), s.tray.fw.handoff = false → s.tray.fw.restarting = false →
    (s.advanceIn s.timeDie 600000).inEpoch s.timeDie ≤ 650000 → Does (.sharesSend loads bus) s fun t =>
    t.tray.pow.loadsPower = loads ∧ t.tray.pow.busPower = bus ∧ t.tray.pow.sharesLate = false ∧
    t.tray.pow.epsilon = ((s.tray.pow.epsilon : Int) + ((bus : Int) - s.tray.pow.effCap) * 92 / 200).toNat ∧
    (t.tray.pow.trayStep < 15 → s.trayDemand t.tray.pow.trayStep ≤ t.tray.pow.railBudget) ∧
    (∀ st, st < t.tray.pow.trayStep → t.tray.pow.railBudget < s.trayDemand st) ∧
    ∀ d, (t.die d).pow.trayStep = t.tray.pow.trayStep ∧ (t.die d).pow.shareNext.isSome = true ∧
      (t.die d).pow.share = (s.die d).pow.share ∧ (t.die d).til = (s.die d).til) ∧
  (∀ (s : State), (∀ d, (s.die d).pow.shareNext.isSome = true) → Does .sharesLate s fun t => t = s) ∧
  (∀ (s : State) (e : DieId), (s.die e).pow.shareNext = none → Does .sharesLate s fun t =>
    t.tray.pow = { s.tray.pow with sharesLate := true } ∧
    (∀ d, (s.die d).pow.shareNext = none → t.die d = { s.die d with pow := { (s.die d).pow with sharesLate := true } }) ∧
    ∀ d, (s.die d).pow.shareNext.isSome = true → t.die d = s.die d) ∧
  (∀ (s : State) (d : DieId), (s.die d).mer.member = true → (s.die d).svc.holding = none →
    (s.die d).svc.noProposal = false → (s.die d).mer.leaving = false → (s.die d).frost.state = .running →
    (s.die d).pow.sealed = true → (s.die d).mer.proposal = none → Does (.proposalSend d) s fun t =>
      (t.die d).mer.proposal = some ((s.advanceIn d 700000).baseProposal d false) ∧ (t.die d).mer.repeatUrgent = none ∧
      (t.die d).til = (s.die d).til ∧ DieActs d s t) ∧
  (∀ (s : State) (d : DieId) (f : Nat), (s.die d).mer.member = true → (s.die d).svc.holding = none →
    (s.die d).svc.noProposal = false → (s.die d).mer.leaving = false → (s.die d).frost.state = .running →
    (s.die d).pow.sealed = false → (s.die d).mer.proposal = none → (s.die d).dieFloat = some f →
    (f * 700000 < (s.die d).floatUsed * 1048576 ∨ (s.die d).droop.lowerNext = true) → Does (.proposalSend d) s fun t =>
      (t.die d).mer.proposal = some ((s.advanceIn d 700000).baseProposal d true) ∧ (t.die d).droop.loweredThis = true ∧
      (t.die d).droop.noRaise = (s.die d).droop.noRaise ∧ (t.die d).droop.lowerNext = false ∧ DieActs d s t) ∧
  (∀ (s : State) (d : DieId), (s.die d).pow.sealed = false → min 15 (max (s.ownStep d) (s.die d).pow.trayStep + 1) ≤
    s.baseProposal d true)

/-! ### Droop (chapter 06) -/

/-- A detector trips when one of its taps lies below the trip level (R134) and it is not masked. A tripped cycle counts once,
and once per live detector, and prolongs the run; the edges stretch by the setting in force, which is debt unless an interlock
acts or the droop path only monitors (R138, R139, R141, R147, R148); in an open armed window the armed setting is in force and
the window's segment is attributed the trip (R140); a cycle without a trip ends the run. The armed window that closes first
is closed (R140). A delay line that stays tripped while VCORE lies within 10 mV of its target sets the detector's bit and is
reported; the failure of its second line masks the detector (R136, R137). A test that no detector fails goes on to the other
line. The test of a warm reset unmasks every detector that passes it (R137). Quotients are rounded down (log 7). -/
def Obligations.DroopDetectors : Prop :=
  (∀ (s : State) (d : DieId) (c : List (Nat × Nat)) (live : List Nat), (s.die d).detectorsOn = true →
    (s.die d).computes = true → live = ((s.die d).til.tripped (s.tripLevel d) c).filter (fun i => !(s.die d).droop.masked.getLsbD i) →
    live ≠ [] → (s.die d).droop.armed = [] → Does (.droopTrip d [c]) s fun t =>
      (t.die d).droop.trippedTotal = (s.die d).droop.trippedTotal + 1 ∧
      (t.die d).droop.runLen = (s.die d).droop.runLen + 1 ∧
      (t.die d).droop.longest = max (s.die d).droop.longest ((s.die d).droop.runLen + 1) ∧
      ((s.die d).droop.monitor = true ∨ (s.die d).stretchEmergency = true →
        (t.die d).droop.debtEpoch = (s.die d).droop.debtEpoch) ∧
      ((s.die d).droop.monitor = false → (s.die d).stretchEmergency = false →
        (t.die d).droop.debtEpoch = (s.die d).droop.debtEpoch +
          stretchOf (settingQuarters (s.dset d 0x2200 2)) ((s.die d).droop.runLen + 1) * (s.die d).quarterPeriod) ∧
      (∀ (i n : Nat), (s.die d).droop.trips[i]? = some n → (t.die d).droop.trips[i]? =
        some (if i ∈ live then n + 1 else n)) ∧
      (t.die d).til.sram = (s.die d).til.sram ∧ DieActs d s t) ∧
  (∀ (s : State) (d : DieId) (c : List (Nat × Nat)), (s.die d).detectorsOn = true → (s.die d).computes = true →
    (∀ i ∈ (s.die d).til.tripped (s.tripLevel d) c, (s.die d).droop.masked.getLsbD i = true) →
    Does (.droopTrip d [c]) s fun t =>
      (t.die d).droop.runLen = 0 ∧ (t.die d).droop.trippedTotal = (s.die d).droop.trippedTotal ∧
      (t.die d).droop.debtEpoch = (s.die d).droop.debtEpoch ∧ (t.die d).droop.trips = (s.die d).droop.trips ∧
      (t.die d).droop.attributed = (s.die d).droop.attributed ∧ (t.die d).til.sram = (s.die d).til.sram ∧ DieActs d s t) ∧
  (∀ (s : State) (d : DieId) (c : List (Nat × Nat)) (w : Armed) (k : Nat × Nat × Nat) (i : Nat), (s.die d).detectorsOn = true →
    (s.die d).computes = true → i ∈ (s.die d).til.tripped (s.tripLevel d) c → (s.die d).droop.masked.getLsbD i = false →
    (s.die d).droop.armed = [w] → w.openAt s.tray.now = true → w.seg = some k → (s.die d).droop.monitor = false →
    (s.die d).stretchEmergency = false → Does (.droopTrip d [c]) s fun t =>
      k ∈ (t.die d).droop.attributed ∧ (t.die d).droop.debtEpoch = (s.die d).droop.debtEpoch +
        stretchOf (settingQuarters (s.dset d 0x2200 3)) ((s.die d).droop.runLen + 1) * (s.die d).quarterPeriod) ∧
  (∀ (s : State) (d : DieId) (taps : List (List (Nat × Nat))), ((s.die d).detectorsOn = false ∨ (s.die d).computes = false) →
    Does (.droopTrip d taps) s fun t => t = s) ∧
  (∀ (s : State) (d : DieId) (w : Armed) (c : Ns), (s.die d).droop.armed = [w] → w.close = some c →
    Does (.armedWindowClose d) s fun t =>
      t.die d = { s.die d with droop := { (s.die d).droop with armed := [] } } ∧ c ≤ t.tray.now ∧ DieNoted d s t) ∧
  (∀ (s : State) (d : DieId) (det : Fin 64), (s.die d).detectorsOn = true →
    (((s.die d).rails.vcoreMeas : Int) - (s.die d).rails.target).natAbs ≤ 40 →
    (s.die d).droop.lineFailed.getLsbD det.val = false → Does (.detectorLineStuck d det) s fun t =>
      t.die d = { s.die d with droop := { (s.die d).droop with
        lineFailed := (s.die d).droop.lineFailed ||| BitVec.twoPow 64 det.val } } ∧
      Reported t s d.val 0x2201 [BitVec.ofNat 8 det.val] ∧ DieNoted d s t) ∧
  (∀ (s : State) (d : DieId) (det : Fin 64), 40 < (((s.die d).rails.vcoreMeas : Int) - (s.die d).rails.target).natAbs →
    Does (.detectorLineStuck d det) s fun t => t = s) ∧
  (∀ (s : State) (d : DieId) (det : Fin 64), (s.die d).detectorsOn = true →
    (((s.die d).rails.vcoreMeas : Int) - (s.die d).rails.target).natAbs ≤ 40 →
    (s.die d).droop.lineFailed.getLsbD det.val = true → (s.die d).droop.masked.getLsbD det.val = false →
    Does (.detectorLineStuck d det) s fun t =>
      (t.die d).droop.masked = (s.die d).droop.masked ||| BitVec.twoPow 64 det.val ∧
      (t.die d).droop.lineFailed = (s.die d).droop.lineFailed ∧
      Reported t s d.val 0x2202 [BitVec.ofNat 8 det.val] ∧ DieNoted d s t) ∧
  (∀ (s : State) (d : DieId), (s.die d).detectorsOn = true → (s.die d).svc.warm = false → Does (.detectorTest d 0) s fun t =>
      t.die d = { s.die d with droop := { (s.die d).droop with testLine := 1 - (s.die d).droop.testLine } } ∧
      DieOnly d s t) ∧
  (∀ (s : State) (d : DieId) (failed : Nat), (s.die d).detectorsOn = true → (s.die d).svc.warm = true →
    Does (.detectorTest d failed) s fun t =>
      (t.die d).droop.masked = (s.die d).droop.masked &&& BitVec.ofNat 64 failed ∧
      (t.die d).droop.lineFailed = BitVec.ofNat 64 failed ∧ (t.die d).til = (s.die d).til ∧ DieNoted d s t)

/-! ### Heat and coolant (chapter 07) -/

/-- A sample is recorded and moves the die maximum; at 120 °C every rail but VIO goes off, SRAM is lost, and the third
trip on record latches the die (R160, R171, R174). A rise of the thermal rate is one sixteenth per 50 µs (R161); the
groups publish their maxima, and an empty group 0x8000 (R158). Readings count in 1/16 °C. A tripped die comes back after
60 s below 70 °C; a latched one does not, nor one whose FLOW_LOSS is unreleased (R173, R14); the operator's command clears a latch and the record (R174). -/
def Obligations.SensorsAndTrips : Prop :=
  (∀ (s : State) (d : DieId) (n : Nat) (t : Int), n < 576 → (s.die d).rails.vio = true →
    Does (.thermalSample d n t) s fun u =>
      ((u.die d).heat.sensor n).last = some t ∧
      (∀ i, i ≠ n → (u.die d).heat.sensor i = (s.die d).heat.sensor i) ∧
      ((u.die d).heat.dieMax = (u.die d).heat.maximum)) ∧
  (∀ (s : State) (d : DieId) (n : Nat) (t : Int) (T : Int), n < 576 → (s.die d).rails.vio = true →
    (s.die d).rails.vcore = true → (((s.die d).heat.take n t s.tray.now (s.dset d 0x2300 5)).1.maximum = some T) → 1920 ≤ T →
    Does (.thermalSample d n t) s fun u =>
      (u.die d).rails.vcore = false ∧ (u.die d).rails.vsram = false ∧ (u.die d).rails.vana = false ∧
      (u.die d).rails.vhtr = false ∧ (u.die d).rails.vio = true ∧ (u.die d).til.sram = [] ∧
      (u.die d).heat.tripped = true ∧
      ((u.die d).svc.state = .tripped ∨ (u.die d).svc.state = .latched) ∧
      ((u.die d).heat.latched = true ↔ 3 ≤ (u.die d).heat.trips.length)) ∧
  (∀ (s : State) (d : DieId), (s.die d).heat.h < (s.die d).heat.hGoal → (s.die d).heat.h < 15 →
    Does (.thermalRateRise d) s fun u =>
      u.die d = { s.die d with heat := { (s.die d).heat with h := (s.die d).heat.h + 1, hRoseAt := u.tray.now } } ∧
      (s.die d).heat.hRoseAt + 50000 ≤ u.tray.now ∧ DieNoted d s u) ∧
  (∀ (s : State) (d : DieId), Does (.groupMaxPublish d) s fun u =>
    u.die d = { s.die d with heat := { (s.die d).heat with groupMax := (u.die d).heat.groupMax } } ∧
    (u.die d).heat.groupMax.length = 16 ∧
    (∀ k, k < 16 → (∀ p ∈ (s.die d).heat.sensors, s.dset d 0x2300 8 / 2 ^ (8 * p.1) % 256 ≠ k) →
      (u.die d).heat.groupMax.getD k 0 = 0x8000) ∧ DieOnly d s u) ∧
  (∀ (s : State) (d : DieId) (c : Ns), (s.die d).heat.latched = false → (s.die d).heat.flowLoss = .none →
    (s.die d).heat.tripped = true → (s.die d).heat.coolSince = some c → Does (.tripRestart d) s fun t =>
      (t.die d).heat.tripped = false ∧ (t.die d).svc.state = .starting ∧ (t.die d).svc.tripRestart = true ∧
      (t.die d).rails.vio = true ∧ (t.die d).rails.vcore = true ∧ (t.die d).rails.vsram = true ∧
      c + 60000000000 ≤ t.tray.now ∧ DieNoted d s t) ∧
  (∀ (s : State) (d : DieId), ((s.die d).heat.latched = true ∨ (s.die d).heat.flowLoss ≠ .none) →
    Does (.tripRestart d) s fun t => t = s) ∧
  (∀ (s : State) (m : MasterId) (d : DieId) (v : Nat), GateTakes m ⟨0x2300, 0xD, d.val⟩ (leBytes 1 v) s →
    (s.die d).heat.latched = true → Does (.clearTripLatch m d v) s fun t =>
      t.die d = { s.die d with
        heat := { (s.die d).heat with latched := false, trips := [], tripped := true }
        svc := { (s.die d).svc with state := .tripped } } ∧
      GateOnly ⟨0x2300, 0xD, d.val⟩ s t ∧ ∀ e, e ≠ d → t.die e = s.die e)

/-- A surge ends no sooner than 1 ms after its last sample (R169); one that lasts 5 ms asserts FLOW_LOSS on its die
(R170). FLOW_LOSS halts the die with its SRAM in retention and VCORE off (R177), a die's own is released when flow is good
and the die maximum has lain below the near band for 1 s (R180), and after 30 s the rails go off (R181). Flow below
20 % of the tray nominal flow (40 % of a loop's) in 200 consecutive samples of 1 ms is the loss of the loop, which counts and
is reported; one sample above starts the count anew (R176); the valves open fully while a loop is lost (R179) and move towards the hotter loop
otherwise; the coolant update raises an alarm with its condition (R182). -/
def Obligations.SurgeAndCoolant : Prop :=
  (∀ (s : State) (d : DieId), (s.die d).heat.surgeAt.isSome = true → Does (.heatSurgeEnd d) s fun t =>
    (t.die d).heat.surgeAt = none ∧ (s.die d).heat.surgeLast + 1000000 ≤ t.tray.now ∧
    (t.die d).til = (s.die d).til ∧ ∀ e, e ≠ d → t.die e = s.die e) ∧
  (∀ (s : State) (d : DieId) (a : Ns), (s.die d).heat.surgeAt = some a → (s.die d).heat.flowLoss = .none →
    (s.die d).rails.vsram = true → (s.die d).svc.state = .running → Does (.surgeTimeout d) s fun t =>
      (t.die d).heat.flowLoss = .local ∧ (t.die d).heat.surgeAt = none ∧ (t.die d).rails.vcore = false ∧
      (t.die d).rails.retention = true ∧ (t.die d).svc.state = .flowHalt ∧ a + 5000000 ≤ t.tray.now) ∧
  (∀ (s : State) (d : DieId), (if loopB d then s.tray.cool.lostB else s.tray.cool.lostA) = true →
    (s.die d).heat.flowLoss = .none → (s.die d).rails.vsram = true → (s.die d).svc.state = .running →
    Does (.flowLossAssert d) s fun t =>
      (t.die d).heat.flowLoss = .loop ∧ (t.die d).heat.flowLossAt = s.tray.now ∧ (t.die d).rails.vcore = false ∧
      (t.die d).rails.retention = true ∧ (t.die d).svc.state = .flowHalt) ∧
  (∀ (s : State) (d : DieId), (s.die d).heat.flowLoss ≠ .none → (s.die d).heat.flowOff = false →
    (s.die d).heat.latched = false → (s.die d).heat.tripped = false → Does (.flowLossPowerOff d) s fun t =>
      (t.die d).heat.flowOff = true ∧ (t.die d).svc.state = .off ∧ (t.die d).rails.vio = false ∧
      (t.die d).rails.vsram = false ∧ (t.die d).rails.vcore = false ∧ (t.die d).til.sram = [] ∧
      (s.die d).heat.flowLossAt + 30000000000 ≤ t.tray.now) ∧
  (∀ (s : State) (d : DieId) (b : Ns), (s.die d).heat.flowLoss = .local → (s.die d).heat.flowOff = false →
    (s.die d).svc.state = .flowHalt → (s.die d).heat.wasFrozen = false →
    (if loopB d then s.tray.cool.goodB else s.tray.cool.goodA).isSome = true → (s.die d).heat.bandSince = some b →
    (s.die d).nearBand (s.dset d 0x2300 1) (s.dset d 0x2300 4) = false → (s.die d).op.alertHalt = false →
    (s.die d).clk.refsLostHalt = false → Does (.flowLossRelease d) s fun t =>
      (t.die d).heat.flowLoss = .none ∧ (t.die d).rails.retention = false ∧ (t.die d).rails.vcore = true ∧
      (t.die d).svc.state = .running ∧ (t.die d).til.sram = (s.die d).til.sram ∧ b + 1000000000 ≤ t.tray.now) ∧
  (∀ (s : State) (flows : List Nat), s.tray.cool.lostA = false → s.tray.cool.sensorFailA = false →
    (∀ f ∈ flows, f * 5 < s.setting 0x1300 1 0xF) → 0 < flows.length → Does (.loopLossDeclare false flows) s fun t =>
    t.tray.now = s.tray.now + 1000000 * flows.length ∧ t.tray.cool.lowA = s.tray.cool.lowA + flows.length ∧
    t.tray.cool.lostB = s.tray.cool.lostB ∧ TrayOnly s t ∧
    (s.tray.cool.lowA + flows.length < 200 → t.tray.cool.lostA = false ∧ t.tray.cool.losses = s.tray.cool.losses) ∧
    (200 ≤ s.tray.cool.lowA + flows.length → t.tray.cool.lostA = true ∧
      t.tray.cool.losses = satAdd 32 s.tray.cool.losses 1 ∧ t.tray.cool.alarms = s.tray.cool.alarms ||| 1#16 ∧
      Reported t s 0xF 0x1301 (leBytes 2 (s.tray.cool.alarms ||| 1#16).toNat))) ∧
  (∀ (s : State) (flows : List Nat), s.tray.cool.lostB = false → s.tray.cool.sensorFailB = false →
    (∀ f ∈ flows, f * 5 < s.setting 0x1300 1 0xF) → 0 < flows.length → Does (.loopLossDeclare true flows) s fun t =>
    t.tray.cool.lowB = s.tray.cool.lowB + flows.length ∧ t.tray.cool.lostA = s.tray.cool.lostA ∧ TrayOnly s t ∧
    (s.tray.cool.lowB + flows.length < 200 → t.tray.cool.lostB = false) ∧
    (200 ≤ s.tray.cool.lowB + flows.length → t.tray.cool.lostB = true ∧
      t.tray.cool.alarms = s.tray.cool.alarms ||| 2#16)) ∧
  (∀ (s : State) (b : Bool) (f : Nat), s.setting 0x1300 1 0xF ≤ f * 5 → Does (.loopLossDeclare b [f]) s fun t =>
    (if b then t.tray.cool.lowB else t.tray.cool.lowA) = 0 ∧ t.tray.cool.lostA = s.tray.cool.lostA ∧
    t.tray.cool.lostB = s.tray.cool.lostB ∧ TrayOnly s t) ∧
  (∀ (s : State), (s.tray.cool.lostA = true ∨ s.tray.cool.lostB = true) → Does .valveTrim s fun t =>
    t = { s with tray := { s.tray with cool := { s.tray.cool with valveA := 100, valveB := 100 } } }) ∧
  (∀ (s : State) (a b : Int), s.tray.cool.lostA = false → s.tray.cool.lostB = false → s.loopMean false = some a →
    s.loopMean true = some b → 128 < a - b → Does .valveTrim s fun t =>
      t = { s with tray := { s.tray with cool := { s.tray.cool with
        valveA := min 100 (s.tray.cool.valveA + 1), valveB := max 70 (s.tray.cool.valveB - 1) } } }) ∧
  (∀ (s : State) (inlet : Int) (fa fb : Nat) (stuckA stuckB : Bool), Does (.coolantAlarmUpdate inlet fa fb stuckA stuckB) s
    fun t =>
      t.tray.cool.inlet = inlet ∧ t.tray.cool.flowA = fa ∧ t.tray.cool.flowB = fb ∧
      (640 < inlet → inlet ≤ 720 → t.tray.cool.alarms.getLsbD 3 = true) ∧
      (720 < inlet → t.tray.cool.alarms.getLsbD 4 = true) ∧ (inlet < 240 → t.tray.cool.alarms.getLsbD 5 = true) ∧
      (fa + fb < 100 → t.tray.cool.alarms.getLsbD 2 = true) ∧
      t.tray.cool.lostA = s.tray.cool.lostA ∧ t.tray.cool.lostB = s.tray.cool.lostB ∧
      t = { s with dies := t.dies, tray := t.tray } ∧ (t.tray.pow.effCap = s.tray.pow.effCap → TrayOnly s t))

/-! ### Meridian (chapter 08) -/

/-- A die that is no member takes no proposal; the root hears a member's proposal of its epoch by 768 µs and keeps its
code (R190). An unacknowledged record goes one level further up after 8 µs (R188). The result is the highest step code
among the proposals, ignoring 0x10; a member whose proposal has not reached the root counts as proposing the group step,
so does a group of which every member proposed 0x10, and the result is never lower than the group step minus 1 (R191).
Forming it closes the root's epoch and counts the members not heard; the standby root takes over when no result reached it, and
is no root before the epoch boundary (R194, R187). A result of another group is ignored, and a member ignores one of another
epoch; a die that is no member notes that its group lives (R205). That of the die's own epoch is kept. -/
def Obligations.ProposalsAndResults : Prop :=
  (∀ (s : State) (d : DieId) (src epoch code heard : Nat) (urgent revised : Bool), (s.die d).mer.member = false →
    Does (.proposalReceive d src epoch code urgent revised heard) s fun t => t = s) ∧
  (∀ (s : State) (d : DieId) (src code heard : Nat) (urgent revised : Bool), (s.die d).mer.member = true →
    src ∈ (s.die d).mer.members.map Member.id → (s.die d).mer.root = true → (s.die d).mer.closed = false →
    s.inEpoch d ≤ 768000 → Does (.proposalReceive d src (s.epoch d) code urgent revised heard) s fun t =>
      src ∈ (t.die d).mer.heard ∧ (t.die d).til = (s.die d).til ∧ (t.die d).mer.members.map Member.id =
        (s.die d).mer.members.map Member.id ∧
      (∀ e ∈ (s.die d).mer.members, e.id = src → e.code = none →
        ∃ f ∈ (t.die d).mer.members, f.id = src ∧ f.code = some code) ∧ DieActs d s t) ∧
  (∀ (s : State) (d : DieId) (u : Sent), (s.die d).mer.unacked = [u] →
    aggregator (s.die d).mer.tree (s.identity d) (min 4 (u.level + 1)) ≠ s.identity d → Does (.recordAckTimeout d u.no) s fun t =>
    (t.die d).mer.unacked = [{ u with level := min 4 (u.level + 1), sentAt := t.tray.now }] ∧
    u.sentAt + 8000 ≤ t.tray.now ∧ (t.die d).til = (s.die d).til ∧ DieActs d s t) ∧
  (∀ (ms : List Member) (g : Nat),
    g - 1 ≤ formStep ms g ∧
    (∀ e ∈ ms, ∀ c, e.code = some c → c ≠ 0x10 → c ≤ formStep ms g) ∧
    ((∃ e ∈ ms, e.code = none) → g ≤ formStep ms g) ∧
    ((∀ e ∈ ms, e.code = some 0x10) → formStep ms g = g) ∧
    (∀ m, (∃ e ∈ ms, e.code ≠ some 0x10 ∧ e.code.getD g = m) →
      (∀ e ∈ ms, e.code ≠ some 0x10 → e.code.getD g ≤ m) → formStep ms g = max m (g - 1))) ∧
  (∀ (s : State) (d : DieId), (s.die d).mer.root = true → (s.die d).mer.closed = false → Does (.resultForm d) s fun t =>
    (t.die d).mer.closed = true ∧ (t.die d).mer.root = true ∧
    (t.die d).mer.members = (s.die d).mer.closing ∧
    (∃ r, (t.die d).mer.result = some r ∧ r.group = s.groupNo d ∧
      r.step = formStep (s.die d).mer.closing (s.die d).mer.groupStep) ∧
    t.tray.now = s.tray.now + (768000 - s.inEpoch d) ∧ (t.die d).til = (s.die d).til ∧ DieActs d s t) ∧
  (∀ (s : State) (d : DieId), (s.die d).mer.member = true → (s.die d).mer.root = false → (s.die d).mer.result = none →
    standbyId (s.die d).mer.tree = some (s.identity d) → Does (.standbyRootTakeover d) s fun t =>
      (t.die d).mer.root = false ∧ (t.die d).mer.standbyRoot = true ∧ (t.die d).mer.closed = true ∧
      (t.die d).til = (s.die d).til ∧ DieActs d s t) ∧
  (∀ (m : Meridian) (e : Member), e ∈ m.members → some e.id ≠ m.failedRoot → e.id ∉ m.leaves →
    { e with missed := if e.code.isNone then e.missed + 1 else 0 } ∈ m.closing) ∧
  (∀ (s : State) (d : DieId) (src : Nat) (r : MResult), (r.group ≠ s.groupNo d ∨
    (r.epoch ≠ s.epoch d ∧ (s.die d).mer.member = true)) → Does (.resultReceive d src r) s fun t => t = s) ∧
  (∀ (s : State) (d : DieId) (src : Nat) (r : MResult), r.group = s.groupNo d → r.epoch ≠ s.epoch d →
    (s.die d).mer.member = false → Does (.resultReceive d src r) s fun t =>
      t.die d = { s.die d with mer := { (s.die d).mer with heardResult := true } } ∧ DieOnly d s t) ∧
  (∀ (s : State) (d : DieId) (src : Nat) (r : MResult), r.group = s.groupNo d → r.epoch = s.epoch d →
    (s.die d).mer.member = true → childrenOf (s.die d).mer (s.identity d) = [] → (s.die d).mer.result = none →
    Does (.resultReceive d src r) s fun t =>
      (t.die d).mer.result = some { r with more := false } ∧ (t.die d).mer.resultFrom = src ∧
      (t.die d).til = (s.die d).til ∧ DieActs d s t)

/-- Leaving: from its LEAVE on, a member proposes no constraint, and the root keeps the leave for its next result (R200);
a write of the group number or identity makes the die leave with the old ones in force until then (R186). Joining: a die
with a port to a member joins, in this epoch when its time is valid and no more than 736 µs have passed (R203); the root
keeps a valid JOIN for its result, and after 4 epochs alone a die becomes a root at F15 with itself as the only member
(R205). A root that meets a lower root of its group leaves with its members (R205). -/
def Obligations.LeaveAndJoin : Prop :=
  (∀ (s : State) (d : DieId) (cause : Nat), cause ≠ 6 → (s.die d).mer.member = true → (s.die d).mer.leaving = false →
    Does (.leaveSend d cause) s fun t =>
      (t.die d).mer.leaving = true ∧ (t.die d).mer.proposal = some 0x10 ∧ (t.die d).mer.member = true ∧
      ((s.die d).mer.root = true → s.identity d ∈ (t.die d).mer.leaves) ∧
      (t.die d).til = (s.die d).til ∧ DieActs d s t) ∧
  (∀ (s : State) (d : DieId) (id : Nat), (s.die d).mer.member = true → (s.die d).mer.root = true →
    Does (.leaveReceive d id) s fun t =>
      id ∈ (t.die d).mer.leaves ∧ (t.die d).til = (s.die d).til ∧ DieActs d s t) ∧
  (∀ (s : State) (m : MasterId) (d : DieId) (v : Nat), GateTakes m ⟨0x2500, 0xE, d.val⟩ (leBytes 1 v) s →
    (s.die d).mer.member = true → (s.die d).mer.leaving = false → Does (.leaveGroup m d v) s fun t =>
      (t.die d).mer.leaving = true ∧ (t.die d).mer.proposal = some 0x10 ∧ (t.die d).mer.member = true ∧
      ∀ e, e ≠ d → t.die e = s.die e) ∧
  (∀ (s : State) (m : MasterId) (d : DieId) (sub v : Nat), sub = 1 ∨ sub = 2 →
    GateTakes m ⟨0x2500, sub, d.val⟩ (leBytes 2 v) s → (s.die d).mer.member = true → (s.die d).mer.leaving = false →
    Does (.groupIdentityWrite m d sub v) s fun t =>
      t.setting 0x2500 sub d.val = v % 256 ^ 2 ∧ (t.die d).mer.leaving = true ∧
      t.groupNo d = s.groupNo d ∧ t.identity d = s.identity d ∧ ∀ e, e ≠ d → t.die e = s.die e) ∧
  (∀ (s : State) (d : DieId) (p : Nat), s.joinPort d = some p → (s.die d).mayJoin = true →
    (s.die d).mer.joinEpoch ≠ some (s.epoch d) → Does (.joinSend d) s fun t =>
    (t.die d).mer.joining = true ∧ (t.die d).mer.joinEpoch = some (s.epoch d) ∧
    (t.die d).mer.joinSent =
      (if (s.die d).clk.timeValid = true ∧ s.inEpoch d ≤ 736000 then some (s.epoch d) else none) ∧
    (t.die d).til = (s.die d).til ∧ DieActs d s t) ∧
  (∀ (s : State) (d : DieId), (s.die d).mer.joinEpoch = some (s.epoch d) → Does (.joinSend d) s fun t => t = s) ∧
  (∀ (s : State) (d : DieId) (id : Nat) (valid : Bool), (s.die d).mer.member = true → (s.die d).mer.root = true →
    (s.die d).mer.closed = false → s.inEpoch d ≤ 768000 → id ∉ (s.die d).mer.members.map Member.id →
    id ∉ (s.die d).mer.joins → Does (.joinReceive d id valid) s fun t =>
      (t.die d).mer.joins = (s.die d).mer.joins ++ (if valid then [id] else []) ∧
      (t.die d).til = (s.die d).til ∧ DieActs d s t) ∧
  (∀ (s : State) (d : DieId), (s.die d).mayJoin = true → 4 ≤ (s.die d).mer.soloEpochs → Does (.selfRoot d) s fun t =>
    (t.die d).mer.member = true ∧ (t.die d).mer.root = true ∧ (t.die d).mer.groupStep = 15 ∧
    (t.die d).mer.members = [⟨s.identity d, none, 0⟩] ∧ (t.die d).clk.timeValid = true ∧
    (t.die d).til = (s.die d).til ∧ DieOnly d s t) ∧
  (∀ (s : State) (d : DieId) (root : Nat), (s.die d).mer.root = true → root < s.identity d →
    (s.die d).mer.merging = false → Does (.rootMerge d root) s fun t =>
      t.die d = { s.die d with mer := { (s.die d).mer with
        merging := true, leaves := (s.die d).mer.members.map Member.id, joins := [] } } ∧ DieOnly d s t) ∧
  (∀ (s : State) (d : DieId) (root : Nat), (s.die d).mer.root = true → s.identity d ≤ root →
    Does (.rootMerge d root) s fun t => t = s)

/-- A lender grants what was asked, up to its spare, and its budget falls by the grant (R206, R207); a borrower's budget rises
by at most the grant and never above the least of P_g and 1,300 W (R208); a commit settles a loan, and a release gives an
uncommitted one back. -/
def Obligations.Lending : Prop :=
  (∀ (s : State) (d src : DieId) (amount epoch : Nat), (s.lends d = false ∨ epoch ≠ s.epoch d) →
    (s.die d).mer.lendWait = [] → Does (.lend d src amount epoch) s fun t =>
      (t.die d).mer.lent = (s.die d).mer.lent ∧ (t.die d).pow = (s.die d).pow ∧ DieActs d s t) ∧
  (∀ (s : State) (d src : DieId) (amount : Nat), s.lends d = true → (s.die d).mer.lendOpen = none →
    (s.die d).mer.lendWait = [] → 0 < min amount (s.die d).spareMw → Does (.lend d src amount (s.epoch d)) s fun t =>
      (t.die d).mer.lent = (s.die d).mer.lent ++ [⟨src.val, min amount (s.die d).spareMw, false⟩] ∧
      (t.die d).pow.budget = (s.die d).pow.budget - min amount (s.die d).spareMw ∧
      (t.die d).til.sram = (s.die d).til.sram ∧ DieActs d s t) ∧
  (∀ (s : State) (d src : DieId) (amount want : Nat) (at_ : Ns), (s.die d).mer.lendOpen = some (src.val, want, at_) →
    s.tray.now ≤ at_ + 10000 → Does (.grant d src amount (s.epoch d)) s fun t =>
      (t.die d).pow.budget = (s.die d).pow.budget +
        min amount (min (s.die d).pow.pg 1300000 - (s.die d).pow.budget) ∧
      (t.die d).mer.borrowed = (s.die d).mer.borrowed +
        min amount (min (s.die d).pow.pg 1300000 - (s.die d).pow.budget) ∧
      (t.die d).til.sram = (s.die d).til.sram ∧ DieActs d s t) ∧
  (∀ (s : State) (d src : DieId) (amount : Nat), Does (.commit d src amount (s.epoch d)) s fun t =>
    t.die d = { s.die d with mer := { (s.die d).mer with lent := (s.die d).mer.lent.map fun l =>
      if l.die = src.val ∧ l.amount = amount then { l with committed := true } else l } } ∧ DieOnly d s t) ∧
  (∀ (s : State) (d src : DieId) (amount : Nat), ⟨src.val, amount, false⟩ ∈ (s.die d).mer.lent →
    Does (.release d src amount (s.epoch d)) s fun t =>
      ⟨src.val, amount, false⟩ ∉ (t.die d).mer.lent ∧ (t.die d).pow.budget = (s.die d).pow.budget + amount ∧
      (t.die d).til.sram = (s.die d).til.sram ∧ DieOnly d s t)

/-! ### Energy (chapter 09) -/

/-- Every 10 µs, 1 ms without VCORE, the measured energy of the five rails is added, in units of 1 fJ / 10,240,000 (R211, R224); a used benchmark updates
c_7 and c_L and starts the fresh time anew (R218, R220); the uplift and the confidence follow R220; the stored set of R223
is each die's coefficients. -/
def Obligations.EnergyEstimator : Prop :=
  (∀ (s : State) (d : DieId) (r : EnergySample), (s.die d).rails.vcore = true → Does (.energyInterval d r) s fun t =>
    (t.die d).nrg.measured = (s.die d).nrg.measured + r.mv * r.ma * 10000 * 10240000 / 4 +
      energyOf (r.vsram + r.vana + r.vhtr + r.vio) 10000 ∧
    (t.die d).nrg.sinceBench = (s.die d).nrg.sinceBench + 10000 ∧
    (s.die d).nrg.intervalFrom + 10000 ≤ t.tray.now ∧
    (s.die d).nrg.attributed ≤ (t.die d).nrg.attributed ∧ (s.die d).nrg.unattributed ≤ (t.die d).nrg.unattributed ∧
    (t.die d).til = (s.die d).til ∧ ∀ e, e ≠ d → t.die e = s.die e) ∧
  (∀ (s : State) (d : DieId) (r : EnergySample), (s.die d).rails.vcore = false → Does (.energyInterval d r) s fun t =>
    (t.die d).nrg.sinceBench = (s.die d).nrg.sinceBench ∧ (s.die d).nrg.intervalFrom + 1000000 ≤ t.tray.now ∧
    (t.die d).til = (s.die d).til ∧ ∀ e, e ≠ d → t.die e = s.die e) ∧
  (∀ (s : State) (d : DieId) (t h : Nat) (r : Run) (g : Segment),
    ((s.die d).til.runs.find? fun r => r.tenant == t && r.handle == h) = some r → r.plan.segs[r.seg]? = some g →
    g.bench = true → Does (.benchmarkStart d t h) s fun u =>
      u.die d = { s.die d with nrg := { (s.die d).nrg with bench := (u.die d).nrg.bench } } ∧
      (u.die d).nrg.bench = ((s.die d).nrg.bench.filter fun b => !(b.t == t && b.h == h)) ++
        [⟨t, h, (List.range (r.plan.w / 2)).filter (fun j => g.classes.getD j 0 == 0), s.tray.now,
          (s.die d).emergencyCause || decide ((s.die d).heat.h < 16)⟩] ∧ DieOnly d s u) ∧
  (∀ (s : State) (d : DieId) (t h c7 cl : Nat) (b : Bench), (s.die d).nrg.bench = [b] → b.t = t → b.h = h → b.spoilt = true →
    Does (.benchmarkEnd d t h c7 cl) s fun u => (u.die d).nrg = { (s.die d).nrg with bench := [] } ∧ b.from_ ≤ u.tray.now ∧
      DieNoted d s u) ∧
  (∀ (n : Energy) (d : DieId) (c7 cl : Nat), (n.use d c7 cl).uplift = 0 ∧ (n.use d c7 cl).confidence = 1000 ∧
    (n.use d c7 cl).sinceBench = 0 ∧ (n.use d c7 cl).frozen = false ∧
    (n.use d c7 cl).coeff = (coeffsOf d n.coeff).take 7 ++ [c7, cl] ∧
    (n.use d c7 cl).benchTotal = satAdd 32 n.benchTotal 1) ∧
  (∀ (s : State) (d : DieId) (t h c7 cl : Nat) (b : Bench), (s.die d).nrg.bench = [b] → b.t = t → b.h = h →
    b.spoilt = false → ceilDiv b.from_ 10000 < s.tray.now / 10000 →
    (s.die d).nrg.benchUsed = false → (s.die d).emergencyCause = false → 16 ≤ (s.die d).heat.h →
    (s.die d).svc.holding = none → Does (.benchmarkEnd d t h c7 cl) s fun u =>
      u.die d = { s.die d with nrg := { (s.die d).nrg with bench := [] }.use d c7 cl } ∧ DieNoted d s u) ∧
  (∀ (s : State) (d : DieId), (s.die d).nrg.sinceBench ≤ 10000000000 → Does (.upliftRecompute d) s fun t =>
    t.die d = { s.die d with nrg := { (s.die d).nrg with frozen := false, uplift := 0, confidence := 1000 } } ∧
    DieOnly d s t) ∧
  (∀ (s : State) (d : DieId), 10000000000 < (s.die d).nrg.sinceBench → Does (.upliftRecompute d) s fun t =>
    (t.die d).nrg.frozen = true ∧ (t.die d).nrg.uplift ≤ 800 ∧
    (t.die d).nrg.uplift = min 800 (((s.die d).nrg.sinceBench - 10000000000) / 36000000000) ∧
    (t.die d).nrg.confidence ≤ 1000 ∧ DieOnly d s t) ∧
  (∀ (s : State), Does .coeffStore s fun t =>
    ∀ d, t.die d = { s.die d with nrg := { (s.die d).nrg with stored := some (s.die d).nrg.coeff } } ∧
    t = { s with dies := t.dies })

/-! ### Heat maps (chapter 10), and the selector of chapter 14 -/

/-- A survey starts when commanded or when its interval elapses, and a command while one runs changes nothing (R234,
R235); its end replaces the grid, counts up the sequence and stores the time of its start (R234). Each master selects a
context of its own. The map composer: a frame takes the next sequence number and the settings that then stand, and one
still unfinished counts as dropped (R243, R244, R247); a late frame is dropped and sends nothing (R247); a failed check
disqualifies and is reported, and passed ones end that (R252); a command makes a check due (R251); a coefficient set is
stored with its CRC (R241), and a write changes no frame under way (R244). -/
def Obligations.SurveysAndMaps : Prop :=
  (∀ (s : State) (m : MasterId) (d : DieId) (v : Nat), GateTakes m ⟨0x2700, 1, d.val⟩ (leBytes 1 v) s →
    (s.die d).srv.running = none → Does (.surveyNow m d v) s fun t =>
      t.die d = { s.die d with srv := { (s.die d).srv with running := some (s.atTick.sysTime d) } } ∧
      GateOnly ⟨0x2700, 1, d.val⟩ s t ∧ ∀ e, e ≠ d → t.die e = s.die e) ∧
  (∀ (s : State) (m : MasterId) (d : DieId) (v : Nat), GateTakes m ⟨0x2700, 1, d.val⟩ (leBytes 1 v) s →
    (s.die d).srv.running.isSome = true → Does (.surveyNow m d v) s fun t => t = s.atTick) ∧
  (∀ (s : State) (d : DieId), s.dset d 0x2700 4 ≠ 0 → (s.die d).surveys = true → (s.die d).srv.running = none →
    Does (.surveyIntervalExpire d) s fun t =>
      (t.die d).srv.running = some (t.sysTime d) ∧ (t.die d).srv.intervalFrom = t.tray.now ∧
      (s.die d).srv.intervalFrom + s.dset d 0x2700 4 * 1000000 ≤ t.tray.now ∧ DieNoted d s t) ∧
  (∀ (s : State) (d : DieId) (grid : List Int) (t0 : Nat), (s.die d).surveys = true → (s.die d).srv.running = some t0 →
    grid.length = 4096 →
    Does (.surveyComplete d grid) s fun t =>
      (t.die d).srv.grid = grid ∧ (t.die d).srv.seq = ((s.die d).srv.seq + 1) % 2 ^ 32 ∧ (t.die d).srv.time = t0 ∧
      (t.die d).srv.running = none ∧ t.die d = { s.die d with srv := (t.die d).srv } ∧ DieOnly d s t) ∧
  (∀ (s : State) (m : MasterId) (d : DieId) (v : Nat), GateTakes m ⟨0x2600, 0x10, d.val⟩ (leBytes 4 v) s →
    Does (.contextSelectorWrite m d v) s fun t =>
      KV.get? (t.master m).ctxSel d.val = some (v % 256 ^ 4) ∧ t.dies = s.dies ∧ ∀ n, n ≠ m → t.master n = s.master n) ∧
  (∀ (s : State) (d : DieId), (s.die d).composes = true → s.dset d 0x2700 6 = 0 →
    Does (.frameStart d) s fun t =>
      t.die d = { s.die d with cmp := { (s.die d).cmp with running := false } } ∧ DieOnly d s t) ∧
  (∀ (s : State) (d : DieId), (s.die d).composes = true → s.dset d 0x2700 6 ≠ 0 →
    Does (.frameStart d) s fun t =>
      (t.die d).cmp.seq = ((s.die d).cmp.seq + 1) % 0xFFFFFFFF ∧ (t.die d).cmp.frame.isSome = true ∧
      (t.die d).cmp.running = true ∧ (t.die d).cmp.owner = s.tray.mbox ∧
      (t.die d).cmp.dropped = satAdd 32 (s.die d).cmp.dropped (if (s.die d).cmp.frame.isSome then 1 else 0) ∧
      (t.die d).cmp.active = (List.range 0x15).map (fun k => (k, s.dset d 0x2700 k)) ∧
      (t.die d).til = (s.die d).til ∧ s.tray.now ≤ t.tray.now ∧ ∀ e, e ≠ d → t.die e = s.die e) ∧
  (∀ (s : State) (d : DieId) (bytes : List Byte), (s.die d).cmp.frame = some bytes → Does (.frameComplete d false) s fun t =>
    t.die d = { s.die d with cmp := { (s.die d).cmp with
      frame := none, dropped := satAdd 32 (s.die d).cmp.dropped 1 } } ∧ DieOnly d s t) ∧
  (∀ (s : State) (d : DieId) (bytes : List Byte), (s.die d).cmp.frame = some bytes → (s.die d).composes = true →
    bit ((s.die d).cmp.set 0xF) 0 = false → bit ((s.die d).cmp.set 0xF) 1 = false → Does (.frameComplete d true) s fun t =>
      t.die d = { s.die d with cmp := { (s.die d).cmp with frame := none } } ∧ DieOnly d s t) ∧
  (∀ (s : State) (d : DieId) (fault : Nat) (setFaults : List Nat), (s.die d).composes = true → (s.die d).cmp.running = true →
    (s.die d).cmp.checkDue = true → Does (.composerCheck d fault setFaults) s fun t =>
      (t.die d).cmp.checkDue = false ∧ (t.die d).cmp.lastSig = checkSignature.xor fault ∧
      (fault ≠ 0 → (t.die d).cmp.lastPassed = false ∧ (t.die d).cmp.disqualified = true ∧
        (t.die d).cmp.need = 2 ∧ (t.die d).cmp.failedChecks = satAdd 32 (s.die d).cmp.failedChecks 1 ∧
        Reported t s d.val 0x2701 (leBytes 4 (checkSignature.xor fault))) ∧
      ((t.die d).cmp.lastPassed = true → (t.die d).cmp.need = (s.die d).cmp.need - 1 ∧
        ((t.die d).cmp.disqualified = true ↔ (s.die d).cmp.disqualified = true ∧ 1 < (s.die d).cmp.need)) ∧
      t.die d = { s.die d with cmp := (t.die d).cmp } ∧ DieNoted d s t) ∧
  (∀ (s : State) (m : MasterId) (d : DieId) (v : Nat), GateTakes m ⟨0x2700, 0x1B, d.val⟩ (leBytes 1 v) s →
    Does (.runCheckNow m d v) s fun t =>
      t.die d = { s.die d with cmp := { (s.die d).cmp with checkDue := true } } ∧
      GateOnly ⟨0x2700, 0x1B, d.val⟩ s t ∧ ∀ e, e ≠ d → t.die e = s.die e) ∧
  (∀ (s : State) (m : MasterId) (d : DieId) (set : Nat) (v : List Byte), set < 4 →
    GateTakes m ⟨0x2700, 0xB + set, d.val⟩ v s → Does (.coeffSetWrite m d set v) s fun t =>
      t.setting 0x2700 (0xB + set) d.val = leNat v ∧ 
      (t.die d).cmp.setCrc = (s.die d).cmp.setCrc.set set (some (crc32 v)) ∧
      (t.die d).cmp.frame = (s.die d).cmp.frame ∧ (t.die d).cmp.active = (s.die d).cmp.active ∧
      GateOnly ⟨0x2700, 0xB + set, d.val⟩ s t ∧ ∀ e, e ≠ d → t.die e = s.die e) ∧
  (∀ (s : State) (m : MasterId) (d : DieId) (sub : Nat) (v : List Byte),
    sub = 4 ∨ (6 ≤ sub ∧ sub ≤ 0xA) ∨ sub = 0xF ∨ (0x11 ≤ sub ∧ sub ≤ 0x14) →
    (sub = 7 ∨ sub = 8 ∨ sub = 9 ∨ sub = 0x12 → s.streamFits d sub (leNat v) = true) →
    GateTakes m ⟨0x2700, sub, d.val⟩ v s → Does (.composerWrite m d sub v) s fun t =>
      t.setting 0x2700 sub d.val = leNat v ∧ (t.die d).cmp = (s.die d).cmp ∧
      GateOnly ⟨0x2700, sub, d.val⟩ s t ∧ ∀ e, e ≠ d → t.die e = s.die e) ∧
  (∀ (s : State) (m : MasterId) (d : DieId) (v : List Byte), GateTakes m ⟨0x2700, 0x10, d.val⟩ v s →
    leNat v % 4096 = 0 → Does (.composerWrite m d 0x10 v) s fun t =>
      t.setting 0x2700 0x10 d.val = leNat v ∧
      t.die d = { s.die d with cmp := { (s.die d).cmp with ringStopped := false } } ∧
      GateOnly ⟨0x2700, 0x10, d.val⟩ s t ∧ ∀ e, e ≠ d → t.die e = s.die e)

/-! ### Step records of a running plan (chapter 11) -/

/-- The vector operations on lanes: each lane of the destination vector is the operation on the lanes of its source
vectors, and nothing else of the tile changes (Table 11.8, R270). -/
def Obligations.VectorLanes : Prop :=
  LaneRecords 0x12 Instr.vadd (fun _ a b _ => vAdd a b) ∧ LaneRecords 0x13 Instr.vmul (fun _ a b _ => vMul a b) ∧
  LaneRecords 0x14 Instr.vfma (fun _ a b c => vFma a b c) ∧ LaneRecords 0x15 Instr.vmax (fun _ a b _ => vMax a b) ∧
  LaneRecords 0x16 Instr.vexp2 (fun _ a _ _ => vExp2 a) ∧ LaneRecords 0x17 Instr.vrcp (fun _ a _ _ => vRcp a) ∧
  LaneRecords 0x18 Instr.vrsqrt (fun _ a _ _ => vRsqrt a) ∧
  LaneRecords 0x1A Instr.vscale (fun q a b _ => vFma a (bits q.w 63 32) b)

/-- The records that read memory or the accumulators into the units of their tile, and change nothing else: no operation,
the shadow weights and their swap, zeroed accumulator rows, the loads of vectors, the reduction and the vectors taken from
an accumulator row (Table 11.8, R277). A matrix issue adds, to each of its accumulator rows and for each of 128 columns, the
products of the row of activations and the column of the weights (R270, R277); INT8 saturates to INT32. A row that holds the
other kind of number takes a free value (log 3). -/
def Obligations.UnitAndMatrixRecords : Prop :=
  (∀ (s : State) (d : DieId) (t h u v : Nat) (r : Run) (q : Rec), Issues s d t h 0x00 u v r q →
    Does (.nop d t h u v) s fun x => x = s.issued d t h u v r q) ∧
  (∀ (s : State) (d : DieId) (t h u v : Nat) (r : Run) (q : Rec), Issues s d t h 0x01 u v r q →
    Does (.mloadw d t h u v) s fun x =>
      (x.unit d (r.plan.tile u v)).shadow = some (q.fmt, (List.range 128).map fun k =>
        ((elems q.s (s.sramRead d (lineAddr (r.plan.tile u v) (bits q.w 15 0)) (128 * 128 * q.s))).drop (128 * k)).take 128) ∧
      (x.unit d (r.plan.tile u v)).weights = (s.unit d (r.plan.tile u v)).weights ∧
      (x.unit d (r.plan.tile u v)).acc = (s.unit d (r.plan.tile u v)).acc ∧
      (x.unit d (r.plan.tile u v)).v = (s.unit d (r.plan.tile u v)).v ∧
      UnitOnly d (r.plan.tile u v) (s.issued d t h u v r q) x) ∧
  (∀ (s : State) (d : DieId) (t h u v : Nat) (r : Run) (q : Rec), Issues s d t h 0x02 u v r q →
    Does (.mswap d t h u v) s fun x =>
      x.unit d (r.plan.tile u v) = { s.unit d (r.plan.tile u v) with weights := (s.unit d (r.plan.tile u v)).shadow } ∧
      UnitOnly d (r.plan.tile u v) (s.issued d t h u v r q) x) ∧
  (∀ (s : State) (d : DieId) (t h u v : Nat) (r : Run) (q : Rec), Issues s d t h 0x05 u v r q →
    Does (.mzero d t h u v) s fun x =>
      (∀ i, bits q.w 24 16 ≤ i → i < bits q.w 24 16 + q.M → KV.get? (x.unit d (r.plan.tile u v)).acc i = none) ∧
      (∀ i, i < bits q.w 24 16 ∨ bits q.w 24 16 + q.M ≤ i →
        KV.get? (x.unit d (r.plan.tile u v)).acc i = KV.get? (s.unit d (r.plan.tile u v)).acc i) ∧
      x.unit d (r.plan.tile u v) = { s.unit d (r.plan.tile u v) with acc := (x.unit d (r.plan.tile u v)).acc } ∧
      UnitOnly d (r.plan.tile u v) (s.issued d t h u v r q) x) ∧
  (∀ (s : State) (d : DieId) (t h u v : Nat) (r : Run) (q : Rec), Issues s d t h 0x10 u v r q →
    Does (.vload d t h u v) s fun x =>
      (∀ i, i < q.nv → (x.unit d (r.plan.tile u v)).vec (q.vd + i) =
        (elems q.s (s.sramRead d (lineAddr (r.plan.tile u v) (bits q.w 31 16) + 64 * i * q.s) (64 * q.s))).map
          (toF32 q.fmt)) ∧
      (∀ i, i < q.vd ∨ q.vd + q.nv ≤ i → (x.unit d (r.plan.tile u v)).vec i = (s.unit d (r.plan.tile u v)).vec i) ∧
      UnitOnly d (r.plan.tile u v) (s.issued d t h u v r q) x) ∧
  (∀ (s : State) (d : DieId) (t h u v : Nat) (r : Run) (q : Rec), Issues s d t h 0x19 u v r q →
    Does (.vred d t h u v) s fun x =>
      x.unit d (r.plan.tile u v) = (s.unit d (r.plan.tile u v)).setVec q.vd (List.replicate 64
        (vReduce (bits q.w 33 32 == 1) ((s.unit d (r.plan.tile u v)).vec q.va))) ∧
      UnitOnly d (r.plan.tile u v) (s.issued d t h u v r q) x) ∧
  (∀ (s : State) (d : DieId) (t h u v : Nat) (r : Run) (q : Rec) (l : List Nat), Issues s d t h 0x1B u v r q →
    KV.get? (s.unit d (r.plan.tile u v)).acc (bits q.w 24 16) = some (false, l) → Does (.vacc d t h u v) s fun x =>
      (x.unit d (r.plan.tile u v)).vec q.vd = l.take 64 ∧ (x.unit d (r.plan.tile u v)).vec (q.vd + 1) = l.drop 64 ∧
      (x.unit d (r.plan.tile u v)).acc = (s.unit d (r.plan.tile u v)).acc ∧
      UnitOnly d (r.plan.tile u v) (s.issued d t h u v r q) x) ∧
  (∀ (s : State) (d : DieId) (t h u v : Nat) (r : Run) (q : Rec) (w : Nat × List (List Nat)), Issues s d t h 0x03 u v r q →
    (s.unit d (r.plan.tile u v)).weights = some w → Does (.mma d t h u v) s fun x =>
      (∀ i, i < q.M → ∀ old, KV.get? (s.unit d (r.plan.tile u v)).acc (bits q.w 24 16 + i) = some (fmtInt w.1, old) →
        KV.get? (x.unit d (r.plan.tile u v)).acc (bits q.w 24 16 + i) = some (fmtInt w.1,
          ((s.unit d (r.plan.tile u v)).columns).mapIdx fun j c => mmaElem w.1 (old.getD j 0)
            (elems q.s (s.sramRead d (lineAddr (r.plan.tile u v) (bits q.w 15 0 + i * q.s)) (128 * q.s))) c)) ∧
      (∀ i, i < bits q.w 24 16 ∨ bits q.w 24 16 + q.M ≤ i →
        KV.get? (x.unit d (r.plan.tile u v)).acc i = KV.get? (s.unit d (r.plan.tile u v)).acc i) ∧
      (x.unit d (r.plan.tile u v)).v = (s.unit d (r.plan.tile u v)).v ∧
      (x.unit d (r.plan.tile u v)).weights = some w ∧ UnitOnly d (r.plan.tile u v) (s.issued d t h u v r q) x) ∧
  (∀ (old : Nat) (row col : List Nat), mmaElem 2 old row col = ofInt 32 (clampI (-2147483648) 2147483647
    (toInt 32 old + (List.zipWith (fun a w => toInt 8 a * toInt 8 w) row col).sum)))

/-- The records that store to SRAM: the drain of accumulator rows, the store of vectors, the copy, the fill and the gather.
Each stores its bytes from the line its record names, and every byte outside them stays (Table 11.8, R276, R277). -/
def Obligations.StoringRecords : Prop :=
  (∀ (s : State) (d : DieId) (t h u v : Nat) (r : Run) (q : Rec), Issues s d t h 0x04 u v r q →
    Does (.mdrain d t h u v) s fun x => ∃ bs : List Byte,
      bs = ((List.range q.M).map fun i =>
        let a := KV.getD (s.unit d (r.plan.tile u v)).acc (bits q.w 24 16 + i) (false, List.replicate 128 0)
        elemBytes q.s (a.2.map fun e => if a.1 then fromI32 q.fmt e else fromF32 q.fmt e)).flatten ∧
      (x.die d).til.sram = Sram.write (s.die d).til.sram (lineAddr (r.plan.tile u v) (bits q.w 15 0)) bs ∧
      SramOnly d (lineAddr (r.plan.tile u v) (bits q.w 15 0)) bs.length (s.issued d t h u v r q) x) ∧
  (∀ (s : State) (d : DieId) (t h u v : Nat) (r : Run) (q : Rec), Issues s d t h 0x11 u v r q →
    Does (.vstore d t h u v) s fun x => ∃ bs : List Byte,
      bs = ((List.range q.nv).map fun i =>
        elemBytes q.s (((s.unit d (r.plan.tile u v)).vec (q.vd + i)).map (fromF32 q.fmt))).flatten ∧
      (x.die d).til.sram = Sram.write (s.die d).til.sram (lineAddr (r.plan.tile u v) (bits q.w 31 16)) bs ∧
      SramOnly d (lineAddr (r.plan.tile u v) (bits q.w 31 16)) bs.length (s.issued d t h u v r q) x) ∧
  (∀ (s : State) (d : DieId) (t h u v : Nat) (r : Run) (q : Rec), Issues s d t h 0x20 u v r q →
    Does (.mcopy d t h u v) s fun x =>
      x.sramRead d (lineAddr (r.plan.tile (raU q.dst) (raV q.dst)) (raLA q.dst)) (128 * q.nm) =
        s.sramRead d (lineAddr (r.plan.tile (raU q.src) (raV q.src)) (raLA q.src)) (128 * q.nm) ∧
      SramOnly d (lineAddr (r.plan.tile (raU q.dst) (raV q.dst)) (raLA q.dst)) (128 * q.nm)
        (s.issued d t h u v r q) x) ∧
  (∀ (s : State) (d : DieId) (t h u v : Nat) (r : Run) (q : Rec), Issues s d t h 0x21 u v r q →
    Does (.mfill d t h u v) s fun x =>
      x.sramRead d (lineAddr (r.plan.tile (raU q.dst) (raV q.dst)) (raLA q.dst)) (128 * q.nm) =
        (List.replicate (32 * q.nm) (leBytes 4 (bits q.w 63 32))).flatten ∧
      SramOnly d (lineAddr (r.plan.tile (raU q.dst) (raV q.dst)) (raLA q.dst)) (128 * q.nm)
        (s.issued d t h u v r q) x) ∧
  (∀ (s : State) (d : DieId) (t h u v : Nat) (r : Run) (q : Rec), Issues s d t h 0x22 u v r q →
    Does (.mgather d t h u v) s fun x =>
      (∀ pos i, pos < q.gk → (s.unit d (r.plan.tile u v)).sel[pos]? = some i →
        x.sramRead d (lineAddr (r.plan.tile u v) (bits q.w 31 16 + pos * q.gb)) (128 * q.gb) =
          s.sramRead d (lineAddr (r.plan.tile u v) (bits q.w 15 0 + i * q.stride)) (128 * q.gb)) ∧
      SramOnly d (lineAddr (r.plan.tile u v) (bits q.w 31 16)) (q.gk * q.gb * 128) (s.issued d t h u v r q) x)

/-- A send waits while its flow is not open, and otherwise puts the lines it read into the flow; a receive waits until its
lines have arrived (R280), and otherwise stores them and takes them from the flow's allotment. -/
def Obligations.FabricRecords : Prop :=
  (∀ (s : State) (d : DieId) (t h u v : Nat) (r : Run) (q : Rec) (f : TxFlow), Issues s d t h 0x30 u v r q →
    (s.die d).txOf r (bits q.w 7 0) = some f → f.opened = false → Does (.fsend d t h u v) s fun x =>
      x = (s.runTo d r q.cyc).modRun d t h r.queue fun k => { k with
        holding := some (.openDone, match k.holding with | some p => p.2 | none => (s.runTo d r q.cyc).tray.now) }) ∧
  (∀ (s : State) (d : DieId) (t h u v : Nat) (r : Run) (q : Rec) (f : TxFlow), Issues s d t h 0x30 u v r q →
    (s.die d).txOf r (bits q.w 7 0) = some f → f.opened = true →
    (f.data.map List.length).sum + 128 * q.nf ≤ f.space → Does (.fsend d t h u v) s fun x =>
      x = ((s.issued d t h u v r q).modTx d fun fs => fs.map fun g => if g.is f.tenant f.id then { g with
        data := g.data ++ [s.sramRead d (lineAddr (r.plan.tile u v) (bits q.w 23 8)) (128 * q.nf)] } else g).pump d
          f.tenant f.id) ∧
  (∀ (s : State) (d : DieId) (t h u v : Nat) (r : Run) (q : Rec) (f : RxFlow), Issues s d t h 0x31 u v r q →
    (s.die d).rxOf r (bits q.w 7 0) = some f → f.data.length < 128 * q.nf →
    Does (.frecv d t h u v) s fun x =>
      x = (s.runTo d r q.cyc).modRun d t h r.queue fun k => { k with
        holding := some (.recv, match k.holding with | some p => p.2 | none => (s.runTo d r q.cyc).tray.now) }) ∧
  (∀ (s : State) (d : DieId) (t h u v : Nat) (r : Run) (q : Rec) (f : RxFlow), Issues s d t h 0x31 u v r q →
    (s.die d).rxOf r (bits q.w 7 0) = some f → 128 * q.nf ≤ f.data.length → Does (.frecv d t h u v) s fun x =>
      (x.die d).til.sram = Sram.write (s.die d).til.sram (lineAddr (r.plan.tile u v) (bits q.w 23 8))
        (f.data.take (128 * q.nf)) ∧
      (∀ g ∈ (x.die d).fab.rx, g.is f.tenant f.id = true → ∃ g0 ∈ (s.die d).fab.rx,
        g0.is f.tenant f.id = true ∧ g.data = g0.data.drop (128 * q.nf)) ∧ DieActs d s x)

/-- The scout records: the weights of a bank, the number of keys that a stream leaves in the banks its mask names, the
selection stored as 64 U16 and kept in the selector of every tile of the plan, and the blanking of banks (R277, chapter
13). A blanked bank is free again, or gated, no sooner than its time. -/
def Obligations.ScoutRecords : Prop :=
  (∀ (s : State) (d : DieId) (t h : Nat) (r : Run) (q : Rec) (b : Bank), Issues s d t h 0x40 0 0 r q →
    (s.die d).sct.banks[bits q.w 2 0]? = some b → Does (.sload d t h) s fun x =>
      (x.die d).sct.banks[bits q.w 2 0]? = some { b with keys := [], weights := (List.range 32).map fun k =>
        (((s.sramRead d (lineAddr (r.plan.tile 0 0) (bits q.w 23 8)) 1152).map scoutElem).drop (36 * k)).take 36 } ∧
      (∀ i, i ≠ bits q.w 2 0 → (x.die d).sct.banks[i]? = (s.die d).sct.banks[i]?) ∧
      (x.die d).til = ((s.issued d t h 0 0 r q).die d).til ∧ DieOnly d (s.issued d t h 0 0 r q) x) ∧
  (∀ (s : State) (d : DieId) (t h : Nat) (r : Run) (q : Rec), Issues s d t h 0x41 0 0 r q →
    Does (.sstream d t h) s fun x =>
      (∀ i b, i < 8 → (s.die d).sct.banks[i]? = some b → ∃ b', (x.die d).sct.banks[i]? = some b' ∧
        b'.weights = b.weights ∧ b'.state = b.state ∧
        (bit q.w i = false → b' = b) ∧
        (bit q.w i = true → b'.keys.length = min 262144 (b.keys.length + q.nk))) ∧
      (x.die d).til = ((s.issued d t h 0 0 r q).die d).til ∧ ∀ e, e ≠ d → x.die e = s.die e) ∧
  (∀ (s : State) (d : DieId) (t h : Nat) (r : Run) (q : Rec), Issues s d t h 0x42 0 0 r q →
    Does (.sselect d t h) s fun x => ∃ sel : List Nat,
      sel = selectBlocks (((List.range 8).filter fun i => bit q.w i).map fun i => (s.die d).sct.banks.getD i {})
        q.selC q.selK q.selB ∧
      (∀ L ∈ r.plan.tiles, (x.unit d L).sel = sel) ∧
      (x.die d).til.sram = Sram.write (s.die d).til.sram (lineAddr (r.plan.tile 0 0) (bits q.w 54 39))
        (elemBytes 2 (sel ++ List.replicate (64 - sel.length) 0xFFFF)) ∧
      (x.die d).sct.selections = satAdd 64 (s.die d).sct.selections 1 ∧ (x.die d).sct.banks = (s.die d).sct.banks ∧
      DieOnly d (s.issued d t h 0 0 r q) x) ∧
  (∀ (s : State) (d : DieId) (t h : Nat) (r : Run) (q : Rec), Issues s d t h 0x43 0 0 r q →
    Does (.sblank d t h) s fun x =>
      (∀ i b, (s.die d).sct.banks[i]? = some b → ∃ b', (x.die d).sct.banks[i]? = some b' ∧ b'.state = b.state ∧
        (bit q.w i = false → b' = b) ∧
        (bit q.w i = true → b'.weights = [] ∧ b'.keys = [] ∧ b'.holder = b.holder)) ∧
      (x.die d).til = ((s.issued d t h 0 0 r q).die d).til ∧ DieOnly d (s.issued d t h 0 0 r q) x) ∧
  (∀ (s : State) (d : DieId) (b : Fin 8) (k : Bank), (s.die d).sct.banks[b.val]? = some k → k.state = .blanking →
    Does (.bankFree d b) s fun x =>
      (x.die d).sct.banks[b.val]? = some (if k.gatePending then { k with state := .gated, gatePending := false }
        else { k with state := .free }) ∧ k.freeAt ≤ x.tray.now ∧ (x.die d).til = (s.die d).til ∧ DieNoted d s x)

/-- A barrier issues when its release has arrived and holds the plan until then; arrivals of a barrier gather at its root, and
a release frees the barrier of every context of the tenant that lists it (R291). A halt point stops the plan only when a stop
is pending (R290), and END ends it with OK. -/
def Obligations.BarriersAndEnd : Prop :=
  (∀ (s : State) (d : DieId) (t h : Nat) (r : Run) (q : Rec), Issues s d t h 0x50 0 0 r q →
    r.barSent.getD (bits q.w 9 0) 0 ≠ r.barCount.getD (bits q.w 9 0) 0 →
    (bits q.w 9 0, r.barCount.getD (bits q.w 9 0) 0 + 1) ∈ r.barFree → Does (.barrier d t h) s fun x =>
      x = (s.issued d t h 0 0 r q).modRun d t h r.queue fun k => { k with
        barCount := k.barCount.set (bits q.w 9 0) (k.barCount.getD (bits q.w 9 0) 0 + 1)
        barFree := k.barFree.filter fun f => f != (bits q.w 9 0, k.barCount.getD (bits q.w 9 0) 0 + 1) }) ∧
  (∀ (s : State) (d : DieId) (t h : Nat) (r : Run) (q : Rec), Issues s d t h 0x50 0 0 r q →
    r.barSent.getD (bits q.w 9 0) 0 ≠ r.barCount.getD (bits q.w 9 0) 0 →
    (bits q.w 9 0, r.barCount.getD (bits q.w 9 0) 0 + 1) ∉ r.barFree → Does (.barrier d t h) s fun x =>
      x = (s.runTo d r q.cyc).modRun d t h r.queue fun k => { k with
        holding := some (.barrier, match k.holding with | some p => p.2 | none => (s.runTo d r q.cyc).tray.now) }) ∧
  (∀ (s : State) (d : DieId) (t h : Nat) (r : Run) (q : Rec), Issues s d t h 0x51 0 0 r q → r.stop = .none →
    Does (.haltpt d t h) s fun x => x = s.issued d t h 0 0 r q) ∧
  (∀ (s : State) (d : DieId) (t h : Nat) (r : Run) (q : Rec), Issues s d t h 0x51 0 0 r q → r.stop ≠ .none →
    Does (.haltpt d t h) s fun x =>
      x = ((s.issued d t h 0 0 r q).haltHere d r).modRun d t h r.queue (fun k => { k with halted := true }) ∧
      (∀ L ∈ r.plan.tiles, x.unit d L = {}) ∧ (x.die d).til.sram = (s.die d).til.sram) ∧
  (∀ (s : State) (d : DieId) (t h : Nat) (r : Run) (q : Rec), Issues s d t h 0x52 0 0 r q → Does (.end_ d t h) s fun x =>
    x = ((s.issued d t h 0 0 r q).modRun d t h r.queue fun k => { k with clock := q.cyc + 1, inFlight := [] }).endRun
      d t h r.queue stOk 0) ∧
  (∀ (s : State) (d : DieId) (t h pos : Nat) (r : Run) (q : Rec) (b : PlanBarrier),
    ((s.die d).til.runs.find? fun r => r.tenant == t && r.handle == h && !r.halted && r.holding.isNone) = some r →
    ((r.plan.scores.getD 0 []).filter fun q => q.op == 0x50 && bits q.w 9 0 == pos)[r.barSent.getD pos 0]? = some q →
    r.plan.barriers[pos]? = some b → r.isNext (q.cyc - b.lead) = true → (s.die d).computes = true →
    (s.die d).op.alertHalt = false → Does (.barrierArrivalSend d t h pos) s fun x =>
      x = (s.runTo d r (q.cyc - b.lead)).sendArrival d t h r.queue pos) ∧
  (∀ (s : State) (d : DieId) (src t id n parts : Nat), KV.get? (s.die d).fab.barriers (t, id, n) = none → 1 < parts →
    Does (.barrierArrival d src t id n parts) s fun x =>
      KV.get? (x.die d).fab.barriers (t, id, n) = some (parts, [src]) ∧
      x.die d = { s.die d with fab := { (s.die d).fab with barriers := (x.die d).fab.barriers } } ∧ DieOnly d s x) ∧
  (∀ (s : State) (d : DieId) (t id n : Nat), Does (.barrierRelease d t id n) s fun x =>
    (x.die d).til.runs.length = (s.die d).til.runs.length ∧
    (∀ (i p : Nat) (r : Run), (s.die d).til.runs[i]? = some r → r.tenant = t →
      r.plan.barriers.findIdx? (fun b => b.id == id) = some p →
      ∃ r', (x.die d).til.runs[i]? = some r' ∧ (p, n) ∈ r'.barFree ∧ r' = { r with barFree := r'.barFree }) ∧
    x.die d = { s.die d with til := { (s.die d).til with runs := (x.die d).til.runs } } ∧ DieOnly d s x)

/-- A float segment is shortened by the lateness the context carries, down to one cycle (R287; quotients are rounded down,
log 7); a hold longer than the wait horizon ends the plan (R285); a scrub that finds no error only goes to the next line
of its bank (R263). -/
def Obligations.FloatHoldScrub : Prop :=
  (∀ (s : State) (d : DieId) (t h : Nat) (r : Run) (g : Segment),
    ((s.die d).til.runs.find? fun r => r.tenant == t && r.handle == h && !r.halted && r.holding.isNone) = some r →
    r.nextFloat = some g → r.isNext g.start = true → (s.die d).computes = true → (s.die d).op.alertHalt = false →
    Does (.floatSegmentStart d t h) s fun x => ∃ n,
      n = min (g.dur - 1) (r.late * stepN (s.die d).clk.curStep * g.rate / 160) ∧
      x = (s.runTo d r g.start).modRun d t h r.queue fun k => { k with
        clock := g.start + n, late := k.late - n * 160 / (g.rate * stepN (s.die d).clk.curStep) }) ∧
  (∀ (s : State) (d : DieId) (t h : Nat) (r : Run) (c : HoldCause) (since : Ns) (q : Queue),
    ((s.die d).til.runs.find? fun r => r.tenant == t && r.handle == h && r.holding.isSome) = some r →
    r.holding = some (c, since) → s.queue? t h r.queue = some q → Does (.holdExpired d t h) s fun x =>
      x = (s.advanceTo (since + q.horizonNs)).endRun d t h r.queue stHoldExpired 0 ∧
      since + q.horizonNs ≤ x.tray.now ∧ ∀ k ∈ (x.die d).til.runs, k.is t h r.queue = false) ∧
  (∀ (s : State) (d : DieId) (tile : Fin 128) (bank : Fin 8), (s.die d).rails.vcore = true →
    Does (.scrubLine d tile bank [] []) s fun x =>
      KV.getD (x.die d).til.scrub (8 * tile.val + bank.val) 0 =
        (KV.getD (s.die d).til.scrub (8 * tile.val + bank.val) 0 + 1) % 8192 ∧
      (x.die d).til.corrected = satAdd 64 (s.die d).til.corrected 0 ∧ (x.die d).til.sram = (s.die d).til.sram ∧
      (x.die d).til.poison = (s.die d).til.poison ∧ DieOnly d s x) ∧
  (∀ (s : State) (d : DieId) (tile : Fin 128) (bank : Fin 8), (s.die d).rails.vcore = false →
    Does (.scrubLine d tile bank [] []) s fun x => x = s)

/-- A record that is not the next of its unit acts on nothing; one that is fetched from, or reads, a poisoned word ends its plan
with SRAM_UNCORRECTABLE instead of taking effect (R262). -/
def Obligations.RecordsThatCannotIssue : Prop :=
  (∀ (d : DieId) (t h u v op : Nat) (c : Instr), (op, c) ∈ [
      (0x00, Instr.nop d t h u v), (0x01, .mloadw d t h u v), (0x02, .mswap d t h u v), (0x03, .mma d t h u v),
      (0x04, .mdrain d t h u v), (0x05, .mzero d t h u v), (0x10, .vload d t h u v), (0x11, .vstore d t h u v),
      (0x12, .vadd d t h u v), (0x13, .vmul d t h u v), (0x14, .vfma d t h u v), (0x15, .vmax d t h u v),
      (0x16, .vexp2 d t h u v), (0x17, .vrcp d t h u v), (0x18, .vrsqrt d t h u v), (0x19, .vred d t h u v),
      (0x1A, .vscale d t h u v), (0x1B, .vacc d t h u v), (0x20, .mcopy d t h u v), (0x21, .mfill d t h u v),
      (0x22, .mgather d t h u v), (0x30, .fsend d t h u v), (0x31, .frecv d t h u v)] →
    ∀ s : State, ((s.die d).issuing t h op u v = none → Does c s fun x => x = s) ∧
      (∀ (r : Run) (q : Rec), (s.die d).issuing t h op u v = some (r, q) →
        s.poisoned d (lineAddr (r.plan.tile u v) (r.plan.stores.getD (v * r.plan.w + u) 0 +
          r.next.getD (v * r.plan.w + u) 0 / 8) + 16 * (r.next.getD (v * r.plan.w + u) 0 % 8)) 16 ≠ [] ∨
          (∃ p ∈ s.readRanges d r q u v, s.poisoned d p.1 p.2 ≠ []) →
        Does c s fun x => ∃ w : State, x = w.endRun d t h r.queue 0x12 0 ∧
          (w.die d).til.sram = (s.die d).til.sram ∧ (w.die d).til.units = (s.die d).til.units ∧ w.ctxs = s.ctxs))

/-! ### Optical links (chapter 12) -/

/-- Comb A becomes active when it passes its check and comb B otherwise (R299); a die with neither is held off. The loss of
the active comb switches to the standby one, which counts, is reported and opens every bank's window (R300, R369); without a
standby the die stays without light (R302). A lock loop sets its heater's command (R304); a ring whose error stays out of
bounds for ten updates, or which is reported so, loses lock and is searched (R306), for 2 ms at most. The sweeps choose the
shift of the fewest unbounded rings (R308), modulator rings first and each port in its round (Table 12.4). -/
def Obligations.CombsAndRings : Prop :=
  (∀ (s : State) (d : DieId) (aDev bDev : List Int) (aPow bPow : Int) (aOk bOk : Bool),
    (s.die d).svc.state = .starting → (s.die d).rails.vana = true → (s.die d).fab.combPasses d 0 aDev aPow = aOk →
    (s.die d).fab.combPasses d 1 bDev bPow = bOk →
    (aOk = true ∨ bOk = true) → Does (.combStartupCheck d aDev bDev aPow bPow) s fun t =>
      (t.die d).fab.combB = !aOk ∧ (t.die d).fab.failedA = !aOk ∧ (t.die d).fab.failedB = !bOk ∧
      (t.die d).fab.standbyGone = false ∧
      (∀ p x, p < 16 → (s.die d).fab.ports[p]? = some x → (t.die d).fab.ports[p]? =
        some (if s.portOn d p = true ∧ x.state = .off then { x with state := .search } else x)) ∧ DieOnly d s t) ∧
  (∀ (s : State) (d : DieId) (aDev bDev : List Int) (aPow bPow : Int),
    (s.die d).svc.state = .starting → (s.die d).rails.vana = true → (s.die d).fab.combPasses d 0 aDev aPow = false →
    (s.die d).fab.combPasses d 1 bDev bPow = false → Does (.combStartupCheck d aDev bDev aPow bPow) s fun t =>
      (t.die d).svc.state = .off ∧ (t.die d).svc.heldOff = true ∧ (t.die d).rails.vcore = false) ∧
  (∀ (s : State) (d : DieId) (samples : List Int), (s.die d).rails.vana = true → (s.die d).fab.combLost = false →
    samples.length = 8 → (∀ x ∈ samples, x + 300 < (s.die d).fab.combRef d (b2n (s.die d).fab.combB)) →
    (s.die d).fab.noStandby = false → Does (.combLoss d samples) s fun t =>
      (t.die d).fab.combB = !(s.die d).fab.combB ∧ (t.die d).fab.failovers = satAdd 32 (s.die d).fab.failovers 1 ∧
      (t.die d).sct.banks = (s.die d).sct.banks.map (fun b => { b with window := true }) ∧
      Reported t s d.val 0x3001 [BitVec.ofNat 8 (if (s.die d).fab.combB then 0 else 1)] ∧
      (∀ p x, p < 16 → (s.die d).fab.ports[p]? = some x → x.state.carries = true →
        ∃ y, (t.die d).fab.ports[p]? = some y ∧ y.state = .retrain) ∧ (t.die d).til = (s.die d).til ∧ DieNoted d s t) ∧
  (∀ (s : State) (d : DieId) (samples : List Int), (s.die d).rails.vana = true → (s.die d).fab.combLost = false →
    samples.length = 8 → (∀ x ∈ samples, x + 300 < (s.die d).fab.combRef d (b2n (s.die d).fab.combB)) →
    (s.die d).fab.noStandby = true → Does (.combLoss d samples) s fun t =>
      (t.die d).fab.combLost = true ∧ (t.die d).fab.combB = (s.die d).fab.combB ∧
      (t.die d).fab.failovers = (s.die d).fab.failovers ∧ DieOnly d s t) ∧
  (∀ (s : State) (d : DieId) (pow : Int) (offs : List Int), Does (.standbyUnavailable d pow offs) s fun t =>
    (∃ gone, t.die d = { s.die d with fab := { (s.die d).fab with standbyGone := gone } } ∧
      (gone = true ↔ pow + 300 < (s.die d).fab.combRef d (1 - b2n (s.die d).fab.combB) ∨
        ∃ x ∈ offs, x < -5000 ∨ 5000 < x)) ∧ DieOnly d s t) ∧
  (∀ (s : State) (d : DieId) (ring u : Nat), (s.die d).rails.vhtr = true → ring < 1280 →
    ((s.die d).fab.heater ring).locked = true → ((s.die d).fab.heater ring).sat < 9 →
    Does (.heaterLoopUpdate d ring u false) s fun t =>
      ((t.die d).fab.heater ring).u = min u 16383 ∧ ((t.die d).fab.heater ring).locked = true ∧
      ((t.die d).fab.heater ring).bad = 0 ∧ (t.die d).fab.ports = (s.die d).fab.ports ∧ DieOnly d s t) ∧
  (∀ (s : State) (d : DieId) (ring u : Nat), (s.die d).rails.vhtr = true → ring < 1280 →
    ((s.die d).fab.heater ring).locked = true → ((s.die d).fab.heater ring).bad = 9 →
    Does (.heaterLoopUpdate d ring u true) s fun t =>
      ((t.die d).fab.heater ring).locked = false ∧ ((t.die d).fab.heater ring).searchAt = some s.tray.now ∧
      ∀ e, e ≠ d → t.die e = s.die e) ∧
  (∀ (s : State) (d : DieId) (port : Fin 16) (drop : Bool) (line : Fin 40),
    ((s.die d).fab.heater ((s.port d port.val).ringNo port.val drop line.val)).locked = true →
    Does (.ringLockLoss d port drop line) s fun t =>
      ((t.die d).fab.heater ((s.port d port.val).ringNo port.val drop line.val)).locked = false ∧
      ((t.die d).fab.heater ((s.port d port.val).ringNo port.val drop line.val)).searchAt = some s.tray.now ∧
      ∀ e, e ≠ d → t.die e = s.die e) ∧
  (∀ (s : State) (d : DieId) (port : Fin 16) (drop : Bool) (line : Fin 40) (at_ : Ns),
    ((s.die d).fab.heater ((s.port d port.val).ringNo port.val drop line.val)).locked = false →
    ((s.die d).fab.heater ((s.port d port.val).ringNo port.val drop line.val)).searchAt = some at_ →
    Does (.ringSearchTimeout d port drop line) s fun t =>
      ((t.die d).fab.heater ((s.port d port.val).ringNo port.val drop line.val)).searchAt = none ∧
      ((t.die d).fab.heater ((s.port d port.val).ringNo port.val drop line.val)).locked = false ∧
      at_ + 2000000 ≤ t.tray.now ∧ ∀ e, e ≠ d → t.die e = s.die e) ∧
  (∀ (s : State) (d : DieId) (port : Fin 16) (x : Port) (power : List (List (Option Nat))),
    (s.die d).fab.ports[port.val]? = some x → x.state = .search → (s.die d).rails.vhtr = true →
    x.swept = 0 → (s.die d).fab.roundOf port.val = true → Does (.sweepComplete d port false power) s fun t =>
      ∃ y, (t.die d).fab.ports[port.val]? = some y ∧ y.shiftTx = bestShift power ∧ y.state = .search ∧ y.swept = 1 ∧
      DieOnly d s t) ∧
  (∀ (s : State) (d : DieId) (port : Fin 16) (x : Port) (power : List (List (Option Nat))),
    (s.die d).fab.ports[port.val]? = some x → x.state = .search → (s.die d).rails.vhtr = true →
    x.swept = 0 → (s.die d).fab.roundOf port.val = false → Does (.sweepComplete d port false power) s fun t => t = s) ∧
  (∀ (s : State) (d : DieId) (port : Fin 16) (x : Port) (power : List (List (Option Nat))),
    (s.die d).fab.ports[port.val]? = some x → x.state = .search → (s.die d).rails.vhtr = true →
    x.swept = 1 → x.farLight = true → Does (.sweepComplete d port true power) s fun t =>
      ∃ y, (t.die d).fab.ports[port.val]? = some y ∧ y.shiftRx = bestShift power ∧ y.state = .train ∧ DieSends d s t) ∧
  (∀ (power : List (List (Option Nat))), bestShift power < 40 ∧ ∀ b, b < 40 →
    ((List.range 40).filter fun r => ((power.getD r []).getD ((r + bestShift power) % 40) none).isNone).length ≤
      ((List.range 40).filter fun r => ((power.getD r []).getD ((r + b) % 40) none).isNone).length)

/-- The life of a port: far light, the HELLO of its neighbour, the LANEMAP applied from its link sequence on, the end of
training UP, DEGRADED or DOWN by its usable lines (R309 to R311, R313), RETRAIN and its end (R312), the port-loss timeout, the
retry of a DOWN port each second (R313), and a port disabled by the operator OFF (R314). -/
def Obligations.PortStates : Prop :=
  (∀ (s : State) (d : DieId) (port : Fin 16) (x : Port), (s.die d).fab.ports[port.val]? = some x → x.state = .search →
    Does (.farLightArrival d port) s fun t =>
      (t.die d).fab.ports[port.val]? = some { x with farLight := true } ∧ DieOnly d s t) ∧
  (∀ (s : State) (d : DieId) (port : Fin 16) (x : Port) (group id farPort : Nat) (serial : List Byte),
    (s.die d).fab.ports[port.val]? = some x → Does (.hello d port group id farPort serial) s fun t =>
      (t.die d).fab.ports[port.val]? =
        some { x with neighbour := some (group, id, farPort, serial), helloHeard := true } ∧ DieOnly d s t) ∧
  (∀ (s : State) (d : DieId) (port : Fin 16) (x : Port) (seq : Nat) (lines : List Nat),
    (s.die d).fab.ports[port.val]? = some x → x.state ≠ .train → x.state ≠ .down → seq % 4096 ≠ x.rxSeq →
    Does (.lanemap d port seq lines) s fun t => ∃ m, m.length = 36 ∧
      (t.die d).fab.ports[port.val]? = some { x with rxNext := some (seq % 4096, m) } ∧ DieOnly d s t) ∧
  (∀ (s : State) (d : DieId) (port : Fin 16) (x : Port) (passTx passRx : Nat),
    (s.die d).fab.ports[port.val]? = some x → (x.state = .train ∨ x.state = .down) → x.helloHeard = true →
    ((usableLines (testedLines passTx x.tx)).length < 8 ∨ (usableLines (testedLines passRx x.rx)).length < 8) →
    Does (.trainingComplete d port passTx passRx) s fun t => ∃ y, (t.die d).fab.ports[port.val]? = some y ∧
      y.state = .down ∧ y.downAt = s.tray.now ∧ DieOnly d s t) ∧
  (∀ (s : State) (d : DieId) (port : Fin 16) (x : Port) (passTx passRx : Nat),
    (s.die d).fab.ports[port.val]? = some x → (x.state = .train ∨ x.state = .down) → x.helloHeard = true →
    8 ≤ (usableLines (testedLines passTx x.tx)).length → 8 ≤ (usableLines (testedLines passRx x.rx)).length →
    Does (.trainingComplete d port passTx passRx) s fun t => ∃ y, (t.die d).fab.ports[port.val]? = some y ∧
      (y.state = .up ∨ y.state = .degraded) ∧
      y.txMap = refitMap (testedLines passTx x.tx) (List.replicate 36 none) ∧ ∀ e, e ≠ d → t.die e = s.die e) ∧
  (∀ (s : State) (d : DieId) (port : Fin 16) (x : Port) (passTx passRx : Nat),
    (s.die d).fab.ports[port.val]? = some x → x.helloHeard = false →
    Does (.trainingComplete d port passTx passRx) s fun t => t = s) ∧
  (∀ (s : State) (d : DieId) (port : Fin 16) (x : Port), (s.die d).fab.ports[port.val]? = some x → x.state = .retrain →
    (s.die d).lowRate = false → (s.die d).fab.combLost = false → Does (.retrainComplete d port) s fun t =>
      ∃ y, (t.die d).fab.ports[port.val]? = some y ∧ y.state = x.upState ∧ y.txMap = x.txMap ∧
      ∀ e, e ≠ d → t.die e = s.die e) ∧
  (∀ (s : State) (d : DieId) (port : Fin 16), (s.die d).fab.combLost = true →
    Does (.retrainComplete d port) s fun t => t = s) ∧
  (∀ (s : State) (d : DieId) (port : Fin 16) (x : Port), (s.die d).fab.ports[port.val]? = some x → x.state = .retrain →
    Does (.portLossTimeout d port) s fun t => (∃ y, (t.die d).fab.ports[port.val]? = some y ∧ y.state = .down) ∧
      x.retrainAt + 1000000 * s.dset d 0x3000 9 ≤ t.tray.now ∧
      (t.die d).fab.portsLost = satAdd 32 (s.die d).fab.portsLost 1 ∧ ∀ e, e ≠ d → t.die e = s.die e) ∧
  (∀ (s : State) (d : DieId) (port : Fin 16) (x : Port), (s.die d).fab.ports[port.val]? = some x → x.state = .down →
    Does (.downPortRetry d port) s fun t => (t.die d).fab.ports[port.val]? =
        some { x with downAt := t.tray.now, helloHeard := false, mapHeard := false } ∧
      x.downAt + 1000000000 ≤ t.tray.now ∧ ∀ e, e ≠ d → t.die e = s.die e) ∧
  (∀ (s : State) (m : MasterId) (d : DieId) (v : Nat), GateTakes m ⟨0x3000, 2, d.val⟩ (leBytes 2 v) s →
    Does (.portEnableWrite m d v) s fun t => t.setting 0x3000 2 d.val = v % 256 ^ 2 ∧
      (∀ p x, p < 16 → (s.die d).fab.ports[p]? = some x → bit (v % 256 ^ 2) p = false →
        ∃ y, (t.die d).fab.ports[p]? = some y ∧ y.state = .off) ∧ ∀ e, e ≠ d → t.die e = s.die e) ∧
  (∀ (s : State) (d : DieId) (port : Fin 16) (x : Port), (s.die d).fab.ports[port.val]? = some x →
    x.state.carries = true → x.cal = none → Does (.framingLoss d port) s fun t =>
      (t.die d).fab.ports[port.val]? = some { x with state := .retrain, retrainAt := s.tray.now } ∧
      (t.die d).fab.retrains = satAdd 32 (s.die d).fab.retrains 1 ∧ DieOnly d s t)

/-- Calibration takes one line at a time out of service, in rotation, on the leader's word, and ends on the word of the
far end, which fails the line when it says so (R315); a timer ends it at 5 ms (R318). A weak line leaves service (R317).
The monitors and their baseline hold what was read (R319). -/
def Obligations.LineCalibration : Prop :=
  (∀ (s : State) (d : DieId) (port : Fin 16) (x : Port), (s.die d).fab.ports[port.val]? = some x →
    s.leads d port.val = true → x.state = .up → x.cal = none → (s.die d).svc.holding = none → hasReserve x.tx = true →
    hasReserve x.rx = true → 8 ≤ (usableLines (x.tx.modify x.calNext fun _ => .calibrating)).length →
    8 ≤ (usableLines (x.rx.modify x.calNext fun _ => .calibrating)).length → Does (.calibrationStart d port) s fun t =>
      ∃ y, (t.die d).fab.ports[port.val]? = some y ∧ y.cal = some (x.calNext, t.tray.now) ∧
        y.calNext = (x.calNext + 1) % 40 ∧ x.calAt + 1000000 * s.dset d 0x3000 8 ≤ t.tray.now ∧ ∀ e, e ≠ d → t.die e = s.die e) ∧
  (∀ (s : State) (d : DieId) (port : Fin 16) (x : Port) (line : Nat), (s.die d).fab.ports[port.val]? = some x →
    s.leads d port.val = false → x.state = .up → x.cal = none → line < 40 →
    8 ≤ (usableLines (x.tx.modify line fun _ => .calibrating)).length →
    8 ≤ (usableLines (x.rx.modify line fun _ => .calibrating)).length → Does (.calStart d port line) s fun t =>
      ∃ y, (t.die d).fab.ports[port.val]? = some y ∧ y.cal = some (line, s.tray.now) ∧ ∀ e, e ≠ d → t.die e = s.die e) ∧
  (∀ (s : State) (d : DieId) (port : Fin 16) (x : Port) (line : Nat) (failed : Bool) (at_ : Ns),
    (s.die d).fab.ports[port.val]? = some x → x.cal = some (line, at_) → Does (.calEnd d port line failed) s fun t =>
      ∃ y, (t.die d).fab.ports[port.val]? = some y ∧ y.cal = none ∧
        (failed = true → x.tx[line]? = some .calibrating → y.tx[line]? = some .failed) ∧
        ∀ e, e ≠ d → t.die e = s.die e) ∧
  (∀ (s : State) (d : DieId) (port : Fin 16) (x : Port) (line : Nat) (at_ : Ns),
    (s.die d).fab.ports[port.val]? = some x → x.cal = some (line, at_) → Does (.calTimeout d port) s fun t =>
      (∃ y, (t.die d).fab.ports[port.val]? = some y ∧ y.cal = none) ∧ at_ + 5000000 ≤ t.tray.now ∧
      ∀ e, e ≠ d → t.die e = s.die e) ∧
  (∀ (s : State) (d : DieId) (port : Fin 16) (x : Port) (line : Fin 40), (s.die d).fab.ports[port.val]? = some x →
    x.tx[line.val]? = some .reserve → x.cal = none → Does (.lineBerWeak d port false line) s fun t =>
      ∃ y, (t.die d).fab.ports[port.val]? = some y ∧ y.tx[line.val]? = some .weak ∧ ∀ e, e ≠ d → t.die e = s.die e) ∧
  (∀ (s : State) (m : MasterId) (d : DieId) (v : Nat), GateTakes m ⟨0x3000, 0xC, d.val⟩ (leBytes 1 v) s →
    (s.die d).fab.monitor ≠ [] → Does (.recordBaseline m d v) s fun t =>
      (t.die d).fab.baseline = some (s.die d).fab.monitor ∧ (t.die d).fab.ports = (s.die d).fab.ports ∧
      GateOnly ⟨0x3000, 0xC, d.val⟩ s t ∧ ∀ e, e ≠ d → t.die e = s.die e) ∧
  (∀ (s : State) (d : DieId) (port : Fin 16) (stages stage5 : List Int), (s.die d).fab.monitor.length = 690 →
    (s.port d port.val).state ≠ .up → Does (.statusSend d port stages stage5) s fun t =>
      (t.die d).fab.monitor.getD 0 0 = stages.getD 0 0 ∧ (t.die d).fab.monitor.getD (18 + port.val) 0 = stages.getD 3 0 ∧
      (∀ i, i < 40 → (t.die d).fab.monitor.getD (50 + 40 * port.val + i) 0 = stage5.getD i 0) ∧
      t.die d = { s.die d with fab := { (s.die d).fab with monitor := (t.die d).fab.monitor } } ∧ DieOnly d s t) ∧
  (∀ (s : State) (d : DieId) (port : Fin 16) (x : Port) (stage3 : Int) (stage5 : List Int),
    (s.die d).fab.ports[port.val]? = some x → (s.die d).svc.holding.isSome = true →
    Does (.status d port stage3 stage5) s fun t =>
      (t.die d).fab.ports[port.val]? = some { x with far := some (stage3, stage5) } ∧ DieOnly d s t)

/-- The link layer: a flit that cannot be read sends one NAK and is not taken (R323); an idle flit that acknowledges nothing
changes nothing; a data flit with the expected sequence moves the sequence on; a flit unacknowledged beyond 8 µs makes the port
retrain (R313, R323). A bad control record is discarded and counted (R340); one for another die is forwarded with fewer hops
(R342). -/
def Obligations.FlitsAndRecords : Prop :=
  (∀ (s : State) (d : DieId) (port : Fin 16) (x : Port) (bytes : List Byte) (fixed : Nat),
    (s.die d).fab.ports[port.val]? = some x → x.state = .up → readFlit bytes = none → x.nakSent = false →
    Does (.flitReceive d port bytes fixed) s fun t =>
      (t.die d).fab.ports[port.val]? = some { x with nakSent := true } ∧
      (t.die d).fab.corrected = satAdd 64 (s.die d).fab.corrected fixed ∧ (t.die d).til = (s.die d).til ∧
      DieSends d s t) ∧
  (∀ (s : State) (d : DieId) (port : Fin 16) (x : Port) (bytes : List Byte) (fixed : Nat) (f : FlitHead),
    (s.die d).fab.ports[port.val]? = some x → x.state = .up → readFlit bytes = some f → f.ty = 0 → f.nak = false →
    f.ackValid = false → Does (.flitReceive d port bytes fixed) s fun t =>
      t.die d = { s.die d with fab := { (s.die d).fab with
        corrected := satAdd 64 (s.die d).fab.corrected fixed } } ∧ DieOnly d s t) ∧
  (∀ (s : State) (d : DieId) (port : Fin 16) (x : Port) (bytes : List Byte) (fixed : Nat) (f : FlitHead),
    (s.die d).fab.ports[port.val]? = some x → x.state = .up → readFlit bytes = some f → f.ty = 1 → f.nak = false →
    f.ackValid = false → f.seq = x.rxSeq → x.rxNext = none → Does (.flitReceive d port bytes fixed) s fun t =>
      (∃ y, (t.die d).fab.ports[port.val]? = some y ∧ y.rxSeq = (x.rxSeq + 1) % 4096 ∧ y.nakSent = false) ∧
      (t.die d).til = (s.die d).til ∧ ∀ e, e ≠ d → t.die e = s.die e) ∧
  (∀ (s : State) (d : DieId) (port : Fin 16) (seq : Nat), (s.port d port.val).state.carries = true →
    Does (.nakReceive d port seq) s fun t =>
      t = ((s.takeNak d port.val seq).drainRecords d port.val).pumpPort d port.val) ∧
  (∀ (s : State) (d : DieId) (port : Fin 16) (x : Port) (r : Nat × List Byte × Ns) (rs : List (Nat × List Byte × Ns)),
    (s.die d).fab.ports[port.val]? = some x → x.replay = r :: rs → x.state.carries = true →
    Does (.replayTimeout d port) s fun t =>
      (∃ y, (t.die d).fab.ports[port.val]? = some y ∧ y.state = .retrain ∧ y.replay = x.replay) ∧
      r.2.2 + 8000 ≤ t.tray.now ∧ (t.die d).fab.retrains = satAdd 32 (s.die d).fab.retrains 1 ∧ DieNoted d s t) ∧
  (∀ (s : State) (d : DieId) (port : Option (Fin 16)) (bytes : List Byte), recordOk bytes = false →
    Does (.controlRecordForward d port bytes) s fun t =>
      t.die d = { s.die d with fab := { (s.die d).fab with
        ctrlDiscards := satAdd 32 (s.die d).fab.ctrlDiscards 1 } } ∧ DieOnly d s t) ∧
  (∀ (s : State) (d : DieId) (port : Option (Fin 16)) (bytes c : List Byte) (q : Nat), recordOk bytes = true →
    bit (bytes.getD 8 0#8).toNat 1 = false → bit (bytes.getD 8 0#8).toNat 0 = false →
    leNat ((bytes.drop 4).take 2) ≠ s.identity d → s.route d (leNat ((bytes.drop 4).take 2)) = q → q ≠ 0xFF →
    lessHop bytes = some c → Does (.controlRecordForward d port bytes) s fun t =>
      t = s.putRecord d q c ∧ DieSends d s t) ∧
  (∀ (s : State) (d : DieId) (port : Fin 16) (x : Port) (line : Nat), (s.die d).fab.ports[port.val]? = some x →
    x.state = .up → x.cal = none → Does (.lowrate d port false line) s fun t =>
      (t.die d).fab.ports[port.val]? = some { x with state := .low, lowLine := line } ∧ DieOnly d s t)

/-- Flows: a transit die installs an entry for an OPEN and takes a label (R327), the destination keeps an OPEN that nothing
matches yet (R328); OPEN_DONE opens the flow with its credit and CREDIT adds to it (R330, R333); a close flit frees the
destination's entry (R337); a lost flow is gone and counted (R338); a halted tenant loses its flows (R339). -/
def Obligations.Flows : Prop :=
  (∀ (s : State) (d : DieId) (port : Fin 16) (r : OpenRec) (l : Nat), r.idx < r.hops →
    (s.port d (routeNibble r.route r.idx)).freeLabel = some l → (s.port d (routeNibble r.route r.idx)).state = .up →
    Does (.open_ d port r) s fun t =>
      (∃ e ∈ (t.die d).fab.transit, e.inPort = port.val ∧ e.inLabel = r.label ∧ e.tenant = r.tenant ∧
        e.outPort = routeNibble r.route r.idx ∧ e.outLabel = l ∧ e.id = r.id) ∧
      (t.die d).til = (s.die d).til ∧ ∀ e, e ≠ d → t.die e = s.die e) ∧
  (∀ (s : State) (d : DieId) (port : Fin 16) (r : OpenRec), r.hops ≤ r.idx → r.group = s.groupNo d →
    ((s.die d).fab.rx.find? fun f => f.fits port.val r.tenant r.id r.source) = none →
    (s.die d).fab.pendOpen.length < 1024 → Does (.open_ d port r) s fun t =>
      t.die d = { s.die d with fab := { (s.die d).fab with pendOpen := (s.die d).fab.pendOpen ++
        [⟨port.val, r.tenant, r.id, r.group, r.source, r.dest, r.label⟩] } } ∧ DieOnly d s t) ∧
  (∀ (s : State) (d : DieId) (t id allot : Nat), Does (.openDone d t id allot) s fun u =>
    u = (s.modTx d fun fs => fs.map fun f =>
      if f.is t id ∧ !f.opened then { f with opened := true, credit := allot } else f).pump d t id ∧
    (u.die d).til = (s.die d).til) ∧
  (∀ (s : State) (d : DieId) (t id n : Nat), Does (.credit d t id n) s fun u =>
    u = (s.modTx d fun fs => fs.map fun f => if f.is t id then { f with credit := f.credit + n } else f).pump d t id ∧
    (u.die d).til = (s.die d).til) ∧
  (∀ (s : State) (d : DieId) (port : Fin 16) (label t : Nat) (r : RxFlow), (s.die d).fab.transitAt port.val label = none →
    (s.die d).fab.rxAt port.val label = some r → r.tenant = t → Does (.closeFlit d port label t) s fun u =>
      u.die d = { s.die d with fab := { (s.die d).fab with
        rx := (s.die d).fab.rx.map fun g => if g == r then { g with label := none } else g } } ∧ DieOnly d s u) ∧
  (∀ (s : State) (d : DieId) (t id cause : Nat), (∃ f ∈ (s.die d).fab.tx, f.is t id = true) →
    Does (.flowlost d t id cause) s fun u => (∀ f ∈ (u.die d).fab.tx, f.is t id = false) ∧
      (∀ f ∈ (u.die d).fab.rx, f.is t id = false) ∧
      (u.die d).fab.flowsLost = satAdd 32 (s.die d).fab.flowsLost 1 ∧ ∀ e, e ≠ d → u.die e = s.die e) ∧
  (∀ (s : State) (d : DieId) (t : Nat) (ids : List Nat), s.identity d ∈ ids → Does (.tenantHalt d t false ids) s fun u =>
    (∀ f ∈ (u.die d).fab.tx, f.tenant ≠ t) ∧ (∀ f ∈ (u.die d).fab.rx, f.tenant ≠ t) ∧
    ∀ e, e ≠ d → u.die e = s.die e)

/-! ### Scout banks (chapter 13) -/

/-- The reference rings move every bank's zero and end the window (R351, R370); a bank whose rings cannot lock fails and
is reported; a tap that lost no more than 12 dB leaves a bank in its state and says whether it lost more than 6 dB (R358).
A recalibration rebuilds the table and keeps the bank free (R368), and the command recalibrates the free banks of its
mask; start-up builds the tables of every bank (R514). -/
def Obligations.ScoutBanks : Prop :=
  (∀ (s : State) (d : DieId) (b : Fin 8) (k : Bank) (change : List Int), (s.die d).sct.banks[b.val]? = some k →
    Does (.refRingUpdate d b change true) s fun t =>
      (t.die d).sct.banks[b.val]? = some { k with
        refSum := k.refSum + (change.take 4).foldl (· + ·) 0, window := false } ∧
      (∀ i, i ≠ b.val → (t.die d).sct.banks[i]? = (s.die d).sct.banks[i]?) ∧ DieOnly d s t) ∧
  (∀ (s : State) (d : DieId) (b : Fin 8) (k : Bank) (change : List Int), (s.die d).sct.banks[b.val]? = some k →
    k.window = false → k.state = .free → k.failPending = false → Does (.refRingUpdate d b change false) s fun t =>
      (t.die d).sct.banks[b.val]? = some { k with state := .failed, holder := none } ∧
      Reported t s d.val 0x3101 [BitVec.ofNat 8 b.val] ∧ DieNoted d s t) ∧
  (∀ (s : State) (d : DieId) (b : Fin 8) (k : Bank) (dbm : Int), (s.die d).sct.banks[b.val]? = some k →
    ¬ 1200 < ({ k with tap := dbm } : Bank).loss d b.val → Does (.tapPowerMeasure d b dbm) s fun t =>
      (∃ k', (t.die d).sct.banks[b.val]? = some k' ∧ k'.tap = dbm ∧ k'.tapT = (s.bankTemp d b.val).getD k.tapT ∧ k'.dark = false ∧
        k'.degraded = decide (600 < k'.loss d b.val) ∧ k'.state = k.state) ∧ DieOnly d s t) ∧
  (∀ (s : State) (d : DieId) (b : Fin 8) (k : Bank) (d0 gain : List Nat), (s.die d).sct.banks[b.val]? = some k →
    k.state = .free → (s.die d).svc.holding = none → Does (.bankRecalibration d b d0 gain true) s fun t =>
      (∃ k', (t.die d).sct.banks[b.val]? = some k' ∧ k'.d0 = d0 ∧ k'.gain = gain ∧ k'.refSum = 0 ∧
        k'.state = .free ∧ k'.tapBase = k.tap) ∧ ∀ e, e ≠ d → t.die e = s.die e) ∧
  (∀ (s : State) (m : MasterId) (d : DieId) (v : Nat), GateTakes m ⟨0x3100, 0xA, d.val⟩ (leBytes 1 v) s →
    Does (.recalibrateNow m d v) s fun t =>
      (∀ i k, (s.die d).sct.banks[i]? = some k → (t.die d).sct.banks[i]? =
        some (if bit (v % 256 ^ 1) i = true ∧ k.state = .free then { k with state := .recal } else k)) ∧
      GateOnly ⟨0x3100, 0xA, d.val⟩ s t ∧ ∀ e, e ≠ d → t.die e = s.die e) ∧
  (∀ (s : State) (d : DieId) (d0 gain : List (List Nat)), (s.die d).svc.state = .starting → (s.die d).rails.vhtr = true →
    (s.die d).sct.tablesBuilt = false → Does (.scoutCalibrationTablesBuilt d d0 gain) s fun t =>
      (t.die d).sct.tablesBuilt = true ∧
      (∀ i k, (s.die d).sct.banks[i]? = some k → ∃ k', (t.die d).sct.banks[i]? = some k' ∧
        k'.d0 = d0.getD i [] ∧ k'.gain = gain.getD i [] ∧ k'.window = k.window ∧
        k'.state = (if (s.die d).clk.enables.getLsbD (6 + i) then .free else .gated)) ∧
      (t.die d).til = (s.die d).til ∧ ∀ e, e ≠ d → t.die e = s.die e)

/-! ### Writes of the clocks (chapter 03) -/

/-- The preferred reference is always stored and relocks RL only to another, ready input (R38); the enable bits gate the
servo, the composer and the scout banks with the clocks; the monitor output takes a source and a divider together only where
they stay within 250 MHz (R56), and one die at most drives it, while its CLKMON bit is set (R57). A register of a gated block
reads 0 and takes no write, its identity word too, which ends in 0x5A while the block is clocked (R50, R51). -/
def Obligations.ClockWrites : Prop :=
  (∀ (s : State) (m : MasterId) (d : DieId) (v : Nat) (r : RefIn), GateTakes m ⟨0x5000, 1, d.val⟩ (leBytes 1 v) s → v < 2 →
    r = (if v = 0 then .xa else .xb) → Does (.preferredRefWrite m d v) s fun t =>
      t.die d = { s.die d with clk := { (s.die d).clk with
        preferred := r, relockTo := (t.die d).clk.relockTo, switchStatus := (t.die d).clk.switchStatus } } ∧
      ((s.die d).clk.relockTo = none → (s.die d).clk.refInUse = r → (s.die d).clk.holdover = false →
        (t.die d).clk.relockTo = none ∧ (t.die d).clk.switchStatus = (s.die d).clk.switchStatus) ∧
      ((s.die d).clk.relockTo = none → (s.die d).clk.refInUse ≠ r ∨ (s.die d).clk.holdover = true →
        (s.die d).clk.refReady r = true → (t.die d).clk.relockTo = some r ∧ (t.die d).clk.switchStatus = 2) ∧
      ((s.die d).clk.relockTo = none → (s.die d).clk.refInUse ≠ r ∨ (s.die d).clk.holdover = true →
        (s.die d).clk.refReady r = false → (t.die d).clk.relockTo = none ∧ (t.die d).clk.switchStatus = 1) ∧
      GateOnly ⟨0x5000, 1, d.val⟩ s t ∧ ∀ e, e ≠ d → t.die e = s.die e) ∧
  (∀ (s : State) (m : MasterId) (d : DieId) (v : Nat), GateTakes m ⟨0x5000, 5, d.val⟩ (leBytes 4 v) s → v < 2 ^ 32 →
    Does (.clockEnableWrite m d v) s fun t =>
      (t.die d).clk = { (s.die d).clk with enables := BitVec.ofNat 32 v } ∧
      (bit v 1 = false → (t.die d).srv = { (s.die d).srv with running := none }) ∧
      (bit v 4 = false → (t.die d).cmp = { (s.die d).cmp with running := false, frame := none }) ∧
      (∀ (i : Nat) (b : Bank), (s.die d).sct.banks[i]? = some b →
        (t.die d).sct.banks[i]? = some (b.enable (bit v (6 + i)))) ∧
      (bit v 14 = false → GateOnly ⟨0x5000, 5, d.val⟩ s t ∧ ∀ e, e ≠ d → t.die e = s.die e)) ∧
  (∀ (s : State) (m : MasterId) (d : DieId) (sub v src k : Nat), GateTakes m ⟨0x5000, sub, d.val⟩ (leBytes 1 v) s →
    sub = 6 ∨ sub = 7 → v < 256 → src = (if sub = 6 then v else (s.die d).clk.monSrc) →
    k = (if sub = 6 then (s.die d).clk.monK else v) → Does (.clkmonSelectWrite m d sub v) s fun t =>
      (clkmonKhz.getD src 0 ≤ 250000 * 2 ^ k →
        t.die d = { s.die d with clk := { (s.die d).clk with monSrc := src, monK := k } }) ∧
      (250000 * 2 ^ k < clkmonKhz.getD src 0 → t.die d = { s.die d with clk := { (s.die d).clk with switchStatus := 3 } }) ∧
      GateOnly ⟨0x5000, sub, d.val⟩ s t ∧ ∀ e, e ≠ d → t.die e = s.die e) ∧
  (∀ (s : State) (m : MasterId) (d : DieId) (v : Nat), GateTakes m ⟨0x5000, 8, d.val⟩ (leBytes 1 v) s → v < 2 →
    Does (.clkmonDriveWrite m d v) s fun t =>
      t.die d = { s.die d with clk := { (s.die d).clk with monDrive := v == 1 } } ∧
      (∀ e, e ≠ d → t.die e = { s.die e with clk := { (s.die e).clk with
        monDrive := if v = 1 then false else (s.die e).clk.monDrive } }) ∧ GateOnly ⟨0x5000, 8, d.val⟩ s t ∧
      (v = 1 → t.clkmonOut = if (s.die d).clk.enables.getLsbD 15 = true
        then some (d, (s.die d).clk.monSrc, (s.die d).clk.monK) else none)) ∧
  (∀ (c : Clk) (b off : Nat) (v : BitVec 32),
    (c.enables.getLsbD b = false → c.blockRead b off = 0 ∧ c.blockWrite b off v = c) ∧
    (c.enables.getLsbD b = true → (c.blockRead b 0).setWidth 8 = 0x5A#8 ∧ c.blockRead b 0 ≠ 0 ∧
      (off ≠ 0 → (c.blockWrite b off v).blockRead b off = v ∧
        ∀ off', off' ≠ off → (c.blockWrite b off v).blockRead b off' = c.blockRead b off')))

/-! ### Commands that stop, start and freeze (chapters 16, 19, 20, 23) -/

/-- The resets (R435, R539, R537), the entry into Frost (R541) and the thaw (R544, R546) by command, the discarded vault save
(R566) and the power-down of the tray (R625). -/
def Obligations.ResetFrostAndPowerCommands : Prop :=
  (∀ (s : State) (m : MasterId) (v : Nat), GateTakes m ⟨0x1500, 7, 0xF⟩ (leBytes 1 v) s → s.tray.hold.onHoldup = false →
    Does (.trayColdReset m v) s fun t =>
      (∀ d, (t.die d).svc.state = (if (s.die d).heat.latched then .latched else .off) ∧ (t.die d).til.runs = [] ∧
        (t.die d).rails.vio = false ∧ (t.die d).op.trim = (s.die d).op.trim) ∧
      (∀ n, t.master n = {}) ∧ (∀ p, t.pf p = {}) ∧ t.vfs = [] ∧ t.tenants = [] ∧ t.ctxs = [] ∧
      t.tray.leg.settings = s.tray.leg.persistNow.nv ∧ t.tray.mor = s.tray.mor ∧
      (s.tray.leg.acks = [] → t.outputs = s.outputs)) ∧
  (∀ (s : State) (m : MasterId) (v : Nat), GateTakes m ⟨0x1500, 7, 0xF⟩ (leBytes 1 v) s → s.tray.hold.onHoldup = true →
    s.tray.hold.saving = true → s.tray.fw.resetDue = false → Does (.trayColdReset m v) s fun t =>
      t.tray.hold = s.tray.hold ∧ t.dies = s.dies ∧ GateTray s t) ∧
  (∀ (s : State) (m : MasterId) (d : DieId) (v : Nat), GateTakes m ⟨0x6000, 0xB, d.val⟩ (leBytes 1 v) s →
    Does (.diePowerCycle m d v) s fun t =>
      (s.tray.pow.down = false → (s.die d).svc.heldOff = true ∨ (s.die d).svc.state = .starting ∨
        (s.die d).svc.state = .running ∨ (s.die d).svc.state = .frost →
        (t.die d).svc.state = .starting ∧ (t.die d).svc.step = 6 ∧ (t.die d).svc.heldOff = false ∧
        (t.die d).rails.vio = false ∧ (t.die d).rails.vcore = false ∧ (t.die d).til.runs = [] ∧ (t.die d).til.sram = []) ∧
      (s.tray.pow.down = true → t = s.atTick) ∧
      ((s.die d).svc.heldOff = false → (s.die d).svc.state ≠ .starting → (s.die d).svc.state ≠ .running →
        (s.die d).svc.state ≠ .frost → t = s.atTick)) ∧
  (∀ (s : State) (m : MasterId) (d : DieId) (v : Nat), GateTakes m ⟨0x6000, 0xA, d.val⟩ (leBytes 1 v) s →
    Does (.dieWarmReset m d v) s fun t =>
      ((s.die d).svc.state = .running ∨ (s.die d).svc.state = .frost →
        (t.die d).svc.warm = true ∧ (t.die d).svc.govRuns = false ∧ (t.die d).svc.step = 7 ∧
        (t.die d).rails.avsFault = false ∧ (t.die d).pow.phases = [] ∧ (t.die d).clk.rlReady = false ∧
        (t.die d).clk.opllReady = false ∧ ∀ b ∈ (t.die d).sct.banks, b.state ≠ .free) ∧
      ((s.die d).svc.state ≠ .running → (s.die d).svc.state ≠ .frost → t = s.atTick)) ∧
  (∀ (s : State) (m : MasterId) (d : DieId) (v : Nat), GateTakes m ⟨0x7000, 1, d.val⟩ (leBytes 1 v) s →
    (s.die d).svc.state = .running → (s.die d).frost.state = .running → Does (.enterFrost m d v) s fun t =>
      t.die d = { s.die d with
        frost := { (s.die d).frost with
          state := if (s.die d).til.runs.isEmpty then .entering else .stopPending, cause := .command,
          requestAt := t.tray.now, enterAt := t.tray.now, thawKept := false }
        til := { (s.die d).til with runs := (s.die d).til.runs.map fun r => { r with stop := .haltPoint } } } ∧
      GateOnly ⟨0x7000, 1, d.val⟩ s t ∧ ∀ e, e ≠ d → t.die e = s.die e) ∧
  (∀ (s : State) (m : MasterId) (v : Nat), GateTakes m ⟨0x1400, 0x10, 0xF⟩ (leBytes 1 v) s →
    Does (.enterFrostTray m v) s fun t => ∀ d, (s.die d).svc.state = .running → (s.die d).frost.state = .running →
      (t.die d).frost.state = (if (s.die d).til.runs.isEmpty then .entering else .stopPending) ∧
      (t.die d).til.runs = (s.die d).til.runs.map fun r => { r with stop := .haltPoint }) ∧
  (∀ (s : State) (m : MasterId) (d : DieId) (v : Nat), GateTakes m ⟨0x7000, 2, d.val⟩ (leBytes 1 v) s →
    (s.tray.hold.onHoldup = true → (s.die d).frost.cause ≠ .holdup) → (s.die d).svc.state ≠ .flowHalt →
    Does (.thaw m d v) s fun t =>
      ((s.die d).frost.state = .frozen → (s.die d).svc.holding = none →
        (t.die d).frost.state = .thawing ∧ (t.die d).frost.thawAt = t.tray.now ∧ (t.die d).rails.vcore = true ∧
        (t.die d).rails.retention = false ∧
        (t.die d).clk.enables = (s.die d).clk.enablesKept.getD (s.die d).clk.enables) ∧
      ((s.die d).frost.state = .stopPending → (t.die d).frost = { (s.die d).frost with state := .running } ∧
        ∀ r ∈ (t.die d).til.runs, r.stop = .none ∧ r.halted = false) ∧
      ((s.die d).frost.state = .entering → (t.die d).frost = { (s.die d).frost with thawKept := true })) ∧
  (∀ (s : State) (m : MasterId) (v : Nat), GateTakes m ⟨0x1400, 0x11, 0xF⟩ (leBytes 1 v) s → s.tray.hold.onHoldup = false →
    Does (.thawTray m v) s fun t => ∀ d, (s.die d).svc.state ≠ .flowHalt → (s.die d).frost.state = .frozen →
      (s.die d).svc.holding = none → (t.die d).frost.state = .thawing) ∧
  (∀ (s : State) (m : MasterId) (v : Nat), GateTakes m ⟨0x1400, 0xC, 0xF⟩ (leBytes 1 v) s →
    Does (.discardVaultSave m v) s fun t =>
      t.tray.hold = { s.tray.hold with save := none } ∧ t.tray.fw = s.tray.fw ∧ GateTray s t) ∧
  (∀ (s : State) (m : MasterId) (v : Nat), GateTakes m ⟨0x1200, 0x10, 0xF⟩ (leBytes 1 v) s →
    Does (.trayPowerDown m v) s fun t =>
      t.tray.pow.down = true ∧ t.tray.fw.trayReady = false ∧ t.tray.hold.charging = false ∧
      ∀ d, (t.die d).svc.state = (if (s.die d).heat.latched then .latched else .off) ∧ (t.die d).rails.vio = false)

/-! ### Firmware images (chapter 21) -/

/-- The delivery of an image: the chunk number (R574), a chunk, which opens a delivery after a 0, the staging with its checks
(R575), and the activation (R576). -/
def Obligations.ImageDelivery : Prop :=
  (∀ (s : State) (m : MasterId) (v : Nat), GateTakes m ⟨0x1600, 1, 0xF⟩ (leBytes 2 v) s → v < 65536 →
    Does (.imageChunkNumberWrite m v) s fun t =>
      (v = 0 → s.tray.fw.status ≠ 4 → s.tray.fw.rollBack = false →
        t.tray.fw = { s.tray.fw with chunkNo := 0, opening := true } ∧ t.tray.hold = s.tray.hold ∧ GateTray s t) ∧
      (v = s.tray.fw.chunkNo → v ≠ 0 ∨ s.tray.fw.status = 4 ∨ s.tray.fw.rollBack = true →
        t.tray.fw = s.tray.fw ∧ t.tray.hold = s.tray.hold ∧ GateTray s t) ∧
      (v ≠ s.tray.fw.chunkNo → v ≠ 0 → t = s.atTick)) ∧
  (∀ (s : State) (m : MasterId) (v : List Byte), GateTakes m ⟨0x1600, 2, 0xF⟩ v s → Does (.imageChunk m v) s fun t =>
    (s.tray.fw.status = 4 ∨ s.tray.fw.rollBack = true → t = s.atTick) ∧
    (s.tray.fw.status ≠ 4 → s.tray.fw.rollBack = false → s.tray.fw.chunkNo < 4096 →
      t.tray.fw.chunkNo = s.tray.fw.chunkNo + 1 ∧ KV.get? t.tray.fw.chunks s.tray.fw.chunkNo = some v ∧
      (s.tray.fw.opening = true → t.tray.fw.status = 1 ∧ t.tray.fw.slot s.tray.fw.freeSlot = .empty ∧
        t.tray.fw.opening = false ∧ ∀ i, i ≠ s.tray.fw.chunkNo → KV.get? t.tray.fw.chunks i = none) ∧
      (s.tray.fw.opening = false → t.tray.fw = { s.tray.fw with
        chunkNo := s.tray.fw.chunkNo + 1, chunks := t.tray.fw.chunks }) ∧
      t.tray.hold = s.tray.hold ∧ GateTray s t)) ∧
  (∀ (s : State) (m : MasterId) (v : Nat), GateTakes m ⟨0x1600, 3, 0xF⟩ (leBytes 4 v) s → v < 2 ^ 32 →
    s.tray.fw.status ≠ 4 → s.tray.fw.rollBack = false → Does (.stageImage m v) s fun t =>
      t.tray.fw = { s.tray.fw with stageLen := v, status := 2 } ∧ t.tray.hold = s.tray.hold ∧ GateTray s t) ∧
  (∀ (s : State) (r : StageResult), s.tray.fw.status = 2 → Does (.stagingComplete r) s fun t =>
    (s.tray.fw.stageCode r = 0 → t.tray.fw.slot s.tray.fw.freeSlot = .staged ∧ t.tray.fw.status = 3 ∧
      t.tray.fw.otherRelease = r.release ∧ t.tray.fw.otherDigest = r.digest ∧ t.tray.fw.stagedFloor = r.floor) ∧
    (s.tray.fw.stageCode r ≠ 0 → t.tray.fw.slot s.tray.fw.freeSlot = .invalid ∧ t.tray.fw.status = 6 ∧
      t.tray.fw.result = s.tray.fw.stageCode r) ∧
    t.tray.fw.slot (!s.tray.fw.freeSlot) = s.tray.fw.slot (!s.tray.fw.freeSlot) ∧
    t = { s with tray := { s.tray with fw := t.tray.fw } }) ∧
  (∀ (f : Firmware) (r : StageResult), f.stageCode r = 0 →
    (∀ i, i < ceilDiv f.stageLen 65536 → (KV.get? f.chunks i).isSome = true) ∧ r.headerOk = true ∧ r.sigOk = true ∧
    f.floor ≤ r.security ∧ r.oldest ≤ f.release) ∧
  (∀ (s : State) (m : MasterId) (v : Nat), GateTakes m ⟨0x1600, 4, 0xF⟩ (leBytes 1 v) s →
    s.tray.fw.slot s.tray.fw.freeSlot = .staged → s.tray.fw.trayReady = true → s.tray.fw.status ≠ 4 →
    s.tray.fw.rollBack = false → (∀ d, (s.die d).svc.holding = none) → Does (.activateStagedImage m v) s fun t =>
      t.tray.fw = { s.tray.fw with
        status := 4, handAt := some (t.tray.now + 20000000), nextDie := none, confirmFrom := none } ∧
      t.tray.hold = s.tray.hold ∧ GateTray s t) ∧
  (∀ (s : State) (m : MasterId) (v : Nat), GateTakes m ⟨0x1600, 4, 0xF⟩ (leBytes 1 v) s →
    s.tray.fw.slot s.tray.fw.freeSlot ≠ .staged ∨ s.tray.fw.trayReady = false ∨ s.tray.fw.status = 4 ∨
      s.tray.fw.rollBack = true ∨ (∃ d, (s.die d).svc.holding.isSome = true) →
    Does (.activateStagedImage m v) s fun t => t = s.atTick)

/-! ### The Legend (chapter 14) -/

/-- A write that LEGEND_WRITE carries takes effect by its object's own rule when the gate takes it (R402); of two writes
of the hold time that meet, that of the lower master number stands and the other counts as a conflict (R396). The commit
stores what every persistent object will hold, and answers the writes whose effect is in force; a failed one counts, is
reported, and stores nothing (R383, R384). -/
def Obligations.LegendWritesAndCommit : Prop :=
  (∀ (s : State) (m : MasterId) (w : GateOp), GateTakes m ⟨w.idx, w.sub, w.sel⟩ w.value s → Does (.legendWrite m w []) s
    fun t => t = (gateEnd m ⟨w.idx, w.sub, w.sel⟩ w.value
      (s.atTick.applyWrite m ⟨w.idx, w.sub, w.sel⟩ w.value)).finishReset) ∧
  (∀ (s : State) (m n : MasterId) (v v2 : List Byte), m ≠ n → GateTakes m ⟨0x1400, 1, 0xF⟩ v s →
    s.atTick.writeCheck n ⟨0x1400, 1, 0xF⟩ v2 = none → s.tray.fw.resetDue = false → s.tray.hold.onHoldup = false →
    Does (.legendWrite m ⟨0x1400, 1, 0xF, v⟩ [(n, v2)]) s fun t =>
      t.setting 0x1400 1 0xF = leNat (if m ≤ n then v else v2) ∧
      t.tray.leg.conflicts = satAdd 32 s.tray.leg.conflicts 1 ∧ t.dies = s.dies) ∧
  (∀ (s : State), s.tray.fw.running = true → s.tray.fw.restarting = false → Does (.persistentCommit true) s fun t =>
    t.tray.leg.nv = s.tray.leg.persistNow.nv ∧ (∀ a ∈ t.tray.leg.acks, a.effect = false) ∧
    t.tray.leg.settings = s.tray.leg.settings ∧ t.dies = s.dies) ∧
  (∀ (s : State), s.tray.fw.running = true → s.tray.fw.restarting = false → Does (.persistentCommit false) s fun t =>
    t.tray.leg.nv = s.tray.leg.nv ∧ t.tray.leg.commitFailures = satAdd 32 s.tray.leg.commitFailures 1 ∧
    t.tray.leg.acks = s.tray.leg.acks.filter (fun a => !a.commit) ∧ Reported t s 0xF 0x1503 [] ∧ t.dies = s.dies)

/-- Password and key: a first password is taken from a session by signature and from no other (R388), and is kept as a
salt of 16 bytes and the hash; a key is taken when it is a point of the curve, and one that replaces another from a
session by signature (R393). A lockout ends with the count at 0 (R389), a session when its time is over (R394) or all are
ended (R387). A tenant map that names no tenant twice is stored (R436). -/
def Obligations.PasswordsAndSessions : Prop :=
  (∀ (s : State) (m : MasterId) (v : List Byte), GateTakes m ⟨0x1100, 5, 0xF⟩ v s →
    (s.tray.leg.password = none → s.bySignature m = true) → Does (.sitePasswordWrite m v) s fun t =>
      (∃ salt : List Byte, salt.length = 16 ∧ t.tray.leg.password = some (salt, sha384 (salt ++ v))) ∧ t.dies = s.dies) ∧
  (∀ (s : State) (m : MasterId) (v : List Byte), GateTakes m ⟨0x1100, 5, 0xF⟩ v s →
    s.tray.leg.password = none → s.bySignature m = false → Does (.sitePasswordWrite m v) s fun t => t = s.atTick) ∧
  (∀ (s : State) (m : MasterId) (v : List Byte), GateTakes m ⟨0x1100, 7, 0xF⟩ v s →
    (s.tray.leg.unlockKey.isSome = true → s.bySignature m = true) → Does (.unlockKeyWrite m v) s fun t =>
      t.tray.leg.unlockKey = (if Config.isPoint v = true then some v else s.tray.leg.unlockKey) ∧ t.dies = s.dies) ∧
  (∀ (s : State) (e : Ns), s.tray.leg.lockoutEnd = some e → Does .lockoutEnd s fun t =>
    t.tray.leg = { s.tray.leg with lockoutEnd := none, pwFailures := 0 } ∧ e ≤ t.accNow ∧ TrayOnly s t) ∧
  (∀ (s : State) (m : MasterId) (e : Session), (s.master m).session = some e → Does (.sessionExpire m) s fun t =>
    (t.master m).session = none ∧ e.ends ≤ t.tray.now ∧ t.dies = s.dies ∧ ∀ n, n ≠ m → t.master n = s.master n) ∧
  (∀ (s : State) (m : MasterId) (v : Nat), GateTakes m ⟨0x1100, 0xC, 0xF⟩ (leBytes 1 v) s →
    Does (.endAllExpertSessions m v) s fun t =>
      (∀ n : MasterId, n ≠ 0 → (t.master n).session = none) ∧ t.dies = s.dies) ∧
  (∀ (s : State) (m : MasterId) (v : List Byte), GateTakes m ⟨0x1000, 0x10, 0xF⟩ v s →
    (((chunksOf 2 v).map leNat).filter fun e => e != 0xFFFF).Nodup → Does (.tenantMapWrite m v) s fun t =>
      t.setting 0x1000 0x10 0xF = leNat v ∧ GateOnly ⟨0x1000, 0x10, 0xF⟩ s t ∧ t.dies = s.dies)

/-! ### Field network and Legend Access Protocol (chapter 15) -/

/-- Reads and block transfers of a new request: the value, USE_BLOCK for one that does not fit, the reason why it cannot be
read (R414); the first segment of a snapshot (R415); a first write segment opens an assembly (R417); writes and commands go
to the gate (R402, R403); a service no table lists is UNKNOWN_SERVICE (R425). A datagram that R408 does not let in changes nothing; a
response goes to the source address and port of its request. -/
def Obligations.LapServices : Prop :=
  (∀ (s : State) (m : MasterId) (g : Datagram) (f v : List Byte), Carries g f → NewRequest m f s → fService f = 0x01 →
    (s.accepted m g).readObj m (fKey f) = .ok v → v.length ≤ 1312 → Does (.read m g) s fun t =>
      t = (s.accepted m g).respond m 1 (fSeq f) (fKey f) rcOk 0 v ∧ MasterSends m s t) ∧
  (∀ (s : State) (m : MasterId) (g : Datagram) (f v : List Byte), Carries g f → NewRequest m f s → fService f = 0x01 →
    (s.accepted m g).readObj m (fKey f) = .ok v → v.length ≤ 1312 → s.peerOf m (fSeq f) = none → Does (.read m g) s fun t =>
      (∃ bytes, t.outputs = .lap m (some ⟨g.src, g.sport⟩) bytes :: s.outputs) ∧ t.peerOf m (fSeq f) = none) ∧
  (∀ (s : State) (m : MasterId) (g : Datagram) (f v : List Byte), Carries g f → NewRequest m f s → fService f = 0x01 →
    (s.accepted m g).readObj m (fKey f) = .ok v → 1312 < v.length → Does (.read m g) s fun t =>
      t = (s.accepted m g).respond m 1 (fSeq f) (fKey f) rcUseBlock 0 [] ∧ MasterSends m s t) ∧
  (∀ (s : State) (m : MasterId) (g : Datagram) (f : List Byte) (c : Nat), Carries g f → NewRequest m f s → fService f = 0x01 →
    (s.accepted m g).readObj m (fKey f) = .error c → Does (.read m g) s fun t =>
      t = (s.accepted m g).respond m 1 (fSeq f) (fKey f) c 0 [] ∧ MasterSends m s t) ∧
  (∀ (s : State) (m : MasterId) (g : Datagram) (f v : List Byte), Carries g f → NewRequest m f s → fService f = 0x03 →
    (s.accepted m g).readObj m (fKey f) = .ok v → fField f 16 4 = 0 → 0 < fField f 20 2 → fField f 20 2 ≤ 1024 →
    fField f 20 2 ≤ v.length → Does (.readBlock m g) s fun t =>
      (t.master m).snapshot = some (fKey f, v, ((s.master m).snapNo + 1) % 2 ^ 32, s.tray.now) ∧
      t = ((s.accepted m g).modMaster m fun x => { x with
        snapNo := ((s.master m).snapNo + 1) % 2 ^ 32
        snapshot := some (fKey f, v, ((s.master m).snapNo + 1) % 2 ^ 32, s.tray.now) }).respond m 3 (fSeq f) (fKey f) rcOk 0
          (leBytes 4 (((s.master m).snapNo + 1) % 2 ^ 32) ++ leBytes 4 v.length ++ v.take (fField f 20 2)) ∧
      MasterSends m s t) ∧
  (∀ (s : State) (m : MasterId) (g : Datagram) (f : List Byte), Carries g f → NewRequest m f s → fService f = 0x04 →
    (s.accepted m g).segmentCheck m (fKey f) = none → fField f 16 4 ≤ 65536 → fField f 20 4 = 0 →
    ((fBody f).drop 8).length = 1024 → 1024 < fField f 16 4 → Does (.writeBlock m g) s fun t =>
      (t.master m).assembly = some (fKey f, fField f 16 4, (fBody f).drop 8, s.tray.now) ∧
      t = ((s.accepted m g).modMaster m fun x => { x with
        assembly := some (fKey f, fField f 16 4, (fBody f).drop 8, s.tray.now) }).respond m 4 (fSeq f) (fKey f) rcSegmentOk 0
          [] ∧ MasterSends m s t) ∧
  (∀ (s : State) (m : MasterId) (g : Datagram) (f : List Byte) (o : Obj), Carries g f → NewRequest m f s → fService f = 0x02 →
    objOf (fKey f) = some o → o.access ≠ .cmd → Does (.write m g) s fun t =>
      t = ((s.accepted m g).submit m ⟨fKey f, fBody f, some (fSeq f, 2)⟩).finishReset) ∧
  (∀ (s : State) (m : MasterId) (g : Datagram) (f : List Byte) (o : Obj), Carries g f → NewRequest m f s → fService f = 0x02 →
    objOf (fKey f) = some o → o.access = .cmd → Does (.write m g) s fun t =>
      t = (s.accepted m g).respond m 2 (fSeq f) (fKey f) rcWrongService 0 [] ∧ MasterSends m s t) ∧
  (∀ (s : State) (m : MasterId) (g : Datagram) (f : List Byte) (o : Obj), Carries g f → NewRequest m f s → fService f = 0x05 →
    objOf (fKey f) = some o → o.access = .cmd → Does (.command m g) s fun t =>
      t = ((s.accepted m g).submit m ⟨fKey f, fBody f, some (fSeq f, 5)⟩).finishReset) ∧
  (∀ (s : State) (m : MasterId) (g : Datagram) (f : List Byte), Carries g f → NewRequest m f s → knownService (fService f) = false →
    Does (.unknownService m g) s fun t =>
      t = (s.accepted m g).respond m (fService f) (fSeq f) (fKey f) rcUnknownService 0 [] ∧ MasterSends m s t) ∧
  (∀ (s : State) (m : MasterId) (g : Datagram), m ≠ 3 → g.taken = false → s.tray.fw.resetDue = false →
    Does (.unknownService m g) s fun t => t = s)

/-- Opening and closing an Expert session: a challenge leaves a fresh nonce of 16 bytes (R391); a response by password
during a lockout is LOCKED_OUT, one without a nonce fails and counts, and one by signature uses up the nonce, opens the
session when the point and the signature are good, and fails and counts when the point is not one of the curve (R390,
R392, R640); LOCK ends the session (R387). -/
def Obligations.ExpertSessions : Prop :=
  (∀ (s : State) (m : MasterId) (g : Datagram) (f : List Byte), Carries g f → NewRequest m f s → fService f = 0x08 → Does (.unlockChallenge m g) s
    fun t => (∃ nc, (t.master m).nonce = some nc ∧ nc.at_ = s.tray.now ∧ nc.bytes.length = 16) ∧
      (t.master m).session = (s.master m).session ∧ t.dies = s.dies ∧ t.tray = s.tray ∧
      ∀ n, n ≠ m → t.master n = s.master n) ∧
  (∀ (s : State) (m : MasterId) (g : Datagram) (f : List Byte) (e : Ns), Carries g f → NewRequest m f s → fService f = 0x09 →
    s.tray.leg.lockoutEnd = some e → s.accNow < e → fByte f 16 = 0 → s.unlockBody f = none →
    Does (.unlockResponse m g) s fun t =>
      t = (s.accepted m g).respond m 9 (fSeq f) (fKey f) rcLockedOut 0 [] ∧ MasterSends m s t) ∧
  (∀ (s : State) (m : MasterId) (g : Datagram) (f : List Byte), Carries g f → NewRequest m f s → fService f = 0x09 → s.tray.leg.lockoutEnd = none →
    s.unlockBody f = none → (s.master m).nonce = none → Does (.unlockResponse m g) s fun t =>
      t.tray.leg = { s.tray.leg with unlockFailures := satAdd 32 s.tray.leg.unlockFailures 1 } ∧
      (t.master m).session = (s.master m).session ∧ t.dies = s.dies) ∧
  (∀ (s : State) (m : MasterId) (g : Datagram) (f key : List Byte) (nc : Nonce), Carries g f → NewRequest m f s → fService f = 0x09 →
    s.tray.leg.lockoutEnd = none → s.unlockBody f = none → (s.master m).nonce = some nc →
    s.tray.now ≤ nc.at_ + 60000000000 → fByte f 16 = 1 → s.tray.leg.unlockKey = some key →
    Does (.unlockResponse m g) s fun t =>
      (t.master m).nonce = none ∧ t.dies = s.dies ∧
      (Config.isPoint ((f.drop 24).take 97) = true → Config.verify key (ascii "K8UNLOCK" ++ nc.bytes ++ traySerial ++
          [(f.getD 17 0#8), 0#8, 0#8, 0#8] ++ (f.drop 20).take 4) ((f.drop 128).take 96) = true →
        ∃ e, (t.master m).session = some e ∧ e.byPassword = false ∧ e.opener = f ∧
          e.ends = s.tray.now + 1000000000 * fField f 20 4 ∧ (t.master m).high = some (fSeq f)) ∧
      (Config.isPoint ((f.drop 24).take 97) = false → (t.master m).session = (s.master m).session ∧
        t.tray.leg.unlockFailures = satAdd 32 s.tray.leg.unlockFailures 1)) ∧
  (∀ (s : State) (m : MasterId) (g : Datagram) (f : List Byte), Carries g f → NewRequest m f s → fService f = 0x0A → Does (.lock m g) s fun t =>
    (t.master m).session = none ∧ t.dies = s.dies ∧ t.tray = s.tray ∧ ∀ n, n ≠ m → t.master n = s.master n)

/-- Subscriptions: SUBSCRIBE adds one with the next number (R418), it ends 60 s after its last renewal (R419), and a
periodic notification is sent when it is due, or skipped and counted while the allowance does not reach (R420, R421). An
on-change one sends nothing while its value has not changed, and at once when it has sent none. -/
def Obligations.Subscriptions : Prop :=
  (∀ (s : State) (m : MasterId) (g : Datagram) (f : List Byte) (o : Obj), Carries g f → NewRequest m f s → fService f = 0x06 → fByte f 16 = 1 →
    objOf (fKey f) = some o → (o.access = .ro ∨ o.access = .rw) → o.expert = false → 0 < fField f 20 4 →
    fField f 20 4 ≤ 10000 → ((s.master m).subs.find? fun q => q.key == fKey f) = none → (s.master m).subs.length < 64 →
    Does (.subscribe m g) s fun t =>
      (∃ q ∈ (t.master m).subs, q.key = fKey f ∧ q.no = (s.master m).subNo % 65535 + 1 ∧ q.period = fField f 20 4 ∧
        q.since = s.tray.now ∧ q.renewed = s.tray.now) ∧ (t.master m).subNo = (s.master m).subNo % 65535 + 1 ∧
      t.dies = s.dies ∧ ∀ n, n ≠ m → t.master n = s.master n) ∧
  (∀ (s : State) (m : MasterId) (no : Nat) (q : Subscription), s.sub? m no = some q → Does (.subscriptionExpire m no) s
    fun t => q ∉ (t.master m).subs ∧ q.renewed + 60000000000 ≤ t.tray.now ∧ t.dies = s.dies ∧
      ∀ n, n ≠ m → t.master n = s.master n) ∧
  (∀ (s : State) (m : MasterId) (no : Nat) (q : Subscription) (due : Nat) (u : State) (segs : List NotifySeg),
    s.sub? m no = some q → q.period ≠ 0 → s.trayAnswers = true →
    due = q.since + 1000000 * q.period * max 1 (ceilDiv (s.tray.now - q.since) (1000000 * q.period)) →
    due < q.renewed + 60000000000 →
    u = ((s.advanceTo due).modSub m no fun q => { q with since := due }).flushSegs m →
    segs = segmentsOf q (u.sample m q.key).1 (u.sampleTime q.key) (u.sample m q.key).2 →
    Does (.notifyPeriodic m no) s fun t =>
      ((u.master m).unsent = [] → (segs.map fun g => u.notifyBits m g.data.length).sum ≤ (u.master m).allowance →
        t = u.sendSegs m segs) ∧
      ((u.master m).unsent ≠ [] ∨ (u.master m).allowance < (segs.map fun g => u.notifyBits m g.data.length).sum →
        t = { u with tray := { u.tray with leg := { u.tray.leg with
          notifSkipped := satAdd 32 u.tray.leg.notifSkipped 1 } } })) ∧
  (∀ (s : State) (m : MasterId) (no : Nat) (q : Subscription), s.sub? m no = some q → q.period = 0 →
    s.trayAnswers = true → s.tray.now < q.renewed + 60000000000 → q.key.stream = false →
    q.last = some (leBytes 2 (s.sample m q.key).1 ++ (s.sample m q.key).2) → Does (.notifyOnChange m no) s fun t =>
      t = s.flushSegs m) ∧
  (∀ (s : State) (m : MasterId) (no : Nat) (q : Subscription), s.sub? m no = some q → q.period = 0 →
    s.trayAnswers = true → s.tray.now < q.renewed + 60000000000 → q.key.stream = false → q.last = none →
    Does (.notifyOnChange m no) s fun t => t = (s.flushSegs m).notifyChange m no)

/-- What ends by time or by the line: the sequence window after 10 s (R413), a write assembly after 1 s (R417), PLCA
without and with beacons (R406); a neighbour solicitation for the port's own address is answered and one for another is
not, and an echo request for that address is answered (R407). -/
def Obligations.FieldPorts : Prop :=
  (∀ (s : State) (m : MasterId), (s.master m).high.isSome = true → Does (.sequenceWindowClear m) s fun t =>
    t.master m = { s.master m with high := none, seen := [], responses := [] } ∧
    (s.master m).lastReq + 10000000000 ≤ t.tray.now ∧ t.dies = s.dies ∧ ∀ n, n ≠ m → t.master n = s.master n) ∧
  (∀ (s : State) (m : MasterId) (a : ObjKey × Nat × List Byte × Ns), (s.master m).assembly = some a →
    Does (.assemblyTimeout m) s fun t => t.master m = { s.master m with assembly := none } ∧
      a.2.2.2 + 1000000000 ≤ t.tray.now ∧ t.dies = s.dies ∧ ∀ n, n ≠ m → t.master n = s.master n) ∧
  (∀ (s : State) (p : Bool), Does (.beaconTimeout p) s fun t =>
    t.master (if p then 2 else 1) = { s.master (if p then 2 else 1) with plca := false } ∧
    MasterOnly (if p then 2 else 1) s t) ∧
  (∀ (s : State) (p : Bool), Does (.beaconRegained p) s fun t =>
    t.master (if p then 2 else 1) = { s.master (if p then 2 else 1) with plca := true } ∧
    MasterOnly (if p then 2 else 1) s t) ∧
  (∀ (s : State) (p : Bool) (target src : Nat), target ≠ s.portAddr p → Does (.neighbourSolicitation p target src) s
    fun t => t = s) ∧
  (∀ (s : State) (p : Bool) (src : Nat), s.trayAnswers = true → src ≠ 0 →
    Does (.neighbourSolicitation p (s.portAddr p) src) s fun t => ∃ bytes, t = s.emit (.field p (s.portAddr p) src bytes)) ∧
  (∀ (s : State) (p : Bool) (src : Nat) (body : List Byte), s.trayAnswers = true →
    Does (.icmpEcho p (s.portAddr p) src body) s fun t =>
      t = s.emit (.field p (s.portAddr p) src (icmp (s.portAddr p) src 129 body)))

/-! ### SPDM (chapter 19.6) -/

/-- Each request reaches the responder of its capability or of its LAP master, which answers it (R534). The state of a LAP
responder ends 60 s after its last request (R535), and an abort clears a capability (R462). The responder's answers: the
connection advances by version, capabilities and algorithms, a request out of order is UnexpectedRequest, a code beyond the
table UnsupportedRequest, and measurement 0 names thirteen blocks (R534 to R536; field places by log 70). -/
def Obligations.SpdmResponder : Prop :=
  (SpdmRequests Instr.getVersion (fun c => c == 0x84) ∧ SpdmRequests Instr.getCapabilities (fun c => c == 0xE1) ∧
  SpdmRequests Instr.negotiateAlgorithms (fun c => c == 0xE3) ∧ SpdmRequests Instr.getDigests (fun c => c == 0x81) ∧
  SpdmRequests Instr.getCertificate (fun c => c == 0x82) ∧ SpdmRequests Instr.challenge (fun c => c == 0x83) ∧
  SpdmRequests Instr.getMeasurements (fun c => c == 0xE0) ∧
  SpdmRequests Instr.spdmUnsupportedRequest (fun c => !spdmCodes.contains c) ∧
  (∀ (s : State) (m : MasterId), (s.master m).spdm.stage ≠ 0 → Does (.spdmStateTimeout m) s fun t =>
    t.master m = { s.master m with spdm := {} } ∧ (s.master m).spdmAt + 60000000000 ≤ t.tray.now ∧ t.dies = s.dies ∧
    ∀ n, n ≠ m → t.master n = s.master n) ∧
  (∀ (s : State) (p : Fin 2), Does (.doeAbort (.pf p.val)) s fun t => t.pf p = { s.pf p with doe := {} } ∧ PfOnly p s t)) ∧
  (∀ (s : State) (r : Responder) (msg : List Byte), 4 ≤ msg.length → (msg.getD 1 0#8).toNat ∉ spdmCodes →
    s.spdmAnswer r msg = ⟨s.spdm r, [0x12#8, 0x7F#8, 7#8, msg.getD 1 0#8], 0⟩) ∧
  (∀ (s : State) (r : Responder) (msg : List Byte), 4 ≤ msg.length → msg.getD 0 0#8 = 0x10#8 → msg.getD 1 0#8 = 0x84#8 →
    (s.spdmAnswer r msg).next.stage = 1 ∧
    (s.spdmAnswer r msg).reply = [0x10#8, 0x04#8, 0#8, 0#8, 0#8, 1#8, 0x00#8, 0x12#8]) ∧
  (∀ (s : State) (r : Responder) (msg : List Byte), msg.length = 20 → msg.getD 0 0#8 = 0x12#8 → msg.getD 1 0#8 = 0xE1#8 →
    ((s.spdm r).stage = 1 → (s.spdmAnswer r msg).next.stage = 2 ∧ (s.spdmAnswer r msg).reply.length = 20) ∧
    ((s.spdm r).stage ≠ 1 → s.spdmAnswer r msg = ⟨s.spdm r, [0x12#8, 0x7F#8, 4#8, 0#8], 0⟩)) ∧
  (∀ (s : State) (r : Responder) (msg : List Byte), msg.length = 32 → msg.getD 0 0#8 = 0x12#8 → msg.getD 1 0#8 = 0xE3#8 →
    leNat ((msg.drop 4).take 2) = 32 →
    ((s.spdm r).stage = 2 → (s.spdmAnswer r msg).next.stage = 3 ∧ (s.spdmAnswer r msg).reply.length = 36) ∧
    ((s.spdm r).stage ≠ 2 → s.spdmAnswer r msg = ⟨s.spdm r, [0x12#8, 0x7F#8, 4#8, 0#8], 0⟩)) ∧
  (∀ (s : State) (r : Responder) (msg : List Byte), 4 ≤ msg.length → msg.getD 0 0#8 = 0x12#8 → msg.getD 1 0#8 = 0x81#8 →
    (s.spdm r).stage = 3 → (s.spdmAnswer r msg).reply = [0x12#8, 0x01#8, 0#8, 1#8] ++ sha384 certChain ∧
      (s.spdmAnswer r msg).next.stage = 3) ∧
  (∀ (s : State) (r : Responder) (msg : List Byte), msg.length = 4 → msg.getD 0 0#8 = 0x12#8 → msg.getD 1 0#8 = 0xE0#8 →
    msg.getD 2 0#8 = 0#8 → msg.getD 3 0#8 = 0#8 → (s.spdm r).stage = 3 →
    (s.spdmAnswer r msg).reply.take 8 = [0x12#8, 0x60#8, 13#8, 0#8, 0#8, 0#8, 0#8, 0#8] ∧
    (s.spdmAnswer r msg).next.meas = (s.spdm r).meas ++ msg ++ (s.spdmAnswer r msg).reply)

/-! ### Host ports (chapter 17) -/

/-- What a host writes: a doorbell, of which only one aligned 8-byte write acts; any other size sets FUNC_ERROR bit [3]
(R449, R450, R446); a register of BAR0, of which a read changes nothing (R445), the notice ring (R453), Bus Master Enable (R446), and the vectors with their
holdoff and mask (R456). -/
def Obligations.HostAccesses : Prop :=
  (∀ (s : State) (p n size value : Nat) (entry : List Byte) (cmds : List (List Byte)) (v : VF), s.vf? p n = some v →
    s.decodes (.vf p n) = true → s.tray.fw.resetDue = false → Does (.doorbell p n size value entry cmds) s fun t =>
      (size ≠ 8 → (∃ x, t.vf? p n = some x ∧ x.funcError.getLsbD 3 = true ∧ x.errDoorbell = value) ∧
        t.ctxs = s.ctxs ∧ t.dies = s.dies ∧ t.tenants = s.tenants) ∧
      (size = 8 → s.tray.fw.trayReady = false ∨ v.tenant = none →
        ∃ x, t.vf? p n = some x ∧ x.funcError.getLsbD 4 = true ∧ x.errDoorbell = value) ∧
      (size = 8 → s.tray.fw.trayReady = true → v.tenant.isSome = true → bits value 31 23 ≠ 0 ∨ bits value 63 48 ≠ 0 →
        ∃ x, t.vf? p n = some x ∧ x.funcError.getLsbD 0 = true ∧ x.errDoorbell = value) ∧
      (size = 8 → s.tray.fw.trayReady = true → v.tenant.isSome = true → bits value 31 23 = 0 → bits value 63 48 = 0 →
        v.bme = false → t.vf? p n = some { v with held := v.held ++ [.bell value entry cmds] }) ∧
      (size = 8 → s.tray.fw.trayReady = true → bits value 31 23 = 0 → bits value 63 48 = 0 → v.bme = true →
        ∀ (u : Nat) (c : Ctx) (y : Queue), v.tenant = some u → s.ctx? u (bits value 19 0) = some c → c.dying = false →
        c.queues.getD (bits value 22 20) none = some y → bits value 47 32 < 2 ^ y.z →
        (t.queue? u (bits value 19 0) (bits value 22 20)).map Queue.tail = some (bits value 47 32))) ∧
  (∀ (s : State) (p : Fin 2) (i value : Nat) (x : MsixVec), s.decodes (.pf p.val) = true →
    s.tray.fw.resetDue = false → i < 2 →
    (s.pf p).vecs[i]? = some x → Does (.barRegisterWrite (.pf p.val) (0x3400 + 4 * i) 4 value) s fun t =>
      (t.pf p).vecs[i]? = some { x with holdoff := value % 256 } ∧ PfOnly p s t) ∧
  (∀ (s : State) (p n size value : Nat), s.decodes (.vf p n) = true → size ≠ 8 → 0 < size →
    Does (.barRegisterWrite (.vf p n) 0x1000 size value) s fun t =>
      (∃ x, t.vf? p n = some x ∧ x.funcError.getLsbD 3 = true ∧ x.errDoorbell = value) ∧
      t.ctxs = s.ctxs ∧ t.dies = s.dies ∧ t.tenants = s.tenants) ∧
  (∀ (s : State) (f : Fn) (v : Nat), s.decodes f = true → (s.ring f).size = 0 → v < 2 ^ 32 → ringSizeOk v = true →
    v ≠ 0 → Does (.noticeRingWrite f 0x2018 v) s fun t =>
      t.ring f = { s.ring f with size := v, head := 0, tail := 0 } ∧ t.tray = s.tray ∧ t.dies = s.dies) ∧
  (∀ (s : State) (f : Fn) (v : Nat), s.decodes f = true → v < 2 ^ 32 → Does (.noticeRingWrite f 0x2010 v) s fun t =>
      ((s.ring f).size = 0 → v % 4096 = 0 → t.ring f = { s.ring f with base := putWord (s.ring f).base 0 v }) ∧
      ((s.ring f).size ≠ 0 ∨ v % 4096 ≠ 0 → t.ring f = s.ring f)) ∧
  (∀ (s : State) (f : Fn) (off size : Nat), (s.barRead f off size).2 = s ∧
    ((s.barRead f off size).1.isSome = true ↔ s.readable f = true)) ∧
  (∀ (s : State) (p : Fin 2), (s.pf p).mse = true → (s.pf p).d3hot = false →
    (s.barRead (.pf p.val) 0x18 4).1 = some (b2n (s.pf p).mboxBusy + 2 * b2n (s.pf p).mboxReady +
      4 * b2n (s.pf p).mboxNotOwner + 8 * b2n (s.pf p).mboxNotTaken)) ∧
  (∀ (s : State) (p : Fin 2) (n : Nat) (v : VF), (s.pf p).vfMse = true → s.vf? p.val n = some v →
    (s.barRead (.vf p.val n) 0x20 4).1 = some v.funcError.toNat ∧
    (s.barRead (.vf p.val n) 0x04 4).1 = some (match v.tenant with | some u => u + 2 ^ 31 | none => 0)) ∧
  (∀ (s : State) (p : Fin 2) (mse : Bool), Does (.busMasterEnableSet (.pf p.val) mse) s fun t =>
    (t.pf p).bme = true ∧ (t.pf p).mse = mse ∧ ((s.pf p).held = [] ∨ (s.pf p).d3hot = true →
      t.pf p = { s.pf p with bme := true, mse := mse } ∧ PfOnly p s t)) ∧
  (∀ (s : State) (p n : Nat) (mse : Bool) (v : VF), s.vf? p n = some v → v.inReset = false → v.held = [] →
    Does (.busMasterEnableSet (.vf p n) mse) s fun t => t.vf? p n = some { v with bme := true } ∧ t.pfs = s.pfs) ∧
  (∀ (s : State) (p : Fin 2) (mse : Bool), Does (.busMasterEnableClear (.pf p.val) mse) s fun t =>
    t.pf p = { s.pf p with bme := false, mse := mse } ∧ PfOnly p s t) ∧
  (∀ (s : State) (p n : Nat) (mse : Bool) (v : VF), s.vf? p n = some v →
    Does (.busMasterEnableClear (.vf p n) mse) s fun t => t.vf? p n = some { v with bme := false } ∧ t = { s with vfs := t.vfs }) ∧
  (∀ (s : State) (f : Fn) (v : Nat) (u : Ns), (s.vec f v).until_ = some u → Does (.holdoffExpire f v) s fun t =>
    u ≤ t.tray.now ∧ ((s.vec f v).merged = false → t.vec f v = { s.vec f v with until_ := none, merged := false } ∧
      t.outputs = s.outputs) ∧
    ((s.vec f v).merged = true → (s.vec f v).masked = false → s.silent f = false → s.canSend f = true →
      Output.msix f v ∈ t.outputs ∧ (t.vec f v).merged = false)) ∧
  (∀ (s : State) (p : Fin 2) (i : Nat) (x : MsixVec), s.decodes (.pf p.val) = true → (s.pf p).vecs[i]? = some x →
    Does (.msixUnmask (.pf p.val) i) s fun t =>
      (x.pend = false → (t.pf p).vecs[i]? = some { x with masked := false, pend := false } ∧ t.outputs = s.outputs) ∧
      (x.pend = true → x.until_ = none → (s.pf p).bme = true → Output.msix (.pf p.val) i ∈ t.outputs))

/-- Links, DOE and the mailbox: the fastest common rate and width (R438), the discovery of the two data object types (R461),
the mailbox claimed by one function at most (R457), and its doorbell (R458). -/
def Obligations.HostLinksAndMailbox : Prop :=
  (∀ (s : State) (p : Fin 2) (rates widths : List Nat) (flit : Bool), s.tray.pow.busFrom.isSome = true →
    s.tray.pow.trayEn = true → s.tray.fw.bootFailed = false → s.tray.pow.down = false →
    Does (.linkTraining p rates widths flit) s fun t =>
      (∀ r w, [64, 32, 16, 8].find? (fun r => rates.contains r && (flit || r != 64)) = some r →
        [16, 8, 4].find? (fun w => widths.contains w) = some w → (t.pf p).link = some (r, w, flit)) ∧
      ((∀ r ∈ [64, 32, 16, 8], r ∉ rates) → (t.pf p).link = none) ∧
      t.pf p = { s.pf p with link := (t.pf p).link } ∧ PfOnly p s t) ∧
  (∀ (s : State) (p : Fin 2) (idx : Nat), (s.pf p).doe.err = false → Does (.doeDiscovery (.pf p.val) 0 idx) s fun t =>
    t = s.emit (.doe (.pf p.val) (doeObject 0 (if idx = 0 then [1#8, 0#8, 0#8, 1#8]
      else if idx = 1 then [1#8, 0#8, 1#8, 0#8] else [0xFF#8, 0xFF#8, 0#8, 0#8])))) ∧
  (∀ (s : State) (p : Fin 2) (ty idx : Nat), (s.pf p).doe.err = false → 1 < ty → Does (.doeDiscovery (.pf p.val) ty idx) s
    fun t => (t.pf p).doe.err = true ∧ t.outputs = s.outputs ∧ PfOnly p s t) ∧
  (∀ (s : State) (p : Fin 2) (v : Nat), s.decodes (.pf p.val) = true → Does (.mboxClaim p v false) s fun t =>
    (v % 2 = 1 → s.tray.mbox = none → t.tray.mbox = some p ∧ t.pf p = { s.pf p with claim := true }) ∧
    (∀ o, v % 2 = 1 → s.tray.mbox = some o → o ≠ p → (s.pf o).link.isSome = true → t.tray.mbox = some o) ∧
    (∀ o, v % 2 = 1 → s.tray.mbox = some o → o ≠ p → (s.pf o).link = none → t.tray.mbox = some p) ∧
    (v % 2 = 0 → s.tray.mbox = some p → t.tray.mbox = none ∧ (t.pf p).mboxBusy = false)) ∧
  (∀ (s : State) (p : Fin 2) (v : Nat), (∀ q : Fin 2, s.decodes (.pf q.val) = true) → v % 2 = 1 → s.tray.mbox = none →
    (s.pf 0).link.isSome = true → Does (.mboxClaim p v true) s fun t => t.tray.mbox = some 0) ∧
  (∀ (s : State) (p : Fin 2) (len : Nat), s.decodes (.pf p.val) = true → s.tray.fw.resetDue = false →
    Does (.mboxDoorbell p len) s fun t =>
      (s.tray.mbox ≠ some p → t.pf p = { s.pf p with mboxNotOwner := true } ∧ PfOnly p s t) ∧
      (s.tray.mbox = some p → (s.pf p).mboxBusy = true →
        t.pf p = { s.pf p with mboxNotTaken := true } ∧ PfOnly p s t)) ∧
  (∀ (s : State) (p : Fin 2) (len : Nat), s.decodes (.pf p.val) = true → s.tray.mbox = some p → (s.pf p).mboxBusy = false →
    len ≤ 2048 → Does (.mboxDoorbell p len) s fun t =>
      t = ((s.modPf p fun x => { x with mboxNotOwner := false }).mailbox p
        (((s.pf p).reqBuf ++ List.replicate (2048 - (s.pf p).reqBuf.length) 0#8).take len)).finishReset)

/-- Resets of the functions: a VF FLR and its completion (R463), VF Enable (R444), a PF FLR (R467), a conventional reset (R468),
and D3hot (R447). -/
def Obligations.HostResets : Prop :=
  (∀ (s : State) (p : Fin 2) (n : Nat) (v : VF), s.vf? p.val n = some v → v.inReset = false → Does (.vfFlr p n) s fun t =>
    (∃ x, t.vf? p.val n = some x ∧ x.inReset = true ∧ x.held = [] ∧ x.tenant = v.tenant) ∧
    ∀ u, v.tenant = some u → ∀ d, ∀ r ∈ (t.die d).til.runs, r.tenant ≠ u) ∧
  (∀ (s : State) (p : Fin 2) (n : Nat) (v : VF), s.vf? p.val n = some v → v.inReset = true →
    Does (.vfFlrComplete p n) s fun t =>
      (v.gone = false → t.vf? p.val n = some { tenant := v.tenant }) ∧ (v.gone = true → t.vf? p.val n = none) ∧
      (∀ u, v.tenant = some u → ∀ k ∈ t.ctxs, k.1.1 ≠ u)) ∧
  (∀ (s : State) (p : Fin 2) (num : Nat), Does (.vfEnableClear p num) s fun t =>
    (t.pf p).numVFs = min (s.pf p).numVFs num ∧ (t.pf p).vfEnable = ((s.pf p).vfEnable && num != 0) ∧
    ∀ n v, num ≤ n → s.vf? p.val n = some v → ∃ x, t.vf? p.val n = some x ∧ x.inReset = true ∧ x.gone = true) ∧
  (∀ (s : State) (p : Fin 2) (num : Nat) (mse : Bool), (s.pf p).vfEnable = false →
    Does (.vfEnableSet p num mse) s fun t => (t.pf p).vfEnable = true ∧ (t.pf p).vfMse = mse ∧ (t.pf p).numVFs = min num 512 ∧ ∀ n, n < min num 512 → (t.vf? p.val n).isSome = true) ∧
  (∀ (s : State) (p : Fin 2), Does (.pfFlr p) s fun t =>
    t.pf p = { link := (s.pf p).link } ∧ t.tray.mbox = none ∧ (t.master 3).session = none ∧ (t.master 3).queue = [] ∧
    (∀ (q : Fin 2) (n : Nat) (v : VF), s.vf? q.val n = some v → ∃ x, t.vf? q.val n = some x ∧ x.inReset = true ∧
      (q = p → x.gone = true)) ∧ (∀ d, (t.die d).cmp.ringStopped = true) ∧ t.tray.leg = s.tray.leg) ∧
  (∀ (s : State) (p : Fin 2), Does (.conventionalReset p) s fun t =>
    t.pf p = {} ∧ (∀ n v, s.vf? p.val n = some v → ∃ x, t.vf? p.val n = some x ∧ x.inReset = true ∧ x.gone = true) ∧
    (s.tray.mbox = some p → t.tray.mbox = none ∧ (t.master 3).session = none) ∧
    (s.tray.mbox ≠ some p → t.tray.mbox = s.tray.mbox)) ∧
  (∀ (s : State) (p : Fin 2), Does (.pfD3hot p) s fun t =>
    (t.pf p).d3hot = true ∧ t.ctxs = s.ctxs ∧ (s.tray.mbox = some p → t.tray.mbox = none) ∧
    (s.tray.mbox ≠ some p → t.pf p = { s.pf p with d3hot := true } ∧ PfOnly p s t)) ∧
  (∀ (s : State) (p : Fin 2), (s.pf p).d3hot = true → Does (.pfReturnToD0 p) s fun t =>
    (t.pf p).d3hot = false ∧ ((s.pf p).held = [] ∨ (s.pf p).bme = false →
      t.pf p = { s.pf p with d3hot := false } ∧ PfOnly p s t))

/-! ### Commands of a tenant's queues (chapter 18) -/

/-- A command that completes leaves its record in the completion ring, with the phase of its pass (R476), and its queue goes on
with the next; a malformed one faults its queue and acts on nothing (R478, R499). -/
def Obligations.CommandCompletion : Prop :=
  (∀ (s : State) (t h q : Nat) (e : Cmd) (y : Queue), Heads s t h q 0x00 e → s.queue? t h q = some y → y.cmds = [e] →
    Does (.nopCommand t h q) s fun x =>
      x.queue? t h q = some { y with cmds := [], done := y.done + 1 } ∧ x.dies = s.dies ∧ x.tray = s.tray ∧
      (∀ f, s.fnOf t = some f → s.silent f = false → s.canSend f = true → Output.hostWrite f (y.comp + 16 * e.idx)
        (compRecord e.idx 0x00 (b2n (y.done / 2 ^ y.z % 2 = 0)) 0 0) ∈ x.outputs)) ∧
  (∀ (s : State) (t h q : Nat) (e : Cmd), Heads s t h q 0x00 e → Does (.nopCommand t h q) s fun x => x = s.ends t h q 0x00) ∧
  (∀ (t h q op : Nat) (c : Instr), (op, c) ∈ [(0x00, Instr.nopCommand t h q), (0x01, .bind t h q), (0x02, .unbind t h q),
      (0x03, .reside t h q), (0x04, .evict t h q), (0x05, .copy t h q), (0x06, .loadPlan t h q (.data [])),
      (0x07, .runPlan t h q), (0x08, .haltPlan t h q), (0x09, .signal t h q), (0x0A, .wait t h q), (0x0B, .query t h q),
      (0x0C, .scrub t h q), (0x0D, .fence t h q)] →
    ∀ (s : State) (e : Cmd) (y : Queue) (i : Nat), s.headCmd t h q = some e → e.op = op → e.refused = false →
      s.queue? t h q = some y → y.faulted = false → y.cmds = [e] → e.badAt = some i → Does c s fun x =>
        x.queue? t h q = some { y with cmds := [], done := y.done + 1, faulted := true } ∧ x.dies = s.dies ∧
        x.tray = s.tray ∧ x = s.complete t h q 0x02 i 0 false)

/-- BIND of its four kinds (R481 to R485), UNBIND (R484), RESIDE (R479) and EVICT (R480). -/
def Obligations.ContextCommands : Prop :=
  (∀ (s : State) (t h q : Nat) (d : DieId) (e : Cmd), Heads s t h q 0x01 e → e.byte 10 = 0 → OnDie s t h d →
    s.binding t h (e.fld 8 2) = none →
    (∀ i, i < e.fld 18 2 → (s.die d).closed (e.fld 16 2 + i) = false ∧
      ((s.die d).til.owner (e.fld 16 2 + i) = .free ∨ (s.die d).til.owner (e.fld 16 2 + i) = .held t)) →
    Does (.bind t h q) s fun x => ∃ w : State, x = w.ends t h q 0x00 ∧
      (∀ i, i < e.fld 18 2 → (w.die d).til.owner (e.fld 16 2 + i) = .owned t (s.tenant t).objNo) ∧
      w.binding t h (e.fld 8 2) = some (.sram (s.tenant t).objNo (e.fld 16 2) (e.fld 18 2)) ∧
      (w.die d).til.sram = (s.die d).til.sram) ∧
  (∀ (s : State) (t h q : Nat) (d : DieId) (e : Cmd) (i : Nat) (u o : Nat), Heads s t h q 0x01 e → e.byte 10 = 0 →
    OnDie s t h d → s.binding t h (e.fld 8 2) = none → i < e.fld 18 2 →
    (s.die d).til.owner (e.fld 16 2 + i) = .owned u o → Does (.bind t h q) s fun x => x = s.ends t h q 0x07) ∧
  (∀ (s : State) (t h q : Nat) (e : Cmd), Heads s t h q 0x01 e → e.byte 10 = 1 → Does (.bind t h q) s fun x =>
    ((s.binding t h (e.fld 8 2)).isSome = true → x = s.ends t h q 0x08) ∧
    (s.binding t h (e.fld 8 2) = none → ∃ w : State, x = w.ends t h q 0x00 ∧ w.dies = s.dies ∧
      w.binding t h (e.fld 8 2) = some (.host (e.fld 16 8) (e.fld 24 8)))) ∧
  (∀ (s : State) (t h q o first count : Nat) (e : Cmd) (r : Nat × Nat), Heads s t h q 0x01 e → e.byte 10 = 2 →
    (s.ctx? t h).bind Ctx.resident = some r → s.binding t h (e.fld 8 2) = some (.sram o first count) →
    KV.get? (s.tenant t).shared (e.fld 12 2) = none → Does (.bind t h q) s fun x => ∃ w : State, x = w.ends t h q 0x00 ∧
      KV.get? (w.tenant t).shared (e.fld 12 2) = some ⟨r.1, o, first, count⟩ ∧
      w.binding t h (e.fld 8 2) = some (.shared (e.fld 12 2))) ∧
  (∀ (s : State) (t h q : Nat) (d : DieId) (e : Cmd) (o : Shared), Heads s t h q 0x01 e → e.byte 10 = 3 →
    OnDie s t h d → KV.get? (s.tenant t).shared (e.fld 12 2) = some o → s.binding t h (e.fld 8 2) = none →
    Does (.bind t h q) s fun x =>
      (o.die ≠ d.val → x = s.ends t h q 0x0A) ∧
      (o.die = d.val → ∃ w : State, x = w.ends t h q 0x00 ∧ w.dies = s.dies ∧
        w.binding t h (e.fld 8 2) = some (.shared (e.fld 12 2)))) ∧
  (∀ (s : State) (t h q : Nat) (e : Cmd) (r : Nat × Nat) (b : Binding), Heads s t h q 0x02 e →
    (s.ctx? t h).bind Ctx.resident = some r → s.binding t h (e.fld 8 2) = some b → Does (.unbind t h q) s fun x =>
      (∀ g, s.granulesOf t b = some g → s.runTouches (dieOf r.1) t h g.1 g.2 = true → x = s.ends t h q 0x0B) ∧
      ((∀ g, s.granulesOf t b = some g → s.runTouches (dieOf r.1) t h g.1 g.2 = false) →
        ∃ w : State, x = w.ends t h q 0x00 ∧ w.binding t h (e.fld 8 2) = none ∧
        ∀ o first count i, b = .sram o first count → first ≤ i → i < first + count →
          (w.die (dieOf r.1)).til.owner i = .zeroing)) ∧
  (∀ (s : State) (t h q : Nat) (d : DieId) (e : Cmd), Heads s t h q 0x03 e → e.byte 8 = d.val →
    (s.ctx? t h).bind Ctx.resident = none → Does (.reside t h q) s fun x =>
      ((s.die d).svc.state ≠ .running → (s.die d).svc.state ≠ .frost → x = s.ends t h q 0x03) ∧
      (∀ i, s.dieBusy d = false → (s.die d).til.freeSlot = some i → s.admits d t h = true →
        ∃ w : State, x = w.complete t h q 0x00 0 (d.val + 256 * i) false ∧
        (w.ctx? t h).bind Ctx.resident = some (d.val, i) ∧ (w.die d).til.slots[i]? = some (some (t, h))) ∧
      (s.dieBusy d = false → (s.die d).til.freeSlot.isSome = true → s.admits d t h = false → x = s.ends t h q 0x04)) ∧
  (∀ (s : State) (t h q : Nat) (e : Cmd) (r : Nat × Nat), Heads s t h q 0x03 e →
    (s.ctx? t h).bind Ctx.resident = some r → Does (.reside t h q) s fun x =>
      (e.byte 8 = 0xF ∨ e.byte 8 = r.1 → x = s.complete t h q 0x00 0 (r.1 + 256 * r.2) false) ∧
      (e.byte 8 ≠ 0xF → e.byte 8 ≠ r.1 → x = s.ends t h q 0x06)) ∧
  (∀ (s : State) (t h q : Nat) (d : DieId) (e : Cmd), Heads s t h q 0x04 e → OnDie s t h d →
    (∀ r ∈ (s.die d).til.runs, ¬(r.tenant = t ∧ r.handle = h)) → (∀ k, (s.die d).til.inHand t h k = 0) →
    (∀ k c, s.headCmd t h k = some c → c.moving = false) → Does (.evict t h q) s fun x =>
      (e.byte 8 % 2 = 0 → ∃ w : State, x = w.ends t h q 0x00 ∧ (w.ctx? t h).bind Ctx.resident = none ∧
        ∀ o ∈ (w.die d).til.slots, o ≠ some (t, h)) ∧
      (e.byte 8 % 2 = 1 → x.ctx? t h = none ∧ ∀ o ∈ (x.die d).til.slots, o ≠ some (t, h)))

/-- COPY and SCRUB are cut into units of 4 KiB (R488, R486, R489); a unit moves its bytes; LOAD_PLAN checks the container and
fills its slot (R492); RUN_PLAN starts a plan (R493) and HALT_PLAN stops one (R494); a granule is zeroed and free (R465, R481). -/
def Obligations.WorkCommands : Prop :=
  (∀ (s : State) (t h q : Nat) (d : DieId) (e : Cmd) (a b : Binding), Heads s t h q 0x05 e → e.started = none →
    OnDie s t h d → s.binding t h (e.fld 8 2) = some a → s.binding t h (e.fld 10 2) = some b → Does (.copy t h q) s fun x =>
      (∀ i j k l, a = .host i j → b = .host k l → x = s.ends t h q 0x08) ∧
      (∀ i, b = .shared i → x = s.ends t h q 0x09) ∧
      ((∀ i, b ≠ .shared i) → (∀ i j k l, a = .host i j → b ≠ .host k l) →
        ((s.sizeOf t a < e.fld 16 8 + e.length ∨ s.sizeOf t b < e.fld 24 8 + e.length) → x = s.ends t h q 0x0C) ∧
        (e.fld 16 8 + e.length ≤ s.sizeOf t a → e.fld 24 8 + e.length ≤ s.sizeOf t b → ∃ c, x.headCmd t h q = some c ∧
          c.units = e.total ∧ c.started = some s.tray.now ∧ c.bytes = e.bytes ∧
          (x.die d).til.sram = (s.die d).til.sram))) ∧
  (∀ (s : State) (t h q o first count : Nat) (d : DieId) (e : Cmd), Heads s t h q 0x0C e → e.started = none →
    OnDie s t h d → s.binding t h (e.fld 8 2) = some (.sram o first count) →
    e.fld 16 8 + e.length ≤ s.sizeOf t (.sram o first count) → Does (.scrub t h q) s fun x =>
      (e.total = 0 → x = s.ends t h q 0x00) ∧
      (e.total ≠ 0 → ∃ c, x.headCmd t h q = some c ∧ c.units = e.total ∧ c.started = some s.tray.now)) ∧
  (∀ (s : State) (d : DieId) (i : Fin 8) (t h q k : Nat) (bytes : List Byte) (e : Cmd),
    (((s.die d).til.engines.getD i.val {}).unit = some (t, h, q, k)) → (s.die d).rails.vcore = true →
    (s.die d).clk.enables.getLsbD 14 = true → s.headCmd t h q = some e → 1 < e.units →
    ((s.ctx? t h).map Ctx.evicting).getD false = false → Does (.copyUnitDone d i (.data bytes)) s fun x =>
      (x.die d).til.unitsMoved = satAdd 64 (s.die d).til.unitsMoved 1 ∧
      (x.headCmd t h q).map Cmd.units = some (e.units - 1) ∧
      (∀ o first count, e.op = 0x0C → s.binding t h (e.fld 8 2) = some (.sram o first count) →
        x.sramRead d (objAddr first (e.fld 16 8 + 4096 * k)) (min 4096 (e.length - 4096 * k)) =
          List.replicate (min 4096 (e.length - 4096 * k)) 0#8) ∧
      (∀ addr len o first count, e.op = 0x05 → s.binding t h (e.fld 8 2) = some (.host addr len) →
        s.binding t h (e.fld 10 2) = some (.sram o first count) → bytes.length = min 4096 (e.length - 4096 * k) →
        x.sramRead d (objAddr first (e.fld 24 8 + 4096 * k)) (min 4096 (e.length - 4096 * k)) = bytes)) ∧
  (∀ (s : State) (t h q addr len : Nat) (d : DieId) (e : Cmd) (bytes : List Byte), Heads s t h q 0x06 e → OnDie s t h d →
    s.copies d = true → s.binding t h (e.fld 8 2) = some (.host addr len) →
    (∀ r ∈ (s.die d).til.runs, ¬(r.tenant = t ∧ r.handle = h ∧ r.slot = e.byte 10)) →
    e.fld 16 8 + max 128 (containerOf bytes).len ≤ len → Does (.loadPlan t h q (.data bytes)) s fun x =>
      (∀ y, s.ctx? t h = some y → (containerOf bytes).firstFail t y.owns (s.shares t y) = none → ∃ w : State,
        x = w.complete t h q 0x00 0 (containerOf bytes).plan.hash false ∧
        (w.ctx? t h).bind (fun c => KV.get? c.plans (e.byte 10)) = some (containerOf bytes).plan) ∧
      (∀ y k, s.ctx? t h = some y → (containerOf bytes).firstFail t y.owns (s.shares t y) = some k → k ≠ 0xFF →
        ∃ w : State, x = w.complete t h q 0x02 k 0 false ∧ w.dies = s.dies ∧ w.ctxs = s.ctxs)) ∧
  (∀ (s : State) (t h q addr len det : Nat) (d : DieId) (e : Cmd), Heads s t h q 0x06 e → OnDie s t h d →
    s.copies d = true → s.binding t h (e.fld 8 2) = some (.host addr len) →
    (∀ r ∈ (s.die d).til.runs, ¬(r.tenant = t ∧ r.handle = h ∧ r.slot = e.byte 10)) →
    Does (.loadPlan t h q (.fault det)) s fun x => x = s.complete t h q 0x0D det 0 false) ∧
  (∀ (s : State) (t h q : Nat) (d : DieId) (e : Cmd) (y : Ctx) (p : Plan), Heads s t h q 0x07 e → OnDie s t h d →
    s.ctx? t h = some y → KV.get? y.plans (e.byte 8) = some p → (∀ r ∈ (s.die d).til.runs, r.is t h q = false) →
    (s.die d).mer.member = true →
    (∀ i, i < 8 → bit p.bankMask i = true → ((s.die d).sct.banks.getD i {}).state ≠ .failed ∧
      ((s.die d).sct.banks.getD i {}).state ≠ .gated) →
    (s.abandonRecal d p.bankMask).mayStart d t h q p = true →
    s.setting 0x1400 2 0xF ≠ 1 ∨ s.tray.hold.available = true → Does (.runPlan t h q) s fun x =>
      x = (s.abandonRecal d p.bankMask).startRun d t h q e p ∧
      (p.flowsAt = [] → (∃ r ∈ (x.die d).til.runs, r.tenant = t ∧ r.handle = h ∧ r.queue = q ∧ r.plan = p) ∧
        ∀ i b, bit p.bankMask i = true → (x.die d).sct.banks[i]? = some b → b.state = .held ∧ b.holder = some (t, h))) ∧
  (∀ (s : State) (t h q : Nat) (d : DieId) (e : Cmd) (y : Ctx), Heads s t h q 0x07 e → OnDie s t h d →
    s.ctx? t h = some y → KV.get? y.plans (e.byte 8) = none → (∀ r ∈ (s.die d).til.runs, r.is t h q = false) →
    Does (.runPlan t h q) s fun x => x = (s.leaveWait d t h q).ends t h q 0x10) ∧
  (∀ (s : State) (t h q : Nat) (d : DieId) (e : Cmd), Heads s t h q 0x08 e → OnDie s t h d → Does (.haltPlan t h q) s fun x =>
    (∀ r, ((s.die d).til.runs.find? fun r => r.tenant == t && r.handle == h && r.slot == e.byte 8) = some r →
      x = (s.endRun d t h r.queue 0x11 0).ends t h q 0x00) ∧
    ((∀ r ∈ (s.die d).til.runs, ¬(r.tenant = t ∧ r.handle = h ∧ r.slot = e.byte 8)) → x = s.ends t h q 0x00)) ∧
  (∀ (s : State) (d : DieId) (g : Nat), (s.die d).til.owner g = .zeroing ∨ (s.die d).til.owner g = .unready →
    (s.die d).rails.vcore = true → g < 16384 → Does (.granuleZeroed d g) s fun x =>
      (x.die d).til.owner g = .free ∧ x.sramRead d (65536 * g) 65536 = List.replicate 65536 0#8 ∧
      (∀ i, i ≠ g → (x.die d).til.owner i = (s.die d).til.owner i) ∧
      (∀ a, a < 65536 * g ∨ 65536 * g + 65536 ≤ a → x.sramRead d a 1 = s.sramRead d a 1) ∧ DieOnly d s x)

/-- SIGNAL raises an event and never lowers it (R495, R496), WAIT ends when the event is high enough or errored (R497), QUERY
writes its record (R507), FENCE waits for the queues of its mask (R501), and a wait ends at its horizon (R506). -/
def Obligations.EventCommands : Prop :=
  (∀ (s : State) (t h q : Nat) (e : Cmd), Heads s t h q 0x09 e → e.fld 8 2 < s.eventCount t → Does (.signal t h q) s fun x =>
    ∃ w : State, x = w.complete t h q 0x00 0 (max (s.event t (e.fld 8 2)).value (e.fld 16 8)) false ∧
      (w.event t (e.fld 8 2)).value = max (s.event t (e.fld 8 2)).value (e.fld 16 8) ∧
      (e.byte 10 = 1 → (w.event t (e.fld 8 2)).errored = false) ∧
      (e.byte 10 ≠ 1 → (w.event t (e.fld 8 2)).errored = (s.event t (e.fld 8 2)).errored) ∧
      (∀ i, i ≠ e.fld 8 2 → w.event t i = s.event t i) ∧ w.dies = s.dies) ∧
  (∀ (s : State) (t h q : Nat) (e : Cmd), Heads s t h q 0x09 e → s.eventCount t ≤ e.fld 8 2 → Does (.signal t h q) s fun x =>
    x = s.ends t h q 0x23) ∧
  (∀ (s : State) (t h q : Nat) (e : Cmd), Heads s t h q 0x0A e → e.fld 8 2 < s.eventCount t → Does (.wait t h q) s fun x =>
    ((s.event t (e.fld 8 2)).errored = true → x = s.ends t h q 0x22) ∧
    ((s.event t (e.fld 8 2)).errored = false → e.fld 16 8 ≤ (s.event t (e.fld 8 2)).value →
      x = s.complete t h q 0x00 0 (s.event t (e.fld 8 2)).value false) ∧
    ((s.event t (e.fld 8 2)).errored = false → (s.event t (e.fld 8 2)).value < e.fld 16 8 →
      x.headCmd t h q = some { e with waitFrom := some (e.waitFrom.getD s.tray.now)
                                      started := some (e.started.getD s.tray.now) } ∧
      x = { s with ctxs := x.ctxs })) ∧
  (∀ (s : State) (t h q addr len : Nat) (e : Cmd), Heads s t h q 0x0B e →
    s.binding t h (e.fld 8 2) = some (.host addr len) → Does (.query t h q) s fun x =>
      (len < e.fld 16 8 + 128 → x = s.ends t h q 0x0C) ∧
      (∀ f, e.fld 16 8 + 128 ≤ len → s.fnOf t = some f → e.byte 10 ≠ 2 →
        x = (s.hostWrite f (addr + e.fld 16 8) (s.queryCtx t h (e.byte 10 = 0))).ends t h q 0x00) ∧
      (∀ f, e.fld 16 8 + 128 ≤ len → s.fnOf t = some f → e.byte 10 = 2 →
        x = (s.hostWrite f (addr + e.fld 16 8) (s.queryHeld (dieOf (e.byte 11)) t (e.fld 12 2))).ends t h q 0x00)) ∧
  (∀ (s : State) (t h q : Nat) (e : Cmd), Heads s t h q 0x0D e → e.fence = none →
    (∀ k y, k < 8 → k ≠ q → bit (e.byte 8) k = true → s.queue? t h k = some y →
      ∀ c ∈ y.cmds, (s.tenant t).bells < c.bell) → Does (.fence t h q) s fun x =>
      (e.isResume = false → x = s.ends t h q 0x00) ∧
      (e.isResume = true → x = (s.modQueue t h q fun y => { y with faulted := false }).ends t h q 0x00)) ∧
  (∀ (s : State) (t h q k : Nat) (e c : Cmd) (y : Queue), Heads s t h q 0x0D e → e.fence = none → k < 8 → k ≠ q →
    bit (e.byte 8) k = true → s.queue? t h k = some y → c ∈ y.cmds → c.bell ≤ (s.tenant t).bells →
    Does (.fence t h q) s fun x => x = { s with ctxs := x.ctxs } ∧
      (x.headCmd t h q).map Cmd.fence = some (some (s.tenant t).bells)) ∧
  (∀ (s : State) (t h q : Nat) (e : Cmd) (y : Queue) (w : Ns), s.headCmd t h q = some e → s.queue? t h q = some y →
    e.waitFrom = some w → e.horizonEnds = true → (∀ d, s.waitDie t h e = some d → (s.die d).frost.state ≠ .frozen) →
    Does (.waitHorizonExpire t h q) s fun x => ∃ u : State, x = u.ends t h q 0x21 ∧ u.ctxs = s.ctxs ∧
      w + 1000000 * (if y.horizon = 0 then 2000 else y.horizon) ≤ u.tray.now)

/-! ### Start-up (chapter 19) -/

/-- The start of the tray and of a die: the boot ROM with its two slots (R517, R518), the rails, the governor's firmware
(R521), the identity with its entry of the binding extension (R532, R533), the clocks (R522), the self-test (R523 to R525), a step that ends late (R528), and a die that is
ready (R514). A die that fails is held off. -/
def Obligations.StartUp : Prop :=
  (∀ (s : State) (okA okB b : Bool), s.mayBoot = true → s.tray.fw.slot b = .active → s.tray.fw.slot (!b) ≠ .active →
    Does (.bootRomStart okA okB) s fun t =>
      ((if b then okB else okA) = true → t.tray.fw.running = true ∧ t.tray.fw.runB = b ∧
        (∀ d, (s.die d).heat.latched = false → (s.die d).heat.tripped = false → t.die d = { s.die d with svc := { (s.die d).svc with
          state := .starting, step := 6, heldOff := false } }) ∧
        (∀ d, (s.die d).heat.latched = true ∨ (s.die d).heat.tripped = true → (t.die d).rails.vio = true ∧
          (t.die d).heat = (s.die d).heat)) ∧
      ((if b then okB else okA) = false → (if b then okA else okB) = true → s.tray.fw.slot (!b) = .previous →
        t.tray.fw.running = true ∧ t.tray.fw.runB = (!b) ∧ t.tray.fw.slot b = .invalid ∧
        Reported t s 0xF 0x1601 [BitVec.ofNat 8 (b2n b)]) ∧
      ((if b then okB else okA) = false → (if b then okA else okB) = false ∨ s.tray.fw.slot (!b) ≠ .previous →
        t = { s with tray := { s.tray with fw := { s.tray.fw with bootFailed := true } } })) ∧
  (∀ (s : State) (d : DieId) (g : Ns), (if loopB d then s.tray.cool.goodB else s.tray.cool.goodA) = some g →
    (s.die d).svc.state = .starting → (s.die d).svc.step = 6 → s.tray.fw.running = true →
    (s.die d).heat.flowLoss = .none → Does (.dieStart d) s fun t =>
      g + 200000000 ≤ t.tray.now ∧ (t.die d).svc.step = 7 ∧ (t.die d).rails.vio = true ∧ (t.die d).rails.vsram = true ∧
      (t.die d).rails.vcore = true ∧ (t.die d).rails.vana = true ∧ (t.die d).rails.vhtr = true ∧
      ∀ e, e ≠ d → t.die e = s.die e) ∧
  (∀ (s : State) (d : DieId) (ok : Bool) (digest : List Byte), (s.die d).svc.state = .starting → (s.die d).svc.step = 7 →
    (s.die d).rails.vio = true → Does (.governorFirmwareLoad d ok digest) s fun t =>
      (ok = true → (t.die d).svc.fwDigest = some digest ∧ (t.die d).svc.fwRelease = s.tray.fw.activeRelease ∧
        (t.die d).svc.heldOff = (s.die d).svc.heldOff ∧ DieOnly d s t) ∧
      (ok = false → (s.die d).svc.fwFails = 0 →
        (t.die d).svc = { (s.die d).svc with fwFails := 1 } ∧ DieOnly d s t) ∧
      (ok = false → (s.die d).svc.fwFails ≠ 0 → HeldOff d 1 s t)) ∧
  (∀ (s : State) (d : DieId) (key serial sig m : List Byte) (chains : Bool), (s.die d).svc.state = .starting →
    (s.die d).svc.fwDigest = some m → 7 ≤ (s.die d).svc.step → Does (.dieIdentityCheck d key serial sig chains) s fun t =>
      (identityOk d key (s.freeBytes 32).1 serial m sig chains = true →
        (t.die d).svc = { (s.die d).svc with idAccepted := true, govRuns := true, step := 9 } ∧
        t = { s with dies := t.dies, fresh := t.fresh } ∧ ∀ e, e ≠ d → t.die e = s.die e) ∧
      (identityOk d key (s.freeBytes 32).1 serial m sig chains = false → HeldOff d 2 s t) ∧
      (chains = false ∨ bindingEntry serial key ≠ dieEntry d → HeldOff d 2 s t)) ∧
  (∀ (s : State) (d : DieId), (s.die d).svc.govRuns = true → (s.die d).svc.state = .starting ∨ (s.die d).svc.warm = true →
    (s.die d).clk.xaReady = true ∨ (s.die d).clk.xbReady = true → Does (.clockStart d) s fun t =>
      (t.die d).clk.refInUse = (if (s.die d).clk.refReady (s.die d).clk.preferred = true then (s.die d).clk.preferred
        else (s.die d).clk.preferred.other) ∧
      (t.die d).clk.rlReady = true ∧ (t.die d).clk.opllReady = true ∧ (t.die d).clk.loopA.step = 15 ∧
      (t.die d).clk.loopB.step = 15 ∧ (t.die d).rails.avsGov = true ∧ (t.die d).til = (s.die d).til ∧ DieNoted d s t ∧
      ((t.die d).clk.refInUse ≠ (s.die d).clk.refInUse → s.tray.fw.restarting = false →
        ∃ e ∈ t.tray.mor.reports, e.source = d.val ∧ e.code = 0x5001)) ∧
  (∀ (s : State) (d : DieId) (failed tested detectors : Nat) (lines : List (Nat × Nat)), (s.die d).svc.state = .starting →
    (s.die d).svc.govRuns = true → (s.die d).rails.vcore = true → (s.die d).svc.selfTested = false →
    (∀ i, i < 64 → bit detectors i = true) → failed = tested ||| lineFails lines →
    Does (.selfTest d tested lines detectors) s fun t =>
      ((∀ y, y < 8 → (rowFails failed y).length ≤ 1) →
        (t.die d).svc.selfTested = true ∧ (t.die d).svc.failedTiles = BitVec.ofNat 136 failed ∧
        (t.die d).til.rowMap = (List.range 8).map (fun y => ((rowFails failed y).head?).getD 16) ∧
        (t.die d).til.sram = [] ∧ (∀ g, (t.die d).til.owner g = .free) ∧ DieOnly d s t) ∧
      ((∃ y, y < 8 ∧ 2 ≤ (rowFails failed y).length) → HeldOff d 3 s t)) ∧
  (∀ (s : State) (d : DieId), (s.die d).svc.state = .starting → Does (.startStepLate d) s fun t =>
    ((s.die d).svc.lateOnce = false → (t.die d).svc.state = .starting ∧ (t.die d).svc.step = 6 ∧
      (t.die d).svc.lateOnce = true ∧ (t.die d).rails.vio = false) ∧
    ((s.die d).svc.lateOnce = true → HeldOff d 5 s t)) ∧
  (∀ (s : State) (d : DieId), s.readyNow d = true → (s.die d).svc.state = .starting → Does (.dieReady d) s fun t =>
    (t.die d).svc = { (s.die d).svc with state := .running, step := 0, lateOnce := false, tripRestart := false } ∧
    ((s.die d).svc.tripRestart = false →
      t.die d = { s.die d with svc := { (s.die d).svc with
        state := .running, step := 0, lateOnce := false, tripRestart := false } } ∧ DieOnly d s t) ∧
    ((s.die d).svc.tripRestart = true → s.tray.fw.restarting = false →
      ∃ e ∈ t.tray.mor.reports, e.source = d.val ∧ e.code = 0x2307))

/-- The tray is ready when a die is, and every other die is ready or held off or 12 s have passed (R515). The vault restore
gives each granule whose tag is good to its tenant, and drops the save (R565, R566). A lockstep mismatch restarts the tray
controller: the sessions end, the writes that wait are lost, and the dies run on (R611). -/
def Obligations.TrayStartAndRestart : Prop :=
  (∀ (s : State), s.tray.fw.trayReady = false → s.tray.fw.running = true → s.tray.pow.down = false →
    (∃ d, (s.die d).svc.state = .running ∨ (s.die d).svc.state = .frost) → Does .trayReady s fun t =>
      t.tray.fw = { s.tray.fw with trayReady := true } ∧ t.dies = s.dies ∧
      ((∀ d, (s.die d).svc.state = .running ∨ (s.die d).svc.state = .frost ∨ (s.die d).svc.heldOff = true) →
        t.tray.now = s.tray.now) ∧
      ((∃ d, (s.die d).svc.state ≠ .running ∧ (s.die d).svc.state ≠ .frost ∧ (s.die d).svc.heldOff = false) →
        s.tray.fw.startAt + 12000000000 ≤ t.tray.now) ∧
      (s.tray.hold.restoring = false → t.tray.hold.save = none)) ∧
  (∀ (s : State) (v : VaultSave) (g : SavedGranule), s.tray.hold.save = some v → s.tray.hold.restoring = true →
    v.granules = [g] → (s.die (dieOf g.die)).svc.selfTested = true → (s.die (dieOf g.die)).svc.heldOff = false →
    Does .vaultRestore s fun t =>
      t.tray.hold = { s.tray.hold with restoring := false, save := none } ∧
      (g.tagOk = true → (t.die (dieOf g.die)).til.owner g.granule = .held g.tenant) ∧
      (g.tagOk = false → t.dies = s.dies ∧ Reported t s 0xF 0x1403 ([BitVec.ofNat 8 g.die] ++ leBytes 2 g.granule))) ∧
  (∀ (s : State), s.tray.pow.trayEn = true → s.tray.pow.busFrom.isSome = true → s.tray.fw.restarting = false →
    s.tray.fw.bootFailed = false → Does .lockstepMismatch s fun t =>
      (s.tray.fw.running = true → t.tray.fw.restarting = true ∧ t.tray.fw.restarts = s.tray.now :: s.tray.fw.restarts ∧
        t.tray.leg = { s.tray.leg with acks := [] } ∧
        (∀ n, (t.master n).session = none ∧ (t.master n).queue = [] ∧ (t.master n).subs = []) ∧ t.dies = s.dies) ∧
      (s.tray.fw.running = false → t = { s with tray := { s.tray with fw := { s.tray.fw with
        lockMiss := s.tray.fw.lockMiss + 1, bootFailed := decide (1 ≤ s.tray.fw.lockMiss) } } })) ∧
  (∀ (s : State), s.tray.fw.restarting = true → Does .trayControllerRestartDone s fun t =>
    t.tray.fw.restarting = false ∧ t.tray.fw.runB = (s.tray.fw.slotB == .active) ∧ t.dies = s.dies ∧
    ∃ r ∈ t.tray.mor.reports, r.source = 0xF ∧ r.code = 0x1502 ∧ r.detail = leBytes 2 (min s.tray.fw.lostReports 65535))

/-! ### Frost (chapter 20) -/

/-- Entry and end of Frost: stage 2 once every plan has halted, the frozen die (R541), a command without a halt point after
100 ms (R542), the deadline of a bus loss (R543), and the end of a thaw 400 µs after its start (R544). -/
def Obligations.FrostEntryAndThaw : Prop :=
  (∀ (s : State) (d : DieId), (s.die d).frost.state = .stopPending → (∀ r ∈ (s.die d).til.runs, r.halted = true) →
    Does (.haltPointsReached d) s fun t =>
      t.die d = { s.die d with frost := { (s.die d).frost with state := .entering, enterAt := s.tray.now } } ∧
      DieOnly d s t) ∧
  (∀ (s : State) (d : DieId), (s.die d).frost.state = .entering → (∀ e ∈ (s.die d).til.engines, e.unit = none) →
    (s.die d).frost.thawKept = false → Does (.frozen d) s fun t =>
      (t.die d).frost.state = .frozen ∧ (t.die d).svc.state = .frost ∧ (t.die d).rails.vcore = false ∧
      (t.die d).rails.retention = true ∧ (t.die d).clk.enablesKept = some (s.die d).clk.enables ∧
      (t.die d).frost.entries = satAdd 32 (s.die d).frost.entries 1 ∧ (t.die d).til.sram = (s.die d).til.sram) ∧
  (∀ (s : State) (d : DieId), (s.die d).frost.state = .stopPending → (s.die d).frost.cause = .command →
    (∃ r ∈ (s.die d).til.runs, r.halted = false) → Does (.frostEntryTimeout d) s fun t =>
      (s.die d).frost.requestAt + 100000000 ≤ t.tray.now ∧
      t.die d = { s.die d with
        frost := { (s.die d).frost with state := .running }
        til := { (s.die d).til with runs := (s.die d).til.runs.map fun r => { r with stop := .none, halted := false } } } ∧
      Reported t s d.val 0x7001 [] ∧ DieNoted d s t) ∧
  (∀ (s : State), s.tray.hold.onHoldup = true → Does .frostHaltDeadline s fun t =>
    s.tray.hold.holdAt + 1500000 ≤ t.accNow ∧
    ∀ d, (s.die d).frost.state = .stopPending → (s.die d).frost.cause = .holdup → (t.die d).frost.state = .entering) ∧
  (∀ (s : State) (d : DieId), (s.die d).frost.state = .thawing → Does (.thawEnd d) s fun t =>
    (s.die d).frost.thawAt + 400000 ≤ t.tray.now ∧ (t.die d).svc.state = .running ∧
    ((s.die d).frost.entryKept = false → (t.die d).frost.state = .running ∧
      (∀ r ∈ (t.die d).til.runs, r.stop = .none ∧ r.halted = false) ∧
      (t.die d).til.runs.length = (s.die d).til.runs.length) ∧
    ((s.die d).frost.entryKept = true →
      (t.die d).frost.state = (if (s.die d).til.runs.isEmpty then .entering else .stopPending) ∧
      ∀ r ∈ (t.die d).til.runs, r.stop = .haltPoint))

/-! ### Hold-up and vault (chapter 20.2 to 20.4) -/

/-- The hold-up module: read (R552), pulled (R557), charged (R553), tested (R554), faulted (R555), its availability (R556; log 41
gives the charge that a hold time needs), the converter (R558), the end of the hold time with the vault save (R562, R563), and
the end of the hold of restored granules (R567). -/
def Obligations.HoldUpAndVault : Prop :=
  (∀ (s : State) (ok : Bool) (serial : List Byte) (mv : Nat), s.tray.hold.present = false →
    Does (.moduleInserted ok serial mv) s fun t =>
      t.tray.hold.present = true ∧ t.tray.hold.since = s.accNow ∧ t.tray.hold.idRead = ok ∧ t.tray.hold.charging = false ∧
      t.tray.hold.serial = (if ok then serial else []) ∧ t.tray.hold.faulted = (!ok) ∧
      (ok = true → TrayOnly s t) ∧ (ok = false → t.tray.hold.available = false)) ∧
  (∀ (s : State), s.tray.hold.present = true → Does .moduleRemoved s fun t =>
    t.tray.hold.present = false ∧ t.tray.hold.charging = false ∧ t.tray.hold.current = 0 ∧
    t.tray.hold.available = false ∧
    (s.tray.hold.onHoldup = true → t.tray.fw.running = false ∧ t.tray.hold.onHoldup = false ∧ t.tray.hold.saving = false)) ∧
  (∀ (s : State) (mv : Nat), s.tray.hold.present = true → s.tray.hold.idRead = true → s.tray.hold.faulted = false →
    s.tray.hold.onHoldup = false → s.tray.hold.charging = false → s.tray.pow.trayEn = true → s.tray.pow.busLost = false →
    s.tray.pow.down = false →
    s.tray.hold.charged = false ∨ mv < 26400 → Does (.chargerStart mv) s fun t =>
      t.tray.hold.charging = true ∧ t.tray.hold.current ≤ 1000 ∧
      ((∀ d, (s.die d).frost.state = .frozen) → t.tray.hold.current * mv ≤ 10000000) ∧
      ((∃ d, (s.die d).frost.state ≠ .frozen) → t.tray.hold.current = 1000) ∧
      (s.tray.hold.charged = false → s.tray.hold.since + 1000000000 ≤ t.accNow) ∧ TrayOnly s t) ∧
  (∀ (s : State) (ma : Nat), s.tray.hold.charging = true → ma < 50 → Does (.chargeComplete ma) s fun t =>
    t.tray.hold.charging = false ∧ t.tray.hold.current = 0 ∧ t.tray.hold.charged = true ∧
    t.tray.hold.chargedAt = s.accNow ∧ TrayOnly s t) ∧
  (∀ (s : State) (ma : Nat), 50 ≤ ma → Does (.chargeComplete ma) s fun t => t = s) ∧
  (∀ (s : State) (ma : Nat), Does (.chargeCurrentCollapse ma) s fun t =>
    (5 * ma < s.tray.hold.current →
      t = { s with tray := { s.tray with hold := { s.tray.hold with charging := false, current := 0 } } }) ∧
    (s.tray.hold.current ≤ 5 * ma → t = s)) ∧
  (∀ (s : State) (mah rest0 rest1 : Nat), mah = capacityOf rest0 rest1 → s.tray.hold.present = true → s.tray.hold.charged = true → s.tray.hold.faulted = false →
    s.tray.pow.trayEn = true → s.tray.pow.busLost = false → Does (.capacityTest rest0 rest1) s fun t =>
      t.tray.hold.capacity = mah ∧ t.tray.hold.faulted = decide (mah < 1400) ∧
      s.tray.hold.lastTest + 2592000000000000 ≤ t.accNow ∧ s.tray.hold.chargedAt + 86400000000000 ≤ t.accNow ∧
      t.dies = s.dies) ∧
  (∀ (s : State) (mv : Nat), 20000 ≤ mv → mv ≤ 30000 → Does (.moduleFault mv) s fun t => t = s) ∧
  (∀ (s : State) (mv : Nat), s.tray.hold.present = true → s.tray.hold.faulted = false → mv < 20000 ∨ 30000 < mv →
    Does (.moduleFault mv) s fun t =>
    t.tray.hold.faulted = true ∧ t.tray.hold.charging = false ∧ t.tray.hold.available = false ∧ t.dies = s.dies ∧
    Reported t s 0xF 0x1401 (leBytes 2 (mv / 10) ++ leBytes 2 s.tray.hold.capacity)) ∧
  (∀ (s : State) (mah : Nat), Does (.holdupAvailabilityCheck mah) s fun t =>
    (t.tray.hold.available = true ↔ s.tray.hold.present = true ∧ s.tray.hold.idRead = true ∧
      s.tray.hold.faulted = false ∧ holdCharge (s.setting 0x1400 1 0xF) ≤ (if s.tray.hold.charged then mah else 0)) ∧
    t.dies = s.dies) ∧
  (∀ (s : State) (mv : Nat), Does (.holdupConverterTakeover mv) s fun t =>
    t = { s with tray := { s.tray with
      pow := { s.tray.pow with bus12Mv := mv }
      hold := { s.tray.hold with
        converter := (s.tray.hold.available && s.tray.pow.trayEn && decide (mv < 11400)) || s.tray.hold.converter } } }) ∧
  (∀ (s : State), s.tray.hold.onHoldup = true → s.tray.hold.saving = false → Does .holdTimerExpire s fun t =>
    (((List.finRange 8).map s.saveOf).flatten ≠ [] → t.tray.hold.saving = true ∧
      t.tray.hold.partialSave = ((List.finRange 8).map s.saveOf).flatten ∧
      s.tray.hold.holdAt + 1000000000 * s.setting 0x1400 1 0xF ≤ t.accNow ∧ TrayOnly s t) ∧
    (((List.finRange 8).map s.saveOf).flatten = [] → t.tray.fw.running = false ∧ t.tray.hold.onHoldup = false)) ∧
  (∀ (s : State), s.tray.hold.saving = true → Does .vaultSaveComplete s fun t =>
    (∃ v : VaultSave, t.tray.hold.save = some v ∧ v.granules = s.tray.hold.partialSave) ∧
    t.tray.hold.saves = satAdd 32 s.tray.hold.saves 1 ∧ t.tray.hold.saving = false ∧ t.tray.fw.running = false ∧
    ∀ d, (t.die d).rails.vio = false) ∧
  (∀ (s : State) (e : Ns), s.tray.hold.restoredEnd = some e → Does .granuleHoldExpire s fun t =>
    t.tray.hold.restoredEnd = none ∧ e ≤ t.accNow ∧ (∀ d g u, (s.die d).til.owner g = .held u →
      (s.die d).til.granuleBase ≠ .held u → (t.die d).til.owner g = .zeroing))

/-! ### Handoff (chapter 21) -/

/-- The handoff: the new image that takes its Firn record or refuses it (R581, R582), the holding pattern, its comparisons and
its end (R580), the watchdog that brings the old image back and rolls the release back (R583, R584), and the confirmation
(R585). -/
def Obligations.Handoff : Prop :=
  (∀ (s : State) (d : DieId) (t0 : Ns) (r : FirnHeader), (s.die d).svc.handoffAt = some t0 → (s.die d).svc.firnTaken = false →
    s.tray.now ≤ t0 + 150000 → s.firnOk (some d) r = true → Does (.firnRecordCheck (some d) r) s fun t =>
      t.die d = { s.die d with svc := { (s.die d).svc with firnTaken := true } } ∧ DieOnly d s t) ∧
  (∀ (s : State) (d : DieId) (t0 : Ns) (r : FirnHeader), (s.die d).svc.handoffAt = some t0 → (s.die d).svc.firnTaken = false →
    s.tray.now ≤ t0 + 150000 → s.firnOk (some d) r = false → Does (.firnRecordCheck (some d) r) s fun t =>
      (t.die d).svc.firnTaken = true ∧ (t.die d).pow.phases = [] ∧
      (t.die d).op.lead = (if (s.die d).op.wide then 0 else 120) ∧ 4 ≤ (t.die d).droop.noRaise) ∧
  (∀ (s : State) (r : FirnHeader), s.tray.fw.handoff = true → s.firnOk none r = false → Does (.firnRecordCheck none r) s fun t =>
    t.tray.fw.handoff = false ∧ t.tray.fw.runB = (!s.tray.fw.runB) ∧ t.tray.fw.nextDie = some 0 ∧ t.dies = s.dies ∧
    ∀ n, (t.master n).queue = [] ∧ (t.master n).session = (s.master n).session) ∧
  (∀ (s : State) (who : Option DieId) (r : FirnHeader), s.firnOk who r = true ↔ r.digestOk = true ∧
    r.index = (match who with | some d => d.val | none => 0xF) ∧
    r.major = (Config.firnVersion (if who.isSome then s.tray.fw.release else s.tray.fw.otherRelease)).toNat / 256 ∧
    r.minor ≤ (Config.firnVersion (if who.isSome then s.tray.fw.release else s.tray.fw.otherRelease)).toNat % 256) ∧
  (∀ (s : State) (r : FirnHeader), s.tray.fw.handoff = true → s.tray.fw.resetDue = false →
    (∀ n, (s.master n).queue = []) → s.firnOk none r = true → Does (.firnRecordCheck none r) s fun t =>
      t = { s with tray := { s.tray with fw := t.tray.fw } } ∧ t.tray.fw.handoff = false ∧
      t.tray.fw.runB = (!s.tray.fw.runB) ∧ t.tray.fw.nextDie = some 0) ∧
  (∀ (s : State) (d : DieId) (est : Nat), (s.die d).svc.holding.isSome = true → Does (.holdingPatternCheck d est) s fun t =>
    ((s.die d).uplifted est ≤ min (s.die d).pow.budget 1300000 →
      (s.die d).pow.epochEnergy + (s.die d).uplifted est * 10000 ≤ (s.die d).pow.budget * epochNs → t = s) ∧
    (min (s.die d).pow.budget 1300000 < (s.die d).uplifted est ∨
      (s.die d).pow.budget * epochNs < (s.die d).pow.epochEnergy + (s.die d).uplifted est * 10000 →
      (t.die d).svc.holdCut = true ∧
      (t.die d).til.runs = (s.die d).til.runs.map (fun r => { r with rate := min r.rate 4 }) ∧ DieOnly d s t)) ∧
  (∀ (s : State) (d : DieId) (digest : List Byte) (t0 : Ns), (s.die d).svc.holding = some t0 →
    (s.die d).svc.firnTaken = true → Does (.holdingPatternEnd d digest) s fun t =>
      (t.die d).svc.holding = none ∧ (t.die d).svc.handoffAt = none ∧ (t.die d).svc.fwDigest = some digest ∧
      (t.die d).svc.fwRelease = s.tray.fw.release ∧ t.tray.fw.confirmFrom = some s.tray.now) ∧
  (∀ (s : State) (d : DieId) (t0 : Ns), (s.die d).svc.handoffAt = some t0 → Does (.handoffWatchdog (some d)) s fun t =>
    (t.die d).svc.holding = none ∧ (t.die d).svc.handoffAt = none ∧ (t.die d).svc.bankB = (!(s.die d).svc.bankB) ∧
    (t.die d).svc.noProposal = true ∧
    (s.tray.fw.status = 4 → t.tray.fw.status = 5 ∧ t.tray.fw.result = 0x2000 + d.val ∧ t.tray.fw.rollBack = true ∧
      t.tray.fw.slot s.tray.fw.freeSlot = .invalid)) ∧
  (∀ (s : State), s.tray.fw.handoff = true → s.tray.fw.status = 4 → s.tray.fw.resetDue = false →
    (∀ n, (s.master n).queue = []) → Does (.handoffWatchdog none) s fun t =>
      t.tray.fw.handoff = false ∧ t.tray.fw.status = 5 ∧ t.tray.fw.result = 0x200F ∧
      t.tray.fw.slot s.tray.fw.freeSlot = .invalid ∧ t.dies = s.dies) ∧
  (∀ (s : State) (t0 : Ns), s.tray.fw.confirmFrom = some t0 → s.tray.fw.status = 4 → s.tray.fw.handAt = none →
    s.tray.fw.nextDie = none → s.tray.fw.handoff = false → (∀ d, (s.die d).svc.holding = none) →
    Does .updateConfirm s fun t =>
      t0 + 1000000000 ≤ t.tray.now ∧ t.tray.fw.status = 0 ∧ t.tray.fw.result = 1 ∧ t.tray.fw.confirmFrom = none ∧
      t.tray.fw.slot s.tray.fw.freeSlot = .active ∧ t.tray.fw.slot (!s.tray.fw.freeSlot) = .previous ∧
      t.tray.fw.floor = max s.tray.fw.floor s.tray.fw.stagedFloor ∧ Reported t s 0xF 0x1602 (leBytes 2 1) ∧
      ∀ d, t.die d = { s.die d with svc := { (s.die d).svc with newImage := false } })

/-! ### Service (chapters 02, 03, 22, 23) -/

/-- The moraine takes the reports 2 ms after their stamps (R614); a tile is failed by command, and remapped at its
quiescent point (R620, R623); an indicator and a heater are open after three failed diagnoses (R629, R630). An emergency
record changes no die, and on a die without tenants it tells the physical functions (R601); boundary scan needs an Expert
session, and for every instruction but BYPASS and IDCODE a tray without residents (R27); a source that loses its ready
flag is not ready (R42). -/
def Obligations.RepairsAndService : Prop :=
  (∀ (s : State) (r : Report) (rs : List Report), s.tray.mor.reports = r :: rs → s.tray.fw.running = true →
    s.tray.fw.restarting = false → Does .moraineAssign s fun t =>
      (∀ q, q ∈ t.tray.mor.reports ↔ q ∈ s.tray.mor.reports ∧ t.accNow < q.stamp + 2000000) ∧
      (∃ q ∈ s.tray.mor.reports, q.stamp + 2000000 ≤ t.accNow) ∧ TrayOnly s t ∧
      (rs = [] → (∀ e ∈ s.tray.mor.entries, e.2.source ≠ r.source) →
        t.tray.mor.entries = ((s.tray.mor.next, r) :: s.tray.mor.entries).take 4096 ∧
        t.tray.mor.next = (s.tray.mor.next + 1) % 2 ^ 32)) ∧
  (∀ (s : State) (m : MasterId) (d : DieId) (v : Nat), GateTakes m ⟨0x6000, 9, d.val⟩ (leBytes 1 v) s → v < 128 →
    Does (.remapTile m d v) s fun t =>
      ((s.die d).til.rowMap.getD (v / 16) 16 ≠ 16 ∨ (s.die d).tileFailed v = true → t = s.atTick) ∧
      ((s.die d).til.rowMap.getD (v / 16) 16 = 16 → (s.die d).tileFailed v = false →
        (t.die d).svc.failedTiles = (s.die d).svc.failedTiles ||| BitVec.twoPow 136 ((s.die d).til.phys v) ∧
        ((∀ M ∈ (s.die d).svc.remap, M / 16 ≠ v / 16) → (t.die d).svc.remap = (s.die d).svc.remap ++ [v]) ∧
        Reported t s d.val 0x6002 [BitVec.ofNat 8 v, BitVec.ofNat 8 ((s.die d).til.phys v)] ∧
        ∀ e, e ≠ d → t.die e = s.die e)) ∧
  (∀ (s : State) (d : DieId) (L : Nat), ((s.die d).svc.remap.find? fun L => (s.die d).quiescent L) = some L →
    L < 128 → 8 ≤ (s.die d).til.rowMap.length → Does (.tileRemap d true) s fun t =>
      (t.die d).til.rowMap = (s.die d).til.rowMap.set (L / 16) ((s.die d).til.phys L % 17) ∧
      L ∉ (t.die d).svc.remap ∧ (t.die d).svc.spares = (s.die d).svc.spares + 1 ∧
      (∀ g, 128 * L ≤ g → g < 128 * (16 * (L / 16 + 1)) → (t.die d).til.owner g = .free) ∧
      Reported t s d.val 0x6003 [BitVec.ofNat 8 L, BitVec.ofNat 8 ((t.die d).til.phys L)] ∧
      ∀ e, e ≠ d → t.die e = s.die e) ∧
  (∀ (s : State) (d : DieId) (L : Nat), ((s.die d).svc.remap.find? fun L => (s.die d).quiescent L) = some L →
    Does (.tileRemap d false) s fun t =>
      (t.die d).svc.remap = (s.die d).svc.remap.filter (fun M => M != L) ∧
      (t.die d).svc.failedTiles = (s.die d).svc.failedTiles ||| BitVec.twoPow 136 (16 + 17 * (L / 16)) ∧
      (t.die d).til = (s.die d).til ∧ DieOnly d s t) ∧
  (∀ (s : State) (currents : List Nat), Does (.ledDiagnosis currents) s fun t =>
    (∀ i, i < 11 → currents.getD i 100 < 50 → 2 ≤ s.tray.ind.fails.getD i 0 → t.tray.ind.openLoads.getLsbD i = true) ∧
    (∀ i, i < 11 → 50 ≤ currents.getD i 100 → 2 ≤ s.tray.ind.passes.getD i 0 → t.tray.ind.openLoads.getLsbD i = false) ∧
    (∀ i, i < 11 → currents.getD i 100 < 50 → s.tray.ind.fails.getD i 0 < 2 →
      t.tray.ind.openLoads.getLsbD i = s.tray.ind.openLoads.getLsbD i) ∧ TrayOnly s t) ∧
  (∀ (s : State) (d : DieId) (ring meas : Nat) (o : Bool), ring < 10816 → (s.die d).rails.vhtr = true →
    ((s.die d).fab.heater ring).isOpen = false → o = heaterBad d ring ((s.die d).heaterDuty d ring) meas →
    Does (.heaterDiagnosis d ring meas) s fun t =>
      (o = false → (t.die d).fab.heater ring = { (s.die d).fab.heater ring with openFails := 0 } ∧ DieOnly d s t) ∧
      (o = true → ((s.die d).fab.heater ring).openFails < 2 → (t.die d).fab.heater ring = { (s.die d).fab.heater ring with
        openFails := ((s.die d).fab.heater ring).openFails + 1 } ∧ DieOnly d s t) ∧
      (o = true → 2 ≤ ((s.die d).fab.heater ring).openFails → ((t.die d).fab.heater ring).isOpen = true)) ∧
  (∀ (s : State) (d : DieId) (r : EmergencyRec), Does (.emergency d r) s fun t =>
    t.dies = s.dies ∧ t.tray = s.tray ∧ t.masters = s.masters ∧ t.ctxs = s.ctxs ∧
    (s.residentTenants d = [] → t = s.noticePfs r.kind r.code 0xF r.time 0)) ∧
  (∀ (s : State) (i : TapInstr), Does (.boundaryScanInstruction i) s fun t =>
    ((∀ m : MasterId, m ≠ 0 → (s.master m).session = none) → t = s ∧ s.tdoOff = true) ∧
    ((∃ m : MasterId, m ≠ 0 ∧ (s.master m).session.isSome = true) → s.tdoOff = false ∧
      t = { s with tray := { s.tray with pow := { s.tray.pow with tap := t.tray.pow.tap } } } ∧
      (i = .bypass ∨ i = .idcode ∨ (∀ d, s.residents d = []) → t.tray.pow.tap = i) ∧
      (i ≠ .bypass → i ≠ .idcode → (∃ d, s.residents d ≠ []) → t.tray.pow.tap = .bypass))) ∧
  (∀ (s : State) (d : DieId), Does (.sourceReadyLoss d .fosc) s fun t =>
    t.die d = { s.die d with clk := { (s.die d).clk with foscReady := false } } ∧ DieOnly d s t) ∧
  (∀ (s : State) (d : DieId), Does (.sourceReadyLoss d .sosc) s fun t =>
    t.die d = { s.die d with clk := { (s.die d).clk with soscReady := false } } ∧ DieOnly d s t) ∧
  (∀ (s : State) (d : DieId), Does (.sourceReadyLoss d .opll) s fun t =>
    t.die d = { s.die d with clk := { (s.die d).clk with opllReady := false } } ∧ DieOnly d s t) ∧
  (∀ (s : State) (d : DieId), Does (.sourceReadyLoss d .rl) s fun t =>
    t.die d = { s.die d with clk := { (s.die d).clk with
      rlReady := (s.die d).clk.rlReady && ((s.die d).clk.holdover || (s.die d).clk.relockTo.isSome) } } ∧ DieOnly d s t) ∧
  (∀ (s : State) (d : DieId), (s.die d).clk.xaReady = true →
    (s.die d).clk.refInUse = .xb ∨ (s.die d).clk.holdover = true → Does (.sourceReadyLoss d .xa) s fun t =>
      (t.die d).clk.xaReady = false ∧ (t.die d).clk.refInUse = (s.die d).clk.refInUse ∧
      ((s.die d).clk.relockTo = some .xa → (t.die d).clk.relockTo = none ∧ (t.die d).clk.switchStatus = 1) ∧
      DieNoted d s t)
end

