-- ==== Sys2Proof/Laws/Memory.lean ====
section
/-! SUPPORT. SRAM as a memory: every operation keeps the canonical form, a byte reads as it was last written, and a write
leaves every other byte alone. -/

namespace Sys2Proof.Machine
open Sys2Proof

/-- The canonical form, as a property of the whole list. -/
theorem Memory.wf_iff (m : List Host.Cell) :
    Memory.wf m = true ↔ m.Pairwise (fun a b => a.1 < b.1) ∧ ∀ c ∈ m, c.2 ≠ 0#8 := by
  induction m with
  | nil => simp [Memory.wf]
  | cons c m ih =>
    cases m with
    | nil => simp [Memory.wf]
    | cons d m =>
      simp only [Memory.wf, Bool.and_eq_true, bne_iff_ne, decide_eq_true_eq, ih]
      constructor
      · rintro ⟨⟨h1, h2⟩, h3, h4⟩
        refine ⟨List.pairwise_cons.2 ⟨fun e he => ?_, h3⟩, fun e he => ?_⟩
        · rcases List.mem_cons.1 he with rfl | he
          · exact h2
          · exact Nat.lt_trans h2 ((List.pairwise_cons.1 h3).1 e he)
        · rcases List.mem_cons.1 he with rfl | he
          · exact h1
          · exact h4 e he
      · rintro ⟨h1, h2⟩
        exact ⟨⟨h2 c (by simp), (List.pairwise_cons.1 h1).1 d (by simp)⟩, (List.pairwise_cons.1 h1).2,
          fun e he => h2 e (by simp [he])⟩

/-- The cells of a byte string are in canonical form and lie in its range. -/
theorem Sram.cells_spec (bs : List Byte) : ∀ a,
    (Sram.cells a bs).Pairwise (fun x y => x.1 < y.1) ∧
      ∀ c ∈ Sram.cells a bs, c.2 ≠ 0#8 ∧ a ≤ c.1 ∧ c.1 < a + bs.length := by
  induction bs with
  | nil => intro a; simp [Sram.cells]
  | cons b bs ih =>
    intro a
    obtain ⟨h1, h2⟩ := ih (a + 1)
    simp only [Sram.cells]
    split
    · exact ⟨h1, fun c hc => ⟨(h2 c hc).1, by have := (h2 c hc).2; simp only [List.length_cons]; omega⟩⟩
    · refine ⟨List.pairwise_cons.2 ⟨fun c hc => by have := (h2 c hc).2; omega, h1⟩, fun c hc => ?_⟩
      rcases List.mem_cons.1 hc with rfl | hc
      · exact ⟨by assumption, by simp⟩
      · exact ⟨(h2 c hc).1, by have := (h2 c hc).2; simp only [List.length_cons]; omega⟩

/-- A write keeps the canonical form. -/
theorem Sram.write_wf (m : List Host.Cell) (a : Nat) (bs : List Byte) (h : Memory.wf m = true) :
    Memory.wf (Sram.write m a bs) = true := by
  obtain ⟨h1, h2⟩ := (Memory.wf_iff m).1 h
  obtain ⟨c1, c2⟩ := Sram.cells_spec bs a
  refine (Memory.wf_iff _).2 ⟨?_, fun c hc => ?_⟩
  · simp only [Sram.write, List.pairwise_append, List.mem_append, List.mem_filter, decide_eq_true_eq]
    refine ⟨⟨h1.filter _, c1, fun x hx y hy => ?_⟩, h1.filter _, fun x hx y hy => ?_⟩
    · have := (c2 y hy).2; omega
    · rcases hx with hx | hx
      · omega
      · have := (c2 x hx).2; omega
  · simp only [Sram.write, List.mem_append, List.mem_filter] at hc
    rcases hc with (hc | hc) | hc
    · exact h2 c hc.1
    · exact (c2 c hc).1
    · exact h2 c hc.1

/-- Zeroing keeps the canonical form. -/
theorem Sram.zero_wf (m : List Host.Cell) (a n : Nat) (h : Memory.wf m = true) : Memory.wf (Sram.zero m a n) = true := by
  obtain ⟨h1, h2⟩ := (Memory.wf_iff m).1 h
  refine (Memory.wf_iff _).2 ⟨h1.filter _, fun c hc => h2 c ?_⟩
  exact (List.mem_filter.1 hc).1

/-! ### Reads after writes -/

/-- Reading depends only on the cells at the address. -/
theorem Sram.read_append (m k : List Host.Cell) (x : Nat) (h : ∀ c ∈ m, c.1 ≠ x) :
    Sram.read (m ++ k) x = Sram.read k x := by
  have : m.find? (fun c => c.1 == x) = none := List.find?_eq_none.2 fun c hc => by simpa using h c hc
  simp [Sram.read, List.find?_append, this]

/-- Cells at other addresses behind do not matter. -/
theorem Sram.read_append_left (m k : List Host.Cell) (x : Nat) (h : ∀ c ∈ k, c.1 ≠ x) :
    Sram.read (m ++ k) x = Sram.read m x := by
  have : k.find? (fun c => c.1 == x) = none := List.find?_eq_none.2 fun c hc => by simpa using h c hc
  simp [Sram.read, List.find?_append, this]

/-- A filter that keeps every cell at the address does not change its reading. -/
theorem Sram.read_filter (m : List Host.Cell) (p : Host.Cell → Bool) (x : Nat) (h : ∀ c, c.1 = x → p c = true) :
    Sram.read (m.filter p) x = Sram.read m x := by
  simp only [Sram.read]
  induction m with
  | nil => rfl
  | cons c m ih =>
    by_cases hc : c.1 = x
    · simp [h c hc, hc]
    · by_cases hp : p c = true
      · simp [List.filter_cons_of_pos hp, hc]
        simpa using ih
      · simp [List.filter_cons_of_neg hp, hc]
        simpa using ih

/-- A write leaves every byte outside its range alone. -/
theorem Sram.read_write_ne (m : List Host.Cell) (a : Nat) (bs : List Byte) (x : Nat) (h : x < a ∨ a + bs.length ≤ x) :
    Sram.read (Sram.write m a bs) x = Sram.read m x := by
  have hc : ∀ c ∈ Sram.cells a bs, c.1 ≠ x := fun c hc => by have := ((Sram.cells_spec bs a).2 c hc).2; omega
  unfold Sram.write
  rcases h with h | h
  · rw [Sram.read_append_left, Sram.read_append_left _ _ _ hc, Sram.read_filter]
    · intro c hc; simp [hc, h]
    · intro c hc; have := (List.mem_filter.1 hc).2; simp at this; omega
  · rw [Sram.read_append, Sram.read_filter]
    · intro c hc; simp [hc, h]
    · intro c hc'
      rcases List.mem_append.1 hc' with hc' | hc'
      · have := (List.mem_filter.1 hc').2; simp at this; omega
      · exact hc c hc'

/-- The cells of a byte string read back as its bytes. -/
theorem Sram.read_cells (bs : List Byte) : ∀ a i, i < bs.length → Sram.read (Sram.cells a bs) (a + i) = bs.getD i 0#8 := by
  induction bs with
  | nil => intro a i h; simp at h
  | cons b bs ih =>
    intro a i h
    have hlow : ∀ c ∈ Sram.cells (a + 1) bs, c.1 ≠ a := fun c hc => by
      have := ((Sram.cells_spec bs (a + 1)).2 c hc).2; omega
    have hz : Sram.read (Sram.cells (a + 1) bs) a = 0#8 := by
      have := Sram.read_append (Sram.cells (a + 1) bs) [] a hlow
      simpa [Sram.read] using this
    cases i with
    | zero =>
      simp only [Sram.cells]
      split
      · rename_i hb; simp [hb, hz]
      · simp [Sram.read]
    | succ i =>
      have hi := ih (a + 1) i (by simpa using h)
      have e : a + (i + 1) = a + 1 + i := by omega
      simp only [Sram.cells]
      split
      · rw [e, hi]; simp
      · have := Sram.read_append [(a, b)] (Sram.cells (a + 1) bs) (a + (i + 1)) (by simp)
        simp only [List.singleton_append] at this
        rw [this, e, hi]; simp

/-- A byte reads as it was written. -/
theorem Sram.read_write (m : List Host.Cell) (a : Nat) (bs : List Byte) (i : Nat) (h : i < bs.length) :
    Sram.read (Sram.write m a bs) (a + i) = bs.getD i 0#8 := by
  unfold Sram.write
  rw [Sram.read_append_left, Sram.read_append, Sram.read_cells bs a i h]
  · intro c hc; have := (List.mem_filter.1 hc).2; simp at this; omega
  · intro c hc; have := (List.mem_filter.1 hc).2; simp at this; omega

/-- Zeroing leaves every byte outside its range alone. -/
theorem Sram.read_zero_ne (m : List Host.Cell) (a n x : Nat) (h : x < a ∨ a + n ≤ x) :
    Sram.read (Sram.zero m a n) x = Sram.read m x := by
  unfold Sram.zero
  rw [Sram.read_filter]
  intro c hc; simp [hc]; omega

/-- A zeroed byte reads 0. -/
theorem Sram.read_zero (m : List Host.Cell) (a n x : Nat) (h : a ≤ x ∧ x < a + n) : Sram.read (Sram.zero m a n) x = 0#8 := by
  have := Sram.read_append (Sram.zero m a n) [] x fun c hc => by
    have := (List.mem_filter.1 hc).2; simp at this; omega
  simpa [Sram.read] using this

end Sys2Proof.Machine
end

