-- ==== Sys2Proof/Laws/State.lean ====
section
/-! SUPPORT. What each update of the state does to each part of it: true by reflexivity, so that no proof unfolds a record
update. -/

namespace Sys2Proof.Machine
open Sys2Proof

/-! ### modDie -/

@[simp] theorem State.modDie_tray (s : State) (d : DieId) (f : Die → Die) :
    (s.modDie d f).tray = s.tray := rfl
@[simp] theorem State.modDie_masters (s : State) (d : DieId) (f : Die → Die) :
    (s.modDie d f).masters = s.masters := rfl
@[simp] theorem State.modDie_pfs (s : State) (d : DieId) (f : Die → Die) :
    (s.modDie d f).pfs = s.pfs := rfl
@[simp] theorem State.modDie_vfs (s : State) (d : DieId) (f : Die → Die) :
    (s.modDie d f).vfs = s.vfs := rfl
@[simp] theorem State.modDie_tenants (s : State) (d : DieId) (f : Die → Die) :
    (s.modDie d f).tenants = s.tenants := rfl
@[simp] theorem State.modDie_ctxs (s : State) (d : DieId) (f : Die → Die) :
    (s.modDie d f).ctxs = s.ctxs := rfl
@[simp] theorem State.modDie_outputs (s : State) (d : DieId) (f : Die → Die) :
    (s.modDie d f).outputs = s.outputs := rfl
@[simp] theorem State.modDie_fresh (s : State) (d : DieId) (f : Die → Die) :
    (s.modDie d f).fresh = s.fresh := rfl
@[simp] theorem State.modDie_pending (s : State) (d : DieId) (f : Die → Die) :
    (s.modDie d f).pending = s.pending := rfl

/-! ### allDies -/

@[simp] theorem State.allDies_tray (s : State) (f : Die → Die) :
    (s.allDies f).tray = s.tray := rfl
@[simp] theorem State.allDies_masters (s : State) (f : Die → Die) :
    (s.allDies f).masters = s.masters := rfl
@[simp] theorem State.allDies_pfs (s : State) (f : Die → Die) :
    (s.allDies f).pfs = s.pfs := rfl
@[simp] theorem State.allDies_vfs (s : State) (f : Die → Die) :
    (s.allDies f).vfs = s.vfs := rfl
@[simp] theorem State.allDies_tenants (s : State) (f : Die → Die) :
    (s.allDies f).tenants = s.tenants := rfl
@[simp] theorem State.allDies_ctxs (s : State) (f : Die → Die) :
    (s.allDies f).ctxs = s.ctxs := rfl
@[simp] theorem State.allDies_outputs (s : State) (f : Die → Die) :
    (s.allDies f).outputs = s.outputs := rfl
@[simp] theorem State.allDies_fresh (s : State) (f : Die → Die) :
    (s.allDies f).fresh = s.fresh := rfl
@[simp] theorem State.allDies_pending (s : State) (f : Die → Die) :
    (s.allDies f).pending = s.pending := rfl

/-! ### modTray -/

@[simp] theorem State.modTray_dies (s : State) (f : Tray → Tray) :
    (s.modTray f).dies = s.dies := rfl
@[simp] theorem State.modTray_masters (s : State) (f : Tray → Tray) :
    (s.modTray f).masters = s.masters := rfl
@[simp] theorem State.modTray_pfs (s : State) (f : Tray → Tray) :
    (s.modTray f).pfs = s.pfs := rfl
@[simp] theorem State.modTray_vfs (s : State) (f : Tray → Tray) :
    (s.modTray f).vfs = s.vfs := rfl
@[simp] theorem State.modTray_tenants (s : State) (f : Tray → Tray) :
    (s.modTray f).tenants = s.tenants := rfl
@[simp] theorem State.modTray_ctxs (s : State) (f : Tray → Tray) :
    (s.modTray f).ctxs = s.ctxs := rfl
@[simp] theorem State.modTray_outputs (s : State) (f : Tray → Tray) :
    (s.modTray f).outputs = s.outputs := rfl
@[simp] theorem State.modTray_fresh (s : State) (f : Tray → Tray) :
    (s.modTray f).fresh = s.fresh := rfl
@[simp] theorem State.modTray_pending (s : State) (f : Tray → Tray) :
    (s.modTray f).pending = s.pending := rfl

/-! ### modMaster -/

@[simp] theorem State.modMaster_tray (s : State) (m : MasterId) (f : Master → Master) :
    (s.modMaster m f).tray = s.tray := rfl
@[simp] theorem State.modMaster_dies (s : State) (m : MasterId) (f : Master → Master) :
    (s.modMaster m f).dies = s.dies := rfl
@[simp] theorem State.modMaster_pfs (s : State) (m : MasterId) (f : Master → Master) :
    (s.modMaster m f).pfs = s.pfs := rfl
@[simp] theorem State.modMaster_vfs (s : State) (m : MasterId) (f : Master → Master) :
    (s.modMaster m f).vfs = s.vfs := rfl
@[simp] theorem State.modMaster_tenants (s : State) (m : MasterId) (f : Master → Master) :
    (s.modMaster m f).tenants = s.tenants := rfl
@[simp] theorem State.modMaster_ctxs (s : State) (m : MasterId) (f : Master → Master) :
    (s.modMaster m f).ctxs = s.ctxs := rfl
@[simp] theorem State.modMaster_outputs (s : State) (m : MasterId) (f : Master → Master) :
    (s.modMaster m f).outputs = s.outputs := rfl
@[simp] theorem State.modMaster_fresh (s : State) (m : MasterId) (f : Master → Master) :
    (s.modMaster m f).fresh = s.fresh := rfl
@[simp] theorem State.modMaster_pending (s : State) (m : MasterId) (f : Master → Master) :
    (s.modMaster m f).pending = s.pending := rfl

/-! ### modPf -/

@[simp] theorem State.modPf_tray (s : State) (p : Fin 2) (f : PF → PF) :
    (s.modPf p f).tray = s.tray := rfl
@[simp] theorem State.modPf_dies (s : State) (p : Fin 2) (f : PF → PF) :
    (s.modPf p f).dies = s.dies := rfl
@[simp] theorem State.modPf_masters (s : State) (p : Fin 2) (f : PF → PF) :
    (s.modPf p f).masters = s.masters := rfl
@[simp] theorem State.modPf_vfs (s : State) (p : Fin 2) (f : PF → PF) :
    (s.modPf p f).vfs = s.vfs := rfl
@[simp] theorem State.modPf_tenants (s : State) (p : Fin 2) (f : PF → PF) :
    (s.modPf p f).tenants = s.tenants := rfl
@[simp] theorem State.modPf_ctxs (s : State) (p : Fin 2) (f : PF → PF) :
    (s.modPf p f).ctxs = s.ctxs := rfl
@[simp] theorem State.modPf_outputs (s : State) (p : Fin 2) (f : PF → PF) :
    (s.modPf p f).outputs = s.outputs := rfl
@[simp] theorem State.modPf_fresh (s : State) (p : Fin 2) (f : PF → PF) :
    (s.modPf p f).fresh = s.fresh := rfl
@[simp] theorem State.modPf_pending (s : State) (p : Fin 2) (f : PF → PF) :
    (s.modPf p f).pending = s.pending := rfl

/-! ### modVf -/

@[simp] theorem State.modVf_tray (s : State) (p n : Nat) (f : VF → VF) :
    (s.modVf p n f).tray = s.tray := rfl
@[simp] theorem State.modVf_dies (s : State) (p n : Nat) (f : VF → VF) :
    (s.modVf p n f).dies = s.dies := rfl
@[simp] theorem State.modVf_masters (s : State) (p n : Nat) (f : VF → VF) :
    (s.modVf p n f).masters = s.masters := rfl
@[simp] theorem State.modVf_pfs (s : State) (p n : Nat) (f : VF → VF) :
    (s.modVf p n f).pfs = s.pfs := rfl
@[simp] theorem State.modVf_tenants (s : State) (p n : Nat) (f : VF → VF) :
    (s.modVf p n f).tenants = s.tenants := rfl
@[simp] theorem State.modVf_ctxs (s : State) (p n : Nat) (f : VF → VF) :
    (s.modVf p n f).ctxs = s.ctxs := rfl
@[simp] theorem State.modVf_outputs (s : State) (p n : Nat) (f : VF → VF) :
    (s.modVf p n f).outputs = s.outputs := rfl
@[simp] theorem State.modVf_fresh (s : State) (p n : Nat) (f : VF → VF) :
    (s.modVf p n f).fresh = s.fresh := rfl
@[simp] theorem State.modVf_pending (s : State) (p n : Nat) (f : VF → VF) :
    (s.modVf p n f).pending = s.pending := rfl

/-! ### modTenant -/

@[simp] theorem State.modTenant_tray (s : State) (t : Nat) (f : Tenant → Tenant) :
    (s.modTenant t f).tray = s.tray := rfl
@[simp] theorem State.modTenant_dies (s : State) (t : Nat) (f : Tenant → Tenant) :
    (s.modTenant t f).dies = s.dies := rfl
@[simp] theorem State.modTenant_masters (s : State) (t : Nat) (f : Tenant → Tenant) :
    (s.modTenant t f).masters = s.masters := rfl
@[simp] theorem State.modTenant_pfs (s : State) (t : Nat) (f : Tenant → Tenant) :
    (s.modTenant t f).pfs = s.pfs := rfl
@[simp] theorem State.modTenant_vfs (s : State) (t : Nat) (f : Tenant → Tenant) :
    (s.modTenant t f).vfs = s.vfs := rfl
@[simp] theorem State.modTenant_ctxs (s : State) (t : Nat) (f : Tenant → Tenant) :
    (s.modTenant t f).ctxs = s.ctxs := rfl
@[simp] theorem State.modTenant_outputs (s : State) (t : Nat) (f : Tenant → Tenant) :
    (s.modTenant t f).outputs = s.outputs := rfl
@[simp] theorem State.modTenant_fresh (s : State) (t : Nat) (f : Tenant → Tenant) :
    (s.modTenant t f).fresh = s.fresh := rfl
@[simp] theorem State.modTenant_pending (s : State) (t : Nat) (f : Tenant → Tenant) :
    (s.modTenant t f).pending = s.pending := rfl

/-! ### modCtx -/

@[simp] theorem State.modCtx_tray (s : State) (t h : Nat) (f : Ctx → Ctx) :
    (s.modCtx t h f).tray = s.tray := rfl
@[simp] theorem State.modCtx_dies (s : State) (t h : Nat) (f : Ctx → Ctx) :
    (s.modCtx t h f).dies = s.dies := rfl
@[simp] theorem State.modCtx_masters (s : State) (t h : Nat) (f : Ctx → Ctx) :
    (s.modCtx t h f).masters = s.masters := rfl
@[simp] theorem State.modCtx_pfs (s : State) (t h : Nat) (f : Ctx → Ctx) :
    (s.modCtx t h f).pfs = s.pfs := rfl
@[simp] theorem State.modCtx_vfs (s : State) (t h : Nat) (f : Ctx → Ctx) :
    (s.modCtx t h f).vfs = s.vfs := rfl
@[simp] theorem State.modCtx_tenants (s : State) (t h : Nat) (f : Ctx → Ctx) :
    (s.modCtx t h f).tenants = s.tenants := rfl
@[simp] theorem State.modCtx_outputs (s : State) (t h : Nat) (f : Ctx → Ctx) :
    (s.modCtx t h f).outputs = s.outputs := rfl
@[simp] theorem State.modCtx_fresh (s : State) (t h : Nat) (f : Ctx → Ctx) :
    (s.modCtx t h f).fresh = s.fresh := rfl
@[simp] theorem State.modCtx_pending (s : State) (t h : Nat) (f : Ctx → Ctx) :
    (s.modCtx t h f).pending = s.pending := rfl

/-! ### emit -/

@[simp] theorem State.emit_tray (s : State) (o : Output) :
    (s.emit o).tray = s.tray := rfl
@[simp] theorem State.emit_dies (s : State) (o : Output) :
    (s.emit o).dies = s.dies := rfl
@[simp] theorem State.emit_masters (s : State) (o : Output) :
    (s.emit o).masters = s.masters := rfl
@[simp] theorem State.emit_pfs (s : State) (o : Output) :
    (s.emit o).pfs = s.pfs := rfl
@[simp] theorem State.emit_vfs (s : State) (o : Output) :
    (s.emit o).vfs = s.vfs := rfl
@[simp] theorem State.emit_tenants (s : State) (o : Output) :
    (s.emit o).tenants = s.tenants := rfl
@[simp] theorem State.emit_ctxs (s : State) (o : Output) :
    (s.emit o).ctxs = s.ctxs := rfl
@[simp] theorem State.emit_fresh (s : State) (o : Output) :
    (s.emit o).fresh = s.fresh := rfl
@[simp] theorem State.emit_pending (s : State) (o : Output) :
    (s.emit o).pending = s.pending := rfl

/-! ### The part that changes -/

/-- Reading a vector by a bounded index is reading it by its number. -/
theorem vec_get {α : Type} {n : Nat} (v : Vector α n) (i : Fin n) : v.get i = v[i.val] := rfl

@[simp] theorem State.modTray_tray (s : State) (f : Tray → Tray) : (s.modTray f).tray = f s.tray := rfl

@[simp] theorem State.emit_outputs (s : State) (o : Output) : (s.emit o).outputs = o :: s.outputs := rfl

@[simp] theorem State.modDie_die (s : State) (d : DieId) (f : Die → Die) : (s.modDie d f).die d = f (s.die d) := by
  simp [State.modDie, State.die, vec_get]

theorem State.modDie_die_ne (s : State) (d e : DieId) (f : Die → Die) (h : e ≠ d) : (s.modDie d f).die e = s.die e := by
  have h' : d.val ≠ e.val := fun c => h (Fin.ext c.symm)
  simp [State.modDie, State.die, vec_get, h']

@[simp] theorem State.allDies_die (s : State) (d : DieId) (f : Die → Die) : (s.allDies f).die d = f (s.die d) := by
  simp [State.allDies, State.die, vec_get]

@[simp] theorem State.modMaster_master (s : State) (m : MasterId) (f : Master → Master) :
    (s.modMaster m f).master m = f (s.master m) := by
  simp [State.modMaster, State.master, vec_get]

theorem State.modMaster_master_ne (s : State) (m n : MasterId) (f : Master → Master) (h : n ≠ m) :
    (s.modMaster m f).master n = s.master n := by
  have h' : m.val ≠ n.val := fun c => h (Fin.ext c.symm)
  simp [State.modMaster, State.master, vec_get, h']

@[simp] theorem State.modPf_pf (s : State) (p : Fin 2) (f : PF → PF) : (s.modPf p f).pf p = f (s.pf p) := by
  simp [State.modPf, State.pf, vec_get]

theorem State.modPf_pf_ne (s : State) (p q : Fin 2) (f : PF → PF) (h : q ≠ p) : (s.modPf p f).pf q = s.pf q := by
  have h' : p.val ≠ q.val := fun c => h (Fin.ext c.symm)
  simp [State.modPf, State.pf, vec_get, h']

/-! ### Reads of a die, a master and a function across updates of something else -/

@[simp] theorem State.modDie_master (s : State) (d : DieId) (f : Die → Die) (n : MasterId) : (s.modDie d f).master n = s.master n := rfl
@[simp] theorem State.modDie_pf (s : State) (d : DieId) (f : Die → Die) (q : Fin 2) : (s.modDie d f).pf q = s.pf q := rfl
@[simp] theorem State.allDies_master (s : State) (f : Die → Die) (n : MasterId) : (s.allDies f).master n = s.master n := rfl
@[simp] theorem State.allDies_pf (s : State) (f : Die → Die) (q : Fin 2) : (s.allDies f).pf q = s.pf q := rfl
@[simp] theorem State.modTray_die (s : State) (f : Tray → Tray) (e : DieId) : (s.modTray f).die e = s.die e := rfl
@[simp] theorem State.modTray_master (s : State) (f : Tray → Tray) (n : MasterId) : (s.modTray f).master n = s.master n := rfl
@[simp] theorem State.modTray_pf (s : State) (f : Tray → Tray) (q : Fin 2) : (s.modTray f).pf q = s.pf q := rfl
@[simp] theorem State.modMaster_die (s : State) (m : MasterId) (f : Master → Master) (e : DieId) : (s.modMaster m f).die e = s.die e := rfl
@[simp] theorem State.modMaster_pf (s : State) (m : MasterId) (f : Master → Master) (q : Fin 2) : (s.modMaster m f).pf q = s.pf q := rfl
@[simp] theorem State.modPf_die (s : State) (p : Fin 2) (f : PF → PF) (e : DieId) : (s.modPf p f).die e = s.die e := rfl
@[simp] theorem State.modPf_master (s : State) (p : Fin 2) (f : PF → PF) (n : MasterId) : (s.modPf p f).master n = s.master n := rfl
@[simp] theorem State.modVf_die (s : State) (p n : Nat) (f : VF → VF) (e : DieId) : (s.modVf p n f).die e = s.die e := rfl
@[simp] theorem State.modVf_master (s : State) (p n : Nat) (f : VF → VF) (n : MasterId) : (s.modVf p n f).master n = s.master n := rfl
@[simp] theorem State.modVf_pf (s : State) (p n : Nat) (f : VF → VF) (q : Fin 2) : (s.modVf p n f).pf q = s.pf q := rfl
@[simp] theorem State.modTenant_die (s : State) (t : Nat) (f : Tenant → Tenant) (e : DieId) : (s.modTenant t f).die e = s.die e := rfl
@[simp] theorem State.modTenant_master (s : State) (t : Nat) (f : Tenant → Tenant) (n : MasterId) : (s.modTenant t f).master n = s.master n := rfl
@[simp] theorem State.modTenant_pf (s : State) (t : Nat) (f : Tenant → Tenant) (q : Fin 2) : (s.modTenant t f).pf q = s.pf q := rfl
@[simp] theorem State.modCtx_die (s : State) (t h : Nat) (f : Ctx → Ctx) (e : DieId) : (s.modCtx t h f).die e = s.die e := rfl
@[simp] theorem State.modCtx_master (s : State) (t h : Nat) (f : Ctx → Ctx) (n : MasterId) : (s.modCtx t h f).master n = s.master n := rfl
@[simp] theorem State.modCtx_pf (s : State) (t h : Nat) (f : Ctx → Ctx) (q : Fin 2) : (s.modCtx t h f).pf q = s.pf q := rfl
@[simp] theorem State.emit_die (s : State) (o : Output) (e : DieId) : (s.emit o).die e = s.die e := rfl
@[simp] theorem State.emit_master (s : State) (o : Output) (n : MasterId) : (s.emit o).master n = s.master n := rfl
@[simp] theorem State.emit_pf (s : State) (o : Output) (q : Fin 2) : (s.emit o).pf q = s.pf q := rfl

end Sys2Proof.Machine
end

