-- ==== Sys2Proof/Laws/Keeps.lean ====
section
/-! SUPPORT. `Keeps s t`: what no operation of the tray breaks on its way from s to t. Every shared operation has one lemma
that says so; a proof about all commands goes through them and unfolds no operation. -/

namespace Sys2Proof.Machine
open Sys2Proof

/-- From s to t the queue of commands stays as it is, accumulated runtime does not fall, what was sent stays sent, and a
sound state stays sound. -/
structure Keeps (s t : State) : Prop where
  pending : t.pending = s.pending
  time : s.accNow ≤ t.accNow
  outputs : s.outputs <:+ t.outputs
  dies : (∀ d, DieInv (s.die d)) → ∀ d, DieInv (t.die d)
  masters : (∀ m, MasterInv (s.master m)) → ∀ m, MasterInv (t.master m)

theorem Keeps.refl (s : State) : Keeps s s := ⟨rfl, Nat.le_refl _, List.suffix_refl _, id, id⟩

theorem Keeps.trans {s t u : State} (h : Keeps s t) (k : Keeps t u) : Keeps s u :=
  ⟨k.pending.trans h.pending, Nat.le_trans h.time k.time, h.outputs.trans k.outputs, fun i => k.dies (h.dies i),
    fun i => k.masters (h.masters i)⟩

/-- A state that differs only in parts that `Keeps` does not speak of. -/
theorem Keeps.other {s t u : State} (h : Keeps s t) (hp : u.pending = t.pending) (hn : u.tray.now = t.tray.now)
    (hb : u.tray.accBase = t.tray.accBase) (ho : u.outputs = t.outputs) (hd : u.dies = t.dies)
    (hm : u.masters = t.masters) : Keeps s u := by
  refine h.trans ⟨hp, ?_, ?_, ?_, ?_⟩
  · simp [State.accNow, hn, hb]
  · exact ho ▸ List.suffix_refl _
  · intro i d; simpa [State.die, hd] using i d
  · intro i m; simpa [State.master, hm] using i m

theorem Keeps.ite {s t u : State} {c : Prop} [Decidable c] (h : Keeps s t) (k : Keeps s u) :
    Keeps s (if c then t else u) := by
  split
  · exact h
  · exact k

/-- A fold of an operation that keeps. -/
theorem Keeps.foldl {α : Type} {s t : State} {f : State → α → State} (l : List α)
    (hf : ∀ u x, Keeps s u → Keeps s (f u x)) (h : Keeps s t) : Keeps s (l.foldl f t) := by
  induction l generalizing t with
  | nil => exact h
  | cons x xs ih => exact ih (hf t x h)

/-- A die that keeps the parts `DieInv` speaks of is sound still. -/
theorem DieInv.same {x y : Die} (h : DieInv x) (h1 : y.til.sram = x.til.sram) (h2 : y.op.trim = x.op.trim)
    (h3 : y.op.trimFall = x.op.trimFall) (h4 : y.pow.phases = x.pow.phases) (h5 : y.pow.epochs = x.pow.epochs)
    (h6 : y.til.slots = x.til.slots) : DieInv y :=
  ⟨h1 ▸ h.1, h2 ▸ h.2, h3 ▸ h.3, h4 ▸ h.4, h5 ▸ h.5, h6 ▸ h.6⟩

/-- A master that keeps its queue and its kept responses is sound still. -/
theorem MasterInv.same {x y : Master} (h : MasterInv x) (h1 : y.queue = x.queue) (h2 : y.responses = x.responses) :
    MasterInv y := ⟨h1 ▸ h.1, h2 ▸ h.2⟩

/-- Granule owners aside, nothing of the tiles changes. -/
theorem Tiles.foldl_setOwner {α : Type} (l : List α) (f : α → Nat) (o : Granule) (x : Tiles) :
    (l.foldl (fun y a => y.setOwner (f a) o) x).sram = x.sram ∧ (l.foldl (fun y a => y.setOwner (f a) o) x).slots = x.slots := by
  induction l generalizing x with
  | nil => exact ⟨rfl, rfl⟩
  | cons a l ih => exact ih (x.setOwner (f a) o)

theorem Tiles.setOwners_keep (x : Tiles) (first n : Nat) (o : Granule) :
    (x.setOwners first n o).sram = x.sram ∧ (x.setOwners first n o).slots = x.slots :=
  Tiles.foldl_setOwner (List.range n) (fun i => first + i) o x

theorem DieInv.tiles {x : Die} (h : DieInv x) (y : Tiles) (hs : y.sram = x.til.sram)
    (hl : y.slots.length = x.til.slots.length) : DieInv { x with til := y } :=
  ⟨hs ▸ h.1, h.2, h.3, h.4, h.5, hl ▸ h.6⟩

/-! ### The updates of one part -/

theorem State.modDie_keeps {s0 s : State} (h : Keeps s0 s) (d : DieId) (f : Die → Die) (hf : ∀ x, DieInv x → DieInv (f x)) :
    Keeps s0 (s.modDie d f) := by
  refine h.trans ⟨rfl, Nat.le_refl _, List.suffix_refl _, fun i e => ?_, id⟩
  by_cases c : e = d
  · subst c; rw [State.modDie_die]; exact hf _ (i e)
  · rw [State.modDie_die_ne s d e f c]; exact i e

theorem State.modDie_keeps_at {s0 s : State} (h : Keeps s0 s) (d : DieId) (f : Die → Die)
    (hf : DieInv (s.die d) → DieInv (f (s.die d))) : Keeps s0 (s.modDie d f) := by
  refine h.trans ⟨rfl, Nat.le_refl _, List.suffix_refl _, fun i e => ?_, id⟩
  by_cases c : e = d
  · subst c; rw [State.modDie_die]; exact hf (i e)
  · rw [State.modDie_die_ne s d e f c]; exact i e

theorem State.allDies_keeps {s0 s : State} (h : Keeps s0 s) (f : Die → Die) (hf : ∀ x, DieInv x → DieInv (f x)) :
    Keeps s0 (s.allDies f) :=
  h.trans ⟨rfl, Nat.le_refl _, List.suffix_refl _, fun i e => by rw [State.allDies_die]; exact hf _ (i e), id⟩

theorem State.modTray_keeps {s0 s : State} (h : Keeps s0 s) (f : Tray → Tray)
    (hf : ∀ y, y.accBase + y.now ≤ (f y).accBase + (f y).now) : Keeps s0 (s.modTray f) :=
  h.trans ⟨rfl, hf _, List.suffix_refl _, id, id⟩

theorem State.modMaster_keeps {s0 s : State} (h : Keeps s0 s) (m : MasterId) (f : Master → Master)
    (hf : ∀ x, MasterInv x → MasterInv (f x)) : Keeps s0 (s.modMaster m f) := by
  refine h.trans ⟨rfl, Nat.le_refl _, List.suffix_refl _, id, fun i e => ?_⟩
  by_cases c : e = m
  · subst c; rw [State.modMaster_master]; exact hf _ (i e)
  · rw [State.modMaster_master_ne s m e f c]; exact i e

theorem State.modMaster_keeps_at {s0 s : State} (h : Keeps s0 s) (m : MasterId) (f : Master → Master)
    (hf : MasterInv (s.master m) → MasterInv (f (s.master m))) : Keeps s0 (s.modMaster m f) := by
  refine h.trans ⟨rfl, Nat.le_refl _, List.suffix_refl _, id, fun i e => ?_⟩
  by_cases c : e = m
  · subst c; rw [State.modMaster_master]; exact hf (i e)
  · rw [State.modMaster_master_ne s m e f c]; exact i e

theorem State.modPf_keeps {s0 s : State} (h : Keeps s0 s) (p : Fin 2) (f : PF → PF) : Keeps s0 (s.modPf p f) :=
  h.other rfl rfl rfl rfl rfl rfl

theorem State.modVf_keeps {s0 s : State} (h : Keeps s0 s) (p n : Nat) (f : VF → VF) : Keeps s0 (s.modVf p n f) :=
  h.other rfl rfl rfl rfl rfl rfl

theorem State.modTenant_keeps {s0 s : State} (h : Keeps s0 s) (t : Nat) (f : Tenant → Tenant) : Keeps s0 (s.modTenant t f) :=
  h.other rfl rfl rfl rfl rfl rfl

theorem State.modCtx_keeps {s0 s : State} (h : Keeps s0 s) (t k : Nat) (f : Ctx → Ctx) : Keeps s0 (s.modCtx t k f) :=
  h.other rfl rfl rfl rfl rfl rfl

theorem State.emit_keeps {s0 s : State} (h : Keeps s0 s) (o : Output) : Keeps s0 (s.emit o) :=
  h.trans ⟨rfl, Nat.le_refl _, ⟨[o], rfl⟩, id, id⟩

theorem State.forDies_keeps {s0 s : State} (h : Keeps s0 s) (f : State → DieId → State)
    (hf : ∀ u d, Keeps s0 u → Keeps s0 (f u d)) : Keeps s0 (s.forDies f) := Keeps.foldl _ hf h

theorem State.skipFree_keeps {s0 s : State} (h : Keeps s0 s) (n : Nat) : Keeps s0 (s.skipFree n) :=
  h.other rfl rfl rfl rfl rfl rfl

theorem State.freeBytes_keeps {s0 s : State} (h : Keeps s0 s) (n : Nat) : Keeps s0 (s.freeBytes n).2 :=
  h.other rfl rfl rfl rfl rfl rfl

theorem State.takeFree_keeps {s0 s : State} (h : Keeps s0 s) : Keeps s0 s.takeFree.2 :=
  h.other rfl rfl rfl rfl rfl rfl

theorem State.setCtxs_keeps {s0 s : State} (h : Keeps s0 s) (f : List ((Nat × Nat) × Ctx) → List ((Nat × Nat) × Ctx)) :
    Keeps s0 (s.setCtxs f) := h.other rfl rfl rfl rfl rfl rfl

theorem State.setVfs_keeps {s0 s : State} (h : Keeps s0 s) (f : List ((Nat × Nat) × VF) → List ((Nat × Nat) × VF)) :
    Keeps s0 (s.setVfs f) := h.other rfl rfl rfl rfl rfl rfl

theorem State.setTenants_keeps {s0 s : State} (h : Keeps s0 s) (f : List (Nat × Tenant) → List (Nat × Tenant)) :
    Keeps s0 (s.setTenants f) := h.other rfl rfl rfl rfl rfl rfl

theorem State.allPfs_keeps {s0 s : State} (h : Keeps s0 s) (f : PF → PF) : Keeps s0 (s.allPfs f) :=
  h.other rfl rfl rfl rfl rfl rfl

theorem State.allMasters_keeps {s0 s : State} (h : Keeps s0 s) (f : Master → Master)
    (hf : ∀ x, MasterInv x → MasterInv (f x)) : Keeps s0 (s.allMasters f) :=
  h.trans ⟨rfl, Nat.le_refl _, List.suffix_refl _, id, fun i m => by
    simp only [State.allMasters, State.master, vec_get, Vector.getElem_map]; exact hf _ (i m)⟩

/-- A fold that carries a state beside something else. -/
theorem Keeps.foldl_fst {α β : Type} {s : State} {f : State × β → α → State × β} (l : List α)
    (hf : ∀ u x, Keeps s u.1 → Keeps s (f u x).1) {t : State × β} (h : Keeps s t.1) : Keeps s (l.foldl f t).1 := by
  induction l generalizing t with
  | nil => exact h
  | cons x xs ih => exact ih (hf t x h)

/-! ### Answers of the gate -/

/-- A gate result keeps what its state keeps. -/
structure GKeeps (s : State) (r : GateResult) : Prop where
  keeps : match r with
    | .refused _ _ t => Keeps s t
    | .done t _ _ => Keeps s t

theorem GKeeps.done {s t : State} (h : Keeps s t) (e : Nat) (b : Bool) : GKeeps s (.done t e b) := ⟨h⟩

theorem GKeeps.refused {s t : State} (h : Keeps s t) (c e : Nat) : GKeeps s (.refused c e t) := ⟨h⟩

theorem GKeeps.ite {s : State} {r q : GateResult} {c : Prop} [Decidable c] (h : GKeeps s r) (k : GKeeps s q) :
    GKeeps s (if c then r else q) := by
  split
  · exact h
  · exact k

/-- An outcome is a next state that keeps. -/
structure OKeeps (s : State) (o : Host.Outcome State Fault Refusal) : Prop where
  keeps : ∃ t, o = .next t ∧ Keeps s t

theorem OKeeps.next {s t : State} (h : Keeps s t) : OKeeps s (.next t) := ⟨_, rfl, h⟩

theorem OKeeps.ite {s : State} {r q : Host.Outcome State Fault Refusal} {c : Prop} [Decidable c] (h : OKeeps s r)
    (k : OKeeps s q) : OKeeps s (if c then r else q) := by
  split
  · exact h
  · exact k

end Sys2Proof.Machine
end

