-- ==== Sys2Proof/Laws/Frames.lean ====
section
/-! SUPPORT. The frames of Safety.lean for the updates of one part, and what recording an event does. -/

namespace Sys2Proof
open Sys2Proof.Machine

theorem DieOnly.refl (d : DieId) (s : State) : DieOnly d s s := ⟨rfl, fun _ _ => rfl⟩

theorem DieOnly.trans {d : DieId} {s t u : State} (h : DieOnly d s t) (k : DieOnly d t u) : DieOnly d s u := by
  refine ⟨?_, fun e he => (k.others e he).trans (h.others e he)⟩
  have a := h.rest
  have b := k.rest
  rw [b, a]

theorem DieNoted.trans {d : DieId} {s t u : State} (h : DieNoted d s t) (k : DieNoted d t u) : DieNoted d s u := by
  refine ⟨?_, fun e he => (k.others e he).trans (h.others e he)⟩
  have a := h.rest
  have b := k.rest
  rw [b, a]

theorem DieOnly.noted {d : DieId} {s t : State} (h : DieOnly d s t) : DieNoted d s t := by
  refine ⟨?_, h.others⟩
  have a := h.rest
  rw [a]

end Sys2Proof

namespace Sys2Proof.Machine
open Sys2Proof

theorem State.modDie_only (s : State) (d : DieId) (f : Die → Die) : DieOnly d s (s.modDie d f) :=
  ⟨rfl, fun e h => State.modDie_die_ne s d e f h⟩

theorem State.log_noted (s : State) (d : DieId) (source code : Nat) (detail : List Byte) :
    DieNoted d s (s.log source code detail) := by
  unfold State.log
  dsimp only
  split
  · exact ⟨rfl, fun _ _ => rfl⟩
  · exact ⟨rfl, fun _ _ => rfl⟩

theorem State.log_reported (s : State) (source code : Nat) (detail : List Byte) :
    Reported (s.log source code detail) s source code detail := by
  intro h
  unfold State.log
  simp only [h, Bool.false_eq_true, false_and, if_false]
  exact ⟨_, List.mem_append_right _ (List.mem_singleton.2 rfl), rfl, rfl, rfl⟩

@[simp] theorem State.log_die (s : State) (source code : Nat) (detail : List Byte) (d : DieId) :
    (s.log source code detail).die d = s.die d := by
  unfold State.log
  dsimp only
  split <;> rfl

@[simp] theorem State.logDie_die (s : State) (e : DieId) (code : Nat) (detail : List Byte) (d : DieId) :
    (s.logDie e code detail).die d = s.die d := State.log_die ..

@[simp] theorem State.logTray_die (s : State) (code : Nat) (detail : List Byte) (d : DieId) :
    (s.logTray code detail).die d = s.die d := State.log_die ..

@[simp] theorem State.logClk_die (s : State) (e : DieId) (code : Nat) (d : DieId) :
    (s.logClk e code).die d = s.die d := State.log_die ..

/-- Recording an event changes only the reports that wait. -/
theorem State.log_rest (s : State) (source code : Nat) (detail : List Byte) :
    s.log source code detail = { s with tray := { s.tray with
      mor := (s.log source code detail).tray.mor
      fw := { s.tray.fw with lostReports := (s.log source code detail).tray.fw.lostReports } } } := by
  unfold State.log
  dsimp only
  split <;> rfl

end Sys2Proof.Machine
end

