-- ==== Sys2Proof/Laws/GateLaws.lean ====
section
/-! SUPPORT. What the write gate does with one write that it takes at once, and what the issue of one record of a plan
does: the lemmas that a proof about one of these commands cites. -/

namespace Sys2Proof.Machine
open Sys2Proof

theorem State.modMaster_same (s : State) (m : MasterId) (f : Master → Master) (h : f (s.master m) = s.master m) :
    s.modMaster m f = s := by
  have e : s.masters.set m.val (f (s.masters.get m)) m.isLt = s.masters := by
    have : f (s.masters.get m) = s.masters[m.val] := h
    rw [this]
    exact Vector.set_getElem_self m.isLt
  unfold State.modMaster
  rw [e]

@[simp] theorem State.atTick_master (s : State) (m : MasterId) : s.atTick.master m = s.master m := rfl
@[simp] theorem State.atTick_die (s : State) (d : DieId) : s.atTick.die d = s.die d := rfl
@[simp] theorem State.atTick_dies (s : State) : s.atTick.dies = s.dies := rfl
@[simp] theorem State.atTick_fw (s : State) : s.atTick.tray.fw = s.tray.fw := rfl
@[simp] theorem State.atTick_hold (s : State) : s.atTick.tray.hold = s.tray.hold := rfl
@[simp] theorem State.atTick_pow (s : State) : s.atTick.tray.pow = s.tray.pow := rfl
@[simp] theorem State.atTick_setting (s : State) (i u l : Nat) : s.atTick.setting i u l = s.setting i u l := rfl

theorem filterMap_nil {α β : Type} (l : List α) (f : α → Option β) (h : ∀ a, f a = none) : l.filterMap f = [] := by
  induction l with
  | nil => rfl
  | cons a l ih => simp [h a, ih]

/-- The gate applies a write that it takes at once, and ends it. -/
theorem State.gate_takes {s : State} {m : MasterId} {k : ObjKey} {v : List Byte} (h : GateTakes m k v s)
    (apply : State → MasterId → List Byte → GateResult) : s.gate m k v apply = gateEnd m k v (apply s.atTick m v) := by
  have q := h.idle m
  have hr : ∀ n, (s.atTick.master n).queue = [] := h.idle
  have rv : s.atTick.rivals m k = [] := by
    unfold State.rivals
    apply filterMap_nil
    intro n
    split
    · rfl
    · rw [hr n]
  have pop : s.atTick.popGate m = s.atTick := by
    apply State.modMaster_same
    have := hr m
    cases e : s.atTick.master m
    rw [e] at this
    simp only at this
    simp [this]
  have hv := h.valid
  unfold State.gate
  simp only [h.runs, h.answers, h.noHandoff, q, Bool.not_true, Bool.or_self, Bool.false_eq_true, if_false]
  change (let rv := if k.idx = 0x2600 ∧ k.sub = 0x10 then [] else s.atTick.rivals m k
      let s2 := rv.foldl (fun s p => s.popGate p.1) (s.atTick.popGate m)
      s2.gateTick ((m, ⟨k, v, none⟩) :: rv) apply) = _
  rw [rv, pop]
  simp only [ite_self, List.foldl_nil]
  unfold State.gateTick
  simp only [List.map_cons, List.map_nil, List.foldl_cons, List.foldl_nil, List.filter_cons, List.filter_nil, hv,
    Option.isNone_none, if_true, beq_self_eq_true, Bool.true_or, Bool.not_true, Bool.false_eq_true, if_false]
  cases apply s.atTick m v with
  | refused c e t => simp [gateEnd, State.answer]
  | done t e b => simp [gateEnd]

/-- Ending a write touches no part but the acknowledgements that wait. -/
theorem gateEnd_done (m : MasterId) (k : ObjKey) (v : List Byte) (t : State) (e : Nat) (b : Bool) :
    gateEnd m k v (.done t e b) = { t with tray := { t.tray with leg := { t.tray.leg with
      acks := (gateEnd m k v (.done t e b)).tray.leg.acks } } } := by
  unfold gateEnd State.acknowledge State.answer
  dsimp only
  repeat' split
  all_goals rfl

@[simp] theorem gateEnd_done_die (m : MasterId) (k : ObjKey) (v : List Byte) (t : State) (e : Nat) (b : Bool) (d : DieId) :
    (gateEnd m k v (.done t e b)).die d = t.die d := by rw [gateEnd_done]; rfl
@[simp] theorem gateEnd_done_dies (m : MasterId) (k : ObjKey) (v : List Byte) (t : State) (e : Nat) (b : Bool) :
    (gateEnd m k v (.done t e b)).dies = t.dies := by rw [gateEnd_done]
@[simp] theorem gateEnd_done_fw (m : MasterId) (k : ObjKey) (v : List Byte) (t : State) (e : Nat) (b : Bool) :
    (gateEnd m k v (.done t e b)).tray.fw = t.tray.fw := by rw [gateEnd_done]
@[simp] theorem gateEnd_done_hold (m : MasterId) (k : ObjKey) (v : List Byte) (t : State) (e : Nat) (b : Bool) :
    (gateEnd m k v (.done t e b)).tray.hold = t.tray.hold := by rw [gateEnd_done]
@[simp] theorem gateEnd_done_pow (m : MasterId) (k : ObjKey) (v : List Byte) (t : State) (e : Nat) (b : Bool) :
    (gateEnd m k v (.done t e b)).tray.pow = t.tray.pow := by rw [gateEnd_done]
@[simp] theorem gateEnd_done_master (m : MasterId) (k : ObjKey) (v : List Byte) (t : State) (e : Nat) (b : Bool) (n : MasterId) :
    (gateEnd m k v (.done t e b)).master n = t.master n := by rw [gateEnd_done]; rfl
@[simp] theorem gateEnd_done_settings (m : MasterId) (k : ObjKey) (v : List Byte) (t : State) (e : Nat) (b : Bool) :
    (gateEnd m k v (.done t e b)).tray.leg.settings = t.tray.leg.settings := by rw [gateEnd_done]
@[simp] theorem gateEnd_done_setting (m : MasterId) (k : ObjKey) (v : List Byte) (t : State) (e : Nat) (b : Bool)
    (i u l : Nat) : (gateEnd m k v (.done t e b)).setting i u l = t.setting i u l := by rw [gateEnd_done]; rfl
@[simp] theorem gateEnd_done_raises (m : MasterId) (k : ObjKey) (v : List Byte) (t : State) (e : Nat) (b : Bool) :
    (gateEnd m k v (.done t e b)).tray.leg.raises = t.tray.leg.raises := by rw [gateEnd_done]
@[simp] theorem gateEnd_done_password (m : MasterId) (k : ObjKey) (v : List Byte) (t : State) (e : Nat) (b : Bool) :
    (gateEnd m k v (.done t e b)).tray.leg.password = t.tray.leg.password := by rw [gateEnd_done]
@[simp] theorem gateEnd_done_key (m : MasterId) (k : ObjKey) (v : List Byte) (t : State) (e : Nat) (b : Bool) :
    (gateEnd m k v (.done t e b)).tray.leg.unlockKey = t.tray.leg.unlockKey := by rw [gateEnd_done]
@[simp] theorem gateEnd_done_ctxs (m : MasterId) (k : ObjKey) (v : List Byte) (t : State) (e : Nat) (b : Bool) :
    (gateEnd m k v (.done t e b)).ctxs = t.ctxs := by rw [gateEnd_done]

/-! ### Settings -/

theorem KV.get?_put {α β : Type} [DecidableEq α] (l : List (α × β)) (k : α) (v : β) : KV.get? (KV.put l k v) k = some v := by
  simp [KV.get?, KV.put]

@[simp] theorem State.setting_putSetting (s : State) (i u l v : Nat) : (s.putSetting i u l v).setting i u l = v := by
  unfold State.setting State.putSetting
  simp only [State.modTray, KV.get?_put]

/-- A value of n bytes reads back from its bytes. -/
theorem leNat_leBytes (n v : Nat) : leNat (leBytes n v) = v % 256 ^ n := by
  induction n generalizing v with
  | zero => simp [leBytes, leNat, Nat.mod_one]
  | succ n ih =>
    simp only [leBytes, leNat, ih, BitVec.toNat_ofNat]
    rw [show 256 ^ (n + 1) = 256 * 256 ^ n by rw [Nat.pow_succ, Nat.mul_comm], Nat.mod_mul]

/-! ### The issue of a record -/

/-- Running to a record's cycle leaves the poison and the tile units of the die. -/
theorem State.runTo_die (s : State) (d : DieId) (r : Run) (c : Nat) :
    ((s.runTo d r c).die d).til.poison = (s.die d).til.poison ∧ ((s.runTo d r c).die d).til.units = (s.die d).til.units := by
  unfold State.runTo State.modRun
  dsimp only
  rw [State.modDie_die]
  exact ⟨rfl, rfl⟩

@[simp] theorem State.runTo_poisoned (s : State) (d : DieId) (r : Run) (c a n : Nat) :
    (s.runTo d r c).poisoned d a n = s.poisoned d a n := by
  unfold State.poisoned
  rw [(State.runTo_die s d r c).1]

@[simp] theorem State.runTo_readRanges (s : State) (d : DieId) (r : Run) (c : Nat) (q : Rec) (u v : Nat) :
    (s.runTo d r c).readRanges d r q u v = s.readRanges d r q u v := by
  unfold State.readRanges
  rw [(State.runTo_die s d r c).2]

/-- A record that issues cleanly has its effect on the state of its issue. -/
theorem State.issueNow_issues {s : State} {d : DieId} {t h op u v : Nat} {r : Run} {q : Rec} (i : Issues s d t h op u v r q)
    (eff : State → Run → Rec → Nat → State) :
    s.issueNow d t h op u v eff = eff (s.issued d t h u v r q) r q (r.plan.tile u v) := by
  have hr : ((s.readRanges d r q u v).map fun p => s.poisoned d p.1 p.2).flatten = [] := by
    rw [List.flatten_eq_nil_iff]
    intro l hl
    obtain ⟨p, hp, rfl⟩ := List.mem_map.1 hl
    exact i.read p hp
  have hf := i.fetched
  unfold State.issueNow State.issue
  simp only [i.next, State.runTo_poisoned, State.runTo_readRanges, hf, hr, List.append_nil, List.isEmpty_nil, Bool.not_true, Bool.false_eq_true, if_false]
  rfl

end Sys2Proof.Machine
end

