-- ==== Sys2Proof/Laws/KeepsOps.lean ====
section
/-! SUPPORT. The operations of Machine/Ops.lean keep what `Keeps` says. -/

namespace Sys2Proof.Machine
open Sys2Proof

theorem State.tapHold_keeps {s0 s : State} (h : Keeps s0 s)  : Keeps s0 (State.tapHold s) := by
  unfold State.tapHold
  repeat' first
    | (with_reducible assumption)
    | (with_reducible exact Keeps.refl _)
    | (with_reducible apply State.modTray_keeps)
    | (intro)
    | (with_reducible apply Keeps.ite)
    | split
    | (exact fun _ hx => ⟨hx.1, hx.2, hx.3, hx.4, hx.5, hx.6⟩)
    | (exact fun _ hx => ⟨hx.1, hx.2⟩)
    | (exact fun _ => Nat.le_refl _)
    | (exact fun _ ha hb => ⟨ha, hb⟩)
    | (exact Nat.le_refl _)

theorem State.advanceTo_keeps {s0 s : State} (h : Keeps s0 s) (t : Ns) : Keeps s0 (State.advanceTo s t) := by
  unfold State.advanceTo
  repeat' first
    | (with_reducible assumption)
    | (with_reducible exact Keeps.refl _)
    | (with_reducible apply State.modTray_keeps)
    | (exact fun _ hx => ⟨hx.1, hx.2, hx.3, hx.4, hx.5, hx.6⟩)
    | (exact fun _ hx => ⟨hx.1, hx.2⟩)
    | (exact fun _ => Nat.le_refl _)
    | (exact fun _ ha hb => ⟨ha, hb⟩)
    | (exact fun _ => Nat.add_le_add_left (Nat.le_max_left _ _) _)

theorem State.advanceIn_keeps {s0 s : State} (h : Keeps s0 s) (d : DieId) (t : Ns) : Keeps s0 (State.advanceIn s d t) := by
  unfold State.advanceIn
  repeat' first
    | (with_reducible assumption)
    | (with_reducible exact Keeps.refl _)
    | (with_reducible apply State.modTray_keeps)
    | (exact fun _ hx => ⟨hx.1, hx.2, hx.3, hx.4, hx.5, hx.6⟩)
    | (exact fun _ hx => ⟨hx.1, hx.2⟩)
    | (exact fun _ => Nat.le_refl _)
    | (exact fun _ ha hb => ⟨ha, hb⟩)
    | (exact fun _ => Nat.add_le_add_left (Nat.le_max_left _ _) _)
    | (exact fun _ => Nat.add_le_add_left (Nat.le_add_right _ _) _)

theorem State.putSetting_keeps {s0 s : State} (h : Keeps s0 s) (idx : Nat) (sub : Nat) (sel : Nat) (v : Nat) : Keeps s0 (State.putSetting s idx sub sel v) := by
  unfold State.putSetting
  repeat' first
    | (with_reducible assumption)
    | (with_reducible exact Keeps.refl _)
    | (with_reducible apply State.modTray_keeps)
    | (exact fun _ hx => ⟨hx.1, hx.2, hx.3, hx.4, hx.5, hx.6⟩)
    | (exact fun _ hx => ⟨hx.1, hx.2⟩)
    | (exact fun _ => Nat.le_refl _)

theorem State.log_keeps {s0 s : State} (h : Keeps s0 s) (source : Nat) (code : Nat) (detail : List Byte) : Keeps s0 (State.log s source code detail) := by
  unfold State.log
  repeat' first
    | (with_reducible assumption)
    | (with_reducible exact Keeps.refl _)
    | (with_reducible apply State.modTray_keeps)
    | (dsimp only)
    | (intro)
    | (with_reducible apply Keeps.ite)
    | split
    | (exact fun _ hx => ⟨hx.1, hx.2, hx.3, hx.4, hx.5, hx.6⟩)
    | (exact fun _ hx => ⟨hx.1, hx.2⟩)
    | (exact fun _ => Nat.le_refl _)
    | (exact fun _ ha hb => ⟨ha, hb⟩)
    | (exact Nat.le_refl _)

theorem State.logDie_keeps {s0 s : State} (h : Keeps s0 s) (d : DieId) (code : Nat) (detail : List Byte) : Keeps s0 (State.logDie s d code detail) := by
  unfold State.logDie
  repeat' first
    | (with_reducible assumption)
    | (with_reducible exact Keeps.refl _)
    | (with_reducible apply State.log_keeps)

theorem State.logTray_keeps {s0 s : State} (h : Keeps s0 s) (code : Nat) (detail : List Byte) : Keeps s0 (State.logTray s code detail) := by
  unfold State.logTray
  repeat' first
    | (with_reducible assumption)
    | (with_reducible exact Keeps.refl _)
    | (with_reducible apply State.log_keeps)

theorem State.holdOp_keeps {s0 s : State} (h : Keeps s0 s) (f : Fn) (o : HostOp) : Keeps s0 (State.holdOp s f o) := by
  unfold State.holdOp
  repeat' first
    | (with_reducible assumption)
    | (with_reducible exact Keeps.refl _)
    | (with_reducible apply State.modPf_keeps)
    | (with_reducible apply State.modVf_keeps)
    | split

theorem State.hostWrite_keeps {s0 s : State} (h : Keeps s0 s) (f : Fn) (addr : Nat) (bytes : List Byte) : Keeps s0 (State.hostWrite s f addr bytes) := by
  unfold State.hostWrite
  repeat' first
    | (with_reducible assumption)
    | (with_reducible exact Keeps.refl _)
    | (with_reducible apply State.emit_keeps)
    | (with_reducible apply State.holdOp_keeps)
    | (intro)
    | (with_reducible apply Keeps.ite)

theorem State.modVec_keeps {s0 s : State} (h : Keeps s0 s) (f : Fn) (v : Nat) (g : MsixVec → MsixVec) : Keeps s0 (State.modVec s f v g) := by
  unfold State.modVec
  repeat' first
    | (with_reducible assumption)
    | (with_reducible exact Keeps.refl _)
    | (with_reducible apply State.modPf_keeps)
    | (with_reducible apply State.modVf_keeps)
    | split

theorem State.sendVec_keeps {s0 s : State} (h : Keeps s0 s) (f : Fn) (v : Nat) : Keeps s0 (State.sendVec s f v) := by
  unfold State.sendVec
  repeat' first
    | (with_reducible assumption)
    | (with_reducible exact Keeps.refl _)
    | (with_reducible apply State.emit_keeps)
    | (with_reducible apply State.modVec_keeps)

theorem State.msix_keeps {s0 s : State} (h : Keeps s0 s) (f : Fn) (v : Nat) : Keeps s0 (State.msix s f v) := by
  unfold State.msix
  repeat' first
    | (with_reducible assumption)
    | (with_reducible exact Keeps.refl _)
    | (with_reducible apply State.holdOp_keeps)
    | (with_reducible apply State.modVec_keeps)
    | (with_reducible apply State.sendVec_keeps)
    | (dsimp only)
    | (intro)
    | (with_reducible apply Keeps.ite)

theorem State.modRing_keeps {s0 s : State} (h : Keeps s0 s) (f : Fn) (g : Ring32 → Ring32) : Keeps s0 (State.modRing s f g) := by
  unfold State.modRing
  repeat' first
    | (with_reducible assumption)
    | (with_reducible exact Keeps.refl _)
    | (with_reducible apply State.modPf_keeps)
    | (with_reducible apply State.modVf_keeps)
    | split

theorem State.writeNotice_keeps {s0 s : State} (h : Keeps s0 s) (f : Fn) (body : List Byte) : Keeps s0 (State.writeNotice s f body) := by
  unfold State.writeNotice
  repeat' first
    | (with_reducible assumption)
    | (with_reducible exact Keeps.refl _)
    | (with_reducible apply State.emit_keeps)
    | (with_reducible apply State.modVf_keeps)
    | (with_reducible apply State.funcError_keeps)
    | (with_reducible apply State.hostWrite_keeps)
    | (with_reducible apply State.modRing_keeps)
    | (with_reducible apply State.msix_keeps)
    | (dsimp only)
    | (intro)
    | (with_reducible apply Keeps.ite)
    | split

theorem State.notice_keeps {s0 s : State} (h : Keeps s0 s) (f : Fn) (src : Nat) (code : Nat) (die : Nat) (sysTime : Nat) (detail : Nat) : Keeps s0 (State.notice s f src code die sysTime detail) := by
  unfold State.notice
  repeat' first
    | (with_reducible assumption)
    | (with_reducible exact Keeps.refl _)
    | (with_reducible apply State.holdOp_keeps)
    | (with_reducible apply State.writeNotice_keeps)
    | (dsimp only)
    | (intro)
    | (with_reducible apply Keeps.ite)

theorem State.noticePfs_keeps {s0 s : State} (h : Keeps s0 s) (src : Nat) (code : Nat) (die : Nat) (sysTime : Nat) (detail : Nat) : Keeps s0 (State.noticePfs s src code die sysTime detail) := by
  unfold State.noticePfs
  repeat' first
    | (with_reducible assumption)
    | (with_reducible exact Keeps.refl _)
    | (with_reducible apply State.notice_keeps)

theorem State.noticeDie_keeps {s0 s : State} (h : Keeps s0 s) (d : DieId) (src : Nat) (code : Nat) : Keeps s0 (State.noticeDie s d src code) := by
  unfold State.noticeDie
  repeat' first
    | (with_reducible assumption)
    | (with_reducible exact Keeps.refl _)
    | (with_reducible apply State.notice_keeps)
    | (with_reducible apply State.noticePfs_keeps)
    | (with_reducible apply Keeps.foldl)
    | (dsimp only)
    | split
    | (exact fun _ hx => ⟨hx.1, hx.2, hx.3, hx.4, hx.5, hx.6⟩)
    | (exact fun _ hx => ⟨hx.1, hx.2⟩)
    | (exact fun _ => Nat.le_refl _)
    | (exact fun _ ha hb => ⟨ha, hb⟩)
    | (exact Nat.le_refl _)
    | (intro)

theorem State.noticeSupply_keeps {s0 s : State} (h : Keeps s0 s) (code : Nat) : Keeps s0 (State.noticeSupply s code) := by
  unfold State.noticeSupply
  repeat' first
    | (with_reducible assumption)
    | (with_reducible exact Keeps.refl _)
    | (with_reducible apply State.notice_keeps)
    | (with_reducible apply State.noticePfs_keeps)
    | (with_reducible apply Keeps.foldl)
    | (dsimp only)
    | (exact fun _ hx => ⟨hx.1, hx.2, hx.3, hx.4, hx.5, hx.6⟩)
    | (exact fun _ hx => ⟨hx.1, hx.2⟩)
    | (exact fun _ => Nat.le_refl _)
    | (exact fun _ ha hb => ⟨ha, hb⟩)
    | (exact Nat.le_refl _)
    | (intro)

theorem State.heatEvent_keeps {s0 s : State} (h : Keeps s0 s) (d : DieId) (code : Nat) : Keeps s0 (State.heatEvent s d code) := by
  unfold State.heatEvent
  repeat' first
    | (with_reducible assumption)
    | (with_reducible exact Keeps.refl _)
    | (with_reducible apply State.heat_keeps)
    | (with_reducible apply State.logDie_keeps)
    | (with_reducible apply State.noticeDie_keeps)

theorem State.modPort_keeps {s0 s : State} (h : Keeps s0 s) (d : DieId) (p : Nat) (f : Port → Port) : Keeps s0 (State.modPort s d p f) := by
  unfold State.modPort
  repeat' first
    | (with_reducible assumption)
    | (with_reducible exact Keeps.refl _)
    | (with_reducible apply State.modDie_keeps)
    | (exact fun _ hx => ⟨hx.1, hx.2, hx.3, hx.4, hx.5, hx.6⟩)

theorem State.ctrlDiscard_keeps {s0 s : State} (h : Keeps s0 s) (d : DieId) : Keeps s0 (State.ctrlDiscard s d) := by
  unfold State.ctrlDiscard
  repeat' first
    | (with_reducible assumption)
    | (with_reducible exact Keeps.refl _)
    | (with_reducible apply State.modDie_keeps)
    | (exact fun _ hx => ⟨hx.1, hx.2, hx.3, hx.4, hx.5, hx.6⟩)

theorem State.sendFlit_keeps {s0 s : State} (h : Keeps s0 s) (d : DieId) (p : Nat) (ty : Nat) (last : Bool) (label : Nat) (tenant : Nat) (fseq : Nat) (payload : List Byte) : Keeps s0 (State.sendFlit s d p ty last label tenant fseq payload) := by
  unfold State.sendFlit
  repeat' first
    | (with_reducible assumption)
    | (with_reducible exact Keeps.refl _)
    | (with_reducible apply State.emit_keeps)
    | (with_reducible apply State.modPort_keeps)

theorem State.putRecord_keeps {s0 s : State} (h : Keeps s0 s) (d : DieId) (p : Nat) (bytes : List Byte) : Keeps s0 (State.putRecord s d p bytes) := by
  unfold State.putRecord
  repeat' first
    | (with_reducible assumption)
    | (with_reducible exact Keeps.refl _)
    | (with_reducible apply State.ctrlDiscard_keeps)
    | (with_reducible apply State.modPort_keeps)
    | (with_reducible apply State.sendFlit_keeps)
    | (dsimp only)
    | (intro)
    | (with_reducible apply Keeps.ite)

theorem State.drainRecords_keeps {s0 s : State} (h : Keeps s0 s) (d : DieId) (p : Nat) : Keeps s0 (State.drainRecords s d p) := by
  unfold State.drainRecords
  repeat' first
    | (with_reducible assumption)
    | (with_reducible exact Keeps.refl _)
    | (with_reducible apply State.modPort_keeps)
    | (with_reducible apply State.putRecord_keeps)
    | (with_reducible apply Keeps.foldl)
    | (dsimp only)
    | (intro)
    | (with_reducible apply Keeps.ite)

theorem State.sendFor_keeps {s0 s : State} (h : Keeps s0 s) (d : DieId) (ty : Nat) (dest : Nat) (src : Nat) (body : List Byte) : Keeps s0 (State.sendFor s d ty dest src body) := by
  unfold State.sendFor
  repeat' first
    | (with_reducible assumption)
    | (with_reducible exact Keeps.refl _)
    | (with_reducible apply State.ctrlDiscard_keeps)
    | (with_reducible apply State.putRecord_keeps)
    | (dsimp only)
    | (intro)
    | (with_reducible apply Keeps.ite)

theorem State.sendRecord_keeps {s0 s : State} (h : Keeps s0 s) (d : DieId) (ty : Nat) (dest : Nat) (body : List Byte) : Keeps s0 (State.sendRecord s d ty dest body) := by
  unfold State.sendRecord
  repeat' first
    | (with_reducible assumption)
    | (with_reducible exact Keeps.refl _)
    | (with_reducible apply State.sendFor_keeps)

theorem State.sendHop_keeps {s0 s : State} (h : Keeps s0 s) (d : DieId) (p : Nat) (ty : Nat) (body : List Byte) : Keeps s0 (State.sendHop s d p ty body) := by
  unfold State.sendHop
  repeat' first
    | (with_reducible assumption)
    | (with_reducible exact Keeps.refl _)
    | (with_reducible apply State.putRecord_keeps)

theorem State.flood_keeps {s0 s : State} (h : Keeps s0 s) (d : DieId) (ty : Nat) (body : List Byte) : Keeps s0 (State.flood s d ty body) := by
  unfold State.flood
  repeat' first
    | (with_reducible assumption)
    | (with_reducible exact Keeps.refl _)
    | (with_reducible apply State.modDie_keeps)
    | (with_reducible apply State.putRecord_keeps)
    | (with_reducible apply Keeps.foldl)
    | (dsimp only)
    | (intro)
    | (with_reducible apply Keeps.ite)
    | split
    | (exact fun _ hx => ⟨hx.1, hx.2, hx.3, hx.4, hx.5, hx.6⟩)
    | (exact fun _ hx => ⟨hx.1, hx.2⟩)
    | (exact fun _ => Nat.le_refl _)
    | (exact fun _ ha hb => ⟨ha, hb⟩)
    | (apply DieInv.same <;> first | assumption | rfl)

theorem State.moveVcore_keeps {s0 s : State} (h : Keeps s0 s) (d : DieId) (goal : Nat) : Keeps s0 (State.moveVcore s d goal) := by
  unfold State.moveVcore
  repeat' first
    | (with_reducible assumption)
    | (with_reducible exact Keeps.refl _)
    | (with_reducible apply State.modDie_keeps)
    | (dsimp only)
    | (intro)
    | (with_reducible apply Keeps.ite)
    | split
    | (exact fun _ hx => ⟨hx.1, hx.2, hx.3, hx.4, hx.5, hx.6⟩)
    | (exact fun _ hx => ⟨hx.1, hx.2⟩)
    | (exact fun _ => Nat.le_refl _)
    | (exact fun _ ha hb => ⟨ha, hb⟩)
    | (apply DieInv.same <;> first | assumption | rfl)

theorem State.retarget_keeps {s0 s : State} (h : Keeps s0 s) (d : DieId) : Keeps s0 (State.retarget s d) := by
  unfold State.retarget
  repeat' first
    | (with_reducible assumption)
    | (with_reducible exact Keeps.refl _)
    | (with_reducible apply State.moveVcore_keeps)

theorem State.sendUp_keeps {s0 s : State} (h : Keeps s0 s) (d : DieId) (k : Nat) (ty : Nat) (src : Nat) (body : List Byte) : Keeps s0 (State.sendUp s d k ty src body) := by
  unfold State.sendUp
  repeat' first
    | (with_reducible assumption)
    | (with_reducible exact Keeps.refl _)
    | (with_reducible apply State.modDie_keeps)
    | (with_reducible apply State.sendFor_keeps)
    | (dsimp only)
    | split
    | (exact fun _ hx => ⟨hx.1, hx.2, hx.3, hx.4, hx.5, hx.6⟩)

theorem State.dadPort_keeps {s0 s : State} (h : Keeps s0 s) (p : Bool) : Keeps s0 (State.dadPort s p) := by
  unfold State.dadPort
  repeat' first
    | (with_reducible assumption)
    | (with_reducible exact Keeps.refl _)
    | (with_reducible apply State.emit_keeps)

end Sys2Proof.Machine
end

