-- ==== Sys2Proof/Laws/KeepsGate.lean ====
section
/-! SUPPORT. The operations of Machine/Gate.lean keep what `Keeps` says. -/

namespace Sys2Proof.Machine
open Sys2Proof

theorem State.lapSend_keeps {s0 s : State} (h : Keeps s0 s) (m : MasterId) (seq : Nat) (dst : Option Peer) (frame : List Byte) : Keeps s0 (State.lapSend s m seq dst frame) := by
  unfold State.lapSend
  repeat' first
    | (with_reducible assumption)
    | (with_reducible exact Keeps.refl _)
    | (with_reducible apply State.emit_keeps)
    | (with_reducible apply State.modPf_keeps)
    | (with_reducible apply State.msix_keeps)
    | (intro)
    | (with_reducible apply Keeps.ite)
    | split

theorem State.keepResponse_keeps {s0 s : State} (h : Keeps s0 s) (m : MasterId) (seq : Nat) (frame : List Byte) : Keeps s0 (State.keepResponse s m seq frame) := by
  exact State.modMaster_keeps h _ _ fun _ hx => ⟨hx.1, by simp only [List.length_take]; omega⟩

theorem State.respond_keeps {s0 s : State} (h : Keeps s0 s) (m : MasterId) (service : Nat) (seq : Nat) (k : ObjKey) (status : Nat) (detail : Nat) (extra : List Byte) : Keeps s0 (State.respond s m service seq k status detail extra) := by
  unfold State.respond
  repeat' first
    | (with_reducible assumption)
    | (with_reducible exact Keeps.refl _)
    | (with_reducible apply State.keepResponse_keeps)
    | (with_reducible apply State.lapSend_keeps)

theorem State.answer_keeps {s0 s : State} (h : Keeps s0 s) (m : MasterId) (w : GateWrite) (status : Nat) (detail : Nat) (epoch : Nat) : Keeps s0 (State.answer s m w status detail epoch) := by
  unfold State.answer
  repeat' first
    | (with_reducible assumption)
    | (with_reducible exact Keeps.refl _)
    | (with_reducible apply State.respond_keeps)
    | (intro)
    | (with_reducible apply Keeps.ite)
    | split

theorem State.acknowledge_keeps {s0 s : State} (h : Keeps s0 s) (m : MasterId) (w : GateWrite) (epoch : Nat) (effect : Bool) : Keeps s0 (State.acknowledge s m w epoch effect) := by
  unfold State.acknowledge
  repeat' first
    | (with_reducible assumption)
    | (with_reducible exact Keeps.refl _)
    | (with_reducible apply State.modTray_keeps)
    | (with_reducible apply State.answer_keeps)
    | (dsimp only)
    | (intro)
    | (with_reducible apply Keeps.ite)
    | split
    | (exact fun _ hx => ⟨hx.1, hx.2, hx.3, hx.4, hx.5, hx.6⟩)
    | (exact fun _ hx => ⟨hx.1, hx.2⟩)
    | (exact fun _ => Nat.le_refl _)
    | (exact fun _ ha hb => ⟨ha, hb⟩)
    | (exact Nat.le_refl _)

theorem State.sweepAcks_keeps {s0 s : State} (h : Keeps s0 s)  : Keeps s0 (State.sweepAcks s) := by
  unfold State.sweepAcks
  repeat' first
    | (with_reducible assumption)
    | (with_reducible exact Keeps.refl _)
    | (with_reducible apply State.modTray_keeps)
    | (with_reducible apply State.answer_keeps)
    | (with_reducible apply Keeps.foldl)
    | (dsimp only)
    | (exact fun _ hx => ⟨hx.1, hx.2, hx.3, hx.4, hx.5, hx.6⟩)
    | (exact fun _ hx => ⟨hx.1, hx.2⟩)
    | (exact fun _ => Nat.le_refl _)
    | (exact fun _ ha hb => ⟨ha, hb⟩)
    | (exact Nat.le_refl _)
    | (intro)

theorem State.commitNow_keeps {s0 s : State} (h : Keeps s0 s)  : Keeps s0 (State.commitNow s) := by
  unfold State.commitNow
  repeat' first
    | (with_reducible assumption)
    | (with_reducible exact Keeps.refl _)
    | (with_reducible apply State.modTray_keeps)
    | (with_reducible apply State.sweepAcks_keeps)
    | (exact fun _ hx => ⟨hx.1, hx.2, hx.3, hx.4, hx.5, hx.6⟩)
    | (exact fun _ hx => ⟨hx.1, hx.2⟩)
    | (exact fun _ => Nat.le_refl _)

theorem State.effectDone_keeps {s0 s : State} (h : Keeps s0 s) (k : ObjKey) (v : Nat) (epoch : Nat) : Keeps s0 (State.effectDone s k v epoch) := by
  unfold State.effectDone
  repeat' first
    | (with_reducible assumption)
    | (with_reducible exact Keeps.refl _)
    | (with_reducible apply State.modTray_keeps)
    | (with_reducible apply State.sweepAcks_keeps)
    | (dsimp only)
    | (intro)
    | (with_reducible apply Keeps.ite)
    | split
    | (exact fun _ hx => ⟨hx.1, hx.2, hx.3, hx.4, hx.5, hx.6⟩)
    | (exact fun _ hx => ⟨hx.1, hx.2⟩)
    | (exact fun _ => Nat.le_refl _)
    | (exact fun _ ha hb => ⟨ha, hb⟩)
    | (exact Nat.le_refl _)

theorem State.popGate_keeps {s0 s : State} (h : Keeps s0 s) (m : MasterId) : Keeps s0 (State.popGate s m) := by
  exact State.modMaster_keeps h _ _ fun _ hx => ⟨by have := hx.1; simp only [List.length_drop]; omega, hx.2⟩

theorem State.conflict_keeps {s0 s : State} (h : Keeps s0 s) (m : MasterId) (w : GateWrite) : Keeps s0 (State.conflict s m w) := by
  unfold State.conflict
  repeat' first
    | (with_reducible assumption)
    | (with_reducible exact Keeps.refl _)
    | (with_reducible apply State.modTray_keeps)
    | (with_reducible apply State.answer_keeps)
    | (exact fun _ hx => ⟨hx.1, hx.2, hx.3, hx.4, hx.5, hx.6⟩)
    | (exact fun _ hx => ⟨hx.1, hx.2⟩)
    | (exact fun _ => Nat.le_refl _)

theorem State.gateTick_keeps {s0 s : State} (h : Keeps s0 s) (ws : List (MasterId × GateWrite)) (apply : State → MasterId → List Byte → GateResult) (happly : ∀ u m v, Keeps s0 u → GKeeps s0 (apply u m v)) : Keeps s0 (State.gateTick s ws apply) := by
  have aux : ∀ X m v r, apply X m v = r → Keeps s0 X → GKeeps s0 r := fun X m v r e hX => e ▸ happly X m v hX
  have ans : ∀ (f : MasterId × GateWrite → Option (Nat × Nat)) (u : State) (c : (MasterId × GateWrite) × Option (Nat × Nat)),
      Keeps s0 u → Keeps s0 (match c.2 with
        | some (code, det) => u.answer c.1.1 c.1.2 code det 0
        | none => u) := by
    intro f u c hu
    split
    · exact State.answer_keeps hu _ _ _ _ _
    · exact hu
  unfold State.gateTick
  dsimp only
  split
  · exact Keeps.foldl _ (fun u c hu => ans (fun _ => none) u c hu) h
  · split
    all_goals rename_i heq
    all_goals
      have k := aux _ _ _ _ heq (Keeps.foldl _ (fun u x hu => State.conflict_keeps hu _ _)
        (Keeps.foldl _ (fun u c hu => ans (fun _ => none) u c hu) h))
      apply Keeps.foldl _ _ k.keeps
      intro u x hu
      first | exact State.answer_keeps hu _ _ _ _ _ | exact State.acknowledge_keeps hu _ _ _ _

theorem State.gateQueue_keeps {s0 s : State} (h : Keeps s0 s) (m : MasterId) (w : GateWrite) : Keeps s0 (State.gateQueue s m w) := by
  unfold State.gateQueue
  split
  · apply State.answer_keeps
    exact State.modTray_keeps h _ fun _ => Nat.le_refl _
  · exact State.modMaster_keeps_at h _ _ fun hx => ⟨by simp only [List.length_append, List.length_singleton]; omega, hx.2⟩

theorem State.gate_keeps {s0 s : State} (h : Keeps s0 s) (m : MasterId) (k : ObjKey) (v : List Byte) (apply : State → MasterId → List Byte → GateResult) (happly : ∀ u m v, Keeps s0 u → GKeeps s0 (apply u m v)) : Keeps s0 (State.gate s m k v apply) := by
  unfold State.gate
  repeat' first
    | (with_reducible assumption)
    | (with_reducible exact Keeps.refl _)
    | (with_reducible apply State.modTray_keeps)
    | (with_reducible apply State.advanceTo_keeps)
    | (with_reducible apply State.gateQueue_keeps)
    | (with_reducible apply State.gateTick_keeps)
    | (with_reducible apply State.popGate_keeps)
    | (with_reducible apply Keeps.foldl)
    | (with_reducible apply happly)
    | (dsimp only)
    | (intro)
    | (with_reducible apply Keeps.ite)
    | split
    | (exact fun _ hx => ⟨hx.1, hx.2, hx.3, hx.4, hx.5, hx.6⟩)
    | (exact fun _ hx => ⟨hx.1, hx.2⟩)
    | (exact fun _ => Nat.le_refl _)
    | (exact fun _ ha hb => ⟨ha, hb⟩)
    | (exact Nat.le_refl _)

theorem State.cancelRaise_keeps {s0 s : State} (h : Keeps s0 s) (k : ObjKey) : Keeps s0 (State.cancelRaise s k) := by
  unfold State.cancelRaise
  repeat' first
    | (with_reducible assumption)
    | (with_reducible exact Keeps.refl _)
    | (with_reducible apply State.modTray_keeps)
    | (exact fun _ hx => ⟨hx.1, hx.2, hx.3, hx.4, hx.5, hx.6⟩)
    | (exact fun _ hx => ⟨hx.1, hx.2⟩)
    | (exact fun _ => Nat.le_refl _)

theorem State.setRaise_keeps {s0 s : State} (h : Keeps s0 s) (k : ObjKey) (v : Nat) (epoch : Nat) : Keeps s0 (State.setRaise s k v epoch) := by
  unfold State.setRaise
  repeat' first
    | (with_reducible assumption)
    | (with_reducible exact Keeps.refl _)
    | (with_reducible apply State.modTray_keeps)
    | (with_reducible apply State.cancelRaise_keeps)
    | (exact fun _ hx => ⟨hx.1, hx.2, hx.3, hx.4, hx.5, hx.6⟩)
    | (exact fun _ hx => ⟨hx.1, hx.2⟩)
    | (exact fun _ => Nat.le_refl _)

theorem State.limitWrite_keeps {s0 s : State} (h : Keeps s0 s) (k : ObjKey) (v : Nat) (effect : State → State) (heffect : ∀ u, Keeps s0 u → Keeps s0 (effect u)) : GKeeps s0 (State.limitWrite s k v effect) := by
  unfold State.limitWrite
  repeat' first
    | (with_reducible assumption)
    | (with_reducible exact Keeps.refl _)
    | (with_reducible apply GKeeps.done)
    | (with_reducible apply GKeeps.refused)
    | (with_reducible apply State.cancelRaise_keeps)
    | (with_reducible apply State.putSetting_keeps)
    | (with_reducible apply State.setRaise_keeps)
    | (with_reducible apply heffect)
    | (dsimp only)
    | (intro)
    | (with_reducible apply GKeeps.ite)

theorem State.plainWrite_keeps {s0 s : State} (h : Keeps s0 s) (k : ObjKey) (v : List Byte) : GKeeps s0 (State.plainWrite s k v) := by
  unfold State.plainWrite
  repeat' first
    | (with_reducible assumption)
    | (with_reducible exact Keeps.refl _)
    | (with_reducible apply GKeeps.done)
    | (with_reducible apply GKeeps.refused)
    | (with_reducible apply State.putSetting_keeps)

end Sys2Proof.Machine
end

