-- ==== Sys2Proof/Laws/KeepsSram.lean ====
section
/-! SUPPORT. The operations of Machine/Sram.lean keep what `Keeps` says. -/

namespace Sys2Proof.Machine
open Sys2Proof

theorem State.sramWrite_keeps {s0 s : State} (h : Keeps s0 s) (d : DieId) (a : Nat) (bs : List Byte) : Keeps s0 (State.sramWrite s d a bs) := by
  exact State.modDie_keeps h _ _ fun _ hx => ⟨Sram.write_wf _ _ _ hx.1, hx.2, hx.3, hx.4, hx.5, hx.6⟩

theorem State.sramZero_keeps {s0 s : State} (h : Keeps s0 s) (d : DieId) (a : Nat) (n : Nat) : Keeps s0 (State.sramZero s d a n) := by
  exact State.modDie_keeps h _ _ fun _ hx => ⟨Sram.zero_wf _ _ _ hx.1, hx.2, hx.3, hx.4, hx.5, hx.6⟩

theorem State.sramFree_keeps {s0 s : State} (h : Keeps s0 s) (d : DieId) (a : Nat) (n : Nat) : Keeps s0 (State.sramFree s d a n) := by
  unfold State.sramFree
  repeat' first
    | (with_reducible assumption)
    | (with_reducible exact Keeps.refl _)
    | (with_reducible apply State.freeBytes_keeps)
    | (with_reducible apply State.sramWrite_keeps)

theorem State.sramLost_keeps {s0 s : State} (h : Keeps s0 s) (d : DieId) : Keeps s0 (State.sramLost s d) := by
  exact State.modDie_keeps h _ _ fun _ hx => ⟨rfl, hx.2, hx.3, hx.4, hx.5, hx.6⟩

end Sys2Proof.Machine
end

