-- ==== Sys2Proof/Laws/KeepsRuns.lean ====
section
/-! SUPPORT. The operations of Machine/Runs.lean keep what `Keeps` says. -/

namespace Sys2Proof.Machine
open Sys2Proof

theorem State.modQueue_keeps {s0 s : State} (h : Keeps s0 s) (t : Nat) (hh : Nat) (q : Nat) (f : Queue → Queue) : Keeps s0 (State.modQueue s t hh q f) := by
  unfold State.modQueue
  repeat' first
    | (with_reducible assumption)
    | (with_reducible exact Keeps.refl _)
    | (with_reducible apply State.modCtx_keeps)

theorem State.modHead_keeps {s0 s : State} (h : Keeps s0 s) (t : Nat) (hh : Nat) (q : Nat) (f : Cmd → Cmd) : Keeps s0 (State.modHead s t hh q f) := by
  unfold State.modHead
  repeat' first
    | (with_reducible assumption)
    | (with_reducible exact Keeps.refl _)
    | (with_reducible apply State.modQueue_keeps)

theorem State.setEvent_keeps {s0 s : State} (h : Keeps s0 s) (t : Nat) (e : Nat) (v : Event) : Keeps s0 (State.setEvent s t e v) := by
  unfold State.setEvent
  repeat' first
    | (with_reducible assumption)
    | (with_reducible exact Keeps.refl _)
    | (with_reducible apply State.modTenant_keeps)
    | (with_reducible apply State.hostWrite_keeps)
    | (dsimp only)
    | (intro)
    | (with_reducible apply Keeps.ite)
    | split

theorem State.errEvent_keeps {s0 s : State} (h : Keeps s0 s) (t : Nat) (e : Nat) : Keeps s0 (State.errEvent s t e) := by
  unfold State.errEvent
  repeat' first
    | (with_reducible assumption)
    | (with_reducible exact Keeps.refl _)
    | (with_reducible apply State.setEvent_keeps)
    | (intro)
    | (with_reducible apply Keeps.ite)

theorem State.finishHead_keeps {s0 s : State} (h : Keeps s0 s) (t : Nat) (hh : Nat) (q : Nat) (status : Nat) (detail : Nat) (result : Nat) (deg : Bool) : Keeps s0 (State.finishHead s t hh q status detail result deg) := by
  unfold State.finishHead
  repeat' first
    | (with_reducible assumption)
    | (with_reducible exact Keeps.refl _)
    | (with_reducible apply State.errEvent_keeps)
    | (with_reducible apply State.hostWrite_keeps)
    | (with_reducible apply State.modQueue_keeps)
    | (with_reducible apply State.msix_keeps)
    | (dsimp only)
    | (intro)
    | (with_reducible apply Keeps.ite)
    | split

theorem State.settleOnce_keeps {s0 s : State} (h : Keeps s0 s) (t : Nat) (hh : Nat) (q : Nat) : Keeps s0 (State.settleOnce s t hh q) := by
  unfold State.settleOnce
  repeat' first
    | (with_reducible assumption)
    | (with_reducible exact Keeps.refl _)
    | (with_reducible apply State.finishHead_keeps)
    | (intro)
    | (with_reducible apply Keeps.ite)
    | split

theorem State.settle.go_keeps {s0 : State} (t : Nat) (hh : Nat) (q : Nat) (n : Nat) : ∀ {s : State}, Keeps s0 s → Keeps s0 (State.settle.go t hh q n s) := by
  induction n with
  | zero => intro s h; exact h
  | succ n ih =>
    intro s h
    unfold State.settle.go
    apply ih
    repeat' first
      | (with_reducible assumption)
      | (with_reducible exact Keeps.refl _)
      | (with_reducible apply State.settleOnce_keeps)

theorem State.settle_keeps {s0 s : State} (h : Keeps s0 s) (t : Nat) (hh : Nat) (q : Nat) : Keeps s0 (State.settle s t hh q) := by
  unfold State.settle
  repeat' first
    | (with_reducible apply State.settle.go_keeps)
    | (with_reducible assumption)

theorem State.complete_keeps {s0 s : State} (h : Keeps s0 s) (t : Nat) (hh : Nat) (q : Nat) (status : Nat) (detail : Nat) (result : Nat) (deg : Bool) : Keeps s0 (State.complete s t hh q status detail result deg) := by
  unfold State.complete
  repeat' first
    | (with_reducible assumption)
    | (with_reducible exact Keeps.refl _)
    | (with_reducible apply State.finishHead_keeps)
    | (with_reducible apply State.settle_keeps)

theorem State.modTx_keeps {s0 s : State} (h : Keeps s0 s) (d : DieId) (f : List TxFlow → List TxFlow) : Keeps s0 (State.modTx s d f) := by
  unfold State.modTx
  repeat' first
    | (with_reducible assumption)
    | (with_reducible exact Keeps.refl _)
    | (with_reducible apply State.modDie_keeps)
    | (exact fun _ hx => ⟨hx.1, hx.2, hx.3, hx.4, hx.5, hx.6⟩)

theorem State.modRx_keeps {s0 s : State} (h : Keeps s0 s) (d : DieId) (f : List RxFlow → List RxFlow) : Keeps s0 (State.modRx s d f) := by
  unfold State.modRx
  repeat' first
    | (with_reducible assumption)
    | (with_reducible exact Keeps.refl _)
    | (with_reducible apply State.modDie_keeps)
    | (exact fun _ hx => ⟨hx.1, hx.2, hx.3, hx.4, hx.5, hx.6⟩)

theorem State.freeLabel_keeps {s0 s : State} (h : Keeps s0 s) (d : DieId) (p : Nat) (l : Nat) : Keeps s0 (State.freeLabel s d p l) := by
  unfold State.freeLabel
  repeat' first
    | (with_reducible assumption)
    | (with_reducible exact Keeps.refl _)
    | (with_reducible apply State.modPort_keeps)

theorem State.pumpOnce_keeps {s0 s : State} (h : Keeps s0 s) (d : DieId) (t : Nat) (id : Nat) : Keeps s0 (State.pumpOnce s d t id) := by
  unfold State.pumpOnce
  repeat' first
    | (with_reducible assumption)
    | (with_reducible exact Keeps.refl _)
    | (with_reducible apply State.freeLabel_keeps)
    | (with_reducible apply State.modTx_keeps)
    | (with_reducible apply State.sendFlit_keeps)
    | (dsimp only)
    | (intro)
    | (with_reducible apply Keeps.ite)
    | split

theorem State.pump.go_keeps {s0 : State} (d : DieId) (t : Nat) (id : Nat) (n : Nat) : ∀ {s : State}, Keeps s0 s → Keeps s0 (State.pump.go d t id n s) := by
  induction n with
  | zero => intro s h; exact h
  | succ n ih =>
    intro s h
    unfold State.pump.go
    apply ih
    repeat' first
      | (with_reducible assumption)
      | (with_reducible exact Keeps.refl _)
      | (with_reducible apply State.pumpOnce_keeps)

theorem State.pump_keeps {s0 s : State} (h : Keeps s0 s) (d : DieId) (t : Nat) (id : Nat) : Keeps s0 (State.pump s d t id) := by
  unfold State.pump
  repeat' first
    | (with_reducible apply State.pump.go_keeps)
    | (with_reducible assumption)

theorem State.sendTransit_keeps {s0 s : State} (h : Keeps s0 s) (d : DieId) (p : Nat) : Keeps s0 (State.sendTransit s d p) := by
  unfold State.sendTransit
  repeat' first
    | (with_reducible assumption)
    | (with_reducible exact Keeps.refl _)
    | (with_reducible apply State.modPort_keeps)
    | (with_reducible apply State.sendFlit_keeps)
    | (with_reducible apply Keeps.foldl)
    | (dsimp only)
    | (intro)
    | (with_reducible apply Keeps.ite)

theorem State.pumpSlot_keeps {s0 s : State} (h : Keeps s0 s) (d : DieId) (p : Nat) (k : Nat) (t : Nat) : Keeps s0 (State.pumpSlot s d p k t) := by
  unfold State.pumpSlot
  repeat' first
    | (with_reducible assumption)
    | (with_reducible exact Keeps.refl _)
    | (with_reducible apply State.pumpOnce_keeps)
    | (dsimp only)
    | split

theorem State.pumpPort.go_keeps {s0 : State} (d : DieId) (p : Nat) (n : Nat) : ∀ {s : State}, Keeps s0 s → Keeps s0 (State.pumpPort.go d p n s) := by
  induction n with
  | zero => intro s h; exact h
  | succ n ih =>
    intro s h
    unfold State.pumpPort.go
    apply ih
    repeat' first
      | (with_reducible assumption)
      | (with_reducible exact Keeps.refl _)
      | (with_reducible apply State.pumpOnce_keeps)
      | (with_reducible apply State.pumpSlot_keeps)
      | (with_reducible apply State.sendTransit_keeps)
      | (with_reducible apply Keeps.foldl)
      | (intro)
      | (with_reducible apply Keeps.ite)

theorem State.pumpPort_keeps {s0 s : State} (h : Keeps s0 s) (d : DieId) (p : Nat) : Keeps s0 (State.pumpPort s d p) := by
  unfold State.pumpPort
  repeat' first
    | (with_reducible apply State.pumpPort.go_keeps)
    | (with_reducible assumption)
    | (with_reducible exact Keeps.refl _)
    | (with_reducible apply State.pumpOnce_keeps)
    | (with_reducible apply State.pumpSlot_keeps)
    | (with_reducible apply State.sendTransit_keeps)

theorem State.tellLost_keeps {s0 s : State} (h : Keeps s0 s) (d : DieId) (toId : Nat) (t : Nat) (cause : Nat) (id : Nat) (src : Nat) (dst : Nat) : Keeps s0 (State.tellLost s d toId t cause id src dst) := by
  unfold State.tellLost
  repeat' first
    | (with_reducible assumption)
    | (with_reducible exact Keeps.refl _)
    | (with_reducible apply State.sendRecord_keeps)
    | (intro)
    | (with_reducible apply Keeps.ite)

theorem State.modRun_keeps {s0 s : State} (h : Keeps s0 s) (d : DieId) (t : Nat) (hh : Nat) (q : Nat) (f : Run → Run) : Keeps s0 (State.modRun s d t hh q f) := by
  unfold State.modRun
  repeat' first
    | (with_reducible assumption)
    | (with_reducible exact Keeps.refl _)
    | (with_reducible apply State.modDie_keeps)
    | (intro)
    | (with_reducible apply Keeps.ite)
    | split
    | (exact fun _ hx => ⟨hx.1, hx.2, hx.3, hx.4, hx.5, hx.6⟩)
    | (exact fun _ hx => ⟨hx.1, hx.2⟩)
    | (exact fun _ => Nat.le_refl _)
    | (exact fun _ ha hb => ⟨ha, hb⟩)
    | (apply DieInv.same <;> first | assumption | rfl)

theorem State.clearRegion_keeps {s0 s : State} (h : Keeps s0 s) (d : DieId) (p : Plan) : Keeps s0 (State.clearRegion s d p) := by
  unfold State.clearRegion
  repeat' first
    | (with_reducible assumption)
    | (with_reducible exact Keeps.refl _)
    | (with_reducible apply State.modDie_keeps)
    | (exact fun _ hx => ⟨hx.1, hx.2, hx.3, hx.4, hx.5, hx.6⟩)

theorem State.releaseBanks_keeps {s0 s : State} (h : Keeps s0 s) (d : DieId) (mask : Nat) : Keeps s0 (State.releaseBanks s d mask) := by
  unfold State.releaseBanks
  repeat' first
    | (with_reducible assumption)
    | (with_reducible exact Keeps.refl _)
    | (with_reducible apply State.modDie_keeps)
    | (intro)
    | (with_reducible apply Keeps.ite)
    | split
    | (exact fun _ hx => ⟨hx.1, hx.2, hx.3, hx.4, hx.5, hx.6⟩)
    | (exact fun _ hx => ⟨hx.1, hx.2⟩)
    | (exact fun _ => Nat.le_refl _)
    | (exact fun _ ha hb => ⟨ha, hb⟩)
    | (apply DieInv.same <;> first | assumption | rfl)

theorem State.closeFlows_keeps {s0 s : State} (h : Keeps s0 s) (d : DieId) (t : Nat) (hh : Nat) (q : Nat) : Keeps s0 (State.closeFlows s d t hh q) := by
  unfold State.closeFlows
  apply Keeps.foldl
  · intro u f hu
    exact State.pump_keeps hu _ _ _
  · exact State.modRx_keeps (State.modTx_keeps h _ _) _ _

theorem State.modNrg_keeps {s0 s : State} (h : Keeps s0 s) (d : DieId) (f : Energy → Energy) : Keeps s0 (State.modNrg s d f) := by
  unfold State.modNrg
  repeat' first
    | (with_reducible assumption)
    | (with_reducible exact Keeps.refl _)
    | (with_reducible apply State.modDie_keeps)
    | (exact fun _ hx => ⟨hx.1, hx.2, hx.3, hx.4, hx.5, hx.6⟩)

theorem State.charge_keeps {s0 s : State} (h : Keeps s0 s) (d : DieId) (t : Nat) (hh : Nat) (q : Option Nat) (e : Nat) : Keeps s0 (State.charge s d t hh q e) := by
  unfold State.charge
  repeat' first
    | (with_reducible assumption)
    | (with_reducible exact Keeps.refl _)
    | (with_reducible apply State.modCtx_keeps)
    | (with_reducible apply State.modTenant_keeps)
    | (with_reducible apply State.modNrg_keeps)
    | (with_reducible apply State.modQueue_keeps)
    | (dsimp only)
    | (intro)
    | (with_reducible apply Keeps.ite)
    | split

theorem State.countAct_keeps {s0 s : State} (h : Keeps s0 s) (d : DieId) (a : Activity) : Keeps s0 (State.countAct s d a) := by
  unfold State.countAct
  repeat' first
    | (with_reducible assumption)
    | (with_reducible exact Keeps.refl _)
    | (with_reducible apply State.modDie_keeps)
    | split
    | (exact fun _ hx => ⟨hx.1, hx.2, hx.3, hx.4, hx.5, hx.6⟩)

theorem State.countRun_keeps {s0 s : State} (h : Keeps s0 s) (d : DieId) (r : Run) : Keeps s0 (State.countRun s d r) := by
  unfold State.countRun
  repeat' first
    | (with_reducible assumption)
    | (with_reducible exact Keeps.refl _)
    | (with_reducible apply State.countAct_keeps)
    | (with_reducible apply Keeps.foldl)
    | (exact fun _ hx => ⟨hx.1, hx.2, hx.3, hx.4, hx.5, hx.6⟩)
    | (exact fun _ hx => ⟨hx.1, hx.2⟩)
    | (exact fun _ => Nat.le_refl _)
    | (exact fun _ ha hb => ⟨ha, hb⟩)
    | (exact Nat.le_refl _)
    | (intro)

theorem State.leadFall_keeps {s0 s : State} (h : Keeps s0 s) (d : DieId) : Keeps s0 (State.leadFall s d) := by
  unfold State.leadFall
  repeat' first
    | (with_reducible assumption)
    | (with_reducible exact Keeps.refl _)
    | (with_reducible apply State.modDie_keeps)
    | (with_reducible apply State.retarget_keeps)
    | (with_reducible apply Keeps.foldl)
    | (dsimp only)
    | (intro)
    | (with_reducible apply Keeps.ite)
    | split
    | (exact fun _ hx => ⟨hx.1, hx.2, hx.3, hx.4, hx.5, hx.6⟩)
    | (exact fun _ hx => ⟨hx.1, hx.2⟩)
    | (exact fun _ => Nat.le_refl _)
    | (exact fun _ ha hb => ⟨ha, hb⟩)
    | (apply DieInv.same <;> first | assumption | rfl)

theorem State.stopRun_keeps {s0 s : State} (h : Keeps s0 s) (d : DieId) (t : Nat) (hh : Nat) (q : Nat) : Keeps s0 (State.stopRun s d t hh q) := by
  unfold State.stopRun
  repeat' first
    | (with_reducible assumption)
    | (with_reducible exact Keeps.refl _)
    | (with_reducible apply State.modCtx_keeps)
    | (with_reducible apply State.modDie_keeps)
    | (with_reducible apply State.clearRegion_keeps)
    | (with_reducible apply State.closeFlows_keeps)
    | (with_reducible apply State.countRun_keeps)
    | (with_reducible apply State.leadFall_keeps)
    | (with_reducible apply State.releaseBanks_keeps)
    | (with_reducible apply State.sramFree_keeps)
    | (with_reducible apply Keeps.foldl)
    | (dsimp only)
    | split
    | (exact fun _ hx => ⟨hx.1, hx.2, hx.3, hx.4, hx.5, hx.6⟩)
    | (exact fun _ hx => ⟨hx.1, hx.2, hx.3, hx.4, hx.5, rfl⟩)
    | (exact fun _ hx => ⟨hx.1, hx.2⟩)
    | (exact fun _ => Nat.le_refl _)
    | (exact fun _ ha hb => ⟨ha, hb⟩)
    | (exact Nat.le_refl _)
    | (intro)

theorem State.endRun_keeps {s0 s : State} (h : Keeps s0 s) (d : DieId) (t : Nat) (hh : Nat) (q : Nat) (status : Nat) (detail : Nat) : Keeps s0 (State.endRun s d t hh q status detail) := by
  unfold State.endRun
  repeat' first
    | (with_reducible assumption)
    | (with_reducible exact Keeps.refl _)
    | (with_reducible apply State.complete_keeps)
    | (with_reducible apply State.stopRun_keeps)
    | split

theorem State.endRuns_keeps {s0 s : State} (h : Keeps s0 s) (d : DieId) (status : Nat) (detail : Nat) : Keeps s0 (State.endRuns s d status detail) := by
  unfold State.endRuns
  repeat' first
    | (with_reducible assumption)
    | (with_reducible exact Keeps.refl _)
    | (with_reducible apply State.endRun_keeps)
    | (with_reducible apply Keeps.foldl)
    | (exact fun _ hx => ⟨hx.1, hx.2, hx.3, hx.4, hx.5, hx.6⟩)
    | (exact fun _ hx => ⟨hx.1, hx.2⟩)
    | (exact fun _ => Nat.le_refl _)
    | (exact fun _ ha hb => ⟨ha, hb⟩)
    | (exact Nat.le_refl _)
    | (intro)

theorem State.loseFlow_keeps {s0 s : State} (h : Keeps s0 s) (d : DieId) (t : Nat) (id : Nat) : Keeps s0 (State.loseFlow s d t id) := by
  unfold State.loseFlow
  repeat' first
    | (with_reducible assumption)
    | (with_reducible exact Keeps.refl _)
    | (with_reducible apply State.modDie_keeps)
    | (with_reducible apply State.endRun_keeps)
    | (with_reducible apply State.freeLabel_keeps)
    | (with_reducible apply State.modRx_keeps)
    | (with_reducible apply State.modTx_keeps)
    | (dsimp only)
    | (intro)
    | (with_reducible apply Keeps.ite)
    | split
    | (exact fun _ hx => ⟨hx.1, hx.2, hx.3, hx.4, hx.5, hx.6⟩)
    | (exact fun _ hx => ⟨hx.1, hx.2⟩)
    | (exact fun _ => Nat.le_refl _)
    | (exact fun _ ha hb => ⟨ha, hb⟩)
    | (apply DieInv.same <;> first | assumption | rfl)

theorem State.loseTransit_keeps {s0 s : State} (h : Keeps s0 s) (d : DieId) (e : Transit) (cause : Nat) : Keeps s0 (State.loseTransit s d e cause) := by
  unfold State.loseTransit
  repeat' first
    | (with_reducible assumption)
    | (with_reducible exact Keeps.refl _)
    | (with_reducible apply State.modDie_keeps)
    | (with_reducible apply State.freeLabel_keeps)
    | (with_reducible apply State.tellLost_keeps)
    | (dsimp only)
    | (exact fun _ hx => ⟨hx.1, hx.2, hx.3, hx.4, hx.5, hx.6⟩)

theorem State.loseFlows_keeps {s0 s : State} (h : Keeps s0 s) (d : DieId) (cause : Nat) (tx : TxFlow → Bool) (rx : RxFlow → Bool) (tr : Transit → Bool) : Keeps s0 (State.loseFlows s d cause tx rx tr) := by
  unfold State.loseFlows
  repeat' first
    | (with_reducible assumption)
    | (with_reducible exact Keeps.refl _)
    | (with_reducible apply State.loseFlow_keeps)
    | (with_reducible apply State.loseTransit_keeps)
    | (with_reducible apply State.tellLost_keeps)
    | (with_reducible apply Keeps.foldl)
    | (dsimp only)
    | (exact fun _ hx => ⟨hx.1, hx.2, hx.3, hx.4, hx.5, hx.6⟩)
    | (exact fun _ hx => ⟨hx.1, hx.2⟩)
    | (exact fun _ => Nat.le_refl _)
    | (exact fun _ ha hb => ⟨ha, hb⟩)
    | (exact Nat.le_refl _)
    | (intro)

theorem State.dropFlows_keeps {s0 s : State} (h : Keeps s0 s) (d : DieId) (cause : Nat) : Keeps s0 (State.dropFlows s d cause) := by
  unfold State.dropFlows
  repeat' first
    | (with_reducible assumption)
    | (with_reducible exact Keeps.refl _)
    | (with_reducible apply State.modDie_keeps)
    | (with_reducible apply State.freeLabel_keeps)
    | (with_reducible apply State.loseTransit_keeps)
    | (with_reducible apply State.tellLost_keeps)
    | (with_reducible apply Keeps.foldl)
    | (dsimp only)
    | (exact fun _ hx => ⟨hx.1, hx.2, hx.3, hx.4, hx.5, hx.6⟩)
    | (exact fun _ hx => ⟨hx.1, hx.2⟩)
    | (exact fun _ => Nat.le_refl _)
    | (exact fun _ ha hb => ⟨ha, hb⟩)
    | (exact Nat.le_refl _)
    | (intro)

theorem State.loseAllFlows_keeps {s0 s : State} (h : Keeps s0 s) (d : DieId) (cause : Nat) : Keeps s0 (State.loseAllFlows s d cause) := by
  unfold State.loseAllFlows
  repeat' first
    | (with_reducible assumption)
    | (with_reducible exact Keeps.refl _)
    | (with_reducible apply State.loseFlows_keeps)

theorem State.settleCtx_keeps {s0 s : State} (h : Keeps s0 s) (d : DieId) (t : Nat) (hh : Nat) : Keeps s0 (State.settleCtx s d t hh) := by
  unfold State.settleCtx
  repeat' first
    | (with_reducible assumption)
    | (with_reducible exact Keeps.refl _)
    | (with_reducible apply State.charge_keeps)
    | (with_reducible apply State.modNrg_keeps)
    | (with_reducible apply Keeps.foldl)
    | (dsimp only)
    | (intro)

theorem State.dropUnits_keeps {s0 s : State} (h : Keeps s0 s) (d : DieId) (t : Nat) (hh : Nat) (q : Nat) : Keeps s0 (State.dropUnits s d t hh q) := by
  unfold State.dropUnits
  repeat' first
    | (with_reducible assumption)
    | (with_reducible exact Keeps.refl _)
    | (with_reducible apply State.modDie_keeps)
    | (intro)
    | (with_reducible apply Keeps.ite)
    | split
    | (exact fun _ hx => ⟨hx.1, hx.2, hx.3, hx.4, hx.5, hx.6⟩)
    | (exact fun _ hx => ⟨hx.1, hx.2⟩)
    | (exact fun _ => Nat.le_refl _)
    | (exact fun _ ha hb => ⟨ha, hb⟩)
    | (apply DieInv.same <;> first | assumption | rfl)

theorem State.failQueue.go_keeps {s0 : State} (t : Nat) (hh : Nat) (q : Nat) (status : Nat) (n : Nat) : ∀ {s : State}, Keeps s0 s → Keeps s0 (State.failQueue.go t hh q status n s) := by
  induction n with
  | zero => intro s h; exact h
  | succ n ih =>
    intro s h
    unfold State.failQueue.go
    apply ih
    repeat' first
      | (with_reducible assumption)
      | (with_reducible exact Keeps.refl _)
      | (with_reducible apply State.dropUnits_keeps)
      | (with_reducible apply State.finishHead_keeps)
      | (with_reducible apply State.stopRun_keeps)
      | (dsimp only)
      | (intro)
      | (with_reducible apply Keeps.ite)
      | split

theorem State.failQueue_keeps {s0 s : State} (h : Keeps s0 s) (d : DieId) (t : Nat) (hh : Nat) (q : Nat) (status : Nat) : Keeps s0 (State.failQueue s d t hh q status) := by
  unfold State.failQueue
  repeat' first
    | (with_reducible apply State.failQueue.go_keeps)
    | (with_reducible assumption)
    | (with_reducible exact Keeps.refl _)
    | (with_reducible apply State.dropUnits_keeps)
    | (with_reducible apply State.finishHead_keeps)
    | (with_reducible apply State.stopRun_keeps)
    | (dsimp only)
    | (intro)
    | (with_reducible apply Keeps.ite)
    | split

theorem State.failResidents_keeps {s0 s : State} (h : Keeps s0 s) (d : DieId) (status : Nat) : Keeps s0 (State.failResidents s d status) := by
  unfold State.failResidents
  apply State.setTenants_keeps
  apply State.modDie_keeps
  · apply Keeps.foldl
    · intro u c hu
      exact State.modCtx_keeps (State.settleCtx_keeps hu _ _ _) _ _ _
    · apply Keeps.foldl
      · intro u c hu
        apply Keeps.foldl
        · intro u q hu
          exact State.failQueue_keeps hu _ _ _ _ _
        · exact hu
      · exact h
  · intro x hx
    exact DieInv.tiles hx _ rfl (by rw [List.length_replicate, hx.6])

end Sys2Proof.Machine
end

