-- ==== Sys2Proof/Laws/KeepsDieOps.lean ====
section
/-! SUPPORT. The operations of Machine/DieOps.lean keep what `Keeps` says. -/

namespace Sys2Proof.Machine
open Sys2Proof

theorem State.modClk_keeps {s0 s : State} (h : Keeps s0 s) (d : DieId) (f : Clk → Clk) : Keeps s0 (State.modClk s d f) := by
  unfold State.modClk
  repeat' first
    | (with_reducible assumption)
    | (with_reducible exact Keeps.refl _)
    | (with_reducible apply State.modDie_keeps)
    | (exact fun _ hx => ⟨hx.1, hx.2, hx.3, hx.4, hx.5, hx.6⟩)

theorem State.logClk_keeps {s0 s : State} (h : Keeps s0 s) (d : DieId) (code : Nat) : Keeps s0 (State.logClk s d code) := by
  unfold State.logClk
  repeat' first
    | (with_reducible assumption)
    | (with_reducible exact Keeps.refl _)
    | (with_reducible apply State.logDie_keeps)

theorem State.clockFault_keeps {s0 s : State} (h : Keeps s0 s) (d : DieId) (l : Option LoopId) : Keeps s0 (State.clockFault s d l) := by
  unfold State.clockFault
  repeat' first
    | (with_reducible assumption)
    | (with_reducible exact Keeps.refl _)
    | (with_reducible apply State.modDie_keeps)
    | (with_reducible apply State.logClk_keeps)
    | (dsimp only)
    | (intro)
    | (with_reducible apply Keeps.ite)
    | split
    | (exact fun _ hx => ⟨hx.1, hx.2, hx.3, hx.4, hx.5, hx.6⟩)
    | (exact fun _ hx => ⟨hx.1, hx.2⟩)
    | (exact fun _ => Nat.le_refl _)
    | (exact fun _ ha hb => ⟨ha, hb⟩)
    | (exact fun _ => Nat.add_le_add_left (Nat.le_max_left _ _) _)
    | (exact fun _ => Nat.add_le_add_left (Nat.le_add_right _ _) _)
    | (apply DieInv.same <;> first | assumption | rfl)

theorem State.supplyLag_keeps {s0 s : State} (h : Keeps s0 s) (d : DieId) (g : Nat) : Keeps s0 (State.supplyLag s d g) := by
  unfold State.supplyLag
  repeat' first
    | (with_reducible assumption)
    | (with_reducible exact Keeps.refl _)
    | (with_reducible apply State.modDie_keeps)
    | (with_reducible apply State.logDie_keeps)
    | (exact fun _ hx => ⟨hx.1, hx.2, hx.3, hx.4, hx.5, hx.6⟩)

theorem State.loopFault_keeps {s0 s : State} (h : Keeps s0 s) (d : DieId) (l : LoopId) (g : Nat) : Keeps s0 (State.loopFault s d l g) := by
  unfold State.loopFault
  repeat' first
    | (with_reducible assumption)
    | (with_reducible exact Keeps.refl _)
    | (with_reducible apply State.clockFault_keeps)
    | (with_reducible apply State.modClk_keeps)
    | (dsimp only)
    | (intro)
    | (with_reducible apply Keeps.ite)

theorem State.raiseRefused_keeps {s0 s : State} (h : Keeps s0 s) (d : DieId) (l : LoopId) (g : Nat) : Keeps s0 (State.raiseRefused s d l g) := by
  unfold State.raiseRefused
  repeat' first
    | (with_reducible assumption)
    | (with_reducible exact Keeps.refl _)
    | (with_reducible apply State.logClk_keeps)
    | (with_reducible apply State.loopFault_keeps)
    | (with_reducible apply State.modClk_keeps)
    | (with_reducible apply State.moveVcore_keeps)
    | (with_reducible apply State.supplyLag_keeps)
    | (dsimp only)
    | (intro)
    | (with_reducible apply Keeps.ite)

theorem State.applyStep_keeps {s0 s : State} (h : Keeps s0 s) (d : DieId) (g0 : Nat) : Keeps s0 (State.applyStep s d g0) := by
  unfold State.applyStep
  repeat' first
    | (with_reducible assumption)
    | (with_reducible exact Keeps.refl _)
    | (with_reducible apply State.modDie_keeps)
    | (with_reducible apply State.clockFault_keeps)
    | (with_reducible apply State.logClk_keeps)
    | (with_reducible apply State.loopFault_keeps)
    | (with_reducible apply State.modClk_keeps)
    | (with_reducible apply State.moveVcore_keeps)
    | (with_reducible apply State.raiseRefused_keeps)
    | (with_reducible apply State.supplyLag_keeps)
    | (dsimp only)
    | (intro)
    | (with_reducible apply Keeps.ite)
    | split
    | (exact fun _ hx => ⟨hx.1, hx.2, hx.3, hx.4, hx.5, hx.6⟩)
    | (exact fun _ hx => ⟨hx.1, hx.2⟩)
    | (exact fun _ => Nat.le_refl _)
    | (exact fun _ ha hb => ⟨ha, hb⟩)
    | (apply DieInv.same <;> first | assumption | rfl)

theorem State.announce_keeps {s0 s : State} (h : Keeps s0 s) (d : DieId) (src : Nat) (code : Nat) : Keeps s0 (State.announce s d src code) := by
  unfold State.announce
  repeat' first
    | (with_reducible assumption)
    | (with_reducible exact Keeps.refl _)
    | (with_reducible apply State.flood_keeps)
    | (with_reducible apply State.noticeDie_keeps)

theorem State.heat_keeps {s0 s : State} (h : Keeps s0 s) (d : DieId) (code : Nat) : Keeps s0 (State.heat s d code) := by
  unfold State.heat
  repeat' first
    | (with_reducible assumption)
    | (with_reducible exact Keeps.refl _)
    | (with_reducible apply State.flood_keeps)
    | (with_reducible apply State.heatEvent_keeps)
    | (dsimp only)
    | (intro)
    | (with_reducible apply Keeps.ite)

theorem State.portDown_keeps {s0 s : State} (h : Keeps s0 s) (d : DieId) (p : Nat) : Keeps s0 (State.portDown s d p) := by
  unfold State.portDown
  repeat' first
    | (with_reducible assumption)
    | (with_reducible exact Keeps.refl _)
    | (with_reducible apply State.modDie_keeps)
    | (with_reducible apply State.logDie_keeps)
    | (with_reducible apply State.loseFlows_keeps)
    | (with_reducible apply State.modPort_keeps)
    | (dsimp only)
    | (exact fun _ hx => ⟨hx.1, hx.2, hx.3, hx.4, hx.5, hx.6⟩)

theorem State.stopCal_keeps {s0 s : State} (h : Keeps s0 s) (d : DieId) (p : Nat) : Keeps s0 (State.stopCal s d p) := by
  unfold State.stopCal
  repeat' first
    | (with_reducible assumption)
    | (with_reducible exact Keeps.refl _)
    | (with_reducible apply State.modDie_keeps)
    | (dsimp only)
    | (intro)
    | (with_reducible apply Keeps.ite)
    | split
    | (exact fun _ hx => ⟨hx.1, hx.2, hx.3, hx.4, hx.5, hx.6⟩)
    | (exact fun _ hx => ⟨hx.1, hx.2⟩)
    | (exact fun _ => Nat.le_refl _)
    | (exact fun _ ha hb => ⟨ha, hb⟩)
    | (apply DieInv.same <;> first | assumption | rfl)

theorem State.portRetrain_keeps {s0 s : State} (h : Keeps s0 s) (d : DieId) (p : Nat) : Keeps s0 (State.portRetrain s d p) := by
  unfold State.portRetrain
  repeat' first
    | (with_reducible assumption)
    | (with_reducible exact Keeps.refl _)
    | (with_reducible apply State.modDie_keeps)
    | (with_reducible apply State.modPort_keeps)
    | (with_reducible apply State.stopCal_keeps)
    | (intro)
    | (with_reducible apply Keeps.ite)
    | split
    | (exact fun _ hx => ⟨hx.1, hx.2, hx.3, hx.4, hx.5, hx.6⟩)
    | (exact fun _ hx => ⟨hx.1, hx.2⟩)
    | (exact fun _ => Nat.le_refl _)
    | (exact fun _ ha hb => ⟨ha, hb⟩)
    | (apply DieInv.same <;> first | assumption | rfl)

theorem State.portsLow_keeps {s0 s : State} (h : Keeps s0 s) (d : DieId) : Keeps s0 (State.portsLow s d) := by
  unfold State.portsLow
  repeat' first
    | (with_reducible assumption)
    | (with_reducible exact Keeps.refl _)
    | (with_reducible apply State.loseFlows_keeps)
    | (with_reducible apply State.modPort_keeps)
    | (with_reducible apply State.sendHop_keeps)
    | (with_reducible apply State.stopCal_keeps)
    | (with_reducible apply Keeps.foldl)
    | (dsimp only)
    | (intro)
    | (with_reducible apply Keeps.ite)

theorem State.portsBack_keeps {s0 s : State} (h : Keeps s0 s) (d : DieId) : Keeps s0 (State.portsBack s d) := by
  unfold State.portsBack
  repeat' first
    | (with_reducible assumption)
    | (with_reducible exact Keeps.refl _)
    | (with_reducible apply State.modPort_keeps)
    | (with_reducible apply State.pumpPort_keeps)
    | (with_reducible apply State.sendHop_keeps)
    | (with_reducible apply Keeps.foldl)
    | (dsimp only)
    | (intro)
    | (with_reducible apply Keeps.ite)

theorem State.stopMember_keeps {s0 s : State} (h : Keeps s0 s) (d : DieId) : Keeps s0 (State.stopMember s d) := by
  unfold State.stopMember
  repeat' first
    | (with_reducible assumption)
    | (with_reducible exact Keeps.refl _)
    | (with_reducible apply State.modDie_keeps)
    | (with_reducible apply State.applyStep_keeps)
    | (with_reducible apply State.dropFlows_keeps)
    | (with_reducible apply State.endRuns_keeps)
    | (dsimp only)
    | (exact fun _ hx => ⟨hx.1, hx.2, hx.3, hx.4, hx.5, hx.6⟩)

theorem State.passLeave_keeps {s0 s : State} (h : Keeps s0 s) (d : DieId) (cause : Nat) (id : Nat) : Keeps s0 (State.passLeave s d cause id) := by
  unfold State.passLeave
  repeat' first
    | (with_reducible assumption)
    | (with_reducible exact Keeps.refl _)
    | (with_reducible apply State.modDie_keeps)
    | (with_reducible apply State.sendUp_keeps)
    | (dsimp only)
    | (intro)
    | (with_reducible apply Keeps.ite)
    | split
    | (exact fun _ hx => ⟨hx.1, hx.2, hx.3, hx.4, hx.5, hx.6⟩)
    | (exact fun _ hx => ⟨hx.1, hx.2⟩)
    | (exact fun _ => Nat.le_refl _)
    | (exact fun _ ha hb => ⟨ha, hb⟩)
    | (apply DieInv.same <;> first | assumption | rfl)

theorem State.sendLeave_keeps {s0 s : State} (h : Keeps s0 s) (d : DieId) (cause : Nat) : Keeps s0 (State.sendLeave s d cause) := by
  unfold State.sendLeave
  repeat' first
    | (with_reducible assumption)
    | (with_reducible exact Keeps.refl _)
    | (with_reducible apply State.modDie_keeps)
    | (with_reducible apply State.passLeave_keeps)
    | (dsimp only)
    | (intro)
    | (with_reducible apply Keeps.ite)
    | split
    | (exact fun _ hx => ⟨hx.1, hx.2, hx.3, hx.4, hx.5, hx.6⟩)
    | (exact fun _ hx => ⟨hx.1, hx.2⟩)
    | (exact fun _ => Nat.le_refl _)
    | (exact fun _ ha hb => ⟨ha, hb⟩)
    | (apply DieInv.same <;> first | assumption | rfl)

theorem State.leaveFor_keeps {s0 s : State} (h : Keeps s0 s) (d : DieId) (cause : Nat) : Keeps s0 (State.leaveFor s d cause) := by
  unfold State.leaveFor
  repeat' first
    | (with_reducible assumption)
    | (with_reducible exact Keeps.refl _)
    | (with_reducible apply State.passLeave_keeps)
    | (intro)
    | (with_reducible apply Keeps.ite)
    | split

theorem State.railsOff_keeps {s0 s : State} (h : Keeps s0 s) (d : DieId) (keepVio : Bool) (status : Nat) : Keeps s0 (State.railsOff s d keepVio status) := by
  unfold State.railsOff
  apply State.modDie_keeps
  · exact State.sramLost_keeps (State.failResidents_keeps h _ _) _
  · intro x hx
    exact ⟨hx.1, hx.2, hx.3, Nat.zero_le _, hx.5, hx.6⟩

theorem State.railsUp_keeps {s0 s : State} (h : Keeps s0 s) (d : DieId) : Keeps s0 (State.railsUp s d) := by
  unfold State.railsUp
  repeat' first
    | (with_reducible assumption)
    | (with_reducible exact Keeps.refl _)
    | (with_reducible apply State.modDie_keeps)
    | (intro)
    | (with_reducible apply Keeps.ite)
    | split
    | (exact fun _ hx => ⟨hx.1, hx.2, hx.3, hx.4, hx.5, hx.6⟩)
    | (exact fun _ hx => ⟨hx.1, hx.2⟩)
    | (exact fun _ => Nat.le_refl _)
    | (exact fun _ ha hb => ⟨ha, hb⟩)
    | (apply DieInv.same <;> first | assumption | rfl)

theorem State.holdOff_keeps {s0 s : State} (h : Keeps s0 s) (d : DieId) (cause : Nat) : Keeps s0 (State.holdOff s d cause) := by
  unfold State.holdOff
  repeat' first
    | (with_reducible assumption)
    | (with_reducible exact Keeps.refl _)
    | (with_reducible apply State.modDie_keeps)
    | (with_reducible apply State.logDie_keeps)
    | (with_reducible apply State.railsOff_keeps)
    | (exact fun _ hx => ⟨hx.1, hx.2, hx.3, hx.4, hx.5, hx.6⟩)

theorem State.failTile_keeps {s0 s : State} (h : Keeps s0 s) (d : DieId) (L : Nat) : Keeps s0 (State.failTile s d L) := by
  unfold State.failTile
  repeat' first
    | (with_reducible assumption)
    | (with_reducible exact Keeps.refl _)
    | (with_reducible apply State.modDie_keeps)
    | (with_reducible apply State.logDie_keeps)
    | (dsimp only)
    | (intro)
    | (with_reducible apply Keeps.ite)
    | split
    | (exact fun _ hx => ⟨hx.1, hx.2, hx.3, hx.4, hx.5, hx.6⟩)
    | (exact fun _ hx => ⟨hx.1, hx.2⟩)
    | (exact fun _ => Nat.le_refl _)
    | (exact fun _ ha hb => ⟨ha, hb⟩)
    | (apply DieInv.same <;> first | assumption | rfl)

theorem State.poisonWord_keeps {s0 s : State} (h : Keeps s0 s) (d : DieId) (w : Nat) : Keeps s0 (State.poisonWord s d w) := by
  unfold State.poisonWord
  repeat' first
    | (with_reducible assumption)
    | (with_reducible exact Keeps.refl _)
    | (with_reducible apply State.modDie_keeps)
    | (with_reducible apply State.failTile_keeps)
    | (with_reducible apply State.logDie_keeps)
    | (dsimp only)
    | (intro)
    | (with_reducible apply Keeps.ite)
    | split
    | (exact fun _ hx => ⟨hx.1, hx.2, hx.3, hx.4, hx.5, hx.6⟩)
    | (exact fun _ hx => ⟨hx.1, hx.2⟩)
    | (exact fun _ => Nat.le_refl _)
    | (exact fun _ ha hb => ⟨ha, hb⟩)
    | (exact fun _ => Nat.add_le_add_left (Nat.le_max_left _ _) _)
    | (exact fun _ => Nat.add_le_add_left (Nat.le_add_right _ _) _)
    | (apply DieInv.same <;> first | assumption | rfl)

end Sys2Proof.Machine
end

