-- ==== Sys2Proof/Laws/KeepsTrayOps.lean ====
section
/-! SUPPORT. The operations of Machine/TrayOps.lean keep what `Keeps` says. -/

namespace Sys2Proof.Machine
open Sys2Proof

theorem State.coldReset_keeps {s0 s : State} (h : Keeps s0 s) (powerOn : Bool) : Keeps s0 (State.coldReset s powerOn) := by
  have e : ∀ d, ∃ w, ((s.coldReset powerOn).die d) = (s.die d).cold w powerOn := fun d => by
    refine ⟨KV.getD s.tray.leg.nv ⟨0x2100, 1, d⟩ 0 == 1, ?_⟩
    simp only [State.coldReset, State.die, vec_get, Vector.getElem_mapFinIdx]
  refine h.trans ⟨rfl, ?_, List.suffix_refl _, fun hd d => ?_, fun _ m => ?_⟩
  · cases powerOn
    · exact Nat.le_refl _
    · exact Nat.le_of_eq (Nat.add_zero _).symm
  · obtain ⟨w, hw⟩ := e d
    rw [hw]
    refine ⟨rfl, (hd d).2, fun v hv => ?_, Nat.zero_le _, Nat.zero_le _, rfl⟩
    cases powerOn <;> cases hv
  · have : (s.coldReset powerOn).master m = {} := by
      simp only [State.coldReset, State.master, vec_get, Vector.getElem_replicate]
    rw [this]
    exact ⟨Nat.zero_le _, Nat.zero_le _⟩

theorem State.abandonSave_keeps {s0 s : State} (h : Keeps s0 s)  : Keeps s0 (State.abandonSave s) := by
  unfold State.abandonSave
  repeat' first
    | (with_reducible assumption)
    | (with_reducible exact Keeps.refl _)
    | (with_reducible apply State.modTray_keeps)
    | (with_reducible apply State.logTray_keeps)
    | (intro)
    | (with_reducible apply Keeps.ite)
    | split
    | (exact fun _ hx => ⟨hx.1, hx.2, hx.3, hx.4, hx.5, hx.6⟩)
    | (exact fun _ hx => ⟨hx.1, hx.2⟩)
    | (exact fun _ => Nat.le_refl _)
    | (exact fun _ ha hb => ⟨ha, hb⟩)
    | (exact Nat.le_refl _)

theorem State.allRailsOff_keeps {s0 s : State} (h : Keeps s0 s)  : Keeps s0 (State.allRailsOff s) := by
  unfold State.allRailsOff
  repeat' first
    | (with_reducible assumption)
    | (with_reducible exact Keeps.refl _)
    | (with_reducible apply State.forDies_keeps)
    | (with_reducible apply State.modDie_keeps)
    | (with_reducible apply State.heat_keeps)
    | (with_reducible apply State.railsOff_keeps)
    | (intro)
    | (with_reducible apply Keeps.ite)
    | split
    | (exact fun _ hx => ⟨hx.1, hx.2, hx.3, hx.4, hx.5, hx.6⟩)
    | (exact fun _ hx => ⟨hx.1, hx.2⟩)
    | (exact fun _ => Nat.le_refl _)
    | (exact fun _ ha hb => ⟨ha, hb⟩)
    | (apply DieInv.same <;> first | assumption | rfl)

theorem State.trayOff_keeps {s0 s : State} (h : Keeps s0 s)  : Keeps s0 (State.trayOff s) := by
  unfold State.trayOff
  exact State.modTray_keeps (State.allRailsOff_keeps h) _ fun _ => Nat.le_refl _

theorem State.requestFrost_keeps {s0 s : State} (h : Keeps s0 s) (d : DieId) (cause : FrostCause) : Keeps s0 (State.requestFrost s d cause) := by
  unfold State.requestFrost
  repeat' first
    | (with_reducible assumption)
    | (with_reducible exact Keeps.refl _)
    | (with_reducible apply State.modDie_keeps)
    | (dsimp only)
    | (intro)
    | (with_reducible apply Keeps.ite)
    | split
    | (exact fun _ hx => ⟨hx.1, hx.2, hx.3, hx.4, hx.5, hx.6⟩)
    | (exact fun _ hx => ⟨hx.1, hx.2⟩)
    | (exact fun _ => Nat.le_refl _)
    | (exact fun _ ha hb => ⟨ha, hb⟩)
    | (apply DieInv.same <;> first | assumption | rfl)

theorem State.cancelFrost_keeps {s0 s : State} (h : Keeps s0 s) (d : DieId) : Keeps s0 (State.cancelFrost s d) := by
  unfold State.cancelFrost
  repeat' first
    | (with_reducible assumption)
    | (with_reducible exact Keeps.refl _)
    | (with_reducible apply State.modDie_keeps)
    | (exact fun _ hx => ⟨hx.1, hx.2, hx.3, hx.4, hx.5, hx.6⟩)

theorem State.followCharge_keeps {s0 s : State} (h : Keeps s0 s)  : Keeps s0 (State.followCharge s) := by
  unfold State.followCharge
  repeat' first
    | (with_reducible assumption)
    | (with_reducible exact Keeps.refl _)
    | (with_reducible apply State.modTray_keeps)
    | (intro)
    | (with_reducible apply Keeps.ite)
    | split
    | (exact fun _ hx => ⟨hx.1, hx.2, hx.3, hx.4, hx.5, hx.6⟩)
    | (exact fun _ hx => ⟨hx.1, hx.2⟩)
    | (exact fun _ => Nat.le_refl _)
    | (exact fun _ ha hb => ⟨ha, hb⟩)
    | (exact Nat.le_refl _)

theorem State.startThaw_keeps {s0 s : State} (h : Keeps s0 s) (d : DieId) : Keeps s0 (State.startThaw s d) := by
  unfold State.startThaw
  repeat' first
    | (with_reducible assumption)
    | (with_reducible exact Keeps.refl _)
    | (with_reducible apply State.modDie_keeps)
    | (with_reducible apply State.followCharge_keeps)
    | (with_reducible apply State.portsBack_keeps)
    | (dsimp only)
    | (intro)
    | (with_reducible apply Keeps.ite)
    | split
    | (exact fun _ hx => ⟨hx.1, hx.2, hx.3, hx.4, hx.5, hx.6⟩)
    | (exact fun _ hx => ⟨hx.1, hx.2⟩)
    | (exact fun _ => Nat.le_refl _)
    | (exact fun _ ha hb => ⟨ha, hb⟩)
    | (apply DieInv.same <;> first | assumption | rfl)

theorem State.thawTrigger_keeps {s0 s : State} (h : Keeps s0 s) (d : DieId) : Keeps s0 (State.thawTrigger s d) := by
  unfold State.thawTrigger
  repeat' first
    | (with_reducible assumption)
    | (with_reducible exact Keeps.refl _)
    | (with_reducible apply State.modDie_keeps)
    | (with_reducible apply State.cancelFrost_keeps)
    | (with_reducible apply State.heat_keeps)
    | (with_reducible apply State.startThaw_keeps)
    | (dsimp only)
    | (intro)
    | (with_reducible apply Keeps.ite)
    | split
    | (exact fun _ hx => ⟨hx.1, hx.2, hx.3, hx.4, hx.5, hx.6⟩)
    | (exact fun _ hx => ⟨hx.1, hx.2⟩)
    | (exact fun _ => Nat.le_refl _)
    | (exact fun _ ha hb => ⟨ha, hb⟩)
    | (apply DieInv.same <;> first | assumption | rfl)

end Sys2Proof.Machine
end

