-- ==== Sys2Proof/Laws/KeepsResults.lean ====
section
/-! SUPPORT. The operations of Machine/Results.lean keep what `Keeps` says. -/

namespace Sys2Proof.Machine
open Sys2Proof

theorem State.modMer_keeps {s0 s : State} (h : Keeps s0 s) (d : DieId) (f : Meridian → Meridian) : Keeps s0 (State.modMer s d f) := by
  unfold State.modMer
  repeat' first
    | (with_reducible assumption)
    | (with_reducible exact Keeps.refl _)
    | (with_reducible apply State.modDie_keeps)
    | (exact fun _ hx => ⟨hx.1, hx.2, hx.3, hx.4, hx.5, hx.6⟩)

theorem State.sendResult_keeps {s0 s : State} (h : Keeps s0 s) (d : DieId) (r : MResult) (src : Nat) : Keeps s0 (State.sendResult s d r src) := by
  unfold State.sendResult
  repeat' first
    | (with_reducible assumption)
    | (with_reducible exact Keeps.refl _)
    | (with_reducible apply State.putRecord_keeps)
    | (with_reducible apply State.sendFor_keeps)
    | (with_reducible apply Keeps.foldl)
    | (dsimp only)
    | (intro)
    | (with_reducible apply Keeps.ite)
    | split

theorem State.holdResult_keeps {s0 s : State} (h : Keeps s0 s) (d : DieId) (r : MResult) (src : Nat) : Keeps s0 (State.holdResult s d r src) := by
  unfold State.holdResult
  repeat' first
    | (with_reducible assumption)
    | (with_reducible exact Keeps.refl _)
    | (with_reducible apply State.modDie_keeps)
    | (with_reducible apply State.modClk_keeps)
    | (with_reducible apply State.moveVcore_keeps)
    | (dsimp only)
    | (intro)
    | (with_reducible apply Keeps.ite)
    | split
    | (exact fun _ hx => ⟨hx.1, hx.2, hx.3, hx.4, hx.5, hx.6⟩)
    | (exact fun _ hx => ⟨hx.1, hx.2⟩)
    | (exact fun _ => Nat.le_refl _)
    | (exact fun _ ha hb => ⟨ha, hb⟩)
    | (apply DieInv.same <;> first | assumption | rfl)

theorem State.amend_keeps {s0 s : State} (h : Keeps s0 s) (d : DieId) (code : Nat) : Keeps s0 (State.amend s d code) := by
  unfold State.amend
  repeat' first
    | (with_reducible assumption)
    | (with_reducible exact Keeps.refl _)
    | (with_reducible apply State.holdResult_keeps)
    | (with_reducible apply State.sendResult_keeps)
    | (dsimp only)
    | (intro)
    | (with_reducible apply Keeps.ite)
    | split

theorem State.urgent_keeps {s0 s : State} (h : Keeps s0 s) (d : DieId) (st0 : Nat) : Keeps s0 (State.urgent s d st0) := by
  unfold State.urgent
  repeat' first
    | (with_reducible assumption)
    | (with_reducible exact Keeps.refl _)
    | (with_reducible apply State.modDie_keeps)
    | (with_reducible apply State.amend_keeps)
    | (with_reducible apply State.sendUp_keeps)
    | (dsimp only)
    | (intro)
    | (with_reducible apply Keeps.ite)
    | split
    | (exact fun _ hx => ⟨hx.1, hx.2, hx.3, hx.4, hx.5, hx.6⟩)
    | (exact fun _ hx => ⟨hx.1, hx.2⟩)
    | (exact fun _ => Nat.le_refl _)
    | (exact fun _ ha hb => ⟨ha, hb⟩)
    | (apply DieInv.same <;> first | assumption | rfl)

end Sys2Proof.Machine
end

