-- ==== Sys2Proof/Laws/KeepsRails.lean ====
section
/-! SUPPORT. The operations of Machine/Rails.lean keep what `Keeps` says. -/

namespace Sys2Proof.Machine
open Sys2Proof

theorem State.modOp_keeps {s0 s : State} (h : Keeps s0 s) (d : DieId) (f : OpPoint → OpPoint) (hf : ∀ x, x.trim ≤ 160 → (∀ v, x.trimFall = some v → v ≤ 160) → (f x).trim ≤ 160 ∧ ∀ v, (f x).trimFall = some v → v ≤ 160) : Keeps s0 (State.modOp s d f) := by
  unfold State.modOp
  apply State.modDie_keeps h
  intro x hx
  exact ⟨hx.1, (hf _ hx.2 hx.3).1, (hf _ hx.2 hx.3).2, hx.4, hx.5, hx.6⟩

theorem State.modRails_keeps {s0 s : State} (h : Keeps s0 s) (d : DieId) (f : Rails → Rails) : Keeps s0 (State.modRails s d f) := by
  unfold State.modRails
  repeat' first
    | (with_reducible assumption)
    | (with_reducible exact Keeps.refl _)
    | (with_reducible apply State.modDie_keeps)
    | (exact fun _ hx => ⟨hx.1, hx.2, hx.3, hx.4, hx.5, hx.6⟩)

theorem State.releaseEmergency_keeps {s0 s : State} (h : Keeps s0 s) (d : DieId) : Keeps s0 (State.releaseEmergency s d) := by
  unfold State.releaseEmergency
  repeat' first
    | (with_reducible assumption)
    | (with_reducible exact Keeps.refl _)
    | (with_reducible apply State.modDie_keeps)
    | (with_reducible apply State.modClk_keeps)
    | (with_reducible apply State.moveVcore_keeps)
    | (dsimp only)
    | (intro)
    | (with_reducible apply Keeps.ite)
    | split
    | (exact fun _ hx => ⟨hx.1, hx.2, hx.3, hx.4, hx.5, hx.6⟩)
    | (exact fun _ hx => ⟨hx.1, hx.2⟩)
    | (exact fun _ => Nat.le_refl _)
    | (exact fun _ ha hb => ⟨ha, hb⟩)
    | (apply DieInv.same <;> first | assumption | rfl)

theorem State.noStepCheck_keeps {s0 s : State} (h : Keeps s0 s) (d : DieId) (was : Bool) : Keeps s0 (State.noStepCheck s d was) := by
  unfold State.noStepCheck
  repeat' first
    | (with_reducible assumption)
    | (with_reducible exact Keeps.refl _)
    | (with_reducible apply State.logDie_keeps)
    | (dsimp only)
    | (intro)
    | (with_reducible apply Keeps.ite)

theorem State.ceilingCheck_keeps {s0 s : State} (h : Keeps s0 s) (d : DieId) : Keeps s0 (State.ceilingCheck s d) := by
  unfold State.ceilingCheck
  repeat' first
    | (with_reducible assumption)
    | (with_reducible exact Keeps.refl _)
    | (with_reducible apply State.modDie_keeps)
    | (with_reducible apply State.logDie_keeps)
    | (with_reducible apply State.retarget_keeps)
    | (with_reducible apply State.urgent_keeps)
    | (dsimp only)
    | (intro)
    | (with_reducible apply Keeps.ite)
    | split
    | (exact fun _ hx => ⟨hx.1, hx.2, hx.3, hx.4, hx.5, hx.6⟩)
    | (exact fun _ hx => ⟨hx.1, hx.2⟩)
    | (exact fun _ => Nat.le_refl _)
    | (exact fun _ ha hb => ⟨ha, hb⟩)
    | (apply DieInv.same <;> first | assumption | rfl)

theorem execAvsCurrentRead_keeps {s0 s : State} (h : Keeps s0 s) (d : DieId) (ma : Nat) (mv : Nat) : OKeeps s0 (execAvsCurrentRead d ma mv s) := by
  unfold execAvsCurrentRead
  repeat' first
    | (with_reducible assumption)
    | (with_reducible exact Keeps.refl _)
    | (with_reducible apply OKeeps.next)
    | (with_reducible apply State.modRails_keeps)
    | (intro)
    | (with_reducible apply OKeeps.ite)

theorem State.assertAlert_keeps {s0 s : State} (h : Keeps s0 s) (d : DieId) (cause : Nat) : Keeps s0 (State.assertAlert s d cause) := by
  unfold State.assertAlert
  repeat' first
    | (with_reducible assumption)
    | (with_reducible exact Keeps.refl _)
    | (with_reducible apply State.modDie_keeps)
    | (with_reducible apply State.announce_keeps)
    | (with_reducible apply State.logDie_keeps)
    | (with_reducible apply State.modOp_keeps)
    | (with_reducible apply State.urgent_keeps)
    | (dsimp only)
    | (intro)
    | (with_reducible apply Keeps.ite)
    | split
    | (exact fun _ hx => ⟨hx.1, hx.2, hx.3, hx.4, hx.5, hx.6⟩)
    | (exact fun _ hx => ⟨hx.1, hx.2⟩)
    | (exact fun _ => Nat.le_refl _)
    | (exact fun _ ha hb => ⟨ha, hb⟩)
    | (with_reducible refine And.intro ?_ ?_)
    | (apply DieInv.same <;> first | assumption | rfl)

theorem execAvsWriteTimeout_keeps {s0 s : State} (h : Keeps s0 s) (d : DieId) : OKeeps s0 (execAvsWriteTimeout d s) := by
  unfold execAvsWriteTimeout
  repeat' first
    | (with_reducible assumption)
    | (with_reducible exact Keeps.refl _)
    | (with_reducible apply OKeeps.next)
    | (with_reducible apply State.advanceTo_keeps)
    | (with_reducible apply State.assertAlert_keeps)
    | (with_reducible apply State.modRails_keeps)
    | (dsimp only)
    | split

theorem State.wideInForce_keeps {s0 s : State} (h : Keeps s0 s) (d : DieId) : Keeps s0 (State.wideInForce s d) := by
  unfold State.wideInForce
  repeat' first
    | (with_reducible assumption)
    | (with_reducible exact Keeps.refl _)
    | (with_reducible apply State.modDie_keeps)
    | (with_reducible apply State.effectDone_keeps)
    | (with_reducible apply State.noStepCheck_keeps)
    | (with_reducible apply State.setRaise_keeps)
    | (dsimp only)
    | (intro)
    | (with_reducible apply Keeps.ite)
    | split
    | (exact fun _ hx => ⟨hx.1, hx.2, hx.3, hx.4, hx.5, hx.6⟩)
    | (exact fun _ hx => ⟨hx.1, hx.2⟩)
    | (exact fun _ => Nat.le_refl _)
    | (exact fun _ ha hb => ⟨ha, hb⟩)
    | (apply DieInv.same <;> first | assumption | rfl)

theorem execVoltageReady_keeps {s0 s : State} (h : Keeps s0 s) (d : DieId) : OKeeps s0 (execVoltageReady d s) := by
  unfold execVoltageReady
  repeat' first
    | (with_reducible assumption)
    | (with_reducible exact Keeps.refl _)
    | (with_reducible apply OKeeps.next)
    | (with_reducible apply State.modDie_keeps)
    | (with_reducible apply State.advanceTo_keeps)
    | (with_reducible apply State.modOp_keeps)
    | (with_reducible apply State.modRails_keeps)
    | (with_reducible apply State.wideInForce_keeps)
    | (dsimp only)
    | (intro)
    | (with_reducible apply OKeeps.ite)
    | (with_reducible apply Keeps.ite)
    | split
    | (exact fun _ hx => ⟨hx.1, hx.2, hx.3, hx.4, hx.5, hx.6⟩)
    | (exact fun _ hx => ⟨hx.1, hx.2⟩)
    | (exact fun _ => Nat.le_refl _)
    | (exact fun _ ha hb => ⟨ha, hb⟩)
    | (with_reducible refine And.intro ?_ ?_)
    | (apply DieInv.same <;> first | assumption | rfl)

theorem execConverterFail_keeps {s0 s : State} (h : Keeps s0 s) (n : Nat) : OKeeps s0 (execConverterFail n s) := by
  unfold execConverterFail
  repeat' first
    | (with_reducible assumption)
    | (with_reducible exact Keeps.refl _)
    | (with_reducible apply OKeeps.next)
    | (with_reducible apply State.forDies_keeps)
    | (with_reducible apply State.modTray_keeps)
    | (with_reducible apply State.assertAlert_keeps)
    | (with_reducible apply State.logTray_keeps)
    | (dsimp only)
    | (intro)
    | (with_reducible apply OKeeps.ite)
    | (with_reducible apply Keeps.ite)
    | split
    | (exact fun _ hx => ⟨hx.1, hx.2, hx.3, hx.4, hx.5, hx.6⟩)
    | (exact fun _ hx => ⟨hx.1, hx.2⟩)
    | (exact fun _ => Nat.le_refl _)
    | (exact fun _ ha hb => ⟨ha, hb⟩)
    | (exact Nat.le_refl _)

theorem execVcorePhaseFail_keeps {s0 s : State} (h : Keeps s0 s) (d : DieId) (n : Nat) : OKeeps s0 (execVcorePhaseFail d n s) := by
  unfold execVcorePhaseFail
  repeat' first
    | (with_reducible assumption)
    | (with_reducible exact Keeps.refl _)
    | (with_reducible apply OKeeps.next)
    | (with_reducible apply State.modDie_keeps)
    | (with_reducible apply State.assertAlert_keeps)
    | (with_reducible apply State.modRails_keeps)
    | (dsimp only)
    | (intro)
    | (with_reducible apply OKeeps.ite)
    | (with_reducible apply Keeps.ite)
    | split
    | (exact fun _ hx => ⟨hx.1, hx.2, hx.3, hx.4, hx.5, hx.6⟩)
    | (exact fun _ hx => ⟨hx.1, hx.2⟩)
    | (exact fun _ => Nat.le_refl _)
    | (exact fun _ ha hb => ⟨ha, hb⟩)
    | (apply DieInv.same <;> first | assumption | rfl)

theorem execRegAlertAssert_keeps {s0 s : State} (h : Keeps s0 s) (d : DieId) (cause : Nat) : OKeeps s0 (execRegAlertAssert d cause s) := by
  unfold execRegAlertAssert
  repeat' first
    | (with_reducible assumption)
    | (with_reducible exact Keeps.refl _)
    | (with_reducible apply OKeeps.next)
    | (with_reducible apply State.assertAlert_keeps)

theorem execForcedStateEnd_keeps {s0 s : State} (h : Keeps s0 s) (d : DieId) : OKeeps s0 (execForcedStateEnd d s) := by
  unfold execForcedStateEnd
  repeat' first
    | (with_reducible assumption)
    | (with_reducible exact Keeps.refl _)
    | (with_reducible apply OKeeps.next)
    | (with_reducible apply State.advanceTo_keeps)
    | (with_reducible apply State.applyStep_keeps)
    | (with_reducible apply State.modOp_keeps)
    | (with_reducible apply State.moveVcore_keeps)
    | (dsimp only)
    | (intro)
    | (with_reducible apply OKeeps.ite)
    | (with_reducible apply Keeps.ite)
    | split
    | (exact fun _ hx => ⟨hx.1, hx.2, hx.3, hx.4, hx.5, hx.6⟩)
    | (exact fun _ hx => ⟨hx.1, hx.2⟩)
    | (exact fun _ => Nat.le_refl _)
    | (exact fun _ ha hb => ⟨ha, hb⟩)
    | (with_reducible refine And.intro ?_ ?_)

theorem execAlertHalt_keeps {s0 s : State} (h : Keeps s0 s) (d : DieId) : OKeeps s0 (execAlertHalt d s) := by
  unfold execAlertHalt
  repeat' first
    | (with_reducible assumption)
    | (with_reducible exact Keeps.refl _)
    | (with_reducible apply OKeeps.next)
    | (with_reducible apply State.modDie_keeps)
    | (with_reducible apply State.advanceTo_keeps)
    | (dsimp only)
    | (intro)
    | (with_reducible apply OKeeps.ite)
    | (with_reducible apply Keeps.ite)
    | split
    | (exact fun _ hx => ⟨hx.1, hx.2, hx.3, hx.4, hx.5, hx.6⟩)
    | (exact fun _ hx => ⟨hx.1, hx.2⟩)
    | (exact fun _ => Nat.le_refl _)
    | (exact fun _ ha hb => ⟨ha, hb⟩)
    | (apply DieInv.same <;> first | assumption | rfl)

theorem execRegAlertDeassert_keeps {s0 s : State} (h : Keeps s0 s) (d : DieId) : OKeeps s0 (execRegAlertDeassert d s) := by
  unfold execRegAlertDeassert
  repeat' first
    | (with_reducible assumption)
    | (with_reducible exact Keeps.refl _)
    | (with_reducible apply OKeeps.next)
    | (with_reducible apply State.advanceTo_keeps)
    | (with_reducible apply State.modOp_keeps)
    | (dsimp only)
    | (intro)
    | (with_reducible apply OKeeps.ite)
    | (with_reducible apply Keeps.ite)
    | split
    | (exact fun _ hx => ⟨hx.1, hx.2, hx.3, hx.4, hx.5, hx.6⟩)
    | (exact fun _ hx => ⟨hx.1, hx.2⟩)
    | (exact fun _ => Nat.le_refl _)
    | (exact fun _ ha hb => ⟨ha, hb⟩)
    | (with_reducible refine And.intro ?_ ?_)

theorem execAlertAck_keeps {s0 s : State} (h : Keeps s0 s) (d : DieId) : OKeeps s0 (execAlertAck d s) := by
  unfold execAlertAck
  repeat' first
    | (with_reducible assumption)
    | (with_reducible exact Keeps.refl _)
    | (with_reducible apply OKeeps.next)
    | (with_reducible apply State.modOp_keeps)
    | (dsimp only)
    | (intro)
    | (with_reducible apply OKeeps.ite)
    | (with_reducible apply Keeps.ite)
    | split
    | (exact fun _ hx => ⟨hx.1, hx.2, hx.3, hx.4, hx.5, hx.6⟩)
    | (exact fun _ hx => ⟨hx.1, hx.2⟩)
    | (exact fun _ => Nat.le_refl _)
    | (exact fun _ ha hb => ⟨ha, hb⟩)
    | (with_reducible refine And.intro ?_ ?_)

theorem execAlertRelease_keeps {s0 s : State} (h : Keeps s0 s) (d : DieId) : OKeeps s0 (execAlertRelease d s) := by
  unfold execAlertRelease
  repeat' first
    | (with_reducible assumption)
    | (with_reducible exact Keeps.refl _)
    | (with_reducible apply OKeeps.next)
    | (with_reducible apply State.modDie_keeps)
    | (with_reducible apply State.advanceTo_keeps)
    | (with_reducible apply State.heat_keeps)
    | (with_reducible apply State.releaseEmergency_keeps)
    | (dsimp only)
    | (intro)
    | (with_reducible apply OKeeps.ite)
    | (with_reducible apply Keeps.ite)
    | split
    | (exact fun _ hx => ⟨hx.1, hx.2, hx.3, hx.4, hx.5, hx.6⟩)
    | (exact fun _ hx => ⟨hx.1, hx.2⟩)
    | (exact fun _ => Nat.le_refl _)
    | (exact fun _ ha hb => ⟨ha, hb⟩)
    | (apply DieInv.same <;> first | assumption | rfl)

theorem OpPoint.aged_trim (o : OpPoint) (trim ceil : Nat) (h : o.trim ≤ 160) (hf : ∀ v, o.trimFall = some v → v ≤ 160) :
    (o.aged trim ceil).trim ≤ 160 ∧ ∀ v, (o.aged trim ceil).trimFall = some v → v ≤ 160 := by
  unfold OpPoint.aged
  dsimp only
  constructor
  · split <;> omega
  · intro v hv
    split at hv
    · cases hv
    · split at hv
      · cases hv; omega
      · exact hf v hv

theorem execAgeingMeasurement_keeps {s0 s : State} (h : Keeps s0 s) (d : DieId) (trim : Nat) (ceil : Nat) : OKeeps s0 (execAgeingMeasurement d trim ceil s) := by
  unfold execAgeingMeasurement
  dsimp only
  split
  · exact OKeeps.next h
  · have k0 := State.modOp_keeps (State.modDie_keeps h d Die.spoil fun _ hx => ⟨hx.1, hx.2, hx.3, hx.4, hx.5, hx.6⟩) d
      (fun o => o.aged trim ceil) fun o => OpPoint.aged_trim o trim ceil
    have k1 := Keeps.ite (c := 160 < trim) (State.logDie_keeps k0 d 0x2103 [BitVec.ofNat 8 ceil]) k0
    have k2 := Keeps.ite (c := (s.die d).op.trim < trim)
      (State.retarget_keeps (State.noStepCheck_keeps k1 d (noStep d (s.die d).op.wide (s.die d).op.trim)) d) k1
    exact OKeeps.next (Keeps.ite k2 (State.ceilingCheck_keeps k2 d))

theorem execAgeingOverdue_keeps {s0 s : State} (h : Keeps s0 s) (d : DieId) : OKeeps s0 (execAgeingOverdue d s) := by
  unfold execAgeingOverdue
  dsimp only
  split
  · exact OKeeps.next h
  · apply OKeeps.next
    apply State.ceilingCheck_keeps
    apply State.retarget_keeps
    apply State.noStepCheck_keeps
    apply State.modOp_keeps h
    intro x a b
    exact ⟨Nat.min_le_left _ _, b⟩

theorem State.marginApply_keeps {s0 s : State} (h : Keeps s0 s) (d : DieId) (v : Nat) (keep : Bool := false) : GKeeps s0 (State.marginApply s d v keep) := by
  unfold State.marginApply
  repeat' first
    | (with_reducible assumption)
    | (with_reducible exact Keeps.refl _)
    | (with_reducible apply GKeeps.done)
    | (with_reducible apply GKeeps.refused)
    | (with_reducible apply State.cancelRaise_keeps)
    | (with_reducible apply State.modOp_keeps)
    | (with_reducible apply State.putSetting_keeps)
    | (with_reducible apply State.retarget_keeps)
    | (with_reducible apply State.setRaise_keeps)
    | (with_reducible apply State.wideInForce_keeps)
    | (dsimp only)
    | (intro)
    | (with_reducible apply GKeeps.ite)
    | (with_reducible apply Keeps.ite)
    | split
    | (exact fun _ hx => ⟨hx.1, hx.2, hx.3, hx.4, hx.5, hx.6⟩)
    | (exact fun _ hx => ⟨hx.1, hx.2⟩)
    | (exact fun _ => Nat.le_refl _)
    | (exact fun _ ha hb => ⟨ha, hb⟩)
    | (with_reducible refine And.intro ?_ ?_)

theorem execMarginModeWrite_keeps {s0 s : State} (h : Keeps s0 s) (m : MasterId) (d : DieId) (v : Nat) : OKeeps s0 (execMarginModeWrite m d v s) := by
  unfold execMarginModeWrite
  repeat' first
    | (with_reducible assumption)
    | (with_reducible exact Keeps.refl _)
    | (with_reducible apply OKeeps.next)
    | (with_reducible apply State.gate_keeps)
    | (with_reducible apply State.marginApply_keeps)
    | (with_reducible apply GKeeps.done)
    | (with_reducible apply GKeeps.refused)
    | (exact fun _ hx => ⟨hx.1, hx.2, hx.3, hx.4, hx.5, hx.6⟩)
    | (exact fun _ hx => ⟨hx.1, hx.2⟩)
    | (exact fun _ => Nat.le_refl _)
    | (exact fun _ ha hb => ⟨ha, hb⟩)
    | (exact Nat.le_refl _)
    | (intro)

theorem State.vsramSet_keeps {s0 s : State} (h : Keeps s0 s) (d : DieId) (v : Nat) : Keeps s0 (State.vsramSet s d v) := by
  unfold State.vsramSet
  repeat' first
    | (with_reducible assumption)
    | (with_reducible exact Keeps.refl _)
    | (with_reducible apply State.modRails_keeps)

theorem execVsramVoltageWrite_keeps {s0 s : State} (h : Keeps s0 s) (m : MasterId) (d : DieId) (v : Nat) : OKeeps s0 (execVsramVoltageWrite m d v s) := by
  unfold execVsramVoltageWrite
  repeat' first
    | (with_reducible assumption)
    | (with_reducible exact Keeps.refl _)
    | (with_reducible apply OKeeps.next)
    | (with_reducible apply State.gate_keeps)
    | (with_reducible apply State.limitWrite_keeps)
    | (with_reducible apply State.vsramSet_keeps)
    | (with_reducible apply GKeeps.done)
    | (with_reducible apply GKeeps.refused)
    | (exact fun _ hx => ⟨hx.1, hx.2, hx.3, hx.4, hx.5, hx.6⟩)
    | (exact fun _ hx => ⟨hx.1, hx.2⟩)
    | (exact fun _ => Nat.le_refl _)
    | (exact fun _ ha hb => ⟨ha, hb⟩)
    | (exact fun _ hu => hu)
    | (exact Nat.le_refl _)
    | (intro)

end Sys2Proof.Machine
end

