-- ==== Sys2Proof/Laws/KeepsPowerOps.lean ====
section
/-! SUPPORT. The operations of Machine/PowerOps.lean keep what `Keeps` says. -/

namespace Sys2Proof.Machine
open Sys2Proof

theorem Die.withBudgets_inv {x : Die} (hx : DieInv x) (d : DieId) (roh b c : Nat) (pg : Int) : DieInv (x.withBudgets d roh b c pg) :=
  ⟨hx.1, hx.2, hx.3, hx.4, hx.5, hx.6⟩

theorem State.setBudgets_keeps {s0 s : State} (h : Keeps s0 s) (d : DieId) : Keeps s0 (State.setBudgets s d) := by
  exact State.modDie_keeps h _ _ fun _ hx => Die.withBudgets_inv hx _ _ _ _ _

theorem Die.scaled_inv {x : Die} (hx : DieInv x) (roh b rem : Nat) (pg : Int) : DieInv ((x.scaled roh b pg).limitRates rem) :=
  ⟨hx.1, hx.2, hx.3, hx.4, hx.5, hx.6⟩

theorem State.scaleBudgets_keeps {s0 s : State} (h : Keeps s0 s) (d : DieId) : Keeps s0 (State.scaleBudgets s d) := by
  exact State.modDie_keeps h _ _ fun _ hx => Die.scaled_inv hx _ _ _ _

theorem State.cutShares_keeps {s0 s : State} (h : Keeps s0 s)  : Keeps s0 (State.cutShares s) := by
  unfold State.cutShares
  repeat' first
    | (with_reducible assumption)
    | (with_reducible exact Keeps.refl _)
    | (with_reducible apply State.forDies_keeps)
    | (with_reducible apply State.modDie_keeps)
    | (with_reducible apply State.scaleBudgets_keeps)
    | (dsimp only)
    | (exact fun _ hx => ⟨hx.1, hx.2, hx.3, hx.4, hx.5, hx.6⟩)
    | (exact fun _ hx => ⟨hx.1, hx.2⟩)
    | (exact fun _ => Nat.le_refl _)
    | (exact fun _ ha hb => ⟨ha, hb⟩)
    | (exact Nat.le_refl _)
    | (intro)

theorem State.propose_keeps {s0 s : State} (h : Keeps s0 s) (d : DieId) (code : Nat) (urgent : Bool) (revised : Bool) : Keeps s0 (State.propose s d code urgent revised) := by
  unfold State.propose
  repeat' first
    | (with_reducible assumption)
    | (with_reducible exact Keeps.refl _)
    | (with_reducible apply State.modDie_keeps)
    | (with_reducible apply State.sendUp_keeps)
    | (dsimp only)
    | (intro)
    | (with_reducible apply Keeps.ite)
    | split
    | (exact fun _ hx => ⟨hx.1, hx.2, hx.3, hx.4, hx.5, hx.6⟩)
    | (exact fun _ hx => ⟨hx.1, hx.2⟩)
    | (exact fun _ => Nat.le_refl _)
    | (exact fun _ ha hb => ⟨ha, hb⟩)
    | (apply DieInv.same <;> first | assumption | rfl)

theorem State.askLend_keeps {s0 s : State} (h : Keeps s0 s) (d : DieId) : Keeps s0 (State.askLend s d) := by
  unfold State.askLend
  repeat' first
    | (with_reducible assumption)
    | (with_reducible exact Keeps.refl _)
    | (with_reducible apply State.modMer_keeps)
    | (with_reducible apply State.sendRecord_keeps)
    | (dsimp only)
    | (intro)
    | (with_reducible apply Keeps.ite)
    | split

end Sys2Proof.Machine
end

