-- ==== Sys2Proof/Laws/KeepsContacts.lean ====
section
/-! SUPPORT. The operations of Machine/Contacts.lean keep what `Keeps` says. -/

namespace Sys2Proof.Machine
open Sys2Proof

theorem execTrayEnAssert_keeps {s0 s : State} (h : Keeps s0 s) (pins : Nat) (busMv : Nat) : OKeeps s0 (execTrayEnAssert pins busMv s) := by
  unfold execTrayEnAssert
  repeat' first
    | (with_reducible assumption)
    | (with_reducible exact Keeps.refl _)
    | (with_reducible apply OKeeps.next)
    | (with_reducible apply State.modTray_keeps)
    | (with_reducible apply State.coldReset_keeps)
    | (dsimp only)
    | (intro)
    | (with_reducible apply OKeeps.ite)
    | (with_reducible apply Keeps.ite)
    | split
    | (exact fun _ hx => ⟨hx.1, hx.2, hx.3, hx.4, hx.5, hx.6⟩)
    | (exact fun _ hx => ⟨hx.1, hx.2⟩)
    | (exact fun _ => Nat.le_refl _)
    | (exact fun _ ha hb => ⟨ha, hb⟩)
    | (exact Nat.le_refl _)

theorem execSlotIdChange_keeps {s0 s : State} (h : Keeps s0 s) (pins : Nat) : OKeeps s0 (execSlotIdChange pins s) := by
  unfold execSlotIdChange
  repeat' first
    | (with_reducible assumption)
    | (with_reducible exact Keeps.refl _)
    | (with_reducible apply OKeeps.next)
    | (with_reducible apply State.modTray_keeps)
    | (with_reducible apply State.logTray_keeps)
    | (dsimp only)
    | (intro)
    | (with_reducible apply OKeeps.ite)
    | (with_reducible apply Keeps.ite)
    | split
    | (exact fun _ hx => ⟨hx.1, hx.2, hx.3, hx.4, hx.5, hx.6⟩)
    | (exact fun _ hx => ⟨hx.1, hx.2⟩)
    | (exact fun _ => Nat.le_refl _)
    | (exact fun _ ha hb => ⟨ha, hb⟩)
    | (exact Nat.le_refl _)

theorem State.startHoldup_keeps {s0 s : State} (h : Keeps s0 s)  : Keeps s0 (State.startHoldup s) := by
  unfold State.startHoldup
  repeat' first
    | (with_reducible assumption)
    | (with_reducible exact Keeps.refl _)
    | (with_reducible apply State.forDies_keeps)
    | (with_reducible apply State.modTray_keeps)
    | (with_reducible apply State.noticeSupply_keeps)
    | (with_reducible apply State.requestFrost_keeps)
    | (dsimp only)
    | (exact fun _ hx => ⟨hx.1, hx.2, hx.3, hx.4, hx.5, hx.6⟩)
    | (exact fun _ hx => ⟨hx.1, hx.2⟩)
    | (exact fun _ => Nat.le_refl _)
    | (exact fun _ ha hb => ⟨ha, hb⟩)
    | (exact Nat.le_refl _)
    | (intro)

theorem execBusLoss_keeps {s0 s : State} (h : Keeps s0 s) (cause : BusLossCause) : OKeeps s0 (execBusLoss cause s) := by
  unfold execBusLoss
  repeat' first
    | (with_reducible assumption)
    | (with_reducible exact Keeps.refl _)
    | (with_reducible apply OKeeps.next)
    | (with_reducible apply State.modTray_keeps)
    | (with_reducible apply State.logTray_keeps)
    | (with_reducible apply State.startHoldup_keeps)
    | (with_reducible apply State.trayOff_keeps)
    | (dsimp only)
    | (intro)
    | (with_reducible apply OKeeps.ite)
    | (with_reducible apply Keeps.ite)
    | split
    | (exact fun _ hx => ⟨hx.1, hx.2, hx.3, hx.4, hx.5, hx.6⟩)
    | (exact fun _ hx => ⟨hx.1, hx.2⟩)
    | (exact fun _ => Nat.le_refl _)
    | (exact fun _ ha hb => ⟨ha, hb⟩)
    | (exact Nat.le_refl _)

theorem execBusBack_keeps {s0 s : State} (h : Keeps s0 s) (busMv : Nat) : OKeeps s0 (execBusBack busMv s) := by
  unfold execBusBack
  repeat' first
    | (with_reducible assumption)
    | (with_reducible exact Keeps.refl _)
    | (with_reducible apply OKeeps.next)
    | (with_reducible apply State.forDies_keeps)
    | (with_reducible apply State.modTray_keeps)
    | (with_reducible apply State.abandonSave_keeps)
    | (with_reducible apply State.advanceTo_keeps)
    | (with_reducible apply State.coldReset_keeps)
    | (with_reducible apply State.logTray_keeps)
    | (with_reducible apply State.noticeSupply_keeps)
    | (with_reducible apply State.thawTrigger_keeps)
    | (dsimp only)
    | (intro)
    | (with_reducible apply OKeeps.ite)
    | (with_reducible apply Keeps.ite)
    | split
    | (exact fun _ hx => ⟨hx.1, hx.2, hx.3, hx.4, hx.5, hx.6⟩)
    | (exact fun _ hx => ⟨hx.1, hx.2⟩)
    | (exact fun _ => Nat.le_refl _)
    | (exact fun _ ha hb => ⟨ha, hb⟩)
    | (exact Nat.le_refl _)

theorem execTrayEnDeassert_keeps {s0 s : State} (h : Keeps s0 s)  : OKeeps s0 (execTrayEnDeassert s) := by
  unfold execTrayEnDeassert
  split
  · exact OKeeps.next h
  · exact OKeeps.next (State.modTray_keeps (State.trayOff_keeps (State.abandonSave_keeps h)) _ fun _ => Nat.le_refl _)

theorem State.updateCap_keeps {s0 s : State} (h : Keeps s0 s)  : Keeps s0 (State.updateCap s) := by
  unfold State.updateCap
  repeat' first
    | (with_reducible assumption)
    | (with_reducible exact Keeps.refl _)
    | (with_reducible apply State.modTray_keeps)
    | (dsimp only)
    | (intro)
    | (with_reducible apply Keeps.ite)
    | split
    | (exact fun _ hx => ⟨hx.1, hx.2, hx.3, hx.4, hx.5, hx.6⟩)
    | (exact fun _ hx => ⟨hx.1, hx.2⟩)
    | (exact fun _ => Nat.le_refl _)
    | (exact fun _ ha hb => ⟨ha, hb⟩)
    | (exact Nat.le_refl _)

theorem State.recap_keeps {s0 s : State} (h : Keeps s0 s)  : Keeps s0 (State.recap s) := by
  unfold State.recap
  repeat' first
    | (with_reducible assumption)
    | (with_reducible exact Keeps.refl _)
    | (with_reducible apply State.cutShares_keeps)
    | (with_reducible apply State.updateCap_keeps)
    | (dsimp only)
    | (intro)
    | (with_reducible apply Keeps.ite)

theorem execEffectiveTrayCapUpdate_keeps {s0 s : State} (h : Keeps s0 s) (busMv : Nat) (inlet : Int) : OKeeps s0 (execEffectiveTrayCapUpdate busMv inlet s) := by
  unfold execEffectiveTrayCapUpdate
  repeat' first
    | (with_reducible assumption)
    | (with_reducible exact Keeps.refl _)
    | (with_reducible apply OKeeps.next)
    | (with_reducible apply State.modTray_keeps)
    | (with_reducible apply State.recap_keeps)
    | (exact fun _ hx => ⟨hx.1, hx.2, hx.3, hx.4, hx.5, hx.6⟩)
    | (exact fun _ hx => ⟨hx.1, hx.2⟩)
    | (exact fun _ => Nat.le_refl _)

end Sys2Proof.Machine
end

