-- ==== Sys2Proof/Laws/KeepsCaps.lean ====
section
/-! SUPPORT. The operations of Machine/Caps.lean keep what `Keeps` says. -/

namespace Sys2Proof.Machine
open Sys2Proof

theorem execSegmentLookahead_keeps {s0 s : State} (h : Keeps s0 s) (d : DieId) (t : Nat) (hh : Nat) (seg : Nat) : OKeeps s0 (execSegmentLookahead d t hh seg s) := by
  unfold execSegmentLookahead
  repeat' first
    | (with_reducible assumption)
    | (with_reducible exact Keeps.refl _)
    | (with_reducible apply OKeeps.next)
    | (with_reducible apply State.modDie_keeps)
    | (with_reducible apply State.retarget_keeps)
    | (dsimp only)
    | (intro)
    | (with_reducible apply OKeeps.ite)
    | (with_reducible apply Keeps.ite)
    | split
    | (exact fun _ hx => ⟨hx.1, hx.2, hx.3, hx.4, hx.5, hx.6⟩)
    | (exact fun _ hx => ⟨hx.1, hx.2⟩)
    | (exact fun _ => Nat.le_refl _)
    | (exact fun _ ha hb => ⟨ha, hb⟩)
    | (apply DieInv.same <;> first | assumption | rfl)

theorem Power.useEntry_length (p : Power) (e : PhaseEntry) : (p.useEntry e).phases.length ≤ 4096 := by
  unfold Power.useEntry
  simp only [List.length_take]
  exact Nat.min_le_left _ _

theorem execSegmentEnd_keeps {s0 s : State} (h : Keeps s0 s) (d : DieId) (t : Nat) (hh : Nat) (seg : Nat) (watts : List Nat) : OKeeps s0 (execSegmentEnd d t hh seg watts s) := by
  unfold execSegmentEnd
  dsimp only
  split
  · exact OKeeps.next h
  · split
    · exact OKeeps.next h
    · apply OKeeps.next
      apply State.leadFall_keeps
      apply State.modRun_keeps
      apply State.modDie_keeps h
      intro x hx
      exact ⟨hx.1, hx.2, hx.3, Power.useEntry_length _ _, hx.5, hx.6⟩

theorem execDemandCurveSend_keeps {s0 s : State} (h : Keeps s0 s) (d : DieId) : OKeeps s0 (execDemandCurveSend d s) := by
  unfold execDemandCurveSend
  repeat' first
    | (with_reducible assumption)
    | (with_reducible exact Keeps.refl _)
    | (with_reducible apply OKeeps.next)
    | (with_reducible apply State.modDie_keeps)
    | (with_reducible apply State.advanceIn_keeps)
    | (dsimp only)
    | (exact fun _ hx => ⟨hx.1, hx.2, hx.3, hx.4, hx.5, hx.6⟩)

theorem execSharesSend_keeps {s0 s : State} (h : Keeps s0 s) (loads : Nat) (bus : Nat) : OKeeps s0 (execSharesSend loads bus s) := by
  unfold execSharesSend
  repeat' first
    | (with_reducible assumption)
    | (with_reducible exact Keeps.refl _)
    | (with_reducible apply OKeeps.next)
    | (with_reducible apply State.forDies_keeps)
    | (with_reducible apply State.modDie_keeps)
    | (with_reducible apply State.modTray_keeps)
    | (with_reducible apply State.advanceIn_keeps)
    | (dsimp only)
    | (intro)
    | (with_reducible apply OKeeps.ite)
    | (with_reducible apply Keeps.ite)
    | split
    | (exact fun _ hx => ⟨hx.1, hx.2, hx.3, hx.4, hx.5, hx.6⟩)
    | (exact fun _ hx => ⟨hx.1, hx.2⟩)
    | (exact fun _ => Nat.le_refl _)
    | (exact fun _ ha hb => ⟨ha, hb⟩)
    | (apply DieInv.same <;> first | assumption | rfl)
    | (exact Nat.le_refl _)

theorem execSharesLate_keeps {s0 s : State} (h : Keeps s0 s)  : OKeeps s0 (execSharesLate s) := by
  unfold execSharesLate
  repeat' first
    | (with_reducible assumption)
    | (with_reducible exact Keeps.refl _)
    | (with_reducible apply OKeeps.next)
    | (with_reducible apply State.allDies_keeps)
    | (with_reducible apply State.modTray_keeps)
    | (with_reducible apply State.advanceIn_keeps)
    | (dsimp only)
    | (intro)
    | (with_reducible apply OKeeps.ite)
    | (with_reducible apply Keeps.ite)
    | split
    | (exact fun _ hx => ⟨hx.1, hx.2, hx.3, hx.4, hx.5, hx.6⟩)
    | (exact fun _ hx => ⟨hx.1, hx.2⟩)
    | (exact fun _ => Nat.le_refl _)
    | (exact fun _ ha hb => ⟨ha, hb⟩)
    | (apply DieInv.same <;> first | assumption | rfl)
    | (exact Nat.le_refl _)

theorem State.floatCheck_keeps {s0 s : State} (h : Keeps s0 s) (d : DieId) : Keeps s0 (State.floatCheck s d) := by
  unfold State.floatCheck
  repeat' first
    | (with_reducible assumption)
    | (with_reducible exact Keeps.refl _)
    | (with_reducible apply State.modDie_keeps)
    | (with_reducible apply State.logDie_keeps)
    | (with_reducible apply State.propose_keeps)
    | (dsimp only)
    | (intro)
    | (with_reducible apply Keeps.ite)
    | split
    | (exact fun _ hx => ⟨hx.1, hx.2, hx.3, hx.4, hx.5, hx.6⟩)
    | (exact fun _ hx => ⟨hx.1, hx.2⟩)
    | (exact fun _ => Nat.le_refl _)
    | (exact fun _ ha hb => ⟨ha, hb⟩)
    | (apply DieInv.same <;> first | assumption | rfl)

theorem execRateControlTick_keeps {s0 s : State} (h : Keeps s0 s) (d : DieId) (est : List RateSample) : OKeeps s0 (execRateControlTick d est s) := by
  unfold execRateControlTick
  repeat' first
    | (with_reducible assumption)
    | (with_reducible exact Keeps.refl _)
    | (with_reducible apply OKeeps.next)
    | (with_reducible apply State.modDie_keeps)
    | (with_reducible apply State.askLend_keeps)
    | (with_reducible apply State.floatCheck_keeps)
    | (with_reducible apply Keeps.foldl)
    | (dsimp only)
    | split
    | (exact fun _ hx => ⟨hx.1, hx.2, hx.3, hx.4, hx.5, hx.6⟩)

theorem execProposalSend_keeps {s0 s : State} (h : Keeps s0 s) (d : DieId) : OKeeps s0 (execProposalSend d s) := by
  unfold execProposalSend
  repeat' first
    | (with_reducible assumption)
    | (with_reducible exact Keeps.refl _)
    | (with_reducible apply OKeeps.next)
    | (with_reducible apply State.modDie_keeps)
    | (with_reducible apply State.advanceIn_keeps)
    | (with_reducible apply State.propose_keeps)
    | (dsimp only)
    | (intro)
    | (with_reducible apply OKeeps.ite)
    | (with_reducible apply Keeps.ite)
    | split
    | (exact fun _ hx => ⟨hx.1, hx.2, hx.3, hx.4, hx.5, hx.6⟩)
    | (exact fun _ hx => ⟨hx.1, hx.2⟩)
    | (exact fun _ => Nat.le_refl _)
    | (exact fun _ ha hb => ⟨ha, hb⟩)
    | (apply DieInv.same <;> first | assumption | rfl)

theorem State.dieCapApply_keeps {s0 s : State} (h : Keeps s0 s) (d : DieId) (v : Nat) : GKeeps s0 (State.dieCapApply s d v) := by
  unfold State.dieCapApply
  repeat' first
    | (with_reducible assumption)
    | (with_reducible exact Keeps.refl _)
    | (with_reducible apply GKeeps.done)
    | (with_reducible apply GKeeps.refused)
    | (with_reducible apply State.limitWrite_keeps)
    | (with_reducible apply State.scaleBudgets_keeps)
    | (intro)
    | (with_reducible apply GKeeps.ite)

theorem execDieCapWrite_keeps {s0 s : State} (h : Keeps s0 s) (m : MasterId) (d : DieId) (v : Nat) : OKeeps s0 (execDieCapWrite m d v s) := by
  unfold execDieCapWrite
  repeat' first
    | (with_reducible assumption)
    | (with_reducible exact Keeps.refl _)
    | (with_reducible apply OKeeps.next)
    | (with_reducible apply State.dieCapApply_keeps)
    | (with_reducible apply State.gate_keeps)
    | (with_reducible apply GKeeps.done)
    | (with_reducible apply GKeeps.refused)
    | (exact fun _ hx => ⟨hx.1, hx.2, hx.3, hx.4, hx.5, hx.6⟩)
    | (exact fun _ hx => ⟨hx.1, hx.2⟩)
    | (exact fun _ => Nat.le_refl _)
    | (exact fun _ ha hb => ⟨ha, hb⟩)
    | (exact Nat.le_refl _)
    | (intro)

theorem State.trayCapApply_keeps {s0 s : State} (h : Keeps s0 s) (v : Nat) : GKeeps s0 (State.trayCapApply s v) := by
  unfold State.trayCapApply
  split
  · exact GKeeps.refused h _ _
  · exact State.limitWrite_keeps h _ _ _ fun u hu => State.cutShares_keeps (State.updateCap_keeps hu)

theorem execTrayCapWrite_keeps {s0 s : State} (h : Keeps s0 s) (m : MasterId) (v : Nat) : OKeeps s0 (execTrayCapWrite m v s) := by
  unfold execTrayCapWrite
  repeat' first
    | (with_reducible assumption)
    | (with_reducible exact Keeps.refl _)
    | (with_reducible apply OKeeps.next)
    | (with_reducible apply State.gate_keeps)
    | (with_reducible apply State.trayCapApply_keeps)
    | (with_reducible apply GKeeps.done)
    | (with_reducible apply GKeeps.refused)
    | (exact fun _ hx => ⟨hx.1, hx.2, hx.3, hx.4, hx.5, hx.6⟩)
    | (exact fun _ hx => ⟨hx.1, hx.2⟩)
    | (exact fun _ => Nat.le_refl _)
    | (exact fun _ ha hb => ⟨ha, hb⟩)
    | (exact Nat.le_refl _)
    | (intro)

theorem State.boundaryWrite_keeps {s0 s : State} (h : Keeps s0 s) (k : ObjKey) (v : Nat) : GKeeps s0 (State.boundaryWrite s k v) := by
  unfold State.boundaryWrite
  repeat' first
    | (with_reducible assumption)
    | (with_reducible exact Keeps.refl _)
    | (with_reducible apply GKeeps.done)
    | (with_reducible apply GKeeps.refused)
    | (with_reducible apply State.cancelRaise_keeps)
    | (with_reducible apply State.setRaise_keeps)
    | (dsimp only)
    | (intro)
    | (with_reducible apply GKeeps.ite)

theorem execGlacierWindowWrite_keeps {s0 s : State} (h : Keeps s0 s) (m : MasterId) (d : DieId) (v : Nat) : OKeeps s0 (execGlacierWindowWrite m d v s) := by
  unfold execGlacierWindowWrite
  repeat' first
    | (with_reducible assumption)
    | (with_reducible exact Keeps.refl _)
    | (with_reducible apply OKeeps.next)
    | (with_reducible apply State.boundaryWrite_keeps)
    | (with_reducible apply State.gate_keeps)
    | (with_reducible apply GKeeps.done)
    | (with_reducible apply GKeeps.refused)
    | (exact fun _ hx => ⟨hx.1, hx.2, hx.3, hx.4, hx.5, hx.6⟩)
    | (exact fun _ hx => ⟨hx.1, hx.2⟩)
    | (exact fun _ => Nat.le_refl _)
    | (exact fun _ ha hb => ⟨ha, hb⟩)
    | (exact Nat.le_refl _)
    | (intro)

theorem State.divisionApply_keeps {s0 s : State} (h : Keeps s0 s) (d : DieId) (v : Nat) : GKeeps s0 (State.divisionApply s d v) := by
  unfold State.divisionApply
  repeat' first
    | (with_reducible assumption)
    | (with_reducible exact Keeps.refl _)
    | (with_reducible apply GKeeps.done)
    | (with_reducible apply GKeeps.refused)
    | (with_reducible apply State.modDie_keeps)
    | (with_reducible apply State.putSetting_keeps)
    | (dsimp only)
    | (intro)
    | (with_reducible apply GKeeps.ite)
    | (with_reducible apply Keeps.ite)
    | split
    | (exact fun _ hx => ⟨hx.1, hx.2, hx.3, hx.4, hx.5, hx.6⟩)
    | (exact fun _ hx => ⟨hx.1, hx.2⟩)
    | (exact fun _ => Nat.le_refl _)
    | (exact fun _ ha hb => ⟨ha, hb⟩)
    | (apply DieInv.same <;> first | assumption | rfl)

theorem execDivisionModeWrite_keeps {s0 s : State} (h : Keeps s0 s) (m : MasterId) (d : DieId) (v : Nat) : OKeeps s0 (execDivisionModeWrite m d v s) := by
  unfold execDivisionModeWrite
  repeat' first
    | (with_reducible assumption)
    | (with_reducible exact Keeps.refl _)
    | (with_reducible apply OKeeps.next)
    | (with_reducible apply State.divisionApply_keeps)
    | (with_reducible apply State.gate_keeps)
    | (with_reducible apply GKeeps.done)
    | (with_reducible apply GKeeps.refused)
    | (exact fun _ hx => ⟨hx.1, hx.2, hx.3, hx.4, hx.5, hx.6⟩)
    | (exact fun _ hx => ⟨hx.1, hx.2⟩)
    | (exact fun _ => Nat.le_refl _)
    | (exact fun _ ha hb => ⟨ha, hb⟩)
    | (exact Nat.le_refl _)
    | (intro)

theorem State.sealedTableApply_keeps {s0 s : State} (h : Keeps s0 s) (d : DieId) (v : List Byte) : GKeeps s0 (State.sealedTableApply s d v) := by
  unfold State.sealedTableApply
  repeat' first
    | (with_reducible assumption)
    | (with_reducible exact Keeps.refl _)
    | (with_reducible apply GKeeps.done)
    | (with_reducible apply GKeeps.refused)
    | (with_reducible apply State.modDie_keeps)
    | (with_reducible apply State.putSetting_keeps)
    | (dsimp only)
    | (intro)
    | (with_reducible apply GKeeps.ite)
    | (with_reducible apply Keeps.ite)
    | split
    | (exact fun _ hx => ⟨hx.1, hx.2, hx.3, hx.4, hx.5, hx.6⟩)
    | (exact fun _ hx => ⟨hx.1, hx.2⟩)
    | (exact fun _ => Nat.le_refl _)
    | (exact fun _ ha hb => ⟨ha, hb⟩)
    | (apply DieInv.same <;> first | assumption | rfl)

theorem execSealedTableWrite_keeps {s0 s : State} (h : Keeps s0 s) (m : MasterId) (d : DieId) (v : List Byte) : OKeeps s0 (execSealedTableWrite m d v s) := by
  unfold execSealedTableWrite
  exact OKeeps.next (State.gate_keeps h _ _ _ _ fun u m w hu => State.sealedTableApply_keeps hu _ _)

end Sys2Proof.Machine
end

