-- ==== Sys2Proof/Laws/KeepsHeatEvents.lean ====
section
/-! SUPPORT. The operations of Machine/HeatEvents.lean keep what `Keeps` says. -/

namespace Sys2Proof.Machine
open Sys2Proof

theorem State.modHeat_keeps {s0 s : State} (h : Keeps s0 s) (d : DieId) (f : Heat → Heat) : Keeps s0 (State.modHeat s d f) := by
  unfold State.modHeat
  repeat' first
    | (with_reducible assumption)
    | (with_reducible exact Keeps.refl _)
    | (with_reducible apply State.modDie_keeps)
    | (with_reducible apply State.heat_keeps)
    | (exact fun _ hx => ⟨hx.1, hx.2, hx.3, hx.4, hx.5, hx.6⟩)

theorem State.trip_keeps {s0 s : State} (h : Keeps s0 s) (d : DieId) : Keeps s0 (State.trip s d) := by
  unfold State.trip
  repeat' first
    | (with_reducible assumption)
    | (with_reducible exact Keeps.refl _)
    | (with_reducible apply State.modDie_keeps)
    | (with_reducible apply State.heat_keeps)
    | (with_reducible apply State.leaveFor_keeps)
    | (with_reducible apply State.railsOff_keeps)
    | (dsimp only)
    | (intro)
    | (with_reducible apply Keeps.ite)
    | split
    | (exact fun _ hx => ⟨hx.1, hx.2, hx.3, hx.4, hx.5, hx.6⟩)
    | (exact fun _ hx => ⟨hx.1, hx.2⟩)
    | (exact fun _ => Nat.le_refl _)
    | (exact fun _ ha hb => ⟨ha, hb⟩)
    | (apply DieInv.same <;> first | assumption | rfl)

theorem State.setRate_keeps {s0 s : State} (h : Keeps s0 s) (d : DieId) (goal : Nat) : Keeps s0 (State.setRate s d goal) := by
  unfold State.setRate
  repeat' first
    | (with_reducible assumption)
    | (with_reducible exact Keeps.refl _)
    | (with_reducible apply State.modDie_keeps)
    | (with_reducible apply State.heat_keeps)
    | (with_reducible apply State.modHeat_keeps)
    | (dsimp only)
    | (intro)
    | (with_reducible apply Keeps.ite)
    | split
    | (exact fun _ hx => ⟨hx.1, hx.2, hx.3, hx.4, hx.5, hx.6⟩)
    | (exact fun _ hx => ⟨hx.1, hx.2⟩)
    | (exact fun _ => Nat.le_refl _)
    | (exact fun _ ha hb => ⟨ha, hb⟩)
    | (apply DieInv.same <;> first | assumption | rfl)

theorem State.fullCheck_keeps {s0 s : State} (h : Keeps s0 s) (d : DieId) (ts : Nat) (T : Int) : Keeps s0 (State.fullCheck s d ts T) := by
  unfold State.fullCheck
  repeat' first
    | (with_reducible assumption)
    | (with_reducible exact Keeps.refl _)
    | (with_reducible apply State.heat_keeps)
    | (with_reducible apply State.heatEvent_keeps)
    | (with_reducible apply State.modHeat_keeps)
    | (with_reducible apply State.releaseEmergency_keeps)
    | (with_reducible apply State.urgent_keeps)
    | (dsimp only)
    | (intro)
    | (with_reducible apply Keeps.ite)
    | split

theorem State.surge_keeps {s0 s : State} (h : Keeps s0 s) (d : DieId) : Keeps s0 (State.surge s d) := by
  unfold State.surge
  repeat' first
    | (with_reducible assumption)
    | (with_reducible exact Keeps.refl _)
    | (with_reducible apply State.heat_keeps)
    | (with_reducible apply State.modHeat_keeps)
    | (with_reducible apply State.urgent_keeps)
    | (dsimp only)
    | (intro)
    | (with_reducible apply Keeps.ite)

theorem execThermalSample_keeps {s0 s : State} (h : Keeps s0 s) (d : DieId) (n : Nat) (t : Int) : OKeeps s0 (execThermalSample d n t s) := by
  unfold execThermalSample
  repeat' first
    | (with_reducible assumption)
    | (with_reducible exact Keeps.refl _)
    | (with_reducible apply OKeeps.next)
    | (with_reducible apply State.failTile_keeps)
    | (with_reducible apply State.fullCheck_keeps)
    | (with_reducible apply State.heat_keeps)
    | (with_reducible apply State.logDie_keeps)
    | (with_reducible apply State.modHeat_keeps)
    | (with_reducible apply State.setRate_keeps)
    | (with_reducible apply State.surge_keeps)
    | (with_reducible apply State.trip_keeps)
    | (dsimp only)
    | (intro)
    | (with_reducible apply OKeeps.ite)
    | (with_reducible apply Keeps.ite)
    | split

theorem execThermalRateRise_keeps {s0 s : State} (h : Keeps s0 s) (d : DieId) : OKeeps s0 (execThermalRateRise d s) := by
  unfold execThermalRateRise
  repeat' first
    | (with_reducible assumption)
    | (with_reducible exact Keeps.refl _)
    | (with_reducible apply OKeeps.next)
    | (with_reducible apply State.advanceTo_keeps)
    | (with_reducible apply State.heat_keeps)
    | (with_reducible apply State.modHeat_keeps)
    | (dsimp only)
    | (intro)
    | (with_reducible apply OKeeps.ite)
    | (with_reducible apply Keeps.ite)

theorem execGroupMaxPublish_keeps {s0 s : State} (h : Keeps s0 s) (d : DieId) : OKeeps s0 (execGroupMaxPublish d s) := by
  unfold execGroupMaxPublish
  repeat' first
    | (with_reducible assumption)
    | (with_reducible exact Keeps.refl _)
    | (with_reducible apply OKeeps.next)
    | (with_reducible apply State.heat_keeps)
    | (with_reducible apply State.modHeat_keeps)

theorem execHeatSurgeEnd_keeps {s0 s : State} (h : Keeps s0 s) (d : DieId) : OKeeps s0 (execHeatSurgeEnd d s) := by
  unfold execHeatSurgeEnd
  repeat' first
    | (with_reducible assumption)
    | (with_reducible exact Keeps.refl _)
    | (with_reducible apply OKeeps.next)
    | (with_reducible apply State.advanceTo_keeps)
    | (with_reducible apply State.heat_keeps)
    | (with_reducible apply State.modHeat_keeps)
    | (with_reducible apply State.releaseEmergency_keeps)
    | (dsimp only)
    | (intro)
    | (with_reducible apply OKeeps.ite)

theorem State.assertFlow_keeps {s0 s : State} (h : Keeps s0 s) (d : DieId) (kind : FlowLoss) : Keeps s0 (State.assertFlow s d kind) := by
  unfold State.assertFlow
  repeat' first
    | (with_reducible assumption)
    | (with_reducible exact Keeps.refl _)
    | (with_reducible apply State.modDie_keeps)
    | (with_reducible apply State.dropFlows_keeps)
    | (with_reducible apply State.endRuns_keeps)
    | (with_reducible apply State.heat_keeps)
    | (with_reducible apply State.loseAllFlows_keeps)
    | (with_reducible apply State.modHeat_keeps)
    | (with_reducible apply State.portsLow_keeps)
    | (with_reducible apply State.sendLeave_keeps)
    | (dsimp only)
    | (intro)
    | (with_reducible apply Keeps.ite)
    | split
    | (exact fun _ hx => ⟨hx.1, hx.2, hx.3, hx.4, hx.5, hx.6⟩)
    | (exact fun _ hx => ⟨hx.1, hx.2⟩)
    | (exact fun _ => Nat.le_refl _)
    | (exact fun _ ha hb => ⟨ha, hb⟩)
    | (apply DieInv.same <;> first | assumption | rfl)

theorem execSurgeTimeout_keeps {s0 s : State} (h : Keeps s0 s) (d : DieId) : OKeeps s0 (execSurgeTimeout d s) := by
  unfold execSurgeTimeout
  repeat' first
    | (with_reducible assumption)
    | (with_reducible exact Keeps.refl _)
    | (with_reducible apply OKeeps.next)
    | (with_reducible apply State.advanceTo_keeps)
    | (with_reducible apply State.assertFlow_keeps)
    | (with_reducible apply State.heat_keeps)
    | split

theorem execTripRestart_keeps {s0 s : State} (h : Keeps s0 s) (d : DieId) : OKeeps s0 (execTripRestart d s) := by
  unfold execTripRestart
  repeat' first
    | (with_reducible assumption)
    | (with_reducible exact Keeps.refl _)
    | (with_reducible apply OKeeps.next)
    | (with_reducible apply State.modDie_keeps)
    | (with_reducible apply State.advanceTo_keeps)
    | (with_reducible apply State.heat_keeps)
    | (with_reducible apply State.railsUp_keeps)
    | (dsimp only)
    | (intro)
    | (with_reducible apply OKeeps.ite)
    | (with_reducible apply Keeps.ite)
    | split
    | (exact fun _ hx => ⟨hx.1, hx.2, hx.3, hx.4, hx.5, hx.6⟩)
    | (exact fun _ hx => ⟨hx.1, hx.2⟩)
    | (exact fun _ => Nat.le_refl _)
    | (exact fun _ ha hb => ⟨ha, hb⟩)
    | (apply DieInv.same <;> first | assumption | rfl)

theorem State.clearLatch_keeps {s0 s : State} (h : Keeps s0 s) (d : DieId) : GKeeps s0 (State.clearLatch s d) := by
  unfold State.clearLatch
  repeat' first
    | (with_reducible assumption)
    | (with_reducible exact Keeps.refl _)
    | (with_reducible apply GKeeps.done)
    | (with_reducible apply GKeeps.refused)
    | (with_reducible apply State.modDie_keeps)
    | (with_reducible apply State.heat_keeps)
    | (intro)
    | (with_reducible apply GKeeps.ite)
    | (with_reducible apply Keeps.ite)
    | split
    | (exact fun _ hx => ⟨hx.1, hx.2, hx.3, hx.4, hx.5, hx.6⟩)
    | (exact fun _ hx => ⟨hx.1, hx.2⟩)
    | (exact fun _ => Nat.le_refl _)
    | (exact fun _ ha hb => ⟨ha, hb⟩)
    | (apply DieInv.same <;> first | assumption | rfl)

theorem execClearTripLatch_keeps {s0 s : State} (h : Keeps s0 s) (m : MasterId) (d : DieId) (v : Nat) : OKeeps s0 (execClearTripLatch m d v s) := by
  unfold execClearTripLatch
  repeat' first
    | (with_reducible assumption)
    | (with_reducible exact Keeps.refl _)
    | (with_reducible apply OKeeps.next)
    | (with_reducible apply State.clearLatch_keeps)
    | (with_reducible apply State.gate_keeps)
    | (with_reducible apply GKeeps.done)
    | (with_reducible apply GKeeps.refused)
    | (exact fun _ hx => ⟨hx.1, hx.2, hx.3, hx.4, hx.5, hx.6⟩)
    | (exact fun _ hx => ⟨hx.1, hx.2⟩)
    | (exact fun _ => Nat.le_refl _)
    | (exact fun _ ha hb => ⟨ha, hb⟩)
    | (exact Nat.le_refl _)
    | (intro)

theorem execLoopLossDeclare_keeps {s0 s : State} (h : Keeps s0 s) (b : Bool) (flows : List Nat) : OKeeps s0 (execLoopLossDeclare b flows s) := by
  unfold execLoopLossDeclare
  repeat' first
    | (with_reducible assumption)
    | (with_reducible exact Keeps.refl _)
    | (with_reducible apply OKeeps.next)
    | (with_reducible apply State.modTray_keeps)
    | (with_reducible apply State.advanceTo_keeps)
    | (with_reducible apply State.logTray_keeps)
    | (with_reducible apply Keeps.foldl)
    | (dsimp only)
    | (intro)
    | (with_reducible apply OKeeps.ite)
    | (with_reducible apply Keeps.ite)
    | split
    | (exact fun _ hx => ⟨hx.1, hx.2, hx.3, hx.4, hx.5, hx.6⟩)
    | (exact fun _ hx => ⟨hx.1, hx.2⟩)
    | (exact fun _ => Nat.le_refl _)
    | (exact fun _ ha hb => ⟨ha, hb⟩)
    | (exact Nat.le_refl _)

theorem execFlowLossAssert_keeps {s0 s : State} (h : Keeps s0 s) (d : DieId) : OKeeps s0 (execFlowLossAssert d s) := by
  unfold execFlowLossAssert
  repeat' first
    | (with_reducible assumption)
    | (with_reducible exact Keeps.refl _)
    | (with_reducible apply OKeeps.next)
    | (with_reducible apply State.assertFlow_keeps)
    | (intro)
    | (with_reducible apply OKeeps.ite)

theorem execFlowLossRelease_keeps {s0 s : State} (h : Keeps s0 s) (d : DieId) : OKeeps s0 (execFlowLossRelease d s) := by
  unfold execFlowLossRelease
  repeat' first
    | (with_reducible assumption)
    | (with_reducible exact Keeps.refl _)
    | (with_reducible apply OKeeps.next)
    | (with_reducible apply State.modDie_keeps)
    | (with_reducible apply State.modTray_keeps)
    | (with_reducible apply State.advanceTo_keeps)
    | (with_reducible apply State.heat_keeps)
    | (with_reducible apply State.modHeat_keeps)
    | (with_reducible apply State.portsBack_keeps)
    | (with_reducible apply State.startThaw_keeps)
    | (dsimp only)
    | (intro)
    | (with_reducible apply OKeeps.ite)
    | (with_reducible apply Keeps.ite)
    | split
    | (exact fun _ hx => ⟨hx.1, hx.2, hx.3, hx.4, hx.5, hx.6⟩)
    | (exact fun _ hx => ⟨hx.1, hx.2⟩)
    | (exact fun _ => Nat.le_refl _)
    | (exact fun _ ha hb => ⟨ha, hb⟩)
    | (apply DieInv.same <;> first | assumption | rfl)
    | (exact Nat.le_refl _)

theorem execFlowLossPowerOff_keeps {s0 s : State} (h : Keeps s0 s) (d : DieId) : OKeeps s0 (execFlowLossPowerOff d s) := by
  unfold execFlowLossPowerOff
  repeat' first
    | (with_reducible assumption)
    | (with_reducible exact Keeps.refl _)
    | (with_reducible apply OKeeps.next)
    | (with_reducible apply State.modDie_keeps)
    | (with_reducible apply State.advanceTo_keeps)
    | (with_reducible apply State.heat_keeps)
    | (with_reducible apply State.railsOff_keeps)
    | (dsimp only)
    | (intro)
    | (with_reducible apply OKeeps.ite)
    | (with_reducible apply Keeps.ite)
    | split
    | (exact fun _ hx => ⟨hx.1, hx.2, hx.3, hx.4, hx.5, hx.6⟩)
    | (exact fun _ hx => ⟨hx.1, hx.2⟩)
    | (exact fun _ => Nat.le_refl _)
    | (exact fun _ ha hb => ⟨ha, hb⟩)
    | (apply DieInv.same <;> first | assumption | rfl)

theorem execValveTrim_keeps {s0 s : State} (h : Keeps s0 s)  : OKeeps s0 (execValveTrim s) := by
  unfold execValveTrim
  repeat' first
    | (with_reducible assumption)
    | (with_reducible exact Keeps.refl _)
    | (with_reducible apply OKeeps.next)
    | (with_reducible apply State.modTray_keeps)
    | (dsimp only)
    | (intro)
    | (with_reducible apply OKeeps.ite)
    | (with_reducible apply Keeps.ite)
    | split
    | (exact fun _ hx => ⟨hx.1, hx.2, hx.3, hx.4, hx.5, hx.6⟩)
    | (exact fun _ hx => ⟨hx.1, hx.2⟩)
    | (exact fun _ => Nat.le_refl _)
    | (exact fun _ ha hb => ⟨ha, hb⟩)
    | (exact Nat.le_refl _)

theorem execCoolantAlarmUpdate_keeps {s0 s : State} (h : Keeps s0 s) (inlet : Int) (fa : Nat) (fb : Nat) (stuckA : Bool) (stuckB : Bool) : OKeeps s0 (execCoolantAlarmUpdate inlet fa fb stuckA stuckB s) := by
  unfold execCoolantAlarmUpdate
  repeat' first
    | (with_reducible assumption)
    | (with_reducible exact Keeps.refl _)
    | (with_reducible apply OKeeps.next)
    | (with_reducible apply State.modTray_keeps)
    | (with_reducible apply State.logTray_keeps)
    | (with_reducible apply State.recap_keeps)
    | (dsimp only)
    | (intro)
    | (with_reducible apply OKeeps.ite)
    | (with_reducible apply Keeps.ite)
    | split
    | (exact fun _ hx => ⟨hx.1, hx.2, hx.3, hx.4, hx.5, hx.6⟩)
    | (exact fun _ hx => ⟨hx.1, hx.2⟩)
    | (exact fun _ => Nat.le_refl _)
    | (exact fun _ ha hb => ⟨ha, hb⟩)
    | (exact fun _ => Nat.add_le_add_left (Nat.le_max_left _ _) _)
    | (exact fun _ => Nat.add_le_add_left (Nat.le_add_right _ _) _)
    | (exact Nat.le_refl _)

theorem execHeatThresholdWrite_keeps {s0 s : State} (h : Keeps s0 s) (m : MasterId) (d : DieId) (sub : Nat) (v : Nat) : OKeeps s0 (execHeatThresholdWrite m d sub v s) := by
  unfold execHeatThresholdWrite
  repeat' first
    | (with_reducible assumption)
    | (with_reducible exact Keeps.refl _)
    | (with_reducible apply OKeeps.next)
    | (with_reducible apply State.gate_keeps)
    | (with_reducible apply State.limitWrite_keeps)
    | (with_reducible apply GKeeps.done)
    | (with_reducible apply GKeeps.refused)
    | (exact fun _ hx => ⟨hx.1, hx.2, hx.3, hx.4, hx.5, hx.6⟩)
    | (exact fun _ hx => ⟨hx.1, hx.2⟩)
    | (exact fun _ => Nat.le_refl _)
    | (exact fun _ ha hb => ⟨ha, hb⟩)
    | (exact fun _ hu => hu)
    | (exact Nat.le_refl _)
    | (intro)

end Sys2Proof.Machine
end

