-- ==== Sys2Proof/Laws/KeepsClocks.lean ====
section
/-! SUPPORT. The operations of Machine/Clocks.lean keep what `Keeps` says. -/

namespace Sys2Proof.Machine
open Sys2Proof

theorem execRefLoss_keeps {s0 s : State} (h : Keeps s0 s) (d : DieId) : OKeeps s0 (execRefLoss d s) := by
  unfold execRefLoss
  repeat' first
    | (with_reducible assumption)
    | (with_reducible exact Keeps.refl _)
    | (with_reducible apply OKeeps.next)
    | (with_reducible apply State.logClk_keeps)
    | (with_reducible apply State.modClk_keeps)
    | (dsimp only)
    | (intro)
    | (with_reducible apply OKeeps.ite)

theorem execRlRelockDone_keeps {s0 s : State} (h : Keeps s0 s) (d : DieId) : OKeeps s0 (execRlRelockDone d s) := by
  unfold execRlRelockDone
  repeat' first
    | (with_reducible assumption)
    | (with_reducible exact Keeps.refl _)
    | (with_reducible apply OKeeps.next)
    | (with_reducible apply State.logClk_keeps)
    | (with_reducible apply State.modClk_keeps)
    | (dsimp only)
    | (intro)
    | (with_reducible apply OKeeps.ite)
    | (with_reducible apply Keeps.ite)
    | split

theorem execRefBothLostHalt_keeps {s0 s : State} (h : Keeps s0 s) (d : DieId) : OKeeps s0 (execRefBothLostHalt d s) := by
  unfold execRefBothLostHalt
  repeat' first
    | (with_reducible assumption)
    | (with_reducible exact Keeps.refl _)
    | (with_reducible apply OKeeps.next)
    | (with_reducible apply State.modDie_keeps)
    | (with_reducible apply State.advanceTo_keeps)
    | (with_reducible apply State.logClk_keeps)
    | (with_reducible apply State.portDown_keeps)
    | (with_reducible apply Keeps.foldl)
    | (dsimp only)
    | (intro)
    | (with_reducible apply OKeeps.ite)
    | (with_reducible apply Keeps.ite)
    | split
    | (exact fun _ hx => ⟨hx.1, hx.2, hx.3, hx.4, hx.5, hx.6⟩)
    | (exact fun _ hx => ⟨hx.1, hx.2⟩)
    | (exact fun _ => Nat.le_refl _)
    | (exact fun _ ha hb => ⟨ha, hb⟩)
    | (apply DieInv.same <;> first | assumption | rfl)

theorem execRefCompareInterval_keeps {s0 s : State} (h : Keeps s0 s) (d : DieId) (ppm : Nat) : OKeeps s0 (execRefCompareInterval d ppm s) := by
  unfold execRefCompareInterval
  repeat' first
    | (with_reducible assumption)
    | (with_reducible exact Keeps.refl _)
    | (with_reducible apply OKeeps.next)
    | (with_reducible apply State.logClk_keeps)
    | (with_reducible apply State.modClk_keeps)
    | (dsimp only)
    | (intro)
    | (with_reducible apply OKeeps.ite)

theorem execSourceReady_keeps {s0 s : State} (h : Keeps s0 s) (d : DieId) (src : ClkSource) : OKeeps s0 (execSourceReady d src s) := by
  unfold execSourceReady
  repeat' first
    | (with_reducible assumption)
    | (with_reducible exact Keeps.refl _)
    | (with_reducible apply OKeeps.next)
    | (with_reducible apply State.modClk_keeps)

theorem execLoopLockLoss_keeps {s0 s : State} (h : Keeps s0 s) (d : DieId) (l : LoopId) : OKeeps s0 (execLoopLockLoss d l s) := by
  unfold execLoopLockLoss
  repeat' first
    | (with_reducible assumption)
    | (with_reducible exact Keeps.refl _)
    | (with_reducible apply OKeeps.next)
    | (with_reducible apply State.clockFault_keeps)
    | (with_reducible apply State.modClk_keeps)
    | (dsimp only)
    | (intro)
    | (with_reducible apply OKeeps.ite)

theorem execIdleLoopReady_keeps {s0 s : State} (h : Keeps s0 s) (d : DieId) : OKeeps s0 (execIdleLoopReady d s) := by
  unfold execIdleLoopReady
  repeat' first
    | (with_reducible assumption)
    | (with_reducible exact Keeps.refl _)
    | (with_reducible apply OKeeps.next)
    | (with_reducible apply State.modDie_keeps)
    | (with_reducible apply State.modClk_keeps)
    | (with_reducible apply State.supplyLag_keeps)
    | (dsimp only)
    | (intro)
    | (with_reducible apply OKeeps.ite)
    | (with_reducible apply Keeps.ite)
    | split
    | (exact fun _ hx => ⟨hx.1, hx.2, hx.3, hx.4, hx.5, hx.6⟩)
    | (exact fun _ hx => ⟨hx.1, hx.2⟩)
    | (exact fun _ => Nat.le_refl _)
    | (exact fun _ ha hb => ⟨ha, hb⟩)
    | (apply DieInv.same <;> first | assumption | rfl)

theorem execCompTableUpdate_keeps {s0 s : State} (h : Keeps s0 s) (d : DieId) : OKeeps s0 (execCompTableUpdate d s) := by
  unfold execCompTableUpdate
  repeat' first
    | (with_reducible assumption)
    | (with_reducible exact Keeps.refl _)
    | (with_reducible apply OKeeps.next)
    | (with_reducible apply State.heat_keeps)
    | (with_reducible apply State.modClk_keeps)

theorem execTimeExchangeTick_keeps {s0 s : State} (h : Keeps s0 s) (d : DieId) : OKeeps s0 (execTimeExchangeTick d s) := by
  unfold execTimeExchangeTick
  repeat' first
    | (with_reducible assumption)
    | (with_reducible exact Keeps.refl _)
    | (with_reducible apply OKeeps.next)
    | (with_reducible apply State.modClk_keeps)
    | (with_reducible apply State.sendHop_keeps)
    | (with_reducible apply State.sendRecord_keeps)
    | (dsimp only)
    | (intro)
    | (with_reducible apply OKeeps.ite)
    | (with_reducible apply Keeps.ite)
    | split

theorem State.takeTimeRequest_keeps {s0 s : State} (h : Keeps s0 s) (d : DieId) (port : Nat) (src : Nat) (no : Nat) (t1 : Nat) (t2 : Nat) : Keeps s0 (State.takeTimeRequest s d port src no t1 t2) := by
  unfold State.takeTimeRequest
  repeat' first
    | (with_reducible assumption)
    | (with_reducible exact Keeps.refl _)
    | (with_reducible apply State.putRecord_keeps)

theorem execTimeRequest_keeps {s0 s : State} (h : Keeps s0 s) (d : DieId) (port : Nat) (src : Nat) (no : Nat) (t1 : Nat) (t2 : Nat) : OKeeps s0 (execTimeRequest d port src no t1 t2 s) := by
  unfold execTimeRequest
  repeat' first
    | (with_reducible assumption)
    | (with_reducible exact Keeps.refl _)
    | (with_reducible apply OKeeps.next)
    | (with_reducible apply State.takeTimeRequest_keeps)

theorem State.takeTimeResponse_keeps {s0 s : State} (h : Keeps s0 s) (d : DieId) (no : Nat) (t1 : Nat) (t2 : Nat) (t3 : Nat) (t4 : Nat) : Keeps s0 (State.takeTimeResponse s d no t1 t2 t3 t4) := by
  unfold State.takeTimeResponse
  repeat' first
    | (with_reducible assumption)
    | (with_reducible exact Keeps.refl _)
    | (with_reducible apply State.modClk_keeps)
    | (with_reducible apply State.sendLeave_keeps)
    | (dsimp only)
    | (intro)
    | (with_reducible apply Keeps.ite)
    | split

theorem execTimeResponse_keeps {s0 s : State} (h : Keeps s0 s) (d : DieId) (no : Nat) (t1 : Nat) (t2 : Nat) (t3 : Nat) (t4 : Nat) : OKeeps s0 (execTimeResponse d no t1 t2 t3 t4 s) := by
  unfold execTimeResponse
  repeat' first
    | (with_reducible assumption)
    | (with_reducible exact Keeps.refl _)
    | (with_reducible apply OKeeps.next)
    | (with_reducible apply State.takeTimeResponse_keeps)

end Sys2Proof.Machine
end

