-- ==== Sys2Proof/Laws/KeepsDroopEvents.lean ====
section
/-! SUPPORT. The operations of Machine/DroopEvents.lean keep what `Keeps` says. -/

namespace Sys2Proof.Machine
open Sys2Proof

theorem execDroopTrip_keeps {s0 s : State} (h : Keeps s0 s) (d : DieId) (taps : List (List (Nat × Nat))) : OKeeps s0 (execDroopTrip d taps s) := by
  unfold execDroopTrip
  repeat' first
    | (with_reducible assumption)
    | (with_reducible exact Keeps.refl _)
    | (with_reducible apply OKeeps.next)
    | (with_reducible apply State.modDie_keeps)
    | (with_reducible apply State.advanceTo_keeps)
    | (with_reducible apply State.floatCheck_keeps)
    | (with_reducible apply Keeps.foldl)
    | (dsimp only)
    | (intro)
    | (with_reducible apply OKeeps.ite)
    | (with_reducible apply Keeps.ite)
    | split
    | (exact fun _ hx => ⟨hx.1, hx.2, hx.3, hx.4, hx.5, hx.6⟩)
    | (exact fun _ hx => ⟨hx.1, hx.2⟩)
    | (exact fun _ => Nat.le_refl _)
    | (exact fun _ ha hb => ⟨ha, hb⟩)
    | (apply DieInv.same <;> first | assumption | rfl)

theorem execArmedWindowClose_keeps {s0 s : State} (h : Keeps s0 s) (d : DieId) : OKeeps s0 (execArmedWindowClose d s) := by
  unfold execArmedWindowClose
  repeat' first
    | (with_reducible assumption)
    | (with_reducible exact Keeps.refl _)
    | (with_reducible apply OKeeps.next)
    | (with_reducible apply State.modDie_keeps)
    | (with_reducible apply State.advanceTo_keeps)
    | (with_reducible apply Keeps.foldl)
    | (dsimp only)
    | split
    | (exact fun _ hx => ⟨hx.1, hx.2, hx.3, hx.4, hx.5, hx.6⟩)

theorem State.lineFails_keeps {s0 s : State} (h : Keeps s0 s) (d : DieId) (i : Nat) : Keeps s0 (State.lineFails s d i) := by
  unfold State.lineFails
  repeat' first
    | (with_reducible assumption)
    | (with_reducible exact Keeps.refl _)
    | (with_reducible apply State.modDie_keeps)
    | (with_reducible apply State.logDie_keeps)
    | (with_reducible apply State.retarget_keeps)
    | (dsimp only)
    | (intro)
    | (with_reducible apply Keeps.ite)
    | split
    | (exact fun _ hx => ⟨hx.1, hx.2, hx.3, hx.4, hx.5, hx.6⟩)
    | (exact fun _ hx => ⟨hx.1, hx.2⟩)
    | (exact fun _ => Nat.le_refl _)
    | (exact fun _ ha hb => ⟨ha, hb⟩)
    | (apply DieInv.same <;> first | assumption | rfl)

theorem State.unmaskLines_keeps {s0 s : State} (h : Keeps s0 s) (d : DieId) (pass : BitVec 64) : Keeps s0 (State.unmaskLines s d pass) := by
  unfold State.unmaskLines
  repeat' first
    | (with_reducible assumption)
    | (with_reducible exact Keeps.refl _)
    | (with_reducible apply State.modDie_keeps)
    | (with_reducible apply State.retarget_keeps)
    | (exact fun _ hx => ⟨hx.1, hx.2, hx.3, hx.4, hx.5, hx.6⟩)

theorem execDetectorTest_keeps {s0 s : State} (h : Keeps s0 s) (d : DieId) (failed : Nat) : OKeeps s0 (execDetectorTest d failed s) := by
  unfold execDetectorTest
  repeat' first
    | (with_reducible assumption)
    | (with_reducible exact Keeps.refl _)
    | (with_reducible apply OKeeps.next)
    | (with_reducible apply State.modDie_keeps)
    | (with_reducible apply State.lineFails_keeps)
    | (with_reducible apply State.unmaskLines_keeps)
    | (with_reducible apply Keeps.foldl)
    | (dsimp only)
    | (intro)
    | (with_reducible apply OKeeps.ite)
    | (with_reducible apply Keeps.ite)
    | split
    | (exact fun _ hx => ⟨hx.1, hx.2, hx.3, hx.4, hx.5, hx.6⟩)
    | (exact fun _ hx => ⟨hx.1, hx.2⟩)
    | (exact fun _ => Nat.le_refl _)
    | (exact fun _ ha hb => ⟨ha, hb⟩)
    | (apply DieInv.same <;> first | assumption | rfl)

theorem execDetectorLineStuck_keeps {s0 s : State} (h : Keeps s0 s) (d : DieId) (det : Fin 64) : OKeeps s0 (execDetectorLineStuck d det s) := by
  unfold execDetectorLineStuck
  repeat' first
    | (with_reducible assumption)
    | (with_reducible exact Keeps.refl _)
    | (with_reducible apply OKeeps.next)
    | (with_reducible apply State.lineFails_keeps)
    | (dsimp only)
    | (intro)
    | (with_reducible apply OKeeps.ite)

theorem execDroopSettingWrite_keeps {s0 s : State} (h : Keeps s0 s) (m : MasterId) (d : DieId) (sub : Nat) (v : Nat) : OKeeps s0 (execDroopSettingWrite m d sub v s) := by
  unfold execDroopSettingWrite
  repeat' first
    | (with_reducible assumption)
    | (with_reducible exact Keeps.refl _)
    | (with_reducible apply OKeeps.next)
    | (with_reducible apply State.gate_keeps)
    | (with_reducible apply State.limitWrite_keeps)
    | (with_reducible apply GKeeps.done)
    | (with_reducible apply GKeeps.refused)
    | (exact fun _ hx => ⟨hx.1, hx.2, hx.3, hx.4, hx.5, hx.6⟩)
    | (exact fun _ hx => ⟨hx.1, hx.2⟩)
    | (exact fun _ => Nat.le_refl _)
    | (exact fun _ ha hb => ⟨ha, hb⟩)
    | (exact fun _ hu => hu)
    | (exact Nat.le_refl _)
    | (intro)

end Sys2Proof.Machine
end

