-- ==== Sys2Proof/Laws/KeepsEnergyEvents.lean ====
section
/-! SUPPORT. The operations of Machine/EnergyEvents.lean keep what `Keeps` says. -/

namespace Sys2Proof.Machine
open Sys2Proof

theorem State.chargeOverhead_keeps {s0 s : State} (h : Keeps s0 s) (d : DieId) (ns : Ns) : Keeps s0 (State.chargeOverhead s d ns) := by
  unfold State.chargeOverhead
  repeat' first
    | (with_reducible assumption)
    | (with_reducible exact Keeps.refl _)
    | (with_reducible apply State.charge_keeps)
    | (with_reducible apply State.modNrg_keeps)
    | (with_reducible apply Keeps.foldl)
    | (dsimp only)
    | split
    | (exact fun _ hx => ⟨hx.1, hx.2, hx.3, hx.4, hx.5, hx.6⟩)
    | (exact fun _ hx => ⟨hx.1, hx.2⟩)
    | (exact fun _ => Nat.le_refl _)
    | (exact fun _ ha hb => ⟨ha, hb⟩)
    | (exact Nat.le_refl _)
    | (intro)

theorem Die.measured_inv {x : Die} (hx : DieInv x) (d : DieId) (now : Ns) (r : EnergySample) (on : Bool) (ns : Ns)
    (v core pred fixed idleLeak : Nat) (counts te : List Nat) :
    DieInv (x.measured d now r on ns v core pred fixed idleLeak counts te) :=
  ⟨hx.1, hx.2, hx.3, hx.4, hx.5, hx.6⟩

theorem execEnergyInterval_keeps {s0 s : State} (h : Keeps s0 s) (d : DieId) (r : EnergySample) : OKeeps s0 (execEnergyInterval d r s) := by
  unfold execEnergyInterval
  exact OKeeps.next (State.chargeOverhead_keeps (Keeps.foldl _ (fun u a hu => State.charge_keeps hu _ _ _ _ _)
    (State.modDie_keeps (State.advanceTo_keeps h _) _ _ fun _ hx => Die.measured_inv hx _ _ _ _ _ _ _ _ _ _ _ _)) _ _)

theorem execBenchmarkStart_keeps {s0 s : State} (h : Keeps s0 s) (d : DieId) (t : Nat) (hh : Nat) : OKeeps s0 (execBenchmarkStart d t hh s) := by
  unfold execBenchmarkStart
  repeat' first
    | (with_reducible assumption)
    | (with_reducible exact Keeps.refl _)
    | (with_reducible apply OKeeps.next)
    | (with_reducible apply State.heat_keeps)
    | (with_reducible apply State.modNrg_keeps)
    | (dsimp only)
    | (intro)
    | (with_reducible apply OKeeps.ite)
    | (with_reducible apply Keeps.ite)
    | split

theorem execBenchmarkEnd_keeps {s0 s : State} (h : Keeps s0 s) (d : DieId) (t : Nat) (hh : Nat) (c7 : Nat) (cl : Nat) : OKeeps s0 (execBenchmarkEnd d t hh c7 cl s) := by
  unfold execBenchmarkEnd
  repeat' first
    | (with_reducible assumption)
    | (with_reducible exact Keeps.refl _)
    | (with_reducible apply OKeeps.next)
    | (with_reducible apply State.advanceTo_keeps)
    | (with_reducible apply State.heat_keeps)
    | (with_reducible apply State.modNrg_keeps)
    | (dsimp only)
    | (intro)
    | (with_reducible apply OKeeps.ite)
    | (with_reducible apply Keeps.ite)
    | split

theorem execUpliftRecompute_keeps {s0 s : State} (h : Keeps s0 s) (d : DieId) : OKeeps s0 (execUpliftRecompute d s) := by
  unfold execUpliftRecompute
  repeat' first
    | (with_reducible assumption)
    | (with_reducible exact Keeps.refl _)
    | (with_reducible apply OKeeps.next)
    | (with_reducible apply State.modNrg_keeps)

theorem State.storeCoeffs_keeps {s0 s : State} (h : Keeps s0 s)  : Keeps s0 (State.storeCoeffs s) := by
  unfold State.storeCoeffs
  repeat' first
    | (with_reducible assumption)
    | (with_reducible exact Keeps.refl _)
    | (with_reducible apply State.allDies_keeps)
    | (exact fun _ hx => ⟨hx.1, hx.2, hx.3, hx.4, hx.5, hx.6⟩)

theorem execCoeffStore_keeps {s0 s : State} (h : Keeps s0 s)  : OKeeps s0 (execCoeffStore s) := by
  unfold execCoeffStore
  repeat' first
    | (with_reducible assumption)
    | (with_reducible exact Keeps.refl _)
    | (with_reducible apply OKeeps.next)
    | (with_reducible apply State.storeCoeffs_keeps)

theorem State.loadCoeffs_keeps {s0 s : State} (h : Keeps s0 s) (d : DieId) : Keeps s0 (State.loadCoeffs s d) := by
  unfold State.loadCoeffs
  repeat' first
    | (with_reducible assumption)
    | (with_reducible exact Keeps.refl _)
    | (with_reducible apply State.modNrg_keeps)

theorem execOverheadRuleWrite_keeps {s0 s : State} (h : Keeps s0 s) (m : MasterId) (d : DieId) (v : Nat) : OKeeps s0 (execOverheadRuleWrite m d v s) := by
  unfold execOverheadRuleWrite
  repeat' first
    | (with_reducible assumption)
    | (with_reducible exact Keeps.refl _)
    | (with_reducible apply OKeeps.next)
    | (with_reducible apply State.boundaryWrite_keeps)
    | (with_reducible apply State.gate_keeps)
    | (with_reducible apply GKeeps.done)
    | (with_reducible apply GKeeps.refused)
    | (exact fun _ hx => ⟨hx.1, hx.2, hx.3, hx.4, hx.5, hx.6⟩)
    | (exact fun _ hx => ⟨hx.1, hx.2⟩)
    | (exact fun _ => Nat.le_refl _)
    | (exact fun _ ha hb => ⟨ha, hb⟩)
    | (exact Nat.le_refl _)
    | (intro)

theorem State.selectApply_keeps {s0 s : State} (h : Keeps s0 s) (d : DieId) (m : MasterId) (v : Nat) : GKeeps s0 (State.selectApply s d m v) := by
  unfold State.selectApply
  repeat' first
    | (with_reducible assumption)
    | (with_reducible exact Keeps.refl _)
    | (with_reducible apply GKeeps.done)
    | (with_reducible apply GKeeps.refused)
    | (with_reducible apply State.modMaster_keeps)
    | (exact fun _ hx => ⟨hx.1, hx.2, hx.3, hx.4, hx.5, hx.6⟩)
    | (exact fun _ hx => ⟨hx.1, hx.2⟩)

theorem execContextSelectorWrite_keeps {s0 s : State} (h : Keeps s0 s) (m : MasterId) (d : DieId) (v : Nat) : OKeeps s0 (execContextSelectorWrite m d v s) := by
  unfold execContextSelectorWrite
  repeat' first
    | (with_reducible assumption)
    | (with_reducible exact Keeps.refl _)
    | (with_reducible apply OKeeps.next)
    | (with_reducible apply State.gate_keeps)
    | (with_reducible apply State.selectApply_keeps)
    | (with_reducible apply GKeeps.done)
    | (with_reducible apply GKeeps.refused)
    | (exact fun _ hx => ⟨hx.1, hx.2, hx.3, hx.4, hx.5, hx.6⟩)
    | (exact fun _ hx => ⟨hx.1, hx.2⟩)
    | (exact fun _ => Nat.le_refl _)
    | (exact fun _ ha hb => ⟨ha, hb⟩)
    | (exact Nat.le_refl _)
    | (intro)

end Sys2Proof.Machine
end

