-- ==== Sys2Proof/Laws/KeepsOptics.lean ====
section
/-! SUPPORT. The operations of Machine/Optics.lean keep what `Keeps` says. -/

namespace Sys2Proof.Machine
open Sys2Proof

theorem State.refit_keeps {s0 s : State} (h : Keeps s0 s) (d : DieId) (p : Nat) (drop : Bool) : Keeps s0 (State.refit s d p drop) := by
  unfold State.refit
  repeat' first
    | (with_reducible assumption)
    | (with_reducible exact Keeps.refl _)
    | (with_reducible apply State.logDie_keeps)
    | (with_reducible apply State.modPort_keeps)
    | (with_reducible apply State.portDown_keeps)
    | (with_reducible apply State.sendHop_keeps)
    | (dsimp only)
    | (intro)
    | (with_reducible apply Keeps.ite)

theorem State.lineOut_keeps {s0 s : State} (h : Keeps s0 s) (d : DieId) (p : Nat) (drop : Bool) (line : Nat) (dst : LineState) (lost : Bool) : Keeps s0 (State.lineOut s d p drop line dst lost) := by
  unfold State.lineOut
  repeat' first
    | (with_reducible assumption)
    | (with_reducible exact Keeps.refl _)
    | (with_reducible apply State.modPort_keeps)
    | (with_reducible apply State.portRetrain_keeps)
    | (with_reducible apply State.refit_keeps)
    | (with_reducible apply State.stopCal_keeps)
    | (dsimp only)
    | (intro)
    | (with_reducible apply Keeps.ite)

theorem State.lineBack_keeps {s0 s : State} (h : Keeps s0 s) (d : DieId) (p : Nat) (drop : Bool) (line : Nat) : Keeps s0 (State.lineBack s d p drop line) := by
  unfold State.lineBack
  repeat' first
    | (with_reducible assumption)
    | (with_reducible exact Keeps.refl _)
    | (with_reducible apply State.modPort_keeps)
    | (with_reducible apply State.refit_keeps)

theorem State.unlockRing_keeps {s0 s : State} (h : Keeps s0 s) (d : DieId) (n : Nat) : Keeps s0 (State.unlockRing s d n) := by
  unfold State.unlockRing
  repeat' first
    | (with_reducible assumption)
    | (with_reducible exact Keeps.refl _)
    | (with_reducible apply State.modDie_keeps)
    | (with_reducible apply State.lineOut_keeps)
    | (dsimp only)
    | (intro)
    | (with_reducible apply Keeps.ite)
    | split
    | (exact fun _ hx => ⟨hx.1, hx.2, hx.3, hx.4, hx.5, hx.6⟩)
    | (exact fun _ hx => ⟨hx.1, hx.2⟩)
    | (exact fun _ => Nat.le_refl _)
    | (exact fun _ ha hb => ⟨ha, hb⟩)
    | (apply DieInv.same <;> first | assumption | rfl)

theorem State.combLossNow_keeps {s0 s : State} (h : Keeps s0 s) (d : DieId) : Keeps s0 (State.combLossNow s d) := by
  unfold State.combLossNow
  repeat' first
    | (with_reducible assumption)
    | (with_reducible exact Keeps.refl _)
    | (with_reducible apply State.modDie_keeps)
    | (with_reducible apply State.logDie_keeps)
    | (with_reducible apply State.portRetrain_keeps)
    | (with_reducible apply Keeps.foldl)
    | (dsimp only)
    | (intro)
    | (with_reducible apply Keeps.ite)
    | split
    | (exact fun _ hx => ⟨hx.1, hx.2, hx.3, hx.4, hx.5, hx.6⟩)
    | (exact fun _ hx => ⟨hx.1, hx.2⟩)
    | (exact fun _ => Nat.le_refl _)
    | (exact fun _ ha hb => ⟨ha, hb⟩)
    | (apply DieInv.same <;> first | assumption | rfl)

theorem State.findingAct_keeps {s0 s : State} (h : Keeps s0 s) (d : DieId) (p : Nat) (e : Int × Nat × Nat) : Keeps s0 (State.findingAct s d p e) := by
  unfold State.findingAct
  repeat' first
    | (with_reducible assumption)
    | (with_reducible exact Keeps.refl _)
    | (with_reducible apply State.modDie_keeps)
    | (with_reducible apply State.combLossNow_keeps)
    | (with_reducible apply State.lineOut_keeps)
    | (with_reducible apply State.unlockRing_keeps)
    | (with_reducible apply Keeps.foldl)
    | (dsimp only)
    | (intro)
    | (with_reducible apply Keeps.ite)
    | split
    | (exact fun _ hx => ⟨hx.1, hx.2, hx.3, hx.4, hx.5, hx.6⟩)
    | (exact fun _ hx => ⟨hx.1, hx.2⟩)
    | (exact fun _ => Nat.le_refl _)
    | (exact fun _ ha hb => ⟨ha, hb⟩)
    | (apply DieInv.same <;> first | assumption | rfl)

theorem State.localise_keeps {s0 s : State} (h : Keeps s0 s) (d : DieId) (p : Nat) : Keeps s0 (State.localise s d p) := by
  unfold State.localise
  repeat' first
    | (with_reducible assumption)
    | (with_reducible exact Keeps.refl _)
    | (with_reducible apply State.findingAct_keeps)
    | (with_reducible apply State.logDie_keeps)
    | (with_reducible apply State.modPort_keeps)
    | (with_reducible apply Keeps.foldl)
    | (dsimp only)
    | (intro)
    | (with_reducible apply Keeps.ite)

theorem State.sendIdle_keeps {s0 s : State} (h : Keeps s0 s) (d : DieId) (p : Nat) (nak : Bool) : Keeps s0 (State.sendIdle s d p nak) := by
  unfold State.sendIdle
  repeat' first
    | (with_reducible assumption)
    | (with_reducible exact Keeps.refl _)
    | (with_reducible apply State.emit_keeps)

theorem State.takeAckSeq_keeps {s0 s : State} (h : Keeps s0 s) (d : DieId) (p : Nat) (ack : Nat) : Keeps s0 (State.takeAckSeq s d p ack) := by
  unfold State.takeAckSeq
  repeat' first
    | (with_reducible assumption)
    | (with_reducible exact Keeps.refl _)
    | (with_reducible apply State.modPort_keeps)

theorem State.resend_keeps {s0 s : State} (h : Keeps s0 s) (d : DieId) (p : Nat) (anew : Bool) : Keeps s0 (State.resend s d p anew) := by
  unfold State.resend
  repeat' first
    | (with_reducible assumption)
    | (with_reducible exact Keeps.refl _)
    | (with_reducible apply State.emit_keeps)
    | (with_reducible apply State.modDie_keeps)
    | (with_reducible apply State.modPort_keeps)
    | (with_reducible apply Keeps.foldl)
    | (dsimp only)
    | (intro)
    | (with_reducible apply Keeps.ite)
    | split
    | (exact fun _ hx => ⟨hx.1, hx.2, hx.3, hx.4, hx.5, hx.6⟩)
    | (exact fun _ hx => ⟨hx.1, hx.2⟩)
    | (exact fun _ => Nat.le_refl _)
    | (exact fun _ ha hb => ⟨ha, hb⟩)
    | (apply DieInv.same <;> first | assumption | rfl)

theorem State.takeNak_keeps {s0 s : State} (h : Keeps s0 s) (d : DieId) (p : Nat) (seq : Nat) : Keeps s0 (State.takeNak s d p seq) := by
  unfold State.takeNak
  repeat' first
    | (with_reducible assumption)
    | (with_reducible exact Keeps.refl _)
    | (with_reducible apply State.resend_keeps)
    | (with_reducible apply State.takeAckSeq_keeps)

theorem State.trainSend_keeps {s0 s : State} (h : Keeps s0 s) (d : DieId) (p : Nat) (ty : Nat) (body : List Byte) : Keeps s0 (State.trainSend s d p ty body) := by
  unfold State.trainSend
  repeat' first
    | (with_reducible assumption)
    | (with_reducible exact Keeps.refl _)
    | (with_reducible apply State.emit_keeps)

theorem State.startTraining_keeps {s0 s : State} (h : Keeps s0 s) (d : DieId) (p : Nat) : Keeps s0 (State.startTraining s d p) := by
  unfold State.startTraining
  repeat' first
    | (with_reducible assumption)
    | (with_reducible exact Keeps.refl _)
    | (with_reducible apply State.modPort_keeps)
    | (with_reducible apply State.trainSend_keeps)

theorem State.portOff_keeps {s0 s : State} (h : Keeps s0 s) (d : DieId) (p : Nat) : Keeps s0 (State.portOff s d p) := by
  unfold State.portOff
  repeat' first
    | (with_reducible assumption)
    | (with_reducible exact Keeps.refl _)
    | (with_reducible apply State.loseFlows_keeps)
    | (with_reducible apply State.modPort_keeps)

end Sys2Proof.Machine
end

