-- ==== Sys2Proof/Laws/KeepsMeridianEvents.lean ====
section
/-! SUPPORT. The operations of Machine/MeridianEvents.lean keep what `Keeps` says. -/

namespace Sys2Proof.Machine
open Sys2Proof

theorem State.ackRecord_keeps {s0 s : State} (h : Keeps s0 s) (d : DieId) (dst : Nat) (ty : Nat) (src : Nat) (epoch : Nat) : Keeps s0 (State.ackRecord s d dst ty src epoch) := by
  unfold State.ackRecord
  repeat' first
    | (with_reducible assumption)
    | (with_reducible exact Keeps.refl _)
    | (with_reducible apply State.sendRecord_keeps)
    | (intro)
    | (with_reducible apply Keeps.ite)

theorem State.ackUp_keeps {s0 s : State} (h : Keeps s0 s) (d : DieId) (ty : Nat) (src : Nat) : Keeps s0 (State.ackUp s d ty src) := by
  unfold State.ackUp
  repeat' first
    | (with_reducible assumption)
    | (with_reducible exact Keeps.refl _)
    | (with_reducible apply State.ackRecord_keeps)
    | (with_reducible apply Keeps.foldl)
    | (exact fun _ hx => ⟨hx.1, hx.2, hx.3, hx.4, hx.5, hx.6⟩)
    | (exact fun _ hx => ⟨hx.1, hx.2⟩)
    | (exact fun _ => Nat.le_refl _)
    | (exact fun _ ha hb => ⟨ha, hb⟩)
    | (exact Nat.le_refl _)
    | (intro)

theorem State.takeAck_keeps {s0 s : State} (h : Keeps s0 s) (d : DieId) (ty : Nat) (src : Nat) : Keeps s0 (State.takeAck s d ty src) := by
  unfold State.takeAck
  repeat' first
    | (with_reducible assumption)
    | (with_reducible exact Keeps.refl _)
    | (with_reducible apply State.modMer_keeps)

theorem execRecordAckTimeout_keeps {s0 s : State} (h : Keeps s0 s) (d : DieId) (no : Nat) : OKeeps s0 (execRecordAckTimeout d no s) := by
  unfold execRecordAckTimeout
  repeat' first
    | (with_reducible assumption)
    | (with_reducible exact Keeps.refl _)
    | (with_reducible apply OKeeps.next)
    | (with_reducible apply State.advanceTo_keeps)
    | (with_reducible apply State.modMer_keeps)
    | (with_reducible apply State.passLeave_keeps)
    | (with_reducible apply State.sendFor_keeps)
    | (dsimp only)
    | (intro)
    | (with_reducible apply OKeeps.ite)
    | (with_reducible apply Keeps.ite)
    | split

theorem State.formResult_keeps {s0 s : State} (h : Keeps s0 s) (d : DieId) : Keeps s0 (State.formResult s d) := by
  unfold State.formResult
  repeat' first
    | (with_reducible assumption)
    | (with_reducible exact Keeps.refl _)
    | (with_reducible apply State.holdResult_keeps)
    | (with_reducible apply State.modMer_keeps)
    | (with_reducible apply State.sendResult_keeps)

theorem execResultForm_keeps {s0 s : State} (h : Keeps s0 s) (d : DieId) : OKeeps s0 (execResultForm d s) := by
  unfold execResultForm
  repeat' first
    | (with_reducible assumption)
    | (with_reducible exact Keeps.refl _)
    | (with_reducible apply OKeeps.next)
    | (with_reducible apply State.advanceIn_keeps)
    | (with_reducible apply State.formResult_keeps)
    | (dsimp only)
    | (intro)
    | (with_reducible apply OKeeps.ite)

theorem execStandbyRootTakeover_keeps {s0 s : State} (h : Keeps s0 s) (d : DieId) : OKeeps s0 (execStandbyRootTakeover d s) := by
  unfold execStandbyRootTakeover
  repeat' first
    | (with_reducible assumption)
    | (with_reducible exact Keeps.refl _)
    | (with_reducible apply OKeeps.next)
    | (with_reducible apply State.advanceIn_keeps)
    | (with_reducible apply State.formResult_keeps)
    | (with_reducible apply State.modMer_keeps)
    | (dsimp only)
    | (intro)
    | (with_reducible apply OKeeps.ite)

theorem State.takeResult_keeps {s0 s : State} (h : Keeps s0 s) (d : DieId) (src : Nat) (r : MResult) : Keeps s0 (State.takeResult s d src r) := by
  unfold State.takeResult
  repeat' first
    | (with_reducible assumption)
    | (with_reducible exact Keeps.refl _)
    | (with_reducible apply State.ackRecord_keeps)
    | (with_reducible apply State.holdResult_keeps)
    | (with_reducible apply State.logDie_keeps)
    | (with_reducible apply State.modMer_keeps)
    | (with_reducible apply State.sendResult_keeps)
    | (dsimp only)
    | (intro)
    | (with_reducible apply Keeps.ite)

theorem execResultReceive_keeps {s0 s : State} (h : Keeps s0 s) (d : DieId) (src : Nat) (r : MResult) : OKeeps s0 (execResultReceive d src r s) := by
  unfold execResultReceive
  repeat' first
    | (with_reducible assumption)
    | (with_reducible exact Keeps.refl _)
    | (with_reducible apply OKeeps.next)
    | (with_reducible apply State.takeResult_keeps)

theorem State.takeProposal_keeps {s0 s : State} (h : Keeps s0 s) (d : DieId) (src : Nat) (epoch : Nat) (code : Nat) (urgent : Bool) (revised : Bool) (heard : Nat) : Keeps s0 (State.takeProposal s d src epoch code urgent revised heard) := by
  unfold State.takeProposal
  repeat' first
    | (with_reducible assumption)
    | (with_reducible exact Keeps.refl _)
    | (with_reducible apply State.ackUp_keeps)
    | (with_reducible apply State.amend_keeps)
    | (with_reducible apply State.modMer_keeps)
    | (with_reducible apply State.sendUp_keeps)
    | (dsimp only)
    | (intro)
    | (with_reducible apply Keeps.ite)

theorem execProposalReceive_keeps {s0 s : State} (h : Keeps s0 s) (d : DieId) (src : Nat) (epoch : Nat) (code : Nat) (urgent : Bool) (revised : Bool) (heard : Nat) : OKeeps s0 (execProposalReceive d src epoch code urgent revised heard s) := by
  unfold execProposalReceive
  repeat' first
    | (with_reducible assumption)
    | (with_reducible exact Keeps.refl _)
    | (with_reducible apply OKeeps.next)
    | (with_reducible apply State.takeProposal_keeps)

theorem execLeaveSend_keeps {s0 s : State} (h : Keeps s0 s) (d : DieId) (cause : Nat) : OKeeps s0 (execLeaveSend d cause s) := by
  unfold execLeaveSend
  repeat' first
    | (with_reducible assumption)
    | (with_reducible exact Keeps.refl _)
    | (with_reducible apply OKeeps.next)
    | (with_reducible apply State.leaveFor_keeps)
    | (with_reducible apply State.sendLeave_keeps)
    | (intro)
    | (with_reducible apply OKeeps.ite)
    | (with_reducible apply Keeps.ite)

theorem State.takeLeave_keeps {s0 s : State} (h : Keeps s0 s) (d : DieId) (cause : Nat) (id : Nat) : Keeps s0 (State.takeLeave s d cause id) := by
  unfold State.takeLeave
  repeat' first
    | (with_reducible assumption)
    | (with_reducible exact Keeps.refl _)
    | (with_reducible apply State.ackUp_keeps)
    | (with_reducible apply State.passLeave_keeps)
    | (intro)
    | (with_reducible apply Keeps.ite)

theorem execLeaveReceive_keeps {s0 s : State} (h : Keeps s0 s) (d : DieId) (id : Nat) : OKeeps s0 (execLeaveReceive d id s) := by
  unfold execLeaveReceive
  repeat' first
    | (with_reducible assumption)
    | (with_reducible exact Keeps.refl _)
    | (with_reducible apply OKeeps.next)
    | (with_reducible apply State.takeLeave_keeps)

theorem execLeaveGroup_keeps {s0 s : State} (h : Keeps s0 s) (m : MasterId) (d : DieId) (v : Nat) : OKeeps s0 (execLeaveGroup m d v s) := by
  unfold execLeaveGroup
  repeat' first
    | (with_reducible assumption)
    | (with_reducible exact Keeps.refl _)
    | (with_reducible apply OKeeps.next)
    | (with_reducible apply State.gate_keeps)
    | (with_reducible apply State.sendLeave_keeps)
    | (with_reducible apply GKeeps.done)
    | (with_reducible apply GKeeps.refused)
    | (exact fun _ hx => ⟨hx.1, hx.2, hx.3, hx.4, hx.5, hx.6⟩)
    | (exact fun _ hx => ⟨hx.1, hx.2⟩)
    | (exact fun _ => Nat.le_refl _)
    | (exact fun _ ha hb => ⟨ha, hb⟩)
    | (exact Nat.le_refl _)
    | (intro)

theorem State.groupApply_keeps {s0 s : State} (h : Keeps s0 s) (d : DieId) (sub : Nat) (v : Nat) : GKeeps s0 (State.groupApply s d sub v) := by
  unfold State.groupApply
  repeat' first
    | (with_reducible assumption)
    | (with_reducible exact Keeps.refl _)
    | (with_reducible apply GKeeps.done)
    | (with_reducible apply GKeeps.refused)
    | (with_reducible apply State.modMer_keeps)
    | (with_reducible apply State.putSetting_keeps)
    | (with_reducible apply State.sendLeave_keeps)
    | (dsimp only)
    | (intro)
    | (with_reducible apply GKeeps.ite)
    | (with_reducible apply Keeps.ite)

theorem execGroupIdentityWrite_keeps {s0 s : State} (h : Keeps s0 s) (m : MasterId) (d : DieId) (sub : Nat) (v : Nat) : OKeeps s0 (execGroupIdentityWrite m d sub v s) := by
  unfold execGroupIdentityWrite
  repeat' first
    | (with_reducible assumption)
    | (with_reducible exact Keeps.refl _)
    | (with_reducible apply OKeeps.next)
    | (with_reducible apply State.gate_keeps)
    | (with_reducible apply State.groupApply_keeps)
    | (with_reducible apply GKeeps.done)
    | (with_reducible apply GKeeps.refused)
    | (intro)
    | (with_reducible apply OKeeps.ite)

theorem execJoinSend_keeps {s0 s : State} (h : Keeps s0 s) (d : DieId) : OKeeps s0 (execJoinSend d s) := by
  unfold execJoinSend
  repeat' first
    | (with_reducible assumption)
    | (with_reducible exact Keeps.refl _)
    | (with_reducible apply OKeeps.next)
    | (with_reducible apply State.modMer_keeps)
    | (with_reducible apply State.putRecord_keeps)
    | (dsimp only)
    | (intro)
    | (with_reducible apply OKeeps.ite)
    | (with_reducible apply Keeps.ite)
    | split

theorem State.takeJoin_keeps {s0 s : State} (h : Keeps s0 s) (d : DieId) (id : Nat) (valid : Bool) : Keeps s0 (State.takeJoin s d id valid) := by
  unfold State.takeJoin
  repeat' first
    | (with_reducible assumption)
    | (with_reducible exact Keeps.refl _)
    | (with_reducible apply State.ackRecord_keeps)
    | (with_reducible apply State.modMer_keeps)
    | (with_reducible apply State.sendUp_keeps)
    | (dsimp only)
    | (intro)
    | (with_reducible apply Keeps.ite)

theorem execJoinReceive_keeps {s0 s : State} (h : Keeps s0 s) (d : DieId) (id : Nat) (valid : Bool) : OKeeps s0 (execJoinReceive d id valid s) := by
  unfold execJoinReceive
  repeat' first
    | (with_reducible assumption)
    | (with_reducible exact Keeps.refl _)
    | (with_reducible apply OKeeps.next)
    | (with_reducible apply State.takeJoin_keeps)

theorem execSelfRoot_keeps {s0 s : State} (h : Keeps s0 s) (d : DieId) : OKeeps s0 (execSelfRoot d s) := by
  unfold execSelfRoot
  repeat' first
    | (with_reducible assumption)
    | (with_reducible exact Keeps.refl _)
    | (with_reducible apply OKeeps.next)
    | (with_reducible apply State.modDie_keeps)
    | (dsimp only)
    | (intro)
    | (with_reducible apply OKeeps.ite)
    | (with_reducible apply Keeps.ite)
    | split
    | (exact fun _ hx => ⟨hx.1, hx.2, hx.3, hx.4, hx.5, hx.6⟩)
    | (exact fun _ hx => ⟨hx.1, hx.2⟩)
    | (exact fun _ => Nat.le_refl _)
    | (exact fun _ ha hb => ⟨ha, hb⟩)
    | (apply DieInv.same <;> first | assumption | rfl)

theorem State.meetRoot_keeps {s0 s : State} (h : Keeps s0 s) (d : DieId) (root : Nat) : Keeps s0 (State.meetRoot s d root) := by
  unfold State.meetRoot
  repeat' first
    | (with_reducible assumption)
    | (with_reducible exact Keeps.refl _)
    | (with_reducible apply State.modMer_keeps)
    | (dsimp only)
    | (intro)
    | (with_reducible apply Keeps.ite)

theorem execRootMerge_keeps {s0 s : State} (h : Keeps s0 s) (d : DieId) (root : Nat) : OKeeps s0 (execRootMerge d root s) := by
  unfold execRootMerge
  repeat' first
    | (with_reducible assumption)
    | (with_reducible exact Keeps.refl _)
    | (with_reducible apply OKeeps.next)
    | (with_reducible apply State.meetRoot_keeps)

theorem State.rescale_keeps {s0 s : State} (h : Keeps s0 s) (d : DieId) (b' : Nat) : Keeps s0 (State.rescale s d b') := by
  unfold State.rescale
  repeat' first
    | (with_reducible assumption)
    | (with_reducible exact Keeps.refl _)
    | (with_reducible apply State.modDie_keeps)
    | (dsimp only)
    | (intro)
    | (with_reducible apply Keeps.ite)
    | split
    | (exact fun _ hx => ⟨hx.1, hx.2, hx.3, hx.4, hx.5, hx.6⟩)
    | (exact fun _ hx => ⟨hx.1, hx.2⟩)
    | (exact fun _ => Nat.le_refl _)
    | (exact fun _ ha hb => ⟨ha, hb⟩)
    | (apply DieInv.same <;> first | assumption | rfl)

theorem State.grantLend_keeps {s0 s : State} (h : Keeps s0 s) (d : DieId) (src : DieId) (amount : Nat) (epoch : Nat) : Keeps s0 (State.grantLend s d src amount epoch) := by
  unfold State.grantLend
  repeat' first
    | (with_reducible assumption)
    | (with_reducible exact Keeps.refl _)
    | (with_reducible apply State.modMer_keeps)
    | (with_reducible apply State.rescale_keeps)
    | (with_reducible apply State.sendRecord_keeps)
    | (dsimp only)
    | (intro)
    | (with_reducible apply Keeps.ite)

theorem State.takeLend_keeps {s0 s : State} (h : Keeps s0 s) (d : DieId) (src : DieId) (amount : Nat) (epoch : Nat) : Keeps s0 (State.takeLend s d src amount epoch) := by
  unfold State.takeLend
  repeat' first
    | (with_reducible assumption)
    | (with_reducible exact Keeps.refl _)
    | (with_reducible apply State.modMer_keeps)

theorem State.serveLends_keeps {s0 s : State} (h : Keeps s0 s) (d : DieId) : Keeps s0 (State.serveLends s d) := by
  unfold State.serveLends
  repeat' first
    | (with_reducible assumption)
    | (with_reducible exact Keeps.refl _)
    | (with_reducible apply State.grantLend_keeps)
    | (with_reducible apply State.modMer_keeps)
    | (with_reducible apply Keeps.foldl)
    | (exact fun _ hx => ⟨hx.1, hx.2, hx.3, hx.4, hx.5, hx.6⟩)
    | (exact fun _ hx => ⟨hx.1, hx.2⟩)
    | (exact fun _ => Nat.le_refl _)
    | (exact fun _ ha hb => ⟨ha, hb⟩)
    | (exact Nat.le_refl _)
    | (intro)

theorem execLend_keeps {s0 s : State} (h : Keeps s0 s) (d : DieId) (src : DieId) (amount : Nat) (epoch : Nat) : OKeeps s0 (execLend d src amount epoch s) := by
  unfold execLend
  repeat' first
    | (with_reducible assumption)
    | (with_reducible exact Keeps.refl _)
    | (with_reducible apply OKeeps.next)
    | (with_reducible apply State.serveLends_keeps)
    | (with_reducible apply State.takeLend_keeps)

theorem State.takeGrant_keeps {s0 s : State} (h : Keeps s0 s) (d : DieId) (src : DieId) (amount : Nat) (epoch : Nat) : Keeps s0 (State.takeGrant s d src amount epoch) := by
  unfold State.takeGrant
  repeat' first
    | (with_reducible assumption)
    | (with_reducible exact Keeps.refl _)
    | (with_reducible apply State.modDie_keeps)
    | (with_reducible apply State.askLend_keeps)
    | (with_reducible apply State.modMer_keeps)
    | (with_reducible apply State.sendRecord_keeps)
    | (dsimp only)
    | (intro)
    | (with_reducible apply Keeps.ite)
    | split
    | (exact fun _ hx => ⟨hx.1, hx.2, hx.3, hx.4, hx.5, hx.6⟩)
    | (exact fun _ hx => ⟨hx.1, hx.2⟩)
    | (exact fun _ => Nat.le_refl _)
    | (exact fun _ ha hb => ⟨ha, hb⟩)
    | (apply DieInv.same <;> first | assumption | rfl)

theorem execGrant_keeps {s0 s : State} (h : Keeps s0 s) (d : DieId) (src : DieId) (amount : Nat) (epoch : Nat) : OKeeps s0 (execGrant d src amount epoch s) := by
  unfold execGrant
  repeat' first
    | (with_reducible assumption)
    | (with_reducible exact Keeps.refl _)
    | (with_reducible apply OKeeps.next)
    | (with_reducible apply State.takeGrant_keeps)

theorem State.takeCommit_keeps {s0 s : State} (h : Keeps s0 s) (d : DieId) (src : DieId) (amount : Nat) (epoch : Nat) : Keeps s0 (State.takeCommit s d src amount epoch) := by
  unfold State.takeCommit
  repeat' first
    | (with_reducible assumption)
    | (with_reducible exact Keeps.refl _)
    | (with_reducible apply State.modMer_keeps)
    | (intro)
    | (with_reducible apply Keeps.ite)

theorem execCommit_keeps {s0 s : State} (h : Keeps s0 s) (d : DieId) (src : DieId) (amount : Nat) (epoch : Nat) : OKeeps s0 (execCommit d src amount epoch s) := by
  unfold execCommit
  repeat' first
    | (with_reducible assumption)
    | (with_reducible exact Keeps.refl _)
    | (with_reducible apply OKeeps.next)
    | (with_reducible apply State.takeCommit_keeps)

theorem State.takeRelease_keeps {s0 s : State} (h : Keeps s0 s) (d : DieId) (src : DieId) (amount : Nat) (epoch : Nat) : Keeps s0 (State.takeRelease s d src amount epoch) := by
  unfold State.takeRelease
  repeat' first
    | (with_reducible assumption)
    | (with_reducible exact Keeps.refl _)
    | (with_reducible apply State.modMer_keeps)
    | (with_reducible apply State.rescale_keeps)
    | (dsimp only)
    | (intro)
    | (with_reducible apply Keeps.ite)

theorem execRelease_keeps {s0 s : State} (h : Keeps s0 s) (d : DieId) (src : DieId) (amount : Nat) (epoch : Nat) : OKeeps s0 (execRelease d src amount epoch s) := by
  unfold execRelease
  repeat' first
    | (with_reducible assumption)
    | (with_reducible exact Keeps.refl _)
    | (with_reducible apply OKeeps.next)
    | (with_reducible apply State.takeRelease_keeps)

end Sys2Proof.Machine
end

