-- ==== Sys2Proof/Laws/KeepsPlanOps.lean ====
section
/-! SUPPORT. The operations of Machine/PlanOps.lean keep what `Keeps` says. -/

namespace Sys2Proof.Machine
open Sys2Proof

theorem State.runTo_keeps {s0 s : State} (h : Keeps s0 s) (d : DieId) (r : Run) (cyc : Nat) : Keeps s0 (State.runTo s d r cyc) := by
  unfold State.runTo
  repeat' first
    | (with_reducible assumption)
    | (with_reducible exact Keeps.refl _)
    | (with_reducible apply State.advanceTo_keeps)
    | (with_reducible apply State.modRun_keeps)

theorem State.issue_keeps {s0 s : State} (h : Keeps s0 s) (d : DieId) (t : Nat) (hh : Nat) (op : Nat) (u : Nat) (v : Nat) (wait : State → Run → Rec → Option HoldCause) (eff : State → Run → Rec → Nat → State) (heff : ∀ u r e n, Keeps s0 u → Keeps s0 (eff u r e n)) : Keeps s0 (State.issue s d t hh op u v wait eff) := by
  unfold State.issue
  repeat' first
    | (with_reducible assumption)
    | (with_reducible exact Keeps.refl _)
    | (with_reducible apply State.countAct_keeps)
    | (with_reducible apply State.endRun_keeps)
    | (with_reducible apply State.modRun_keeps)
    | (with_reducible apply State.poisonWord_keeps)
    | (with_reducible apply State.runTo_keeps)
    | (with_reducible apply Keeps.foldl)
    | (with_reducible apply heff)
    | (dsimp only)
    | (intro)
    | (with_reducible apply Keeps.ite)
    | split

theorem State.issueNow_keeps {s0 s : State} (h : Keeps s0 s) (d : DieId) (t : Nat) (hh : Nat) (op : Nat) (u : Nat) (v : Nat) (eff : State → Run → Rec → Nat → State) (heff : ∀ u r e n, Keeps s0 u → Keeps s0 (eff u r e n)) : Keeps s0 (State.issueNow s d t hh op u v eff) := by
  unfold State.issueNow
  repeat' first
    | (with_reducible assumption)
    | (with_reducible exact Keeps.refl _)
    | (with_reducible apply State.issue_keeps)

theorem State.modUnit_keeps {s0 s : State} (h : Keeps s0 s) (d : DieId) (tile : Nat) (f : TileUnit → TileUnit) : Keeps s0 (State.modUnit s d tile f) := by
  unfold State.modUnit
  repeat' first
    | (with_reducible assumption)
    | (with_reducible exact Keeps.refl _)
    | (with_reducible apply State.modDie_keeps)
    | (exact fun _ hx => ⟨hx.1, hx.2, hx.3, hx.4, hx.5, hx.6⟩)

theorem State.lanes_keeps {s0 s : State} (h : Keeps s0 s) (d : DieId) (t : Nat) (hh : Nat) (op : Nat) (u : Nat) (v : Nat) (f : Rec → Nat → Nat → Nat → Nat) : Keeps s0 (State.lanes s d t hh op u v f) := by
  unfold State.lanes
  repeat' first
    | (with_reducible assumption)
    | (with_reducible exact Keeps.refl _)
    | (with_reducible apply State.issueNow_keeps)
    | (with_reducible apply State.modUnit_keeps)
    | (dsimp only)
    | (exact fun _ hx => ⟨hx.1, hx.2, hx.3, hx.4, hx.5, hx.6⟩)
    | (exact fun _ hx => ⟨hx.1, hx.2⟩)
    | (exact fun _ => Nat.le_refl _)
    | (exact fun _ ha hb => ⟨ha, hb⟩)
    | (exact Nat.le_refl _)
    | (intro)

theorem execNop_keeps {s0 s : State} (h : Keeps s0 s) (d : DieId) (t : Nat) (hh : Nat) (u : Nat) (v : Nat) : OKeeps s0 (execNop d t hh u v s) := by
  unfold execNop
  repeat' first
    | (with_reducible assumption)
    | (with_reducible exact Keeps.refl _)
    | (with_reducible apply OKeeps.next)
    | (with_reducible apply State.issueNow_keeps)
    | (exact fun _ hx => ⟨hx.1, hx.2, hx.3, hx.4, hx.5, hx.6⟩)
    | (exact fun _ hx => ⟨hx.1, hx.2⟩)
    | (exact fun _ => Nat.le_refl _)
    | (exact fun _ ha hb => ⟨ha, hb⟩)
    | (exact Nat.le_refl _)
    | (intro)

theorem execMloadw_keeps {s0 s : State} (h : Keeps s0 s) (d : DieId) (t : Nat) (hh : Nat) (u : Nat) (v : Nat) : OKeeps s0 (execMloadw d t hh u v s) := by
  unfold execMloadw
  repeat' first
    | (with_reducible assumption)
    | (with_reducible exact Keeps.refl _)
    | (with_reducible apply OKeeps.next)
    | (with_reducible apply State.issueNow_keeps)
    | (with_reducible apply State.modUnit_keeps)
    | (dsimp only)
    | (exact fun _ hx => ⟨hx.1, hx.2, hx.3, hx.4, hx.5, hx.6⟩)
    | (exact fun _ hx => ⟨hx.1, hx.2⟩)
    | (exact fun _ => Nat.le_refl _)
    | (exact fun _ ha hb => ⟨ha, hb⟩)
    | (exact Nat.le_refl _)
    | (intro)

theorem execMswap_keeps {s0 s : State} (h : Keeps s0 s) (d : DieId) (t : Nat) (hh : Nat) (u : Nat) (v : Nat) : OKeeps s0 (execMswap d t hh u v s) := by
  unfold execMswap
  repeat' first
    | (with_reducible assumption)
    | (with_reducible exact Keeps.refl _)
    | (with_reducible apply OKeeps.next)
    | (with_reducible apply State.issueNow_keeps)
    | (with_reducible apply State.modUnit_keeps)
    | (exact fun _ hx => ⟨hx.1, hx.2, hx.3, hx.4, hx.5, hx.6⟩)
    | (exact fun _ hx => ⟨hx.1, hx.2⟩)
    | (exact fun _ => Nat.le_refl _)
    | (exact fun _ ha hb => ⟨ha, hb⟩)
    | (exact Nat.le_refl _)
    | (intro)

theorem State.mma_keeps {s0 s : State} (h : Keeps s0 s) (d : DieId) (q : Rec) (tile : Nat) : Keeps s0 (State.mma s d q tile) := by
  unfold State.mma
  repeat' first
    | (with_reducible assumption)
    | (with_reducible exact Keeps.refl _)
    | (with_reducible apply State.skipFree_keeps)
    | (with_reducible apply State.modUnit_keeps)

theorem execMma_keeps {s0 s : State} (h : Keeps s0 s) (d : DieId) (t : Nat) (hh : Nat) (u : Nat) (v : Nat) : OKeeps s0 (execMma d t hh u v s) := by
  unfold execMma
  repeat' first
    | (with_reducible assumption)
    | (with_reducible exact Keeps.refl _)
    | (with_reducible apply OKeeps.next)
    | (with_reducible apply State.issueNow_keeps)
    | (with_reducible apply State.mma_keeps)
    | (exact fun _ hx => ⟨hx.1, hx.2, hx.3, hx.4, hx.5, hx.6⟩)
    | (exact fun _ hx => ⟨hx.1, hx.2⟩)
    | (exact fun _ => Nat.le_refl _)
    | (exact fun _ ha hb => ⟨ha, hb⟩)
    | (exact Nat.le_refl _)
    | (intro)

theorem execMdrain_keeps {s0 s : State} (h : Keeps s0 s) (d : DieId) (t : Nat) (hh : Nat) (u : Nat) (v : Nat) : OKeeps s0 (execMdrain d t hh u v s) := by
  unfold execMdrain
  repeat' first
    | (with_reducible assumption)
    | (with_reducible exact Keeps.refl _)
    | (with_reducible apply OKeeps.next)
    | (with_reducible apply State.issueNow_keeps)
    | (with_reducible apply State.sramWrite_keeps)
    | (dsimp only)
    | (intro)

theorem execMzero_keeps {s0 s : State} (h : Keeps s0 s) (d : DieId) (t : Nat) (hh : Nat) (u : Nat) (v : Nat) : OKeeps s0 (execMzero d t hh u v s) := by
  unfold execMzero
  repeat' first
    | (with_reducible assumption)
    | (with_reducible exact Keeps.refl _)
    | (with_reducible apply OKeeps.next)
    | (with_reducible apply State.issueNow_keeps)
    | (with_reducible apply State.modUnit_keeps)
    | (exact fun _ hx => ⟨hx.1, hx.2, hx.3, hx.4, hx.5, hx.6⟩)
    | (exact fun _ hx => ⟨hx.1, hx.2⟩)
    | (exact fun _ => Nat.le_refl _)
    | (exact fun _ ha hb => ⟨ha, hb⟩)
    | (exact Nat.le_refl _)
    | (intro)

theorem execVload_keeps {s0 s : State} (h : Keeps s0 s) (d : DieId) (t : Nat) (hh : Nat) (u : Nat) (v : Nat) : OKeeps s0 (execVload d t hh u v s) := by
  unfold execVload
  repeat' first
    | (with_reducible assumption)
    | (with_reducible exact Keeps.refl _)
    | (with_reducible apply OKeeps.next)
    | (with_reducible apply State.issueNow_keeps)
    | (with_reducible apply State.modUnit_keeps)
    | (with_reducible apply Keeps.foldl)
    | (dsimp only)
    | (exact fun _ hx => ⟨hx.1, hx.2, hx.3, hx.4, hx.5, hx.6⟩)
    | (exact fun _ hx => ⟨hx.1, hx.2⟩)
    | (exact fun _ => Nat.le_refl _)
    | (exact fun _ ha hb => ⟨ha, hb⟩)
    | (exact Nat.le_refl _)
    | (intro)

theorem execVstore_keeps {s0 s : State} (h : Keeps s0 s) (d : DieId) (t : Nat) (hh : Nat) (u : Nat) (v : Nat) : OKeeps s0 (execVstore d t hh u v s) := by
  unfold execVstore
  repeat' first
    | (with_reducible assumption)
    | (with_reducible exact Keeps.refl _)
    | (with_reducible apply OKeeps.next)
    | (with_reducible apply State.issueNow_keeps)
    | (with_reducible apply State.sramWrite_keeps)
    | (dsimp only)
    | (exact fun _ hx => ⟨hx.1, hx.2, hx.3, hx.4, hx.5, hx.6⟩)
    | (exact fun _ hx => ⟨hx.1, hx.2⟩)
    | (exact fun _ => Nat.le_refl _)
    | (exact fun _ ha hb => ⟨ha, hb⟩)
    | (exact Nat.le_refl _)
    | (intro)

theorem execVadd_keeps {s0 s : State} (h : Keeps s0 s) (d : DieId) (t : Nat) (hh : Nat) (u : Nat) (v : Nat) : OKeeps s0 (execVadd d t hh u v s) := by
  unfold execVadd
  repeat' first
    | (with_reducible assumption)
    | (with_reducible exact Keeps.refl _)
    | (with_reducible apply OKeeps.next)
    | (with_reducible apply State.lanes_keeps)

theorem execVmul_keeps {s0 s : State} (h : Keeps s0 s) (d : DieId) (t : Nat) (hh : Nat) (u : Nat) (v : Nat) : OKeeps s0 (execVmul d t hh u v s) := by
  unfold execVmul
  repeat' first
    | (with_reducible assumption)
    | (with_reducible exact Keeps.refl _)
    | (with_reducible apply OKeeps.next)
    | (with_reducible apply State.lanes_keeps)

theorem execVfma_keeps {s0 s : State} (h : Keeps s0 s) (d : DieId) (t : Nat) (hh : Nat) (u : Nat) (v : Nat) : OKeeps s0 (execVfma d t hh u v s) := by
  unfold execVfma
  repeat' first
    | (with_reducible assumption)
    | (with_reducible exact Keeps.refl _)
    | (with_reducible apply OKeeps.next)
    | (with_reducible apply State.lanes_keeps)

theorem execVmax_keeps {s0 s : State} (h : Keeps s0 s) (d : DieId) (t : Nat) (hh : Nat) (u : Nat) (v : Nat) : OKeeps s0 (execVmax d t hh u v s) := by
  unfold execVmax
  repeat' first
    | (with_reducible assumption)
    | (with_reducible exact Keeps.refl _)
    | (with_reducible apply OKeeps.next)
    | (with_reducible apply State.lanes_keeps)

theorem execVexp2_keeps {s0 s : State} (h : Keeps s0 s) (d : DieId) (t : Nat) (hh : Nat) (u : Nat) (v : Nat) : OKeeps s0 (execVexp2 d t hh u v s) := by
  unfold execVexp2
  repeat' first
    | (with_reducible assumption)
    | (with_reducible exact Keeps.refl _)
    | (with_reducible apply OKeeps.next)
    | (with_reducible apply State.lanes_keeps)

theorem execVrcp_keeps {s0 s : State} (h : Keeps s0 s) (d : DieId) (t : Nat) (hh : Nat) (u : Nat) (v : Nat) : OKeeps s0 (execVrcp d t hh u v s) := by
  unfold execVrcp
  repeat' first
    | (with_reducible assumption)
    | (with_reducible exact Keeps.refl _)
    | (with_reducible apply OKeeps.next)
    | (with_reducible apply State.lanes_keeps)

theorem execVrsqrt_keeps {s0 s : State} (h : Keeps s0 s) (d : DieId) (t : Nat) (hh : Nat) (u : Nat) (v : Nat) : OKeeps s0 (execVrsqrt d t hh u v s) := by
  unfold execVrsqrt
  repeat' first
    | (with_reducible assumption)
    | (with_reducible exact Keeps.refl _)
    | (with_reducible apply OKeeps.next)
    | (with_reducible apply State.lanes_keeps)

theorem execVred_keeps {s0 s : State} (h : Keeps s0 s) (d : DieId) (t : Nat) (hh : Nat) (u : Nat) (v : Nat) : OKeeps s0 (execVred d t hh u v s) := by
  unfold execVred
  repeat' first
    | (with_reducible assumption)
    | (with_reducible exact Keeps.refl _)
    | (with_reducible apply OKeeps.next)
    | (with_reducible apply State.issueNow_keeps)
    | (with_reducible apply State.modUnit_keeps)
    | (exact fun _ hx => ⟨hx.1, hx.2, hx.3, hx.4, hx.5, hx.6⟩)
    | (exact fun _ hx => ⟨hx.1, hx.2⟩)
    | (exact fun _ => Nat.le_refl _)
    | (exact fun _ ha hb => ⟨ha, hb⟩)
    | (exact Nat.le_refl _)
    | (intro)

theorem execVscale_keeps {s0 s : State} (h : Keeps s0 s) (d : DieId) (t : Nat) (hh : Nat) (u : Nat) (v : Nat) : OKeeps s0 (execVscale d t hh u v s) := by
  unfold execVscale
  repeat' first
    | (with_reducible assumption)
    | (with_reducible exact Keeps.refl _)
    | (with_reducible apply OKeeps.next)
    | (with_reducible apply State.lanes_keeps)

theorem execVacc_keeps {s0 s : State} (h : Keeps s0 s) (d : DieId) (t : Nat) (hh : Nat) (u : Nat) (v : Nat) : OKeeps s0 (execVacc d t hh u v s) := by
  unfold execVacc
  repeat' first
    | (with_reducible assumption)
    | (with_reducible exact Keeps.refl _)
    | (with_reducible apply OKeeps.next)
    | (with_reducible apply State.issueNow_keeps)
    | (with_reducible apply State.modUnit_keeps)
    | (dsimp only)
    | (intro)

theorem execMcopy_keeps {s0 s : State} (h : Keeps s0 s) (d : DieId) (t : Nat) (hh : Nat) (u : Nat) (v : Nat) : OKeeps s0 (execMcopy d t hh u v s) := by
  unfold execMcopy
  repeat' first
    | (with_reducible assumption)
    | (with_reducible exact Keeps.refl _)
    | (with_reducible apply OKeeps.next)
    | (with_reducible apply State.issueNow_keeps)
    | (with_reducible apply State.sramWrite_keeps)
    | (dsimp only)
    | (exact fun _ hx => ⟨hx.1, hx.2, hx.3, hx.4, hx.5, hx.6⟩)
    | (exact fun _ hx => ⟨hx.1, hx.2⟩)
    | (exact fun _ => Nat.le_refl _)
    | (exact fun _ ha hb => ⟨ha, hb⟩)
    | (exact Nat.le_refl _)
    | (intro)

theorem execMfill_keeps {s0 s : State} (h : Keeps s0 s) (d : DieId) (t : Nat) (hh : Nat) (u : Nat) (v : Nat) : OKeeps s0 (execMfill d t hh u v s) := by
  unfold execMfill
  repeat' first
    | (with_reducible assumption)
    | (with_reducible exact Keeps.refl _)
    | (with_reducible apply OKeeps.next)
    | (with_reducible apply State.issueNow_keeps)
    | (with_reducible apply State.sramWrite_keeps)
    | (exact fun _ hx => ⟨hx.1, hx.2, hx.3, hx.4, hx.5, hx.6⟩)
    | (exact fun _ hx => ⟨hx.1, hx.2⟩)
    | (exact fun _ => Nat.le_refl _)
    | (exact fun _ ha hb => ⟨ha, hb⟩)
    | (exact Nat.le_refl _)
    | (intro)

theorem execMgather_keeps {s0 s : State} (h : Keeps s0 s) (d : DieId) (t : Nat) (hh : Nat) (u : Nat) (v : Nat) : OKeeps s0 (execMgather d t hh u v s) := by
  unfold execMgather
  repeat' first
    | (with_reducible assumption)
    | (with_reducible exact Keeps.refl _)
    | (with_reducible apply OKeeps.next)
    | (with_reducible apply State.issueNow_keeps)
    | (with_reducible apply State.sramFree_keeps)
    | (with_reducible apply State.sramWrite_keeps)
    | (with_reducible apply Keeps.foldl)
    | (dsimp only)
    | split
    | (exact fun _ hx => ⟨hx.1, hx.2, hx.3, hx.4, hx.5, hx.6⟩)
    | (exact fun _ hx => ⟨hx.1, hx.2⟩)
    | (exact fun _ => Nat.le_refl _)
    | (exact fun _ ha hb => ⟨ha, hb⟩)
    | (exact Nat.le_refl _)
    | (intro)

theorem execFsend_keeps {s0 s : State} (h : Keeps s0 s) (d : DieId) (t : Nat) (hh : Nat) (u : Nat) (v : Nat) : OKeeps s0 (execFsend d t hh u v s) := by
  unfold execFsend
  repeat' first
    | (with_reducible assumption)
    | (with_reducible exact Keeps.refl _)
    | (with_reducible apply OKeeps.next)
    | (with_reducible apply State.issue_keeps)
    | (with_reducible apply State.modTx_keeps)
    | (with_reducible apply State.pump_keeps)
    | (dsimp only)
    | (intro)
    | (with_reducible apply OKeeps.ite)
    | (with_reducible apply Keeps.ite)
    | split

theorem State.returnCredit_keeps {s0 s : State} (h : Keeps s0 s) (d : DieId) (f : RxFlow) (n : Nat) : Keeps s0 (State.returnCredit s d f n) := by
  unfold State.returnCredit
  repeat' first
    | (with_reducible assumption)
    | (with_reducible exact Keeps.refl _)
    | (with_reducible apply State.modRx_keeps)
    | (with_reducible apply State.sendRecord_keeps)
    | (with_reducible apply Keeps.foldl)
    | (dsimp only)
    | (intro)
    | (with_reducible apply Keeps.ite)

theorem execFrecv_keeps {s0 s : State} (h : Keeps s0 s) (d : DieId) (t : Nat) (hh : Nat) (u : Nat) (v : Nat) : OKeeps s0 (execFrecv d t hh u v s) := by
  unfold execFrecv
  repeat' first
    | (with_reducible assumption)
    | (with_reducible exact Keeps.refl _)
    | (with_reducible apply OKeeps.next)
    | (with_reducible apply State.issue_keeps)
    | (with_reducible apply State.modRx_keeps)
    | (with_reducible apply State.returnCredit_keeps)
    | (with_reducible apply State.sramWrite_keeps)
    | (dsimp only)
    | (intro)
    | (with_reducible apply OKeeps.ite)
    | (with_reducible apply Keeps.ite)
    | split

theorem State.modBank_keeps {s0 s : State} (h : Keeps s0 s) (d : DieId) (b : Nat) (f : Bank → Bank) : Keeps s0 (State.modBank s d b f) := by
  unfold State.modBank
  repeat' first
    | (with_reducible assumption)
    | (with_reducible exact Keeps.refl _)
    | (with_reducible apply State.modDie_keeps)
    | (exact fun _ hx => ⟨hx.1, hx.2, hx.3, hx.4, hx.5, hx.6⟩)

theorem execSload_keeps {s0 s : State} (h : Keeps s0 s) (d : DieId) (t : Nat) (hh : Nat) : OKeeps s0 (execSload d t hh s) := by
  unfold execSload
  repeat' first
    | (with_reducible assumption)
    | (with_reducible exact Keeps.refl _)
    | (with_reducible apply OKeeps.next)
    | (with_reducible apply State.issueNow_keeps)
    | (with_reducible apply State.modBank_keeps)
    | (dsimp only)
    | (exact fun _ hx => ⟨hx.1, hx.2, hx.3, hx.4, hx.5, hx.6⟩)
    | (exact fun _ hx => ⟨hx.1, hx.2⟩)
    | (exact fun _ => Nat.le_refl _)
    | (exact fun _ ha hb => ⟨ha, hb⟩)
    | (exact Nat.le_refl _)
    | (intro)

theorem execSstream_keeps {s0 s : State} (h : Keeps s0 s) (d : DieId) (t : Nat) (hh : Nat) : OKeeps s0 (execSstream d t hh s) := by
  unfold execSstream
  apply OKeeps.next
  apply State.issueNow_keeps h
  intro u r e n hu
  dsimp only
  apply Keeps.foldl
  · intro u i hu
    split
    · exact hu
    · exact State.modBank_keeps hu _ _ _
  · exact State.skipFree_keeps hu _

theorem execSselect_keeps {s0 s : State} (h : Keeps s0 s) (d : DieId) (t : Nat) (hh : Nat) : OKeeps s0 (execSselect d t hh s) := by
  unfold execSselect
  repeat' first
    | (with_reducible assumption)
    | (with_reducible exact Keeps.refl _)
    | (with_reducible apply OKeeps.next)
    | (with_reducible apply State.modDie_keeps)
    | (with_reducible apply State.issueNow_keeps)
    | (with_reducible apply State.modRun_keeps)
    | (with_reducible apply State.modUnit_keeps)
    | (with_reducible apply State.sramWrite_keeps)
    | (with_reducible apply Keeps.foldl)
    | (dsimp only)
    | (exact fun _ hx => ⟨hx.1, hx.2, hx.3, hx.4, hx.5, hx.6⟩)
    | (exact fun _ hx => ⟨hx.1, hx.2⟩)
    | (exact fun _ => Nat.le_refl _)
    | (exact fun _ ha hb => ⟨ha, hb⟩)
    | (exact Nat.le_refl _)
    | (intro)

theorem execSblank_keeps {s0 s : State} (h : Keeps s0 s) (d : DieId) (t : Nat) (hh : Nat) : OKeeps s0 (execSblank d t hh s) := by
  unfold execSblank
  repeat' first
    | (with_reducible assumption)
    | (with_reducible exact Keeps.refl _)
    | (with_reducible apply OKeeps.next)
    | (with_reducible apply State.modDie_keeps)
    | (with_reducible apply State.issueNow_keeps)
    | (intro)
    | (with_reducible apply OKeeps.ite)
    | (with_reducible apply Keeps.ite)
    | split
    | (exact fun _ hx => ⟨hx.1, hx.2, hx.3, hx.4, hx.5, hx.6⟩)
    | (exact fun _ hx => ⟨hx.1, hx.2⟩)
    | (exact fun _ => Nat.le_refl _)
    | (exact fun _ ha hb => ⟨ha, hb⟩)
    | (apply DieInv.same <;> first | assumption | rfl)

theorem State.takeRelease11_keeps {s0 s : State} (h : Keeps s0 s) (d : DieId) (t : Nat) (id : Nat) (n : Nat) : Keeps s0 (State.takeRelease11 s d t id n) := by
  unfold State.takeRelease11
  repeat' first
    | (with_reducible assumption)
    | (with_reducible exact Keeps.refl _)
    | (with_reducible apply State.modDie_keeps)
    | (dsimp only)
    | (intro)
    | (with_reducible apply Keeps.ite)
    | split
    | (exact fun _ hx => ⟨hx.1, hx.2, hx.3, hx.4, hx.5, hx.6⟩)
    | (exact fun _ hx => ⟨hx.1, hx.2⟩)
    | (exact fun _ => Nat.le_refl _)
    | (exact fun _ ha hb => ⟨ha, hb⟩)
    | (apply DieInv.same <;> first | assumption | rfl)

theorem State.takeArrival_keeps {s0 s : State} (h : Keeps s0 s) (d : DieId) (src : Nat) (t : Nat) (id : Nat) (n : Nat) (parts : Nat) : Keeps s0 (State.takeArrival s d src t id n parts) := by
  unfold State.takeArrival
  repeat' first
    | (with_reducible assumption)
    | (with_reducible exact Keeps.refl _)
    | (with_reducible apply State.modDie_keeps)
    | (with_reducible apply State.sendRecord_keeps)
    | (with_reducible apply State.takeRelease11_keeps)
    | (with_reducible apply Keeps.foldl)
    | (dsimp only)
    | (intro)
    | (with_reducible apply Keeps.ite)
    | split
    | (exact fun _ hx => ⟨hx.1, hx.2, hx.3, hx.4, hx.5, hx.6⟩)
    | (exact fun _ hx => ⟨hx.1, hx.2⟩)
    | (exact fun _ => Nat.le_refl _)
    | (exact fun _ ha hb => ⟨ha, hb⟩)
    | (apply DieInv.same <;> first | assumption | rfl)

theorem State.sendArrival_keeps {s0 s : State} (h : Keeps s0 s) (d : DieId) (t : Nat) (hh : Nat) (q : Nat) (pos : Nat) : Keeps s0 (State.sendArrival s d t hh q pos) := by
  unfold State.sendArrival
  repeat' first
    | (with_reducible assumption)
    | (with_reducible exact Keeps.refl _)
    | (with_reducible apply State.modRun_keeps)
    | (with_reducible apply State.sendRecord_keeps)
    | (with_reducible apply State.takeArrival_keeps)
    | (dsimp only)
    | (intro)
    | (with_reducible apply Keeps.ite)
    | split

theorem execBarrier_keeps {s0 s : State} (h : Keeps s0 s) (d : DieId) (t : Nat) (hh : Nat) : OKeeps s0 (execBarrier d t hh s) := by
  unfold execBarrier
  repeat' first
    | (with_reducible assumption)
    | (with_reducible exact Keeps.refl _)
    | (with_reducible apply OKeeps.next)
    | (with_reducible apply State.issue_keeps)
    | (with_reducible apply State.modRun_keeps)
    | (with_reducible apply State.sendArrival_keeps)
    | (dsimp only)
    | (intro)
    | (with_reducible apply OKeeps.ite)
    | (with_reducible apply Keeps.ite)
    | split

theorem State.haltHere_keeps {s0 s : State} (h : Keeps s0 s) (d : DieId) (r : Run) : Keeps s0 (State.haltHere s d r) := by
  unfold State.haltHere
  repeat' first
    | (with_reducible assumption)
    | (with_reducible exact Keeps.refl _)
    | (with_reducible apply State.modDie_keeps)
    | (with_reducible apply State.clearRegion_keeps)
    | (intro)
    | (with_reducible apply Keeps.ite)
    | split
    | (exact fun _ hx => ⟨hx.1, hx.2, hx.3, hx.4, hx.5, hx.6⟩)
    | (exact fun _ hx => ⟨hx.1, hx.2⟩)
    | (exact fun _ => Nat.le_refl _)
    | (exact fun _ ha hb => ⟨ha, hb⟩)
    | (apply DieInv.same <;> first | assumption | rfl)

theorem execHaltpt_keeps {s0 s : State} (h : Keeps s0 s) (d : DieId) (t : Nat) (hh : Nat) : OKeeps s0 (execHaltpt d t hh s) := by
  unfold execHaltpt
  repeat' first
    | (with_reducible assumption)
    | (with_reducible exact Keeps.refl _)
    | (with_reducible apply OKeeps.next)
    | (with_reducible apply State.haltHere_keeps)
    | (with_reducible apply State.issueNow_keeps)
    | (with_reducible apply State.modRun_keeps)
    | (intro)
    | (with_reducible apply OKeeps.ite)
    | (with_reducible apply Keeps.ite)

theorem execEnd_keeps {s0 s : State} (h : Keeps s0 s) (d : DieId) (t : Nat) (hh : Nat) : OKeeps s0 (execEnd d t hh s) := by
  unfold execEnd
  repeat' first
    | (with_reducible assumption)
    | (with_reducible exact Keeps.refl _)
    | (with_reducible apply OKeeps.next)
    | (with_reducible apply State.endRun_keeps)
    | (with_reducible apply State.issueNow_keeps)
    | (with_reducible apply State.modRun_keeps)
    | (exact fun _ hx => ⟨hx.1, hx.2, hx.3, hx.4, hx.5, hx.6⟩)
    | (exact fun _ hx => ⟨hx.1, hx.2⟩)
    | (exact fun _ => Nat.le_refl _)
    | (exact fun _ ha hb => ⟨ha, hb⟩)
    | (exact Nat.le_refl _)
    | (intro)

end Sys2Proof.Machine
end

