-- ==== Sys2Proof/Laws/KeepsRecords.lean ====
section
/-! SUPPORT. The operations of Machine/Records.lean keep what `Keeps` says. -/

namespace Sys2Proof.Machine
open Sys2Proof

theorem State.takeHello_keeps {s0 s : State} (h : Keeps s0 s) (d : DieId) (p : Nat) (group : Nat) (id : Nat) (farPort : Nat) (serial : List Byte) : Keeps s0 (State.takeHello s d p group id farPort serial) := by
  unfold State.takeHello
  repeat' first
    | (with_reducible assumption)
    | (with_reducible exact Keeps.refl _)
    | (with_reducible apply State.modPort_keeps)

theorem State.applyRxMap_keeps {s0 s : State} (h : Keeps s0 s) (d : DieId) (p : Nat) (m : List (Option Nat)) : Keeps s0 (State.applyRxMap s d p m) := by
  unfold State.applyRxMap
  repeat' first
    | (with_reducible assumption)
    | (with_reducible exact Keeps.refl _)
    | (with_reducible apply State.logDie_keeps)
    | (with_reducible apply State.modPort_keeps)
    | (dsimp only)
    | (intro)
    | (with_reducible apply Keeps.ite)

theorem State.takeLanemap_keeps {s0 s : State} (h : Keeps s0 s) (d : DieId) (p : Nat) (seq : Nat) (lines : List Nat) : Keeps s0 (State.takeLanemap s d p seq lines) := by
  unfold State.takeLanemap
  repeat' first
    | (with_reducible assumption)
    | (with_reducible exact Keeps.refl _)
    | (with_reducible apply State.applyRxMap_keeps)
    | (with_reducible apply State.modPort_keeps)
    | (dsimp only)
    | (intro)
    | (with_reducible apply Keeps.ite)

theorem State.calOut_keeps {s0 s : State} (h : Keeps s0 s) (d : DieId) (p : Nat) (line : Nat) : Keeps s0 (State.calOut s d p line) := by
  unfold State.calOut
  repeat' first
    | (with_reducible assumption)
    | (with_reducible exact Keeps.refl _)
    | (with_reducible apply State.modPort_keeps)
    | (with_reducible apply State.refit_keeps)

theorem State.takeCalStart_keeps {s0 s : State} (h : Keeps s0 s) (d : DieId) (p : Nat) (line : Nat) : Keeps s0 (State.takeCalStart s d p line) := by
  unfold State.takeCalStart
  repeat' first
    | (with_reducible assumption)
    | (with_reducible exact Keeps.refl _)
    | (with_reducible apply State.calOut_keeps)
    | (dsimp only)
    | (intro)
    | (with_reducible apply Keeps.ite)

theorem State.calFinish_keeps {s0 s : State} (h : Keeps s0 s) (d : DieId) (p : Nat) (line : Nat) (failed : Bool) : Keeps s0 (State.calFinish s d p line failed) := by
  unfold State.calFinish
  repeat' first
    | (with_reducible assumption)
    | (with_reducible exact Keeps.refl _)
    | (with_reducible apply State.modDie_keeps)
    | (with_reducible apply State.skipFree_keeps)
    | (with_reducible apply State.refit_keeps)
    | (with_reducible apply Keeps.foldl)
    | (dsimp only)
    | (intro)
    | (with_reducible apply Keeps.ite)
    | split
    | (exact fun _ hx => ⟨hx.1, hx.2, hx.3, hx.4, hx.5, hx.6⟩)
    | (exact fun _ hx => ⟨hx.1, hx.2⟩)
    | (exact fun _ => Nat.le_refl _)
    | (exact fun _ ha hb => ⟨ha, hb⟩)
    | (apply DieInv.same <;> first | assumption | rfl)

theorem State.takeCalEnd_keeps {s0 s : State} (h : Keeps s0 s) (d : DieId) (p : Nat) (line : Nat) (failed : Bool) : Keeps s0 (State.takeCalEnd s d p line failed) := by
  unfold State.takeCalEnd
  repeat' first
    | (with_reducible assumption)
    | (with_reducible exact Keeps.refl _)
    | (with_reducible apply State.calFinish_keeps)
    | (intro)
    | (with_reducible apply Keeps.ite)

theorem State.takeStatus_keeps {s0 s : State} (h : Keeps s0 s) (d : DieId) (p : Nat) (stage3 : Int) (stage5 : List Int) : Keeps s0 (State.takeStatus s d p stage3 stage5) := by
  unfold State.takeStatus
  repeat' first
    | (with_reducible assumption)
    | (with_reducible exact Keeps.refl _)
    | (with_reducible apply State.localise_keeps)
    | (with_reducible apply State.modPort_keeps)
    | (dsimp only)
    | (intro)
    | (with_reducible apply Keeps.ite)

theorem State.takeLowrate_keeps {s0 s : State} (h : Keeps s0 s) (d : DieId) (p : Nat) (back : Bool) (line : Nat) : Keeps s0 (State.takeLowrate s d p back line) := by
  unfold State.takeLowrate
  repeat' first
    | (with_reducible assumption)
    | (with_reducible exact Keeps.refl _)
    | (with_reducible apply State.drainRecords_keeps)
    | (with_reducible apply State.modPort_keeps)
    | (with_reducible apply State.pumpPort_keeps)
    | (with_reducible apply State.stopCal_keeps)
    | (dsimp only)
    | (intro)
    | (with_reducible apply Keeps.ite)

theorem State.sendOpen_keeps {s0 s : State} (h : Keeps s0 s) (d : DieId) (p : Nat) (r : OpenRec) : Keeps s0 (State.sendOpen s d p r) := by
  unfold State.sendOpen
  repeat' first
    | (with_reducible assumption)
    | (with_reducible exact Keeps.refl _)
    | (with_reducible apply State.putRecord_keeps)

theorem State.refuseOpen_keeps {s0 s : State} (h : Keeps s0 s) (d : DieId) (r : OpenRec) : Keeps s0 (State.refuseOpen s d r) := by
  unfold State.refuseOpen
  repeat' first
    | (with_reducible assumption)
    | (with_reducible exact Keeps.refl _)
    | (with_reducible apply State.loseFlow_keeps)
    | (with_reducible apply State.tellLost_keeps)
    | (dsimp only)
    | (intro)
    | (with_reducible apply Keeps.ite)

theorem State.installRx_keeps {s0 s : State} (h : Keeps s0 s) (d : DieId) (f : RxFlow) (label : Nat) : Keeps s0 (State.installRx s d f label) := by
  unfold State.installRx
  repeat' first
    | (with_reducible assumption)
    | (with_reducible exact Keeps.refl _)
    | (with_reducible apply State.modRx_keeps)
    | (with_reducible apply State.sendRecord_keeps)

theorem State.takeOpen_keeps {s0 s : State} (h : Keeps s0 s) (d : DieId) (p : Nat) (r : OpenRec) : Keeps s0 (State.takeOpen s d p r) := by
  unfold State.takeOpen
  apply Keeps.ite
  · dsimp only
    split
    · exact State.refuseOpen_keeps h _ _
    · apply Keeps.ite
      · exact State.refuseOpen_keeps h _ _
      · apply State.sendOpen_keeps
        apply State.modPort_keeps
        apply State.modDie_keeps
        · apply Keeps.foldl _ _ h
          intro u e hu
          exact State.freeLabel_keeps hu _ _ _
        · exact fun _ hx => ⟨hx.1, hx.2, hx.3, hx.4, hx.5, hx.6⟩
  · apply Keeps.ite
    · exact State.refuseOpen_keeps h _ _
    · split
      · apply Keeps.ite
        · exact State.refuseOpen_keeps h _ _
        · exact State.installRx_keeps h _ _ _
      · apply Keeps.ite
        · exact State.refuseOpen_keeps h _ _
        · exact State.modDie_keeps h _ _ fun _ hx => ⟨hx.1, hx.2, hx.3, hx.4, hx.5, hx.6⟩

theorem State.takeOpenDone_keeps {s0 s : State} (h : Keeps s0 s) (d : DieId) (t : Nat) (id : Nat) (allot : Nat) : Keeps s0 (State.takeOpenDone s d t id allot) := by
  unfold State.takeOpenDone
  repeat' first
    | (with_reducible assumption)
    | (with_reducible exact Keeps.refl _)
    | (with_reducible apply State.modTx_keeps)
    | (with_reducible apply State.pump_keeps)

theorem State.takeCredit_keeps {s0 s : State} (h : Keeps s0 s) (d : DieId) (t : Nat) (id : Nat) (n : Nat) : Keeps s0 (State.takeCredit s d t id n) := by
  unfold State.takeCredit
  repeat' first
    | (with_reducible assumption)
    | (with_reducible exact Keeps.refl _)
    | (with_reducible apply State.modTx_keeps)
    | (with_reducible apply State.pump_keeps)

theorem State.tagDiscard_keeps {s0 s : State} (h : Keeps s0 s) (d : DieId) (p : Nat) (label : Nat) : Keeps s0 (State.tagDiscard s d p label) := by
  unfold State.tagDiscard
  repeat' first
    | (with_reducible assumption)
    | (with_reducible exact Keeps.refl _)
    | (with_reducible apply State.modDie_keeps)
    | (with_reducible apply State.logDie_keeps)
    | (dsimp only)
    | (intro)
    | (with_reducible apply Keeps.ite)
    | split
    | (exact fun _ hx => ⟨hx.1, hx.2, hx.3, hx.4, hx.5, hx.6⟩)
    | (exact fun _ hx => ⟨hx.1, hx.2⟩)
    | (exact fun _ => Nat.le_refl _)
    | (exact fun _ ha hb => ⟨ha, hb⟩)
    | (exact fun _ => Nat.add_le_add_left (Nat.le_max_left _ _) _)
    | (exact fun _ => Nat.add_le_add_left (Nat.le_add_right _ _) _)
    | (apply DieInv.same <;> first | assumption | rfl)

theorem State.takeData_keeps {s0 s : State} (h : Keeps s0 s) (d : DieId) (p : Nat) (last : Bool) (label : Nat) (t : Nat) (fseq : Nat) (pay : List Byte) : Keeps s0 (State.takeData s d p last label t fseq pay) := by
  unfold State.takeData
  repeat' first
    | (with_reducible assumption)
    | (with_reducible exact Keeps.refl _)
    | (with_reducible apply State.modDie_keeps)
    | (with_reducible apply State.modPort_keeps)
    | (with_reducible apply State.modRx_keeps)
    | (with_reducible apply State.pumpPort_keeps)
    | (with_reducible apply State.tagDiscard_keeps)
    | (dsimp only)
    | (intro)
    | (with_reducible apply Keeps.ite)
    | split
    | (exact fun _ hx => ⟨hx.1, hx.2, hx.3, hx.4, hx.5, hx.6⟩)
    | (exact fun _ hx => ⟨hx.1, hx.2⟩)
    | (exact fun _ => Nat.le_refl _)
    | (exact fun _ ha hb => ⟨ha, hb⟩)
    | (apply DieInv.same <;> first | assumption | rfl)

theorem State.takeClose_keeps {s0 s : State} (h : Keeps s0 s) (d : DieId) (p : Nat) (label : Nat) (t : Nat) (fseq : Nat) : Keeps s0 (State.takeClose s d p label t fseq) := by
  unfold State.takeClose
  repeat' first
    | (with_reducible assumption)
    | (with_reducible exact Keeps.refl _)
    | (with_reducible apply State.modDie_keeps)
    | (with_reducible apply State.freeLabel_keeps)
    | (with_reducible apply State.modPort_keeps)
    | (with_reducible apply State.modRx_keeps)
    | (with_reducible apply State.pumpPort_keeps)
    | (with_reducible apply State.tagDiscard_keeps)
    | (dsimp only)
    | (intro)
    | (with_reducible apply Keeps.ite)
    | split
    | (exact fun _ hx => ⟨hx.1, hx.2, hx.3, hx.4, hx.5, hx.6⟩)
    | (exact fun _ hx => ⟨hx.1, hx.2⟩)
    | (exact fun _ => Nat.le_refl _)
    | (exact fun _ ha hb => ⟨ha, hb⟩)
    | (apply DieInv.same <;> first | assumption | rfl)

theorem State.takeTenantHalt_keeps {s0 s : State} (h : Keeps s0 s) (d : DieId) (t : Nat) (all : Bool) (ids : List Nat) : Keeps s0 (State.takeTenantHalt s d t all ids) := by
  unfold State.takeTenantHalt
  repeat' first
    | (with_reducible assumption)
    | (with_reducible exact Keeps.refl _)
    | (with_reducible apply State.modDie_keeps)
    | (with_reducible apply State.loseFlows_keeps)
    | (dsimp only)
    | (exact fun _ hx => ⟨hx.1, hx.2, hx.3, hx.4, hx.5, hx.6⟩)

theorem State.takeEmergency_keeps {s0 s : State} (h : Keeps s0 s) (d : DieId) (r : EmergencyRec) : Keeps s0 (State.takeEmergency s d r) := by
  unfold State.takeEmergency
  repeat' first
    | (with_reducible assumption)
    | (with_reducible exact Keeps.refl _)
    | (with_reducible apply State.notice_keeps)
    | (with_reducible apply State.noticePfs_keeps)
    | (with_reducible apply Keeps.foldl)
    | (dsimp only)
    | split
    | (exact fun _ hx => ⟨hx.1, hx.2, hx.3, hx.4, hx.5, hx.6⟩)
    | (exact fun _ hx => ⟨hx.1, hx.2⟩)
    | (exact fun _ => Nat.le_refl _)
    | (exact fun _ ha hb => ⟨ha, hb⟩)
    | (exact Nat.le_refl _)
    | (intro)

theorem State.consume_keeps {s0 s : State} (h : Keeps s0 s) (d : DieId) (p : Nat) (b : List Byte) : Keeps s0 (State.consume s d p b) := by
  unfold State.consume
  repeat' first
    | (with_reducible assumption)
    | (with_reducible exact Keeps.refl _)
    | (with_reducible apply State.ctrlDiscard_keeps)
    | (with_reducible apply State.loseFlow_keeps)
    | (with_reducible apply State.meetRoot_keeps)
    | (with_reducible apply State.takeAck_keeps)
    | (with_reducible apply State.takeArrival_keeps)
    | (with_reducible apply State.takeCalEnd_keeps)
    | (with_reducible apply State.takeCalStart_keeps)
    | (with_reducible apply State.takeCommit_keeps)
    | (with_reducible apply State.takeCredit_keeps)
    | (with_reducible apply State.takeEmergency_keeps)
    | (with_reducible apply State.takeGrant_keeps)
    | (with_reducible apply State.takeHello_keeps)
    | (with_reducible apply State.takeJoin_keeps)
    | (with_reducible apply State.takeLanemap_keeps)
    | (with_reducible apply State.takeLeave_keeps)
    | (with_reducible apply State.takeLend_keeps)
    | (with_reducible apply State.takeLowrate_keeps)
    | (with_reducible apply State.takeOpen_keeps)
    | (with_reducible apply State.takeOpenDone_keeps)
    | (with_reducible apply State.takeProposal_keeps)
    | (with_reducible apply State.takeRelease_keeps)
    | (with_reducible apply State.takeRelease11_keeps)
    | (with_reducible apply State.takeResult_keeps)
    | (with_reducible apply State.takeStatus_keeps)
    | (with_reducible apply State.takeTenantHalt_keeps)
    | (with_reducible apply State.takeTimeRequest_keeps)
    | (with_reducible apply State.takeTimeResponse_keeps)
    | (dsimp only)
    | (intro)
    | (with_reducible apply Keeps.ite)
    | split

theorem State.refloodOn_keeps {s0 s : State} (h : Keeps s0 s) (d : DieId) (from_ : Option Nat) (b : List Byte) : Keeps s0 (State.refloodOn s d from_ b) := by
  unfold State.refloodOn
  repeat' first
    | (with_reducible assumption)
    | (with_reducible exact Keeps.refl _)
    | (with_reducible apply State.putRecord_keeps)
    | (with_reducible apply Keeps.foldl)
    | (dsimp only)
    | (intro)
    | (with_reducible apply Keeps.ite)
    | split

theorem State.takeRecord_keeps {s0 s : State} (h : Keeps s0 s) (d : DieId) (port : Option Nat) (b : List Byte) : Keeps s0 (State.takeRecord s d port b) := by
  unfold State.takeRecord
  repeat' first
    | (with_reducible assumption)
    | (with_reducible exact Keeps.refl _)
    | (with_reducible apply State.modDie_keeps)
    | (with_reducible apply State.consume_keeps)
    | (with_reducible apply State.ctrlDiscard_keeps)
    | (with_reducible apply State.putRecord_keeps)
    | (with_reducible apply State.refloodOn_keeps)
    | (dsimp only)
    | (intro)
    | (with_reducible apply Keeps.ite)
    | split
    | (exact fun _ hx => ⟨hx.1, hx.2, hx.3, hx.4, hx.5, hx.6⟩)
    | (exact fun _ hx => ⟨hx.1, hx.2⟩)
    | (exact fun _ => Nat.le_refl _)
    | (exact fun _ ha hb => ⟨ha, hb⟩)
    | (exact fun _ => Nat.add_le_add_left (Nat.le_max_left _ _) _)
    | (exact fun _ => Nat.add_le_add_left (Nat.le_add_right _ _) _)
    | (apply DieInv.same <;> first | assumption | rfl)

theorem State.takeRecords.go_keeps {s0 : State} (d : DieId) (p : Nat) (n : Nat) : ∀ {s : State} (l : List Byte), Keeps s0 s →
    Keeps s0 (State.takeRecords.go d p n s l) := by
  induction n with
  | zero => intro s l h; exact h
  | succ n ih =>
    intro s l h
    unfold State.takeRecords.go
    split
    · exact h
    · dsimp only
      split
      · exact State.ctrlDiscard_keeps h _
      · exact ih _ (State.takeRecord_keeps h _ _ _)

theorem State.takeRecords_keeps {s0 s : State} (h : Keeps s0 s) (d : DieId) (p : Nat) (pay : List Byte) : Keeps s0 (State.takeRecords s d p pay) := by
  exact State.serveLends_keeps (State.takeRecords.go_keeps d p 21 pay h) _

end Sys2Proof.Machine
end

