-- ==== Sys2Proof/Laws/KeepsQueueOps.lean ====
section
/-! SUPPORT. The operations of Machine/QueueOps.lean keep what `Keeps` says. -/

namespace Sys2Proof.Machine
open Sys2Proof

theorem State.withHead_keeps {s0 s : State} (h : Keeps s0 s) (t : Nat) (hh : Nat) (q : Nat) (op : Nat) (f : State → Cmd → State) (hf : ∀ u c, Keeps s0 u → Keeps s0 (f u c)) : Keeps s0 (State.withHead s t hh q op f) := by
  unfold State.withHead
  repeat' first
    | (with_reducible assumption)
    | (with_reducible exact Keeps.refl _)
    | (with_reducible apply State.complete_keeps)
    | (with_reducible apply hf)
    | (intro)
    | (with_reducible apply Keeps.ite)
    | split

theorem State.waits_keeps {s0 s : State} (h : Keeps s0 s) (t : Nat) (hh : Nat) (q : Nat) : Keeps s0 (State.waits s t hh q) := by
  unfold State.waits
  repeat' first
    | (with_reducible assumption)
    | (with_reducible exact Keeps.refl _)
    | (with_reducible apply State.modHead_keeps)

theorem State.onDie_keeps {s0 s : State} (h : Keeps s0 s) (t : Nat) (hh : Nat) (q : Nat) (f : State → DieId → State) (hf : ∀ u d, Keeps s0 u → Keeps s0 (f u d)) : Keeps s0 (State.onDie s t hh q f) := by
  unfold State.onDie
  repeat' first
    | (with_reducible assumption)
    | (with_reducible exact Keeps.refl _)
    | (with_reducible apply State.complete_keeps)
    | (with_reducible apply State.waits_keeps)
    | (with_reducible apply hf)
    | (intro)
    | (with_reducible apply Keeps.ite)
    | split

theorem State.ends_keeps {s0 s : State} (h : Keeps s0 s) (t : Nat) (hh : Nat) (q : Nat) (status : Nat) : Keeps s0 (State.ends s t hh q status) := by
  unfold State.ends
  repeat' first
    | (with_reducible assumption)
    | (with_reducible exact Keeps.refl _)
    | (with_reducible apply State.complete_keeps)

theorem State.unloadPlans_keeps {s0 s : State} (h : Keeps s0 s) (t : Nat) (hh : Nat) (first : Nat) (count : Nat) : Keeps s0 (State.unloadPlans s t hh first count) := by
  unfold State.unloadPlans
  repeat' first
    | (with_reducible assumption)
    | (with_reducible exact Keeps.refl _)
    | (with_reducible apply State.modCtx_keeps)

theorem State.freeGranules_keeps {s0 s : State} (h : Keeps s0 s) (d : DieId) (first : Nat) (count : Nat) : Keeps s0 (State.freeGranules s d first count) := by
  unfold State.freeGranules
  apply State.modDie_keeps h
  intro x hx
  exact DieInv.tiles hx _ (Tiles.setOwners_keep _ _ _ _).1 (by rw [(Tiles.setOwners_keep _ _ _ _).2])

theorem State.removeBinding_keeps {s0 s : State} (h : Keeps s0 s) (d : DieId) (t : Nat) (hh : Nat) (n : Nat) : Keeps s0 (State.removeBinding s d t hh n) := by
  unfold State.removeBinding
  repeat' first
    | (with_reducible assumption)
    | (with_reducible exact Keeps.refl _)
    | (with_reducible apply State.modCtx_keeps)
    | (with_reducible apply State.modTenant_keeps)
    | (with_reducible apply State.freeGranules_keeps)
    | (with_reducible apply State.unloadPlans_keeps)
    | (dsimp only)
    | (intro)
    | (with_reducible apply Keeps.ite)
    | split

theorem State.feedOne_keeps {s0 s : State} (h : Keeps s0 s) (d : DieId) (e : Nat) : Keeps s0 (State.feedOne s d e) := by
  unfold State.feedOne
  repeat' first
    | (with_reducible assumption)
    | (with_reducible exact Keeps.refl _)
    | (with_reducible apply State.modDie_keeps)
    | (with_reducible apply State.modHead_keeps)
    | (dsimp only)
    | (intro)
    | (with_reducible apply Keeps.ite)
    | split
    | (exact fun _ hx => ⟨hx.1, hx.2, hx.3, hx.4, hx.5, hx.6⟩)
    | (exact fun _ hx => ⟨hx.1, hx.2⟩)
    | (exact fun _ => Nat.le_refl _)
    | (exact fun _ ha hb => ⟨ha, hb⟩)
    | (apply DieInv.same <;> first | assumption | rfl)

theorem State.feedEngines_keeps {s0 s : State} (h : Keeps s0 s) (d : DieId) : Keeps s0 (State.feedEngines s d) := by
  unfold State.feedEngines
  repeat' first
    | (with_reducible assumption)
    | (with_reducible exact Keeps.refl _)
    | (with_reducible apply State.feedOne_keeps)
    | (with_reducible apply Keeps.foldl)
    | (intro)
    | (with_reducible apply Keeps.ite)

theorem State.placeUnit_keeps {s0 s : State} (h : Keeps s0 s) (d : DieId) (t : Nat) (hh : Nat) (c : Cmd) (k : Nat) (bytes : List Byte) : Keeps s0 (State.placeUnit s d t hh c k bytes) := by
  unfold State.placeUnit
  repeat' first
    | (with_reducible assumption)
    | (with_reducible exact Keeps.refl _)
    | (with_reducible apply State.hostWrite_keeps)
    | (with_reducible apply State.sramWrite_keeps)
    | (with_reducible apply State.sramZero_keeps)
    | (dsimp only)
    | (intro)
    | (with_reducible apply Keeps.ite)
    | split

theorem State.copyRead_keeps {s0 s : State} (h : Keeps s0 s) (d : DieId) (a n : Nat) : Keeps s0 (s.copyRead d a n).1 :=
  Keeps.foldl _ (fun u w hu => State.poisonWord_keeps hu _ w) h

theorem State.stageUnit_keeps {s0 s : State} (h : Keeps s0 s) (d : DieId) (t hh : Nat) (c : Cmd) (k : Nat) (data : List Byte) :
    Keeps s0 (s.stageUnit d t hh c k data).1 := by
  unfold State.stageUnit
  dsimp only
  split
  · exact h
  · split
    · exact State.copyRead_keeps h _ _ _
    · exact h

theorem State.moveUnit_keeps {s0 s : State} (h : Keeps s0 s) (d : DieId) (e : Nat) (t : Nat) (hh : Nat) (c : Cmd) (k : Nat) (data : List Byte) : Keeps s0 (State.moveUnit s d e t hh c k data) := by
  unfold State.moveUnit
  exact State.modDie_keeps (State.placeUnit_keeps (State.stageUnit_keeps h _ _ _ _ _ _) _ _ _ _ _ _) _ _ fun _ hx => ⟨hx.1, hx.2, hx.3, hx.4, hx.5, hx.6⟩

theorem State.countUnit_keeps {s0 s : State} (h : Keeps s0 s) (d : DieId) (t : Nat) (hh : Nat) (q : Nat) (c : Cmd) (k : Nat) : Keeps s0 (State.countUnit s d t hh q c k) := by
  unfold State.countUnit
  repeat' first
    | (with_reducible assumption)
    | (with_reducible exact Keeps.refl _)
    | (with_reducible apply State.countAct_keeps)
    | (dsimp only)
    | (intro)
    | (with_reducible apply Keeps.ite)
    | split

theorem State.place_keeps {s0 s : State} (h : Keeps s0 s) (d : DieId) (t : Nat) (hh : Nat) (q : Nat) (slot : Nat) : Keeps s0 (State.place s d t hh q slot) := by
  unfold State.place
  apply State.complete_keeps
  apply State.tapHold_keeps
  apply State.modCtx_keeps
  apply State.modDie_keeps h
  intro x hx
  exact DieInv.tiles hx _ rfl (by rw [List.length_set])

theorem State.waitRun_keeps {s0 s : State} (h : Keeps s0 s) (d : DieId) (t : Nat) (hh : Nat) (q : Nat) : Keeps s0 (State.waitRun s d t hh q) := by
  unfold State.waitRun
  repeat' first
    | (with_reducible assumption)
    | (with_reducible exact Keeps.refl _)
    | (with_reducible apply State.modDie_keeps)
    | (with_reducible apply State.logDie_keeps)
    | (with_reducible apply State.waits_keeps)
    | (dsimp only)
    | (intro)
    | (with_reducible apply Keeps.ite)
    | split
    | (exact fun _ hx => ⟨hx.1, hx.2, hx.3, hx.4, hx.5, hx.6⟩)
    | (exact fun _ hx => ⟨hx.1, hx.2⟩)
    | (exact fun _ => Nat.le_refl _)
    | (exact fun _ ha hb => ⟨ha, hb⟩)
    | (apply DieInv.same <;> first | assumption | rfl)

theorem State.leaveWait_keeps {s0 s : State} (h : Keeps s0 s) (d : DieId) (t : Nat) (hh : Nat) (q : Nat) : Keeps s0 (State.leaveWait s d t hh q) := by
  unfold State.leaveWait
  repeat' first
    | (with_reducible assumption)
    | (with_reducible exact Keeps.refl _)
    | (with_reducible apply State.modDie_keeps)
    | (exact fun _ hx => ⟨hx.1, hx.2, hx.3, hx.4, hx.5, hx.6⟩)

theorem State.registerRx_keeps {s0 s : State} (h : Keeps s0 s) (d : DieId) (f : RxFlow) : Keeps s0 (State.registerRx s d f) := by
  unfold State.registerRx
  repeat' first
    | (with_reducible assumption)
    | (with_reducible exact Keeps.refl _)
    | (with_reducible apply State.modDie_keeps)
    | (with_reducible apply State.installRx_keeps)
    | (with_reducible apply State.modRx_keeps)
    | (dsimp only)
    | split
    | (exact fun _ hx => ⟨hx.1, hx.2, hx.3, hx.4, hx.5, hx.6⟩)

theorem State.openTx_keeps {s0 s : State} (h : Keeps s0 s) (d : DieId) (t : Nat) (hh : Nat) (q : Nat) (pos : Nat) (space : Nat) (f : PlanFlow) : Keeps s0 (State.openTx s d t hh q pos space f) := by
  unfold State.openTx
  repeat' first
    | (with_reducible assumption)
    | (with_reducible exact Keeps.refl _)
    | (with_reducible apply State.freeLabel_keeps)
    | (with_reducible apply State.loseFlow_keeps)
    | (with_reducible apply State.modPort_keeps)
    | (with_reducible apply State.modTx_keeps)
    | (with_reducible apply State.sendOpen_keeps)
    | (dsimp only)
    | (intro)
    | (with_reducible apply Keeps.ite)
    | split

theorem State.startRun_keeps {s0 s : State} (h : Keeps s0 s) (d : DieId) (t : Nat) (hh : Nat) (q : Nat) (c : Cmd) (p : Plan) : Keeps s0 (State.startRun s d t hh q c p) := by
  unfold State.startRun
  dsimp only
  apply Keeps.foldl
  · intro u f hu
    split
    · exact State.openTx_keeps hu _ _ _ _ _ _ _
    · exact hu
  · apply Keeps.foldl
    · intro u f hu
      exact State.registerRx_keeps hu _ _
    · apply State.modDie_keeps
      · exact State.modHead_keeps (State.leaveWait_keeps h _ _ _ _) _ _ _ _
      · intro x hx
        exact ⟨hx.1, hx.2, hx.3, hx.4, hx.5, hx.6⟩

end Sys2Proof.Machine
end

