-- ==== Sys2Proof/Laws/KeepsFrostEvents.lean ====
section
/-! SUPPORT. The operations of Machine/FrostEvents.lean keep what `Keeps` says. -/

namespace Sys2Proof.Machine
open Sys2Proof

theorem State.frostApply_keeps {s0 s : State} (h : Keeps s0 s) (d : DieId) : GKeeps s0 (State.frostApply s d) := by
  unfold State.frostApply
  repeat' first
    | (with_reducible assumption)
    | (with_reducible exact Keeps.refl _)
    | (with_reducible apply GKeeps.done)
    | (with_reducible apply GKeeps.refused)
    | (with_reducible apply State.requestFrost_keeps)

theorem execEnterFrost_keeps {s0 s : State} (h : Keeps s0 s) (m : MasterId) (d : DieId) (v : Nat) : OKeeps s0 (execEnterFrost m d v s) := by
  unfold execEnterFrost
  repeat' first
    | (with_reducible assumption)
    | (with_reducible exact Keeps.refl _)
    | (with_reducible apply OKeeps.next)
    | (with_reducible apply State.frostApply_keeps)
    | (with_reducible apply State.gate_keeps)
    | (with_reducible apply GKeeps.done)
    | (with_reducible apply GKeeps.refused)
    | (exact fun _ hx => ⟨hx.1, hx.2, hx.3, hx.4, hx.5, hx.6⟩)
    | (exact fun _ hx => ⟨hx.1, hx.2⟩)
    | (exact fun _ => Nat.le_refl _)
    | (exact fun _ ha hb => ⟨ha, hb⟩)
    | (exact Nat.le_refl _)
    | (intro)

theorem State.frostTrayApply_keeps {s0 s : State} (h : Keeps s0 s)  : GKeeps s0 (State.frostTrayApply s) := by
  unfold State.frostTrayApply
  repeat' first
    | (with_reducible assumption)
    | (with_reducible exact Keeps.refl _)
    | (with_reducible apply GKeeps.done)
    | (with_reducible apply GKeeps.refused)
    | (with_reducible apply State.forDies_keeps)
    | (with_reducible apply State.requestFrost_keeps)
    | (exact fun _ hx => ⟨hx.1, hx.2, hx.3, hx.4, hx.5, hx.6⟩)
    | (exact fun _ hx => ⟨hx.1, hx.2⟩)
    | (exact fun _ => Nat.le_refl _)
    | (exact fun _ ha hb => ⟨ha, hb⟩)
    | (exact Nat.le_refl _)
    | (intro)

theorem execEnterFrostTray_keeps {s0 s : State} (h : Keeps s0 s) (m : MasterId) (v : Nat) : OKeeps s0 (execEnterFrostTray m v s) := by
  unfold execEnterFrostTray
  exact OKeeps.next (State.gate_keeps h _ _ _ _ fun u m w hu => State.frostTrayApply_keeps hu)

theorem State.enterStage2_keeps {s0 s : State} (h : Keeps s0 s) (d : DieId) : Keeps s0 (State.enterStage2 s d) := by
  unfold State.enterStage2
  repeat' first
    | (with_reducible assumption)
    | (with_reducible exact Keeps.refl _)
    | (with_reducible apply State.modDie_keeps)
    | (exact fun _ hx => ⟨hx.1, hx.2, hx.3, hx.4, hx.5, hx.6⟩)

theorem execHaltPointsReached_keeps {s0 s : State} (h : Keeps s0 s) (d : DieId) : OKeeps s0 (execHaltPointsReached d s) := by
  unfold execHaltPointsReached
  repeat' first
    | (with_reducible assumption)
    | (with_reducible exact Keeps.refl _)
    | (with_reducible apply OKeeps.next)
    | (with_reducible apply State.enterStage2_keeps)
    | (dsimp only)
    | (intro)
    | (with_reducible apply OKeeps.ite)

theorem State.frostFollow_keeps {s0 s : State} (h : Keeps s0 s) (d : DieId) : Keeps s0 (State.frostFollow s d) := by
  unfold State.frostFollow
  repeat' first
    | (with_reducible assumption)
    | (with_reducible exact Keeps.refl _)
    | (with_reducible apply State.startThaw_keeps)
    | (dsimp only)
    | (intro)
    | (with_reducible apply Keeps.ite)

theorem execFrozen_keeps {s0 s : State} (h : Keeps s0 s) (d : DieId) : OKeeps s0 (execFrozen d s) := by
  unfold execFrozen
  dsimp only
  split
  · exact OKeeps.next h
  · apply OKeeps.next
    apply State.frostFollow_keeps
    apply State.followCharge_keeps
    apply State.modDie_keeps (State.portsLow_keeps h _)
    intro x hx
    constructor
    · exact hx.1
    · exact hx.2
    · exact hx.3
    · exact hx.4
    · exact hx.5
    · exact hx.6

theorem execFrostEntryTimeout_keeps {s0 s : State} (h : Keeps s0 s) (d : DieId) : OKeeps s0 (execFrostEntryTimeout d s) := by
  unfold execFrostEntryTimeout
  repeat' first
    | (with_reducible assumption)
    | (with_reducible exact Keeps.refl _)
    | (with_reducible apply OKeeps.next)
    | (with_reducible apply State.advanceTo_keeps)
    | (with_reducible apply State.cancelFrost_keeps)
    | (with_reducible apply State.logDie_keeps)
    | (dsimp only)
    | (intro)
    | (with_reducible apply OKeeps.ite)

theorem execFrostHaltDeadline_keeps {s0 s : State} (h : Keeps s0 s)  : OKeeps s0 (execFrostHaltDeadline s) := by
  unfold execFrostHaltDeadline
  repeat' first
    | (with_reducible assumption)
    | (with_reducible exact Keeps.refl _)
    | (with_reducible apply OKeeps.next)
    | (with_reducible apply State.forDies_keeps)
    | (with_reducible apply State.modTray_keeps)
    | (with_reducible apply State.endRun_keeps)
    | (with_reducible apply State.enterStage2_keeps)
    | (with_reducible apply Keeps.foldl)
    | (exact fun _ => Nat.add_le_add_left (Nat.le_add_right _ _) _)
    | (dsimp only)
    | (intro)
    | (with_reducible apply OKeeps.ite)
    | (with_reducible apply Keeps.ite)

theorem State.thawCommand_keeps {s0 s : State} (h : Keeps s0 s) (d : DieId) : Keeps s0 (State.thawCommand s d) := by
  unfold State.thawCommand
  repeat' first
    | (with_reducible assumption)
    | (with_reducible exact Keeps.refl _)
    | (with_reducible apply State.thawTrigger_keeps)
    | (intro)
    | (with_reducible apply Keeps.ite)

theorem execThaw_keeps {s0 s : State} (h : Keeps s0 s) (m : MasterId) (d : DieId) (v : Nat) : OKeeps s0 (execThaw m d v s) := by
  unfold execThaw
  repeat' first
    | (with_reducible assumption)
    | (with_reducible exact Keeps.refl _)
    | (with_reducible apply OKeeps.next)
    | (with_reducible apply State.gate_keeps)
    | (with_reducible apply State.thawCommand_keeps)
    | (with_reducible apply GKeeps.done)
    | (with_reducible apply GKeeps.refused)
    | (exact fun _ hx => ⟨hx.1, hx.2, hx.3, hx.4, hx.5, hx.6⟩)
    | (exact fun _ hx => ⟨hx.1, hx.2⟩)
    | (exact fun _ => Nat.le_refl _)
    | (exact fun _ ha hb => ⟨ha, hb⟩)
    | (exact Nat.le_refl _)
    | (intro)

theorem State.thawTrayApply_keeps {s0 s : State} (h : Keeps s0 s)  : GKeeps s0 (State.thawTrayApply s) := by
  unfold State.thawTrayApply
  repeat' first
    | (with_reducible assumption)
    | (with_reducible exact Keeps.refl _)
    | (with_reducible apply GKeeps.done)
    | (with_reducible apply GKeeps.refused)
    | (with_reducible apply State.forDies_keeps)
    | (with_reducible apply State.thawCommand_keeps)
    | (exact fun _ hx => ⟨hx.1, hx.2, hx.3, hx.4, hx.5, hx.6⟩)
    | (exact fun _ hx => ⟨hx.1, hx.2⟩)
    | (exact fun _ => Nat.le_refl _)
    | (exact fun _ ha hb => ⟨ha, hb⟩)
    | (exact Nat.le_refl _)
    | (intro)

theorem execThawTray_keeps {s0 s : State} (h : Keeps s0 s) (m : MasterId) (v : Nat) : OKeeps s0 (execThawTray m v s) := by
  unfold execThawTray
  repeat' first
    | (with_reducible assumption)
    | (with_reducible exact Keeps.refl _)
    | (with_reducible apply OKeeps.next)
    | (with_reducible apply State.gate_keeps)
    | (with_reducible apply State.thawTrayApply_keeps)
    | (with_reducible apply GKeeps.done)
    | (with_reducible apply GKeeps.refused)
    | (exact fun _ hx => ⟨hx.1, hx.2, hx.3, hx.4, hx.5, hx.6⟩)
    | (exact fun _ hx => ⟨hx.1, hx.2⟩)
    | (exact fun _ => Nat.le_refl _)
    | (exact fun _ ha hb => ⟨ha, hb⟩)
    | (exact Nat.le_refl _)
    | (intro)

theorem State.shiftWaits_keeps {s0 s : State} (h : Keeps s0 s) (d : DieId) : Keeps s0 (State.shiftWaits s d) := by
  unfold State.shiftWaits
  repeat' first
    | (with_reducible assumption)
    | (with_reducible exact Keeps.refl _)
    | (with_reducible apply State.setCtxs_keeps)

theorem execThawEnd_keeps {s0 s : State} (h : Keeps s0 s) (d : DieId) : OKeeps s0 (execThawEnd d s) := by
  unfold execThawEnd
  repeat' first
    | (with_reducible assumption)
    | (with_reducible exact Keeps.refl _)
    | (with_reducible apply OKeeps.next)
    | (with_reducible apply State.modDie_keeps)
    | (with_reducible apply State.advanceTo_keeps)
    | (with_reducible apply State.clockFault_keeps)
    | (with_reducible apply State.feedEngines_keeps)
    | (with_reducible apply State.modClk_keeps)
    | (with_reducible apply State.requestFrost_keeps)
    | (with_reducible apply State.retarget_keeps)
    | (with_reducible apply State.shiftWaits_keeps)
    | (with_reducible apply State.urgent_keeps)
    | (dsimp only)
    | (intro)
    | (with_reducible apply OKeeps.ite)
    | (with_reducible apply Keeps.ite)
    | split
    | (exact fun _ hx => ⟨hx.1, hx.2, hx.3, hx.4, hx.5, hx.6⟩)
    | (exact fun _ hx => ⟨hx.1, hx.2⟩)
    | (exact fun _ => Nat.le_refl _)
    | (exact fun _ ha hb => ⟨ha, hb⟩)
    | (exact fun _ => Nat.add_le_add_left (Nat.le_max_left _ _) _)
    | (exact fun _ => Nat.add_le_add_left (Nat.le_add_right _ _) _)
    | (apply DieInv.same <;> first | assumption | rfl)

theorem State.modHold_keeps {s0 s : State} (h : Keeps s0 s) (f : HoldUp → HoldUp) : Keeps s0 (State.modHold s f) := by
  unfold State.modHold
  repeat' first
    | (with_reducible assumption)
    | (with_reducible exact Keeps.refl _)
    | (with_reducible apply State.modTray_keeps)
    | (exact fun _ hx => ⟨hx.1, hx.2, hx.3, hx.4, hx.5, hx.6⟩)
    | (exact fun _ hx => ⟨hx.1, hx.2⟩)
    | (exact fun _ => Nat.le_refl _)

theorem State.setAvailable_keeps {s0 s : State} (h : Keeps s0 s) (b : Bool) : Keeps s0 (State.setAvailable s b) := by
  unfold State.setAvailable
  repeat' first
    | (with_reducible assumption)
    | (with_reducible exact Keeps.refl _)
    | (with_reducible apply State.modHold_keeps)
    | (with_reducible apply State.noticeSupply_keeps)
    | (intro)
    | (with_reducible apply Keeps.ite)

theorem State.faultModule_keeps {s0 s : State} (h : Keeps s0 s)  : Keeps s0 (State.faultModule s) := by
  unfold State.faultModule
  repeat' first
    | (with_reducible assumption)
    | (with_reducible exact Keeps.refl _)
    | (with_reducible apply State.logTray_keeps)
    | (with_reducible apply State.modHold_keeps)
    | (with_reducible apply State.setAvailable_keeps)
    | (intro)
    | (with_reducible apply Keeps.ite)

theorem execModuleInserted_keeps {s0 s : State} (h : Keeps s0 s) (ok : Bool) (serial : List Byte) (mv : Nat) : OKeeps s0 (execModuleInserted ok serial mv s) := by
  unfold execModuleInserted
  repeat' first
    | (with_reducible assumption)
    | (with_reducible exact Keeps.refl _)
    | (with_reducible apply OKeeps.next)
    | (with_reducible apply State.faultModule_keeps)
    | (with_reducible apply State.modHold_keeps)
    | (dsimp only)
    | (intro)
    | (with_reducible apply OKeeps.ite)
    | (with_reducible apply Keeps.ite)

theorem execModuleRemoved_keeps {s0 s : State} (h : Keeps s0 s)  : OKeeps s0 (execModuleRemoved s) := by
  unfold execModuleRemoved
  split
  · exact OKeeps.next h
  · have k := fun f => State.setAvailable_keeps (State.modHold_keeps h f) false
    apply OKeeps.next
    apply Keeps.ite
    · exact State.trayOff_keeps (State.abandonSave_keeps (k _))
    · exact k _

theorem execChargerStart_keeps {s0 s : State} (h : Keeps s0 s) (mv : Nat) : OKeeps s0 (execChargerStart mv s) := by
  unfold execChargerStart
  dsimp only
  split
  · exact OKeeps.next h
  · apply OKeeps.next
    apply State.modHold_keeps
    apply State.modHold_keeps
    apply Keeps.ite
    · exact h
    · exact State.modTray_keeps h _ fun y => Nat.add_le_add_left (Nat.le_add_right _ _) _

theorem execChargeComplete_keeps {s0 s : State} (h : Keeps s0 s) (ma : Nat) : OKeeps s0 (execChargeComplete ma s) := by
  unfold execChargeComplete
  repeat' first
    | (with_reducible assumption)
    | (with_reducible exact Keeps.refl _)
    | (with_reducible apply OKeeps.next)
    | (with_reducible apply State.modHold_keeps)
    | (intro)
    | (with_reducible apply OKeeps.ite)

theorem execChargeCurrentCollapse_keeps {s0 s : State} (h : Keeps s0 s) (ma : Nat) : OKeeps s0 (execChargeCurrentCollapse ma s) := by
  unfold execChargeCurrentCollapse
  repeat' first
    | (with_reducible assumption)
    | (with_reducible exact Keeps.refl _)
    | (with_reducible apply OKeeps.next)
    | (with_reducible apply State.modHold_keeps)
    | (intro)
    | (with_reducible apply OKeeps.ite)

theorem execCapacityTest_keeps {s0 s : State} (h : Keeps s0 s) (rest0 : Nat) (rest1 : Nat) : OKeeps s0 (execCapacityTest rest0 rest1 s) := by
  unfold execCapacityTest
  dsimp only
  split
  · exact OKeeps.next h
  · have k := fun f => State.modHold_keeps (State.modTray_keeps h (fun y => { y with now := y.now + (max (s.tray.hold.lastTest + 2592000000000000) (s.tray.hold.chargedAt + 86400000000000) - s.accNow) }) fun y => Nat.add_le_add_left (Nat.le_add_right _ _) _) f
    apply OKeeps.next
    apply Keeps.ite
    · exact State.faultModule_keeps (k _)
    · exact k _

theorem execModuleFault_keeps {s0 s : State} (h : Keeps s0 s) (mv : Nat) : OKeeps s0 (execModuleFault mv s) := by
  unfold execModuleFault
  repeat' first
    | (with_reducible assumption)
    | (with_reducible exact Keeps.refl _)
    | (with_reducible apply OKeeps.next)
    | (with_reducible apply State.faultModule_keeps)
    | (with_reducible apply State.modHold_keeps)
    | (intro)
    | (with_reducible apply OKeeps.ite)

theorem execHoldupAvailabilityCheck_keeps {s0 s : State} (h : Keeps s0 s) (mah : Nat) : OKeeps s0 (execHoldupAvailabilityCheck mah s) := by
  unfold execHoldupAvailabilityCheck
  repeat' first
    | (with_reducible assumption)
    | (with_reducible exact Keeps.refl _)
    | (with_reducible apply OKeeps.next)
    | (with_reducible apply State.modHold_keeps)
    | (with_reducible apply State.setAvailable_keeps)

theorem execHoldupConverterTakeover_keeps {s0 s : State} (h : Keeps s0 s) (mv : Nat) : OKeeps s0 (execHoldupConverterTakeover mv s) := by
  unfold execHoldupConverterTakeover
  repeat' first
    | (with_reducible assumption)
    | (with_reducible exact Keeps.refl _)
    | (with_reducible apply OKeeps.next)
    | (with_reducible apply State.modTray_keeps)
    | (intro)
    | (with_reducible apply OKeeps.ite)
    | (with_reducible apply Keeps.ite)
    | split
    | (exact fun _ hx => ⟨hx.1, hx.2, hx.3, hx.4, hx.5, hx.6⟩)
    | (exact fun _ hx => ⟨hx.1, hx.2⟩)
    | (exact fun _ => Nat.le_refl _)
    | (exact fun _ ha hb => ⟨ha, hb⟩)
    | (exact Nat.le_refl _)

theorem State.startSave_keeps {s0 s : State} (h : Keeps s0 s)  : Keeps s0 (State.startSave s) := by
  unfold State.startSave
  repeat' first
    | (with_reducible assumption)
    | (with_reducible exact Keeps.refl _)
    | (with_reducible apply State.modHold_keeps)
    | (with_reducible apply State.trayOff_keeps)
    | (dsimp only)
    | (intro)
    | (with_reducible apply Keeps.ite)

theorem execHoldTimerExpire_keeps {s0 s : State} (h : Keeps s0 s)  : OKeeps s0 (execHoldTimerExpire s) := by
  unfold execHoldTimerExpire
  dsimp only
  split
  · exact OKeeps.next h
  · exact OKeeps.next (State.startSave_keeps (State.modTray_keeps h _ fun y => Nat.add_le_add_left (Nat.le_add_right _ _) _))

theorem execVaultSaveComplete_keeps {s0 s : State} (h : Keeps s0 s)  : OKeeps s0 (execVaultSaveComplete s) := by
  unfold execVaultSaveComplete
  repeat' first
    | (with_reducible assumption)
    | (with_reducible exact Keeps.refl _)
    | (with_reducible apply OKeeps.next)
    | (with_reducible apply State.logTray_keeps)
    | (with_reducible apply State.modHold_keeps)
    | (with_reducible apply State.trayOff_keeps)
    | (dsimp only)
    | (intro)
    | (with_reducible apply OKeeps.ite)

theorem execDiscardVaultSave_keeps {s0 s : State} (h : Keeps s0 s) (m : MasterId) (v : Nat) : OKeeps s0 (execDiscardVaultSave m v s) := by
  unfold execDiscardVaultSave
  repeat' first
    | (with_reducible assumption)
    | (with_reducible exact Keeps.refl _)
    | (with_reducible apply OKeeps.next)
    | (with_reducible apply State.gate_keeps)
    | (with_reducible apply State.modHold_keeps)
    | (with_reducible apply GKeeps.done)
    | (with_reducible apply GKeeps.refused)
    | (exact fun _ hx => ⟨hx.1, hx.2, hx.3, hx.4, hx.5, hx.6⟩)
    | (exact fun _ hx => ⟨hx.1, hx.2⟩)
    | (exact fun _ => Nat.le_refl _)
    | (exact fun _ ha hb => ⟨ha, hb⟩)
    | (exact Nat.le_refl _)
    | (intro)

theorem State.dropHeld_keeps {s0 s : State} (h : Keeps s0 s) (t : Option Nat) : Keeps s0 (State.dropHeld s t) := by
  unfold State.dropHeld
  apply State.allDies_keeps h
  intro x hx
  exact DieInv.tiles hx _ (Tiles.foldl_setOwner _ _ _ _).1 (by rw [(Tiles.foldl_setOwner _ _ _ _).2])

theorem execGranuleHoldExpire_keeps {s0 s : State} (h : Keeps s0 s)  : OKeeps s0 (execGranuleHoldExpire s) := by
  unfold execGranuleHoldExpire
  repeat' first
    | (with_reducible assumption)
    | (with_reducible exact Keeps.refl _)
    | (with_reducible apply OKeeps.next)
    | (with_reducible apply State.modTray_keeps)
    | (with_reducible apply State.dropHeld_keeps)
    | (dsimp only)
    | split
    | (exact fun _ hx => ⟨hx.1, hx.2, hx.3, hx.4, hx.5, hx.6⟩)
    | (exact fun _ hx => ⟨hx.1, hx.2⟩)
    | (exact fun _ => Nat.le_refl _)
    | (exact fun _ ha hb => ⟨ha, hb⟩)
    | (exact fun _ => Nat.add_le_add_left (Nat.le_max_left _ _) _)
    | (exact fun _ => Nat.add_le_add_left (Nat.le_add_right _ _) _)

theorem State.powerDown_keeps {s0 s : State} (h : Keeps s0 s)  : Keeps s0 (State.powerDown s) := by
  have k : Keeps s0 ((s.forDies fun s d => s.sendLeave d 5).allDies fun x => { x with nrg := x.nrg.save }) := by
    apply State.allDies_keeps
    · exact State.forDies_keeps h _ fun u d hu => State.sendLeave_keeps hu _ _
    · intro x hx
      exact ⟨hx.1, hx.2, hx.3, hx.4, hx.5, hx.6⟩
  unfold State.powerDown
  refine State.modTray_keeps ?_ _ fun _ => Nat.le_refl _
  refine Keeps.foldl _ ?_ ?_
  · intro u c hu
    apply Keeps.foldl
    · intro u q hu
      exact State.failQueue_keeps hu _ _ _ _ _
    · exact hu
  · exact State.allRailsOff_keeps k

theorem execTrayPowerDown_keeps {s0 s : State} (h : Keeps s0 s) (m : MasterId) (v : Nat) : OKeeps s0 (execTrayPowerDown m v s) := by
  unfold execTrayPowerDown
  exact OKeeps.next (State.gate_keeps h _ _ _ _ fun u m w hu => GKeeps.done (State.powerDown_keeps hu) _ _)

end Sys2Proof.Machine
end

