-- ==== Sys2Proof/Laws/KeepsStartEvents.lean ====
section
/-! SUPPORT. The operations of Machine/StartEvents.lean keep what `Keeps` says. -/

namespace Sys2Proof.Machine
open Sys2Proof

theorem State.modFw_keeps {s0 s : State} (h : Keeps s0 s) (f : Firmware → Firmware) : Keeps s0 (State.modFw s f) := by
  unfold State.modFw
  repeat' first
    | (with_reducible assumption)
    | (with_reducible exact Keeps.refl _)
    | (with_reducible apply State.modTray_keeps)
    | (exact fun _ hx => ⟨hx.1, hx.2, hx.3, hx.4, hx.5, hx.6⟩)
    | (exact fun _ hx => ⟨hx.1, hx.2⟩)
    | (exact fun _ => Nat.le_refl _)

theorem State.imageRuns_keeps {s0 s : State} (h : Keeps s0 s)  : Keeps s0 (State.imageRuns s) := by
  unfold State.imageRuns
  repeat' first
    | (with_reducible assumption)
    | (with_reducible exact Keeps.refl _)
    | (with_reducible apply State.allDies_keeps)
    | (with_reducible apply State.modTray_keeps)
    | (with_reducible apply State.dadPort_keeps)
    | (with_reducible apply State.heat_keeps)
    | (dsimp only)
    | (intro)
    | (with_reducible apply Keeps.ite)
    | split
    | (exact fun _ hx => ⟨hx.1, hx.2, hx.3, hx.4, hx.5, hx.6⟩)
    | (exact fun _ hx => ⟨hx.1, hx.2⟩)
    | (exact fun _ => Nat.le_refl _)
    | (exact fun _ ha hb => ⟨ha, hb⟩)
    | (apply DieInv.same <;> first | assumption | rfl)
    | (exact Nat.le_refl _)

theorem execBootRomStart_keeps {s0 s : State} (h : Keeps s0 s) (okA : Bool) (okB : Bool) : OKeeps s0 (execBootRomStart okA okB s) := by
  unfold execBootRomStart
  repeat' first
    | (with_reducible assumption)
    | (with_reducible exact Keeps.refl _)
    | (with_reducible apply OKeeps.next)
    | (with_reducible apply State.imageRuns_keeps)
    | (with_reducible apply State.logTray_keeps)
    | (with_reducible apply State.modFw_keeps)
    | (dsimp only)
    | (intro)
    | (with_reducible apply OKeeps.ite)
    | (with_reducible apply Keeps.ite)

theorem execLockstepMismatch_keeps {s0 s : State} (h : Keeps s0 s)  : OKeeps s0 (execLockstepMismatch s) := by
  unfold execLockstepMismatch
  dsimp only
  split
  · exact OKeeps.next h
  · split
    · exact OKeeps.next (State.modFw_keeps h _)
    · apply OKeeps.next
      apply State.allPfs_keeps
      apply State.allMasters_keeps
      · exact State.modTray_keeps h _ fun _ => Nat.le_refl _
      · exact fun _ _ => ⟨Nat.zero_le _, Nat.zero_le _⟩

theorem State.loadSettings_keeps {s0 s : State} (h : Keeps s0 s) (d : DieId) : Keeps s0 (State.loadSettings s d) := by
  unfold State.loadSettings
  repeat' first
    | (with_reducible assumption)
    | (with_reducible exact Keeps.refl _)
    | (with_reducible apply State.modDie_keeps)
    | (with_reducible apply State.cancelRaise_keeps)
    | (with_reducible apply State.noStepCheck_keeps)
    | (with_reducible apply State.putSetting_keeps)
    | (with_reducible apply Keeps.foldl)
    | (dsimp only)
    | (exact fun _ hx => ⟨hx.1, hx.2, hx.3, hx.4, hx.5, hx.6⟩)
    | (exact fun _ hx => ⟨hx.1, hx.2⟩)
    | (exact fun _ => Nat.le_refl _)
    | (exact fun _ ha hb => ⟨ha, hb⟩)
    | (exact Nat.le_refl _)
    | (intro)

theorem execDieStart_keeps {s0 s : State} (h : Keeps s0 s) (d : DieId) : OKeeps s0 (execDieStart d s) := by
  unfold execDieStart
  repeat' first
    | (with_reducible assumption)
    | (with_reducible exact Keeps.refl _)
    | (with_reducible apply OKeeps.next)
    | (with_reducible apply State.advanceTo_keeps)
    | (with_reducible apply State.heat_keeps)
    | (with_reducible apply State.loadSettings_keeps)
    | (with_reducible apply State.railsUp_keeps)
    | (dsimp only)
    | (intro)
    | (with_reducible apply OKeeps.ite)
    | (with_reducible apply Keeps.ite)
    | split

theorem execGovernorFirmwareLoad_keeps {s0 s : State} (h : Keeps s0 s) (d : DieId) (ok : Bool) (digest : List Byte) : OKeeps s0 (execGovernorFirmwareLoad d ok digest s) := by
  unfold execGovernorFirmwareLoad
  repeat' first
    | (with_reducible assumption)
    | (with_reducible exact Keeps.refl _)
    | (with_reducible apply OKeeps.next)
    | (with_reducible apply State.modDie_keeps)
    | (with_reducible apply State.holdOff_keeps)
    | (dsimp only)
    | (intro)
    | (with_reducible apply OKeeps.ite)
    | (with_reducible apply Keeps.ite)
    | split
    | (exact fun _ hx => ⟨hx.1, hx.2, hx.3, hx.4, hx.5, hx.6⟩)
    | (exact fun _ hx => ⟨hx.1, hx.2⟩)
    | (exact fun _ => Nat.le_refl _)
    | (exact fun _ ha hb => ⟨ha, hb⟩)
    | (apply DieInv.same <;> first | assumption | rfl)

theorem execDieIdentityCheck_keeps {s0 s : State} (h : Keeps s0 s) (d : DieId) (key : List Byte) (serial : List Byte) (sig : List Byte) (chains : Bool) : OKeeps s0 (execDieIdentityCheck d key serial sig chains s) := by
  unfold execDieIdentityCheck
  repeat' first
    | (with_reducible assumption)
    | (with_reducible exact Keeps.refl _)
    | (with_reducible apply OKeeps.next)
    | (with_reducible apply State.freeBytes_keeps)
    | (with_reducible apply State.modDie_keeps)
    | (with_reducible apply State.holdOff_keeps)
    | (exact State.skipFree_keeps h _)
    | (dsimp only)
    | (intro)
    | (with_reducible apply OKeeps.ite)
    | (with_reducible apply Keeps.ite)
    | split
    | (exact fun _ hx => ⟨hx.1, hx.2, hx.3, hx.4, hx.5, hx.6⟩)
    | (exact fun _ hx => ⟨hx.1, hx.2⟩)
    | (exact fun _ => Nat.le_refl _)
    | (exact fun _ ha hb => ⟨ha, hb⟩)
    | (apply DieInv.same <;> first | assumption | rfl)

theorem execClockStart_keeps {s0 s : State} (h : Keeps s0 s) (d : DieId) : OKeeps s0 (execClockStart d s) := by
  unfold execClockStart
  repeat' first
    | (with_reducible assumption)
    | (with_reducible exact Keeps.refl _)
    | (with_reducible apply OKeeps.next)
    | (with_reducible apply State.modDie_keeps)
    | (with_reducible apply State.heat_keeps)
    | (with_reducible apply State.logClk_keeps)
    | (with_reducible apply State.moveVcore_keeps)
    | (dsimp only)
    | (intro)
    | (with_reducible apply OKeeps.ite)
    | (with_reducible apply Keeps.ite)
    | split
    | (exact fun _ hx => ⟨hx.1, hx.2, hx.3, hx.4, hx.5, hx.6⟩)
    | (exact fun _ hx => ⟨hx.1, hx.2⟩)
    | (exact fun _ => Nat.le_refl _)
    | (exact fun _ ha hb => ⟨ha, hb⟩)
    | (apply DieInv.same <;> first | assumption | rfl)

theorem execSelfTest_keeps {s0 s : State} (h : Keeps s0 s) (d : DieId) (tested : Nat) (lines : List (Nat × Nat)) (detectors : Nat) : OKeeps s0 (execSelfTest d tested lines detectors s) := by
  unfold execSelfTest
  repeat' first
    | (with_reducible assumption)
    | (with_reducible exact Keeps.refl _)
    | (with_reducible apply OKeeps.next)
    | (with_reducible apply State.modDie_keeps)
    | (with_reducible apply State.heat_keeps)
    | (with_reducible apply State.holdOff_keeps)
    | (with_reducible apply State.lineFails_keeps)
    | (with_reducible apply State.loadCoeffs_keeps)
    | (with_reducible apply State.sramLost_keeps)
    | (with_reducible apply State.unmaskLines_keeps)
    | (with_reducible apply Keeps.foldl)
    | (dsimp only)
    | (intro)
    | (with_reducible apply OKeeps.ite)
    | (with_reducible apply Keeps.ite)
    | split
    | (exact fun _ hx => ⟨hx.1, hx.2, hx.3, hx.4, hx.5, hx.6⟩)
    | (exact fun _ hx => ⟨hx.1, hx.2⟩)
    | (exact fun _ => Nat.le_refl _)
    | (exact fun _ ha hb => ⟨ha, hb⟩)
    | (apply DieInv.same <;> first | assumption | rfl)

theorem execDieReady_keeps {s0 s : State} (h : Keeps s0 s) (d : DieId) : OKeeps s0 (execDieReady d s) := by
  unfold execDieReady
  repeat' first
    | (with_reducible assumption)
    | (with_reducible exact Keeps.refl _)
    | (with_reducible apply OKeeps.next)
    | (with_reducible apply State.modDie_keeps)
    | (with_reducible apply State.feedEngines_keeps)
    | (with_reducible apply State.heat_keeps)
    | (dsimp only)
    | (intro)
    | (with_reducible apply OKeeps.ite)
    | (with_reducible apply Keeps.ite)
    | split
    | (exact fun _ hx => ⟨hx.1, hx.2, hx.3, hx.4, hx.5, hx.6⟩)
    | (exact fun _ hx => ⟨hx.1, hx.2⟩)
    | (exact fun _ => Nat.le_refl _)
    | (exact fun _ ha hb => ⟨ha, hb⟩)
    | (apply DieInv.same <;> first | assumption | rfl)

theorem execTrayReady_keeps {s0 s : State} (h : Keeps s0 s)  : OKeeps s0 (execTrayReady s) := by
  unfold execTrayReady
  repeat' first
    | (with_reducible assumption)
    | (with_reducible exact Keeps.refl _)
    | (with_reducible apply OKeeps.next)
    | (with_reducible apply State.modTray_keeps)
    | (with_reducible apply State.advanceTo_keeps)
    | (dsimp only)
    | (intro)
    | (with_reducible apply OKeeps.ite)
    | (with_reducible apply Keeps.ite)
    | split
    | (exact fun _ hx => ⟨hx.1, hx.2, hx.3, hx.4, hx.5, hx.6⟩)
    | (exact fun _ hx => ⟨hx.1, hx.2⟩)
    | (exact fun _ => Nat.le_refl _)
    | (exact fun _ ha hb => ⟨ha, hb⟩)
    | (exact Nat.le_refl _)

theorem State.restoreGranule_keeps {s0 s : State} (h : Keeps s0 s) (g : SavedGranule) : Keeps s0 (State.restoreGranule s g) := by
  unfold State.restoreGranule
  repeat' first
    | (with_reducible assumption)
    | (with_reducible exact Keeps.refl _)
    | (with_reducible apply State.modDie_keeps)
    | (with_reducible apply State.logTray_keeps)
    | (with_reducible apply State.sramWrite_keeps)
    | (with_reducible apply Keeps.foldl)
    | (dsimp only)
    | (intro)
    | (with_reducible apply Keeps.ite)
    | split
    | (exact fun _ hx => ⟨hx.1, hx.2, hx.3, hx.4, hx.5, hx.6⟩)
    | (exact fun _ hx => ⟨hx.1, hx.2⟩)
    | (exact fun _ => Nat.le_refl _)
    | (exact fun _ ha hb => ⟨ha, hb⟩)
    | (apply DieInv.same <;> first | assumption | rfl)

theorem execVaultRestore_keeps {s0 s : State} (h : Keeps s0 s)  : OKeeps s0 (execVaultRestore s) := by
  unfold execVaultRestore
  repeat' first
    | (with_reducible assumption)
    | (with_reducible exact Keeps.refl _)
    | (with_reducible apply OKeeps.next)
    | (with_reducible apply State.heat_keeps)
    | (with_reducible apply State.modHold_keeps)
    | (with_reducible apply State.restoreGranule_keeps)
    | (with_reducible apply Keeps.foldl)
    | (dsimp only)
    | (intro)
    | (with_reducible apply OKeeps.ite)
    | (with_reducible apply Keeps.ite)
    | split

theorem State.finishReset_keeps {s0 s : State} (h : Keeps s0 s)  : Keeps s0 (State.finishReset s) := by
  unfold State.finishReset
  repeat' first
    | (with_reducible assumption)
    | (with_reducible exact Keeps.refl _)
    | (with_reducible apply State.advanceTo_keeps)
    | (with_reducible apply State.coldReset_keeps)
    | (with_reducible apply State.commitNow_keeps)
    | (intro)
    | (with_reducible apply Keeps.ite)

theorem State.coldResetApply_keeps {s0 s : State} (h : Keeps s0 s)  : GKeeps s0 (State.coldResetApply s) := by
  unfold State.coldResetApply
  repeat' first
    | (with_reducible assumption)
    | (with_reducible exact Keeps.refl _)
    | (with_reducible apply GKeeps.done)
    | (with_reducible apply GKeeps.refused)
    | (with_reducible apply State.modFw_keeps)
    | (with_reducible apply State.startSave_keeps)
    | (intro)
    | (with_reducible apply GKeeps.ite)

theorem execTrayColdReset_keeps {s0 s : State} (h : Keeps s0 s) (m : MasterId) (v : Nat) : OKeeps s0 (execTrayColdReset m v s) := by
  unfold execTrayColdReset
  repeat' first
    | (with_reducible assumption)
    | (with_reducible exact Keeps.refl _)
    | (with_reducible apply OKeeps.next)
    | (with_reducible apply State.coldResetApply_keeps)
    | (with_reducible apply State.finishReset_keeps)
    | (with_reducible apply State.gate_keeps)
    | (with_reducible apply GKeeps.done)
    | (with_reducible apply GKeeps.refused)
    | (exact fun _ hx => ⟨hx.1, hx.2, hx.3, hx.4, hx.5, hx.6⟩)
    | (exact fun _ hx => ⟨hx.1, hx.2⟩)
    | (exact fun _ => Nat.le_refl _)
    | (exact fun _ ha hb => ⟨ha, hb⟩)
    | (exact Nat.le_refl _)
    | (intro)

theorem State.powerCycle_keeps {s0 s : State} (h : Keeps s0 s) (d : DieId) : Keeps s0 (State.powerCycle s d) := by
  unfold State.powerCycle
  repeat' first
    | (with_reducible assumption)
    | (with_reducible exact Keeps.refl _)
    | (with_reducible apply State.modDie_keeps)
    | (with_reducible apply State.railsOff_keeps)
    | (exact fun _ hx => ⟨hx.1, hx.2, hx.3, hx.4, hx.5, hx.6⟩)

theorem State.powerCycleApply_keeps {s0 s : State} (h : Keeps s0 s) (d : DieId) : GKeeps s0 (State.powerCycleApply s d) := by
  unfold State.powerCycleApply
  repeat' first
    | (with_reducible assumption)
    | (with_reducible exact Keeps.refl _)
    | (with_reducible apply GKeeps.done)
    | (with_reducible apply GKeeps.refused)
    | (with_reducible apply State.modDie_keeps)
    | (with_reducible apply State.powerCycle_keeps)
    | (dsimp only)
    | (intro)
    | (with_reducible apply GKeeps.ite)
    | (with_reducible apply Keeps.ite)
    | split
    | (exact fun _ hx => ⟨hx.1, hx.2, hx.3, hx.4, hx.5, hx.6⟩)
    | (exact fun _ hx => ⟨hx.1, hx.2⟩)
    | (exact fun _ => Nat.le_refl _)
    | (exact fun _ ha hb => ⟨ha, hb⟩)
    | (apply DieInv.same <;> first | assumption | rfl)

theorem execDiePowerCycle_keeps {s0 s : State} (h : Keeps s0 s) (m : MasterId) (d : DieId) (v : Nat) : OKeeps s0 (execDiePowerCycle m d v s) := by
  unfold execDiePowerCycle
  repeat' first
    | (with_reducible assumption)
    | (with_reducible exact Keeps.refl _)
    | (with_reducible apply OKeeps.next)
    | (with_reducible apply State.gate_keeps)
    | (with_reducible apply State.powerCycleApply_keeps)
    | (with_reducible apply GKeeps.done)
    | (with_reducible apply GKeeps.refused)
    | (exact fun _ hx => ⟨hx.1, hx.2, hx.3, hx.4, hx.5, hx.6⟩)
    | (exact fun _ hx => ⟨hx.1, hx.2⟩)
    | (exact fun _ => Nat.le_refl _)
    | (exact fun _ ha hb => ⟨ha, hb⟩)
    | (exact Nat.le_refl _)
    | (intro)

theorem State.warmReset_keeps {s0 s : State} (h : Keeps s0 s) (d : DieId) : Keeps s0 (State.warmReset s d) := by
  unfold State.warmReset
  apply State.loadCoeffs_keeps
  apply State.modDie_keeps
  · apply Keeps.foldl
    · intro u p hu
      exact State.portRetrain_keeps hu _ _
    · exact State.sendLeave_keeps (State.endRuns_keeps (State.dropFlows_keeps h _ _) _ _ _) _ _
  · intro x hx
    exact ⟨hx.1, hx.2, hx.3, Nat.zero_le _, hx.5, hx.6⟩

theorem State.warmResetApply_keeps {s0 s : State} (h : Keeps s0 s) (d : DieId) : GKeeps s0 (State.warmResetApply s d) := by
  unfold State.warmResetApply
  repeat' first
    | (with_reducible assumption)
    | (with_reducible exact Keeps.refl _)
    | (with_reducible apply GKeeps.done)
    | (with_reducible apply GKeeps.refused)
    | (with_reducible apply State.warmReset_keeps)
    | (dsimp only)
    | (intro)
    | (with_reducible apply GKeeps.ite)

theorem execDieWarmReset_keeps {s0 s : State} (h : Keeps s0 s) (m : MasterId) (d : DieId) (v : Nat) : OKeeps s0 (execDieWarmReset m d v s) := by
  unfold execDieWarmReset
  repeat' first
    | (with_reducible assumption)
    | (with_reducible exact Keeps.refl _)
    | (with_reducible apply OKeeps.next)
    | (with_reducible apply State.gate_keeps)
    | (with_reducible apply State.warmResetApply_keeps)
    | (with_reducible apply GKeeps.done)
    | (with_reducible apply GKeeps.refused)
    | (exact fun _ hx => ⟨hx.1, hx.2, hx.3, hx.4, hx.5, hx.6⟩)
    | (exact fun _ hx => ⟨hx.1, hx.2⟩)
    | (exact fun _ => Nat.le_refl _)
    | (exact fun _ ha hb => ⟨ha, hb⟩)
    | (exact Nat.le_refl _)
    | (intro)

theorem execStartStepLate_keeps {s0 s : State} (h : Keeps s0 s) (d : DieId) : OKeeps s0 (execStartStepLate d s) := by
  unfold execStartStepLate
  repeat' first
    | (with_reducible assumption)
    | (with_reducible exact Keeps.refl _)
    | (with_reducible apply OKeeps.next)
    | (with_reducible apply State.modDie_keeps)
    | (with_reducible apply State.holdOff_keeps)
    | (with_reducible apply State.powerCycle_keeps)
    | (dsimp only)
    | (intro)
    | (with_reducible apply OKeeps.ite)
    | (with_reducible apply Keeps.ite)
    | split
    | (exact fun _ hx => ⟨hx.1, hx.2, hx.3, hx.4, hx.5, hx.6⟩)
    | (exact fun _ hx => ⟨hx.1, hx.2⟩)
    | (exact fun _ => Nat.le_refl _)
    | (exact fun _ ha hb => ⟨ha, hb⟩)
    | (apply DieInv.same <;> first | assumption | rfl)

end Sys2Proof.Machine
end

