-- ==== Sys2Proof/Laws/KeepsFirmwareOps.lean ====
section
/-! SUPPORT. The operations of Machine/FirmwareOps.lean keep what `Keeps` says. -/

namespace Sys2Proof.Machine
open Sys2Proof

theorem State.chunkNoApply_keeps {s0 s : State} (h : Keeps s0 s) (v : Nat) : GKeeps s0 (State.chunkNoApply s v) := by
  unfold State.chunkNoApply
  repeat' first
    | (with_reducible assumption)
    | (with_reducible exact Keeps.refl _)
    | (with_reducible apply GKeeps.done)
    | (with_reducible apply GKeeps.refused)
    | (with_reducible apply State.modFw_keeps)
    | (dsimp only)
    | (intro)
    | (with_reducible apply GKeeps.ite)

theorem execImageChunkNumberWrite_keeps {s0 s : State} (h : Keeps s0 s) (m : MasterId) (v : Nat) : OKeeps s0 (execImageChunkNumberWrite m v s) := by
  unfold execImageChunkNumberWrite
  repeat' first
    | (with_reducible assumption)
    | (with_reducible exact Keeps.refl _)
    | (with_reducible apply OKeeps.next)
    | (with_reducible apply State.chunkNoApply_keeps)
    | (with_reducible apply State.gate_keeps)
    | (with_reducible apply GKeeps.done)
    | (with_reducible apply GKeeps.refused)
    | (exact fun _ hx => ⟨hx.1, hx.2, hx.3, hx.4, hx.5, hx.6⟩)
    | (exact fun _ hx => ⟨hx.1, hx.2⟩)
    | (exact fun _ => Nat.le_refl _)
    | (exact fun _ ha hb => ⟨ha, hb⟩)
    | (exact Nat.le_refl _)
    | (intro)

theorem State.chunkApply_keeps {s0 s : State} (h : Keeps s0 s) (v : List Byte) : GKeeps s0 (State.chunkApply s v) := by
  unfold State.chunkApply
  repeat' first
    | (with_reducible assumption)
    | (with_reducible exact Keeps.refl _)
    | (with_reducible apply GKeeps.done)
    | (with_reducible apply GKeeps.refused)
    | (with_reducible apply State.modFw_keeps)
    | (dsimp only)
    | (intro)
    | (with_reducible apply GKeeps.ite)

theorem execImageChunk_keeps {s0 s : State} (h : Keeps s0 s) (m : MasterId) (v : List Byte) : OKeeps s0 (execImageChunk m v s) := by
  unfold execImageChunk
  repeat' first
    | (with_reducible assumption)
    | (with_reducible exact Keeps.refl _)
    | (with_reducible apply OKeeps.next)
    | (with_reducible apply State.chunkApply_keeps)
    | (with_reducible apply State.gate_keeps)
    | (with_reducible apply GKeeps.done)
    | (with_reducible apply GKeeps.refused)
    | (exact fun _ hx => ⟨hx.1, hx.2, hx.3, hx.4, hx.5, hx.6⟩)
    | (exact fun _ hx => ⟨hx.1, hx.2⟩)
    | (exact fun _ => Nat.le_refl _)
    | (exact fun _ ha hb => ⟨ha, hb⟩)
    | (exact Nat.le_refl _)
    | (intro)

theorem State.stageApply_keeps {s0 s : State} (h : Keeps s0 s) (v : Nat) : GKeeps s0 (State.stageApply s v) := by
  unfold State.stageApply
  repeat' first
    | (with_reducible assumption)
    | (with_reducible exact Keeps.refl _)
    | (with_reducible apply GKeeps.done)
    | (with_reducible apply GKeeps.refused)
    | (with_reducible apply State.modFw_keeps)
    | (intro)
    | (with_reducible apply GKeeps.ite)

theorem execStageImage_keeps {s0 s : State} (h : Keeps s0 s) (m : MasterId) (v : Nat) : OKeeps s0 (execStageImage m v s) := by
  unfold execStageImage
  repeat' first
    | (with_reducible assumption)
    | (with_reducible exact Keeps.refl _)
    | (with_reducible apply OKeeps.next)
    | (with_reducible apply State.gate_keeps)
    | (with_reducible apply State.stageApply_keeps)
    | (with_reducible apply GKeeps.done)
    | (with_reducible apply GKeeps.refused)
    | (exact fun _ hx => ⟨hx.1, hx.2, hx.3, hx.4, hx.5, hx.6⟩)
    | (exact fun _ hx => ⟨hx.1, hx.2⟩)
    | (exact fun _ => Nat.le_refl _)
    | (exact fun _ ha hb => ⟨ha, hb⟩)
    | (exact Nat.le_refl _)
    | (intro)

theorem execStagingComplete_keeps {s0 s : State} (h : Keeps s0 s) (r : StageResult) : OKeeps s0 (execStagingComplete r s) := by
  unfold execStagingComplete
  repeat' first
    | (with_reducible assumption)
    | (with_reducible exact Keeps.refl _)
    | (with_reducible apply OKeeps.next)
    | (with_reducible apply State.modFw_keeps)
    | (dsimp only)
    | (intro)
    | (with_reducible apply OKeeps.ite)

theorem State.activateApply_keeps {s0 s : State} (h : Keeps s0 s)  : GKeeps s0 (State.activateApply s) := by
  unfold State.activateApply
  repeat' first
    | (with_reducible assumption)
    | (with_reducible exact Keeps.refl _)
    | (with_reducible apply GKeeps.done)
    | (with_reducible apply GKeeps.refused)
    | (with_reducible apply State.modFw_keeps)
    | (dsimp only)
    | (intro)
    | (with_reducible apply GKeeps.ite)

theorem execActivateStagedImage_keeps {s0 s : State} (h : Keeps s0 s) (m : MasterId) (v : Nat) : OKeeps s0 (execActivateStagedImage m v s) := by
  unfold execActivateStagedImage
  repeat' first
    | (with_reducible assumption)
    | (with_reducible exact Keeps.refl _)
    | (with_reducible apply OKeeps.next)
    | (with_reducible apply State.activateApply_keeps)
    | (with_reducible apply State.gate_keeps)
    | (with_reducible apply GKeeps.done)
    | (with_reducible apply GKeeps.refused)
    | (exact fun _ hx => ⟨hx.1, hx.2, hx.3, hx.4, hx.5, hx.6⟩)
    | (exact fun _ hx => ⟨hx.1, hx.2⟩)
    | (exact fun _ => Nat.le_refl _)
    | (exact fun _ ha hb => ⟨ha, hb⟩)
    | (exact Nat.le_refl _)
    | (intro)

theorem State.beginHandoff_keeps {s0 s : State} (h : Keeps s0 s) (d : DieId) : Keeps s0 (State.beginHandoff s d) := by
  unfold State.beginHandoff
  repeat' first
    | (with_reducible assumption)
    | (with_reducible exact Keeps.refl _)
    | (with_reducible apply State.modDie_keeps)
    | (intro)
    | (with_reducible apply Keeps.ite)
    | split
    | (exact fun _ hx => ⟨hx.1, hx.2, hx.3, hx.4, hx.5, hx.6⟩)
    | (exact fun _ hx => ⟨hx.1, hx.2⟩)
    | (exact fun _ => Nat.le_refl _)
    | (exact fun _ ha hb => ⟨ha, hb⟩)
    | (apply DieInv.same <;> first | assumption | rfl)

theorem State.handoffBoundary_keeps {s0 s : State} (h : Keeps s0 s)  : Keeps s0 (State.handoffBoundary s) := by
  unfold State.handoffBoundary
  repeat' first
    | (with_reducible assumption)
    | (with_reducible exact Keeps.refl _)
    | (with_reducible apply State.beginHandoff_keeps)
    | (with_reducible apply State.modFw_keeps)
    | (dsimp only)
    | (intro)
    | (with_reducible apply Keeps.ite)
    | split

theorem State.coldStart_keeps {s0 s : State} (h : Keeps s0 s) (d : DieId) : Keeps s0 (State.coldStart s d) := by
  unfold State.coldStart
  dsimp only
  split
  all_goals try apply State.urgent_keeps
  all_goals
    apply State.scaleBudgets_keeps
    apply State.retarget_keeps
    apply State.loadCoeffs_keeps
    apply State.modDie_keeps h
    intro x hx
    exact ⟨hx.1, hx.2, hx.3, Nat.zero_le _, hx.5, hx.6⟩

theorem State.lowerNow_keeps {s0 s : State} (h : Keeps s0 s) (k : ObjKey) (v : Nat) : Keeps s0 (State.lowerNow s k v) := by
  have aux : ∀ r, GKeeps s0 r → Keeps s0 (match r with
      | .refused _ _ t => t.effectDone k v 0
      | .done t _ eff => if eff then t.effectDone k v 0 else t) := by
    intro r hr
    cases r with
    | refused _ _ t => exact State.effectDone_keeps hr.keeps _ _ _
    | done t _ eff =>
      have := hr.keeps
      dsimp only
      split
      · exact State.effectDone_keeps this _ _ _
      · exact this
  unfold State.lowerNow
  apply aux
  have hc := State.cancelRaise_keeps h k
  apply GKeeps.ite
  · exact State.marginApply_keeps hc _ _ _
  apply GKeeps.ite
  · exact State.limitWrite_keeps hc _ _ _ fun u hu => State.vsramSet_keeps hu _ _
  apply GKeeps.ite
  · exact State.limitWrite_keeps hc _ _ _ fun u hu => State.scaleBudgets_keeps hu _
  · exact State.limitWrite_keeps hc _ _ _ fun u hu => hu

theorem State.endHandoff_keeps {s0 s : State} (h : Keeps s0 s) (d : DieId) (digest : List Byte) : Keeps s0 (State.endHandoff s d digest) := by
  unfold State.endHandoff
  repeat' first
    | (with_reducible assumption)
    | (with_reducible exact Keeps.refl _)
    | (with_reducible apply State.modDie_keeps)
    | (with_reducible apply State.frostFollow_keeps)
    | (with_reducible apply State.lowerNow_keeps)
    | (with_reducible apply State.modFw_keeps)
    | (with_reducible apply Keeps.foldl)
    | (dsimp only)
    | (exact fun _ hx => ⟨hx.1, hx.2, hx.3, hx.4, hx.5, hx.6⟩)
    | (exact fun _ hx => ⟨hx.1, hx.2⟩)
    | (exact fun _ => Nat.le_refl _)
    | (exact fun _ ha hb => ⟨ha, hb⟩)
    | (exact Nat.le_refl _)
    | (intro)

theorem State.rollBackAll_keeps {s0 s : State} (h : Keeps s0 s) (who : Nat) : Keeps s0 (State.rollBackAll s who) := by
  unfold State.rollBackAll
  repeat' first
    | (with_reducible assumption)
    | (with_reducible exact Keeps.refl _)
    | (with_reducible apply State.logTray_keeps)
    | (with_reducible apply State.modFw_keeps)
    | (dsimp only)
    | (intro)
    | (with_reducible apply Keeps.ite)

theorem State.dieWatchdog_keeps {s0 s : State} (h : Keeps s0 s) (d : DieId) : Keeps s0 (State.dieWatchdog s d) := by
  unfold State.dieWatchdog
  repeat' first
    | (with_reducible assumption)
    | (with_reducible exact Keeps.refl _)
    | (with_reducible apply State.modDie_keeps)
    | (with_reducible apply State.frostFollow_keeps)
    | (with_reducible apply State.lowerNow_keeps)
    | (with_reducible apply State.rollBackAll_keeps)
    | (with_reducible apply Keeps.foldl)
    | (dsimp only)
    | (exact fun _ hx => ⟨hx.1, hx.2, hx.3, hx.4, hx.5, hx.6⟩)
    | (exact fun _ hx => ⟨hx.1, hx.2⟩)
    | (exact fun _ => Nat.le_refl _)
    | (exact fun _ ha hb => ⟨ha, hb⟩)
    | (exact Nat.le_refl _)
    | (intro)

theorem execHoldingPatternCheck_keeps {s0 s : State} (h : Keeps s0 s) (d : DieId) (est : Nat) : OKeeps s0 (execHoldingPatternCheck d est s) := by
  unfold execHoldingPatternCheck
  repeat' first
    | (with_reducible assumption)
    | (with_reducible exact Keeps.refl _)
    | (with_reducible apply OKeeps.next)
    | (with_reducible apply State.modDie_keeps)
    | (dsimp only)
    | (intro)
    | (with_reducible apply OKeeps.ite)
    | (with_reducible apply Keeps.ite)
    | split
    | (exact fun _ hx => ⟨hx.1, hx.2, hx.3, hx.4, hx.5, hx.6⟩)
    | (exact fun _ hx => ⟨hx.1, hx.2⟩)
    | (exact fun _ => Nat.le_refl _)
    | (exact fun _ ha hb => ⟨ha, hb⟩)
    | (apply DieInv.same <;> first | assumption | rfl)

theorem execUpdateConfirm_keeps {s0 s : State} (h : Keeps s0 s)  : OKeeps s0 (execUpdateConfirm s) := by
  unfold execUpdateConfirm
  repeat' first
    | (with_reducible assumption)
    | (with_reducible exact Keeps.refl _)
    | (with_reducible apply OKeeps.next)
    | (with_reducible apply State.allDies_keeps)
    | (with_reducible apply State.advanceTo_keeps)
    | (with_reducible apply State.logTray_keeps)
    | (with_reducible apply State.modFw_keeps)
    | (dsimp only)
    | (intro)
    | (with_reducible apply OKeeps.ite)
    | (with_reducible apply Keeps.ite)
    | split
    | (exact fun _ hx => ⟨hx.1, hx.2, hx.3, hx.4, hx.5, hx.6⟩)
    | (exact fun _ hx => ⟨hx.1, hx.2⟩)
    | (exact fun _ => Nat.le_refl _)
    | (exact fun _ ha hb => ⟨ha, hb⟩)
    | (apply DieInv.same <;> first | assumption | rfl)

end Sys2Proof.Machine
end

