-- ==== Sys2Proof/Laws/KeepsEpoch.lean ====
section
/-! SUPPORT. The operations of Machine/Epoch.lean keep what `Keeps` says. -/

namespace Sys2Proof.Machine
open Sys2Proof

theorem State.raiseInForce_keeps {s0 s : State} (h : Keeps s0 s) (k : ObjKey) (v : Nat) : Keeps s0 (State.raiseInForce s k v) := by
  unfold State.raiseInForce
  repeat' first
    | (with_reducible assumption)
    | (with_reducible exact Keeps.refl _)
    | (with_reducible apply State.modDie_keeps)
    | (with_reducible apply State.cancelRaise_keeps)
    | (with_reducible apply State.putSetting_keeps)
    | (with_reducible apply State.vsramSet_keeps)
    | (dsimp only)
    | (intro)
    | (with_reducible apply Keeps.ite)
    | split
    | (exact fun _ hx => ⟨hx.1, hx.2, hx.3, hx.4, hx.5, hx.6⟩)
    | (exact fun _ hx => ⟨hx.1, hx.2⟩)
    | (exact fun _ => Nat.le_refl _)
    | (exact fun _ ha hb => ⟨ha, hb⟩)
    | (apply DieInv.same <;> first | assumption | rfl)

theorem State.applyRaises_keeps {s0 s : State} (h : Keeps s0 s) (sel : Nat) (n : Nat) : Keeps s0 (State.applyRaises s sel n) := by
  unfold State.applyRaises
  repeat' first
    | (with_reducible assumption)
    | (with_reducible exact Keeps.refl _)
    | (with_reducible apply State.raiseInForce_keeps)
    | (with_reducible apply Keeps.foldl)
    | (exact fun _ hx => ⟨hx.1, hx.2, hx.3, hx.4, hx.5, hx.6⟩)
    | (exact fun _ hx => ⟨hx.1, hx.2⟩)
    | (exact fun _ => Nat.le_refl _)
    | (exact fun _ ha hb => ⟨ha, hb⟩)
    | (exact Nat.le_refl _)
    | (intro)

theorem State.closeHeld_keeps {s0 s : State} (h : Keeps s0 s) (d : DieId) : Keeps s0 (State.closeHeld s d) := by
  unfold State.closeHeld
  repeat' first
    | (with_reducible assumption)
    | (with_reducible exact Keeps.refl _)
    | (with_reducible apply State.modCtx_keeps)
    | (with_reducible apply Keeps.foldl)
    | (exact fun _ hx => ⟨hx.1, hx.2, hx.3, hx.4, hx.5, hx.6⟩)
    | (exact fun _ hx => ⟨hx.1, hx.2⟩)
    | (exact fun _ => Nat.le_refl _)
    | (exact fun _ ha hb => ⟨ha, hb⟩)
    | (exact Nat.le_refl _)
    | (intro)

theorem State.leaveGroup_keeps {s0 s : State} (h : Keeps s0 s) (d : DieId) (stray : Bool) (merges : Bool) : Keeps s0 (State.leaveGroup s d stray merges) := by
  unfold State.leaveGroup
  repeat' first
    | (with_reducible assumption)
    | (with_reducible exact Keeps.refl _)
    | (with_reducible apply State.modDie_keeps)
    | (with_reducible apply State.stopMember_keeps)
    | (intro)
    | (with_reducible apply Keeps.ite)
    | split
    | (exact fun _ hx => ⟨hx.1, hx.2, hx.3, hx.4, hx.5, hx.6⟩)
    | (exact fun _ hx => ⟨hx.1, hx.2⟩)
    | (exact fun _ => Nat.le_refl _)
    | (exact fun _ ha hb => ⟨ha, hb⟩)
    | (apply DieInv.same <;> first | assumption | rfl)

theorem State.groupSwitch_keeps {s0 s : State} (h : Keeps s0 s) (d : DieId) : Keeps s0 (State.groupSwitch s d) := by
  unfold State.groupSwitch
  repeat' first
    | (with_reducible assumption)
    | (with_reducible exact Keeps.refl _)
    | (with_reducible apply State.applyStep_keeps)
    | (dsimp only)
    | (intro)
    | (with_reducible apply Keeps.ite)

theorem State.noResult_keeps {s0 s : State} (h : Keeps s0 s) (d : DieId) : Keeps s0 (State.noResult s d) := by
  unfold State.noResult
  repeat' first
    | (with_reducible assumption)
    | (with_reducible exact Keeps.refl _)
    | (with_reducible apply State.modDie_keeps)
    | (with_reducible apply State.leaveGroup_keeps)
    | (with_reducible apply State.logDie_keeps)
    | (with_reducible apply State.moveVcore_keeps)
    | (dsimp only)
    | (intro)
    | (with_reducible apply Keeps.ite)
    | split
    | (exact fun _ hx => ⟨hx.1, hx.2, hx.3, hx.4, hx.5, hx.6⟩)
    | (exact fun _ hx => ⟨hx.1, hx.2⟩)
    | (exact fun _ => Nat.le_refl _)
    | (exact fun _ ha hb => ⟨ha, hb⟩)
    | (apply DieInv.same <;> first | assumption | rfl)

theorem State.applyResult_keeps {s0 s : State} (h : Keeps s0 s) (d : DieId) (n : Nat) : Keeps s0 (State.applyResult s d n) := by
  unfold State.applyResult
  repeat' first
    | (with_reducible assumption)
    | (with_reducible exact Keeps.refl _)
    | (with_reducible apply State.modDie_keeps)
    | (with_reducible apply State.groupSwitch_keeps)
    | (with_reducible apply State.leaveGroup_keeps)
    | (with_reducible apply State.logDie_keeps)
    | (with_reducible apply State.noResult_keeps)
    | (dsimp only)
    | (intro)
    | (with_reducible apply Keeps.ite)
    | split
    | (exact fun _ hx => ⟨hx.1, hx.2, hx.3, hx.4, hx.5, hx.6⟩)
    | (exact fun _ hx => ⟨hx.1, hx.2⟩)
    | (exact fun _ => Nat.le_refl _)
    | (exact fun _ ha hb => ⟨ha, hb⟩)
    | (apply DieInv.same <;> first | assumption | rfl)

theorem State.wideAtBoundary_keeps {s0 s : State} (h : Keeps s0 s) (d : DieId) : Keeps s0 (State.wideAtBoundary s d) := by
  unfold State.wideAtBoundary
  repeat' first
    | (with_reducible assumption)
    | (with_reducible exact Keeps.refl _)
    | (with_reducible apply State.wideInForce_keeps)
    | (dsimp only)
    | (intro)
    | (with_reducible apply Keeps.ite)

theorem State.boundaryTarget_keeps {s0 s : State} (h : Keeps s0 s) (d : DieId) : Keeps s0 (State.boundaryTarget s d) := by
  unfold State.boundaryTarget
  repeat' first
    | (with_reducible assumption)
    | (with_reducible exact Keeps.refl _)
    | (with_reducible apply State.retarget_keeps)
    | (intro)
    | (with_reducible apply Keeps.ite)

theorem State.dieBoundary_keeps {s0 s : State} (h : Keeps s0 s) (d : DieId) (n : Nat) : Keeps s0 (State.dieBoundary s d n) := by
  have k1 : Keeps s0 (((s.applyRaises d.val n).closeHeld d).modDie d fun x => { x with
      op := x.op.closeTrim, droop := x.closeDroop, nrg := x.closeEnergy d, pow := x.closePower
      svc := { x.svc with leadHold := false, noProposal := false } }) := by
    apply State.modDie_keeps (State.closeHeld_keeps (State.applyRaises_keeps h _ _) _)
    intro x hx
    refine ⟨hx.1, ?_, (by intro v hv; cases hv), hx.4, ?_, hx.6⟩
    · show x.op.trimFall.getD x.op.trim ≤ 160
      cases e : x.op.trimFall with
      | none => exact hx.2
      | some v => exact hx.3 v e
    · show (List.take 28610 _).length ≤ 28610
      rw [List.length_take]
      exact Nat.min_le_left _ _
  have k2 := State.modDie_keeps (State.applyResult_keeps k1 d n) d (fun x => { x with mer := x.closeMeridian, clk := { x.clk with nextStep := none } })
    fun _ hx => ⟨hx.1, hx.2, hx.3, hx.4, hx.5, hx.6⟩
  have k3 := State.modDie_keeps k2 d (fun x => { x with pow := { x.pow with sealBroken := x.sealNow (s.die d).mer.groupStep (!(s.die d).pow.sealed) } })
    fun _ hx => ⟨hx.1, hx.2, hx.3, hx.4, hx.5, hx.6⟩
  unfold State.dieBoundary
  apply State.setBudgets_keeps
  apply State.wideAtBoundary_keeps
  apply State.boundaryTarget_keeps
  dsimp only
  split
  · exact State.leadFall_keeps k3 _
  · exact k3

theorem State.trayBoundary_keeps {s0 s : State} (h : Keeps s0 s) (n : Nat) : Keeps s0 (State.trayBoundary s n) := by
  unfold State.trayBoundary
  repeat' first
    | (with_reducible assumption)
    | (with_reducible exact Keeps.refl _)
    | (with_reducible apply State.modTray_keeps)
    | (with_reducible apply State.applyRaises_keeps)
    | (with_reducible apply State.handoffBoundary_keeps)
    | (with_reducible apply State.updateCap_keeps)
    | (dsimp only)
    | (intro)
    | (with_reducible apply Keeps.ite)
    | split
    | (exact fun _ hx => ⟨hx.1, hx.2, hx.3, hx.4, hx.5, hx.6⟩)
    | (exact fun _ hx => ⟨hx.1, hx.2⟩)
    | (exact fun _ => Nat.le_refl _)
    | (exact fun _ ha hb => ⟨ha, hb⟩)
    | (exact Nat.le_refl _)

theorem execEpochBoundary_keeps {s0 s : State} (h : Keeps s0 s)  : OKeeps s0 (execEpochBoundary s) := by
  unfold execEpochBoundary
  repeat' first
    | (with_reducible assumption)
    | (with_reducible exact Keeps.refl _)
    | (with_reducible apply OKeeps.next)
    | (with_reducible apply State.forDies_keeps)
    | (with_reducible apply State.advanceTo_keeps)
    | (with_reducible apply State.dieBoundary_keeps)
    | (with_reducible apply State.trayBoundary_keeps)
    | (dsimp only)
    | (intro)
    | (with_reducible apply OKeeps.ite)
    | (with_reducible apply Keeps.ite)
    | split

end Sys2Proof.Machine
end

