-- ==== Sys2Proof/Laws/KeepsScoutEvents.lean ====
section
/-! SUPPORT. The operations of Machine/ScoutEvents.lean keep what `Keeps` says. -/

namespace Sys2Proof.Machine
open Sys2Proof

theorem State.failBank_keeps {s0 s : State} (h : Keeps s0 s) (d : DieId) (b : Nat) : Keeps s0 (State.failBank s d b) := by
  unfold State.failBank
  repeat' first
    | (with_reducible assumption)
    | (with_reducible exact Keeps.refl _)
    | (with_reducible apply State.logDie_keeps)
    | (with_reducible apply State.modBank_keeps)
    | (dsimp only)
    | (intro)
    | (with_reducible apply Keeps.ite)

theorem execRefRingUpdate_keeps {s0 s : State} (h : Keeps s0 s) (d : DieId) (b : Fin 8) (change : List Int) (locked : Bool) : OKeeps s0 (execRefRingUpdate d b change locked s) := by
  unfold execRefRingUpdate
  repeat' first
    | (with_reducible assumption)
    | (with_reducible exact Keeps.refl _)
    | (with_reducible apply OKeeps.next)
    | (with_reducible apply State.failBank_keeps)
    | (with_reducible apply State.modBank_keeps)
    | (with_reducible apply Keeps.foldl)
    | (dsimp only)
    | (intro)
    | (with_reducible apply OKeeps.ite)

theorem execTapPowerMeasure_keeps {s0 s : State} (h : Keeps s0 s) (d : DieId) (b : Fin 8) (dbm : Int) : OKeeps s0 (execTapPowerMeasure d b dbm s) := by
  unfold execTapPowerMeasure
  repeat' first
    | (with_reducible assumption)
    | (with_reducible exact Keeps.refl _)
    | (with_reducible apply OKeeps.next)
    | (with_reducible apply State.failBank_keeps)
    | (with_reducible apply State.modBank_keeps)
    | (dsimp only)
    | (intro)
    | (with_reducible apply OKeeps.ite)
    | (with_reducible apply Keeps.ite)

theorem execBankRecalibration_keeps {s0 s : State} (h : Keeps s0 s) (d : DieId) (b : Fin 8) (d0 : List Nat) (gain : List Nat) (pass : Bool) : OKeeps s0 (execBankRecalibration d b d0 gain pass s) := by
  unfold execBankRecalibration
  repeat' first
    | (with_reducible assumption)
    | (with_reducible exact Keeps.refl _)
    | (with_reducible apply OKeeps.next)
    | (with_reducible apply State.skipFree_keeps)
    | (with_reducible apply State.advanceTo_keeps)
    | (with_reducible apply State.failBank_keeps)
    | (with_reducible apply State.modBank_keeps)
    | (dsimp only)
    | (intro)
    | (with_reducible apply OKeeps.ite)
    | (with_reducible apply Keeps.ite)

theorem State.recalApply_keeps {s0 s : State} (h : Keeps s0 s) (d : DieId) (v : Nat) : Keeps s0 (State.recalApply s d v) := by
  unfold State.recalApply
  repeat' first
    | (with_reducible assumption)
    | (with_reducible exact Keeps.refl _)
    | (with_reducible apply State.modDie_keeps)
    | (dsimp only)
    | (intro)
    | (with_reducible apply Keeps.ite)
    | split
    | (exact fun _ hx => ⟨hx.1, hx.2, hx.3, hx.4, hx.5, hx.6⟩)
    | (exact fun _ hx => ⟨hx.1, hx.2⟩)
    | (exact fun _ => Nat.le_refl _)
    | (exact fun _ ha hb => ⟨ha, hb⟩)
    | (apply DieInv.same <;> first | assumption | rfl)

theorem execRecalibrateNow_keeps {s0 s : State} (h : Keeps s0 s) (m : MasterId) (d : DieId) (v : Nat) : OKeeps s0 (execRecalibrateNow m d v s) := by
  unfold execRecalibrateNow
  repeat' first
    | (with_reducible assumption)
    | (with_reducible exact Keeps.refl _)
    | (with_reducible apply OKeeps.next)
    | (with_reducible apply State.gate_keeps)
    | (with_reducible apply State.recalApply_keeps)
    | (with_reducible apply GKeeps.done)
    | (with_reducible apply GKeeps.refused)
    | (exact fun _ hx => ⟨hx.1, hx.2, hx.3, hx.4, hx.5, hx.6⟩)
    | (exact fun _ hx => ⟨hx.1, hx.2⟩)
    | (exact fun _ => Nat.le_refl _)
    | (exact fun _ ha hb => ⟨ha, hb⟩)
    | (exact Nat.le_refl _)
    | (intro)

theorem execScoutCalibrationTablesBuilt_keeps {s0 s : State} (h : Keeps s0 s) (d : DieId) (d0 : List (List Nat)) (gain : List (List Nat)) : OKeeps s0 (execScoutCalibrationTablesBuilt d d0 gain s) := by
  unfold execScoutCalibrationTablesBuilt
  repeat' first
    | (with_reducible assumption)
    | (with_reducible exact Keeps.refl _)
    | (with_reducible apply OKeeps.next)
    | (with_reducible apply State.modDie_keeps)
    | (with_reducible apply State.skipFree_keeps)
    | (dsimp only)
    | (intro)
    | (with_reducible apply OKeeps.ite)
    | (with_reducible apply Keeps.ite)
    | split
    | (exact fun _ hx => ⟨hx.1, hx.2, hx.3, hx.4, hx.5, hx.6⟩)
    | (exact fun _ hx => ⟨hx.1, hx.2⟩)
    | (exact fun _ => Nat.le_refl _)
    | (exact fun _ ha hb => ⟨ha, hb⟩)
    | (apply DieInv.same <;> first | assumption | rfl)

end Sys2Proof.Machine
end

