-- ==== Sys2Proof/Laws/KeepsServiceEvents.lean ====
section
/-! SUPPORT. The operations of Machine/ServiceEvents.lean keep what `Keeps` says. -/

namespace Sys2Proof.Machine
open Sys2Proof

theorem execEmergency_keeps {s0 s : State} (h : Keeps s0 s) (d : DieId) (r : EmergencyRec) : OKeeps s0 (execEmergency d r s) := by
  unfold execEmergency
  repeat' first
    | (with_reducible assumption)
    | (with_reducible exact Keeps.refl _)
    | (with_reducible apply OKeeps.next)
    | (with_reducible apply State.takeEmergency_keeps)

theorem execMoraineAssign_keeps {s0 s : State} (h : Keeps s0 s)  : OKeeps s0 (execMoraineAssign s) := by
  unfold execMoraineAssign
  split
  · exact OKeeps.next h
  · dsimp only
    split
    · exact OKeeps.next h
    · apply OKeeps.next
      refine State.modTray_keeps ?_ _ fun _ => Nat.le_refl _
      exact State.modTray_keeps h _ fun y => Nat.add_le_add_left (Nat.le_add_right _ _) _

theorem State.remapApply_keeps {s0 s : State} (h : Keeps s0 s) (d : DieId) (v : Nat) : GKeeps s0 (State.remapApply s d v) := by
  unfold State.remapApply
  repeat' first
    | (with_reducible assumption)
    | (with_reducible exact Keeps.refl _)
    | (with_reducible apply GKeeps.done)
    | (with_reducible apply GKeeps.refused)
    | (with_reducible apply State.failTile_keeps)
    | (dsimp only)
    | (intro)
    | (with_reducible apply GKeeps.ite)

theorem execRemapTile_keeps {s0 s : State} (h : Keeps s0 s) (m : MasterId) (d : DieId) (v : Nat) : OKeeps s0 (execRemapTile m d v s) := by
  unfold execRemapTile
  repeat' first
    | (with_reducible assumption)
    | (with_reducible exact Keeps.refl _)
    | (with_reducible apply OKeeps.next)
    | (with_reducible apply State.gate_keeps)
    | (with_reducible apply State.remapApply_keeps)
    | (with_reducible apply GKeeps.done)
    | (with_reducible apply GKeeps.refused)
    | (exact fun _ hx => ⟨hx.1, hx.2, hx.3, hx.4, hx.5, hx.6⟩)
    | (exact fun _ hx => ⟨hx.1, hx.2⟩)
    | (exact fun _ => Nat.le_refl _)
    | (exact fun _ ha hb => ⟨ha, hb⟩)
    | (exact Nat.le_refl _)
    | (intro)

theorem execTileRemap_keeps {s0 s : State} (h : Keeps s0 s) (d : DieId) (pass : Bool) : OKeeps s0 (execTileRemap d pass s) := by
  unfold execTileRemap
  dsimp only
  split
  · exact OKeeps.next h
  · split
    · exact OKeeps.next (State.modDie_keeps h _ _ fun _ hx => ⟨hx.1, hx.2, hx.3, hx.4, hx.5, hx.6⟩)
    · apply OKeeps.next
      apply State.logDie_keeps
      apply State.modDie_keeps (State.sramFree_keeps h _ _ _)
      intro x hx
      refine ⟨?_, hx.2, hx.3, hx.4, hx.5, ?_⟩
      · rw [(Tiles.setOwners_keep _ _ _ _).1]
        exact hx.1
      · rw [(Tiles.setOwners_keep _ _ _ _).2]
        exact hx.6

theorem execLedDiagnosis_keeps {s0 s : State} (h : Keeps s0 s) (currents : List Nat) : OKeeps s0 (execLedDiagnosis currents s) := by
  unfold execLedDiagnosis
  repeat' first
    | (with_reducible assumption)
    | (with_reducible exact Keeps.refl _)
    | (with_reducible apply OKeeps.next)
    | (with_reducible apply State.modTray_keeps)
    | (with_reducible apply State.logTray_keeps)
    | (with_reducible apply Keeps.foldl)
    | (dsimp only)
    | (intro)
    | (with_reducible apply OKeeps.ite)
    | (with_reducible apply Keeps.ite)
    | split
    | (exact fun _ hx => ⟨hx.1, hx.2, hx.3, hx.4, hx.5, hx.6⟩)
    | (exact fun _ hx => ⟨hx.1, hx.2⟩)
    | (exact fun _ => Nat.le_refl _)
    | (exact fun _ ha hb => ⟨ha, hb⟩)
    | (exact Nat.le_refl _)

theorem State.heaterOpens_keeps {s0 s : State} (h : Keeps s0 s) (d : DieId) (ring : Nat) : Keeps s0 (State.heaterOpens s d ring) := by
  unfold State.heaterOpens
  repeat' first
    | (with_reducible assumption)
    | (with_reducible exact Keeps.refl _)
    | (with_reducible apply State.modDie_keeps)
    | (with_reducible apply State.failBank_keeps)
    | (with_reducible apply State.lineOut_keeps)
    | (with_reducible apply State.logDie_keeps)
    | (dsimp only)
    | (intro)
    | (with_reducible apply Keeps.ite)
    | split
    | (exact fun _ hx => ⟨hx.1, hx.2, hx.3, hx.4, hx.5, hx.6⟩)
    | (exact fun _ hx => ⟨hx.1, hx.2⟩)
    | (exact fun _ => Nat.le_refl _)
    | (exact fun _ ha hb => ⟨ha, hb⟩)
    | (apply DieInv.same <;> first | assumption | rfl)

theorem execHeaterDiagnosis_keeps {s0 s : State} (h : Keeps s0 s) (d : DieId) (ring : Nat) (meas : Nat) : OKeeps s0 (execHeaterDiagnosis d ring meas s) := by
  unfold execHeaterDiagnosis
  repeat' first
    | (with_reducible assumption)
    | (with_reducible exact Keeps.refl _)
    | (with_reducible apply OKeeps.next)
    | (with_reducible apply State.modDie_keeps)
    | (with_reducible apply State.heaterOpens_keeps)
    | (dsimp only)
    | (intro)
    | (with_reducible apply OKeeps.ite)
    | (with_reducible apply Keeps.ite)
    | split
    | (exact fun _ hx => ⟨hx.1, hx.2, hx.3, hx.4, hx.5, hx.6⟩)
    | (exact fun _ hx => ⟨hx.1, hx.2⟩)
    | (exact fun _ => Nat.le_refl _)
    | (exact fun _ ha hb => ⟨ha, hb⟩)
    | (apply DieInv.same <;> first | assumption | rfl)

theorem execBoundaryScanInstruction_keeps {s0 s : State} (h : Keeps s0 s) (i : TapInstr) : OKeeps s0 (execBoundaryScanInstruction i s) := by
  unfold execBoundaryScanInstruction
  repeat' first
    | (with_reducible assumption)
    | (with_reducible exact Keeps.refl _)
    | (with_reducible apply OKeeps.next)
    | (with_reducible apply State.modTray_keeps)
    | (intro)
    | (with_reducible apply OKeeps.ite)
    | (with_reducible apply Keeps.ite)
    | split
    | (exact fun _ hx => ⟨hx.1, hx.2, hx.3, hx.4, hx.5, hx.6⟩)
    | (exact fun _ hx => ⟨hx.1, hx.2⟩)
    | (exact fun _ => Nat.le_refl _)
    | (exact fun _ ha hb => ⟨ha, hb⟩)
    | (exact Nat.le_refl _)

end Sys2Proof.Machine
end

