-- ==== Sys2Proof/Laws/KeepsMapEvents.lean ====
section
/-! SUPPORT. The operations of Machine/MapEvents.lean keep what `Keeps` says. -/

namespace Sys2Proof.Machine
open Sys2Proof

theorem State.modSrv_keeps {s0 s : State} (h : Keeps s0 s) (d : DieId) (f : Survey → Survey) : Keeps s0 (State.modSrv s d f) := by
  unfold State.modSrv
  repeat' first
    | (with_reducible assumption)
    | (with_reducible exact Keeps.refl _)
    | (with_reducible apply State.modDie_keeps)
    | (exact fun _ hx => ⟨hx.1, hx.2, hx.3, hx.4, hx.5, hx.6⟩)

theorem State.modCmp_keeps {s0 s : State} (h : Keeps s0 s) (d : DieId) (f : Composer → Composer) : Keeps s0 (State.modCmp s d f) := by
  unfold State.modCmp
  repeat' first
    | (with_reducible assumption)
    | (with_reducible exact Keeps.refl _)
    | (with_reducible apply State.modDie_keeps)
    | (exact fun _ hx => ⟨hx.1, hx.2, hx.3, hx.4, hx.5, hx.6⟩)

theorem State.surveyNow_keeps {s0 s : State} (h : Keeps s0 s) (d : DieId) : GKeeps s0 (State.surveyNow s d) := by
  unfold State.surveyNow
  repeat' first
    | (with_reducible assumption)
    | (with_reducible exact Keeps.refl _)
    | (with_reducible apply GKeeps.done)
    | (with_reducible apply GKeeps.refused)
    | (with_reducible apply State.modSrv_keeps)
    | (intro)
    | (with_reducible apply GKeeps.ite)

theorem execSurveyNow_keeps {s0 s : State} (h : Keeps s0 s) (m : MasterId) (d : DieId) (v : Nat) : OKeeps s0 (execSurveyNow m d v s) := by
  unfold execSurveyNow
  repeat' first
    | (with_reducible assumption)
    | (with_reducible exact Keeps.refl _)
    | (with_reducible apply OKeeps.next)
    | (with_reducible apply State.gate_keeps)
    | (with_reducible apply State.surveyNow_keeps)
    | (with_reducible apply GKeeps.done)
    | (with_reducible apply GKeeps.refused)
    | (exact fun _ hx => ⟨hx.1, hx.2, hx.3, hx.4, hx.5, hx.6⟩)
    | (exact fun _ hx => ⟨hx.1, hx.2⟩)
    | (exact fun _ => Nat.le_refl _)
    | (exact fun _ ha hb => ⟨ha, hb⟩)
    | (exact Nat.le_refl _)
    | (intro)

theorem execSurveyIntervalExpire_keeps {s0 s : State} (h : Keeps s0 s) (d : DieId) : OKeeps s0 (execSurveyIntervalExpire d s) := by
  unfold execSurveyIntervalExpire
  repeat' first
    | (with_reducible assumption)
    | (with_reducible exact Keeps.refl _)
    | (with_reducible apply OKeeps.next)
    | (with_reducible apply State.advanceTo_keeps)
    | (with_reducible apply State.modSrv_keeps)
    | (dsimp only)
    | (intro)
    | (with_reducible apply OKeeps.ite)

theorem execSurveyComplete_keeps {s0 s : State} (h : Keeps s0 s) (d : DieId) (grid : List Int) : OKeeps s0 (execSurveyComplete d grid s) := by
  unfold execSurveyComplete
  repeat' first
    | (with_reducible assumption)
    | (with_reducible exact Keeps.refl _)
    | (with_reducible apply OKeeps.next)
    | (with_reducible apply State.modSrv_keeps)
    | (dsimp only)
    | (intro)
    | (with_reducible apply OKeeps.ite)
    | (with_reducible apply Keeps.ite)
    | split

theorem execFrameStart_keeps {s0 s : State} (h : Keeps s0 s) (d : DieId) : OKeeps s0 (execFrameStart d s) := by
  unfold execFrameStart
  repeat' first
    | (with_reducible assumption)
    | (with_reducible exact Keeps.refl _)
    | (with_reducible apply OKeeps.next)
    | (with_reducible apply State.modDie_keeps)
    | (with_reducible apply State.skipFree_keeps)
    | (with_reducible apply State.advanceTo_keeps)
    | (with_reducible apply State.modCmp_keeps)
    | (dsimp only)
    | (intro)
    | (with_reducible apply OKeeps.ite)
    | (with_reducible apply Keeps.ite)
    | split
    | (exact fun _ hx => ⟨hx.1, hx.2, hx.3, hx.4, hx.5, hx.6⟩)
    | (exact fun _ hx => ⟨hx.1, hx.2⟩)
    | (exact fun _ => Nat.le_refl _)
    | (exact fun _ ha hb => ⟨ha, hb⟩)
    | (apply DieInv.same <;> first | assumption | rfl)

theorem State.ringFrame_keeps {s0 s : State} (h : Keeps s0 s) (d : DieId) (bytes : List Byte) : Keeps s0 (State.ringFrame s d bytes) := by
  unfold State.ringFrame
  repeat' first
    | (with_reducible assumption)
    | (with_reducible exact Keeps.refl _)
    | (with_reducible apply State.hostWrite_keeps)
    | (dsimp only)
    | (intro)
    | (with_reducible apply Keeps.ite)
    | split

theorem execComposerCheck_keeps {s0 s : State} (h : Keeps s0 s) (d : DieId) (fault : Nat) (setFaults : List Nat) : OKeeps s0 (execComposerCheck d fault setFaults s) := by
  unfold execComposerCheck
  repeat' first
    | (with_reducible assumption)
    | (with_reducible exact Keeps.refl _)
    | (with_reducible apply OKeeps.next)
    | (with_reducible apply State.logDie_keeps)
    | (with_reducible apply State.modCmp_keeps)
    | (dsimp only)
    | (intro)
    | (with_reducible apply OKeeps.ite)
    | (with_reducible apply Keeps.ite)

theorem execRunCheckNow_keeps {s0 s : State} (h : Keeps s0 s) (m : MasterId) (d : DieId) (v : Nat) : OKeeps s0 (execRunCheckNow m d v s) := by
  unfold execRunCheckNow
  repeat' first
    | (with_reducible assumption)
    | (with_reducible exact Keeps.refl _)
    | (with_reducible apply OKeeps.next)
    | (with_reducible apply State.gate_keeps)
    | (with_reducible apply State.modCmp_keeps)
    | (with_reducible apply GKeeps.done)
    | (with_reducible apply GKeeps.refused)
    | (exact fun _ hx => ⟨hx.1, hx.2, hx.3, hx.4, hx.5, hx.6⟩)
    | (exact fun _ hx => ⟨hx.1, hx.2⟩)
    | (exact fun _ => Nat.le_refl _)
    | (exact fun _ ha hb => ⟨ha, hb⟩)
    | (exact Nat.le_refl _)
    | (intro)

theorem State.composerApply_keeps {s0 s : State} (h : Keeps s0 s) (d : DieId) (sub : Nat) (v : List Byte) : GKeeps s0 (State.composerApply s d sub v) := by
  unfold State.composerApply
  repeat' first
    | (with_reducible assumption)
    | (with_reducible exact Keeps.refl _)
    | (with_reducible apply GKeeps.done)
    | (with_reducible apply GKeeps.refused)
    | (with_reducible apply State.modCmp_keeps)
    | (with_reducible apply State.modSrv_keeps)
    | (with_reducible apply State.putSetting_keeps)
    | (dsimp only)
    | (intro)
    | (with_reducible apply GKeeps.ite)
    | (with_reducible apply Keeps.ite)

theorem execComposerWrite_keeps {s0 s : State} (h : Keeps s0 s) (m : MasterId) (d : DieId) (sub : Nat) (v : List Byte) : OKeeps s0 (execComposerWrite m d sub v s) := by
  unfold execComposerWrite
  repeat' first
    | (with_reducible assumption)
    | (with_reducible exact Keeps.refl _)
    | (with_reducible apply OKeeps.next)
    | (with_reducible apply State.composerApply_keeps)
    | (with_reducible apply State.gate_keeps)
    | (with_reducible apply GKeeps.done)
    | (with_reducible apply GKeeps.refused)
    | (intro)
    | (with_reducible apply OKeeps.ite)

theorem execCoeffSetWrite_keeps {s0 s : State} (h : Keeps s0 s) (m : MasterId) (d : DieId) (set : Nat) (v : List Byte) : OKeeps s0 (execCoeffSetWrite m d set v s) := by
  unfold execCoeffSetWrite
  repeat' first
    | (with_reducible assumption)
    | (with_reducible exact Keeps.refl _)
    | (with_reducible apply OKeeps.next)
    | (with_reducible apply State.composerApply_keeps)
    | (with_reducible apply State.gate_keeps)
    | (with_reducible apply GKeeps.done)
    | (with_reducible apply GKeeps.refused)
    | (intro)
    | (with_reducible apply OKeeps.ite)

end Sys2Proof.Machine
end

