-- ==== Sys2Proof/Laws/KeepsQueueCmds.lean ====
section
/-! SUPPORT. The operations of Machine/QueueCmds.lean keep what `Keeps` says. -/

namespace Sys2Proof.Machine
open Sys2Proof

theorem execNopCommand_keeps {s0 s : State} (h : Keeps s0 s) (t : Nat) (hh : Nat) (q : Nat) : OKeeps s0 (execNopCommand t hh q s) := by
  unfold execNopCommand
  repeat' first
    | (with_reducible assumption)
    | (with_reducible exact Keeps.refl _)
    | (with_reducible apply OKeeps.next)
    | (with_reducible apply State.ends_keeps)
    | (with_reducible apply State.withHead_keeps)
    | (exact fun _ hx => ⟨hx.1, hx.2, hx.3, hx.4, hx.5, hx.6⟩)
    | (exact fun _ hx => ⟨hx.1, hx.2⟩)
    | (exact fun _ => Nat.le_refl _)
    | (exact fun _ ha hb => ⟨ha, hb⟩)
    | (exact Nat.le_refl _)
    | (intro)

theorem State.bindSram_keeps {s0 s : State} (h : Keeps s0 s) (d : DieId) (t : Nat) (hh : Nat) (q : Nat) (n : Nat) (first : Nat) (count : Nat) : Keeps s0 (State.bindSram s d t hh q n first count) := by
  unfold State.bindSram
  dsimp only
  split
  · exact State.ends_keeps h _ _ _ _
  · split
    · exact State.waits_keeps h _ _ _
    · apply State.ends_keeps
      apply State.modCtx_keeps
      apply State.modDie_keeps (State.modTenant_keeps h _ _)
      intro x hx
      exact DieInv.tiles hx _ (Tiles.setOwners_keep _ _ _ _).1 (by rw [(Tiles.setOwners_keep _ _ _ _).2])

theorem State.publish_keeps {s0 s : State} (h : Keeps s0 s) (t : Nat) (hh : Nat) (q : Nat) (n : Nat) (id : Nat) : Keeps s0 (State.publish s t hh q n id) := by
  unfold State.publish
  repeat' first
    | (with_reducible assumption)
    | (with_reducible exact Keeps.refl _)
    | (with_reducible apply State.modCtx_keeps)
    | (with_reducible apply State.modTenant_keeps)
    | (with_reducible apply State.ends_keeps)
    | (with_reducible apply State.unloadPlans_keeps)
    | (intro)
    | (with_reducible apply Keeps.ite)
    | split

theorem execBind_keeps {s0 s : State} (h : Keeps s0 s) (t : Nat) (hh : Nat) (q : Nat) : OKeeps s0 (execBind t hh q s) := by
  unfold execBind
  repeat' first
    | (with_reducible assumption)
    | (with_reducible exact Keeps.refl _)
    | (with_reducible apply OKeeps.next)
    | (with_reducible apply State.modCtx_keeps)
    | (with_reducible apply State.bindSram_keeps)
    | (with_reducible apply State.ends_keeps)
    | (with_reducible apply State.onDie_keeps)
    | (with_reducible apply State.publish_keeps)
    | (with_reducible apply State.withHead_keeps)
    | (dsimp only)
    | (intro)
    | (with_reducible apply OKeeps.ite)
    | (with_reducible apply Keeps.ite)
    | split

theorem execUnbind_keeps {s0 s : State} (h : Keeps s0 s) (t : Nat) (hh : Nat) (q : Nat) : OKeeps s0 (execUnbind t hh q s) := by
  unfold execUnbind
  repeat' first
    | (with_reducible assumption)
    | (with_reducible exact Keeps.refl _)
    | (with_reducible apply OKeeps.next)
    | (with_reducible apply State.ends_keeps)
    | (with_reducible apply State.removeBinding_keeps)
    | (with_reducible apply State.withHead_keeps)
    | (dsimp only)
    | (intro)
    | (with_reducible apply OKeeps.ite)
    | (with_reducible apply Keeps.ite)
    | split

theorem State.resideOn_keeps {s0 s : State} (h : Keeps s0 s) (d : DieId) (t : Nat) (hh : Nat) (q : Nat) : Keeps s0 (State.resideOn s d t hh q) := by
  unfold State.resideOn
  repeat' first
    | (with_reducible assumption)
    | (with_reducible exact Keeps.refl _)
    | (with_reducible apply State.ends_keeps)
    | (with_reducible apply State.place_keeps)
    | (with_reducible apply State.waits_keeps)
    | (dsimp only)
    | (intro)
    | (with_reducible apply Keeps.ite)
    | split

theorem State.resideAny_keeps {s0 s : State} (h : Keeps s0 s) (t : Nat) (hh : Nat) (q : Nat) : Keeps s0 (State.resideAny s t hh q) := by
  unfold State.resideAny
  repeat' first
    | (with_reducible assumption)
    | (with_reducible exact Keeps.refl _)
    | (with_reducible apply State.ends_keeps)
    | (with_reducible apply State.resideOn_keeps)
    | (dsimp only)
    | (intro)
    | (with_reducible apply Keeps.ite)
    | split

theorem execReside_keeps {s0 s : State} (h : Keeps s0 s) (t : Nat) (hh : Nat) (q : Nat) : OKeeps s0 (execReside t hh q s) := by
  unfold execReside
  repeat' first
    | (with_reducible assumption)
    | (with_reducible exact Keeps.refl _)
    | (with_reducible apply OKeeps.next)
    | (with_reducible apply State.complete_keeps)
    | (with_reducible apply State.ends_keeps)
    | (with_reducible apply State.resideAny_keeps)
    | (with_reducible apply State.resideOn_keeps)
    | (with_reducible apply State.withHead_keeps)
    | (dsimp only)
    | (intro)
    | (with_reducible apply OKeeps.ite)
    | (with_reducible apply Keeps.ite)
    | split

theorem State.evictRunning_keeps {s0 s : State} (h : Keeps s0 s) (d : DieId) (t : Nat) (hh : Nat) : Keeps s0 (State.evictRunning s d t hh) := by
  unfold State.evictRunning
  repeat' first
    | (with_reducible assumption)
    | (with_reducible exact Keeps.refl _)
    | (with_reducible apply State.endRun_keeps)
    | (with_reducible apply State.ends_keeps)
    | (with_reducible apply State.leaveWait_keeps)
    | (with_reducible apply Keeps.foldl)
    | (dsimp only)
    | (intro)
    | (with_reducible apply Keeps.ite)
    | split

theorem State.dropQueue.go_keeps {s0 : State} (t : Nat) (hh : Nat) (q : Nat) (n : Nat) : ∀ {s : State}, Keeps s0 s → Keeps s0 (State.dropQueue.go t hh q n s) := by
  induction n with
  | zero => intro s h; exact h
  | succ n ih =>
    intro s h
    unfold State.dropQueue.go
    apply ih
    repeat' first
      | (with_reducible assumption)
      | (with_reducible exact Keeps.refl _)
      | (with_reducible apply State.finishHead_keeps)
      | (intro)
      | (with_reducible apply Keeps.ite)
      | split

theorem State.dropQueue_keeps {s0 s : State} (h : Keeps s0 s) (t : Nat) (hh : Nat) (q : Nat) : Keeps s0 (State.dropQueue s t hh q) := by
  unfold State.dropQueue
  repeat' first
    | (with_reducible apply State.dropQueue.go_keeps)
    | (with_reducible assumption)

theorem State.leaveDie_keeps {s0 s : State} (h : Keeps s0 s) (d : DieId) (t : Nat) (hh : Nat) : Keeps s0 (State.leaveDie s d t hh) := by
  unfold State.leaveDie
  apply State.modDie_keeps
  · apply State.modCtx_keeps
    apply Keeps.foldl _ _ (State.settleCtx_keeps h _ _ _)
    intro u n hu
    exact State.removeBinding_keeps hu _ _ _ _
  · intro x hx
    exact DieInv.tiles hx _ rfl (by rw [List.length_map])

theorem execEvict_keeps {s0 s : State} (h : Keeps s0 s) (t : Nat) (hh : Nat) (q : Nat) : OKeeps s0 (execEvict t hh q s) := by
  unfold execEvict
  repeat' first
    | (with_reducible assumption)
    | (with_reducible exact Keeps.refl _)
    | (with_reducible apply OKeeps.next)
    | (with_reducible apply State.setCtxs_keeps)
    | (with_reducible apply State.dropQueue_keeps)
    | (with_reducible apply State.ends_keeps)
    | (with_reducible apply State.evictRunning_keeps)
    | (with_reducible apply State.leaveDie_keeps)
    | (with_reducible apply State.modHead_keeps)
    | (with_reducible apply State.onDie_keeps)
    | (with_reducible apply State.withHead_keeps)
    | (with_reducible apply Keeps.foldl)
    | (dsimp only)
    | (intro)
    | (with_reducible apply OKeeps.ite)
    | (with_reducible apply Keeps.ite)

theorem execCopy_keeps {s0 s : State} (h : Keeps s0 s) (t : Nat) (hh : Nat) (q : Nat) : OKeeps s0 (execCopy t hh q s) := by
  unfold execCopy
  repeat' first
    | (with_reducible assumption)
    | (with_reducible exact Keeps.refl _)
    | (with_reducible apply OKeeps.next)
    | (with_reducible apply State.ends_keeps)
    | (with_reducible apply State.feedEngines_keeps)
    | (with_reducible apply State.modHead_keeps)
    | (with_reducible apply State.onDie_keeps)
    | (with_reducible apply State.withHead_keeps)
    | (intro)
    | (with_reducible apply OKeeps.ite)
    | (with_reducible apply Keeps.ite)
    | split

theorem execScrub_keeps {s0 s : State} (h : Keeps s0 s) (t : Nat) (hh : Nat) (q : Nat) : OKeeps s0 (execScrub t hh q s) := by
  unfold execScrub
  repeat' first
    | (with_reducible assumption)
    | (with_reducible exact Keeps.refl _)
    | (with_reducible apply OKeeps.next)
    | (with_reducible apply State.ends_keeps)
    | (with_reducible apply State.feedEngines_keeps)
    | (with_reducible apply State.modHead_keeps)
    | (with_reducible apply State.onDie_keeps)
    | (with_reducible apply State.withHead_keeps)
    | (intro)
    | (with_reducible apply OKeeps.ite)
    | (with_reducible apply Keeps.ite)
    | split

theorem execCopyUnitDone_keeps {s0 s : State} (h : Keeps s0 s) (d : DieId) (e : Fin 8) (data : HostRead) : OKeeps s0 (execCopyUnitDone d e data s) := by
  unfold execCopyUnitDone
  repeat' first
    | (with_reducible assumption)
    | (with_reducible exact Keeps.refl _)
    | (with_reducible apply OKeeps.next)
    | (with_reducible apply State.modDie_keeps)
    | (with_reducible apply State.complete_keeps)
    | (with_reducible apply State.countUnit_keeps)
    | (with_reducible apply State.dropUnits_keeps)
    | (with_reducible apply State.ends_keeps)
    | (with_reducible apply State.feedEngines_keeps)
    | (with_reducible apply State.modHead_keeps)
    | (with_reducible apply State.moveUnit_keeps)
    | (dsimp only)
    | (intro)
    | (with_reducible apply OKeeps.ite)
    | (with_reducible apply Keeps.ite)
    | split
    | (exact fun _ hx => ⟨hx.1, hx.2, hx.3, hx.4, hx.5, hx.6⟩)
    | (exact fun _ hx => ⟨hx.1, hx.2⟩)
    | (exact fun _ => Nat.le_refl _)
    | (exact fun _ ha hb => ⟨ha, hb⟩)
    | (apply DieInv.same <;> first | assumption | rfl)

theorem State.placeScores_keeps {s0 s : State} (h : Keeps s0 s) (d : DieId) (c : Container) : Keeps s0 (State.placeScores s d c) := by
  unfold State.placeScores
  repeat' first
    | (with_reducible assumption)
    | (with_reducible exact Keeps.refl _)
    | (with_reducible apply State.sramWrite_keeps)
    | (with_reducible apply Keeps.foldl)
    | (exact fun _ hx => ⟨hx.1, hx.2, hx.3, hx.4, hx.5, hx.6⟩)
    | (exact fun _ hx => ⟨hx.1, hx.2⟩)
    | (exact fun _ => Nat.le_refl _)
    | (exact fun _ ha hb => ⟨ha, hb⟩)
    | (exact Nat.le_refl _)
    | (intro)

theorem execLoadPlan_keeps {s0 s : State} (h : Keeps s0 s) (t : Nat) (hh : Nat) (q : Nat) (container : HostRead) : OKeeps s0 (execLoadPlan t hh q container s) := by
  unfold execLoadPlan
  repeat' first
    | (with_reducible assumption)
    | (with_reducible exact Keeps.refl _)
    | (with_reducible apply OKeeps.next)
    | (with_reducible apply State.modCtx_keeps)
    | (with_reducible apply State.modDie_keeps)
    | (with_reducible apply State.takeFree_keeps)
    | (with_reducible apply State.complete_keeps)
    | (with_reducible apply State.ends_keeps)
    | (with_reducible apply State.onDie_keeps)
    | (with_reducible apply State.placeScores_keeps)
    | (with_reducible apply State.waits_keeps)
    | (with_reducible apply State.withHead_keeps)
    | (dsimp only)
    | (intro)
    | (with_reducible apply OKeeps.ite)
    | (with_reducible apply Keeps.ite)
    | split
    | (exact fun _ hx => ⟨hx.1, hx.2, hx.3, hx.4, hx.5, hx.6⟩)
    | (exact fun _ hx => ⟨hx.1, hx.2⟩)
    | (exact fun _ => Nat.le_refl _)
    | (exact fun _ ha hb => ⟨ha, hb⟩)
    | (apply DieInv.same <;> first | assumption | rfl)

theorem State.abandonRecal_keeps {s0 s : State} (h : Keeps s0 s) (d : DieId) (mask : Nat) : Keeps s0 (State.abandonRecal s d mask) := by
  unfold State.abandonRecal
  repeat' first
    | (with_reducible assumption)
    | (with_reducible exact Keeps.refl _)
    | (with_reducible apply State.modDie_keeps)
    | (dsimp only)
    | (intro)
    | (with_reducible apply Keeps.ite)
    | split
    | (exact fun _ hx => ⟨hx.1, hx.2, hx.3, hx.4, hx.5, hx.6⟩)
    | (exact fun _ hx => ⟨hx.1, hx.2⟩)
    | (exact fun _ => Nat.le_refl _)
    | (exact fun _ ha hb => ⟨ha, hb⟩)
    | (apply DieInv.same <;> first | assumption | rfl)

theorem State.tryRun_keeps {s0 s : State} (h : Keeps s0 s) (d : DieId) (t : Nat) (hh : Nat) (q : Nat) (c : Cmd) (p : Plan) : Keeps s0 (State.tryRun s d t hh q c p) := by
  unfold State.tryRun
  repeat' first
    | (with_reducible assumption)
    | (with_reducible exact Keeps.refl _)
    | (with_reducible apply State.abandonRecal_keeps)
    | (with_reducible apply State.ends_keeps)
    | (with_reducible apply State.leaveWait_keeps)
    | (with_reducible apply State.startRun_keeps)
    | (with_reducible apply State.waitRun_keeps)
    | (dsimp only)
    | (intro)
    | (with_reducible apply Keeps.ite)

theorem execRunPlan_keeps {s0 s : State} (h : Keeps s0 s) (t : Nat) (hh : Nat) (q : Nat) : OKeeps s0 (execRunPlan t hh q s) := by
  unfold execRunPlan
  repeat' first
    | (with_reducible assumption)
    | (with_reducible exact Keeps.refl _)
    | (with_reducible apply OKeeps.next)
    | (with_reducible apply State.ends_keeps)
    | (with_reducible apply State.leaveWait_keeps)
    | (with_reducible apply State.tryRun_keeps)
    | (with_reducible apply State.waitRun_keeps)
    | (with_reducible apply State.withHead_keeps)
    | (dsimp only)
    | (intro)
    | (with_reducible apply OKeeps.ite)
    | (with_reducible apply Keeps.ite)
    | split

theorem execHaltPlan_keeps {s0 s : State} (h : Keeps s0 s) (t : Nat) (hh : Nat) (q : Nat) : OKeeps s0 (execHaltPlan t hh q s) := by
  unfold execHaltPlan
  repeat' first
    | (with_reducible assumption)
    | (with_reducible exact Keeps.refl _)
    | (with_reducible apply OKeeps.next)
    | (with_reducible apply State.endRun_keeps)
    | (with_reducible apply State.ends_keeps)
    | (with_reducible apply State.onDie_keeps)
    | (with_reducible apply State.withHead_keeps)
    | (dsimp only)
    | split
    | (exact fun _ hx => ⟨hx.1, hx.2, hx.3, hx.4, hx.5, hx.6⟩)
    | (exact fun _ hx => ⟨hx.1, hx.2⟩)
    | (exact fun _ => Nat.le_refl _)
    | (exact fun _ ha hb => ⟨ha, hb⟩)
    | (exact Nat.le_refl _)
    | (intro)

theorem execSignal_keeps {s0 s : State} (h : Keeps s0 s) (t : Nat) (hh : Nat) (q : Nat) : OKeeps s0 (execSignal t hh q s) := by
  unfold execSignal
  repeat' first
    | (with_reducible assumption)
    | (with_reducible exact Keeps.refl _)
    | (with_reducible apply OKeeps.next)
    | (with_reducible apply State.complete_keeps)
    | (with_reducible apply State.ends_keeps)
    | (with_reducible apply State.setEvent_keeps)
    | (with_reducible apply State.withHead_keeps)
    | (dsimp only)
    | (intro)
    | (with_reducible apply OKeeps.ite)
    | (with_reducible apply Keeps.ite)

theorem execWait_keeps {s0 s : State} (h : Keeps s0 s) (t : Nat) (hh : Nat) (q : Nat) : OKeeps s0 (execWait t hh q s) := by
  unfold execWait
  repeat' first
    | (with_reducible assumption)
    | (with_reducible exact Keeps.refl _)
    | (with_reducible apply OKeeps.next)
    | (with_reducible apply State.complete_keeps)
    | (with_reducible apply State.ends_keeps)
    | (with_reducible apply State.modHead_keeps)
    | (with_reducible apply State.waits_keeps)
    | (with_reducible apply State.withHead_keeps)
    | (dsimp only)
    | (intro)
    | (with_reducible apply OKeeps.ite)
    | (with_reducible apply Keeps.ite)

theorem execQuery_keeps {s0 s : State} (h : Keeps s0 s) (t : Nat) (hh : Nat) (q : Nat) : OKeeps s0 (execQuery t hh q s) := by
  unfold execQuery
  repeat' first
    | (with_reducible assumption)
    | (with_reducible exact Keeps.refl _)
    | (with_reducible apply OKeeps.next)
    | (with_reducible apply State.ends_keeps)
    | (with_reducible apply State.hostWrite_keeps)
    | (with_reducible apply State.withHead_keeps)
    | (dsimp only)
    | (intro)
    | (with_reducible apply OKeeps.ite)
    | (with_reducible apply Keeps.ite)
    | split

theorem execFence_keeps {s0 s : State} (h : Keeps s0 s) (t : Nat) (hh : Nat) (q : Nat) : OKeeps s0 (execFence t hh q s) := by
  unfold execFence
  repeat' first
    | (with_reducible assumption)
    | (with_reducible exact Keeps.refl _)
    | (with_reducible apply OKeeps.next)
    | (with_reducible apply State.ends_keeps)
    | (with_reducible apply State.modHead_keeps)
    | (with_reducible apply State.modQueue_keeps)
    | (with_reducible apply State.waits_keeps)
    | (with_reducible apply State.withHead_keeps)
    | (dsimp only)
    | (intro)
    | (with_reducible apply OKeeps.ite)
    | (with_reducible apply Keeps.ite)

theorem execGranuleZeroed_keeps {s0 s : State} (h : Keeps s0 s) (d : DieId) (g : Nat) : OKeeps s0 (execGranuleZeroed d g s) := by
  unfold execGranuleZeroed
  repeat' first
    | (with_reducible assumption)
    | (with_reducible exact Keeps.refl _)
    | (with_reducible apply OKeeps.next)
    | (with_reducible apply State.modDie_keeps)
    | (with_reducible apply State.sramZero_keeps)
    | (dsimp only)
    | (intro)
    | (with_reducible apply OKeeps.ite)
    | (with_reducible apply Keeps.ite)
    | split
    | (exact fun _ hx => ⟨hx.1, hx.2, hx.3, hx.4, hx.5, hx.6⟩)
    | (exact fun _ hx => ⟨hx.1, hx.2⟩)
    | (exact fun _ => Nat.le_refl _)
    | (exact fun _ ha hb => ⟨ha, hb⟩)
    | (apply DieInv.same <;> first | assumption | rfl)

theorem execWaitHorizonExpire_keeps {s0 s : State} (h : Keeps s0 s) (t : Nat) (hh : Nat) (q : Nat) : OKeeps s0 (execWaitHorizonExpire t hh q s) := by
  unfold execWaitHorizonExpire
  repeat' first
    | (with_reducible assumption)
    | (with_reducible exact Keeps.refl _)
    | (with_reducible apply OKeeps.next)
    | (with_reducible apply State.advanceTo_keeps)
    | (with_reducible apply State.ends_keeps)
    | (with_reducible apply State.leaveWait_keeps)
    | (dsimp only)
    | (intro)
    | (with_reducible apply OKeeps.ite)
    | (with_reducible apply Keeps.ite)
    | split

end Sys2Proof.Machine
end

