-- ==== Sys2Proof/Laws/KeepsOpticEvents.lean ====
section
/-! SUPPORT. The operations of Machine/OpticEvents.lean keep what `Keeps` says. -/

namespace Sys2Proof.Machine
open Sys2Proof

theorem execCombStartupCheck_keeps {s0 s : State} (h : Keeps s0 s) (d : DieId) (aDev : List Int) (bDev : List Int) (aPow : Int) (bPow : Int) : OKeeps s0 (execCombStartupCheck d aDev bDev aPow bPow s) := by
  unfold execCombStartupCheck
  repeat' first
    | (with_reducible assumption)
    | (with_reducible exact Keeps.refl _)
    | (with_reducible apply OKeeps.next)
    | (with_reducible apply State.modDie_keeps)
    | (with_reducible apply State.holdOff_keeps)
    | (with_reducible apply State.modPort_keeps)
    | (with_reducible apply Keeps.foldl)
    | (dsimp only)
    | (intro)
    | (with_reducible apply OKeeps.ite)
    | (with_reducible apply Keeps.ite)
    | split
    | (exact fun _ hx => ⟨hx.1, hx.2, hx.3, hx.4, hx.5, hx.6⟩)
    | (exact fun _ hx => ⟨hx.1, hx.2⟩)
    | (exact fun _ => Nat.le_refl _)
    | (exact fun _ ha hb => ⟨ha, hb⟩)
    | (apply DieInv.same <;> first | assumption | rfl)

theorem execCombLoss_keeps {s0 s : State} (h : Keeps s0 s) (d : DieId) (samples : List Int) : OKeeps s0 (execCombLoss d samples s) := by
  unfold execCombLoss
  repeat' first
    | (with_reducible assumption)
    | (with_reducible exact Keeps.refl _)
    | (with_reducible apply OKeeps.next)
    | (with_reducible apply State.combLossNow_keeps)
    | (dsimp only)
    | (intro)
    | (with_reducible apply OKeeps.ite)

theorem execStandbyUnavailable_keeps {s0 s : State} (h : Keeps s0 s) (d : DieId) (pow : Int) (offs : List Int) : OKeeps s0 (execStandbyUnavailable d pow offs s) := by
  unfold execStandbyUnavailable
  repeat' first
    | (with_reducible assumption)
    | (with_reducible exact Keeps.refl _)
    | (with_reducible apply OKeeps.next)
    | (with_reducible apply State.modDie_keeps)
    | (dsimp only)
    | (exact fun _ hx => ⟨hx.1, hx.2, hx.3, hx.4, hx.5, hx.6⟩)

theorem execHeaterLoopUpdate_keeps {s0 s : State} (h : Keeps s0 s) (d : DieId) (ring : Nat) (u : Nat) (err : Bool) : OKeeps s0 (execHeaterLoopUpdate d ring u err s) := by
  unfold execHeaterLoopUpdate
  repeat' first
    | (with_reducible assumption)
    | (with_reducible exact Keeps.refl _)
    | (with_reducible apply OKeeps.next)
    | (with_reducible apply State.modDie_keeps)
    | (with_reducible apply State.lineBack_keeps)
    | (with_reducible apply State.unlockRing_keeps)
    | (dsimp only)
    | (intro)
    | (with_reducible apply OKeeps.ite)
    | (with_reducible apply Keeps.ite)
    | split
    | (exact fun _ hx => ⟨hx.1, hx.2, hx.3, hx.4, hx.5, hx.6⟩)
    | (exact fun _ hx => ⟨hx.1, hx.2⟩)
    | (exact fun _ => Nat.le_refl _)
    | (exact fun _ ha hb => ⟨ha, hb⟩)
    | (apply DieInv.same <;> first | assumption | rfl)

theorem execRingLockLoss_keeps {s0 s : State} (h : Keeps s0 s) (d : DieId) (port : Fin 16) (drop : Bool) (line : Fin 40) : OKeeps s0 (execRingLockLoss d port drop line s) := by
  unfold execRingLockLoss
  repeat' first
    | (with_reducible assumption)
    | (with_reducible exact Keeps.refl _)
    | (with_reducible apply OKeeps.next)
    | (with_reducible apply State.unlockRing_keeps)

theorem execRingSearchTimeout_keeps {s0 s : State} (h : Keeps s0 s) (d : DieId) (port : Fin 16) (drop : Bool) (line : Fin 40) : OKeeps s0 (execRingSearchTimeout d port drop line s) := by
  unfold execRingSearchTimeout
  repeat' first
    | (with_reducible assumption)
    | (with_reducible exact Keeps.refl _)
    | (with_reducible apply OKeeps.next)
    | (with_reducible apply State.modDie_keeps)
    | (with_reducible apply State.advanceTo_keeps)
    | (with_reducible apply State.lineOut_keeps)
    | (dsimp only)
    | (intro)
    | (with_reducible apply OKeeps.ite)
    | (with_reducible apply Keeps.ite)
    | split
    | (exact fun _ hx => ⟨hx.1, hx.2, hx.3, hx.4, hx.5, hx.6⟩)
    | (exact fun _ hx => ⟨hx.1, hx.2⟩)
    | (exact fun _ => Nat.le_refl _)
    | (exact fun _ ha hb => ⟨ha, hb⟩)
    | (apply DieInv.same <;> first | assumption | rfl)

theorem execSweepComplete_keeps {s0 s : State} (h : Keeps s0 s) (d : DieId) (port : Fin 16) (drop : Bool) (power : List (List (Option Nat))) : OKeeps s0 (execSweepComplete d port drop power s) := by
  unfold execSweepComplete
  repeat' first
    | (with_reducible assumption)
    | (with_reducible exact Keeps.refl _)
    | (with_reducible apply OKeeps.next)
    | (with_reducible apply State.modDie_keeps)
    | (with_reducible apply State.modPort_keeps)
    | (with_reducible apply State.startTraining_keeps)
    | (with_reducible apply Keeps.foldl)
    | (dsimp only)
    | (intro)
    | (with_reducible apply OKeeps.ite)
    | (with_reducible apply Keeps.ite)
    | split
    | (exact fun _ hx => ⟨hx.1, hx.2, hx.3, hx.4, hx.5, hx.6⟩)
    | (exact fun _ hx => ⟨hx.1, hx.2⟩)
    | (exact fun _ => Nat.le_refl _)
    | (exact fun _ ha hb => ⟨ha, hb⟩)
    | (apply DieInv.same <;> first | assumption | rfl)

theorem execFarLightArrival_keeps {s0 s : State} (h : Keeps s0 s) (d : DieId) (port : Fin 16) : OKeeps s0 (execFarLightArrival d port s) := by
  unfold execFarLightArrival
  repeat' first
    | (with_reducible assumption)
    | (with_reducible exact Keeps.refl _)
    | (with_reducible apply OKeeps.next)
    | (with_reducible apply State.modPort_keeps)
    | (intro)
    | (with_reducible apply OKeeps.ite)

theorem execHello_keeps {s0 s : State} (h : Keeps s0 s) (d : DieId) (port : Fin 16) (group : Nat) (id : Nat) (farPort : Nat) (serial : List Byte) : OKeeps s0 (execHello d port group id farPort serial s) := by
  unfold execHello
  repeat' first
    | (with_reducible assumption)
    | (with_reducible exact Keeps.refl _)
    | (with_reducible apply OKeeps.next)
    | (with_reducible apply State.takeHello_keeps)

theorem execLanemap_keeps {s0 s : State} (h : Keeps s0 s) (d : DieId) (port : Fin 16) (seq : Nat) (lines : List Nat) : OKeeps s0 (execLanemap d port seq lines s) := by
  unfold execLanemap
  repeat' first
    | (with_reducible assumption)
    | (with_reducible exact Keeps.refl _)
    | (with_reducible apply OKeeps.next)
    | (with_reducible apply State.takeLanemap_keeps)

theorem execTrainingComplete_keeps {s0 s : State} (h : Keeps s0 s) (d : DieId) (port : Fin 16) (passTx : Nat) (passRx : Nat) : OKeeps s0 (execTrainingComplete d port passTx passRx s) := by
  unfold execTrainingComplete
  repeat' first
    | (with_reducible assumption)
    | (with_reducible exact Keeps.refl _)
    | (with_reducible apply OKeeps.next)
    | (with_reducible apply State.modDie_keeps)
    | (with_reducible apply State.drainRecords_keeps)
    | (with_reducible apply State.logDie_keeps)
    | (with_reducible apply State.modPort_keeps)
    | (with_reducible apply State.pumpPort_keeps)
    | (with_reducible apply State.trainSend_keeps)
    | (dsimp only)
    | (intro)
    | (with_reducible apply OKeeps.ite)
    | (with_reducible apply Keeps.ite)
    | split
    | (exact fun _ hx => ⟨hx.1, hx.2, hx.3, hx.4, hx.5, hx.6⟩)
    | (exact fun _ hx => ⟨hx.1, hx.2⟩)
    | (exact fun _ => Nat.le_refl _)
    | (exact fun _ ha hb => ⟨ha, hb⟩)
    | (apply DieInv.same <;> first | assumption | rfl)

theorem execRetrainComplete_keeps {s0 s : State} (h : Keeps s0 s) (d : DieId) (port : Fin 16) : OKeeps s0 (execRetrainComplete d port s) := by
  unfold execRetrainComplete
  repeat' first
    | (with_reducible assumption)
    | (with_reducible exact Keeps.refl _)
    | (with_reducible apply OKeeps.next)
    | (with_reducible apply State.modDie_keeps)
    | (with_reducible apply State.drainRecords_keeps)
    | (with_reducible apply State.modPort_keeps)
    | (with_reducible apply State.pumpPort_keeps)
    | (with_reducible apply State.resend_keeps)
    | (dsimp only)
    | (intro)
    | (with_reducible apply OKeeps.ite)
    | (with_reducible apply Keeps.ite)
    | split
    | (exact fun _ hx => ⟨hx.1, hx.2, hx.3, hx.4, hx.5, hx.6⟩)
    | (exact fun _ hx => ⟨hx.1, hx.2⟩)
    | (exact fun _ => Nat.le_refl _)
    | (exact fun _ ha hb => ⟨ha, hb⟩)
    | (apply DieInv.same <;> first | assumption | rfl)

theorem execFramingLoss_keeps {s0 s : State} (h : Keeps s0 s) (d : DieId) (port : Fin 16) : OKeeps s0 (execFramingLoss d port s) := by
  unfold execFramingLoss
  repeat' first
    | (with_reducible assumption)
    | (with_reducible exact Keeps.refl _)
    | (with_reducible apply OKeeps.next)
    | (with_reducible apply State.portRetrain_keeps)

theorem execPortLossTimeout_keeps {s0 s : State} (h : Keeps s0 s) (d : DieId) (port : Fin 16) : OKeeps s0 (execPortLossTimeout d port s) := by
  unfold execPortLossTimeout
  repeat' first
    | (with_reducible assumption)
    | (with_reducible exact Keeps.refl _)
    | (with_reducible apply OKeeps.next)
    | (with_reducible apply State.advanceTo_keeps)
    | (with_reducible apply State.portDown_keeps)
    | (dsimp only)
    | (intro)
    | (with_reducible apply OKeeps.ite)

theorem execDownPortRetry_keeps {s0 s : State} (h : Keeps s0 s) (d : DieId) (port : Fin 16) : OKeeps s0 (execDownPortRetry d port s) := by
  unfold execDownPortRetry
  repeat' first
    | (with_reducible assumption)
    | (with_reducible exact Keeps.refl _)
    | (with_reducible apply OKeeps.next)
    | (with_reducible apply State.advanceTo_keeps)
    | (with_reducible apply State.modPort_keeps)
    | (with_reducible apply State.startTraining_keeps)
    | (dsimp only)
    | (intro)
    | (with_reducible apply OKeeps.ite)

theorem State.portEnableApply_keeps {s0 s : State} (h : Keeps s0 s) (d : DieId) (v : Nat) : Keeps s0 (State.portEnableApply s d v) := by
  unfold State.portEnableApply
  repeat' first
    | (with_reducible assumption)
    | (with_reducible exact Keeps.refl _)
    | (with_reducible apply State.modPort_keeps)
    | (with_reducible apply State.portOff_keeps)
    | (with_reducible apply State.putSetting_keeps)
    | (with_reducible apply State.startTraining_keeps)
    | (with_reducible apply Keeps.foldl)
    | (dsimp only)
    | (intro)
    | (with_reducible apply Keeps.ite)

theorem execPortEnableWrite_keeps {s0 s : State} (h : Keeps s0 s) (m : MasterId) (d : DieId) (v : Nat) : OKeeps s0 (execPortEnableWrite m d v s) := by
  unfold execPortEnableWrite
  repeat' first
    | (with_reducible assumption)
    | (with_reducible exact Keeps.refl _)
    | (with_reducible apply OKeeps.next)
    | (with_reducible apply State.gate_keeps)
    | (with_reducible apply State.portEnableApply_keeps)
    | (with_reducible apply GKeeps.done)
    | (with_reducible apply GKeeps.refused)
    | (exact fun _ hx => ⟨hx.1, hx.2, hx.3, hx.4, hx.5, hx.6⟩)
    | (exact fun _ hx => ⟨hx.1, hx.2⟩)
    | (exact fun _ => Nat.le_refl _)
    | (exact fun _ ha hb => ⟨ha, hb⟩)
    | (exact Nat.le_refl _)
    | (intro)

theorem execCalibrationStart_keeps {s0 s : State} (h : Keeps s0 s) (d : DieId) (port : Fin 16) : OKeeps s0 (execCalibrationStart d port s) := by
  unfold execCalibrationStart
  repeat' first
    | (with_reducible assumption)
    | (with_reducible exact Keeps.refl _)
    | (with_reducible apply OKeeps.next)
    | (with_reducible apply State.advanceTo_keeps)
    | (with_reducible apply State.calOut_keeps)
    | (with_reducible apply State.modPort_keeps)
    | (with_reducible apply State.sendHop_keeps)
    | (dsimp only)
    | (intro)
    | (with_reducible apply OKeeps.ite)

theorem execCalStart_keeps {s0 s : State} (h : Keeps s0 s) (d : DieId) (port : Fin 16) (line : Nat) : OKeeps s0 (execCalStart d port line s) := by
  unfold execCalStart
  repeat' first
    | (with_reducible assumption)
    | (with_reducible exact Keeps.refl _)
    | (with_reducible apply OKeeps.next)
    | (with_reducible apply State.takeCalStart_keeps)

theorem execCalEnd_keeps {s0 s : State} (h : Keeps s0 s) (d : DieId) (port : Fin 16) (line : Nat) (failed : Bool) : OKeeps s0 (execCalEnd d port line failed s) := by
  unfold execCalEnd
  repeat' first
    | (with_reducible assumption)
    | (with_reducible exact Keeps.refl _)
    | (with_reducible apply OKeeps.next)
    | (with_reducible apply State.calFinish_keeps)
    | (with_reducible apply State.sendHop_keeps)
    | (dsimp only)
    | (intro)
    | (with_reducible apply OKeeps.ite)

theorem execCalTimeout_keeps {s0 s : State} (h : Keeps s0 s) (d : DieId) (port : Fin 16) : OKeeps s0 (execCalTimeout d port s) := by
  unfold execCalTimeout
  repeat' first
    | (with_reducible assumption)
    | (with_reducible exact Keeps.refl _)
    | (with_reducible apply OKeeps.next)
    | (with_reducible apply State.advanceTo_keeps)
    | (with_reducible apply State.refit_keeps)
    | (with_reducible apply State.stopCal_keeps)
    | split

theorem execLineBerWeak_keeps {s0 s : State} (h : Keeps s0 s) (d : DieId) (port : Fin 16) (drop : Bool) (line : Fin 40) : OKeeps s0 (execLineBerWeak d port drop line s) := by
  unfold execLineBerWeak
  repeat' first
    | (with_reducible assumption)
    | (with_reducible exact Keeps.refl _)
    | (with_reducible apply OKeeps.next)
    | (with_reducible apply State.lineOut_keeps)
    | (dsimp only)
    | (intro)
    | (with_reducible apply OKeeps.ite)

theorem execRecordBaseline_keeps {s0 s : State} (h : Keeps s0 s) (m : MasterId) (d : DieId) (v : Nat) : OKeeps s0 (execRecordBaseline m d v s) := by
  unfold execRecordBaseline
  repeat' first
    | (with_reducible assumption)
    | (with_reducible exact Keeps.refl _)
    | (with_reducible apply OKeeps.next)
    | (with_reducible apply State.modDie_keeps)
    | (with_reducible apply State.gate_keeps)
    | (with_reducible apply GKeeps.done)
    | (with_reducible apply GKeeps.refused)
    | (exact fun _ hx => ⟨hx.1, hx.2, hx.3, hx.4, hx.5, hx.6⟩)
    | (exact fun _ hx => ⟨hx.1, hx.2⟩)
    | (exact fun _ => Nat.le_refl _)
    | (exact fun _ ha hb => ⟨ha, hb⟩)
    | (exact Nat.le_refl _)
    | (intro)

theorem execStatusSend_keeps {s0 s : State} (h : Keeps s0 s) (d : DieId) (port : Fin 16) (stages : List Int) (stage5 : List Int) : OKeeps s0 (execStatusSend d port stages stage5 s) := by
  unfold execStatusSend
  repeat' first
    | (with_reducible assumption)
    | (with_reducible exact Keeps.refl _)
    | (with_reducible apply OKeeps.next)
    | (with_reducible apply State.modDie_keeps)
    | (with_reducible apply State.localise_keeps)
    | (with_reducible apply State.sendHop_keeps)
    | (dsimp only)
    | (intro)
    | (with_reducible apply OKeeps.ite)
    | (with_reducible apply Keeps.ite)
    | split
    | (exact fun _ hx => ⟨hx.1, hx.2, hx.3, hx.4, hx.5, hx.6⟩)
    | (exact fun _ hx => ⟨hx.1, hx.2⟩)
    | (exact fun _ => Nat.le_refl _)
    | (exact fun _ ha hb => ⟨ha, hb⟩)
    | (apply DieInv.same <;> first | assumption | rfl)

theorem execStatus_keeps {s0 s : State} (h : Keeps s0 s) (d : DieId) (port : Fin 16) (stage3 : Int) (stage5 : List Int) : OKeeps s0 (execStatus d port stage3 stage5 s) := by
  unfold execStatus
  repeat' first
    | (with_reducible assumption)
    | (with_reducible exact Keeps.refl _)
    | (with_reducible apply OKeeps.next)
    | (with_reducible apply State.takeStatus_keeps)

theorem State.takeFlit_keeps {s0 s : State} (h : Keeps s0 s) (d : DieId) (p : Nat) (f : FlitHead) : Keeps s0 (State.takeFlit s d p f) := by
  unfold State.takeFlit
  repeat' first
    | (with_reducible assumption)
    | (with_reducible exact Keeps.refl _)
    | (with_reducible apply State.takeClose_keeps)
    | (with_reducible apply State.takeData_keeps)
    | (with_reducible apply State.takeRecords_keeps)
    | (intro)
    | (with_reducible apply Keeps.ite)

theorem State.refuseFlit_keeps {s0 s : State} (h : Keeps s0 s) (d : DieId) (p : Nat) : Keeps s0 (State.refuseFlit s d p) := by
  unfold State.refuseFlit
  repeat' first
    | (with_reducible assumption)
    | (with_reducible exact Keeps.refl _)
    | (with_reducible apply State.modPort_keeps)
    | (with_reducible apply State.sendIdle_keeps)
    | (intro)
    | (with_reducible apply Keeps.ite)

theorem execFlitReceive_keeps {s0 s : State} (h : Keeps s0 s) (d : DieId) (port : Fin 16) (bytes : List Byte) (fixed : Nat) : OKeeps s0 (execFlitReceive d port bytes fixed s) := by
  unfold execFlitReceive
  repeat' first
    | (with_reducible assumption)
    | (with_reducible exact Keeps.refl _)
    | (with_reducible apply OKeeps.next)
    | (with_reducible apply State.modDie_keeps)
    | (with_reducible apply State.applyRxMap_keeps)
    | (with_reducible apply State.drainRecords_keeps)
    | (with_reducible apply State.modPort_keeps)
    | (with_reducible apply State.pumpPort_keeps)
    | (with_reducible apply State.refuseFlit_keeps)
    | (with_reducible apply State.sendIdle_keeps)
    | (with_reducible apply State.takeAckSeq_keeps)
    | (with_reducible apply State.takeFlit_keeps)
    | (with_reducible apply State.takeNak_keeps)
    | (with_reducible apply State.takeRecords_keeps)
    | (dsimp only)
    | (intro)
    | (with_reducible apply OKeeps.ite)
    | (with_reducible apply Keeps.ite)
    | split
    | (exact fun _ hx => ⟨hx.1, hx.2, hx.3, hx.4, hx.5, hx.6⟩)
    | (exact fun _ hx => ⟨hx.1, hx.2⟩)
    | (exact fun _ => Nat.le_refl _)
    | (exact fun _ ha hb => ⟨ha, hb⟩)
    | (apply DieInv.same <;> first | assumption | rfl)

theorem execNakReceive_keeps {s0 s : State} (h : Keeps s0 s) (d : DieId) (port : Fin 16) (seq : Nat) : OKeeps s0 (execNakReceive d port seq s) := by
  unfold execNakReceive
  repeat' first
    | (with_reducible assumption)
    | (with_reducible exact Keeps.refl _)
    | (with_reducible apply OKeeps.next)
    | (with_reducible apply State.drainRecords_keeps)
    | (with_reducible apply State.pumpPort_keeps)
    | (with_reducible apply State.takeNak_keeps)
    | (dsimp only)
    | (intro)
    | (with_reducible apply OKeeps.ite)

theorem execReplayTimeout_keeps {s0 s : State} (h : Keeps s0 s) (d : DieId) (port : Fin 16) : OKeeps s0 (execReplayTimeout d port s) := by
  unfold execReplayTimeout
  repeat' first
    | (with_reducible assumption)
    | (with_reducible exact Keeps.refl _)
    | (with_reducible apply OKeeps.next)
    | (with_reducible apply State.advanceTo_keeps)
    | (with_reducible apply State.portRetrain_keeps)
    | (dsimp only)
    | (intro)
    | (with_reducible apply OKeeps.ite)
    | (with_reducible apply Keeps.ite)
    | split

theorem execOpen_keeps {s0 s : State} (h : Keeps s0 s) (d : DieId) (port : Fin 16) (r : OpenRec) : OKeeps s0 (execOpen d port r s) := by
  unfold execOpen
  repeat' first
    | (with_reducible assumption)
    | (with_reducible exact Keeps.refl _)
    | (with_reducible apply OKeeps.next)
    | (with_reducible apply State.takeOpen_keeps)

theorem execOpenDone_keeps {s0 s : State} (h : Keeps s0 s) (d : DieId) (t : Nat) (id : Nat) (allot : Nat) : OKeeps s0 (execOpenDone d t id allot s) := by
  unfold execOpenDone
  repeat' first
    | (with_reducible assumption)
    | (with_reducible exact Keeps.refl _)
    | (with_reducible apply OKeeps.next)
    | (with_reducible apply State.takeOpenDone_keeps)

theorem execCredit_keeps {s0 s : State} (h : Keeps s0 s) (d : DieId) (t : Nat) (id : Nat) (n : Nat) : OKeeps s0 (execCredit d t id n s) := by
  unfold execCredit
  repeat' first
    | (with_reducible assumption)
    | (with_reducible exact Keeps.refl _)
    | (with_reducible apply OKeeps.next)
    | (with_reducible apply State.takeCredit_keeps)

theorem execCloseFlit_keeps {s0 s : State} (h : Keeps s0 s) (d : DieId) (port : Fin 16) (label : Nat) (t : Nat) : OKeeps s0 (execCloseFlit d port label t s) := by
  unfold execCloseFlit
  repeat' first
    | (with_reducible assumption)
    | (with_reducible exact Keeps.refl _)
    | (with_reducible apply OKeeps.next)
    | (with_reducible apply State.takeClose_keeps)

theorem execFlowlost_keeps {s0 s : State} (h : Keeps s0 s) (d : DieId) (t : Nat) (id : Nat) (cause : Nat) : OKeeps s0 (execFlowlost d t id cause s) := by
  unfold execFlowlost
  repeat' first
    | (with_reducible assumption)
    | (with_reducible exact Keeps.refl _)
    | (with_reducible apply OKeeps.next)
    | (with_reducible apply State.loseFlow_keeps)

theorem execTenantHalt_keeps {s0 s : State} (h : Keeps s0 s) (d : DieId) (t : Nat) (all : Bool) (ids : List Nat) : OKeeps s0 (execTenantHalt d t all ids s) := by
  unfold execTenantHalt
  repeat' first
    | (with_reducible assumption)
    | (with_reducible exact Keeps.refl _)
    | (with_reducible apply OKeeps.next)
    | (with_reducible apply State.takeTenantHalt_keeps)

theorem execControlRecordForward_keeps {s0 s : State} (h : Keeps s0 s) (d : DieId) (port : Option (Fin 16)) (bytes : List Byte) : OKeeps s0 (execControlRecordForward d port bytes s) := by
  unfold execControlRecordForward
  repeat' first
    | (with_reducible assumption)
    | (with_reducible exact Keeps.refl _)
    | (with_reducible apply OKeeps.next)
    | (with_reducible apply State.serveLends_keeps)
    | (with_reducible apply State.takeRecord_keeps)

theorem execLowrate_keeps {s0 s : State} (h : Keeps s0 s) (d : DieId) (port : Fin 16) (back : Bool) (line : Nat) : OKeeps s0 (execLowrate d port back line s) := by
  unfold execLowrate
  repeat' first
    | (with_reducible assumption)
    | (with_reducible exact Keeps.refl _)
    | (with_reducible apply OKeeps.next)
    | (with_reducible apply State.takeLowrate_keeps)

end Sys2Proof.Machine
end

