-- ==== Sys2Proof/Laws/KeepsLegendOps.lean ====
section
/-! SUPPORT. The operations of Machine/LegendOps.lean keep what `Keeps` says. -/

namespace Sys2Proof.Machine
open Sys2Proof

theorem State.preferredApply_keeps {s0 s : State} (h : Keeps s0 s) (d : DieId) (v : Nat) : GKeeps s0 (State.preferredApply s d v) := by
  unfold State.preferredApply
  repeat' first
    | (with_reducible assumption)
    | (with_reducible exact Keeps.refl _)
    | (with_reducible apply GKeeps.done)
    | (with_reducible apply GKeeps.refused)
    | (with_reducible apply State.modClk_keeps)

theorem State.enablesApply_keeps {s0 s : State} (h : Keeps s0 s) (d : DieId) (v : Nat) : GKeeps s0 (State.enablesApply s d v) := by
  unfold State.enablesApply
  repeat' first
    | (with_reducible assumption)
    | (with_reducible exact Keeps.refl _)
    | (with_reducible apply GKeeps.done)
    | (with_reducible apply GKeeps.refused)
    | (with_reducible apply State.modDie_keeps)
    | (with_reducible apply State.feedEngines_keeps)
    | (dsimp only)
    | (intro)
    | (with_reducible apply GKeeps.ite)
    | (with_reducible apply Keeps.ite)
    | split
    | (exact fun _ hx => ⟨hx.1, hx.2, hx.3, hx.4, hx.5, hx.6⟩)
    | (exact fun _ hx => ⟨hx.1, hx.2⟩)
    | (exact fun _ => Nat.le_refl _)
    | (exact fun _ ha hb => ⟨ha, hb⟩)
    | (apply DieInv.same <;> first | assumption | rfl)

theorem State.clkmonApply_keeps {s0 s : State} (h : Keeps s0 s) (d : DieId) (sub : Nat) (v : Nat) : GKeeps s0 (State.clkmonApply s d sub v) := by
  unfold State.clkmonApply
  repeat' first
    | (with_reducible assumption)
    | (with_reducible exact Keeps.refl _)
    | (with_reducible apply GKeeps.done)
    | (with_reducible apply GKeeps.refused)
    | (with_reducible apply State.modClk_keeps)
    | (dsimp only)
    | (intro)
    | (with_reducible apply GKeeps.ite)

theorem State.driveApply_keeps {s0 s : State} (h : Keeps s0 s) (d : DieId) (v : Nat) : GKeeps s0 (State.driveApply s d v) := by
  unfold State.driveApply
  repeat' first
    | (with_reducible assumption)
    | (with_reducible exact Keeps.refl _)
    | (with_reducible apply GKeeps.done)
    | (with_reducible apply GKeeps.refused)
    | (with_reducible apply State.allDies_keeps)
    | (with_reducible apply State.modClk_keeps)
    | (dsimp only)
    | (intro)
    | (with_reducible apply GKeeps.ite)
    | (with_reducible apply Keeps.ite)
    | split
    | (exact fun _ hx => ⟨hx.1, hx.2, hx.3, hx.4, hx.5, hx.6⟩)
    | (exact fun _ hx => ⟨hx.1, hx.2⟩)
    | (exact fun _ => Nat.le_refl _)
    | (exact fun _ ha hb => ⟨ha, hb⟩)
    | (apply DieInv.same <;> first | assumption | rfl)

theorem State.sendNotify_keeps {s0 s : State} (h : Keeps s0 s) (m : MasterId) (q : NotifySeg) : Keeps s0 (State.sendNotify s m q) := by
  unfold State.sendNotify
  repeat' first
    | (with_reducible assumption)
    | (with_reducible exact Keeps.refl _)
    | (with_reducible apply State.emit_keeps)
    | (with_reducible apply State.modMaster_keeps)
    | (dsimp only)
    | (exact fun _ hx => ⟨hx.1, hx.2, hx.3, hx.4, hx.5, hx.6⟩)
    | (exact fun _ hx => ⟨hx.1, hx.2⟩)

theorem State.endSession_keeps {s0 s : State} (h : Keeps s0 s) (m : MasterId) : Keeps s0 (State.endSession s m) := by
  unfold State.endSession
  repeat' first
    | (with_reducible assumption)
    | (with_reducible exact Keeps.refl _)
    | (with_reducible apply State.modMaster_keeps)
    | (with_reducible apply State.sendNotify_keeps)
    | (with_reducible apply State.tapHold_keeps)
    | (with_reducible apply Keeps.foldl)
    | (dsimp only)
    | (intro)
    | (with_reducible apply Keeps.ite)
    | split
    | (exact fun _ hx => ⟨hx.1, hx.2, hx.3, hx.4, hx.5, hx.6⟩)
    | (exact fun _ hx => ⟨hx.1, hx.2⟩)
    | (exact fun _ => Nat.le_refl _)
    | (exact fun _ ha hb => ⟨ha, hb⟩)
    | (apply MasterInv.same <;> first | assumption | rfl)

theorem State.endAllApply_keeps {s0 s : State} (h : Keeps s0 s)  : GKeeps s0 (State.endAllApply s) := by
  unfold State.endAllApply
  repeat' first
    | (with_reducible assumption)
    | (with_reducible exact Keeps.refl _)
    | (with_reducible apply GKeeps.done)
    | (with_reducible apply GKeeps.refused)
    | (with_reducible apply State.endSession_keeps)
    | (with_reducible apply Keeps.foldl)
    | (exact fun _ hx => ⟨hx.1, hx.2, hx.3, hx.4, hx.5, hx.6⟩)
    | (exact fun _ hx => ⟨hx.1, hx.2⟩)
    | (exact fun _ => Nat.le_refl _)
    | (exact fun _ ha hb => ⟨ha, hb⟩)
    | (exact Nat.le_refl _)
    | (intro)

theorem State.passwordApply_keeps {s0 s : State} (h : Keeps s0 s) (m : MasterId) (v : List Byte) : GKeeps s0 (State.passwordApply s m v) := by
  unfold State.passwordApply
  repeat' first
    | (with_reducible assumption)
    | (with_reducible exact Keeps.refl _)
    | (with_reducible apply GKeeps.done)
    | (with_reducible apply GKeeps.refused)
    | (with_reducible apply State.freeBytes_keeps)
    | (with_reducible apply State.modTray_keeps)
    | (dsimp only)
    | (intro)
    | (with_reducible apply GKeeps.ite)
    | (with_reducible apply Keeps.ite)
    | split
    | (exact fun _ hx => ⟨hx.1, hx.2, hx.3, hx.4, hx.5, hx.6⟩)
    | (exact fun _ hx => ⟨hx.1, hx.2⟩)
    | (exact fun _ => Nat.le_refl _)
    | (exact fun _ ha hb => ⟨ha, hb⟩)
    | (exact Nat.le_refl _)

theorem State.keyApply_keeps {s0 s : State} (h : Keeps s0 s) (m : MasterId) (v : List Byte) : GKeeps s0 (State.keyApply s m v) := by
  unfold State.keyApply
  repeat' first
    | (with_reducible assumption)
    | (with_reducible exact Keeps.refl _)
    | (with_reducible apply GKeeps.done)
    | (with_reducible apply GKeeps.refused)
    | (with_reducible apply State.modTray_keeps)
    | (intro)
    | (with_reducible apply GKeeps.ite)
    | (with_reducible apply Keeps.ite)
    | split
    | (exact fun _ hx => ⟨hx.1, hx.2, hx.3, hx.4, hx.5, hx.6⟩)
    | (exact fun _ hx => ⟨hx.1, hx.2⟩)
    | (exact fun _ => Nat.le_refl _)
    | (exact fun _ ha hb => ⟨ha, hb⟩)
    | (exact Nat.le_refl _)

theorem State.mapApply_keeps {s0 s : State} (h : Keeps s0 s) (v : List Byte) : GKeeps s0 (State.mapApply s v) := by
  unfold State.mapApply
  repeat' first
    | (with_reducible assumption)
    | (with_reducible exact Keeps.refl _)
    | (with_reducible apply GKeeps.done)
    | (with_reducible apply GKeeps.refused)
    | (with_reducible apply State.plainWrite_keeps)
    | (dsimp only)
    | (intro)
    | (with_reducible apply GKeeps.ite)

theorem State.holdApply_keeps {s0 s : State} (h : Keeps s0 s) (v : Nat) : GKeeps s0 (State.holdApply s v) := by
  unfold State.holdApply
  repeat' first
    | (with_reducible assumption)
    | (with_reducible exact Keeps.refl _)
    | (with_reducible apply GKeeps.done)
    | (with_reducible apply State.startSave_keeps)
    | (with_reducible apply State.putSetting_keeps)
    | (dsimp only)
    | (intro)
    | (with_reducible apply Keeps.ite)

theorem State.sealedStepApply_keeps {s0 s : State} (h : Keeps s0 s) (d : DieId) (v : Nat) : GKeeps s0 (State.sealedStepApply s d v) := by
  unfold State.sealedStepApply
  repeat' first
    | (with_reducible assumption)
    | (with_reducible exact Keeps.refl _)
    | (with_reducible apply GKeeps.done)
    | (with_reducible apply GKeeps.refused)
    | (with_reducible apply State.modDie_keeps)
    | (with_reducible apply State.putSetting_keeps)
    | (dsimp only)
    | (intro)
    | (with_reducible apply GKeeps.ite)
    | (with_reducible apply Keeps.ite)
    | split
    | (exact fun _ hx => ⟨hx.1, hx.2, hx.3, hx.4, hx.5, hx.6⟩)
    | (exact fun _ hx => ⟨hx.1, hx.2⟩)
    | (exact fun _ => Nat.le_refl _)
    | (exact fun _ ha hb => ⟨ha, hb⟩)
    | (apply DieInv.same <;> first | assumption | rfl)

theorem State.applyTray_keeps {s0 s : State} (h : Keeps s0 s) (m : MasterId) (k : ObjKey) (v : List Byte) : GKeeps s0 (State.applyTray s m k v) := by
  unfold State.applyTray
  repeat' first
    | (with_reducible assumption)
    | (with_reducible exact Keeps.refl _)
    | (with_reducible apply GKeeps.done)
    | (with_reducible apply GKeeps.refused)
    | (with_reducible apply State.activateApply_keeps)
    | (with_reducible apply State.chunkApply_keeps)
    | (with_reducible apply State.chunkNoApply_keeps)
    | (with_reducible apply State.coldResetApply_keeps)
    | (with_reducible apply State.endAllApply_keeps)
    | (with_reducible apply State.frostTrayApply_keeps)
    | (with_reducible apply State.keyApply_keeps)
    | (with_reducible apply State.mapApply_keeps)
    | (with_reducible apply State.modHold_keeps)
    | (with_reducible apply State.holdApply_keeps)
    | (with_reducible apply State.passwordApply_keeps)
    | (with_reducible apply State.plainWrite_keeps)
    | (with_reducible apply State.powerDown_keeps)
    | (with_reducible apply State.stageApply_keeps)
    | (with_reducible apply State.thawTrayApply_keeps)
    | (with_reducible apply State.trayCapApply_keeps)
    | (dsimp only)
    | (intro)
    | (with_reducible apply GKeeps.ite)

theorem State.applyLow_keeps {s0 s : State} (h : Keeps s0 s) (m : MasterId) (k : ObjKey) (v : List Byte) : GKeeps s0 (State.applyLow s m k v) := by
  unfold State.applyLow
  repeat' first
    | (with_reducible assumption)
    | (with_reducible exact Keeps.refl _)
    | (with_reducible apply GKeeps.done)
    | (with_reducible apply GKeeps.refused)
    | (with_reducible apply State.boundaryWrite_keeps)
    | (with_reducible apply State.clearLatch_keeps)
    | (with_reducible apply State.dieCapApply_keeps)
    | (with_reducible apply State.divisionApply_keeps)
    | (with_reducible apply State.groupApply_keeps)
    | (with_reducible apply State.limitWrite_keeps)
    | (with_reducible apply State.marginApply_keeps)
    | (with_reducible apply State.plainWrite_keeps)
    | (with_reducible apply State.sealedStepApply_keeps)
    | (with_reducible apply State.sealedTableApply_keeps)
    | (with_reducible apply State.selectApply_keeps)
    | (with_reducible apply State.sendLeave_keeps)
    | (with_reducible apply State.vsramSet_keeps)
    | (dsimp only)
    | (intro)
    | (with_reducible apply GKeeps.ite)

theorem State.applyHigh_keeps {s0 s : State} (h : Keeps s0 s) (k : ObjKey) (v : List Byte) : GKeeps s0 (State.applyHigh s k v) := by
  unfold State.applyHigh
  repeat' first
    | (with_reducible assumption)
    | (with_reducible exact Keeps.refl _)
    | (with_reducible apply GKeeps.done)
    | (with_reducible apply GKeeps.refused)
    | (with_reducible apply State.modDie_keeps)
    | (with_reducible apply State.clkmonApply_keeps)
    | (with_reducible apply State.composerApply_keeps)
    | (with_reducible apply State.driveApply_keeps)
    | (with_reducible apply State.enablesApply_keeps)
    | (with_reducible apply State.frostApply_keeps)
    | (with_reducible apply State.modCmp_keeps)
    | (with_reducible apply State.plainWrite_keeps)
    | (with_reducible apply State.portEnableApply_keeps)
    | (with_reducible apply State.powerCycleApply_keeps)
    | (with_reducible apply State.preferredApply_keeps)
    | (with_reducible apply State.recalApply_keeps)
    | (with_reducible apply State.remapApply_keeps)
    | (with_reducible apply State.surveyNow_keeps)
    | (with_reducible apply State.thawCommand_keeps)
    | (with_reducible apply State.warmResetApply_keeps)
    | (dsimp only)
    | (intro)
    | (with_reducible apply GKeeps.ite)
    | (with_reducible apply Keeps.ite)
    | split
    | (exact fun _ hx => ⟨hx.1, hx.2, hx.3, hx.4, hx.5, hx.6⟩)
    | (exact fun _ hx => ⟨hx.1, hx.2⟩)
    | (exact fun _ => Nat.le_refl _)
    | (exact fun _ ha hb => ⟨ha, hb⟩)
    | (apply DieInv.same <;> first | assumption | rfl)

theorem State.applyWrite_keeps {s0 s : State} (h : Keeps s0 s) (m : MasterId) (k : ObjKey) (v : List Byte) : GKeeps s0 (State.applyWrite s m k v) := by
  unfold State.applyWrite
  repeat' first
    | (with_reducible assumption)
    | (with_reducible exact Keeps.refl _)
    | (with_reducible apply GKeeps.done)
    | (with_reducible apply GKeeps.refused)
    | (with_reducible apply State.applyHigh_keeps)
    | (with_reducible apply State.applyLow_keeps)
    | (with_reducible apply State.applyTray_keeps)
    | (intro)
    | (with_reducible apply GKeeps.ite)

theorem State.gateRound_keeps {s0 s : State} (h : Keeps s0 s)  : Keeps s0 (State.gateRound s) := by
  unfold State.gateRound
  repeat' first
    | (with_reducible assumption)
    | (with_reducible exact Keeps.refl _)
    | (with_reducible apply State.modTray_keeps)
    | (with_reducible apply State.advanceTo_keeps)
    | (with_reducible apply State.applyWrite_keeps)
    | (with_reducible apply State.gateTick_keeps)
    | (with_reducible apply State.popGate_keeps)
    | (with_reducible apply Keeps.foldl)
    | (dsimp only)
    | (intro)
    | (with_reducible apply Keeps.ite)
    | split
    | (exact fun _ hx => ⟨hx.1, hx.2, hx.3, hx.4, hx.5, hx.6⟩)
    | (exact fun _ hx => ⟨hx.1, hx.2⟩)
    | (exact fun _ => Nat.le_refl _)
    | (exact fun _ ha hb => ⟨ha, hb⟩)
    | (exact Nat.le_refl _)

theorem State.drainGate_keeps {s0 s : State} (h : Keeps s0 s)  : Keeps s0 (State.drainGate s) := by
  unfold State.drainGate
  repeat' first
    | (with_reducible assumption)
    | (with_reducible exact Keeps.refl _)
    | (with_reducible apply State.finishReset_keeps)
    | (with_reducible apply State.gateRound_keeps)
    | (with_reducible apply Keeps.foldl)
    | (intro)
    | (with_reducible apply Keeps.ite)

theorem State.submit_keeps {s0 s : State} (h : Keeps s0 s) (m : MasterId) (w : GateWrite) : Keeps s0 (State.submit s m w) := by
  unfold State.submit
  repeat' first
    | (with_reducible assumption)
    | (with_reducible exact Keeps.refl _)
    | (with_reducible apply State.drainGate_keeps)
    | (with_reducible apply State.gateQueue_keeps)
    | (intro)
    | (with_reducible apply Keeps.ite)

end Sys2Proof.Machine
end

