-- ==== Sys2Proof/Laws/KeepsSpdmOps.lean ====
section
/-! SUPPORT. The operations of Machine/SpdmOps.lean keep what `Keeps` says. -/

namespace Sys2Proof.Machine
open Sys2Proof

theorem State.modDoe_keeps {s0 s : State} (h : Keeps s0 s) (f : Fn) (g : Doe → Doe) : Keeps s0 (State.modDoe s f g) := by
  unfold State.modDoe
  repeat' first
    | (with_reducible assumption)
    | (with_reducible exact Keeps.refl _)
    | (with_reducible apply State.modPf_keeps)
    | (with_reducible apply State.modVf_keeps)
    | split

theorem State.modSpdm_keeps {s0 s : State} (h : Keeps s0 s) (r : Responder) (g : Spdm → Spdm) : Keeps s0 (State.modSpdm s r g) := by
  unfold State.modSpdm
  repeat' first
    | (with_reducible assumption)
    | (with_reducible exact Keeps.refl _)
    | (with_reducible apply State.modMaster_keeps)
    | (with_reducible apply State.modDoe_keeps)
    | split
    | (exact fun _ hx => ⟨hx.1, hx.2, hx.3, hx.4, hx.5, hx.6⟩)
    | (exact fun _ hx => ⟨hx.1, hx.2⟩)

theorem State.spdmRun_keeps {s0 s : State} (h : Keeps s0 s) (r : Responder) (msg : List Byte) :
    Keeps s0 (s.spdmRun r msg).1 := by
  unfold State.spdmRun
  dsimp only
  split
  · exact State.modMaster_keeps (State.skipFree_keeps (State.modSpdm_keeps h _ _) _) _ _ fun _ hx => ⟨hx.1, hx.2⟩
  · exact State.skipFree_keeps (State.modSpdm_keeps h _ _) _

theorem State.doeSpdm_keeps {s0 s : State} (h : Keeps s0 s) (f : Fn) (msg : List Byte) : Keeps s0 (State.doeSpdm s f msg) := by
  unfold State.doeSpdm
  dsimp only
  repeat' split
  all_goals first
    | exact h
    | exact State.modDoe_keeps h _ _
    | exact State.emit_keeps (State.spdmRun_keeps h _ _) _

end Sys2Proof.Machine
end

