-- ==== Sys2Proof/Laws/KeepsLapOps.lean ====
section
/-! SUPPORT. The operations of Machine/LapOps.lean keep what `Keeps` says. -/

namespace Sys2Proof.Machine
open Sys2Proof

theorem State.lapDrop_keeps {s0 s : State} (h : Keeps s0 s) (m : MasterId) : Keeps s0 (State.lapDrop s m) := by
  unfold State.lapDrop
  repeat' first
    | (with_reducible assumption)
    | (with_reducible exact Keeps.refl _)
    | (with_reducible apply State.modPf_keeps)
    | (intro)
    | (with_reducible apply Keeps.ite)
    | split

theorem State.lapDiscard_keeps {s0 s : State} (h : Keeps s0 s) (m : MasterId) : Keeps s0 (State.lapDiscard s m) := by
  unfold State.lapDiscard
  repeat' first
    | (with_reducible assumption)
    | (with_reducible exact Keeps.refl _)
    | (with_reducible apply State.modTray_keeps)
    | (with_reducible apply State.lapDrop_keeps)
    | (exact fun _ hx => ⟨hx.1, hx.2, hx.3, hx.4, hx.5, hx.6⟩)
    | (exact fun _ hx => ⟨hx.1, hx.2⟩)
    | (exact fun _ => Nat.le_refl _)

theorem State.tagFail_keeps {s0 s : State} (h : Keeps s0 s) (m : MasterId) : Keeps s0 (State.tagFail s m) := by
  unfold State.tagFail
  repeat' first
    | (with_reducible assumption)
    | (with_reducible exact Keeps.refl _)
    | (with_reducible apply State.modTray_keeps)
    | (with_reducible apply State.lapDrop_keeps)
    | (exact fun _ hx => ⟨hx.1, hx.2, hx.3, hx.4, hx.5, hx.6⟩)
    | (exact fun _ hx => ⟨hx.1, hx.2⟩)
    | (exact fun _ => Nat.le_refl _)

theorem State.lapMalformed_keeps {s0 s : State} (h : Keeps s0 s) (m : MasterId) (dst : Option Peer) (f : List Byte) (at_ : Nat) : Keeps s0 (State.lapMalformed s m dst f at_) := by
  unfold State.lapMalformed
  repeat' first
    | (with_reducible assumption)
    | (with_reducible exact Keeps.refl _)
    | (with_reducible apply State.lapSend_keeps)

theorem State.lapReply_keeps {s0 s : State} (h : Keeps s0 s) (m : MasterId) (f : List Byte) (status : Nat) (detail : Nat) (extra : List Byte) : Keeps s0 (State.lapReply s m f status detail extra) := by
  unfold State.lapReply
  repeat' first
    | (with_reducible assumption)
    | (with_reducible exact Keeps.refl _)
    | (with_reducible apply State.respond_keeps)

theorem State.lapRefuse_keeps {s0 s : State} (h : Keeps s0 s) (m : MasterId) (f : List Byte) (status : Nat) : Keeps s0 (State.lapRefuse s m f status) := by
  unfold State.lapRefuse
  repeat' first
    | (with_reducible assumption)
    | (with_reducible exact Keeps.refl _)
    | (with_reducible apply State.lapReply_keeps)

theorem State.lapResend_keeps {s0 s : State} (h : Keeps s0 s) (m : MasterId) (dst : Option Peer) (seq : Nat) : Keeps s0 (State.lapResend s m dst seq) := by
  unfold State.lapResend
  repeat' first
    | (with_reducible assumption)
    | (with_reducible exact Keeps.refl _)
    | (with_reducible apply State.modMaster_keeps)
    | (with_reducible apply State.lapSend_keeps)
    | (dsimp only)
    | split
    | (exact fun _ hx => ⟨hx.1, hx.2, hx.3, hx.4, hx.5, hx.6⟩)
    | (exact fun _ hx => ⟨hx.1, hx.2⟩)

theorem State.lapRead_keeps {s0 s : State} (h : Keeps s0 s) (m : MasterId) (f : List Byte) : Keeps s0 (State.lapRead s m f) := by
  unfold State.lapRead
  repeat' first
    | (with_reducible assumption)
    | (with_reducible exact Keeps.refl _)
    | (with_reducible apply State.lapRefuse_keeps)
    | (with_reducible apply State.lapReply_keeps)
    | (intro)
    | (with_reducible apply Keeps.ite)
    | split

theorem State.snapReply_keeps {s0 s : State} (h : Keeps s0 s) (m : MasterId) (f : List Byte) (no : Nat) (off : Nat) (count : Nat) (v : List Byte) : Keeps s0 (State.snapReply s m f no off count v) := by
  unfold State.snapReply
  repeat' first
    | (with_reducible assumption)
    | (with_reducible exact Keeps.refl _)
    | (with_reducible apply State.lapReply_keeps)

theorem State.lapReadBlock_keeps {s0 s : State} (h : Keeps s0 s) (m : MasterId) (f : List Byte) : Keeps s0 (State.lapReadBlock s m f) := by
  unfold State.lapReadBlock
  repeat' first
    | (with_reducible assumption)
    | (with_reducible exact Keeps.refl _)
    | (with_reducible apply State.modMaster_keeps)
    | (with_reducible apply State.lapRefuse_keeps)
    | (with_reducible apply State.snapReply_keeps)
    | (dsimp only)
    | (intro)
    | (with_reducible apply Keeps.ite)
    | split
    | (exact fun _ hx => ⟨hx.1, hx.2, hx.3, hx.4, hx.5, hx.6⟩)
    | (exact fun _ hx => ⟨hx.1, hx.2⟩)
    | (exact fun _ => Nat.le_refl _)
    | (exact fun _ ha hb => ⟨ha, hb⟩)
    | (apply MasterInv.same <;> first | assumption | rfl)

theorem State.lapWrite_keeps {s0 s : State} (h : Keeps s0 s) (m : MasterId) (f : List Byte) (cmd : Bool) (value : List Byte) : Keeps s0 (State.lapWrite s m f cmd value) := by
  unfold State.lapWrite
  repeat' first
    | (with_reducible assumption)
    | (with_reducible exact Keeps.refl _)
    | (with_reducible apply State.lapRefuse_keeps)
    | (with_reducible apply State.submit_keeps)
    | (intro)
    | (with_reducible apply Keeps.ite)
    | split

theorem State.lapWriteBlock_keeps {s0 s : State} (h : Keeps s0 s) (m : MasterId) (f : List Byte) : Keeps s0 (State.lapWriteBlock s m f) := by
  unfold State.lapWriteBlock
  repeat' first
    | (with_reducible assumption)
    | (with_reducible exact Keeps.refl _)
    | (with_reducible apply State.modMaster_keeps)
    | (with_reducible apply State.lapRefuse_keeps)
    | (with_reducible apply State.lapWrite_keeps)
    | (dsimp only)
    | (intro)
    | (with_reducible apply Keeps.ite)
    | split
    | (exact fun _ hx => ⟨hx.1, hx.2, hx.3, hx.4, hx.5, hx.6⟩)
    | (exact fun _ hx => ⟨hx.1, hx.2⟩)
    | (exact fun _ => Nat.le_refl _)
    | (exact fun _ ha hb => ⟨ha, hb⟩)
    | (apply MasterInv.same <;> first | assumption | rfl)

theorem State.refill_keeps {s0 s : State} (h : Keeps s0 s) (m : MasterId) : Keeps s0 (State.refill s m) := by
  unfold State.refill
  repeat' first
    | (with_reducible assumption)
    | (with_reducible exact Keeps.refl _)
    | (with_reducible apply State.modMaster_keeps)
    | (exact fun _ hx => ⟨hx.1, hx.2, hx.3, hx.4, hx.5, hx.6⟩)
    | (exact fun _ hx => ⟨hx.1, hx.2⟩)

theorem State.sendSegs_keeps {s0 s : State} (h : Keeps s0 s) (m : MasterId) (l : List NotifySeg) : Keeps s0 (State.sendSegs s m l) := by
  unfold State.sendSegs
  repeat' first
    | (with_reducible assumption)
    | (with_reducible exact Keeps.refl _)
    | (with_reducible apply State.modMaster_keeps)
    | (with_reducible apply State.sendNotify_keeps)
    | (with_reducible apply Keeps.foldl)
    | (dsimp only)
    | (intro)
    | (with_reducible apply Keeps.ite)
    | split
    | (exact fun _ hx => ⟨hx.1, hx.2, hx.3, hx.4, hx.5, hx.6⟩)
    | (exact fun _ hx => ⟨hx.1, hx.2⟩)
    | (exact fun _ => Nat.le_refl _)
    | (exact fun _ ha hb => ⟨ha, hb⟩)
    | (apply MasterInv.same <;> first | assumption | rfl)

theorem State.flushSegs_keeps {s0 s : State} (h : Keeps s0 s) (m : MasterId) : Keeps s0 (State.flushSegs s m) := by
  unfold State.flushSegs
  repeat' first
    | (with_reducible assumption)
    | (with_reducible exact Keeps.refl _)
    | (with_reducible apply State.modMaster_keeps)
    | (with_reducible apply State.refill_keeps)
    | (with_reducible apply State.sendSegs_keeps)
    | (dsimp only)
    | (exact fun _ hx => ⟨hx.1, hx.2, hx.3, hx.4, hx.5, hx.6⟩)
    | (exact fun _ hx => ⟨hx.1, hx.2⟩)

theorem State.modSub_keeps {s0 s : State} (h : Keeps s0 s) (m : MasterId) (no : Nat) (g : Subscription → Subscription) : Keeps s0 (State.modSub s m no g) := by
  unfold State.modSub
  repeat' first
    | (with_reducible assumption)
    | (with_reducible exact Keeps.refl _)
    | (with_reducible apply State.modMaster_keeps)
    | (intro)
    | (with_reducible apply Keeps.ite)
    | split
    | (exact fun _ hx => ⟨hx.1, hx.2, hx.3, hx.4, hx.5, hx.6⟩)
    | (exact fun _ hx => ⟨hx.1, hx.2⟩)
    | (exact fun _ => Nat.le_refl _)
    | (exact fun _ ha hb => ⟨ha, hb⟩)
    | (apply MasterInv.same <;> first | assumption | rfl)

theorem State.sendLate_keeps {s0 s : State} (h : Keeps s0 s) (m : MasterId) (no : Nat) : Keeps s0 (State.sendLate s m no) := by
  unfold State.sendLate
  repeat' first
    | (with_reducible assumption)
    | (with_reducible exact Keeps.refl _)
    | (with_reducible apply State.modSub_keeps)
    | (with_reducible apply State.sendSegs_keeps)
    | (with_reducible apply Keeps.foldl)
    | (intro)
    | (with_reducible apply Keeps.ite)
    | split

theorem State.notifyChange_keeps {s0 s : State} (h : Keeps s0 s) (m : MasterId) (no : Nat) : Keeps s0 (State.notifyChange s m no) := by
  unfold State.notifyChange
  repeat' first
    | (with_reducible assumption)
    | (with_reducible exact Keeps.refl _)
    | (with_reducible apply State.modSub_keeps)
    | (with_reducible apply State.sendSegs_keeps)
    | (dsimp only)
    | (intro)
    | (with_reducible apply Keeps.ite)
    | split

theorem State.streamInstance_keeps {s0 s : State} (h : Keeps s0 s) (k : ObjKey) (v : List Byte) : Keeps s0 (State.streamInstance s k v) := by
  unfold State.streamInstance
  repeat' first
    | (with_reducible assumption)
    | (with_reducible exact Keeps.refl _)
    | (with_reducible apply State.flushSegs_keeps)
    | (with_reducible apply State.modSub_keeps)
    | (with_reducible apply State.sendLate_keeps)
    | (with_reducible apply Keeps.foldl)
    | (dsimp only)
    | (intro)
    | (with_reducible apply Keeps.ite)
    | split

theorem State.lapCancel_keeps {s0 s : State} (h : Keeps s0 s) (m : MasterId) (f : List Byte) : Keeps s0 (State.lapCancel s m f) := by
  unfold State.lapCancel
  repeat' first
    | (with_reducible assumption)
    | (with_reducible exact Keeps.refl _)
    | (with_reducible apply State.modMaster_keeps)
    | (with_reducible apply State.lapRefuse_keeps)
    | (with_reducible apply State.lapReply_keeps)
    | (dsimp only)
    | (intro)
    | (with_reducible apply Keeps.ite)
    | split
    | (exact fun _ hx => ⟨hx.1, hx.2, hx.3, hx.4, hx.5, hx.6⟩)
    | (exact fun _ hx => ⟨hx.1, hx.2⟩)
    | (exact fun _ => Nat.le_refl _)
    | (exact fun _ ha hb => ⟨ha, hb⟩)
    | (apply MasterInv.same <;> first | assumption | rfl)

theorem State.lapSubscribe_keeps {s0 s : State} (h : Keeps s0 s) (m : MasterId) (f : List Byte) : Keeps s0 (State.lapSubscribe s m f) := by
  unfold State.lapSubscribe
  repeat' first
    | (with_reducible assumption)
    | (with_reducible exact Keeps.refl _)
    | (with_reducible apply State.modMaster_keeps)
    | (with_reducible apply State.flushSegs_keeps)
    | (with_reducible apply State.lapCancel_keeps)
    | (with_reducible apply State.lapRefuse_keeps)
    | (with_reducible apply State.lapReply_keeps)
    | (with_reducible apply State.modSub_keeps)
    | (with_reducible apply State.notifyChange_keeps)
    | (with_reducible apply State.sendLate_keeps)
    | (dsimp only)
    | (intro)
    | (with_reducible apply Keeps.ite)
    | split
    | (exact fun _ hx => ⟨hx.1, hx.2, hx.3, hx.4, hx.5, hx.6⟩)
    | (exact fun _ hx => ⟨hx.1, hx.2⟩)
    | (exact fun _ => Nat.le_refl _)
    | (exact fun _ ha hb => ⟨ha, hb⟩)
    | (apply MasterInv.same <;> first | assumption | rfl)

theorem State.lapChallenge_keeps {s0 s : State} (h : Keeps s0 s) (m : MasterId) (f : List Byte) : Keeps s0 (State.lapChallenge s m f) := by
  unfold State.lapChallenge
  repeat' first
    | (with_reducible assumption)
    | (with_reducible exact Keeps.refl _)
    | (with_reducible apply State.freeBytes_keeps)
    | (with_reducible apply State.modMaster_keeps)
    | (with_reducible apply State.takeFree_keeps)
    | (with_reducible apply State.lapReply_keeps)
    | (dsimp only)
    | (exact fun _ hx => ⟨hx.1, hx.2, hx.3, hx.4, hx.5, hx.6⟩)
    | (exact fun _ hx => ⟨hx.1, hx.2⟩)

theorem State.unlockFailed_keeps {s0 s : State} (h : Keeps s0 s) (m : MasterId) (f : List Byte) : Keeps s0 (State.unlockFailed s m f) := by
  unfold State.unlockFailed
  repeat' first
    | (with_reducible assumption)
    | (with_reducible exact Keeps.refl _)
    | (with_reducible apply State.modTray_keeps)
    | (with_reducible apply State.lapRefuse_keeps)
    | (exact fun _ hx => ⟨hx.1, hx.2, hx.3, hx.4, hx.5, hx.6⟩)
    | (exact fun _ hx => ⟨hx.1, hx.2⟩)
    | (exact fun _ => Nat.le_refl _)

theorem State.endLockout_keeps {s0 s : State} (h : Keeps s0 s)  : Keeps s0 (State.endLockout s) := by
  unfold State.endLockout
  repeat' first
    | (with_reducible assumption)
    | (with_reducible exact Keeps.refl _)
    | (with_reducible apply State.modTray_keeps)
    | (intro)
    | (with_reducible apply Keeps.ite)
    | split
    | (exact fun _ hx => ⟨hx.1, hx.2, hx.3, hx.4, hx.5, hx.6⟩)
    | (exact fun _ hx => ⟨hx.1, hx.2⟩)
    | (exact fun _ => Nat.le_refl _)
    | (exact fun _ ha hb => ⟨ha, hb⟩)
    | (exact Nat.le_refl _)

theorem State.pwFailed_keeps {s0 s : State} (h : Keeps s0 s)  : Keeps s0 (State.pwFailed s) := by
  unfold State.pwFailed
  repeat' first
    | (with_reducible assumption)
    | (with_reducible exact Keeps.refl _)
    | (with_reducible apply State.modTray_keeps)
    | (dsimp only)
    | (intro)
    | (with_reducible apply Keeps.ite)
    | split
    | (exact fun _ hx => ⟨hx.1, hx.2, hx.3, hx.4, hx.5, hx.6⟩)
    | (exact fun _ hx => ⟨hx.1, hx.2⟩)
    | (exact fun _ => Nat.le_refl _)
    | (exact fun _ ha hb => ⟨ha, hb⟩)
    | (exact Nat.le_refl _)

theorem State.openSession_keeps {s0 s : State} (h : Keeps s0 s) (m : MasterId) (f : List Byte) (byPassword : Bool) (ktag : List Byte) : Keeps s0 (State.openSession s m f byPassword ktag) := by
  unfold State.openSession
  apply State.lapReply_keeps
  exact State.modMaster_keeps h _ _ fun _ hx => ⟨hx.1, Nat.zero_le _⟩

theorem State.unlockPassword_keeps {s0 s : State} (h : Keeps s0 s) (m : MasterId) (f : List Byte) (keys : List Byte) : Keeps s0 (State.unlockPassword s m f keys) := by
  unfold State.unlockPassword
  repeat' first
    | (with_reducible assumption)
    | (with_reducible exact Keeps.refl _)
    | (with_reducible apply State.modTray_keeps)
    | (with_reducible apply State.openSession_keeps)
    | (with_reducible apply State.pwFailed_keeps)
    | (with_reducible apply State.unlockFailed_keeps)
    | (dsimp only)
    | (intro)
    | (with_reducible apply Keeps.ite)
    | split
    | (exact fun _ hx => ⟨hx.1, hx.2, hx.3, hx.4, hx.5, hx.6⟩)
    | (exact fun _ hx => ⟨hx.1, hx.2⟩)
    | (exact fun _ => Nat.le_refl _)
    | (exact fun _ ha hb => ⟨ha, hb⟩)
    | (exact Nat.le_refl _)

theorem State.unlockSignature_keeps {s0 s : State} (h : Keeps s0 s) (m : MasterId) (f : List Byte) (nonce : List Byte) (keys : List Byte) : Keeps s0 (State.unlockSignature s m f nonce keys) := by
  unfold State.unlockSignature
  repeat' first
    | (with_reducible assumption)
    | (with_reducible exact Keeps.refl _)
    | (with_reducible apply State.modTray_keeps)
    | (with_reducible apply State.openSession_keeps)
    | (with_reducible apply State.unlockFailed_keeps)
    | (dsimp only)
    | (intro)
    | (with_reducible apply Keeps.ite)
    | split
    | (exact fun _ hx => ⟨hx.1, hx.2, hx.3, hx.4, hx.5, hx.6⟩)
    | (exact fun _ hx => ⟨hx.1, hx.2⟩)
    | (exact fun _ => Nat.le_refl _)
    | (exact fun _ ha hb => ⟨ha, hb⟩)
    | (exact Nat.le_refl _)

theorem State.lapUnlock_keeps {s0 s : State} (h : Keeps s0 s) (m : MasterId) (f : List Byte) : Keeps s0 (State.lapUnlock s m f) := by
  unfold State.lapUnlock
  repeat' first
    | (with_reducible assumption)
    | (with_reducible exact Keeps.refl _)
    | (with_reducible apply State.modMaster_keeps)
    | (with_reducible apply State.endLockout_keeps)
    | (with_reducible apply State.lapRefuse_keeps)
    | (with_reducible apply State.lapReply_keeps)
    | (with_reducible apply State.unlockFailed_keeps)
    | (with_reducible apply State.unlockPassword_keeps)
    | (with_reducible apply State.unlockSignature_keeps)
    | (dsimp only)
    | (intro)
    | (with_reducible apply Keeps.ite)
    | split
    | (exact fun _ hx => ⟨hx.1, hx.2, hx.3, hx.4, hx.5, hx.6⟩)
    | (exact fun _ hx => ⟨hx.1, hx.2⟩)
    | (exact fun _ => Nat.le_refl _)
    | (exact fun _ ha hb => ⟨ha, hb⟩)
    | (apply MasterInv.same <;> first | assumption | rfl)

theorem State.lapLock_keeps {s0 s : State} (h : Keeps s0 s) (m : MasterId) (f : List Byte) : Keeps s0 (State.lapLock s m f) := by
  unfold State.lapLock
  repeat' first
    | (with_reducible assumption)
    | (with_reducible exact Keeps.refl _)
    | (with_reducible apply State.endSession_keeps)
    | (with_reducible apply State.lapReply_keeps)

theorem State.lapSpdm_keeps {s0 s : State} (h : Keeps s0 s) (m : MasterId) (f : List Byte) : Keeps s0 (State.lapSpdm s m f) := by
  unfold State.lapSpdm
  exact State.lapReply_keeps (State.spdmRun_keeps h _ _) _ _ _ _ _

theorem State.lapService_keeps {s0 s : State} (h : Keeps s0 s) (m : MasterId) (f : List Byte) : Keeps s0 (State.lapService s m f) := by
  unfold State.lapService
  repeat' first
    | (with_reducible assumption)
    | (with_reducible exact Keeps.refl _)
    | (with_reducible apply State.lapChallenge_keeps)
    | (with_reducible apply State.lapLock_keeps)
    | (with_reducible apply State.lapRead_keeps)
    | (with_reducible apply State.lapReadBlock_keeps)
    | (with_reducible apply State.lapRefuse_keeps)
    | (with_reducible apply State.lapSpdm_keeps)
    | (with_reducible apply State.lapSubscribe_keeps)
    | (with_reducible apply State.lapUnlock_keeps)
    | (with_reducible apply State.lapWrite_keeps)
    | (with_reducible apply State.lapWriteBlock_keeps)
    | split

theorem Master.window_inv {x : Master} (h : MasterInv x) (now : Ns) : MasterInv (x.window now) := by
  unfold Master.window
  split
  · exact ⟨h.1, Nat.zero_le _⟩
  · exact h

theorem State.lapRequest_keeps {s0 s : State} (h : Keeps s0 s) (m : MasterId) (dst : Option Peer) (f : List Byte) : Keeps s0 (State.lapRequest s m dst f) := by
  unfold State.lapRequest
  repeat' first
    | (with_reducible assumption)
    | (with_reducible exact Keeps.refl _)
    | (with_reducible apply State.modMaster_keeps)
    | (with_reducible apply State.lapDiscard_keeps)
    | (with_reducible apply State.lapDrop_keeps)
    | (with_reducible apply State.lapMalformed_keeps)
    | (with_reducible apply State.lapResend_keeps)
    | (with_reducible apply State.lapService_keeps)
    | (with_reducible apply State.tagFail_keeps)
    | (exact fun _ hx => Master.window_inv hx _)
    | (dsimp only)
    | (intro)
    | (with_reducible apply Keeps.ite)
    | split
    | (exact fun _ hx => ⟨hx.1, hx.2, hx.3, hx.4, hx.5, hx.6⟩)
    | (exact fun _ hx => ⟨hx.1, hx.2⟩)
    | (exact fun _ => Nat.le_refl _)
    | (exact fun _ ha hb => ⟨ha, hb⟩)
    | (apply MasterInv.same <;> first | assumption | rfl)

theorem State.mailbox_keeps {s0 s : State} (h : Keeps s0 s) (p : Fin 2) (f : List Byte) : Keeps s0 (State.mailbox s p f) := by
  unfold State.mailbox
  repeat' first
    | (with_reducible assumption)
    | (with_reducible exact Keeps.refl _)
    | (with_reducible apply State.modPf_keeps)
    | (with_reducible apply State.lapRequest_keeps)

theorem State.lapRow_keeps {s0 s : State} (h : Keeps s0 s) (m : MasterId) (dst : Peer) (f : List Byte) : Keeps s0 (State.lapRow s m dst f) := by
  unfold State.lapRow
  repeat' first
    | (with_reducible assumption)
    | (with_reducible exact Keeps.refl _)
    | (with_reducible apply State.lapRequest_keeps)
    | (with_reducible apply State.mailbox_keeps)
    | (intro)
    | (with_reducible apply Keeps.ite)
    | split

end Sys2Proof.Machine
end

