-- ==== Sys2Proof/Laws/KeepsFrameEvents.lean ====
section
/-! SUPPORT. The operations of Machine/FrameEvents.lean keep what `Keeps` says. -/

namespace Sys2Proof.Machine
open Sys2Proof

theorem execFrameComplete_keeps {s0 s : State} (h : Keeps s0 s) (d : DieId) (inTime : Bool) : OKeeps s0 (execFrameComplete d inTime s) := by
  unfold execFrameComplete
  repeat' first
    | (with_reducible assumption)
    | (with_reducible exact Keeps.refl _)
    | (with_reducible apply OKeeps.next)
    | (with_reducible apply State.modCmp_keeps)
    | (with_reducible apply State.ringFrame_keeps)
    | (with_reducible apply State.streamInstance_keeps)
    | (dsimp only)
    | (intro)
    | (with_reducible apply OKeeps.ite)
    | (with_reducible apply Keeps.ite)
    | split

end Sys2Proof.Machine
end

