-- ==== Sys2Proof/Laws/KeepsHostOps.lean ====
section
/-! SUPPORT. The operations of Machine/HostOps.lean keep what `Keeps` says. -/

namespace Sys2Proof.Machine
open Sys2Proof

theorem State.funcError_keeps {s0 s : State} (h : Keeps s0 s) (p : Nat) (n : Nat) (b : Nat) (value : Nat) : Keeps s0 (State.funcError s p n b value) := by
  unfold State.funcError
  repeat' first
    | (with_reducible assumption)
    | (with_reducible exact Keeps.refl _)
    | (with_reducible apply State.modVf_keeps)
    | (with_reducible apply State.notice_keeps)

theorem State.refuse_keeps {s0 s : State} (h : Keeps s0 s) (t : Nat) (x : CycleNode) : Keeps s0 (State.refuse s t x) := by
  unfold State.refuse
  repeat' first
    | (with_reducible assumption)
    | (with_reducible exact Keeps.refl _)
    | (with_reducible apply State.modQueue_keeps)
    | (with_reducible apply State.settle_keeps)

theorem State.breakCycles_keeps {s0 s : State} (h : Keeps s0 s) (t : Nat) (bell : Nat) : Keeps s0 (State.breakCycles s t bell) := by
  unfold State.breakCycles
  repeat' first
    | (with_reducible assumption)
    | (with_reducible exact Keeps.refl _)
    | (with_reducible apply State.refuse_keeps)
    | (with_reducible apply Keeps.foldl)
    | split
    | (exact fun _ hx => ⟨hx.1, hx.2, hx.3, hx.4, hx.5, hx.6⟩)
    | (exact fun _ hx => ⟨hx.1, hx.2⟩)
    | (exact fun _ => Nat.le_refl _)
    | (exact fun _ ha hb => ⟨ha, hb⟩)
    | (exact Nat.le_refl _)
    | (intro)

theorem State.bellThaw_keeps {s0 s : State} (h : Keeps s0 s) (n : Nat) : Keeps s0 (State.bellThaw s n) := by
  unfold State.bellThaw
  repeat' first
    | (with_reducible assumption)
    | (with_reducible exact Keeps.refl _)
    | (with_reducible apply State.thawTrigger_keeps)
    | (dsimp only)
    | (intro)
    | (with_reducible apply Keeps.ite)

theorem State.bellGo_keeps {s0 s : State} (h : Keeps s0 s) (p : Nat) (n : Nat) (value : Nat) (entry : List Byte) (cmds : List (List Byte)) : Keeps s0 (State.bellGo s p n value entry cmds) := by
  unfold State.bellGo
  repeat' first
    | (with_reducible assumption)
    | (with_reducible exact Keeps.refl _)
    | (with_reducible apply State.modTenant_keeps)
    | (with_reducible apply State.setCtxs_keeps)
    | (with_reducible apply State.bellThaw_keeps)
    | (with_reducible apply State.breakCycles_keeps)
    | (with_reducible apply State.funcError_keeps)
    | (with_reducible apply State.modQueue_keeps)
    | (with_reducible apply State.settle_keeps)
    | (with_reducible apply Keeps.foldl)
    | (dsimp only)
    | (intro)
    | (with_reducible apply Keeps.ite)
    | split

theorem State.doorbell_keeps {s0 s : State} (h : Keeps s0 s) (p : Nat) (n : Nat) (size : Nat) (value : Nat) (entry : List Byte) (cmds : List (List Byte)) : Keeps s0 (State.doorbell s p n size value entry cmds) := by
  unfold State.doorbell
  repeat' first
    | (with_reducible assumption)
    | (with_reducible exact Keeps.refl _)
    | (with_reducible apply State.bellGo_keeps)
    | (with_reducible apply State.funcError_keeps)
    | (with_reducible apply State.holdOp_keeps)
    | (intro)
    | (with_reducible apply Keeps.ite)
    | split

theorem State.flushHeld_keeps {s0 s : State} (h : Keeps s0 s) (f : Fn) : Keeps s0 (State.flushHeld s f) := by
  unfold State.flushHeld
  repeat' first
    | (with_reducible assumption)
    | (with_reducible exact Keeps.refl _)
    | (with_reducible apply State.modPf_keeps)
    | (with_reducible apply State.modVf_keeps)
    | (with_reducible apply State.bellGo_keeps)
    | (with_reducible apply State.hostWrite_keeps)
    | (with_reducible apply State.msix_keeps)
    | (with_reducible apply State.writeNotice_keeps)
    | (with_reducible apply Keeps.foldl)
    | (dsimp only)
    | (intro)
    | (with_reducible apply Keeps.ite)
    | split

theorem State.mboxRelease_keeps {s0 s : State} (h : Keeps s0 s)  : Keeps s0 (State.mboxRelease s) := by
  unfold State.mboxRelease
  repeat' first
    | (with_reducible assumption)
    | (with_reducible exact Keeps.refl _)
    | (with_reducible apply State.allDies_keeps)
    | (with_reducible apply State.modPf_keeps)
    | (with_reducible apply State.modTray_keeps)
    | split
    | (exact fun _ hx => ⟨hx.1, hx.2, hx.3, hx.4, hx.5, hx.6⟩)
    | (exact fun _ hx => ⟨hx.1, hx.2⟩)
    | (exact fun _ => Nat.le_refl _)

theorem State.claim_keeps {s0 s : State} (h : Keeps s0 s) (p : Fin 2) (v : Nat) : Keeps s0 (State.claim s p v) := by
  unfold State.claim
  repeat' first
    | (with_reducible assumption)
    | (with_reducible exact Keeps.refl _)
    | (with_reducible apply State.modPf_keeps)
    | (with_reducible apply State.modTray_keeps)
    | (with_reducible apply State.mboxRelease_keeps)
    | (dsimp only)
    | (intro)
    | (with_reducible apply Keeps.ite)
    | split
    | (exact fun _ hx => ⟨hx.1, hx.2, hx.3, hx.4, hx.5, hx.6⟩)
    | (exact fun _ hx => ⟨hx.1, hx.2⟩)
    | (exact fun _ => Nat.le_refl _)
    | (exact fun _ ha hb => ⟨ha, hb⟩)
    | (exact Nat.le_refl _)

theorem State.mboxBell_keeps {s0 s : State} (h : Keeps s0 s) (p : Fin 2) (len : Nat) : Keeps s0 (State.mboxBell s p len) := by
  unfold State.mboxBell
  repeat' first
    | (with_reducible assumption)
    | (with_reducible exact Keeps.refl _)
    | (with_reducible apply State.modPf_keeps)
    | (with_reducible apply State.lapDiscard_keeps)
    | (with_reducible apply State.mailbox_keeps)
    | (dsimp only)
    | (intro)
    | (with_reducible apply Keeps.ite)

theorem State.ringIgnored_keeps {s0 s : State} (h : Keeps s0 s) (f : Fn) : Keeps s0 (State.ringIgnored s f) := by
  unfold State.ringIgnored
  repeat' first
    | (with_reducible assumption)
    | (with_reducible exact Keeps.refl _)
    | (with_reducible apply State.modVf_keeps)
    | (with_reducible apply State.funcError_keeps)
    | split

theorem State.ringWord_keeps {s0 s : State} (h : Keeps s0 s) (f : Fn) (off : Nat) (v : Nat) : Keeps s0 (State.ringWord s f off v) := by
  unfold State.ringWord
  repeat' first
    | (with_reducible assumption)
    | (with_reducible exact Keeps.refl _)
    | (with_reducible apply State.modRing_keeps)
    | (with_reducible apply State.ringIgnored_keeps)
    | (dsimp only)
    | (intro)
    | (with_reducible apply Keeps.ite)
    | split

theorem State.unmask_keeps {s0 s : State} (h : Keeps s0 s) (f : Fn) (v : Nat) : Keeps s0 (State.unmask s f v) := by
  unfold State.unmask
  repeat' first
    | (with_reducible assumption)
    | (with_reducible exact Keeps.refl _)
    | (with_reducible apply State.modVec_keeps)
    | (with_reducible apply State.msix_keeps)
    | (dsimp only)
    | (intro)
    | (with_reducible apply Keeps.ite)

theorem State.msixWord_keeps {s0 s : State} (h : Keeps s0 s) (f : Fn) (i : Nat) (v : Nat) : Keeps s0 (State.msixWord s f i v) := by
  unfold State.msixWord
  repeat' first
    | (with_reducible assumption)
    | (with_reducible exact Keeps.refl _)
    | (with_reducible apply State.modVec_keeps)
    | (with_reducible apply State.unmask_keeps)
    | (dsimp only)
    | (intro)
    | (with_reducible apply Keeps.ite)
    | split

theorem State.vfWord_keeps {s0 s : State} (h : Keeps s0 s) (p : Nat) (n : Nat) (off : Nat) (v : Nat) : Keeps s0 (State.vfWord s p n off v) := by
  unfold State.vfWord
  repeat' first
    | (with_reducible assumption)
    | (with_reducible exact Keeps.refl _)
    | (with_reducible apply State.modVf_keeps)
    | (with_reducible apply State.funcError_keeps)
    | (dsimp only)
    | (intro)
    | (with_reducible apply Keeps.ite)
    | split

theorem State.pfWord_keeps {s0 s : State} (h : Keeps s0 s) (p : Fin 2) (off : Nat) (v : Nat) : Keeps s0 (State.pfWord s p off v) := by
  unfold State.pfWord
  repeat' first
    | (with_reducible assumption)
    | (with_reducible exact Keeps.refl _)
    | (with_reducible apply State.modPf_keeps)
    | (with_reducible apply State.claim_keeps)
    | (with_reducible apply State.mboxBell_keeps)
    | (dsimp only)
    | (intro)
    | (with_reducible apply Keeps.ite)

theorem State.barWord_keeps {s0 s : State} (h : Keeps s0 s) (f : Fn) (off : Nat) (v : Nat) : Keeps s0 (State.barWord s f off v) := by
  unfold State.barWord
  repeat' first
    | (with_reducible assumption)
    | (with_reducible exact Keeps.refl _)
    | (with_reducible apply State.modVec_keeps)
    | (with_reducible apply State.msixWord_keeps)
    | (with_reducible apply State.pfWord_keeps)
    | (with_reducible apply State.ringWord_keeps)
    | (with_reducible apply State.vfWord_keeps)
    | (intro)
    | (with_reducible apply Keeps.ite)
    | split

theorem State.sendHalt_keeps {s0 s : State} (h : Keeps s0 s) (t : Nat) (all : Bool) : Keeps s0 (State.sendHalt s t all) := by
  unfold State.sendHalt
  repeat' first
    | (with_reducible assumption)
    | (with_reducible exact Keeps.refl _)
    | (with_reducible apply State.flood_keeps)
    | (with_reducible apply State.takeTenantHalt_keeps)
    | split

theorem State.haltTenant_keeps {s0 s : State} (h : Keeps s0 s) (t : Nat) : Keeps s0 (State.haltTenant s t) := by
  unfold State.haltTenant
  apply State.allDies_keeps
  · apply State.modTenant_keeps
    apply State.setCtxs_keeps
    apply State.forDies_keeps h
    intro u d hu
    apply Keeps.foldl _ _ hu
    intro u r hu
    exact State.stopRun_keeps hu _ _ _ _
  · intro x hx
    exact ⟨hx.1, hx.2, hx.3, Nat.le_trans (List.length_filter_le _ _) hx.4, hx.5, hx.6⟩

theorem State.vfReset_keeps {s0 s : State} (h : Keeps s0 s) (p : Nat) (n : Nat) (gone : Bool) (own : Bool) : Keeps s0 (State.vfReset s p n gone own) := by
  unfold State.vfReset
  repeat' first
    | (with_reducible assumption)
    | (with_reducible exact Keeps.refl _)
    | (with_reducible apply State.modVf_keeps)
    | (with_reducible apply State.haltTenant_keeps)
    | (with_reducible apply State.noticePfs_keeps)
    | (with_reducible apply State.sendHalt_keeps)
    | (dsimp only)
    | (intro)
    | (with_reducible apply Keeps.ite)
    | split

theorem State.clearTenant_keeps {s0 s : State} (h : Keeps s0 s) (t : Nat) : Keeps s0 (State.clearTenant s t) := by
  unfold State.clearTenant
  apply State.allDies_keeps
  · exact State.modTenant_keeps (State.setCtxs_keeps h _) _ _
  · intro x hx
    refine DieInv.tiles hx _ (Tiles.foldl_setOwner _ _ _ _).1 ?_
    simp only [List.length_map]
    rw [(Tiles.foldl_setOwner _ _ _ _).2]

theorem State.vfResetDone_keeps {s0 s : State} (h : Keeps s0 s) (p : Nat) (n : Nat) : Keeps s0 (State.vfResetDone s p n) := by
  unfold State.vfResetDone
  repeat' first
    | (with_reducible assumption)
    | (with_reducible exact Keeps.refl _)
    | (with_reducible apply State.modVf_keeps)
    | (with_reducible apply State.setVfs_keeps)
    | (with_reducible apply State.clearTenant_keeps)
    | (with_reducible apply State.noticePfs_keeps)
    | (dsimp only)
    | (intro)
    | (with_reducible apply Keeps.ite)
    | split

theorem State.dropVfs_keeps {s0 s : State} (h : Keeps s0 s) (p : Nat) (from_ : Nat) : Keeps s0 (State.dropVfs s p from_) := by
  unfold State.dropVfs
  repeat' first
    | (with_reducible assumption)
    | (with_reducible exact Keeps.refl _)
    | (with_reducible apply State.vfReset_keeps)
    | (with_reducible apply Keeps.foldl)
    | (exact fun _ hx => ⟨hx.1, hx.2, hx.3, hx.4, hx.5, hx.6⟩)
    | (exact fun _ hx => ⟨hx.1, hx.2⟩)
    | (exact fun _ => Nat.le_refl _)
    | (exact fun _ ha hb => ⟨ha, hb⟩)
    | (exact Nat.le_refl _)
    | (intro)

theorem State.addVf_keeps {s0 s : State} (h : Keeps s0 s) (p : Nat) (n : Nat) : Keeps s0 (State.addVf s p n) := by
  unfold State.addVf
  repeat' first
    | (with_reducible assumption)
    | (with_reducible exact Keeps.refl _)
    | (with_reducible apply State.modTenant_keeps)
    | (with_reducible apply State.setVfs_keeps)
    | (dsimp only)
    | (intro)
    | (with_reducible apply Keeps.ite)
    | split

theorem State.enableVf_keeps {s0 s : State} (h : Keeps s0 s) (p : Nat) (n : Nat) : Keeps s0 (State.enableVf s p n) := by
  unfold State.enableVf
  repeat' first
    | (with_reducible assumption)
    | (with_reducible exact Keeps.refl _)
    | (with_reducible apply State.addVf_keeps)
    | (with_reducible apply State.vfResetDone_keeps)
    | (intro)
    | (with_reducible apply Keeps.ite)
    | split

end Sys2Proof.Machine
end

