-- ==== Sys2Proof/Laws/KeepsHostEvents.lean ====
section
/-! SUPPORT. The operations of Machine/HostEvents.lean keep what `Keeps` says. -/

namespace Sys2Proof.Machine
open Sys2Proof

theorem execDoorbell_keeps {s0 s : State} (h : Keeps s0 s) (port : Nat) (n : Nat) (size : Nat) (value : Nat) (entry : List Byte) (cmds : List (List Byte)) : OKeeps s0 (execDoorbell port n size value entry cmds s) := by
  unfold execDoorbell
  repeat' first
    | (with_reducible assumption)
    | (with_reducible exact Keeps.refl _)
    | (with_reducible apply OKeeps.next)
    | (with_reducible apply State.doorbell_keeps)
    | (with_reducible apply State.finishReset_keeps)

theorem execBarRegisterWrite_keeps {s0 s : State} (h : Keeps s0 s) (f : Fn) (off : Nat) (size : Nat) (value : Nat) : OKeeps s0 (execBarRegisterWrite f off size value s) := by
  unfold execBarRegisterWrite
  repeat' first
    | (with_reducible assumption)
    | (with_reducible exact Keeps.refl _)
    | (with_reducible apply OKeeps.next)
    | (with_reducible apply State.barWord_keeps)
    | (with_reducible apply State.finishReset_keeps)
    | (with_reducible apply State.funcError_keeps)
    | (dsimp only)
    | (intro)
    | (with_reducible apply OKeeps.ite)
    | (with_reducible apply Keeps.ite)
    | split

theorem execNoticeRingWrite_keeps {s0 s : State} (h : Keeps s0 s) (f : Fn) (off : Nat) (value : Nat) : OKeeps s0 (execNoticeRingWrite f off value s) := by
  unfold execNoticeRingWrite
  repeat' first
    | (with_reducible assumption)
    | (with_reducible exact Keeps.refl _)
    | (with_reducible apply OKeeps.next)
    | (with_reducible apply State.ringWord_keeps)
    | (dsimp only)
    | (intro)
    | (with_reducible apply OKeeps.ite)
    | (with_reducible apply Keeps.ite)

theorem execBusMasterEnableSet_keeps {s0 s : State} (h : Keeps s0 s) (f : Fn) (mse : Bool) : OKeeps s0 (execBusMasterEnableSet f mse s) := by
  unfold execBusMasterEnableSet
  repeat' first
    | (with_reducible assumption)
    | (with_reducible exact Keeps.refl _)
    | (with_reducible apply OKeeps.next)
    | (with_reducible apply State.modPf_keeps)
    | (with_reducible apply State.modVf_keeps)
    | (with_reducible apply State.flushHeld_keeps)
    | (dsimp only)
    | (intro)
    | (with_reducible apply OKeeps.ite)
    | (with_reducible apply Keeps.ite)
    | split

theorem execHoldoffExpire_keeps {s0 s : State} (h : Keeps s0 s) (f : Fn) (v : Nat) : OKeeps s0 (execHoldoffExpire f v s) := by
  unfold execHoldoffExpire
  repeat' first
    | (with_reducible assumption)
    | (with_reducible exact Keeps.refl _)
    | (with_reducible apply OKeeps.next)
    | (with_reducible apply State.advanceTo_keeps)
    | (with_reducible apply State.modVec_keeps)
    | (with_reducible apply State.msix_keeps)
    | (dsimp only)
    | (intro)
    | (with_reducible apply OKeeps.ite)
    | (with_reducible apply Keeps.ite)
    | split

theorem execMsixUnmask_keeps {s0 s : State} (h : Keeps s0 s) (f : Fn) (v : Nat) : OKeeps s0 (execMsixUnmask f v s) := by
  unfold execMsixUnmask
  repeat' first
    | (with_reducible assumption)
    | (with_reducible exact Keeps.refl _)
    | (with_reducible apply OKeeps.next)
    | (with_reducible apply State.unmask_keeps)
    | (intro)
    | (with_reducible apply OKeeps.ite)

theorem execMboxClaim_keeps {s0 s : State} (h : Keeps s0 s) (p : Fin 2) (v : Nat) (also : Bool) : OKeeps s0 (execMboxClaim p v also s) := by
  unfold execMboxClaim
  repeat' first
    | (with_reducible assumption)
    | (with_reducible exact Keeps.refl _)
    | (with_reducible apply OKeeps.next)
    | (with_reducible apply State.claim_keeps)
    | (dsimp only)
    | (intro)
    | (with_reducible apply OKeeps.ite)
    | (with_reducible apply Keeps.ite)

theorem execMboxDoorbell_keeps {s0 s : State} (h : Keeps s0 s) (p : Fin 2) (len : Nat) : OKeeps s0 (execMboxDoorbell p len s) := by
  unfold execMboxDoorbell
  repeat' first
    | (with_reducible assumption)
    | (with_reducible exact Keeps.refl _)
    | (with_reducible apply OKeeps.next)
    | (with_reducible apply State.finishReset_keeps)
    | (with_reducible apply State.mboxBell_keeps)
    | (intro)
    | (with_reducible apply OKeeps.ite)

theorem execLinkTraining_keeps {s0 s : State} (h : Keeps s0 s) (p : Fin 2) (rates : List Nat) (widths : List Nat) (flit : Bool) : OKeeps s0 (execLinkTraining p rates widths flit s) := by
  unfold execLinkTraining
  repeat' first
    | (with_reducible assumption)
    | (with_reducible exact Keeps.refl _)
    | (with_reducible apply OKeeps.next)
    | (with_reducible apply State.modPf_keeps)
    | (dsimp only)
    | (intro)
    | (with_reducible apply OKeeps.ite)

theorem execVfFlr_keeps {s0 s : State} (h : Keeps s0 s) (p : Fin 2) (n : Nat) : OKeeps s0 (execVfFlr p n s) := by
  unfold execVfFlr
  repeat' first
    | (with_reducible assumption)
    | (with_reducible exact Keeps.refl _)
    | (with_reducible apply OKeeps.next)
    | (with_reducible apply State.vfReset_keeps)

theorem execVfFlrComplete_keeps {s0 s : State} (h : Keeps s0 s) (p : Fin 2) (n : Nat) : OKeeps s0 (execVfFlrComplete p n s) := by
  unfold execVfFlrComplete
  repeat' first
    | (with_reducible assumption)
    | (with_reducible exact Keeps.refl _)
    | (with_reducible apply OKeeps.next)
    | (with_reducible apply State.vfResetDone_keeps)

theorem execVfEnableClear_keeps {s0 s : State} (h : Keeps s0 s) (p : Fin 2) (num : Nat) : OKeeps s0 (execVfEnableClear p num s) := by
  unfold execVfEnableClear
  repeat' first
    | (with_reducible assumption)
    | (with_reducible exact Keeps.refl _)
    | (with_reducible apply OKeeps.next)
    | (with_reducible apply State.modPf_keeps)
    | (with_reducible apply State.dropVfs_keeps)

theorem State.endMailbox_keeps {s0 s : State} (h : Keeps s0 s)  : Keeps s0 (State.endMailbox s) := by
  unfold State.endMailbox
  apply State.endSession_keeps
  apply State.mboxRelease_keeps
  apply State.modMaster_keeps h
  intro x hx
  exact ⟨Nat.zero_le _, hx.2⟩

theorem execPfFlr_keeps {s0 s : State} (h : Keeps s0 s) (p : Fin 2) : OKeeps s0 (execPfFlr p s) := by
  unfold execPfFlr
  apply OKeeps.next
  apply State.modPf_keeps
  apply State.allDies_keeps
  · apply State.endMailbox_keeps
    apply State.sendHalt_keeps
    apply Keeps.foldl _ _ h
    intro u k hu
    exact State.vfReset_keeps hu _ _ _ _
  · exact fun _ hx => ⟨hx.1, hx.2, hx.3, hx.4, hx.5, hx.6⟩

theorem execConventionalReset_keeps {s0 s : State} (h : Keeps s0 s) (p : Fin 2) : OKeeps s0 (execConventionalReset p s) := by
  unfold execConventionalReset
  apply OKeeps.next
  apply State.modPf_keeps
  have k := State.dropVfs_keeps h p.val 0
  apply Keeps.ite
  · exact State.endSession_keeps (State.mboxRelease_keeps k) _
  · exact k

theorem execPfD3hot_keeps {s0 s : State} (h : Keeps s0 s) (p : Fin 2) : OKeeps s0 (execPfD3hot p s) := by
  unfold execPfD3hot
  repeat' first
    | (with_reducible assumption)
    | (with_reducible exact Keeps.refl _)
    | (with_reducible apply OKeeps.next)
    | (with_reducible apply State.modPf_keeps)
    | (with_reducible apply State.mboxRelease_keeps)
    | (dsimp only)
    | (intro)
    | (with_reducible apply OKeeps.ite)
    | (with_reducible apply Keeps.ite)

end Sys2Proof.Machine
end

