-- ==== Sys2Proof/Laws/KeepsLapEvents.lean ====
section
/-! SUPPORT. The operations of Machine/LapEvents.lean keep what `Keeps` says. -/

namespace Sys2Proof.Machine
open Sys2Proof

theorem State.lapOf_keeps {s0 s : State} (h : Keeps s0 s) (m : MasterId) (g : Datagram) (ok : Nat → Bool) : Keeps s0 (State.lapOf s m g ok) := by
  unfold State.lapOf
  repeat' first
    | (with_reducible assumption)
    | (with_reducible exact Keeps.refl _)
    | (with_reducible apply State.lapRow_keeps)
    | (intro)
    | (with_reducible apply Keeps.ite)

theorem execRead_keeps {s0 s : State} (h : Keeps s0 s) (m : MasterId) (g : Datagram) : OKeeps s0 (execRead m g s) := by
  unfold execRead
  repeat' first
    | (with_reducible assumption)
    | (with_reducible exact Keeps.refl _)
    | (with_reducible apply OKeeps.next)
    | (with_reducible apply State.finishReset_keeps)
    | (with_reducible apply State.lapOf_keeps)

theorem execWrite_keeps {s0 s : State} (h : Keeps s0 s) (m : MasterId) (g : Datagram) : OKeeps s0 (execWrite m g s) := by
  unfold execWrite
  repeat' first
    | (with_reducible assumption)
    | (with_reducible exact Keeps.refl _)
    | (with_reducible apply OKeeps.next)
    | (with_reducible apply State.finishReset_keeps)
    | (with_reducible apply State.lapOf_keeps)

theorem execReadBlock_keeps {s0 s : State} (h : Keeps s0 s) (m : MasterId) (g : Datagram) : OKeeps s0 (execReadBlock m g s) := by
  unfold execReadBlock
  repeat' first
    | (with_reducible assumption)
    | (with_reducible exact Keeps.refl _)
    | (with_reducible apply OKeeps.next)
    | (with_reducible apply State.finishReset_keeps)
    | (with_reducible apply State.lapOf_keeps)

theorem execWriteBlock_keeps {s0 s : State} (h : Keeps s0 s) (m : MasterId) (g : Datagram) : OKeeps s0 (execWriteBlock m g s) := by
  unfold execWriteBlock
  repeat' first
    | (with_reducible assumption)
    | (with_reducible exact Keeps.refl _)
    | (with_reducible apply OKeeps.next)
    | (with_reducible apply State.finishReset_keeps)
    | (with_reducible apply State.lapOf_keeps)

theorem execCommand_keeps {s0 s : State} (h : Keeps s0 s) (m : MasterId) (g : Datagram) : OKeeps s0 (execCommand m g s) := by
  unfold execCommand
  repeat' first
    | (with_reducible assumption)
    | (with_reducible exact Keeps.refl _)
    | (with_reducible apply OKeeps.next)
    | (with_reducible apply State.finishReset_keeps)
    | (with_reducible apply State.lapOf_keeps)

theorem execSubscribe_keeps {s0 s : State} (h : Keeps s0 s) (m : MasterId) (g : Datagram) : OKeeps s0 (execSubscribe m g s) := by
  unfold execSubscribe
  repeat' first
    | (with_reducible assumption)
    | (with_reducible exact Keeps.refl _)
    | (with_reducible apply OKeeps.next)
    | (with_reducible apply State.finishReset_keeps)
    | (with_reducible apply State.lapOf_keeps)

theorem execUnknownService_keeps {s0 s : State} (h : Keeps s0 s) (m : MasterId) (g : Datagram) : OKeeps s0 (execUnknownService m g s) := by
  unfold execUnknownService
  repeat' first
    | (with_reducible assumption)
    | (with_reducible exact Keeps.refl _)
    | (with_reducible apply OKeeps.next)
    | (with_reducible apply State.finishReset_keeps)
    | (with_reducible apply State.lapOf_keeps)

theorem execUnlockChallenge_keeps {s0 s : State} (h : Keeps s0 s) (m : MasterId) (g : Datagram) : OKeeps s0 (execUnlockChallenge m g s) := by
  unfold execUnlockChallenge
  repeat' first
    | (with_reducible assumption)
    | (with_reducible exact Keeps.refl _)
    | (with_reducible apply OKeeps.next)
    | (with_reducible apply State.finishReset_keeps)
    | (with_reducible apply State.lapOf_keeps)

theorem execUnlockResponse_keeps {s0 s : State} (h : Keeps s0 s) (m : MasterId) (g : Datagram) : OKeeps s0 (execUnlockResponse m g s) := by
  unfold execUnlockResponse
  repeat' first
    | (with_reducible assumption)
    | (with_reducible exact Keeps.refl _)
    | (with_reducible apply OKeeps.next)
    | (with_reducible apply State.finishReset_keeps)
    | (with_reducible apply State.lapOf_keeps)

theorem execLock_keeps {s0 s : State} (h : Keeps s0 s) (m : MasterId) (g : Datagram) : OKeeps s0 (execLock m g s) := by
  unfold execLock
  repeat' first
    | (with_reducible assumption)
    | (with_reducible exact Keeps.refl _)
    | (with_reducible apply OKeeps.next)
    | (with_reducible apply State.finishReset_keeps)
    | (with_reducible apply State.lapOf_keeps)

theorem execSequenceWindowClear_keeps {s0 s : State} (h : Keeps s0 s) (m : MasterId) : OKeeps s0 (execSequenceWindowClear m s) := by
  unfold execSequenceWindowClear
  split
  · exact OKeeps.next h
  · apply OKeeps.next
    apply State.modMaster_keeps (State.advanceTo_keeps h _)
    exact fun _ hx => Master.window_inv hx _

theorem execAssemblyTimeout_keeps {s0 s : State} (h : Keeps s0 s) (m : MasterId) : OKeeps s0 (execAssemblyTimeout m s) := by
  unfold execAssemblyTimeout
  repeat' first
    | (with_reducible assumption)
    | (with_reducible exact Keeps.refl _)
    | (with_reducible apply OKeeps.next)
    | (with_reducible apply State.modMaster_keeps)
    | (with_reducible apply State.advanceTo_keeps)
    | split
    | (exact fun _ hx => ⟨hx.1, hx.2, hx.3, hx.4, hx.5, hx.6⟩)
    | (exact fun _ hx => ⟨hx.1, hx.2⟩)

theorem execSubscriptionExpire_keeps {s0 s : State} (h : Keeps s0 s) (m : MasterId) (no : Nat) : OKeeps s0 (execSubscriptionExpire m no s) := by
  unfold execSubscriptionExpire
  repeat' first
    | (with_reducible assumption)
    | (with_reducible exact Keeps.refl _)
    | (with_reducible apply OKeeps.next)
    | (with_reducible apply State.modMaster_keeps)
    | (with_reducible apply State.advanceTo_keeps)
    | (dsimp only)
    | split
    | (exact fun _ hx => ⟨hx.1, hx.2, hx.3, hx.4, hx.5, hx.6⟩)
    | (exact fun _ hx => ⟨hx.1, hx.2⟩)

theorem execNotifyPeriodic_keeps {s0 s : State} (h : Keeps s0 s) (m : MasterId) (no : Nat) : OKeeps s0 (execNotifyPeriodic m no s) := by
  unfold execNotifyPeriodic
  repeat' first
    | (with_reducible assumption)
    | (with_reducible exact Keeps.refl _)
    | (with_reducible apply OKeeps.next)
    | (with_reducible apply State.modTray_keeps)
    | (with_reducible apply State.advanceTo_keeps)
    | (with_reducible apply State.flushSegs_keeps)
    | (with_reducible apply State.modSub_keeps)
    | (with_reducible apply State.sendSegs_keeps)
    | (dsimp only)
    | (intro)
    | (with_reducible apply OKeeps.ite)
    | (with_reducible apply Keeps.ite)
    | split
    | (exact fun _ hx => ⟨hx.1, hx.2, hx.3, hx.4, hx.5, hx.6⟩)
    | (exact fun _ hx => ⟨hx.1, hx.2⟩)
    | (exact fun _ => Nat.le_refl _)
    | (exact fun _ ha hb => ⟨ha, hb⟩)
    | (exact Nat.le_refl _)

theorem execNotifyOnChange_keeps {s0 s : State} (h : Keeps s0 s) (m : MasterId) (no : Nat) : OKeeps s0 (execNotifyOnChange m no s) := by
  unfold execNotifyOnChange
  repeat' first
    | (with_reducible assumption)
    | (with_reducible exact Keeps.refl _)
    | (with_reducible apply OKeeps.next)
    | (with_reducible apply State.advanceTo_keeps)
    | (with_reducible apply State.flushSegs_keeps)
    | (with_reducible apply State.notifyChange_keeps)
    | (with_reducible apply State.sendLate_keeps)
    | (dsimp only)
    | (intro)
    | (with_reducible apply OKeeps.ite)
    | (with_reducible apply Keeps.ite)
    | split

theorem execBeaconTimeout_keeps {s0 s : State} (h : Keeps s0 s) (p : Bool) : OKeeps s0 (execBeaconTimeout p s) := by
  unfold execBeaconTimeout
  repeat' first
    | (with_reducible assumption)
    | (with_reducible exact Keeps.refl _)
    | (with_reducible apply OKeeps.next)
    | (with_reducible apply State.modMaster_keeps)
    | (exact fun _ hx => ⟨hx.1, hx.2, hx.3, hx.4, hx.5, hx.6⟩)
    | (exact fun _ hx => ⟨hx.1, hx.2⟩)

theorem execNeighbourSolicitation_keeps {s0 s : State} (h : Keeps s0 s) (p : Bool) (target : Nat) (src : Nat) : OKeeps s0 (execNeighbourSolicitation p target src s) := by
  unfold execNeighbourSolicitation
  repeat' first
    | (with_reducible assumption)
    | (with_reducible exact Keeps.refl _)
    | (with_reducible apply OKeeps.next)
    | (with_reducible apply State.emit_keeps)
    | (dsimp only)
    | (intro)
    | (with_reducible apply OKeeps.ite)

theorem execIcmpEcho_keeps {s0 s : State} (h : Keeps s0 s) (p : Bool) (dst : Nat) (src : Nat) (body : List Byte) : OKeeps s0 (execIcmpEcho p dst src body s) := by
  unfold execIcmpEcho
  repeat' first
    | (with_reducible assumption)
    | (with_reducible exact Keeps.refl _)
    | (with_reducible apply OKeeps.next)
    | (with_reducible apply State.emit_keeps)
    | (dsimp only)
    | (intro)
    | (with_reducible apply OKeeps.ite)

end Sys2Proof.Machine
end

