-- ==== Sys2Proof/Laws/KeepsLateEvents.lean ====
section
/-! SUPPORT. The operations of Machine/LateEvents.lean keep what `Keeps` says. -/

namespace Sys2Proof.Machine
open Sys2Proof

theorem State.refGone_keeps {s0 s : State} (h : Keeps s0 s) (d : DieId) (r : RefIn) : Keeps s0 (State.refGone s d r) := by
  unfold State.refGone
  repeat' first
    | (with_reducible assumption)
    | (with_reducible exact Keeps.refl _)
    | (with_reducible apply State.logClk_keeps)
    | (with_reducible apply State.modClk_keeps)
    | (dsimp only)
    | (intro)
    | (with_reducible apply Keeps.ite)

theorem execSourceReadyLoss_keeps {s0 s : State} (h : Keeps s0 s) (d : DieId) (src : ClkSource) : OKeeps s0 (execSourceReadyLoss d src s) := by
  unfold execSourceReadyLoss
  repeat' first
    | (with_reducible assumption)
    | (with_reducible exact Keeps.refl _)
    | (with_reducible apply OKeeps.next)
    | (with_reducible apply State.modClk_keeps)
    | (with_reducible apply State.refGone_keeps)
    | (intro)
    | (with_reducible apply OKeeps.ite)
    | (with_reducible apply Keeps.ite)
    | split

theorem execConverterRestored_keeps {s0 s : State} (h : Keeps s0 s) (n : Nat) : OKeeps s0 (execConverterRestored n s) := by
  unfold execConverterRestored
  repeat' first
    | (with_reducible assumption)
    | (with_reducible exact Keeps.refl _)
    | (with_reducible apply OKeeps.next)
    | (with_reducible apply State.modTray_keeps)
    | (dsimp only)
    | (intro)
    | (with_reducible apply OKeeps.ite)
    | (with_reducible apply Keeps.ite)
    | split
    | (exact fun _ hx => ⟨hx.1, hx.2, hx.3, hx.4, hx.5, hx.6⟩)
    | (exact fun _ hx => ⟨hx.1, hx.2⟩)
    | (exact fun _ => Nat.le_refl _)
    | (exact fun _ ha hb => ⟨ha, hb⟩)
    | (exact Nat.le_refl _)

theorem execBusMasterEnableClear_keeps {s0 s : State} (h : Keeps s0 s) (f : Fn) (mse : Bool) : OKeeps s0 (execBusMasterEnableClear f mse s) := by
  unfold execBusMasterEnableClear
  repeat' first
    | (with_reducible assumption)
    | (with_reducible exact Keeps.refl _)
    | (with_reducible apply OKeeps.next)
    | (with_reducible apply State.modPf_keeps)
    | (with_reducible apply State.modVf_keeps)
    | split

theorem execPfReturnToD0_keeps {s0 s : State} (h : Keeps s0 s) (p : Fin 2) : OKeeps s0 (execPfReturnToD0 p s) := by
  unfold execPfReturnToD0
  repeat' first
    | (with_reducible assumption)
    | (with_reducible exact Keeps.refl _)
    | (with_reducible apply OKeeps.next)
    | (with_reducible apply State.modPf_keeps)
    | (with_reducible apply State.flushHeld_keeps)
    | (intro)
    | (with_reducible apply OKeeps.ite)

theorem execVfEnableSet_keeps {s0 s : State} (h : Keeps s0 s) (p : Fin 2) (num : Nat) (mse : Bool) : OKeeps s0 (execVfEnableSet p num mse s) := by
  unfold execVfEnableSet
  repeat' first
    | (with_reducible assumption)
    | (with_reducible exact Keeps.refl _)
    | (with_reducible apply OKeeps.next)
    | (with_reducible apply State.modPf_keeps)
    | (with_reducible apply State.enableVf_keeps)
    | (with_reducible apply Keeps.foldl)
    | (dsimp only)
    | (intro)

theorem execDoeDiscovery_keeps {s0 s : State} (h : Keeps s0 s) (f : Fn) (ty : Nat) (idx : Nat) : OKeeps s0 (execDoeDiscovery f ty idx s) := by
  unfold execDoeDiscovery
  repeat' first
    | (with_reducible assumption)
    | (with_reducible exact Keeps.refl _)
    | (with_reducible apply OKeeps.next)
    | (with_reducible apply State.emit_keeps)
    | (with_reducible apply State.modDoe_keeps)
    | (dsimp only)
    | (intro)
    | (with_reducible apply OKeeps.ite)

theorem execTrayControllerRestartDone_keeps {s0 s : State} (h : Keeps s0 s)  : OKeeps s0 (execTrayControllerRestartDone s) := by
  unfold execTrayControllerRestartDone
  repeat' first
    | (with_reducible assumption)
    | (with_reducible exact Keeps.refl _)
    | (with_reducible apply OKeeps.next)
    | (with_reducible apply State.logTray_keeps)
    | (with_reducible apply State.modFw_keeps)
    | (dsimp only)
    | (intro)
    | (with_reducible apply OKeeps.ite)

theorem execBeaconRegained_keeps {s0 s : State} (h : Keeps s0 s) (p : Bool) : OKeeps s0 (execBeaconRegained p s) := by
  unfold execBeaconRegained
  repeat' first
    | (with_reducible assumption)
    | (with_reducible exact Keeps.refl _)
    | (with_reducible apply OKeeps.next)
    | (with_reducible apply State.modMaster_keeps)
    | (intro)
    | (with_reducible apply OKeeps.ite)
    | (with_reducible apply Keeps.ite)
    | split
    | (exact fun _ hx => ⟨hx.1, hx.2, hx.3, hx.4, hx.5, hx.6⟩)
    | (exact fun _ hx => ⟨hx.1, hx.2⟩)
    | (exact fun _ => Nat.le_refl _)
    | (exact fun _ ha hb => ⟨ha, hb⟩)
    | (apply MasterInv.same <;> first | assumption | rfl)

end Sys2Proof.Machine
end

