-- ==== Sys2Proof/Laws/KeepsLegendEvents.lean ====
section
/-! SUPPORT. The operations of Machine/LegendEvents.lean keep what `Keeps` says. -/

namespace Sys2Proof.Machine
open Sys2Proof

theorem execPersistentCommit_keeps {s0 s : State} (h : Keeps s0 s) (ok : Bool) : OKeeps s0 (execPersistentCommit ok s) := by
  unfold execPersistentCommit
  repeat' first
    | (with_reducible assumption)
    | (with_reducible exact Keeps.refl _)
    | (with_reducible apply OKeeps.next)
    | (with_reducible apply State.modTray_keeps)
    | (with_reducible apply State.advanceTo_keeps)
    | (with_reducible apply State.answer_keeps)
    | (with_reducible apply State.commitNow_keeps)
    | (with_reducible apply State.logTray_keeps)
    | (with_reducible apply Keeps.foldl)
    | (dsimp only)
    | (intro)
    | (with_reducible apply OKeeps.ite)
    | (with_reducible apply Keeps.ite)
    | split
    | (exact fun _ hx => ⟨hx.1, hx.2, hx.3, hx.4, hx.5, hx.6⟩)
    | (exact fun _ hx => ⟨hx.1, hx.2⟩)
    | (exact fun _ => Nat.le_refl _)
    | (exact fun _ ha hb => ⟨ha, hb⟩)
    | (exact Nat.le_refl _)

theorem execLegendWrite_keeps {s0 s : State} (h : Keeps s0 s) (m : MasterId) (w : GateOp) (others : List (MasterId × List Byte)) : OKeeps s0 (execLegendWrite m w others s) := by
  unfold execLegendWrite
  apply OKeeps.next
  apply State.finishReset_keeps
  apply State.gate_keeps
  · apply Keeps.foldl _ _ h
    intro u p hu
    split
    · apply State.modMaster_keeps hu
      exact fun _ hx => ⟨by show (1 : Nat) ≤ 64; omega, hx.2⟩
    · exact hu
  · exact fun u m v hu => State.applyWrite_keeps hu _ _ _

theorem execSitePasswordWrite_keeps {s0 s : State} (h : Keeps s0 s) (m : MasterId) (v : List Byte) : OKeeps s0 (execSitePasswordWrite m v s) := by
  unfold execSitePasswordWrite
  repeat' first
    | (with_reducible assumption)
    | (with_reducible exact Keeps.refl _)
    | (with_reducible apply OKeeps.next)
    | (with_reducible apply State.gate_keeps)
    | (with_reducible apply State.passwordApply_keeps)
    | (with_reducible apply GKeeps.done)
    | (with_reducible apply GKeeps.refused)
    | (exact fun _ hx => ⟨hx.1, hx.2, hx.3, hx.4, hx.5, hx.6⟩)
    | (exact fun _ hx => ⟨hx.1, hx.2⟩)
    | (exact fun _ => Nat.le_refl _)
    | (exact fun _ ha hb => ⟨ha, hb⟩)
    | (exact Nat.le_refl _)
    | (intro)

theorem execUnlockKeyWrite_keeps {s0 s : State} (h : Keeps s0 s) (m : MasterId) (v : List Byte) : OKeeps s0 (execUnlockKeyWrite m v s) := by
  unfold execUnlockKeyWrite
  repeat' first
    | (with_reducible assumption)
    | (with_reducible exact Keeps.refl _)
    | (with_reducible apply OKeeps.next)
    | (with_reducible apply State.gate_keeps)
    | (with_reducible apply State.keyApply_keeps)
    | (with_reducible apply GKeeps.done)
    | (with_reducible apply GKeeps.refused)
    | (exact fun _ hx => ⟨hx.1, hx.2, hx.3, hx.4, hx.5, hx.6⟩)
    | (exact fun _ hx => ⟨hx.1, hx.2⟩)
    | (exact fun _ => Nat.le_refl _)
    | (exact fun _ ha hb => ⟨ha, hb⟩)
    | (exact Nat.le_refl _)
    | (intro)

theorem execPreferredRefWrite_keeps {s0 s : State} (h : Keeps s0 s) (m : MasterId) (d : DieId) (v : Nat) : OKeeps s0 (execPreferredRefWrite m d v s) := by
  unfold execPreferredRefWrite
  repeat' first
    | (with_reducible assumption)
    | (with_reducible exact Keeps.refl _)
    | (with_reducible apply OKeeps.next)
    | (with_reducible apply State.gate_keeps)
    | (with_reducible apply State.preferredApply_keeps)
    | (with_reducible apply GKeeps.done)
    | (with_reducible apply GKeeps.refused)
    | (exact fun _ hx => ⟨hx.1, hx.2, hx.3, hx.4, hx.5, hx.6⟩)
    | (exact fun _ hx => ⟨hx.1, hx.2⟩)
    | (exact fun _ => Nat.le_refl _)
    | (exact fun _ ha hb => ⟨ha, hb⟩)
    | (exact Nat.le_refl _)
    | (intro)

theorem execClockEnableWrite_keeps {s0 s : State} (h : Keeps s0 s) (m : MasterId) (d : DieId) (v : Nat) : OKeeps s0 (execClockEnableWrite m d v s) := by
  unfold execClockEnableWrite
  repeat' first
    | (with_reducible assumption)
    | (with_reducible exact Keeps.refl _)
    | (with_reducible apply OKeeps.next)
    | (with_reducible apply State.enablesApply_keeps)
    | (with_reducible apply State.gate_keeps)
    | (with_reducible apply GKeeps.done)
    | (with_reducible apply GKeeps.refused)
    | (exact fun _ hx => ⟨hx.1, hx.2, hx.3, hx.4, hx.5, hx.6⟩)
    | (exact fun _ hx => ⟨hx.1, hx.2⟩)
    | (exact fun _ => Nat.le_refl _)
    | (exact fun _ ha hb => ⟨ha, hb⟩)
    | (exact Nat.le_refl _)
    | (intro)

theorem execClkmonSelectWrite_keeps {s0 s : State} (h : Keeps s0 s) (m : MasterId) (d : DieId) (sub : Nat) (v : Nat) : OKeeps s0 (execClkmonSelectWrite m d sub v s) := by
  unfold execClkmonSelectWrite
  repeat' first
    | (with_reducible assumption)
    | (with_reducible exact Keeps.refl _)
    | (with_reducible apply OKeeps.next)
    | (with_reducible apply State.clkmonApply_keeps)
    | (with_reducible apply State.gate_keeps)
    | (with_reducible apply GKeeps.done)
    | (with_reducible apply GKeeps.refused)
    | (intro)
    | (with_reducible apply OKeeps.ite)

theorem execClkmonDriveWrite_keeps {s0 s : State} (h : Keeps s0 s) (m : MasterId) (d : DieId) (v : Nat) : OKeeps s0 (execClkmonDriveWrite m d v s) := by
  unfold execClkmonDriveWrite
  repeat' first
    | (with_reducible assumption)
    | (with_reducible exact Keeps.refl _)
    | (with_reducible apply OKeeps.next)
    | (with_reducible apply State.driveApply_keeps)
    | (with_reducible apply State.gate_keeps)
    | (with_reducible apply GKeeps.done)
    | (with_reducible apply GKeeps.refused)
    | (exact fun _ hx => ⟨hx.1, hx.2, hx.3, hx.4, hx.5, hx.6⟩)
    | (exact fun _ hx => ⟨hx.1, hx.2⟩)
    | (exact fun _ => Nat.le_refl _)
    | (exact fun _ ha hb => ⟨ha, hb⟩)
    | (exact Nat.le_refl _)
    | (intro)

theorem execTenantMapWrite_keeps {s0 s : State} (h : Keeps s0 s) (m : MasterId) (v : List Byte) : OKeeps s0 (execTenantMapWrite m v s) := by
  unfold execTenantMapWrite
  repeat' first
    | (with_reducible assumption)
    | (with_reducible exact Keeps.refl _)
    | (with_reducible apply OKeeps.next)
    | (with_reducible apply State.gate_keeps)
    | (with_reducible apply State.mapApply_keeps)
    | (with_reducible apply GKeeps.done)
    | (with_reducible apply GKeeps.refused)
    | (exact fun _ hx => ⟨hx.1, hx.2, hx.3, hx.4, hx.5, hx.6⟩)
    | (exact fun _ hx => ⟨hx.1, hx.2⟩)
    | (exact fun _ => Nat.le_refl _)
    | (exact fun _ ha hb => ⟨ha, hb⟩)
    | (exact Nat.le_refl _)
    | (intro)

theorem execHoldTimeWrite_keeps {s0 s : State} (h : Keeps s0 s) (m : MasterId) (v : Nat) : OKeeps s0 (execHoldTimeWrite m v s) := by
  unfold execHoldTimeWrite
  repeat' first
    | (with_reducible assumption)
    | (with_reducible exact Keeps.refl _)
    | (with_reducible apply OKeeps.next)
    | (with_reducible apply State.gate_keeps)
    | (with_reducible apply State.holdApply_keeps)
    | (with_reducible apply GKeeps.done)
    | (with_reducible apply GKeeps.refused)
    | (exact fun _ hx => ⟨hx.1, hx.2, hx.3, hx.4, hx.5, hx.6⟩)
    | (exact fun _ hx => ⟨hx.1, hx.2⟩)
    | (exact fun _ => Nat.le_refl _)
    | (exact fun _ ha hb => ⟨ha, hb⟩)
    | (exact Nat.le_refl _)
    | (intro)

theorem execEndAllExpertSessions_keeps {s0 s : State} (h : Keeps s0 s) (m : MasterId) (v : Nat) : OKeeps s0 (execEndAllExpertSessions m v s) := by
  unfold execEndAllExpertSessions
  repeat' first
    | (with_reducible assumption)
    | (with_reducible exact Keeps.refl _)
    | (with_reducible apply OKeeps.next)
    | (with_reducible apply State.endAllApply_keeps)
    | (with_reducible apply State.gate_keeps)
    | (with_reducible apply GKeeps.done)
    | (with_reducible apply GKeeps.refused)
    | (exact fun _ hx => ⟨hx.1, hx.2, hx.3, hx.4, hx.5, hx.6⟩)
    | (exact fun _ hx => ⟨hx.1, hx.2⟩)
    | (exact fun _ => Nat.le_refl _)
    | (exact fun _ ha hb => ⟨ha, hb⟩)
    | (exact Nat.le_refl _)
    | (intro)

theorem execLockoutEnd_keeps {s0 s : State} (h : Keeps s0 s)  : OKeeps s0 (execLockoutEnd s) := by
  unfold execLockoutEnd
  repeat' first
    | (with_reducible assumption)
    | (with_reducible exact Keeps.refl _)
    | (with_reducible apply OKeeps.next)
    | (with_reducible apply State.modTray_keeps)
    | split
    | (exact fun _ hx => ⟨hx.1, hx.2, hx.3, hx.4, hx.5, hx.6⟩)
    | (exact fun _ hx => ⟨hx.1, hx.2⟩)
    | (exact fun _ => Nat.le_refl _)
    | (exact fun _ ha hb => ⟨ha, hb⟩)
    | (exact fun _ => Nat.add_le_add_left (Nat.le_max_left _ _) _)
    | (exact fun _ => Nat.add_le_add_left (Nat.le_add_right _ _) _)

theorem execSessionExpire_keeps {s0 s : State} (h : Keeps s0 s) (m : MasterId) : OKeeps s0 (execSessionExpire m s) := by
  unfold execSessionExpire
  repeat' first
    | (with_reducible assumption)
    | (with_reducible exact Keeps.refl _)
    | (with_reducible apply OKeeps.next)
    | (with_reducible apply State.advanceTo_keeps)
    | (with_reducible apply State.endSession_keeps)
    | (with_reducible apply State.ends_keeps)
    | split

theorem State.trayHandoffDone_keeps {s0 s : State} (h : Keeps s0 s) (accept : Bool) : Keeps s0 (State.trayHandoffDone s accept) := by
  unfold State.trayHandoffDone
  dsimp only
  split
  · exact State.drainGate_keeps (State.modFw_keeps h _)
  · exact State.modTray_keeps (State.allMasters_keeps (State.modFw_keeps h _) _ fun _ _ => ⟨Nat.zero_le _, Nat.zero_le _⟩) _ fun _ => Nat.le_refl _

theorem execFirnRecordCheck_keeps {s0 s : State} (h : Keeps s0 s) (who : Option DieId) (r : FirnHeader) : OKeeps s0 (execFirnRecordCheck who r s) := by
  unfold execFirnRecordCheck
  repeat' first
    | (with_reducible assumption)
    | (with_reducible exact Keeps.refl _)
    | (with_reducible apply OKeeps.next)
    | (with_reducible apply State.modDie_keeps)
    | (with_reducible apply State.coldStart_keeps)
    | (with_reducible apply State.trayHandoffDone_keeps)
    | (dsimp only)
    | (intro)
    | (with_reducible apply OKeeps.ite)
    | (with_reducible apply Keeps.ite)
    | split
    | (exact fun _ hx => ⟨hx.1, hx.2, hx.3, hx.4, hx.5, hx.6⟩)
    | (exact fun _ hx => ⟨hx.1, hx.2⟩)
    | (exact fun _ => Nat.le_refl _)
    | (exact fun _ ha hb => ⟨ha, hb⟩)
    | (apply DieInv.same <;> first | assumption | rfl)

theorem execHoldingPatternEnd_keeps {s0 s : State} (h : Keeps s0 s) (d : DieId) (digest : List Byte) : OKeeps s0 (execHoldingPatternEnd d digest s) := by
  unfold execHoldingPatternEnd
  repeat' first
    | (with_reducible assumption)
    | (with_reducible exact Keeps.refl _)
    | (with_reducible apply OKeeps.next)
    | (with_reducible apply State.advanceTo_keeps)
    | (with_reducible apply State.dieWatchdog_keeps)
    | (with_reducible apply State.endHandoff_keeps)
    | (intro)
    | (with_reducible apply OKeeps.ite)
    | (with_reducible apply Keeps.ite)
    | split

theorem execHandoffWatchdog_keeps {s0 s : State} (h : Keeps s0 s) (who : Option DieId) : OKeeps s0 (execHandoffWatchdog who s) := by
  unfold execHandoffWatchdog
  repeat' first
    | (with_reducible assumption)
    | (with_reducible exact Keeps.refl _)
    | (with_reducible apply OKeeps.next)
    | (with_reducible apply State.advanceTo_keeps)
    | (with_reducible apply State.dieWatchdog_keeps)
    | (with_reducible apply State.drainGate_keeps)
    | (with_reducible apply State.modFw_keeps)
    | (with_reducible apply State.rollBackAll_keeps)
    | (intro)
    | (with_reducible apply OKeeps.ite)
    | (with_reducible apply Keeps.ite)
    | split

end Sys2Proof.Machine
end

