-- ==== Sys2Proof/Laws/KeepsPlanEvents.lean ====
section
/-! SUPPORT. The operations of Machine/PlanEvents.lean keep what `Keeps` says. -/

namespace Sys2Proof.Machine
open Sys2Proof

theorem execBankFree_keeps {s0 s : State} (h : Keeps s0 s) (d : DieId) (b : Fin 8) : OKeeps s0 (execBankFree d b s) := by
  unfold execBankFree
  repeat' first
    | (with_reducible assumption)
    | (with_reducible exact Keeps.refl _)
    | (with_reducible apply OKeeps.next)
    | (with_reducible apply State.advanceTo_keeps)
    | (with_reducible apply State.modBank_keeps)
    | (dsimp only)
    | (intro)
    | (with_reducible apply OKeeps.ite)

theorem execFloatSegmentStart_keeps {s0 s : State} (h : Keeps s0 s) (d : DieId) (t : Nat) (hh : Nat) : OKeeps s0 (execFloatSegmentStart d t hh s) := by
  unfold execFloatSegmentStart
  repeat' first
    | (with_reducible assumption)
    | (with_reducible exact Keeps.refl _)
    | (with_reducible apply OKeeps.next)
    | (with_reducible apply State.modRun_keeps)
    | (with_reducible apply State.runTo_keeps)
    | (dsimp only)
    | (intro)
    | (with_reducible apply OKeeps.ite)
    | (with_reducible apply Keeps.ite)
    | split

theorem execHoldExpired_keeps {s0 s : State} (h : Keeps s0 s) (d : DieId) (t : Nat) (hh : Nat) : OKeeps s0 (execHoldExpired d t hh s) := by
  unfold execHoldExpired
  repeat' first
    | (with_reducible assumption)
    | (with_reducible exact Keeps.refl _)
    | (with_reducible apply OKeeps.next)
    | (with_reducible apply State.advanceTo_keeps)
    | (with_reducible apply State.endRun_keeps)
    | split

theorem execScrubLine_keeps {s0 s : State} (h : Keeps s0 s) (d : DieId) (tile : Fin 128) (bank : Fin 8) (single : List Nat) (double : List Nat) : OKeeps s0 (execScrubLine d tile bank single double s) := by
  unfold execScrubLine
  repeat' first
    | (with_reducible assumption)
    | (with_reducible exact Keeps.refl _)
    | (with_reducible apply OKeeps.next)
    | (with_reducible apply State.modDie_keeps)
    | (with_reducible apply State.poisonWord_keeps)
    | (with_reducible apply Keeps.foldl)
    | (dsimp only)
    | (intro)
    | (with_reducible apply OKeeps.ite)
    | (with_reducible apply Keeps.ite)
    | split
    | (exact fun _ hx => ⟨hx.1, hx.2, hx.3, hx.4, hx.5, hx.6⟩)
    | (exact fun _ hx => ⟨hx.1, hx.2⟩)
    | (exact fun _ => Nat.le_refl _)
    | (exact fun _ ha hb => ⟨ha, hb⟩)
    | (apply DieInv.same <;> first | assumption | rfl)

theorem execBarrierArrivalSend_keeps {s0 s : State} (h : Keeps s0 s) (d : DieId) (t : Nat) (hh : Nat) (pos : Nat) : OKeeps s0 (execBarrierArrivalSend d t hh pos s) := by
  unfold execBarrierArrivalSend
  repeat' first
    | (with_reducible assumption)
    | (with_reducible exact Keeps.refl _)
    | (with_reducible apply OKeeps.next)
    | (with_reducible apply State.runTo_keeps)
    | (with_reducible apply State.sendArrival_keeps)
    | (dsimp only)
    | (intro)
    | (with_reducible apply OKeeps.ite)
    | (with_reducible apply Keeps.ite)
    | split

theorem execBarrierArrival_keeps {s0 s : State} (h : Keeps s0 s) (d : DieId) (src : Nat) (t : Nat) (id : Nat) (n : Nat) (parts : Nat) : OKeeps s0 (execBarrierArrival d src t id n parts s) := by
  unfold execBarrierArrival
  repeat' first
    | (with_reducible assumption)
    | (with_reducible exact Keeps.refl _)
    | (with_reducible apply OKeeps.next)
    | (with_reducible apply State.takeArrival_keeps)

theorem execBarrierRelease_keeps {s0 s : State} (h : Keeps s0 s) (d : DieId) (t : Nat) (id : Nat) (n : Nat) : OKeeps s0 (execBarrierRelease d t id n s) := by
  unfold execBarrierRelease
  repeat' first
    | (with_reducible assumption)
    | (with_reducible exact Keeps.refl _)
    | (with_reducible apply OKeeps.next)
    | (with_reducible apply State.takeRelease11_keeps)

end Sys2Proof.Machine
end

