-- ==== Sys2Proof/Laws/KeepsSpdmEvents.lean ====
section
/-! SUPPORT. The operations of Machine/SpdmEvents.lean keep what `Keeps` says. -/

namespace Sys2Proof.Machine
open Sys2Proof

theorem State.spdmRow_keeps {s0 s : State} (h : Keeps s0 s) (q : SpdmMsg) (ok : Nat → Bool) : Keeps s0 (State.spdmRow s q ok) := by
  unfold State.spdmRow
  repeat' first
    | (with_reducible assumption)
    | (with_reducible exact Keeps.refl _)
    | (with_reducible apply State.doeSpdm_keeps)
    | (with_reducible apply State.lapOf_keeps)
    | (intro)
    | (with_reducible apply Keeps.ite)
    | split

theorem execGetVersion_keeps {s0 s : State} (h : Keeps s0 s) (q : SpdmMsg) : OKeeps s0 (execGetVersion q s) := by
  unfold execGetVersion
  repeat' first
    | (with_reducible assumption)
    | (with_reducible exact Keeps.refl _)
    | (with_reducible apply OKeeps.next)
    | (with_reducible apply State.spdmRow_keeps)

theorem execGetCapabilities_keeps {s0 s : State} (h : Keeps s0 s) (q : SpdmMsg) : OKeeps s0 (execGetCapabilities q s) := by
  unfold execGetCapabilities
  repeat' first
    | (with_reducible assumption)
    | (with_reducible exact Keeps.refl _)
    | (with_reducible apply OKeeps.next)
    | (with_reducible apply State.spdmRow_keeps)

theorem execNegotiateAlgorithms_keeps {s0 s : State} (h : Keeps s0 s) (q : SpdmMsg) : OKeeps s0 (execNegotiateAlgorithms q s) := by
  unfold execNegotiateAlgorithms
  repeat' first
    | (with_reducible assumption)
    | (with_reducible exact Keeps.refl _)
    | (with_reducible apply OKeeps.next)
    | (with_reducible apply State.spdmRow_keeps)

theorem execGetDigests_keeps {s0 s : State} (h : Keeps s0 s) (q : SpdmMsg) : OKeeps s0 (execGetDigests q s) := by
  unfold execGetDigests
  repeat' first
    | (with_reducible assumption)
    | (with_reducible exact Keeps.refl _)
    | (with_reducible apply OKeeps.next)
    | (with_reducible apply State.spdmRow_keeps)

theorem execGetCertificate_keeps {s0 s : State} (h : Keeps s0 s) (q : SpdmMsg) : OKeeps s0 (execGetCertificate q s) := by
  unfold execGetCertificate
  repeat' first
    | (with_reducible assumption)
    | (with_reducible exact Keeps.refl _)
    | (with_reducible apply OKeeps.next)
    | (with_reducible apply State.spdmRow_keeps)

theorem execChallenge_keeps {s0 s : State} (h : Keeps s0 s) (q : SpdmMsg) : OKeeps s0 (execChallenge q s) := by
  unfold execChallenge
  repeat' first
    | (with_reducible assumption)
    | (with_reducible exact Keeps.refl _)
    | (with_reducible apply OKeeps.next)
    | (with_reducible apply State.spdmRow_keeps)

theorem execGetMeasurements_keeps {s0 s : State} (h : Keeps s0 s) (q : SpdmMsg) : OKeeps s0 (execGetMeasurements q s) := by
  unfold execGetMeasurements
  repeat' first
    | (with_reducible assumption)
    | (with_reducible exact Keeps.refl _)
    | (with_reducible apply OKeeps.next)
    | (with_reducible apply State.spdmRow_keeps)

theorem execSpdmUnsupportedRequest_keeps {s0 s : State} (h : Keeps s0 s) (q : SpdmMsg) : OKeeps s0 (execSpdmUnsupportedRequest q s) := by
  unfold execSpdmUnsupportedRequest
  repeat' first
    | (with_reducible assumption)
    | (with_reducible exact Keeps.refl _)
    | (with_reducible apply OKeeps.next)
    | (with_reducible apply State.spdmRow_keeps)

theorem execSpdmStateTimeout_keeps {s0 s : State} (h : Keeps s0 s) (m : MasterId) : OKeeps s0 (execSpdmStateTimeout m s) := by
  unfold execSpdmStateTimeout
  repeat' first
    | (with_reducible assumption)
    | (with_reducible exact Keeps.refl _)
    | (with_reducible apply OKeeps.next)
    | (with_reducible apply State.modMaster_keeps)
    | (with_reducible apply State.advanceTo_keeps)
    | (dsimp only)
    | (intro)
    | (with_reducible apply OKeeps.ite)
    | (with_reducible apply Keeps.ite)
    | split
    | (exact fun _ hx => ⟨hx.1, hx.2, hx.3, hx.4, hx.5, hx.6⟩)
    | (exact fun _ hx => ⟨hx.1, hx.2⟩)
    | (exact fun _ => Nat.le_refl _)
    | (exact fun _ ha hb => ⟨ha, hb⟩)
    | (apply MasterInv.same <;> first | assumption | rfl)

theorem execDoeAbort_keeps {s0 s : State} (h : Keeps s0 s) (f : Fn) : OKeeps s0 (execDoeAbort f s) := by
  unfold execDoeAbort
  repeat' first
    | (with_reducible assumption)
    | (with_reducible exact Keeps.refl _)
    | (with_reducible apply OKeeps.next)
    | (with_reducible apply State.modDoe_keeps)

end Sys2Proof.Machine
end

