-- ==== Sys2Proof/WellFormed.lean ====
section
/-! DEFINITION. Which commands are well formed: every operand within the width or range that its rule gives. A command that
is not cannot reach the tray; the meanings take any operand all the same. -/

namespace Sys2Proof

/-- Field widths of 8, 16, 32 and 64 bits. -/
def u8 (n : Nat) : Bool := decide (n < 2 ^ 8)
def u16 (n : Nat) : Bool := decide (n < 2 ^ 16)
def u32 (n : Nat) : Bool := decide (n < 2 ^ 32)
def u64 (n : Nat) : Bool := decide (n < 2 ^ 64)

/-- A tenant number (R436). -/
def tenantOk (t : Nat) : Bool := decide (t < 1024)

/-- A context handle: generation and table index, 20 bits (R470). -/
def handleOk (h : Nat) : Bool := decide (h < 2 ^ 20)

/-- A LAP frame: no more than one datagram carries (Table 15.2). -/
def frameOk (f : List Byte) : Bool := decide (f.length ≤ 1500)

/-- A datagram: its IPv6 and UDP fields, and its frame (R408). -/
def datagramOk (g : Machine.Datagram) : Bool :=
  frameOk g.frame && decide (g.src < 2 ^ 128) && u16 g.sport && u8 g.hop && u16 g.port

/-- An SPDM message as it reaches a responder. -/
def spdmOk : Machine.SpdmMsg → Bool
  | .doe _ _ => true
  | .lap _ g => datagramOk g

/-- Bytes of a BAR access (R448, R450). -/
def sizeOk (n : Nat) : Bool := [1, 2, 4, 8].contains n

/-- Every operand lies in the range its rule gives. -/
def Instr.wellFormed : Instr → Bool
  | .trayEnAssert pins busMv => decide (pins < 64) && u32 busMv
  | .slotIdChange pins => decide (pins < 64)
  | .busLoss _ => true
  | .busBack busMv => u32 busMv
  | .trayEnDeassert => true
  | .effectiveTrayCapUpdate busMv _ => u32 busMv
  | .refLoss _ => true
  | .rlRelockDone _ => true
  | .refBothLostHalt _ => true
  | .refCompareInterval _ ppm => u32 ppm
  | .sourceReady _ _ => true
  | .loopLockLoss _ _ => true
  | .idleLoopReady _ => true
  | .epochBoundary => true
  | .compTableUpdate _ => true
  | .timeExchangeTick _ => true
  | .timeRequest _ port src no t1 t2 => decide (port < 16) && u16 src && u32 no && u64 t1 && u64 t2
  | .timeResponse _ no t1 t2 t3 t4 => u32 no && u64 t1 && u64 t2 && u64 t3 && u64 t4
  | .avsCurrentRead _ ma mv => u32 ma && u32 mv
  | .avsWriteTimeout _ => true
  | .voltageReady _ => true
  | .converterFail n => decide (n < 4)
  | .vcorePhaseFail _ n => decide (n < 26)
  | .regAlertAssert _ cause => decide (cause < 16)
  | .forcedStateEnd _ => true
  | .alertHalt _ => true
  | .regAlertDeassert _ => true
  | .alertAck _ => true
  | .alertRelease _ => true
  | .ageingMeasurement _ trim ceil => u16 trim && decide (ceil < 16)
  | .ageingOverdue _ => true
  | .marginModeWrite _ _ v => u32 v
  | .vsramVoltageWrite _ _ v => u32 v
  | .segmentLookahead _ t h seg => tenantOk t && handleOk h && decide (seg < 1024)
  | .segmentEnd _ t h seg watts => tenantOk t && handleOk h && decide (seg < 1024) && watts.all u32
  | .rateControlTick _ _ => true
  | .demandCurveSend _ => true
  | .sharesSend loads bus => u32 loads && u32 bus
  | .sharesLate => true
  | .proposalSend _ => true
  | .dieCapWrite _ _ v => u32 v
  | .trayCapWrite _ v => u32 v
  | .glacierWindowWrite _ _ v => u32 v
  | .divisionModeWrite _ _ v => u32 v
  | .sealedTableWrite _ _ v => v.length == 4096
  | .droopTrip _ taps => taps.all fun c => c.all fun p => decide (p.1 < 136) && u16 p.2
  | .armedWindowClose _ => true
  | .detectorTest _ failed => decide (failed < 2 ^ 64)
  | .droopSettingWrite _ _ sub v => u8 sub && u32 v
  | .thermalSample _ n _ => decide (n < 576)
  | .thermalRateRise _ => true
  | .groupMaxPublish _ => true
  | .heatSurgeEnd _ => true
  | .surgeTimeout _ => true
  | .tripRestart _ => true
  | .clearTripLatch _ _ v => u32 v
  | .loopLossDeclare _ flows => decide (flows.length ≤ 1000)
  | .flowLossAssert _ => true
  | .flowLossRelease _ => true
  | .flowLossPowerOff _ => true
  | .valveTrim => true
  | .coolantAlarmUpdate _ fa fb _ _ => u16 fa && u16 fb
  | .heatThresholdWrite _ _ sub v => u8 sub && u32 v
  | .proposalReceive _ src epoch code _ _ heard => u16 src && decide (epoch < 2 ^ 44) && decide (code ≤ 16) && decide (heard ≤ 65536)
  | .recordAckTimeout _ no => u32 no
  | .resultForm _ => true
  | .resultReceive _ src _ => u16 src
  | .standbyRootTakeover _ => true
  | .leaveSend _ cause => u8 cause
  | .leaveReceive _ id => u16 id
  | .leaveGroup _ _ v => u32 v
  | .groupIdentityWrite _ _ sub v => u8 sub && u32 v
  | .joinSend _ => true
  | .joinReceive _ id _ => u16 id
  | .selfRoot _ => true
  | .rootMerge _ root => u16 root
  | .lend _ _ amount epoch => u32 amount && decide (epoch < 2 ^ 44)
  | .grant _ _ amount epoch => u32 amount && decide (epoch < 2 ^ 44)
  | .commit _ _ amount epoch => u32 amount && decide (epoch < 2 ^ 44)
  | .release _ _ amount epoch => u32 amount && decide (epoch < 2 ^ 44)
  | .energyInterval _ _ => true
  | .benchmarkStart _ t h => tenantOk t && handleOk h
  | .benchmarkEnd _ t h _ _ => tenantOk t && handleOk h
  | .upliftRecompute _ => true
  | .coeffStore => true
  | .overheadRuleWrite _ _ v => u32 v
  | .contextSelectorWrite _ _ v => u32 v
  | .surveyNow _ _ v => u32 v
  | .surveyIntervalExpire _ => true
  | .surveyComplete _ grid => grid.length == 4096
  | .frameStart _ => true
  | .frameComplete _ _ => true
  | .composerCheck _ fault sets => u32 fault && sets.all u32
  | .runCheckNow _ _ v => u32 v
  | .coeffSetWrite _ _ set _ => decide (set < 4)
  | .composerWrite _ _ sub _ => u8 sub
  | .nop _ t h u v => tenantOk t && handleOk h && decide (u < 16) && decide (v < 8)
  | .mloadw _ t h u v => tenantOk t && handleOk h && decide (u < 16) && decide (v < 8)
  | .mswap _ t h u v => tenantOk t && handleOk h && decide (u < 16) && decide (v < 8)
  | .mma _ t h u v => tenantOk t && handleOk h && decide (u < 16) && decide (v < 8)
  | .mdrain _ t h u v => tenantOk t && handleOk h && decide (u < 16) && decide (v < 8)
  | .mzero _ t h u v => tenantOk t && handleOk h && decide (u < 16) && decide (v < 8)
  | .vload _ t h u v => tenantOk t && handleOk h && decide (u < 16) && decide (v < 8)
  | .vstore _ t h u v => tenantOk t && handleOk h && decide (u < 16) && decide (v < 8)
  | .vadd _ t h u v => tenantOk t && handleOk h && decide (u < 16) && decide (v < 8)
  | .vmul _ t h u v => tenantOk t && handleOk h && decide (u < 16) && decide (v < 8)
  | .vfma _ t h u v => tenantOk t && handleOk h && decide (u < 16) && decide (v < 8)
  | .vmax _ t h u v => tenantOk t && handleOk h && decide (u < 16) && decide (v < 8)
  | .vexp2 _ t h u v => tenantOk t && handleOk h && decide (u < 16) && decide (v < 8)
  | .vrcp _ t h u v => tenantOk t && handleOk h && decide (u < 16) && decide (v < 8)
  | .vrsqrt _ t h u v => tenantOk t && handleOk h && decide (u < 16) && decide (v < 8)
  | .vred _ t h u v => tenantOk t && handleOk h && decide (u < 16) && decide (v < 8)
  | .vscale _ t h u v => tenantOk t && handleOk h && decide (u < 16) && decide (v < 8)
  | .vacc _ t h u v => tenantOk t && handleOk h && decide (u < 16) && decide (v < 8)
  | .mcopy _ t h u v => tenantOk t && handleOk h && decide (u < 16) && decide (v < 8)
  | .mfill _ t h u v => tenantOk t && handleOk h && decide (u < 16) && decide (v < 8)
  | .mgather _ t h u v => tenantOk t && handleOk h && decide (u < 16) && decide (v < 8)
  | .fsend _ t h u v => tenantOk t && handleOk h && decide (u < 16) && decide (v < 8)
  | .frecv _ t h u v => tenantOk t && handleOk h && decide (u < 16) && decide (v < 8)
  | .sload _ t h => tenantOk t && handleOk h
  | .sstream _ t h => tenantOk t && handleOk h
  | .sselect _ t h => tenantOk t && handleOk h
  | .sblank _ t h => tenantOk t && handleOk h
  | .barrier _ t h => tenantOk t && handleOk h
  | .haltpt _ t h => tenantOk t && handleOk h
  | .end_ _ t h => tenantOk t && handleOk h
  | .bankFree _ _ => true
  | .floatSegmentStart _ t h => tenantOk t && handleOk h
  | .holdExpired _ t h => tenantOk t && handleOk h
  | .scrubLine _ _ _ _ _ => true
  | .barrierArrivalSend _ t h pos => tenantOk t && handleOk h && decide (pos < 256)
  | .barrierArrival _ src t id n parts => u16 src && tenantOk t && u32 id && u64 n && u16 parts
  | .barrierRelease _ t id n => tenantOk t && u32 id && u64 n
  | .combStartupCheck _ _ _ _ _ => true
  | .combLoss _ _ => true
  | .heaterLoopUpdate _ ring u _ => decide (ring < 1280) && decide (u < 16)
  | .ringLockLoss _ _ _ _ => true
  | .ringSearchTimeout _ _ _ _ => true
  | .sweepComplete _ _ _ _ => true
  | .farLightArrival _ _ => true
  | .hello _ _ group id farPort serial => u16 group && u16 id && decide (farPort < 16) && serial.length == 16
  | .lanemap _ _ seq lines => decide (seq < 4096) && lines.length == 36
  | .trainingComplete _ _ passTx passRx => decide (passTx < 2 ^ 40) && decide (passRx < 2 ^ 40)
  | .retrainComplete _ _ => true
  | .portLossTimeout _ _ => true
  | .downPortRetry _ _ => true
  | .portEnableWrite _ _ v => u32 v
  | .calibrationStart _ _ => true
  | .calStart _ _ line => decide (line < 40)
  | .calEnd _ _ line _ => decide (line < 40)
  | .calTimeout _ _ => true
  | .lineBerWeak _ _ _ _ => true
  | .recordBaseline _ _ v => u32 v
  | .statusSend _ _ _ _ => true
  | .status _ _ _ _ => true
  | .flitReceive _ _ bytes _ => bytes.length == 256
  | .nakReceive _ _ seq => decide (seq < 4096)
  | .replayTimeout _ _ => true
  | .open_ _ _ _ => true
  | .openDone _ t id allot => tenantOk t && u32 id && u32 allot
  | .credit _ t id n => tenantOk t && u32 id && u32 n
  | .closeFlit _ _ label t => decide (label < 4096) && tenantOk t
  | .flowlost _ t id cause => tenantOk t && u32 id && u8 cause
  | .tenantHalt _ t _ _ => tenantOk t
  | .controlRecordForward _ _ _ => true
  | .lowrate _ _ _ line => decide (line < 40)
  | .refRingUpdate _ _ _ _ => true
  | .tapPowerMeasure _ _ _ => true
  | .bankRecalibration _ _ _ _ _ => true
  | .recalibrateNow _ _ v => u32 v
  | .persistentCommit _ => true
  | .legendWrite _ _ _ => true
  | .sitePasswordWrite _ _ => true
  | .unlockKeyWrite _ _ => true
  | .preferredRefWrite _ _ v => u32 v
  | .clockEnableWrite _ _ v => u32 v
  | .clkmonSelectWrite _ _ sub v => u8 sub && u32 v
  | .clkmonDriveWrite _ _ v => u32 v
  | .tenantMapWrite _ v => v.length == 2048
  | .holdTimeWrite _ v => u32 v
  | .lockoutEnd => true
  | .sessionExpire _ => true
  | .endAllExpertSessions _ v => u32 v
  | .read _ g => datagramOk g
  | .write _ g => datagramOk g
  | .readBlock _ g => datagramOk g
  | .writeBlock _ g => datagramOk g
  | .command _ g => datagramOk g
  | .subscribe _ g => datagramOk g
  | .unknownService _ g => datagramOk g
  | .unlockChallenge _ g => datagramOk g
  | .unlockResponse _ g => datagramOk g
  | .lock _ g => datagramOk g
  | .sequenceWindowClear _ => true
  | .assemblyTimeout _ => true
  | .subscriptionExpire _ no => u32 no
  | .notifyPeriodic _ no => u32 no
  | .notifyOnChange _ no => u32 no
  | .beaconTimeout _ => true
  | .neighbourSolicitation _ target src => decide (target < 2 ^ 128) && decide (src < 2 ^ 128)
  | .icmpEcho _ dst src _ => decide (dst < 2 ^ 128) && decide (src < 2 ^ 128)
  | .getVersion q => spdmOk q
  | .getCapabilities q => spdmOk q
  | .negotiateAlgorithms q => spdmOk q
  | .getDigests q => spdmOk q
  | .getCertificate q => spdmOk q
  | .challenge q => spdmOk q
  | .getMeasurements q => spdmOk q
  | .spdmUnsupportedRequest q => spdmOk q
  | .spdmStateTimeout _ => true
  | .doeAbort _ => true
  | .doorbell port n size value _ _ => decide (port < 2) && decide (n < 512) && sizeOk size && u64 value
  | .barRegisterWrite _ off size value => u32 off && sizeOk size && u64 value
  | .noticeRingWrite _ off value => u32 off && u64 value
  | .busMasterEnableSet _ _ => true
  | .holdoffExpire _ v => decide (v < 16)
  | .msixUnmask _ v => decide (v < 16)
  | .mboxClaim _ v _ => u32 v
  | .mboxDoorbell _ len => decide (len ≤ 4096)
  | .linkTraining _ _ _ _ => true
  | .vfFlr _ n => decide (n < 512)
  | .vfFlrComplete _ n => decide (n < 512)
  | .vfEnableClear _ num => decide (num ≤ 512)
  | .pfFlr _ => true
  | .conventionalReset _ => true
  | .pfD3hot _ => true
  | .nopCommand t h q => tenantOk t && handleOk h && decide (q < 8)
  | .bind t h q => tenantOk t && handleOk h && decide (q < 8)
  | .unbind t h q => tenantOk t && handleOk h && decide (q < 8)
  | .reside t h q => tenantOk t && handleOk h && decide (q < 8)
  | .evict t h q => tenantOk t && handleOk h && decide (q < 8)
  | .copy t h q => tenantOk t && handleOk h && decide (q < 8)
  | .loadPlan t h q _ => tenantOk t && handleOk h && decide (q < 8)
  | .runPlan t h q => tenantOk t && handleOk h && decide (q < 8)
  | .haltPlan t h q => tenantOk t && handleOk h && decide (q < 8)
  | .signal t h q => tenantOk t && handleOk h && decide (q < 8)
  | .wait t h q => tenantOk t && handleOk h && decide (q < 8)
  | .query t h q => tenantOk t && handleOk h && decide (q < 8)
  | .scrub t h q => tenantOk t && handleOk h && decide (q < 8)
  | .fence t h q => tenantOk t && handleOk h && decide (q < 8)
  | .copyUnitDone _ _ _ => true
  | .granuleZeroed _ g => decide (g < 16384)
  | .waitHorizonExpire t h q => tenantOk t && handleOk h && decide (q < 8)
  | .bootRomStart _ _ => true
  | .lockstepMismatch => true
  | .dieStart _ => true
  | .governorFirmwareLoad _ _ digest => digest.length == 48
  | .dieIdentityCheck _ _ serial sig _ => serial.length == 16 && sig.length == 96
  | .clockStart _ => true
  | .selfTest _ tested lines detectors => decide (tested < 2 ^ 136) && lines.all (fun p => decide (p.1 < 136)) && decide (detectors < 2 ^ 64)
  | .startStepLate _ => true
  | .dieReady _ => true
  | .trayReady => true
  | .vaultRestore => true
  | .trayColdReset _ v => u32 v
  | .diePowerCycle _ _ v => u32 v
  | .dieWarmReset _ _ v => u32 v
  | .enterFrost _ _ v => u32 v
  | .enterFrostTray _ v => u32 v
  | .haltPointsReached _ => true
  | .frozen _ => true
  | .frostEntryTimeout _ => true
  | .frostHaltDeadline => true
  | .thaw _ _ v => u32 v
  | .thawTray _ v => u32 v
  | .thawEnd _ => true
  | .moduleInserted _ serial mv => decide (serial.length ≤ 32) && u32 mv
  | .moduleRemoved => true
  | .chargerStart mv => u32 mv
  | .chargeComplete ma => u16 ma
  | .chargeCurrentCollapse ma => u16 ma
  | .capacityTest rest0 rest1 => u16 rest0 && u16 rest1
  | .moduleFault mv => u16 mv
  | .holdupAvailabilityCheck mah => u32 mah
  | .holdTimerExpire => true
  | .vaultSaveComplete => true
  | .discardVaultSave _ v => u32 v
  | .granuleHoldExpire => true
  | .trayPowerDown _ v => u32 v
  | .imageChunkNumberWrite _ v => u32 v
  | .imageChunk _ _ => true
  | .stageImage _ v => u32 v
  | .stagingComplete _ => true
  | .activateStagedImage _ v => u32 v
  | .firnRecordCheck _ _ => true
  | .holdingPatternCheck _ est => u32 est
  | .holdingPatternEnd _ digest => digest.length == 48
  | .handoffWatchdog _ => true
  | .updateConfirm => true
  | .emergency _ _ => true
  | .moraineAssign => true
  | .remapTile _ _ v => u32 v
  | .tileRemap _ _ => true
  | .ledDiagnosis currents => decide (currents.length ≤ 11)
  | .heaterDiagnosis _ ring meas => decide (ring < 10816) && u16 meas
  | .boundaryScanInstruction _ => true
  | .sourceReadyLoss _ _ => true
  | .converterRestored n => decide (n < 4)
  | .detectorLineStuck _ _ => true
  | .standbyUnavailable _ _ _ => true
  | .framingLoss _ _ => true
  | .busMasterEnableClear _ _ => true
  | .pfReturnToD0 _ => true
  | .vfEnableSet _ num _ => decide (num ≤ 512)
  | .doeDiscovery _ ty idx => u8 ty && u8 idx
  | .scoutCalibrationTablesBuilt _ _ _ => true
  | .holdupConverterTakeover mv => u32 mv
  | .trayControllerRestartDone => true
  | .beaconRegained _ => true

end Sys2Proof
end

