-- ==== Sys2Proof/Tests/Slice0.lean ====
section
/-! SUPPORT. The author's own tests: an ill-formed command for each check of WellFormed, hand-computed results
of single commands, and for each statement with hypotheses a state and operands that meet them. -/

set_option linter.unusedVariables false
set_option Elab.async false

namespace Sys2Proof.Tests
open Sys2Proof Sys2Proof.Machine

/-- A port that carries records. -/
def port : Port := { state := .up }

/-- A tray that is ready, with every die running and a member of its group. -/
def base : State :=
  { State.reset with
    tray := { State.reset.tray with
      now := 1000000
      pow := { State.reset.tray.pow with trayEn := true, busFrom := some 0 }
      cool := { State.reset.tray.cool with goodA := some 0, goodB := some 0 }
      fw := { State.reset.tray.fw with running := true, trayReady := true } }
    dies := Vector.replicate 8 { (State.reset.die 0) with
      rails := { vio := true, vsram := true, vcore := true, vana := true, vhtr := true, avsGov := true }
      clk := { xaReady := true, xbReady := true }
      mer := { member := true, members := [⟨0, none, 0⟩] }
      svc := { state := .running } }
    pfs := Vector.replicate 2 { mse := true, vfMse := true }
    masters := Vector.replicate 4 { State.reset.master 0 with session := some ⟨false, 10 ^ 12, [], []⟩ } }

/-- `base` with die 0 changed. -/
def onDie (f : Die → Die) : State := base.modDie 0 f

/-- `base` with the tray's own part changed. -/
def onTray (f : Tray → Tray) : State := base.modTray f

/-- `base` with the first port of die 0 as given. -/
def withPort (p : Port) : State := onDie fun x => { x with fab.ports := p :: List.replicate 15 {} }

/-- `base` without Expert sessions: its masters send untagged frames. -/
def open_ : State := { base with masters := Vector.replicate 4 {} }

/-- A frame of master 1 (Table 15.2). -/
def frame (svc : Nat) (k : ObjKey) (body : List Byte) : List Byte :=
  [1#8, 0#8, 1#8, BitVec.ofNat 8 svc] ++ leBytes 4 1 ++ leBytes 1 k.sel ++ leBytes 1 k.sub ++ leBytes 2 k.idx ++
    leBytes 2 body.length ++ [0#8, 0#8] ++ body

/-- A datagram from an interface of the same link, that carries a frame (R408). -/
def udp (f : List Byte) : Datagram := ⟨0xFE80 * 2 ^ 112 + 1, 50000, 255, 48710, true, false, false, f⟩

/-- A command whose 64 bytes begin as given. -/
def cmd (bytes : List Nat) : Cmd :=
  { idx := 0, bytes := (bytes ++ List.replicate (64 - bytes.length) 0).map (BitVec.ofNat 8), bell := 1 }

/-- A queue with one command at its head. -/
def queue (c : Cmd) : Queue := { sub := 0, comp := 0, z := 4, vector := 0, horizon := 0, cmds := [c] }

/-- A plan of one tile whose score is one record. -/
def plan (q : Rec) : Plan :=
  { w := 1, h := 1, x0 := 0, y0 := 0, bankMask := 0, length := 100, floatNs := 0, scores := [[q]], stores := [0], segs := []
    flows := [], barriers := [], hash := 0 }

/-- A context of tenant 0, resident on die 0, whose queue 0 holds one command. -/
def ctx (c : Cmd) (bs : List (Nat × Binding)) (ps : List (Nat × Plan)) : Ctx :=
  { gen := 0, queues := some (queue c) :: List.replicate 7 none, bindings := bs, resident := some (0, 0), plans := ps }

/-- `base` with that context and its virtual function. -/
def withCtx (c : Cmd) (bs : List (Nat × Binding)) (ps : List (Nat × Plan)) : State :=
  { base with ctxs := [((0, 0), ctx c bs ps)], vfs := [((0, 0), { bme := true, tenant := some 0, evSize := 16 })] }

/-- A run of that plan. -/
def run (q : Rec) : Run :=
  { tenant := 0, handle := 0, queue := 0, slot := 0, cmdNo := 0, plan := plan q, next := [0], barCount := [], barSent := [] }

/-- `base` with a run on die 0. -/
def withRun (r : Run) : State := onDie fun x => { x with til.runs := [r] }

/-- A flit of a type and sequence, with its check bytes (Table 12.9). -/
def flit (ty seq : Nat) : List Byte :=
  let b := leBytes 1 ty ++ leBytes 3 seq ++ List.replicate 248 0#8
  b ++ leBytes 4 (crc32 b)


theorem zeros_getD (n i : Nat) : (List.replicate n 0#8).getD i 0#8 = 0#8 := by
  simp [List.getD, List.getElem?_replicate]; split <;> rfl

theorem zeros_sealed (n : Nat) : sealedEntries (List.replicate n 0#8) = [] := by
  simp [sealedEntries, List.drop_replicate, List.take_replicate]

theorem sealed_zeros_fit (n : Nat) : ∀ e ∈ sealedEntries (List.replicate n 0#8), e.2.2 ≤ 16 ∧ (e.2.1 = 0 ∨ e.2.2 ≠ 0) := by
  simp [zeros_sealed]

theorem zeros_reserved (n : Nat) : reservedAt 0x2000 0x20 (List.replicate n 0#8) = none := by
  simp only [reservedAt, zeros_getD]; simp

theorem leNat_zeros (n : Nat) : leNat (List.replicate n 0#8) = 0 := by
  induction n with
  | zero => rfl
  | succ n ih => simp [List.replicate_succ, leNat, ih]

theorem zeros_blob (n : Nat) : blobOk 0x2000 0x20 (List.replicate n 0#8) = true := by
  simp only [blobOk, zeros_getD, List.drop_replicate, List.take_replicate, leNat_zeros]; simp

/-- A table of zeros passes the checks of 0x2000:20. -/
theorem sealed_zeros_check (n : Nat) (hn : n = 4096) :
    base.atTick.writeCheck 1 ⟨0x2000, 0x20, 0⟩ (List.replicate n 0#8) = none := by
  have h : objOf ⟨0x2000, 0x20, 0⟩ = some ⟨0x2000, 0x20, .blob, .rw, true, .volatile, 0, 0, 0, 0, 0, 1, 4096⟩ := by
    decide +kernel
  have h2 : base.atTick.isExpert 1 = true := by decide +kernel
  have h3 : base.atTick.unavailable ⟨0x2000, 0x20, .blob, .rw, true, .volatile, 0, 0, 0, 0, 0, 1, 4096⟩ 0 true = none := by
    decide +kernel
  have hl : (List.replicate n 0#8).length = 4096 := by rw [List.length_replicate, hn]
  simp only [State.writeCheck, h, h2, h3, valueCheck, zeros_reserved, zeros_blob, hl]
  simp

theorem ones_pair (n i : Nat) (h : 2 * i + 2 ≤ n) : leNat (((List.replicate n 0xFF#8).drop (2 * i)).take 2) = 0xFFFF := by
  have : min 2 (n - 2 * i) = 2 := by omega
  rw [List.drop_replicate, List.take_replicate, this]; decide +kernel

/-- A map that assigns no position passes the checks of 0x1000:10. -/
theorem map_ones_check (n : Nat) (hn : n = 2048) :
    base.atTick.writeCheck 1 ⟨0x1000, 0x10, 0xF⟩ (List.replicate n 0xFF#8) = none := by
  have h : objOf ⟨0x1000, 0x10, 0xF⟩ = some ⟨0x1000, 0x10, .blob, .rw, true, .persistent, 0, 0, 0, 0, 0, 1, 2048⟩ := by
    decide +kernel
  have h2 : base.atTick.isExpert 1 = true := by decide +kernel
  have h3 : base.atTick.unavailable ⟨0x1000, 0x10, .blob, .rw, true, .persistent, 0, 0, 0, 0, 0, 1, 2048⟩ 0xF true = none := by
    decide +kernel
  have h4 : blobOk 0x1000 0x10 (List.replicate n 0xFF#8) = true := by
    simp only [blobOk]
    simp
    intro i hi
    right; rw [← List.take_replicate, ← List.drop_replicate]; exact ones_pair n i (by omega)
  simp only [State.writeCheck, h, h2, h3, valueCheck, reservedAt, h4]
  simp; rw [if_pos hn]

theorem ones_distinct (n : Nat) (hn : n = 2048) :
    (((chunksOf 2 (List.replicate n 0xFF#8)).map leNat).filter fun e => e != 0xFFFF).Nodup := by
  have : ((chunksOf 2 (List.replicate n 0xFF#8)).map leNat).filter (fun e => e != 0xFFFF) = [] := by
    simp only [List.filter_eq_nil_iff, chunksOf, List.map_map, List.mem_map, List.mem_range, List.length_replicate]
    rintro e ⟨i, hi, rfl⟩
    have hi : i < 1024 := by subst hn; exact hi
    have := ones_pair n i (by omega)
    simp only [Function.comp, this]; decide
  rw [this]; exact List.nodup_nil

/-- No queue of that context moves data. -/
theorem evict_still : ∀ k c, (withCtx (cmd [4]) [] []).headCmd 0 0 k = some c → c.moving = false := by
  intro k c h
  rcases k with _ | _ | _ | _ | _ | _ | _ | _ | k
  · cases h; rfl
  all_goals cases h

theorem test_ill_formed_1 :
    (!(Instr.trayEnAssert 64 0).wellFormed &&
    !(Instr.trayEnAssert 0 (2 ^ 32)).wellFormed &&
    !(Instr.slotIdChange 64).wellFormed &&
    [Instr.busBack, Instr.chargerStart, Instr.holdupAvailabilityCheck, Instr.holdupConverterTakeover].all (fun c => !(c (2
      ^ 32)).wellFormed) &&
    !(Instr.effectiveTrayCapUpdate (2 ^ 32) 0).wellFormed &&
    [Instr.refCompareInterval, Instr.recordAckTimeout, Instr.holdingPatternCheck].all (fun c => !(c 0 (2 ^ 32)).wellFormed)
      &&
    !(Instr.timeRequest 0 16 0 0 0 0).wellFormed &&
    !(Instr.timeRequest 0 0 65536 0 0 0).wellFormed &&
    !(Instr.timeRequest 0 0 0 (2 ^ 32) 0 0).wellFormed &&
    !(Instr.timeRequest 0 0 0 0 (2 ^ 64) 0).wellFormed &&
    !(Instr.timeRequest 0 0 0 0 0 (2 ^ 64)).wellFormed &&
    !(Instr.timeResponse 0 (2 ^ 32) 0 0 0 0).wellFormed &&
    !(Instr.timeResponse 0 0 (2 ^ 64) 0 0 0).wellFormed &&
    !(Instr.timeResponse 0 0 0 (2 ^ 64) 0 0).wellFormed &&
    !(Instr.timeResponse 0 0 0 0 (2 ^ 64) 0).wellFormed &&
    !(Instr.timeResponse 0 0 0 0 0 (2 ^ 64)).wellFormed &&
    !(Instr.avsCurrentRead 0 (2 ^ 32) 0).wellFormed &&
    !(Instr.avsCurrentRead 0 0 (2 ^ 32)).wellFormed &&
    [Instr.converterFail, Instr.converterRestored].all (fun c => !(c 4).wellFormed) &&
    !(Instr.vcorePhaseFail 0 26).wellFormed &&
    !(Instr.regAlertAssert 0 16).wellFormed &&
    !(Instr.ageingMeasurement 0 65536 0).wellFormed &&
    !(Instr.ageingMeasurement 0 0 16).wellFormed &&
    [Instr.marginModeWrite, Instr.vsramVoltageWrite, Instr.dieCapWrite, Instr.glacierWindowWrite, Instr.divisionModeWrite,
      Instr.clearTripLatch, Instr.leaveGroup, Instr.overheadRuleWrite, Instr.contextSelectorWrite, Instr.surveyNow,
      Instr.runCheckNow, Instr.portEnableWrite, Instr.recordBaseline, Instr.recalibrateNow, Instr.preferredRefWrite,
      Instr.clockEnableWrite, Instr.clkmonDriveWrite, Instr.diePowerCycle, Instr.dieWarmReset, Instr.enterFrost,
      Instr.thaw, Instr.remapTile].all (fun c => !(c 0 0 (2 ^ 32)).wellFormed) &&
    !(Instr.segmentLookahead 0 1024 0 0).wellFormed &&
    !(Instr.segmentLookahead 0 0 (2 ^ 20) 0).wellFormed &&
    !(Instr.segmentLookahead 0 0 0 1024).wellFormed &&
    !(Instr.segmentEnd 0 1024 0 0 []).wellFormed &&
    !(Instr.segmentEnd 0 0 (2 ^ 20) 0 []).wellFormed &&
    !(Instr.segmentEnd 0 0 0 1024 []).wellFormed &&
    !(Instr.segmentEnd 0 0 0 0 [2 ^ 32]).wellFormed &&
    !(Instr.sharesSend (2 ^ 32) 0).wellFormed &&
    !(Instr.sharesSend 0 (2 ^ 32)).wellFormed &&
    [Instr.trayCapWrite, Instr.holdTimeWrite, Instr.endAllExpertSessions, Instr.subscriptionExpire, Instr.notifyPeriodic,
      Instr.notifyOnChange, Instr.trayColdReset, Instr.enterFrostTray, Instr.thawTray, Instr.discardVaultSave,
      Instr.trayPowerDown, Instr.imageChunkNumberWrite, Instr.stageImage, Instr.activateStagedImage].all (fun c => !(c 0 (2
      ^ 32)).wellFormed) &&
    !(Instr.sealedTableWrite 0 0 []).wellFormed &&
    !(Instr.droopTrip 0 [[(136, 0)]]).wellFormed) = true := by
  decide +kernel

theorem test_ill_formed_2 :
    (!(Instr.droopTrip 0 [[(0, 65536)]]).wellFormed &&
    !(Instr.detectorTest 0 (2 ^ 64)).wellFormed &&
    [Instr.droopSettingWrite, Instr.heatThresholdWrite, Instr.groupIdentityWrite, Instr.clkmonSelectWrite].all (fun c =>
      !(c 0 0 256 0).wellFormed && !(c 0 0 0 (2 ^ 32)).wellFormed) &&
    !(Instr.thermalSample 0 576 0).wellFormed &&
    !(Instr.loopLossDeclare false (List.replicate 1001 0)).wellFormed &&
    !(Instr.coolantAlarmUpdate 0 65536 0 false false).wellFormed &&
    !(Instr.coolantAlarmUpdate 0 0 65536 false false).wellFormed &&
    !(Instr.proposalReceive 0 65536 0 0 false false 0).wellFormed &&
    !(Instr.proposalReceive 0 0 (2 ^ 44) 0 false false 0).wellFormed &&
    !(Instr.proposalReceive 0 0 0 17 false false 0).wellFormed &&
    !(Instr.proposalReceive 0 0 0 0 false false 65537).wellFormed &&
    !(Instr.resultReceive 0 65536 { group := 0, epoch := 0, step := 0 }).wellFormed &&
    !(Instr.leaveSend 0 256).wellFormed &&
    [Instr.leaveReceive, Instr.rootMerge].all (fun c => !(c 0 65536).wellFormed) &&
    !(Instr.joinReceive 0 65536 false).wellFormed &&
    [Instr.lend, Instr.grant, Instr.commit, Instr.release].all (fun c => !(c 0 0 (2 ^ 32) 0).wellFormed && !(c 0 0 0 (2 ^
      44)).wellFormed) &&
    [Instr.benchmarkStart, Instr.sload, Instr.sstream, Instr.sselect, Instr.sblank, Instr.barrier, Instr.haltpt,
      Instr.end_, Instr.floatSegmentStart, Instr.holdExpired].all (fun c => !(c 0 1024 0).wellFormed && !(c 0 0 (2 ^
      20)).wellFormed) &&
    !(Instr.benchmarkEnd 0 1024 0 0 0).wellFormed &&
    !(Instr.benchmarkEnd 0 0 (2 ^ 20) 0 0).wellFormed &&
    !(Instr.surveyComplete 0 []).wellFormed &&
    !(Instr.composerCheck 0 (2 ^ 32) []).wellFormed &&
    !(Instr.composerCheck 0 0 [2 ^ 32]).wellFormed &&
    !(Instr.coeffSetWrite 0 0 4 []).wellFormed &&
    !(Instr.composerWrite 0 0 256 []).wellFormed &&
    [Instr.nop, Instr.mloadw, Instr.mswap, Instr.mma, Instr.mdrain, Instr.mzero, Instr.vload, Instr.vstore, Instr.vadd,
      Instr.vmul, Instr.vfma, Instr.vmax, Instr.vexp2, Instr.vrcp, Instr.vrsqrt, Instr.vred, Instr.vscale, Instr.vacc,
      Instr.mcopy, Instr.mfill, Instr.mgather, Instr.fsend, Instr.frecv].all (fun c => !(c 0 1024 0 0 0).wellFormed && !(c
      0 0 (2 ^ 20) 0 0).wellFormed && !(c 0 0 0 16 0).wellFormed && !(c 0 0 0 0 8).wellFormed) &&
    !(Instr.barrierArrivalSend 0 1024 0 0).wellFormed &&
    !(Instr.barrierArrivalSend 0 0 (2 ^ 20) 0).wellFormed &&
    !(Instr.barrierArrivalSend 0 0 0 256).wellFormed &&
    !(Instr.barrierArrival 0 65536 0 0 0 0).wellFormed &&
    !(Instr.barrierArrival 0 0 1024 0 0 0).wellFormed &&
    !(Instr.barrierArrival 0 0 0 (2 ^ 32) 0 0).wellFormed &&
    !(Instr.barrierArrival 0 0 0 0 (2 ^ 64) 0).wellFormed &&
    !(Instr.barrierArrival 0 0 0 0 0 65536).wellFormed &&
    !(Instr.barrierRelease 0 1024 0 0).wellFormed &&
    !(Instr.barrierRelease 0 0 (2 ^ 32) 0).wellFormed &&
    !(Instr.barrierRelease 0 0 0 (2 ^ 64)).wellFormed) = true := by
  decide +kernel

theorem test_ill_formed_3 :
    (!(Instr.heaterLoopUpdate 0 1280 0 false).wellFormed &&
    !(Instr.heaterLoopUpdate 0 0 16 false).wellFormed &&
    !(Instr.hello 0 0 65536 0 0 (List.replicate 16 0)).wellFormed &&
    !(Instr.hello 0 0 0 65536 0 (List.replicate 16 0)).wellFormed &&
    !(Instr.hello 0 0 0 0 16 (List.replicate 16 0)).wellFormed &&
    !(Instr.hello 0 0 0 0 0 []).wellFormed &&
    !(Instr.lanemap 0 0 4096 (List.replicate 36 0)).wellFormed &&
    !(Instr.lanemap 0 0 0 []).wellFormed &&
    !(Instr.trainingComplete 0 0 (2 ^ 40) 0).wellFormed &&
    !(Instr.trainingComplete 0 0 0 (2 ^ 40)).wellFormed &&
    !(Instr.calStart 0 0 40).wellFormed &&
    !(Instr.calEnd 0 0 40 false).wellFormed &&
    !(Instr.flitReceive 0 0 [] 0).wellFormed &&
    !(Instr.nakReceive 0 0 4096).wellFormed &&
    [Instr.openDone, Instr.credit].all (fun c => !(c 0 1024 0 0).wellFormed && !(c 0 0 (2 ^ 32) 0).wellFormed && !(c 0 0 0
      (2 ^ 32)).wellFormed) &&
    !(Instr.closeFlit 0 0 4096 0).wellFormed &&
    !(Instr.closeFlit 0 0 0 1024).wellFormed &&
    !(Instr.flowlost 0 1024 0 0).wellFormed &&
    !(Instr.flowlost 0 0 (2 ^ 32) 0).wellFormed &&
    !(Instr.flowlost 0 0 0 256).wellFormed &&
    !(Instr.tenantHalt 0 1024 false []).wellFormed &&
    !(Instr.lowrate 0 0 false 40).wellFormed &&
    !(Instr.tenantMapWrite 0 []).wellFormed &&
    [Instr.read, Instr.write, Instr.readBlock, Instr.writeBlock, Instr.command, Instr.subscribe, Instr.unknownService,
      Instr.unlockChallenge, Instr.unlockResponse, Instr.lock].all (fun c => !(c 0 (udp (List.replicate 1501
      0#8))).wellFormed) &&
    [{ udp [] with src := 2 ^ 128 }, { udp [] with sport := 2 ^ 16 }, { udp [] with port := 2 ^ 16 }, { udp [] with
      hop := 256 }].all (fun g => !(Instr.read 0 g).wellFormed) &&
    [Instr.getVersion, Instr.getCapabilities, Instr.negotiateAlgorithms, Instr.getDigests, Instr.getCertificate,
      Instr.challenge, Instr.getMeasurements, Instr.spdmUnsupportedRequest].all (fun c => !(c (.lap 0 (udp
      (List.replicate 1501 0#8)))).wellFormed) &&
    !(Instr.neighbourSolicitation false (2 ^ 128) 0).wellFormed &&
    !(Instr.neighbourSolicitation false 0 (2 ^ 128)).wellFormed &&
    !(Instr.icmpEcho false (2 ^ 128) 0 []).wellFormed &&
    !(Instr.icmpEcho false 0 (2 ^ 128) []).wellFormed &&
    !(Instr.doorbell 2 0 4 0 [] []).wellFormed &&
    !(Instr.doorbell 0 512 4 0 [] []).wellFormed &&
    !(Instr.doorbell 0 0 3 0 [] []).wellFormed &&
    !(Instr.doorbell 0 0 4 (2 ^ 64) [] []).wellFormed &&
    !(Instr.barRegisterWrite (.pf 0) (2 ^ 32) 4 0).wellFormed &&
    !(Instr.barRegisterWrite (.pf 0) 0 3 0).wellFormed &&
    !(Instr.barRegisterWrite (.pf 0) 0 4 (2 ^ 64)).wellFormed &&
    !(Instr.noticeRingWrite (.pf 0) (2 ^ 32) 0).wellFormed &&
    !(Instr.noticeRingWrite (.pf 0) 0 (2 ^ 64)).wellFormed &&
    [Instr.holdoffExpire, Instr.msixUnmask].all (fun c => !(c (.pf 0) 16).wellFormed) &&
    !(Instr.mboxClaim 0 (2 ^ 32) false).wellFormed &&
    !(Instr.mboxDoorbell 0 4097).wellFormed &&
    [Instr.vfFlr, Instr.vfFlrComplete].all (fun c => !(c 0 512).wellFormed) &&
    !(Instr.vfEnableClear 0 513).wellFormed &&
    [Instr.nopCommand, Instr.bind, Instr.unbind, Instr.reside, Instr.evict, Instr.copy, Instr.runPlan, Instr.haltPlan,
      Instr.signal, Instr.wait, Instr.query, Instr.scrub, Instr.fence, Instr.waitHorizonExpire].all (fun c => !(c 1024 0
      0).wellFormed && !(c 0 (2 ^ 20) 0).wellFormed && !(c 0 0 8).wellFormed)) = true := by
  decide +kernel

theorem test_ill_formed_4 :
    (!(Instr.loadPlan 1024 0 0 (.data [])).wellFormed &&
    !(Instr.loadPlan 0 (2 ^ 20) 0 (.data [])).wellFormed &&
    !(Instr.loadPlan 0 0 8 (.data [])).wellFormed &&
    !(Instr.granuleZeroed 0 16384).wellFormed &&
    !(Instr.governorFirmwareLoad 0 false []).wellFormed &&
    !(Instr.dieIdentityCheck 0 [] [] (List.replicate 96 0) false).wellFormed &&
    !(Instr.dieIdentityCheck 0 [] (List.replicate 16 0) [] false).wellFormed &&
    !(Instr.selfTest 0 (2 ^ 136) [] 0).wellFormed &&
    !(Instr.selfTest 0 0 [(136, 0)] 0).wellFormed &&
    !(Instr.selfTest 0 0 [] (2 ^ 64)).wellFormed &&
    !(Instr.moduleInserted false (List.replicate 33 0#8) 0).wellFormed &&
    !(Instr.moduleInserted false [] (2 ^ 32)).wellFormed &&
    [Instr.chargeComplete, Instr.chargeCurrentCollapse, Instr.moduleFault].all (fun c => !(c 65536).wellFormed) &&
    !(Instr.capacityTest 65536 0).wellFormed &&
    !(Instr.capacityTest 0 65536).wellFormed &&
    !(Instr.holdingPatternEnd 0 []).wellFormed &&
    !(Instr.ledDiagnosis (List.replicate 12 0)).wellFormed &&
    !(Instr.heaterDiagnosis 0 10816 0).wellFormed &&
    !(Instr.heaterDiagnosis 0 0 65536).wellFormed &&
    !(Instr.vfEnableSet 0 513 false).wellFormed &&
    !(Instr.doeDiscovery (.pf 0) 256 0).wellFormed &&
    !(Instr.doeDiscovery (.pf 0) 0 256).wellFormed) = true := by
  decide +kernel


/-- R18 and the worked example of Mechanics and Connectors: contacts 0b010111 latch slot 23. -/
theorem test_slot_23 : (match exec (.trayEnAssert 0b010111 42500) State.reset with
    | .next t => t.tray.pow.slotLatched == 23 && t.tray.pow.busFrom.isSome | _ => false) = true := by decide +kernel

/-- R29, the same worked example: 42.5 V and 42 °C give an effective tray cap of 8,160 W. -/
theorem test_cap_8160 : (match exec (.effectiveTrayCapUpdate 42500 672)
      (onTray fun y => { y with leg.settings := [(⟨0x1200, 1, 0xF⟩, 8800000)] }) with
    | .next t => t.capNow == 8160000 | _ => false) = true := by decide +kernel

/-- Table 11.7, the worked example of Execution and Plans: the sixteen bytes of an MMA. -/
theorem test_mma_record :
    (let r := recAt ([0x80, 0x4F, 0x12, 0, 0, 0, 3, 0, 0, 0x44, 0, 0, 0xFF, 0, 0, 0].map (BitVec.ofNat 8)) 0
     r.cyc == 1200000 && r.op == 3 && r.fmt == 0 && r.M == 256 && r.latency 2 1 == 272 && bits r.w 15 0 == 0x4400) = true := by
  decide +kernel

/-- R255, the same worked example: with the spare of row 5 at column 3, logical tile 90 is physical tile 96. -/
theorem test_physical_tile : ({ rowMap := (List.replicate 8 16).set 5 3 } : Tiles).phys 90 = 96 := by decide +kernel

/-- R239 and R240, the worked example of Surveys: output 5 of a pass from 64 samples to 256. -/
theorem test_composer_pixel :
    (scalePass (leBytes 256 (base.setting 0x2700 0xB 0)) 256 ([2600, 2760] ++ List.replicate 62 0))[5]? = some 2740 := by
  decide +kernel

/-- R237. -/
theorem test_pattern : testPattern 1 0 = 64511 ∧ testPattern 1 1 = 1040 := by decide +kernel

/-- R250: the CRC-32 of the ASCII digits 1 to 9, the published check value of this polynomial. -/
theorem test_crc32 : crc32 ([0x31, 0x32, 0x33, 0x34, 0x35, 0x36, 0x37, 0x38, 0x39].map (BitVec.ofNat 8)) = 0xCBF43926 := by
  decide +kernel

/-- Table 11.8: sums and products of FP32 lanes, worked by hand: 1 + 2 = 3, 3 · 0.5 = 1.5, 2 · 3 + 1 = 7. -/
theorem test_lanes : vAdd 0x3F800000 0x40000000 = 0x40400000 ∧ vMul 0x40400000 0x3F000000 = 0x3FC00000 ∧
    vFma 0x40000000 0x40400000 0x3F800000 = 0x40E00000 ∧ vMax 0xBF800000 0x3F800000 = 0x3F800000 := by
  decide +kernel

/-- R220, the worked example of Energy: frozen for 3.5 h, the uplift is 3.5 % and the confidence 562. -/
theorem test_uplift : (match exec (.upliftRecompute 0)
      (onDie fun x => { x with nrg.sinceBench := 12610 * 10 ^ 9 }) with
    | .next t => (t.die 0).nrg.confidence == 562 | _ => false) = true := by decide +kernel

/-- The table gives no row any bits: no word spells a command, and none is put into the queue. -/
theorem test_no_word : decodeTableWord 8 0 = none ∧ State.reset.withFetchWord 8 0 = State.reset := ⟨rfl, rfl⟩

theorem base_dies (d : DieId) : DieInv (base.die d) := by
  revert d
  have h : ∀ d : DieId, Memory.wf (base.die d).til.sram = true ∧ (base.die d).op.trim ≤ 160 ∧
      (base.die d).op.trimFall = none ∧ (base.die d).pow.phases.length ≤ 4096 ∧ (base.die d).pow.epochs.length ≤ 28610 ∧
      (base.die d).til.slots.length = 48 := by decide +kernel
  intro d
  obtain ⟨a, b, c, e, f, g⟩ := h d
  exact ⟨a, b, by rw [c]; nofun, e, f, g⟩

theorem base_masters (m : MasterId) : MasterInv (base.master m) := by
  have h : ∀ m : MasterId, (base.master m).queue.length ≤ 64 ∧ (base.master m).responses.length ≤ 64 := by decide +kernel
  exact ⟨(h m).1, (h m).2⟩

/-- A sound state with a command in its queue. -/
theorem witness_EveryStepKeepsTheStateSound :
    ∃ s t : State, s.pending ≠ [] ∧ Inv s ∧ Sys2Proof.Machine.step s = .next t :=
  ⟨{ base with pending := [.sharesLate] }, _, by simp, ⟨base_dies, base_masters⟩, rfl⟩

theorem witness_VectorLanes :
    ∃ (s : State) (d : DieId) (t h u v : Nat) (r : Run) (q : Rec), Issues s d t h 0x12 u v r q :=
  ⟨withRun (run ⟨0, 0x12, 5, 0⟩), 0, 0, 0, 0, 0, run ⟨0, 0x12, 5, 0⟩, ⟨0, 0x12, 5, 0⟩,
    by decide +kernel, by decide +kernel, by decide +kernel⟩

theorem witness_SpdmRequests :
    (∃ (s : State) (f : Fn) (msg : List Byte), DoeTakes f s ∧ msg.length ≤ 8184 ∧ (msg.getD 1 0#8).toNat = 0x84) ∧
    (∃ (s : State) (m : MasterId) (msg : List Byte), NewRequest m msg s ∧ msg.getD 3 0#8 = 0x0B#8 ∧
      (msg.getD 17 0#8).toNat = 0x84) :=
  ⟨⟨base, .pf 0, [0x10#8, 0x84#8, 0#8, 0#8], ⟨by decide +kernel, by decide +kernel, rfl⟩, by decide +kernel, by decide +kernel⟩,
    ⟨open_, 1, frame 0x0B ⟨0, 0, 0⟩ [0x10#8, 0x84#8, 0#8, 0#8],
      ⟨by decide, rfl, rfl, by decide +kernel, by decide +kernel, by decide +kernel, by decide +kernel⟩,
      by decide +kernel, by decide +kernel⟩⟩

/-- A state of die 0 whose VCORE target is the 0.95 V of R65 at every step: the trim is beyond any that R81 gives. -/
def topV (r : Run) (e : List PhaseEntry) : State :=
  onDie fun x => { x with op.trim := 3800, til.runs := [r], pow.phases := e }

theorem topV_lean (r : Run) (e : List PhaseEntry) (st : Nat) : ((topV r e).die 0).leanV 0 st = 3800 := by
  have h : ((topV r e).die 0).op.trim = 3800 := rfl
  simp only [Die.leanV, vcoreTarget, h, marginOf, ceilDiv]
  simp; omega

/-- A plan whose second segment works the first of its groups harder than its first one. -/
def lookRun : Run :=
  { run ⟨50, 0x52, 0, 0⟩ with
    plan := { plan ⟨50, 0x52, 0, 0⟩ with segs := [⟨0, 50, [0], 1, 16, false, false, false⟩, ⟨10, 10, [4], 2, 16, false, false, false⟩] } }


/-- The sensors that the four compensation circuits follow read 5 °C. -/
def topSensors : List (Nat × Sensor) := [0, 1, 2, 3].map fun k => (Config.compSensor 0 k, { last := some 80 })

theorem topSensors_get (k : Nat) (hk : k < 4) : KV.getD topSensors (Config.compSensor 0 k) {} = { last := some 80 } := by
  have h : ∀ (l : List Nat), k ∈ l →
      KV.getD (l.map fun k => (Config.compSensor 0 k, ({ last := some 80 } : Sensor))) (Config.compSensor 0 k) {} =
        { last := some 80 } := by
    intro l hl
    induction l with
    | nil => cases hl
    | cons a l ih =>
      by_cases e : Config.compSensor 0 a = Config.compSensor 0 k
      · simp [KV.getD, KV.get?, e]
      · have : k ∈ l := by
          rcases List.mem_cons.mp hl with rfl | h
          · exact absurd rfl e
          · exact h
        simpa [KV.getD, KV.get?, e] using ih this
  exact h _ (by simp; omega)

theorem witness_ClockSources_sensors :
    (∃ (s : State) (d : DieId) (u : Nat → Int), ∀ k, k < 4 → (s.die d).heat.reading (Config.compSensor d k) = some (u k)) ∧
    (∃ (s : State) (d : DieId), ∀ k, k < 4 → (s.die d).heat.reading (Config.compSensor d k) = none) :=
  ⟨⟨onDie fun x => { x with heat.sensors := topSensors }, 0, fun _ => 80, fun k hk => by
      have h : ((onDie fun x => { x with heat.sensors := topSensors }).die 0).heat.sensors = topSensors := rfl
      simp [Heat.reading, Heat.sensor, h, topSensors_get k hk]⟩,
    ⟨base, 0, fun k _ => by
      have h : (base.die 0).heat.sensors = [] := rfl
      simp [Heat.reading, Heat.sensor, h, KV.getD, KV.get?]⟩⟩

theorem witness_LevelingCycle_lookahead :
    ∃ (s : State) (d : DieId) (t h seg di : Nat) (r : Run) (g : Segment),
      ((s.die d).til.runs.find? fun r => r.tenant == t && r.handle == h) = some r ∧ r.plan.segs[seg]? = some g ∧
      (s.die d).dieMa d (some (r, seg)) = (s.die d).dieMa d none + di ∧ 0 < di ∧ r.clock ≤ g.start ∧
      g.start ≤ r.clock + s.dset d 0x2000 7 * 100 * stepN (s.die d).clk.curStep ∧
      (s.die d).pow.entry t r.plan.hash g.phase = none := by
  refine ⟨topV lookRun [], 0, 0, 0, 1, 14000, lookRun, ⟨10, 10, [4], 2, 16, false, false, false⟩, by decide +kernel, rfl, ?_, by decide, by decide +kernel, by decide +kernel, rfl⟩
  have h : ((topV lookRun []).die 0).til.runs = [lookRun] := rfl
  have hp : ((topV lookRun []).die 0).pow.phases = [] := rfl
  simp only [Die.dieMa, h, Die.segMa, Die.segF0, Die.contourF0, Power.entry, hp, Die.scaleTo, topV_lean]
  decide +kernel

theorem witness_LevelingCycle_segmentEnd :
    ∃ (s : State) (d : DieId) (t h seg mean p99 : Nat) (watts : List Nat) (tripped : Bool) (r : Run) (g : Segment) (e : PhaseEntry),
      ((s.die d).til.runs.find? fun r => r.tenant == t && r.handle == h) = some r ∧ r.plan.segs[seg]? = some g ∧
      (s.die d).pow.entry t r.plan.hash g.phase = some e ∧ watts ≠ [] ∧
      mean = (watts.map ((s.die d).toF0 d)).sum / watts.length ∧ p99 = percentile99 (watts.map ((s.die d).toF0 d)) ∧
      tripped = (s.die d).droop.attributed.contains (t, h, seg) :=
  ⟨topV lookRun [⟨0, 0, 1, 0, 0, 0, 0, 0, 0, false⟩], 0, 0, 0, 0, _, _, [1], _, lookRun, ⟨0, 50, [0], 1, 16, false, false, false⟩,
    ⟨0, 0, 1, 0, 0, 0, 0, 0, 0, false⟩, by decide +kernel, rfl, by decide +kernel, by simp, rfl, rfl, rfl⟩

/-- A die whose detector 0 sees 0 mV on the tap of logical tile 0. -/
def tripDie (a : List Armed) : State := onDie fun x => { x with op.trim := 160, droop.armed := a }

theorem trip_level (a : List Armed) : 0 < (tripDie a).tripLevel 0 := by
  have h : ((tripDie a).die 0).op.trim = 160 := rfl
  have h2 : ((tripDie a).die 0).rails.avsWrite = none := rfl
  have h3 : (tripDie a).dset 0 0x2200 1 = 40 := by
    show base.dset 0 0x2200 1 = 40
    decide +kernel
  have h4 : ((tripDie a).die 0).op.wide = false := rfl
  simp only [State.tripLevel, State.reference, h, h2, h3, h4, marginOf]
  simp

theorem trip_zero (a : List Armed) : ((tripDie a).die 0).til.tripped ((tripDie a).tripLevel 0) [(0, 0)] = [0] := by
  have h : (((tripDie a).die 0).til.logical 0).map detectorOf = some 0 := by
    have : ((tripDie a).die 0).til = (base.die 0).til := rfl
    rw [this]; decide +kernel
  simp [Tiles.tripped, trip_level, h, List.eraseDups_cons]

theorem witness_DroopDetectors_trips :
    (∃ (s : State) (d : DieId) (c : List (Nat × Nat)) (live : List Nat), (s.die d).detectorsOn = true ∧ (s.die d).computes = true ∧
      live = ((s.die d).til.tripped (s.tripLevel d) c).filter (fun i => !(s.die d).droop.masked.getLsbD i) ∧ live ≠ [] ∧
      (s.die d).droop.armed = []) ∧
    (∃ (s : State) (d : DieId) (c : List (Nat × Nat)) (w : Armed) (k : Nat × Nat × Nat) (i : Nat), (s.die d).detectorsOn = true ∧
      (s.die d).computes = true ∧ i ∈ (s.die d).til.tripped (s.tripLevel d) c ∧ (s.die d).droop.masked.getLsbD i = false ∧
      (s.die d).droop.armed = [w] ∧ w.openAt s.tray.now = true ∧ w.seg = some k ∧ (s.die d).droop.monitor = false ∧
      (s.die d).stretchEmergency = false) :=
  ⟨⟨tripDie [], 0, [(0, 0)], _, by decide +kernel, by decide +kernel, rfl, by
      rw [trip_zero]; decide +kernel, by decide +kernel⟩,
    ⟨tripDie [⟨some (0, 0, 0), none⟩], 0, [(0, 0)], ⟨some (0, 0, 0), none⟩, (0, 0, 0), 0, by decide +kernel, by decide +kernel, by
      rw [trip_zero]; simp, by decide +kernel, by decide +kernel, by decide +kernel, rfl, by decide +kernel, by decide +kernel⟩⟩

theorem witness_Handoff_records :
    (∃ (s : State) (d : DieId) (t0 : Ns) (r : FirnHeader), (s.die d).svc.handoffAt = some t0 ∧ (s.die d).svc.firnTaken = false ∧
      s.tray.now ≤ t0 + 150000 ∧ s.firnOk (some d) r = true) ∧
    (∃ (s : State) (r : FirnHeader), s.tray.fw.handoff = true ∧ s.tray.fw.resetDue = false ∧ (∀ n, (s.master n).queue = []) ∧
      s.firnOk none r = true) :=
  ⟨⟨onDie fun x => { x with svc.handoffAt := some 850000 }, 0, 850000,
      ⟨true, 0, (Config.firnVersion base.tray.fw.release).toNat / 256, 0⟩, by decide +kernel, by decide +kernel, by decide +kernel, by
      simp only [State.firnOk]; simp; rfl⟩,
    ⟨onTray fun y => { y with fw.handoff := true }, ⟨true, 0xF, (Config.firnVersion base.tray.fw.otherRelease).toNat / 256, 0⟩,
      by decide +kernel, by decide +kernel, by decide +kernel, by simp only [State.firnOk]; simp; rfl⟩⟩

/-! ### For every statement with hypotheses, states and operands that meet those of each clause -/

theorem witness_EmptyQueueIdles :
    (∃ (s : State), s.pending = []) :=
  ⟨base, by decide +kernel⟩

theorem witness_EveryCommandCompletes :
    (∃ (c : Instr) (s : State) (t : State), Sys2Proof.Machine.exec c s = .next t) ∧
    (∃ (c : Instr) (s : State) (t : State), Sys2Proof.Machine.exec c s = .next t) :=
  ⟨⟨.sharesLate, base, _, rfl⟩,
    ⟨.sharesLate, base, _, rfl⟩⟩

theorem witness_TrayEnableAndBus :
    (∃ (s : State) (pins : Nat) (mv : Nat), s.tray.pow.trayEn = false) ∧
    (∃ (s : State) (pins : Nat), pins ≠ s.tray.pow.slotPins) ∧
    (∃ (s : State), s.tray.pow.trayEn = true) ∧
    (∃ (s : State) (cause : BusLossCause), s.tray.pow.trayEn = true ∧ s.tray.pow.busLost = false ∧ (¬ (s.tray.fw.trayReady
      = true ∧ s.tray.hold.available = true))) ∧
    (∃ (s : State) (cause : BusLossCause), s.tray.pow.trayEn = true ∧ s.tray.pow.busLost = false ∧ s.tray.fw.trayReady =
      true ∧ s.tray.hold.available = true) ∧
    (∃ (s : State), s.tray.pow.trayEn = true ∧ s.tray.pow.busLost = true) ∧
    (∃ (s : State) (mv : Nat), s.tray.pow.trayEn = true ∧ s.tray.pow.busLost = true ∧ s.tray.hold.onHoldup = false ∧
      s.tray.fw.running = true ∧ 40000 ≤ mv ∧ mv ≤ 60000) ∧
    (∃ (s : State) (mv : Nat), ¬ (40000 ≤ mv ∧ mv ≤ 60000)) :=
  ⟨⟨(base).modTray fun y => { y with pow.trayEn := false }, 0, 0, by decide +kernel⟩,
    ⟨base, 5, by decide +kernel⟩,
    ⟨(base).modTray fun y => { y with pow.trayEn := true }, by decide +kernel⟩,
    ⟨(base).modTray fun y => { y with pow.trayEn := true, pow.busLost := false }, .excess, by decide +kernel⟩,
    ⟨(base).modTray fun y =>
      { y with pow.trayEn := true, pow.busLost := false, fw.trayReady := true, hold.available := true }, .excess,
      by decide +kernel⟩,
    ⟨(base).modTray fun y => { y with pow.trayEn := true, pow.busLost := true }, by decide +kernel⟩,
    ⟨(base).modTray fun y =>
      { y with pow.trayEn := true, pow.busLost := true, hold.onHoldup := false, fw.running := true }, 40000,
      by decide +kernel⟩,
    ⟨base, 0, by decide +kernel⟩⟩

theorem witness_ClockSources :
    (∃ (s : State) (d : DieId), (s.die d).clk.refReady (s.die d).clk.refInUse = true) ∧
    (∃ (s : State) (d : DieId) (r : RefIn), (s.die d).clk.relockTo = some r) ∧
    (∃ (s : State) (d : DieId) (since : Ns), (s.die d).clk.bothLostAt = some since ∧ (s.die d).clk.xaReady = false ∧ (s.die
      d).clk.xbReady = false ∧ (s.die d).clk.refsLostHalt = false ∧ (∀ p, p < 16 → (s.port d p).state = .off ∨ (s.port d
      p).state = .down)) ∧
    (∃ (s : State) (d : DieId) (ppm : Nat), (s.die d).clk.xaReady = true ∧ (s.die d).clk.xbReady = true) ∧
    (∃ (s : State) (d : DieId), ((s.die d).clk.loop (s.die d).clk.active).ready = true ∧ (s.die d).clk.onBridge = false ∧
      (s.die d).computes = true) ∧
    (∃ (s : State) (d : DieId), (s.die d).clk.bothFailed = false ∧ (s.die d).computes = true ∧ (s.die d).clk.onBridge =
      true ∧ (s.die d).rails.vReady = true ∧ s.permitted d (s.die d).mer.groupStep ≤ ((s.die d).clk.loop (s.die
      d).clk.spare).step) ∧
    (∃ (s : State) (d : DieId), (s.die d).clk.bothFailed = false ∧ ((s.die d).clk.loop (s.die d).clk.spare).step <
      s.permitted d (s.die d).mer.groupStep) :=
  ⟨⟨base, 0, by decide +kernel⟩,
    ⟨(base).modDie 0 fun x => { x with clk.relockTo := some .xb }, 0, .xb, by decide +kernel⟩,
    ⟨(base).modDie 0 fun x =>
      { x with clk.bothLostAt := some 0, clk.xaReady := false, clk.xbReady := false, clk.refsLostHalt := false }, 0, 0,
      by decide +kernel⟩,
    ⟨(base).modDie 0 fun x => { x with clk.xaReady := true, clk.xbReady := true }, 0, 0, by decide +kernel⟩,
    ⟨(base).modDie 0 fun x => { x with clk.onBridge := false, clk.loopA.ready := true }, 0, by decide +kernel⟩,
    ⟨(base).modDie 0 fun x =>
      { x with clk.onBridge := true, rails.vReady := true, rails.avsFault := true, clk.loopA.step := 15, clk.loopB.step := 15 }, 0, by decide +kernel⟩,
    ⟨(base).modDie 0 fun x => { x with rails.avsFault := true, clk.loopA.step := 0, clk.loopB.step := 0 }, 0,
      by decide +kernel⟩⟩

theorem witness_TimeExchange :
    (∃ (s : State) (d : DieId), s.timeRoot d = true) ∧
    (∃ (s : State) (d : DieId) (port : Nat) (src : Nat) (no : Nat) (t1 : Nat) (t2 : Nat), (s.port d port).state = .up ∧
      (s.port d port).replay.length < 256) ∧
    (∃ (s : State) (d : DieId) (no : Nat) (own : Nat) (t1 : Nat) (t2 : Nat) (t3 : Nat) (t4 : Nat), (s.die d).clk.exchOpen =
      some (no, own) ∧ (s.die d).clk.timeValid = true ∧ -40 ≤ (((t2 : Int) - t1) + ((t3 : Int) - t4)) / 2 ∧ (((t2 : Int) -
      t1) + ((t3 : Int) - t4)) / 2 ≤ 40) ∧
    (∃ (s : State) (d : DieId) (no : Nat) (own : Nat) (t1 : Nat) (t2 : Nat) (t3 : Nat) (t4 : Nat), (s.die d).clk.exchOpen =
      some (no, own) ∧ (s.die d).clk.timeValid = false ∧ -5 ≤ (((t2 : Int) - t1) + ((t3 : Int) - t4)) / 2 ∧ (((t2 : Int) -
      t1) + ((t3 : Int) - t4)) / 2 ≤ 5) :=
  ⟨⟨(base).modDie 0 fun x => { x with clk.timeValid := true, mer.members := [⟨base.identity 0, none, 0⟩] }, 0,
      by decide +kernel⟩,
    ⟨withPort port, 0, 0, 0, 0, 0, 0, by decide +kernel⟩,
    ⟨(base).modDie 0 fun x => { x with clk.exchOpen := some (0, 0), clk.timeValid := true }, 0, 0, 0, 0, 40, 40, 0,
      by decide +kernel⟩,
    ⟨(base).modDie 0 fun x => { x with clk.exchOpen := some (0, 0), clk.timeValid := false }, 0, 0, 0, 0, 5, 5, 0,
      by decide +kernel⟩⟩

theorem witness_EpochBoundary :
    (∃ (s : State), (∀ d, (s.die d).counts = false)) ∧
    (∃ (s : State) (b : Ns), s.nextBoundary = some b) ∧
    (∃ (s : State) (b : Ns) (hits : List DieId), s.nextBoundary = some b ∧ hits = (List.finRange 8).filter (fun d => (s.die
      d).counts && decide ((s.die d).clk.boundaryAt s.tray.now ≤ b))) ∧
    (∃ (s : State) (d : DieId) (n : Nat) (r : MResult), s.dueRaises d.val n = [] ∧ (s.die d).mer.result = some r ∧ r.epoch
      + 1 = n ∧ (s.die d).mer.member = true ∧ r.strays.contains (s.identity d) = false ∧ r.leaves.contains (s.identity d) =
      false) :=
  ⟨⟨State.reset, by decide +kernel⟩,
    ⟨base, (base.nextBoundary.getD 0), by decide +kernel⟩,
    ⟨base, (base.nextBoundary.getD 0), _, by decide +kernel, rfl⟩,
    ⟨(base).modDie 0 fun x => { x with mer.member := true, mer.result := some { group := 0, epoch := 6, step := 3 } }, 0,
      7, { group := 0, epoch := 6, step := 3 }, by decide +kernel⟩⟩

theorem witness_AvsBusAndConverters :
    (∃ (s : State) (d : DieId) (ma : Nat) (mv : Nat), (s.die d).rails.avsGov = true) ∧
    (∃ (s : State) (d : DieId) (v : Nat), (s.die d).rails.avsWrite = some (v, false)) ∧
    (∃ (s : State) (d : DieId) (v : Nat), (s.die d).rails.avsWrite = some (v, true) ∧ (s.die d).op.alert = true) ∧
    (∃ (s : State) (d : DieId) (v : Nat) (again : Bool), (s.die d).rails.avsWrite = some (v, again) ∧ v ≠ (s.die
      d).rails.avsGoal) ∧
    (∃ (s : State) (d : DieId) (again : Bool), (s.die d).rails.avsWrite = some ((s.die d).rails.avsGoal, again) ∧ (s.die
      d).clk.raiseWaits = false ∧ (s.die d).op.wideWaits = false) ∧
    (∃ (s : State) (n : Nat), s.tray.pow.converters.getLsbD n = true ∧ 3 ≤ popCount (s.tray.pow.converters &&&
      ~~~BitVec.twoPow 4 n)) ∧
    (∃ (s : State) (n : Nat), n < 4) ∧
    (∃ (s : State) (d : DieId) (n : Nat), (s.die d).rails.phases.getLsbD n = true ∧ 22 ≤ popCount ((s.die d).rails.phases
      &&& ~~~BitVec.twoPow 26 n)) ∧
    (∃ (work : BitVec 26) (active : BitVec 26) (n : Nat) (i : Nat), active.getLsbD n = true ∧ work.getLsbD n = false ∧ i <
      26 ∧ work.getLsbD i = true ∧ active.getLsbD i = false ∧ (∀ j, j < i → work.getLsbD j = true → active.getLsbD j =
      true)) ∧
    (∃ (s : State) (d : DieId) (g : Nat), (s.die d).rails.avsFault = true) ∧
    (∃ (s : State) (d : DieId) (n : Nat), (s.die d).rails.phases.getLsbD n = true ∧ (s.die d).op.alert = true ∧ popCount
      ((s.die d).rails.phases &&& ~~~BitVec.twoPow 26 n) < 22) :=
  ⟨⟨(base).modDie 0 fun x => { x with rails.avsGov := true }, 0, 0, 0, by decide +kernel⟩,
    ⟨(base).modDie 0 fun x => { x with rails.avsWrite := some (0, false) }, 0, 0, by decide +kernel⟩,
    ⟨(base).modDie 0 fun x => { x with rails.avsWrite := some (0, true), op.alert := true }, 0, 0, by decide +kernel⟩,
    ⟨(base).modDie 0 fun x => { x with rails.avsWrite := some (5, false) }, 0, 5, false, by decide +kernel⟩,
    ⟨(base).modDie 0 fun x => { x with clk.raiseWaits := false, op.wideWaits := false, rails.avsWrite := some (0, false) },
      0, false, by decide +kernel⟩,
    ⟨(base).modTray fun y => { y with pow.converters := 15#4 }, 0, by decide +kernel⟩,
    ⟨base, 3, by decide +kernel⟩,
    ⟨(base).modDie 0 fun x => { x with rails.phases := 0x7FFFFF#26 }, 0, 0, by decide +kernel⟩,
    ⟨6#26, 3#26, 0, 2, by decide +kernel⟩,
    ⟨(base).modDie 0 fun x => { x with rails.avsFault := true }, 0, 0, by decide +kernel⟩,
    ⟨(base).modDie 0 fun x => { x with op.alert := true, rails.phases := 0x3FFFFF#26 }, 0, 0, by decide +kernel⟩⟩

theorem witness_AlertsAndTrim :
    (∃ (s : State) (d : DieId) (cause : Nat), (s.die d).op.alert = true) ∧
    (∃ (s : State) (d : DieId) (cause : Nat), (s.die d).op.alert = false) ∧
    (∃ (s : State) (d : DieId), (s.die d).op.hold = true) ∧
    (∃ (s : State) (d : DieId), (s.die d).op.liveCauses % 64 = 0) ∧
    (∃ (s : State) (d : DieId), (s.die d).op.alert = true ∧ (s.die d).op.alertHalt = false ∧ (s.die d).op.liveCauses % 64 ≠
      0) ∧
    (∃ (s : State) (d : DieId), (s.die d).op.alert = true) ∧
    (∃ (s : State) (d : DieId), (s.die d).op.awaitRelease = true ∧ (s.die d).op.hold = false ∧ (s.die d).op.f15Pending =
      false) ∧
    (∃ (s : State) (d : DieId), (s.die d).op.f15Pending = true) ∧
    (∃ (s : State) (d : DieId) (at_ : Ns), (s.die d).op.deassertAt = some at_ ∧ (s.die d).op.awaitRelease = true ∧ (s.die
      d).op.acked = true ∧ (s.die d).op.alert = false ∧ (s.die d).op.hold = false) ∧
    (∃ (s : State) (d : DieId) (need : Nat) (ceil : Nat), (s.die d).op.ageRuntime < 604800000000000) ∧
    (∃ (s : State) (d : DieId) (need : Nat) (ceil : Nat), (s.die d).nrg.bench ≠ [] ∧ (s.die d).computes = true ∧
      604800000000000 ≤ (s.die d).op.ageRuntime ∧ (s.die d).op.trim ≤ 160 ∧ need < (s.die d).op.trim) ∧
    (∃ (o : OpPoint) (need : Nat) (ceil : Nat), o.trim ≤ 160) ∧
    (∃ (s : State) (d : DieId), (s.die d).rails.vcore = true) :=
  ⟨⟨(base).modDie 0 fun x => { x with op.alert := true }, 0, 0, by decide +kernel⟩,
    ⟨(base).modDie 0 fun x => { x with op.alert := false }, 0, 0, by decide +kernel⟩,
    ⟨(base).modDie 0 fun x => { x with op.hold := true }, 0, by decide +kernel⟩,
    ⟨base, 0, by decide +kernel⟩,
    ⟨(base).modDie 0 fun x => { x with op.alert := true, op.alertHalt := false, op.liveCauses := 1 }, 0, by decide +kernel⟩,
    ⟨(base).modDie 0 fun x => { x with op.alert := true }, 0, by decide +kernel⟩,
    ⟨(base).modDie 0 fun x => { x with op.awaitRelease := true, op.hold := false, op.f15Pending := false }, 0,
      by decide +kernel⟩,
    ⟨(base).modDie 0 fun x => { x with op.f15Pending := true }, 0, by decide +kernel⟩,
    ⟨(base).modDie 0 fun x =>
      { x with op.deassertAt := some 0, op.awaitRelease := true, op.acked := true, op.alert := false, op.hold := false },
      0, 0, by decide +kernel⟩,
    ⟨base, 0, 0, 0, by decide +kernel⟩,
    ⟨(base).modDie 0 fun x =>
      { x with nrg.bench := [⟨0, 0, [], 0, false⟩], op.trim := 160, op.ageRuntime := 604800000000000 }, 0, 0, 0,
      by decide +kernel⟩,
    ⟨{ trim := 160 }, 0, 0, by decide +kernel⟩,
    ⟨(base).modDie 0 fun x => { x with rails.vcore := true }, 0, by decide +kernel⟩⟩

theorem witness_LimitWrites :
    (∃ (s : State) (m : MasterId) (d : DieId) (v : Nat), GateTakes m ⟨0x2100, 0xD, d.val⟩ (leBytes 2 v) s) ∧
    (∃ (s : State) (m : MasterId) (d : DieId) (v : Nat), (s.die d).pow.sealed = false ∧ GateTakes m ⟨0x2000, 1, d.val⟩
      (leBytes 4 v) s) ∧
    (∃ (s : State) (m : MasterId) (v : Nat), (∀ d, (s.die d).pow.sealed = false) ∧ GateTakes m ⟨0x1200, 1, 0xF⟩ (leBytes 4
      v) s) ∧
    (∃ (s : State) (m : MasterId) (d : DieId) (sub : Nat) (v : Nat), (sub = 1 ∨ sub = 2 ∨ sub = 3) ∧ GateTakes m ⟨0x2200,
      sub, d.val⟩ (leBytes 1 v) s) ∧
    (∃ (s : State) (m : MasterId) (d : DieId) (sub : Nat) (v : Nat), (sub = 1 ∨ sub = 4 ∨ sub = 5) ∧ GateTakes m ⟨0x2300,
      sub, d.val⟩ (leBytes 2 v) s) :=
  ⟨⟨base, 1, 0, (base.setting 0x2100 0xD 0), ⟨rfl, rfl, rfl, by decide +kernel, by decide +kernel⟩⟩,
    ⟨(base).modDie 0 fun x => { x with pow.sealed := false }, 1, 0, (base.setting 0x2000 1 0), by decide +kernel, ⟨rfl,
      rfl, rfl, by decide +kernel, by decide +kernel⟩⟩,
    ⟨base, 1, (base.setting 0x1200 1 0xF), by decide +kernel, ⟨rfl, rfl, rfl, by decide +kernel, by decide +kernel⟩⟩,
    ⟨base, 1, 0, 1, (base.setting 0x2200 1 0), by decide +kernel, ⟨rfl, rfl, rfl, by decide +kernel, by decide +kernel⟩⟩,
    ⟨base, 1, 0, 1, (base.setting 0x2300 1 0), by decide +kernel, ⟨rfl, rfl, rfl, by decide +kernel, by decide +kernel⟩⟩⟩

theorem witness_BoundaryWrites :
    (∃ (s : State) (m : MasterId) (d : DieId) (v : Nat), GateTakes m ⟨0x2000, 2, d.val⟩ (leBytes 4 v) s) ∧
    (∃ (s : State) (m : MasterId) (d : DieId) (v : Nat), GateTakes m ⟨0x2600, 5, d.val⟩ (leBytes 1 v) s) ∧
    (∃ (s : State) (m : MasterId) (d : DieId) (v : Nat), GateTakes m ⟨0x2100, 1, d.val⟩ (leBytes 1 v) s ∧ v % 256 ^ 1 = 0 ∧
      (s.die d).op.wide = true ∧ (s.die d).op.wideWaits = false ∧ s.pendingRaise ⟨0x2100, 1, d.val⟩ ≠ some (1, 0)) ∧
    (∃ (s : State) (m : MasterId) (d : DieId) (v : Nat), GateTakes m ⟨0x2100, 1, d.val⟩ (leBytes 1 v) s ∧ v % 256 ^ 1 = 1 ∧
      (s.die d).op.wide = false ∧ (s.die d).rails.vcore = false ∧ (s.die d).pow.sealed = false ∧ (s.die d).svc.holding =
      none) ∧
    (∃ (s : State) (m : MasterId) (d : DieId) (v : Nat), GateTakes m ⟨0x2000, 5, d.val⟩ (leBytes 1 v) s ∧ (v % 256 ^ 1 ≠ 1
      ∨ (s.ceiling d ≤ (s.die d).pow.sealedStep ∧ s.sealedFits d = true))) ∧
    (∃ (s : State) (m : MasterId) (d : DieId) (v : List Byte), GateTakes m ⟨0x2000, 0x20, d.val⟩ v s ∧ (∀ e ∈ sealedEntries
      v, e.2.2 ≤ 16 ∧ (e.2.1 = 0 ∨ e.2.2 ≠ 0))) ∧
    (∃ (s : State) (m : MasterId) (v : Nat), GateTakes m ⟨0x1400, 1, 0xF⟩ (leBytes 2 v) s ∧ (s.tray.hold.onHoldup = false ∨
      s.atTick.accNow < s.tray.hold.holdAt + 1000000000 * (v % 256 ^ 2))) ∧
    (∃ (s : State) (m : MasterId) (v : Nat), GateTakes m ⟨0x1400, 1, 0xF⟩ (leBytes 2 v) s ∧ s.tray.hold.onHoldup = true ∧
      s.tray.hold.holdAt + 1000000000 * (v % 256 ^ 2) ≤ s.atTick.accNow ∧ (∃ d, (s.die d).til.ownedGranules ≠ [])) :=
  ⟨⟨base, 1, 0, (base.setting 0x2000 2 0), ⟨rfl, rfl, rfl, by decide +kernel, by decide +kernel⟩⟩,
    ⟨base, 1, 0, (base.setting 0x2600 5 0), ⟨rfl, rfl, rfl, by decide +kernel, by decide +kernel⟩⟩,
    ⟨(base).modDie 0 fun x => { x with op.wide := true, op.wideWaits := false }, 1, 0, 0, ⟨rfl, rfl, rfl,
      by decide +kernel, by decide +kernel⟩, by decide +kernel, by decide +kernel, by decide +kernel, by decide +kernel⟩,
    ⟨(base).modDie 0 fun x => { x with op.wide := false, rails.vcore := false, pow.sealed := false, svc.holding := none },
      1, 0, 1, ⟨rfl, rfl, rfl, by decide +kernel, by decide +kernel⟩, by decide +kernel, by decide +kernel,
      by decide +kernel, by decide +kernel, by decide +kernel⟩,
    ⟨base, 1, 0, 0, ⟨rfl, rfl, rfl, by decide +kernel, by decide +kernel⟩, by decide +kernel⟩,
    ⟨base, 1, 0, (List.replicate 4096 0#8), ⟨rfl, rfl, rfl, by decide +kernel, sealed_zeros_check _ rfl⟩, sealed_zeros_fit
      _⟩,
    ⟨base, 1, (base.setting 0x1400 1 0xF), ⟨rfl, rfl, rfl, by decide +kernel, by decide +kernel⟩, by decide +kernel⟩,
    ⟨((base).modDie 0 fun x => { x with til.granules := [(0, .owned 0 0)] }).modTray fun y =>
        { y with now := 6000000000, hold.onHoldup := true },
      1, 5, ⟨rfl, rfl, rfl, by decide +kernel, by decide +kernel⟩, by decide +kernel, by decide +kernel, by decide +kernel⟩⟩

theorem witness_LevelingCycle :
    (∃ (s : State) (d : DieId) (t : Nat) (h : Nat) (seg : Nat) (r : Run) (g : Segment), ((s.die d).til.runs.find? fun r =>
      r.tenant == t && r.handle == h) = some r ∧ r.plan.segs[seg]? = some g ∧ r.clock + s.dset d 0x2000 7 * 100 * stepN
      (s.die d).clk.curStep < g.start) ∧
    (∃ (s : State) (loads : Nat) (bus : Nat), (s.tray.fw.handoff = true ∨ s.tray.fw.restarting = true)) ∧
    (∃ (s : State) (loads : Nat) (bus : Nat), s.tray.fw.handoff = false ∧ s.tray.fw.restarting = false ∧ 650000 <
      (s.advanceIn s.timeDie 600000).inEpoch s.timeDie) ∧
    (∃ (s : State) (loads : Nat) (bus : Nat), s.tray.fw.handoff = false ∧ s.tray.fw.restarting = false ∧ (s.advanceIn
      s.timeDie 600000).inEpoch s.timeDie ≤ 650000) ∧
    (∃ (s : State), (∀ d, (s.die d).pow.shareNext.isSome = true)) ∧
    (∃ (s : State) (e : DieId), (s.die e).pow.shareNext = none) ∧
    (∃ (s : State) (d : DieId), (s.die d).mer.member = true ∧ (s.die d).svc.holding = none ∧ (s.die d).svc.noProposal =
      false ∧ (s.die d).mer.leaving = false ∧ (s.die d).frost.state = .running ∧ (s.die d).pow.sealed = true ∧ (s.die
      d).mer.proposal = none) ∧
    (∃ (s : State) (d : DieId) (f : Nat), (s.die d).mer.member = true ∧ (s.die d).svc.holding = none ∧ (s.die
      d).svc.noProposal = false ∧ (s.die d).mer.leaving = false ∧ (s.die d).frost.state = .running ∧ (s.die d).pow.sealed =
      false ∧ (s.die d).mer.proposal = none ∧ (s.die d).dieFloat = some f ∧ (f * 700000 < (s.die d).floatUsed * 1048576 ∨
      (s.die d).droop.lowerNext = true)) ∧
    (∃ (s : State) (d : DieId), (s.die d).pow.sealed = false) :=
  ⟨⟨withRun ({ run ⟨50, 0x52, 0, 0⟩ with plan := { plan ⟨50, 0x52, 0, 0⟩ with segs := [⟨1000000, 10, [], 1, 16, false, false, false⟩] } }), 0, 0, 0, 0, { run ⟨50, 0x52, 0, 0⟩ with plan := { plan ⟨50, 0x52, 0, 0⟩ with segs := [⟨1000000, 10, [], 1, 16, false, false, false⟩] } }, ⟨1000000, 10, [], 1, 16, false, false, false⟩, by decide +kernel⟩,
    ⟨(base).modTray fun y => { y with fw.handoff := true }, 0, 0, by decide +kernel⟩,
    ⟨(base).modTray fun y => { y with fw.handoff := false, fw.restarting := false, now := 700000 }, 0, 0,
      by decide +kernel⟩,
    ⟨(base).modTray fun y => { y with fw.handoff := false, fw.restarting := false, now := 0 }, 0, 0, by decide +kernel⟩,
    ⟨(base.allDies fun x => { x with pow.shareNext := some 0 }), by decide +kernel⟩,
    ⟨base, 0, by decide +kernel⟩,
    ⟨(base).modDie 0 fun x =>
      { x with mer.member := true, svc.holding := none, svc.noProposal := false, mer.leaving := false, frost.state := .running, pow.sealed := true, mer.proposal := none }, 0, by decide +kernel⟩,
    ⟨(base).modDie 0 fun x =>
      { x with mer.member := true, svc.holding := none, svc.noProposal := false, mer.leaving := false, frost.state := .running, pow.sealed := false, mer.proposal := none, til.runs := [run ⟨0, 0x52, 0, 0⟩], droop.lowerNext := true }, 0, 0, by decide +kernel⟩,
    ⟨(base).modDie 0 fun x => { x with pow.sealed := false }, 0, by decide +kernel⟩⟩

theorem witness_DroopDetectors :
    (∃ (s : State) (d : DieId) (c : List (Nat × Nat)), (s.die d).detectorsOn = true ∧ (s.die d).computes = true ∧ (∀ i ∈
      (s.die d).til.tripped (s.tripLevel d) c, (s.die d).droop.masked.getLsbD i = true)) ∧
    (∃ (s : State) (d : DieId) (taps : List (List (Nat × Nat))), ((s.die d).detectorsOn = false ∨ (s.die d).computes =
      false)) ∧
    (∃ (s : State) (d : DieId) (w : Armed) (c : Ns), (s.die d).droop.armed = [w] ∧ w.close = some c) ∧
    (∃ (s : State) (d : DieId) (det : Fin 64), (s.die d).detectorsOn = true ∧ (((s.die d).rails.vcoreMeas : Int) - (s.die
      d).rails.target).natAbs ≤ 40 ∧ (s.die d).droop.lineFailed.getLsbD det.val = false) ∧
    (∃ (s : State) (d : DieId) (det : Fin 64), 40 < (((s.die d).rails.vcoreMeas : Int) - (s.die d).rails.target).natAbs) ∧
    (∃ (s : State) (d : DieId) (det : Fin 64), (s.die d).detectorsOn = true ∧ (((s.die d).rails.vcoreMeas : Int) - (s.die
      d).rails.target).natAbs ≤ 40 ∧ (s.die d).droop.lineFailed.getLsbD det.val = true ∧ (s.die d).droop.masked.getLsbD
      det.val = false) ∧
    (∃ (s : State) (d : DieId), (s.die d).detectorsOn = true ∧ (s.die d).svc.warm = false) ∧
    (∃ (s : State) (d : DieId) (failed : Nat), (s.die d).detectorsOn = true ∧ (s.die d).svc.warm = true) :=
  ⟨⟨base, 0, [], by decide +kernel⟩,
    ⟨(base).modDie 0 fun x => { x with rails.vcore := false }, 0, {}, by decide +kernel⟩,
    ⟨(base).modDie 0 fun x => { x with droop.armed := [⟨none, some 5⟩] }, 0, ⟨none, some 5⟩, 5, by decide +kernel⟩,
    ⟨base, 0, 0, by decide +kernel⟩,
    ⟨(base).modDie 0 fun x => { x with rails.vcoreMeas := 41 }, 0, 0, by decide +kernel⟩,
    ⟨(base).modDie 0 fun x => { x with droop.lineFailed := 1#64 }, 0, 0, by decide +kernel⟩,
    ⟨(base).modDie 0 fun x => { x with svc.warm := false }, 0, by decide +kernel⟩,
    ⟨(base).modDie 0 fun x => { x with svc.warm := true }, 0, 0, by decide +kernel⟩⟩

theorem witness_SensorsAndTrips :
    (∃ (s : State) (d : DieId) (n : Nat) (t : Int), n < 576 ∧ (s.die d).rails.vio = true) ∧
    (∃ (s : State) (d : DieId) (n : Nat) (t : Int) (T : Int), n < 576 ∧ (s.die d).rails.vio = true ∧ (s.die d).rails.vcore
      = true ∧ (((s.die d).heat.take n t s.tray.now (s.dset d 0x2300 5)).1.maximum = some T) ∧ 1920 ≤ T) ∧
    (∃ (s : State) (d : DieId), (s.die d).heat.h < (s.die d).heat.hGoal ∧ (s.die d).heat.h < 15) ∧
    (∃ (s : State) (d : DieId) (c : Ns), (s.die d).heat.latched = false ∧ (s.die d).heat.flowLoss = .none ∧ (s.die
      d).heat.tripped = true ∧ (s.die d).heat.coolSince = some c) ∧
    (∃ (s : State) (d : DieId), ((s.die d).heat.latched = true ∨ (s.die d).heat.flowLoss ≠ .none)) ∧
    (∃ (s : State) (m : MasterId) (d : DieId) (v : Nat), GateTakes m ⟨0x2300, 0xD, d.val⟩ (leBytes 1 v) s ∧ (s.die
      d).heat.latched = true) :=
  ⟨⟨(base).modDie 0 fun x => { x with rails.vio := true }, 0, 575, 0, by decide +kernel⟩,
    ⟨(base).modDie 0 fun x => { x with rails.vio := true, rails.vcore := true }, 0, 0, 1920, (((base.die 0).heat.take 0
      1920 base.tray.now (base.dset 0 0x2300 5)).1.maximum.getD 0), by decide +kernel⟩,
    ⟨(base).modDie 0 fun x => { x with heat.h := 14, heat.hGoal := 15 }, 0, by decide +kernel⟩,
    ⟨(base).modDie 0 fun x =>
      { x with heat.latched := false, heat.flowLoss := .none, heat.tripped := true, heat.coolSince := some 0 }, 0, 0,
      by decide +kernel⟩,
    ⟨(base).modDie 0 fun x => { x with heat.latched := true }, 0, by decide +kernel⟩,
    ⟨(base).modDie 0 fun x => { x with heat.latched := true }, 1, 0, 1, ⟨rfl, rfl, rfl, by decide +kernel,
      by decide +kernel⟩, by decide +kernel⟩⟩

theorem witness_SurgeAndCoolant :
    (∃ (s : State) (d : DieId), (s.die d).heat.surgeAt.isSome = true) ∧
    (∃ (s : State) (d : DieId) (a : Ns), (s.die d).heat.surgeAt = some a ∧ (s.die d).heat.flowLoss = .none ∧ (s.die
      d).rails.vsram = true ∧ (s.die d).svc.state = .running) ∧
    (∃ (s : State) (d : DieId), (if loopB d then s.tray.cool.lostB else s.tray.cool.lostA) = true ∧ (s.die d).heat.flowLoss
      = .none ∧ (s.die d).rails.vsram = true ∧ (s.die d).svc.state = .running) ∧
    (∃ (s : State) (d : DieId), (s.die d).heat.flowLoss ≠ .none ∧ (s.die d).heat.flowOff = false ∧ (s.die d).heat.latched =
      false ∧ (s.die d).heat.tripped = false) ∧
    (∃ (s : State) (d : DieId) (b : Ns), (s.die d).heat.flowLoss = .local ∧ (s.die d).heat.flowOff = false ∧ (s.die
      d).svc.state = .flowHalt ∧ (s.die d).heat.wasFrozen = false ∧ (if loopB d then s.tray.cool.goodB else
      s.tray.cool.goodA).isSome = true ∧ (s.die d).heat.bandSince = some b ∧ (s.die d).nearBand (s.dset d 0x2300 1) (s.dset
      d 0x2300 4) = false ∧ (s.die d).op.alertHalt = false ∧ (s.die d).clk.refsLostHalt = false) ∧
    (∃ (s : State) (flows : List Nat), s.tray.cool.lostA = false ∧ s.tray.cool.sensorFailA = false ∧ (∀ f ∈ flows, f * 5 <
      s.setting 0x1300 1 0xF) ∧ 0 < flows.length) ∧
    (∃ (s : State) (flows : List Nat), s.tray.cool.lostB = false ∧ s.tray.cool.sensorFailB = false ∧ (∀ f ∈ flows, f * 5 <
      s.setting 0x1300 1 0xF) ∧ 0 < flows.length) ∧
    (∃ (s : State) (b : Bool) (f : Nat), s.setting 0x1300 1 0xF ≤ f * 5) ∧
    (∃ (s : State), (s.tray.cool.lostA = true ∨ s.tray.cool.lostB = true)) ∧
    (∃ (s : State) (a : Int) (b : Int), s.tray.cool.lostA = false ∧ s.tray.cool.lostB = false ∧ s.loopMean false = some a ∧
      s.loopMean true = some b ∧ 128 < a - b) :=
  ⟨⟨(base).modDie 0 fun x => { x with heat.surgeAt := some 0 }, 0, by decide +kernel⟩,
    ⟨(base).modDie 0 fun x =>
      { x with heat.surgeAt := some 0, heat.flowLoss := .none, rails.vsram := true, svc.state := .running }, 0, 0,
      by decide +kernel⟩,
    ⟨((base).modDie 0 fun x => { x with heat.flowLoss := .none, rails.vsram := true, svc.state := .running }).modTray fun y
      => { y with cool.lostA := true }, 0, by decide +kernel⟩,
    ⟨(base).modDie 0 fun x =>
      { x with heat.flowOff := false, heat.latched := false, heat.tripped := false, heat.flowLoss := .local }, 0,
      by decide +kernel⟩,
    ⟨(base).modDie 0 fun x =>
      { x with heat.flowLoss := .local, heat.flowOff := false, svc.state := .flowHalt, heat.wasFrozen := false, heat.bandSince := some 0, op.alertHalt := false, clk.refsLostHalt := false }, 0, 0, by decide +kernel⟩,
    ⟨(base).modTray fun y => { y with cool.lostA := false, cool.sensorFailA := false }, List.replicate 200 0,
      by decide +kernel⟩,
    ⟨(base).modTray fun y => { y with cool.lostB := false, cool.sensorFailB := false }, List.replicate 200 0,
      by decide +kernel⟩,
    ⟨base, false, 1000, by decide +kernel⟩,
    ⟨(base).modTray fun y => { y with cool.lostA := true }, by decide +kernel⟩,
    ⟨((base.allDies fun x => { x with heat.dieMax := some 0 }).modDie 0 fun x => { x with heat.dieMax := some 129 }), 129,
      0, by decide +kernel⟩⟩

theorem witness_ProposalsAndResults :
    (∃ (s : State) (d : DieId) (src : Nat) (epoch : Nat) (code : Nat) (heard : Nat) (urgent : Bool) (revised : Bool),
      (s.die d).mer.member = false) ∧
    (∃ (s : State) (d : DieId) (src : Nat) (code : Nat) (heard : Nat) (urgent : Bool) (revised : Bool), (s.die
      d).mer.member = true ∧ src ∈ (s.die d).mer.members.map Member.id ∧ (s.die d).mer.root = true ∧ (s.die d).mer.closed =
      false ∧ s.inEpoch d ≤ 768000) ∧
    (∃ (s : State) (d : DieId) (u : Sent), (s.die d).mer.unacked = [u] ∧ aggregator (s.die d).mer.tree (s.identity d) (min
      4 (u.level + 1)) ≠ s.identity d) ∧
    (∃ (s : State) (d : DieId), (s.die d).mer.root = true ∧ (s.die d).mer.closed = false) ∧
    (∃ (s : State) (d : DieId), (s.die d).mer.member = true ∧ (s.die d).mer.root = false ∧ (s.die d).mer.result = none ∧
      standbyId (s.die d).mer.tree = some (s.identity d)) ∧
    (∃ (m : Meridian) (e : Member), e ∈ m.members ∧ some e.id ≠ m.failedRoot ∧ e.id ∉ m.leaves) ∧
    (∃ (s : State) (d : DieId) (src : Nat) (r : MResult), (r.group ≠ s.groupNo d ∨ (r.epoch ≠ s.epoch d ∧ (s.die
      d).mer.member = true))) ∧
    (∃ (s : State) (d : DieId) (src : Nat) (r : MResult), r.group = s.groupNo d ∧ r.epoch ≠ s.epoch d ∧ (s.die
      d).mer.member = false) ∧
    (∃ (s : State) (d : DieId) (src : Nat) (r : MResult), r.group = s.groupNo d ∧ r.epoch = s.epoch d ∧ (s.die
      d).mer.member = true ∧ childrenOf (s.die d).mer (s.identity d) = [] ∧ (s.die d).mer.result = none) :=
  ⟨⟨(base).modDie 0 fun x => { x with mer.member := false }, 0, 0, 0, 0, 0, false, false, by decide +kernel⟩,
    ⟨((base).modDie 0 fun x => { x with mer.member := true, mer.root := true, mer.closed := false }).modTray fun y =>
      { y with now := 0 }, 0, 0, 0, 0, false, false, by decide +kernel⟩,
    ⟨(base).modDie 0 fun x => { x with mer.unacked := [⟨1, 0, 0, 0, 0, []⟩], mer.keptId := some 1 }, 0, ⟨1, 0, 0, 0, 0,
      []⟩, by decide +kernel⟩,
    ⟨(base).modDie 0 fun x => { x with mer.root := true, mer.closed := false }, 0, by decide +kernel⟩,
    ⟨(base).modDie 0 fun x =>
      { x with mer.member := true, mer.root := false, mer.result := none, mer.members := [⟨0, none, 0⟩, ⟨base.identity 0, none, 0⟩] }, 0, by decide +kernel⟩,
    ⟨{ members := [⟨0, none, 0⟩] }, ⟨0, none, 0⟩, by decide +kernel⟩,
    ⟨base, 0, 0, { group := 9, epoch := 0, step := 3 }, by decide +kernel⟩,
    ⟨(base).modDie 0 fun x => { x with mer.member := false }, 0, 0, { group := base.groupNo 0, epoch := 9999, step := 3 },
      by decide +kernel⟩,
    ⟨(base).modDie 0 fun x => { x with mer.member := true, mer.result := none }, 0, 0,
      { group := base.groupNo 0, epoch := base.epoch 0, step := 3 }, by decide +kernel⟩⟩

theorem witness_LeaveAndJoin :
    (∃ (s : State) (d : DieId) (cause : Nat), cause ≠ 6 ∧ (s.die d).mer.member = true ∧ (s.die d).mer.leaving = false) ∧
    (∃ (s : State) (d : DieId) (id : Nat), (s.die d).mer.member = true ∧ (s.die d).mer.root = true) ∧
    (∃ (s : State) (m : MasterId) (d : DieId) (v : Nat), GateTakes m ⟨0x2500, 0xE, d.val⟩ (leBytes 1 v) s ∧ (s.die
      d).mer.member = true ∧ (s.die d).mer.leaving = false) ∧
    (∃ (s : State) (m : MasterId) (d : DieId) (sub : Nat) (v : Nat), (sub = 1 ∨ sub = 2) ∧ GateTakes m ⟨0x2500, sub, d.val⟩
      (leBytes 2 v) s ∧ (s.die d).mer.member = true ∧ (s.die d).mer.leaving = false) ∧
    (∃ (s : State) (d : DieId) (p : Nat), s.joinPort d = some p ∧ (s.die d).mayJoin = true ∧ (s.die d).mer.joinEpoch ≠ some
      (s.epoch d)) ∧
    (∃ (s : State) (d : DieId), (s.die d).mer.joinEpoch = some (s.epoch d)) ∧
    (∃ (s : State) (d : DieId) (id : Nat) (valid : Bool), (s.die d).mer.member = true ∧ (s.die d).mer.root = true ∧ (s.die
      d).mer.closed = false ∧ s.inEpoch d ≤ 768000 ∧ id ∉ (s.die d).mer.members.map Member.id ∧ id ∉ (s.die d).mer.joins) ∧
    (∃ (s : State) (d : DieId), (s.die d).mayJoin = true ∧ 4 ≤ (s.die d).mer.soloEpochs) ∧
    (∃ (s : State) (d : DieId) (root : Nat), (s.die d).mer.root = true ∧ root < s.identity d ∧ (s.die d).mer.merging =
      false) ∧
    (∃ (s : State) (d : DieId) (root : Nat), (s.die d).mer.root = true ∧ s.identity d ≤ root) :=
  ⟨⟨(base).modDie 0 fun x => { x with mer.member := true, mer.leaving := false }, 0, 1, by decide +kernel⟩,
    ⟨(base).modDie 0 fun x => { x with mer.member := true, mer.root := true }, 0, 0, by decide +kernel⟩,
    ⟨(base).modDie 0 fun x => { x with mer.member := true, mer.leaving := false }, 1, 0, 1, ⟨rfl, rfl, rfl,
      by decide +kernel, by decide +kernel⟩, by decide +kernel, by decide +kernel⟩,
    ⟨(base).modDie 0 fun x => { x with mer.member := true, mer.leaving := false }, 1, 0, 1, (base.setting 0x2500 1 0),
      by decide +kernel, ⟨rfl, rfl, rfl, by decide +kernel, by decide +kernel⟩, by decide +kernel, by decide +kernel⟩,
    ⟨(withPort { port with neighbour := some (base.groupNo 0, 1, 0, []) }).modDie 0 fun x =>
      { x with mer.member := false }, 0, 0, by decide +kernel⟩,
    ⟨(base).modDie 0 fun x => { x with mer.joinEpoch := some (base.epoch 0) }, 0, by decide +kernel⟩,
    ⟨((base).modDie 0 fun x => { x with mer.member := true, mer.root := true, mer.closed := false }).modTray fun y =>
      { y with now := 0 }, 0, 9, false, by decide +kernel⟩,
    ⟨(base).modDie 0 fun x => { x with mer.member := false, mer.soloEpochs := 4 }, 0, by decide +kernel⟩,
    ⟨(base).modDie 1 fun x => { x with mer.root := true, mer.merging := false, mer.keptId := some 1 }, 1, 0,
      by decide +kernel⟩,
    ⟨(base).modDie 0 fun x => { x with mer.root := true }, 0, 5000, by decide +kernel⟩⟩

theorem witness_Lending :
    (∃ (s : State) (d : DieId) (src : DieId) (amount : Nat) (epoch : Nat), (s.lends d = false ∨ epoch ≠ s.epoch d) ∧ (s.die
      d).mer.lendWait = []) ∧
    (∃ (s : State) (d : DieId) (src : DieId) (amount : Nat), s.lends d = true ∧ (s.die d).mer.lendOpen = none ∧ (s.die
      d).mer.lendWait = [] ∧ 0 < min amount (s.die d).spareMw) ∧
    (∃ (s : State) (d : DieId) (src : DieId) (amount : Nat) (want : Nat) (at_ : Ns), (s.die d).mer.lendOpen = some
      (src.val, want, at_) ∧ s.tray.now ≤ at_ + 10000) ∧
    (∃ (s : State) (d : DieId) (src : DieId) (amount : Nat), ⟨src.val, amount, false⟩ ∈ (s.die d).mer.lent) :=
  ⟨⟨(base).modDie 0 fun x => { x with mer.lendWait := [] }, 0, 0, 0, 7, by decide +kernel⟩,
    ⟨((base).modDie 0 fun x =>
      { x with mer.lendWait := [], mer.lendOpen := none, pow.share := 100000000, pow.budget := 10000000 }).modTray fun y =>
      { y with leg.settings := [(⟨0x2500, 0x10, 0⟩, 1)] }, 0, 0, 10, by decide +kernel⟩,
    ⟨(base).modDie 0 fun x => { x with mer.lendOpen := some (0, 0, 990000) }, 0, 0, 0, 0, 990000, by decide +kernel⟩,
    ⟨(base).modDie 0 fun x => { x with mer.lent := [⟨0, 0, false⟩] }, 0, 0, 0, by decide +kernel⟩⟩

theorem witness_EnergyEstimator :
    (∃ (s : State) (d : DieId) (r : EnergySample), (s.die d).rails.vcore = true) ∧
    (∃ (s : State) (d : DieId) (r : EnergySample), (s.die d).rails.vcore = false) ∧
    (∃ (s : State) (d : DieId) (t : Nat) (h : Nat) (r : Run) (g : Segment), ((s.die d).til.runs.find? fun r => r.tenant ==
      t && r.handle == h) = some r ∧ r.plan.segs[r.seg]? = some g ∧ g.bench = true) ∧
    (∃ (s : State) (d : DieId) (t : Nat) (h : Nat) (c7 : Nat) (cl : Nat) (b : Bench), (s.die d).nrg.bench = [b] ∧ b.t = t ∧
      b.h = h ∧ b.spoilt = true) ∧
    (∃ (s : State) (d : DieId) (t : Nat) (h : Nat) (c7 : Nat) (cl : Nat) (b : Bench), (s.die d).nrg.bench = [b] ∧ b.t = t ∧
      b.h = h ∧ b.spoilt = false ∧ ceilDiv b.from_ 10000 < s.tray.now / 10000 ∧ (s.die d).nrg.benchUsed = false ∧ (s.die
      d).emergencyCause = false ∧ 16 ≤ (s.die d).heat.h ∧ (s.die d).svc.holding = none) ∧
    (∃ (s : State) (d : DieId), (s.die d).nrg.sinceBench ≤ 10000000000) ∧
    (∃ (s : State) (d : DieId), 10000000000 < (s.die d).nrg.sinceBench) :=
  ⟨⟨(base).modDie 0 fun x => { x with rails.vcore := true }, 0, ⟨0, 0, 0, 0, 0, 0⟩, by decide +kernel⟩,
    ⟨(base).modDie 0 fun x => { x with rails.vcore := false }, 0, ⟨0, 0, 0, 0, 0, 0⟩, by decide +kernel⟩,
    ⟨withRun ({ run ⟨50, 0x52, 0, 0⟩ with plan := { plan ⟨50, 0x52, 0, 0⟩ with segs := [⟨10, 10, [], 1, 16, true, false, false⟩] } }), 0, 0, 0, { run ⟨50, 0x52, 0, 0⟩ with plan := { plan ⟨50, 0x52, 0, 0⟩ with segs := [⟨10, 10, [], 1, 16, true, false, false⟩] } }, ⟨10, 10, [], 1, 16, true, false, false⟩, by decide +kernel⟩,
    ⟨(base).modDie 0 fun x => { x with nrg.bench := [⟨0, 0, [], 0, true⟩] }, 0, 0, 0, 0, 0, ⟨0, 0, [], 0, true⟩,
      by decide +kernel⟩,
    ⟨(base).modDie 0 fun x =>
      { x with nrg.bench := [⟨0, 0, [], 0, false⟩], nrg.benchUsed := false, svc.holding := none, heat.h := 16 }, 0, 0, 0,
      0, 0, ⟨0, 0, [], 0, false⟩, by decide +kernel⟩,
    ⟨base, 0, by decide +kernel⟩,
    ⟨(base).modDie 0 fun x => { x with nrg.sinceBench := 10000000001 }, 0, by decide +kernel⟩⟩

theorem witness_SurveysAndMaps :
    (∃ (s : State) (m : MasterId) (d : DieId) (v : Nat), GateTakes m ⟨0x2700, 1, d.val⟩ (leBytes 1 v) s ∧ (s.die
      d).srv.running = none) ∧
    (∃ (s : State) (m : MasterId) (d : DieId) (v : Nat), GateTakes m ⟨0x2700, 1, d.val⟩ (leBytes 1 v) s ∧ (s.die
      d).srv.running.isSome = true) ∧
    (∃ (s : State) (d : DieId), s.dset d 0x2700 4 ≠ 0 ∧ (s.die d).surveys = true ∧ (s.die d).srv.running = none) ∧
    (∃ (s : State) (d : DieId) (grid : List Int) (t0 : Nat), (s.die d).surveys = true ∧ (s.die d).srv.running = some t0 ∧
      grid.length = 4096) ∧
    (∃ (s : State) (m : MasterId) (d : DieId) (v : Nat), GateTakes m ⟨0x2600, 0x10, d.val⟩ (leBytes 4 v) s) ∧
    (∃ (s : State) (d : DieId), (s.die d).composes = true ∧ s.dset d 0x2700 6 = 0) ∧
    (∃ (s : State) (d : DieId), (s.die d).composes = true ∧ s.dset d 0x2700 6 ≠ 0) ∧
    (∃ (s : State) (d : DieId) (bytes : List Byte), (s.die d).cmp.frame = some bytes) ∧
    (∃ (s : State) (d : DieId) (bytes : List Byte), (s.die d).cmp.frame = some bytes ∧ (s.die d).composes = true ∧ bit
      ((s.die d).cmp.set 0xF) 0 = false ∧ bit ((s.die d).cmp.set 0xF) 1 = false) ∧
    (∃ (s : State) (d : DieId) (fault : Nat) (setFaults : List Nat), (s.die d).composes = true ∧ (s.die d).cmp.running =
      true ∧ (s.die d).cmp.checkDue = true) ∧
    (∃ (s : State) (m : MasterId) (d : DieId) (v : Nat), GateTakes m ⟨0x2700, 0x1B, d.val⟩ (leBytes 1 v) s) ∧
    (∃ (s : State) (m : MasterId) (d : DieId) (set : Nat) (v : List Byte), set < 4 ∧ GateTakes m ⟨0x2700, 0xB + set, d.val⟩
      v s) ∧
    (∃ (s : State) (m : MasterId) (d : DieId) (sub : Nat) (v : List Byte), (sub = 4 ∨ (6 ≤ sub ∧ sub ≤ 0xA) ∨ sub = 0xF ∨
      (0x11 ≤ sub ∧ sub ≤ 0x14)) ∧ (sub = 7 ∨ sub = 8 ∨ sub = 9 ∨ sub = 0x12 → s.streamFits d sub (leNat v) = true) ∧
      GateTakes m ⟨0x2700, sub, d.val⟩ v s) ∧
    (∃ (s : State) (m : MasterId) (d : DieId) (v : List Byte), GateTakes m ⟨0x2700, 0x10, d.val⟩ v s ∧ leNat v % 4096 = 0)
      :=
  ⟨⟨(base).modDie 0 fun x => { x with srv.running := none }, 1, 0, 1, ⟨rfl, rfl, rfl, by decide +kernel,
      by decide +kernel⟩, by decide +kernel⟩,
    ⟨(base).modDie 0 fun x => { x with srv.running := some 0 }, 1, 0, 1, ⟨rfl, rfl, rfl, by decide +kernel,
      by decide +kernel⟩, by decide +kernel⟩,
    ⟨((base).modDie 0 fun x => { x with srv.running := none }).modTray fun y =>
      { y with leg.settings := [(⟨0x2700, 4, 0⟩, 1)] }, 0, by decide +kernel⟩,
    ⟨(base).modDie 0 fun x => { x with srv.running := some 0 }, 0, (List.replicate 4096 0), 0, by decide +kernel⟩,
    ⟨base, 1, 0, 0, ⟨rfl, rfl, rfl, by decide +kernel, by decide +kernel⟩⟩,
    ⟨(base).modTray fun y => { y with leg.settings := [(⟨0x2700, 6, 0⟩, 0)] }, 0, by decide +kernel⟩,
    ⟨(base).modTray fun y => { y with leg.settings := [(⟨0x2700, 6, 0⟩, 1)] }, 0, by decide +kernel⟩,
    ⟨(base).modDie 0 fun x => { x with cmp.frame := some [] }, 0, [], by decide +kernel⟩,
    ⟨(base).modDie 0 fun x => { x with cmp.frame := some [] }, 0, [], by decide +kernel⟩,
    ⟨(base).modDie 0 fun x => { x with cmp.running := true, cmp.checkDue := true }, 0, 0, [], by decide +kernel⟩,
    ⟨base, 1, 0, 1, ⟨rfl, rfl, rfl, by decide +kernel, by decide +kernel⟩⟩,
    ⟨base, 1, 0, 3, (leBytes 256 (base.setting 0x2700 0xE 0)), by decide +kernel, ⟨rfl, rfl, rfl, by decide +kernel,
      by decide +kernel⟩⟩,
    ⟨base, 1, 0, 4, (leBytes 4 (base.setting 0x2700 4 0)), by decide +kernel, by decide +kernel, ⟨rfl, rfl, rfl,
      by decide +kernel, by decide +kernel⟩⟩,
    ⟨base, 1, 0, (List.replicate 8 0#8), ⟨rfl, rfl, rfl, by decide +kernel, by decide +kernel⟩, by decide +kernel⟩⟩

theorem witness_UnitAndMatrixRecords :
    (∃ (s : State) (d : DieId) (t : Nat) (h : Nat) (u : Nat) (v : Nat) (r : Run) (q : Rec), Issues s d t h 0x00 u v r q) ∧
    (∃ (s : State) (d : DieId) (t : Nat) (h : Nat) (u : Nat) (v : Nat) (r : Run) (q : Rec), Issues s d t h 0x01 u v r q) ∧
    (∃ (s : State) (d : DieId) (t : Nat) (h : Nat) (u : Nat) (v : Nat) (r : Run) (q : Rec), Issues s d t h 0x02 u v r q) ∧
    (∃ (s : State) (d : DieId) (t : Nat) (h : Nat) (u : Nat) (v : Nat) (r : Run) (q : Rec), Issues s d t h 0x05 u v r q) ∧
    (∃ (s : State) (d : DieId) (t : Nat) (h : Nat) (u : Nat) (v : Nat) (r : Run) (q : Rec), Issues s d t h 0x10 u v r q) ∧
    (∃ (s : State) (d : DieId) (t : Nat) (h : Nat) (u : Nat) (v : Nat) (r : Run) (q : Rec), Issues s d t h 0x19 u v r q) ∧
    (∃ (s : State) (d : DieId) (t : Nat) (h : Nat) (u : Nat) (v : Nat) (r : Run) (q : Rec) (l : List Nat), Issues s d t h
      0x1B u v r q ∧ KV.get? (s.unit d (r.plan.tile u v)).acc (bits q.w 24 16) = some (false, l)) ∧
    (∃ (s : State) (d : DieId) (t : Nat) (h : Nat) (u : Nat) (v : Nat) (r : Run) (q : Rec) (w : Nat × List (List Nat)),
      Issues s d t h 0x03 u v r q ∧ (s.unit d (r.plan.tile u v)).weights = some w) :=
  ⟨⟨withRun (run ⟨0, 0x00, 5, 0⟩), 0, 0, 0, 0, 0, run ⟨0, 0x00, 5, 0⟩, ⟨0, 0x00, 5, 0⟩, ⟨by decide +kernel,
      by decide +kernel, by decide +kernel⟩⟩,
    ⟨withRun (run ⟨0, 0x01, 5, 0⟩), 0, 0, 0, 0, 0, run ⟨0, 0x01, 5, 0⟩, ⟨0, 0x01, 5, 0⟩, ⟨by decide +kernel,
      by decide +kernel, by decide +kernel⟩⟩,
    ⟨withRun (run ⟨0, 0x02, 5, 0⟩), 0, 0, 0, 0, 0, run ⟨0, 0x02, 5, 0⟩, ⟨0, 0x02, 5, 0⟩, ⟨by decide +kernel,
      by decide +kernel, by decide +kernel⟩⟩,
    ⟨withRun (run ⟨0, 0x05, 5, 0⟩), 0, 0, 0, 0, 0, run ⟨0, 0x05, 5, 0⟩, ⟨0, 0x05, 5, 0⟩, ⟨by decide +kernel,
      by decide +kernel, by decide +kernel⟩⟩,
    ⟨withRun (run ⟨0, 0x10, 5, 0⟩), 0, 0, 0, 0, 0, run ⟨0, 0x10, 5, 0⟩, ⟨0, 0x10, 5, 0⟩, ⟨by decide +kernel,
      by decide +kernel, by decide +kernel⟩⟩,
    ⟨withRun (run ⟨0, 0x19, 5, 0⟩), 0, 0, 0, 0, 0, run ⟨0, 0x19, 5, 0⟩, ⟨0, 0x19, 5, 0⟩, ⟨by decide +kernel,
      by decide +kernel, by decide +kernel⟩⟩,
    ⟨(withRun (run ⟨0, 0x1B, 5, 0⟩)).modDie 0 fun x => { x with til.units := [(0, { acc := [(0, (false, []))] })] }, 0, 0,
      0, 0, 0, run ⟨0, 0x1B, 5, 0⟩, ⟨0, 0x1B, 5, 0⟩, [], ⟨by decide +kernel, by decide +kernel, by decide +kernel⟩,
      by decide +kernel⟩,
    ⟨(withRun (run ⟨0, 0x03, 5, 0⟩)).modDie 0 fun x => { x with til.units := [(0, { weights := some (5, []) })] }, 0, 0, 0,
      0, 0, run ⟨0, 0x03, 5, 0⟩, ⟨0, 0x03, 5, 0⟩, (5, []), ⟨by decide +kernel, by decide +kernel, by decide +kernel⟩,
      by decide +kernel⟩⟩

theorem witness_StoringRecords :
    (∃ (s : State) (d : DieId) (t : Nat) (h : Nat) (u : Nat) (v : Nat) (r : Run) (q : Rec), Issues s d t h 0x04 u v r q) ∧
    (∃ (s : State) (d : DieId) (t : Nat) (h : Nat) (u : Nat) (v : Nat) (r : Run) (q : Rec), Issues s d t h 0x11 u v r q) ∧
    (∃ (s : State) (d : DieId) (t : Nat) (h : Nat) (u : Nat) (v : Nat) (r : Run) (q : Rec), Issues s d t h 0x20 u v r q) ∧
    (∃ (s : State) (d : DieId) (t : Nat) (h : Nat) (u : Nat) (v : Nat) (r : Run) (q : Rec), Issues s d t h 0x21 u v r q) ∧
    (∃ (s : State) (d : DieId) (t : Nat) (h : Nat) (u : Nat) (v : Nat) (r : Run) (q : Rec), Issues s d t h 0x22 u v r q) :=
  ⟨⟨withRun (run ⟨0, 0x04, 5, 0⟩), 0, 0, 0, 0, 0, run ⟨0, 0x04, 5, 0⟩, ⟨0, 0x04, 5, 0⟩, ⟨by decide +kernel,
      by decide +kernel, by decide +kernel⟩⟩,
    ⟨withRun (run ⟨0, 0x11, 5, 0⟩), 0, 0, 0, 0, 0, run ⟨0, 0x11, 5, 0⟩, ⟨0, 0x11, 5, 0⟩, ⟨by decide +kernel,
      by decide +kernel, by decide +kernel⟩⟩,
    ⟨withRun (run ⟨0, 0x20, 5, 0⟩), 0, 0, 0, 0, 0, run ⟨0, 0x20, 5, 0⟩, ⟨0, 0x20, 5, 0⟩, ⟨by decide +kernel,
      by decide +kernel, by decide +kernel⟩⟩,
    ⟨withRun (run ⟨0, 0x21, 5, 0⟩), 0, 0, 0, 0, 0, run ⟨0, 0x21, 5, 0⟩, ⟨0, 0x21, 5, 0⟩, ⟨by decide +kernel,
      by decide +kernel, by decide +kernel⟩⟩,
    ⟨withRun (run ⟨0, 0x22, 5, 0⟩), 0, 0, 0, 0, 0, run ⟨0, 0x22, 5, 0⟩, ⟨0, 0x22, 5, 0⟩, ⟨by decide +kernel,
      by decide +kernel, by decide +kernel⟩⟩⟩

theorem witness_FabricRecords :
    (∃ (s : State) (d : DieId) (t : Nat) (h : Nat) (u : Nat) (v : Nat) (r : Run) (q : Rec) (f : TxFlow), Issues s d t h
      0x30 u v r q ∧ (s.die d).txOf r (bits q.w 7 0) = some f ∧ f.opened = false) ∧
    (∃ (s : State) (d : DieId) (t : Nat) (h : Nat) (u : Nat) (v : Nat) (r : Run) (q : Rec) (f : TxFlow), Issues s d t h
      0x30 u v r q ∧ (s.die d).txOf r (bits q.w 7 0) = some f ∧ f.opened = true ∧ (f.data.map List.length).sum + 128 * q.nf
      ≤ f.space) ∧
    (∃ (s : State) (d : DieId) (t : Nat) (h : Nat) (u : Nat) (v : Nat) (r : Run) (q : Rec) (f : RxFlow), Issues s d t h
      0x31 u v r q ∧ (s.die d).rxOf r (bits q.w 7 0) = some f ∧ f.data.length < 128 * q.nf) ∧
    (∃ (s : State) (d : DieId) (t : Nat) (h : Nat) (u : Nat) (v : Nat) (r : Run) (q : Rec) (f : RxFlow), Issues s d t h
      0x31 u v r q ∧ (s.die d).rxOf r (bits q.w 7 0) = some f ∧ 128 * q.nf ≤ f.data.length) :=
  ⟨⟨(withRun (run ⟨0, 0x30, 5, 0⟩)).modDie 0 fun x =>
      { x with fab.tx := [{ tenant := 0, handle := 0, pos := 0, id := 0, peer := 0, port := 0, space := 1024, label := 0 }] }, 0, 0, 0, 0, 0, run ⟨0, 0x30, 5, 0⟩, ⟨0, 0x30, 5, 0⟩, { tenant := 0, handle := 0, pos := 0, id := 0, peer := 0, port := 0, space := 1024, label := 0 }, ⟨by decide +kernel, by decide +kernel, by decide +kernel⟩, by decide +kernel, by decide +kernel⟩,
    ⟨(withRun (run ⟨0, 0x30, 5, 0⟩)).modDie 0 fun x =>
      { x with fab.tx := [{ tenant := 0, handle := 0, pos := 0, id := 0, peer := 0, port := 0, space := 1024, label := 0, opened := true }] }, 0, 0, 0, 0, 0, run ⟨0, 0x30, 5, 0⟩, ⟨0, 0x30, 5, 0⟩, { tenant := 0, handle := 0, pos := 0, id := 0, peer := 0, port := 0, space := 1024, label := 0, opened := true }, ⟨by decide +kernel, by decide +kernel, by decide +kernel⟩, by decide +kernel, by decide +kernel, by decide +kernel⟩,
    ⟨(withRun (run ⟨0, 0x31, 5, 0⟩)).modDie 0 fun x =>
      { x with fab.rx := [{ tenant := 0, handle := 0, pos := 0, id := 0, peer := 0, port := 0, allot := 0, label := some 0 }] }, 0, 0, 0, 0, 0, run ⟨0, 0x31, 5, 0⟩, ⟨0, 0x31, 5, 0⟩, { tenant := 0, handle := 0, pos := 0, id := 0, peer := 0, port := 0, allot := 0, label := some 0 }, ⟨by decide +kernel, by decide +kernel, by decide +kernel⟩, by decide +kernel, by decide +kernel⟩,
    ⟨(withRun (run ⟨0, 0x31, 5, 0⟩)).modDie 0 fun x =>
      { x with fab.rx := [{ tenant := 0, handle := 0, pos := 0, id := 0, peer := 0, port := 0, allot := 0, label := some 0, data := List.replicate 128 0#8 }] }, 0, 0, 0, 0, 0, run ⟨0, 0x31, 5, 0⟩, ⟨0, 0x31, 5, 0⟩, { tenant := 0, handle := 0, pos := 0, id := 0, peer := 0, port := 0, allot := 0, label := some 0, data := List.replicate 128 0#8 }, ⟨by decide +kernel, by decide +kernel, by decide +kernel⟩, by decide +kernel, by decide +kernel⟩⟩

theorem witness_ScoutRecords :
    (∃ (s : State) (d : DieId) (t : Nat) (h : Nat) (r : Run) (q : Rec) (b : Bank), Issues s d t h 0x40 0 0 r q ∧ (s.die
      d).sct.banks[bits q.w 2 0]? = some b) ∧
    (∃ (s : State) (d : DieId) (t : Nat) (h : Nat) (r : Run) (q : Rec), Issues s d t h 0x41 0 0 r q) ∧
    (∃ (s : State) (d : DieId) (t : Nat) (h : Nat) (r : Run) (q : Rec), Issues s d t h 0x42 0 0 r q) ∧
    (∃ (s : State) (d : DieId) (t : Nat) (h : Nat) (r : Run) (q : Rec), Issues s d t h 0x43 0 0 r q) ∧
    (∃ (s : State) (d : DieId) (b : Fin 8) (k : Bank), (s.die d).sct.banks[b.val]? = some k ∧ k.state = .blanking) :=
  ⟨⟨withRun (run ⟨0, 0x40, 5, 0⟩), 0, 0, 0, run ⟨0, 0x40, 5, 0⟩, ⟨0, 0x40, 5, 0⟩, {}, ⟨by decide +kernel,
      by decide +kernel, by decide +kernel⟩, by decide +kernel⟩,
    ⟨withRun (run ⟨0, 0x41, 5, 0⟩), 0, 0, 0, run ⟨0, 0x41, 5, 0⟩, ⟨0, 0x41, 5, 0⟩, ⟨by decide +kernel, by decide +kernel,
      by decide +kernel⟩⟩,
    ⟨withRun (run ⟨0, 0x42, 5, 0⟩), 0, 0, 0, run ⟨0, 0x42, 5, 0⟩, ⟨0, 0x42, 5, 0⟩, ⟨by decide +kernel, by decide +kernel,
      by decide +kernel⟩⟩,
    ⟨withRun (run ⟨0, 0x43, 5, 0⟩), 0, 0, 0, run ⟨0, 0x43, 5, 0⟩, ⟨0, 0x43, 5, 0⟩, ⟨by decide +kernel, by decide +kernel,
      by decide +kernel⟩⟩,
    ⟨(base).modDie 0 fun x => { x with sct.banks := [{ state := .blanking }] }, 0, 0, { state := .blanking },
      by decide +kernel⟩⟩

theorem witness_BarriersAndEnd :
    (∃ (s : State) (d : DieId) (t : Nat) (h : Nat) (r : Run) (q : Rec), Issues s d t h 0x50 0 0 r q ∧ r.barSent.getD (bits
      q.w 9 0) 0 ≠ r.barCount.getD (bits q.w 9 0) 0 ∧ (bits q.w 9 0, r.barCount.getD (bits q.w 9 0) 0 + 1) ∈ r.barFree) ∧
    (∃ (s : State) (d : DieId) (t : Nat) (h : Nat) (r : Run) (q : Rec), Issues s d t h 0x50 0 0 r q ∧ r.barSent.getD (bits
      q.w 9 0) 0 ≠ r.barCount.getD (bits q.w 9 0) 0 ∧ (bits q.w 9 0, r.barCount.getD (bits q.w 9 0) 0 + 1) ∉ r.barFree) ∧
    (∃ (s : State) (d : DieId) (t : Nat) (h : Nat) (r : Run) (q : Rec), Issues s d t h 0x51 0 0 r q ∧ r.stop = .none) ∧
    (∃ (s : State) (d : DieId) (t : Nat) (h : Nat) (r : Run) (q : Rec), Issues s d t h 0x51 0 0 r q ∧ r.stop ≠ .none) ∧
    (∃ (s : State) (d : DieId) (t : Nat) (h : Nat) (r : Run) (q : Rec), Issues s d t h 0x52 0 0 r q) ∧
    (∃ (s : State) (d : DieId) (t : Nat) (h : Nat) (pos : Nat) (r : Run) (q : Rec) (b : PlanBarrier), ((s.die
      d).til.runs.find? fun r => r.tenant == t && r.handle == h && !r.halted && r.holding.isNone) = some r ∧
      ((r.plan.scores.getD 0 []).filter fun q => q.op == 0x50 && bits q.w 9 0 == pos)[r.barSent.getD pos 0]? = some q ∧
      r.plan.barriers[pos]? = some b ∧ r.isNext (q.cyc - b.lead) = true ∧ (s.die d).computes = true ∧ (s.die
      d).op.alertHalt = false) ∧
    (∃ (s : State) (d : DieId) (src : Nat) (t : Nat) (id : Nat) (n : Nat) (parts : Nat), KV.get? (s.die d).fab.barriers (t,
      id, n) = none ∧ 1 < parts) :=
  ⟨⟨withRun { run ⟨0, 0x50, 0, 0⟩ with barCount := [1], barSent := [2], barFree := [(0, 2)] }, 0, 0, 0,
      { run ⟨0, 0x50, 0, 0⟩ with barCount := [1], barSent := [2], barFree := [(0, 2)] }, ⟨0, 0x50, 0, 0⟩,
      ⟨by decide +kernel, by decide +kernel, by decide +kernel⟩, by decide +kernel, by decide +kernel⟩,
    ⟨withRun { run ⟨0, 0x50, 0, 0⟩ with barCount := [1], barSent := [2] }, 0, 0, 0,
      { run ⟨0, 0x50, 0, 0⟩ with barCount := [1], barSent := [2] }, ⟨0, 0x50, 0, 0⟩, ⟨by decide +kernel, by decide +kernel,
      by decide +kernel⟩, by decide +kernel, by decide +kernel⟩,
    ⟨withRun (run ⟨0, 0x51, 0, 0⟩), 0, 0, 0, run ⟨0, 0x51, 0, 0⟩, ⟨0, 0x51, 0, 0⟩, ⟨by decide +kernel, by decide +kernel,
      by decide +kernel⟩, by decide +kernel⟩,
    ⟨withRun { run ⟨0, 0x51, 0, 0⟩ with stop := .haltPoint }, 0, 0, 0, { run ⟨0, 0x51, 0, 0⟩ with stop := .haltPoint }, ⟨0,
      0x51, 0, 0⟩, ⟨by decide +kernel, by decide +kernel, by decide +kernel⟩, by decide +kernel⟩,
    ⟨withRun (run ⟨0, 0x52, 0, 0⟩), 0, 0, 0, run ⟨0, 0x52, 0, 0⟩, ⟨0, 0x52, 0, 0⟩, ⟨by decide +kernel, by decide +kernel,
      by decide +kernel⟩⟩,
    ⟨withRun { run ⟨50, 0x50, 0, 0⟩ with plan := { plan ⟨50, 0x50, 0, 0⟩ with barriers := [⟨0, 2, 0, 10⟩] }, barCount := [0], barSent := [0] }, 0, 0, 0, 0, { run ⟨50, 0x50, 0, 0⟩ with plan := { plan ⟨50, 0x50, 0, 0⟩ with barriers := [⟨0, 2, 0, 10⟩] }, barCount := [0], barSent := [0] }, ⟨50, 0x50, 0, 0⟩, ⟨0, 2, 0, 10⟩, by decide +kernel⟩,
    ⟨base, 0, 0, 0, 0, 0, 2, by decide +kernel⟩⟩

theorem witness_FloatHoldScrub :
    (∃ (s : State) (d : DieId) (t : Nat) (h : Nat) (r : Run) (g : Segment), ((s.die d).til.runs.find? fun r => r.tenant ==
      t && r.handle == h && !r.halted && r.holding.isNone) = some r ∧ r.nextFloat = some g ∧ r.isNext g.start = true ∧
      (s.die d).computes = true ∧ (s.die d).op.alertHalt = false) ∧
    (∃ (s : State) (d : DieId) (t : Nat) (h : Nat) (r : Run) (c : HoldCause) (since : Ns) (q : Queue), ((s.die
      d).til.runs.find? fun r => r.tenant == t && r.handle == h && r.holding.isSome) = some r ∧ r.holding = some (c, since)
      ∧ s.queue? t h r.queue = some q) ∧
    (∃ (s : State) (d : DieId) (tile : Fin 128) (bank : Fin 8), (s.die d).rails.vcore = true) ∧
    (∃ (s : State) (d : DieId) (tile : Fin 128) (bank : Fin 8), (s.die d).rails.vcore = false) :=
  ⟨⟨withRun ({ run ⟨50, 0x52, 0, 0⟩ with plan := { plan ⟨50, 0x52, 0, 0⟩ with segs := [⟨10, 10, [], 1, 16, false, true, false⟩] } }), 0, 0, 0, { run ⟨50, 0x52, 0, 0⟩ with plan := { plan ⟨50, 0x52, 0, 0⟩ with segs := [⟨10, 10, [], 1, 16, false, true, false⟩] } }, ⟨10, 10, [], 1, 16, false, true, false⟩, by decide +kernel⟩,
    ⟨(withCtx (cmd [7]) [] []).modDie 0 fun x =>
      { x with til.runs := [{ run ⟨0, 0x30, 0, 0⟩ with holding := some (.openDone, 0) }] }, 0, 0, 0,
      { run ⟨0, 0x30, 0, 0⟩ with holding := some (.openDone, 0) }, .openDone, 0, queue (cmd [7]), by decide +kernel⟩,
    ⟨(base).modDie 0 fun x => { x with rails.vcore := true }, 0, 0, 0, by decide +kernel⟩,
    ⟨(base).modDie 0 fun x => { x with rails.vcore := false }, 0, 0, 0, by decide +kernel⟩⟩

theorem witness_RecordsThatCannotIssue :
    (∃ (d : DieId) (t : Nat) (h : Nat) (u : Nat) (v : Nat) (op : Nat) (c : Instr), (op, c) ∈
      [ (0x00, Instr.nop d t h u v), (0x01, .mloadw d t h u v), (0x02, .mswap d t h u v), (0x03, .mma d t h u v), (0x04, .mdrain d t h u v), (0x05, .mzero d t h u v), (0x10, .vload d t h u v), (0x11, .vstore d t h u v), (0x12, .vadd d t h u v), (0x13, .vmul d t h u v), (0x14, .vfma d t h u v), (0x15, .vmax d t h u v), (0x16, .vexp2 d t h u v), (0x17, .vrcp d t h u v), (0x18, .vrsqrt d t h u v), (0x19, .vred d t h u v), (0x1A, .vscale d t h u v), (0x1B, .vacc d t h u v), (0x20, .mcopy d t h u v), (0x21, .mfill d t h u v), (0x22, .mgather d t h u v), (0x30, .fsend d t h u v), (0x31, .frecv d t h u v)]) :=
  ⟨0, 0, 0, 0, 0, 0x31, .frecv 0 0 0 0 0, by decide +kernel⟩

theorem witness_CombsAndRings :
    (∃ (s : State) (d : DieId) (aDev : List Int) (bDev : List Int) (aPow : Int) (bPow : Int) (aOk : Bool) (bOk : Bool),
      (s.die d).svc.state = .starting ∧ (s.die d).rails.vana = true ∧ (s.die d).fab.combPasses d 0 aDev aPow = aOk ∧ (s.die
      d).fab.combPasses d 1 bDev bPow = bOk ∧ (aOk = true ∨ bOk = true)) ∧
    (∃ (s : State) (d : DieId) (aDev : List Int) (bDev : List Int) (aPow : Int) (bPow : Int), (s.die d).svc.state =
      .starting ∧ (s.die d).rails.vana = true ∧ (s.die d).fab.combPasses d 0 aDev aPow = false ∧ (s.die d).fab.combPasses d
      1 bDev bPow = false) ∧
    (∃ (s : State) (d : DieId) (samples : List Int), (s.die d).rails.vana = true ∧ (s.die d).fab.combLost = false ∧
      samples.length = 8 ∧ (∀ x ∈ samples, x + 300 < (s.die d).fab.combRef d (b2n (s.die d).fab.combB)) ∧ (s.die
      d).fab.noStandby = false) ∧
    (∃ (s : State) (d : DieId) (samples : List Int), (s.die d).rails.vana = true ∧ (s.die d).fab.combLost = false ∧
      samples.length = 8 ∧ (∀ x ∈ samples, x + 300 < (s.die d).fab.combRef d (b2n (s.die d).fab.combB)) ∧ (s.die
      d).fab.noStandby = true) ∧
    (∃ (s : State) (d : DieId) (ring : Nat) (u : Nat), (s.die d).rails.vhtr = true ∧ ring < 1280 ∧ ((s.die d).fab.heater
      ring).locked = true ∧ ((s.die d).fab.heater ring).sat < 9) ∧
    (∃ (s : State) (d : DieId) (ring : Nat) (u : Nat), (s.die d).rails.vhtr = true ∧ ring < 1280 ∧ ((s.die d).fab.heater
      ring).locked = true ∧ ((s.die d).fab.heater ring).bad = 9) ∧
    (∃ (s : State) (d : DieId) (port : Fin 16) (drop : Bool) (line : Fin 40), ((s.die d).fab.heater ((s.port d
      port.val).ringNo port.val drop line.val)).locked = true) ∧
    (∃ (s : State) (d : DieId) (port : Fin 16) (drop : Bool) (line : Fin 40) (at_ : Ns), ((s.die d).fab.heater ((s.port d
      port.val).ringNo port.val drop line.val)).locked = false ∧ ((s.die d).fab.heater ((s.port d port.val).ringNo port.val
      drop line.val)).searchAt = some at_) ∧
    (∃ (s : State) (d : DieId) (port : Fin 16) (x : Port) (power : List (List (Option Nat))), (s.die
      d).fab.ports[port.val]? = some x ∧ x.state = .search ∧ (s.die d).rails.vhtr = true ∧ x.swept = 0 ∧
      (s.die d).fab.roundOf port.val = true) ∧
    (∃ (s : State) (d : DieId) (port : Fin 16) (x : Port) (power : List (List (Option Nat))), (s.die
      d).fab.ports[port.val]? = some x ∧ x.state = .search ∧ (s.die d).rails.vhtr = true ∧ x.swept = 0 ∧
      (s.die d).fab.roundOf port.val = false) ∧
    (∃ (s : State) (d : DieId) (port : Fin 16) (x : Port) (power : List (List (Option Nat))), (s.die
      d).fab.ports[port.val]? = some x ∧ x.state = .search ∧ (s.die d).rails.vhtr = true ∧ x.swept = 1 ∧
      x.farLight = true) :=
  ⟨⟨(base).modDie 0 fun x => { x with svc.state := .starting, rails.vana := true, fab.baseline := some [1000, 1000] }, 0,
      [15000], [], 900, 1101, true, false, by decide +kernel⟩,
    ⟨(base).modDie 0 fun x => { x with svc.state := .starting, rails.vana := true, fab.baseline := some [1000, 1000] }, 0,
      [15001], [-15001], 1000, 1000, by decide +kernel⟩,
    ⟨(base).modDie 0 fun x => { x with rails.vana := true, fab.combLost := false, fab.baseline := some [1000, 1000] }, 0,
      (List.replicate 8 699), by decide +kernel⟩,
    ⟨(base).modDie 0 fun x =>
      { x with rails.vana := true, fab.combLost := false, fab.baseline := some [1000, 1000], fab.standbyGone := true }, 0,
      (List.replicate 8 699), by decide +kernel⟩,
    ⟨(base).modDie 0 fun x => { x with rails.vhtr := true, fab.rings := [(0, { locked := true })] }, 0, 0, 0,
      by decide +kernel⟩,
    ⟨(base).modDie 0 fun x => { x with rails.vhtr := true, fab.rings := [(0, { locked := true, bad := 9 })] }, 0, 0, 0,
      by decide +kernel⟩,
    ⟨(base).modDie 0 fun x => { x with fab.rings := [(({} : Port).ringNo 0 false 0, { locked := true })] }, 0, 0, false, 0,
      by decide +kernel⟩,
    ⟨(base).modDie 0 fun x => { x with fab.rings := [(({} : Port).ringNo 0 false 0, { searchAt := some 0 })] }, 0, 0,
      false, 0, 0, by decide +kernel⟩,
    ⟨(withPort ({ port with state := .search })).modDie 0 fun x => { x with rails.vhtr := true }, 0, 0,
      { port with state := .search }, {}, by decide +kernel⟩,
    ⟨(withPort ({ port with state := .search })).modDie 0 fun x =>
      { x with rails.vhtr := true, fab.ports := List.replicate 16 { state := .search } }, 0, 4, { state := .search }, {},
      by decide +kernel⟩,
    ⟨(withPort ({ port with state := .search, swept := 1, farLight := true })).modDie 0 fun x =>
      { x with rails.vhtr := true }, 0, 0, { port with state := .search, swept := 1, farLight := true }, {},
      by decide +kernel⟩⟩

theorem witness_PortStates :
    (∃ (s : State) (d : DieId) (port : Fin 16) (x : Port), (s.die d).fab.ports[port.val]? = some x ∧ x.state = .search) ∧
    (∃ (s : State) (d : DieId) (port : Fin 16) (x : Port) (group : Nat) (id : Nat) (farPort : Nat) (serial : List Byte),
      (s.die d).fab.ports[port.val]? = some x) ∧
    (∃ (s : State) (d : DieId) (port : Fin 16) (x : Port) (seq : Nat) (lines : List Nat), (s.die d).fab.ports[port.val]? =
      some x ∧ x.state ≠ .train ∧ x.state ≠ .down ∧ seq % 4096 ≠ x.rxSeq) ∧
    (∃ (s : State) (d : DieId) (port : Fin 16) (x : Port) (passTx : Nat) (passRx : Nat), (s.die d).fab.ports[port.val]? =
      some x ∧ (x.state = .train ∨ x.state = .down) ∧ x.helloHeard = true ∧
      ((usableLines (testedLines passTx x.tx)).length < 8 ∨ (usableLines
      (testedLines passRx x.rx)).length < 8)) ∧
    (∃ (s : State) (d : DieId) (port : Fin 16) (x : Port) (passTx : Nat) (passRx : Nat), (s.die d).fab.ports[port.val]? =
      some x ∧ (x.state = .train ∨ x.state = .down) ∧ x.helloHeard = true ∧
      8 ≤ (usableLines (testedLines passTx x.tx)).length ∧ 8 ≤ (usableLines
      (testedLines passRx x.rx)).length) ∧
    (∃ (s : State) (d : DieId) (port : Fin 16) (x : Port) (passTx : Nat) (passRx : Nat), (s.die d).fab.ports[port.val]? =
      some x ∧ x.helloHeard = false) ∧
    (∃ (s : State) (d : DieId) (port : Fin 16) (x : Port), (s.die d).fab.ports[port.val]? = some x ∧ x.state = .retrain ∧
      (s.die d).lowRate = false ∧ (s.die d).fab.combLost = false) ∧
    (∃ (s : State) (d : DieId) (port : Fin 16), (s.die d).fab.combLost = true) ∧
    (∃ (s : State) (d : DieId) (port : Fin 16) (x : Port), (s.die d).fab.ports[port.val]? = some x ∧ x.state = .retrain) ∧
    (∃ (s : State) (d : DieId) (port : Fin 16) (x : Port), (s.die d).fab.ports[port.val]? = some x ∧ x.state = .down) ∧
    (∃ (s : State) (m : MasterId) (d : DieId) (v : Nat), GateTakes m ⟨0x3000, 2, d.val⟩ (leBytes 2 v) s) ∧
    (∃ (s : State) (d : DieId) (port : Fin 16) (x : Port), (s.die d).fab.ports[port.val]? = some x ∧ x.state.carries = true
      ∧ x.cal = none) :=
  ⟨⟨withPort ({ port with state := .search }), 0, 0, { port with state := .search }, by decide +kernel⟩,
    ⟨withPort (port), 0, 0, port, 0, 0, 0, [], by decide +kernel⟩,
    ⟨withPort (port), 0, 0, port, 1, [], by decide +kernel⟩,
    ⟨withPort ({ port with state := .train, helloHeard := true }), 0, 0,
      { port with state := .train, helloHeard := true }, 0, 0, by decide +kernel⟩,
    ⟨withPort ({
        port with state := .train, helloHeard := true, tx := List.replicate 40 .lane, rx := List.replicate 40 .lane }), 0, 0,
      { port with state := .train, helloHeard := true, tx := List.replicate 40 .lane, rx := List.replicate 40 .lane }, 255, 255,
      by decide +kernel⟩,
    ⟨withPort ({ port with helloHeard := false }), 0, 0, { port with helloHeard := false }, 0, 0, by decide +kernel⟩,
    ⟨withPort ({ port with state := .retrain }), 0, 0, { port with state := .retrain }, by decide +kernel⟩,
    ⟨(base).modDie 0 fun x => { x with fab.combLost := true }, 0, 0, by decide +kernel⟩,
    ⟨withPort ({ port with state := .retrain }), 0, 0, { port with state := .retrain }, by decide +kernel⟩,
    ⟨withPort ({ port with state := .down }), 0, 0, { port with state := .down }, by decide +kernel⟩,
    ⟨base, 1, 0, 0xFFFF, ⟨rfl, rfl, rfl, by decide +kernel, by decide +kernel⟩⟩,
    ⟨withPort ({ port with cal := none }), 0, 0, { port with cal := none }, by decide +kernel⟩⟩

theorem witness_LineCalibration :
    (∃ (s : State) (d : DieId) (port : Fin 16) (x : Port), (s.die d).fab.ports[port.val]? = some x ∧ s.leads d port.val =
      true ∧ x.state = .up ∧ x.cal = none ∧ (s.die d).svc.holding = none ∧ hasReserve x.tx = true ∧ hasReserve x.rx = true
      ∧ 8 ≤ (usableLines (x.tx.modify x.calNext fun _ => .calibrating)).length ∧ 8 ≤ (usableLines (x.rx.modify x.calNext
      fun _ => .calibrating)).length) ∧
    (∃ (s : State) (d : DieId) (port : Fin 16) (x : Port) (line : Nat), (s.die d).fab.ports[port.val]? = some x ∧ s.leads d
      port.val = false ∧ x.state = .up ∧ x.cal = none ∧ line < 40 ∧ 8 ≤ (usableLines (x.tx.modify line fun _ =>
      .calibrating)).length ∧ 8 ≤ (usableLines (x.rx.modify line fun _ => .calibrating)).length) ∧
    (∃ (s : State) (d : DieId) (port : Fin 16) (x : Port) (line : Nat) (failed : Bool) (at_ : Ns), (s.die
      d).fab.ports[port.val]? = some x ∧ x.cal = some (line, at_)) ∧
    (∃ (s : State) (d : DieId) (port : Fin 16) (x : Port) (line : Nat) (at_ : Ns), (s.die d).fab.ports[port.val]? = some x
      ∧ x.cal = some (line, at_)) ∧
    (∃ (s : State) (d : DieId) (port : Fin 16) (x : Port) (line : Fin 40), (s.die d).fab.ports[port.val]? = some x ∧
      x.tx[line.val]? = some .reserve ∧ x.cal = none) ∧
    (∃ (s : State) (m : MasterId) (d : DieId) (v : Nat), GateTakes m ⟨0x3000, 0xC, d.val⟩ (leBytes 1 v) s ∧ (s.die
      d).fab.monitor ≠ []) ∧
    (∃ (s : State) (d : DieId) (port : Fin 16) (stages : List Int) (stage5 : List Int), (s.die d).fab.monitor.length = 690
      ∧ (s.port d port.val).state ≠ .up) ∧
    (∃ (s : State) (d : DieId) (port : Fin 16) (x : Port) (stage3 : Int) (stage5 : List Int), (s.die
      d).fab.ports[port.val]? = some x ∧ (s.die d).svc.holding.isSome = true) :=
  ⟨⟨(withPort
      ({ port with state := .up, cal := none, tx := List.replicate 20 .lane ++ List.replicate 20 .reserve, rx := List.replicate 20 .lane ++ List.replicate 20 .reserve, neighbour := some (5000, 1, 0, []) })).modDie 0 fun x => { x with svc.holding := none }, 0, 0, { port with state := .up, cal := none, tx := List.replicate 20 .lane ++ List.replicate 20 .reserve, rx := List.replicate 20 .lane ++ List.replicate 20 .reserve, neighbour := some (5000, 1, 0, []) }, by decide +kernel⟩,
    ⟨withPort ({ port with state := .up, cal := none, tx := List.replicate 20 .lane ++ List.replicate 20 .reserve, rx := List.replicate 20 .lane ++ List.replicate 20 .reserve }), 0, 0, { port with state := .up, cal := none, tx := List.replicate 20 .lane ++ List.replicate 20 .reserve, rx := List.replicate 20 .lane ++ List.replicate 20 .reserve }, 39, by decide +kernel⟩,
    ⟨withPort ({ port with cal := some (0, 0) }), 0, 0, { port with cal := some (0, 0) }, 0, false, 0, by decide +kernel⟩,
    ⟨withPort ({ port with cal := some (0, 0) }), 0, 0, { port with cal := some (0, 0) }, 0, 0, by decide +kernel⟩,
    ⟨withPort ({ port with cal := none, tx := List.replicate 40 .reserve }), 0, 0,
      { port with cal := none, tx := List.replicate 40 .reserve }, 0, by decide +kernel⟩,
    ⟨(base).modDie 0 fun x => { x with fab.monitor := [0] }, 1, 0, 1, ⟨rfl, rfl, rfl, by decide +kernel,
      by decide +kernel⟩, by decide +kernel⟩,
    ⟨(base).modDie 0 fun x => { x with fab.monitor := List.replicate 690 0 }, 0, 0, [], [], by decide +kernel⟩,
    ⟨(withPort (port)).modDie 0 fun x => { x with svc.holding := some 0 }, 0, 0, port, 0, [], by decide +kernel⟩⟩

set_option maxRecDepth 4000 in
theorem witness_FlitsAndRecords :
    (∃ (s : State) (d : DieId) (port : Fin 16) (x : Port) (bytes : List Byte) (fixed : Nat), (s.die d).fab.ports[port.val]?
      = some x ∧ x.state = .up ∧ readFlit bytes = none ∧ x.nakSent = false) ∧
    (∃ (s : State) (d : DieId) (port : Fin 16) (x : Port) (bytes : List Byte) (fixed : Nat) (f : FlitHead), (s.die
      d).fab.ports[port.val]? = some x ∧ x.state = .up ∧ readFlit bytes = some f ∧ f.ty = 0 ∧ f.nak = false ∧ f.ackValid =
      false) ∧
    (∃ (s : State) (d : DieId) (port : Fin 16) (x : Port) (bytes : List Byte) (fixed : Nat) (f : FlitHead), (s.die
      d).fab.ports[port.val]? = some x ∧ x.state = .up ∧ readFlit bytes = some f ∧ f.ty = 1 ∧ f.nak = false ∧ f.ackValid =
      false ∧ f.seq = x.rxSeq ∧ x.rxNext = none) ∧
    (∃ (s : State) (d : DieId) (port : Fin 16) (seq : Nat), (s.port d port.val).state.carries = true) ∧
    (∃ (s : State) (d : DieId) (port : Fin 16) (x : Port) (r : Nat × List Byte × Ns) (rs : List (Nat × List Byte × Ns)),
      (s.die d).fab.ports[port.val]? = some x ∧ x.replay = r :: rs ∧ x.state.carries = true) ∧
    (∃ (s : State) (d : DieId) (port : Option (Fin 16)) (bytes : List Byte), recordOk bytes = false) ∧
    (∃ (s : State) (d : DieId) (port : Option (Fin 16)) (bytes : List Byte) (c : List Byte) (q : Nat), recordOk bytes =
      true ∧ bit (bytes.getD 8 0#8).toNat 1 = false ∧ bit (bytes.getD 8 0#8).toNat 0 = false ∧ leNat ((bytes.drop 4).take
      2) ≠ s.identity d ∧ s.route d (leNat ((bytes.drop 4).take 2)) = q ∧ q ≠ 0xFF ∧ lessHop bytes = some c) ∧
    (∃ (s : State) (d : DieId) (port : Fin 16) (x : Port) (line : Nat), (s.die d).fab.ports[port.val]? = some x ∧ x.state =
      .up ∧ x.cal = none) :=
  ⟨⟨withPort ({ port with state := .up, nakSent := false }), 0, 0, { port with state := .up, nakSent := false }, [], 0,
      by decide +kernel⟩,
    ⟨withPort ({ port with state := .up }), 0, 0, { port with state := .up }, flit 0 0, 0, ((readFlit (flit 0 0)).get
      (by decide +kernel)), by decide +kernel, by decide +kernel, (Option.some_get _).symm, by decide +kernel,
      by decide +kernel, by decide +kernel⟩,
    ⟨withPort ({ port with state := .up, rxNext := none, rxSeq := 5 }), 0, 0,
      { port with state := .up, rxNext := none, rxSeq := 5 }, flit 1 5, 0, ((readFlit (flit 1 5)).get (by decide +kernel)),
      by decide +kernel, by decide +kernel, (Option.some_get _).symm, by decide +kernel, by decide +kernel,
      by decide +kernel, by decide +kernel, by decide +kernel⟩,
    ⟨withPort port, 0, 0, 0, by decide +kernel⟩,
    ⟨withPort ({ port with replay := (0, [], 0) :: [] }), 0, 0, { port with replay := (0, [], 0) :: [] }, (0, [], 0), [],
      by decide +kernel⟩,
    ⟨base, 0, none, [], by decide +kernel⟩,
    ⟨base, 0, none, recordBytes 0x22 0 2 0 0 2 (List.replicate 4 0#8), ((lessHop (recordBytes 0x22 0 2 0 0 2
      (List.replicate 4 0#8))).get (by decide +kernel)), 3, by decide +kernel⟩,
    ⟨withPort ({ port with state := .up, cal := none }), 0, 0, { port with state := .up, cal := none }, 0,
      by decide +kernel⟩⟩

theorem witness_Flows :
    (∃ (s : State) (d : DieId) (port : Fin 16) (r : OpenRec) (l : Nat), r.idx < r.hops ∧ (s.port d (routeNibble r.route
      r.idx)).freeLabel = some l ∧ (s.port d (routeNibble r.route r.idx)).state = .up) ∧
    (∃ (s : State) (d : DieId) (port : Fin 16) (r : OpenRec), r.hops ≤ r.idx ∧ r.group = s.groupNo d ∧ ((s.die
      d).fab.rx.find? fun f => f.fits port.val r.tenant r.id r.source) = none ∧ (s.die d).fab.pendOpen.length < 1024) ∧
    (∃ (s : State) (d : DieId) (port : Fin 16) (label : Nat) (t : Nat) (r : RxFlow), (s.die d).fab.transitAt port.val label
      = none ∧ (s.die d).fab.rxAt port.val label = some r ∧ r.tenant = t) ∧
    (∃ (s : State) (d : DieId) (t : Nat) (id : Nat) (cause : Nat), (∃ f ∈ (s.die d).fab.tx, f.is t id = true)) ∧
    (∃ (s : State) (d : DieId) (t : Nat) (ids : List Nat), s.identity d ∈ ids) :=
  ⟨⟨withPort port, 0, 0,
      { group := 0, tenant := 0, hops := 1, idx := 0, id := 0, source := 0, dest := 0, route := 0, label := 0 }, 0,
      by decide +kernel⟩,
    ⟨base, 0, 0,
      { group := base.groupNo 0, tenant := 0, hops := 0, idx := 0, id := 0, source := 0, dest := 0, route := 0, label := 0 }, by decide +kernel⟩,
    ⟨(base).modDie 0 fun x =>
      { x with fab.rx := [{ tenant := 0, handle := 0, pos := 0, id := 0, peer := 0, port := 0, allot := 0, label := some 0 }] }, 0, 0, 0, 0, { tenant := 0, handle := 0, pos := 0, id := 0, peer := 0, port := 0, allot := 0, label := some 0 }, by decide +kernel⟩,
    ⟨(base).modDie 0 fun x =>
      { x with fab.tx := [{ tenant := 0, handle := 0, pos := 0, id := 0, peer := 0, port := 0, space := 1024, label := 0 }] }, 0, 0, 0, 0, by decide +kernel⟩,
    ⟨base, 0, 0, [base.identity 0], by decide +kernel⟩⟩

theorem witness_ScoutBanks :
    (∃ (s : State) (d : DieId) (b : Fin 8) (k : Bank) (change : List Int), (s.die d).sct.banks[b.val]? = some k) ∧
    (∃ (s : State) (d : DieId) (b : Fin 8) (k : Bank) (change : List Int), (s.die d).sct.banks[b.val]? = some k ∧ k.window
      = false ∧ k.state = .free ∧ k.failPending = false) ∧
    (∃ (s : State) (d : DieId) (b : Fin 8) (k : Bank) (dbm : Int), (s.die d).sct.banks[b.val]? = some k ∧ (¬
      1200 < ({ k with tap := dbm } : Bank).loss d b.val)) ∧
    (∃ (s : State) (d : DieId) (b : Fin 8) (k : Bank) (d0 : List Nat) (gain : List Nat), (s.die d).sct.banks[b.val]? = some
      k ∧ k.state = .free ∧ (s.die d).svc.holding = none) ∧
    (∃ (s : State) (m : MasterId) (d : DieId) (v : Nat), GateTakes m ⟨0x3100, 0xA, d.val⟩ (leBytes 1 v) s) ∧
    (∃ (s : State) (d : DieId) (d0 : List (List Nat)) (gain : List (List Nat)), (s.die d).svc.state = .starting ∧ (s.die
      d).rails.vhtr = true ∧ (s.die d).sct.tablesBuilt = false) :=
  ⟨⟨base, 0, 0, {}, [], by decide +kernel⟩,
    ⟨(base).modDie 0 fun x => { x with sct.banks := [{ state := .free }] }, 0, 0, { state := .free }, [],
      by decide +kernel⟩,
    ⟨(base).modDie 0 fun x => { x with sct.banks := [{}] }, 0, 0, {}, (Config.tapNominal 0 0).toInt, by decide +kernel,
      by simp [Bank.loss]⟩,
    ⟨(base).modDie 0 fun x => { x with svc.holding := none, sct.banks := [{ state := .free }] }, 0, 0, { state := .free },
      [], [], by decide +kernel⟩,
    ⟨base, 1, 0, 1, ⟨rfl, rfl, rfl, by decide +kernel, by decide +kernel⟩⟩,
    ⟨(base).modDie 0 fun x => { x with svc.state := .starting, rails.vhtr := true, sct.tablesBuilt := false }, 0, [], [],
      by decide +kernel⟩⟩

theorem witness_ClockWrites :
    (∃ (s : State) (m : MasterId) (d : DieId) (v : Nat) (r : RefIn), GateTakes m ⟨0x5000, 1, d.val⟩ (leBytes 1 v) s ∧ v < 2
      ∧ r = (if v = 0 then .xa else .xb)) ∧
    (∃ (s : State) (m : MasterId) (d : DieId) (v : Nat), GateTakes m ⟨0x5000, 5, d.val⟩ (leBytes 4 v) s ∧ v < 2 ^ 32) ∧
    (∃ (s : State) (m : MasterId) (d : DieId) (sub : Nat) (v : Nat) (src : Nat) (k : Nat), GateTakes m ⟨0x5000, sub, d.val⟩
      (leBytes 1 v) s ∧ (sub = 6 ∨ sub = 7) ∧ v < 256 ∧ src = (if sub = 6 then v else (s.die d).clk.monSrc) ∧ k = (if sub =
      6 then (s.die d).clk.monK else v)) ∧
    (∃ (s : State) (m : MasterId) (d : DieId) (v : Nat), GateTakes m ⟨0x5000, 8, d.val⟩ (leBytes 1 v) s ∧ v < 2) :=
  ⟨⟨base, 1, 0, 1, .xb, ⟨rfl, rfl, rfl, by decide +kernel, by decide +kernel⟩, by decide +kernel, by decide +kernel⟩,
    ⟨base, 1, 0, 0xFFFF, ⟨rfl, rfl, rfl, by decide +kernel, by decide +kernel⟩, by decide +kernel⟩,
    ⟨base, 1, 0, 6, 0, 0, (base.die 0).clk.monK, ⟨rfl, rfl, rfl, by decide +kernel, by decide +kernel⟩, by decide +kernel,
      by decide +kernel, by decide +kernel, by decide +kernel⟩,
    ⟨base, 1, 0, 1, ⟨rfl, rfl, rfl, by decide +kernel, by decide +kernel⟩, by decide +kernel⟩⟩

theorem witness_ResetFrostAndPowerCommands :
    (∃ (s : State) (m : MasterId) (v : Nat), GateTakes m ⟨0x1500, 7, 0xF⟩ (leBytes 1 v) s ∧ s.tray.hold.onHoldup = false) ∧
    (∃ (s : State) (m : MasterId) (v : Nat), GateTakes m ⟨0x1500, 7, 0xF⟩ (leBytes 1 v) s ∧ s.tray.hold.onHoldup = true ∧
      s.tray.hold.saving = true ∧ s.tray.fw.resetDue = false) ∧
    (∃ (s : State) (m : MasterId) (d : DieId) (v : Nat), GateTakes m ⟨0x6000, 0xB, d.val⟩ (leBytes 1 v) s) ∧
    (∃ (s : State) (m : MasterId) (d : DieId) (v : Nat), GateTakes m ⟨0x6000, 0xA, d.val⟩ (leBytes 1 v) s) ∧
    (∃ (s : State) (m : MasterId) (d : DieId) (v : Nat), GateTakes m ⟨0x7000, 1, d.val⟩ (leBytes 1 v) s ∧ (s.die
      d).svc.state = .running ∧ (s.die d).frost.state = .running) ∧
    (∃ (s : State) (m : MasterId) (v : Nat), GateTakes m ⟨0x1400, 0x10, 0xF⟩ (leBytes 1 v) s) ∧
    (∃ (s : State) (m : MasterId) (d : DieId) (v : Nat), GateTakes m ⟨0x7000, 2, d.val⟩ (leBytes 1 v) s ∧
      (s.tray.hold.onHoldup = true → (s.die d).frost.cause ≠ .holdup) ∧ (s.die d).svc.state ≠ .flowHalt) ∧
    (∃ (s : State) (m : MasterId) (v : Nat), GateTakes m ⟨0x1400, 0x11, 0xF⟩ (leBytes 1 v) s ∧ s.tray.hold.onHoldup =
      false) ∧
    (∃ (s : State) (m : MasterId) (v : Nat), GateTakes m ⟨0x1400, 0xC, 0xF⟩ (leBytes 1 v) s) ∧
    (∃ (s : State) (m : MasterId) (v : Nat), GateTakes m ⟨0x1200, 0x10, 0xF⟩ (leBytes 1 v) s) :=
  ⟨⟨(base).modTray fun y => { y with hold.onHoldup := false }, 1, 1, ⟨rfl, rfl, rfl, by decide +kernel, by decide +kernel⟩,
      by decide +kernel⟩,
    ⟨(base).modTray fun y => { y with hold.onHoldup := true, hold.saving := true, fw.resetDue := false }, 1, 1, ⟨rfl, rfl,
      rfl, by decide +kernel, by decide +kernel⟩, by decide +kernel, by decide +kernel, by decide +kernel⟩,
    ⟨base, 1, 0, 1, ⟨rfl, rfl, rfl, by decide +kernel, by decide +kernel⟩⟩,
    ⟨base, 1, 0, 1, ⟨rfl, rfl, rfl, by decide +kernel, by decide +kernel⟩⟩,
    ⟨(base).modDie 0 fun x => { x with svc.state := .running, frost.state := .running }, 1, 0, 1, ⟨rfl, rfl, rfl,
      by decide +kernel, by decide +kernel⟩, by decide +kernel, by decide +kernel⟩,
    ⟨base, 1, 1, ⟨rfl, rfl, rfl, by decide +kernel, by decide +kernel⟩⟩,
    ⟨base, 1, 0, 1, ⟨rfl, rfl, rfl, by decide +kernel, by decide +kernel⟩, by decide +kernel, by decide +kernel⟩,
    ⟨(base).modTray fun y => { y with hold.onHoldup := false }, 1, 1, ⟨rfl, rfl, rfl, by decide +kernel,
      by decide +kernel⟩, by decide +kernel⟩,
    ⟨base, 1, 1, ⟨rfl, rfl, rfl, by decide +kernel, by decide +kernel⟩⟩,
    ⟨base, 1, 1, ⟨rfl, rfl, rfl, by decide +kernel, by decide +kernel⟩⟩⟩

theorem witness_ImageDelivery :
    (∃ (s : State) (m : MasterId) (v : Nat), GateTakes m ⟨0x1600, 1, 0xF⟩ (leBytes 2 v) s ∧ v < 65536) ∧
    (∃ (s : State) (m : MasterId) (v : List Byte), GateTakes m ⟨0x1600, 2, 0xF⟩ v s) ∧
    (∃ (s : State) (m : MasterId) (v : Nat), GateTakes m ⟨0x1600, 3, 0xF⟩ (leBytes 4 v) s ∧ v < 2 ^ 32 ∧ s.tray.fw.status ≠
      4 ∧ s.tray.fw.rollBack = false) ∧
    (∃ (s : State) (r : StageResult), s.tray.fw.status = 2) ∧
    (∃ (f : Firmware) (r : StageResult), f.stageCode r = 0) ∧
    (∃ (s : State) (m : MasterId) (v : Nat), GateTakes m ⟨0x1600, 4, 0xF⟩ (leBytes 1 v) s ∧ s.tray.fw.slot
      s.tray.fw.freeSlot = .staged ∧ s.tray.fw.trayReady = true ∧ s.tray.fw.status ≠ 4 ∧ s.tray.fw.rollBack = false ∧ (∀ d,
      (s.die d).svc.holding = none)) ∧
    (∃ (s : State) (m : MasterId) (v : Nat), GateTakes m ⟨0x1600, 4, 0xF⟩ (leBytes 1 v) s ∧ (s.tray.fw.slot
      s.tray.fw.freeSlot ≠ .staged ∨ s.tray.fw.trayReady = false ∨ s.tray.fw.status = 4 ∨ s.tray.fw.rollBack = true ∨ (∃ d,
      (s.die d).svc.holding.isSome = true))) :=
  ⟨⟨base, 1, 0, ⟨rfl, rfl, rfl, by decide +kernel, by decide +kernel⟩, by decide +kernel⟩,
    ⟨base, 1, (List.replicate 65536 0#8), ⟨rfl, rfl, rfl, by decide +kernel, by decide +kernel⟩⟩,
    ⟨(base).modTray fun y => { y with fw.rollBack := false }, 1, 65536, ⟨rfl, rfl, rfl, by decide +kernel,
      by decide +kernel⟩, by decide +kernel, by decide +kernel, by decide +kernel⟩,
    ⟨(base).modTray fun y => { y with fw.status := 2 }, ⟨true, true, 0, 0, 0, 0, []⟩, by decide +kernel⟩,
    ⟨{ stageLen := 0 }, ⟨true, true, 0, 0, 0, 0, []⟩, by decide +kernel⟩,
    ⟨(base).modTray fun y => { y with fw.trayReady := true, fw.rollBack := false, fw.slotB := .staged }, 1, 1, ⟨rfl, rfl,
      rfl, by decide +kernel, by decide +kernel⟩, by decide +kernel, by decide +kernel, by decide +kernel,
      by decide +kernel, by decide +kernel⟩,
    ⟨base, 1, 1, ⟨rfl, rfl, rfl, by decide +kernel, by decide +kernel⟩, by decide +kernel⟩⟩

theorem witness_LegendWritesAndCommit :
    (∃ (s : State) (m : MasterId) (w : GateOp), GateTakes m ⟨w.idx, w.sub, w.sel⟩ w.value s) ∧
    (∃ (s : State) (m : MasterId) (n : MasterId) (v : List Byte) (v2 : List Byte), m ≠ n ∧ GateTakes m ⟨0x1400, 1, 0xF⟩ v s
      ∧ s.atTick.writeCheck n ⟨0x1400, 1, 0xF⟩ v2 = none ∧ s.tray.fw.resetDue = false ∧ s.tray.hold.onHoldup = false) ∧
    (∃ (s : State), s.tray.fw.running = true ∧ s.tray.fw.restarting = false) ∧
    (∃ (s : State), s.tray.fw.running = true ∧ s.tray.fw.restarting = false) :=
  ⟨⟨base, 1, ⟨0x1400, 1, 0xF, leBytes 2 (base.setting 0x1400 1 0xF)⟩, ⟨rfl, rfl, rfl, by decide +kernel,
      by decide +kernel⟩⟩,
    ⟨(base).modTray fun y => { y with fw.resetDue := false }, 1, 2, (leBytes 2 (base.setting 0x1400 1 0xF)), (leBytes 2
      (base.setting 0x1400 1 0xF)), by decide +kernel, ⟨rfl, rfl, rfl, by decide +kernel, by decide +kernel⟩,
      by decide +kernel, by decide +kernel, by decide +kernel⟩,
    ⟨(base).modTray fun y => { y with fw.running := true, fw.restarting := false }, by decide +kernel⟩,
    ⟨(base).modTray fun y => { y with fw.running := true, fw.restarting := false }, by decide +kernel⟩⟩

theorem witness_PasswordsAndSessions :
    (∃ (s : State) (m : MasterId) (v : List Byte), GateTakes m ⟨0x1100, 5, 0xF⟩ v s ∧ (s.tray.leg.password = none →
      s.bySignature m = true)) ∧
    (∃ (s : State) (m : MasterId) (v : List Byte), GateTakes m ⟨0x1100, 5, 0xF⟩ v s ∧ s.tray.leg.password = none ∧
      s.bySignature m = false) ∧
    (∃ (s : State) (m : MasterId) (v : List Byte), GateTakes m ⟨0x1100, 7, 0xF⟩ v s ∧ (s.tray.leg.unlockKey.isSome = true →
      s.bySignature m = true)) ∧
    (∃ (s : State) (e : Ns), s.tray.leg.lockoutEnd = some e) ∧
    (∃ (s : State) (m : MasterId) (e : Session), (s.master m).session = some e) ∧
    (∃ (s : State) (m : MasterId) (v : Nat), GateTakes m ⟨0x1100, 0xC, 0xF⟩ (leBytes 1 v) s) ∧
    (∃ (s : State) (m : MasterId) (v : List Byte), GateTakes m ⟨0x1000, 0x10, 0xF⟩ v s ∧ (((chunksOf 2 v).map leNat).filter
      fun e => e != 0xFFFF).Nodup) :=
  ⟨⟨base, 1, (List.replicate 8 0x61#8), ⟨rfl, rfl, rfl, by decide +kernel, by decide +kernel⟩, by decide +kernel⟩,
    ⟨{ base with masters := Vector.replicate 4 { session := some ⟨true, 0, [], []⟩ } }, 1, (List.replicate 8 0x61#8), ⟨rfl,
      rfl, rfl, by decide +kernel, by decide +kernel⟩, by decide +kernel, by decide +kernel⟩,
    ⟨base, 1, (List.replicate 97 0#8), ⟨rfl, rfl, rfl, by decide +kernel, by decide +kernel⟩, by decide +kernel⟩,
    ⟨(base).modTray fun y => { y with leg.lockoutEnd := some 0 }, 0, by decide +kernel⟩,
    ⟨base, 1, ⟨false, 10 ^ 12, [], []⟩, by decide +kernel⟩,
    ⟨base, 1, 1, ⟨rfl, rfl, rfl, by decide +kernel, by decide +kernel⟩⟩,
    ⟨base, 1, (List.replicate 2048 0xFF#8), ⟨rfl, rfl, rfl, by decide +kernel, map_ones_check _ rfl⟩, ones_distinct _ rfl⟩⟩

theorem witness_LapServices :
    (∃ (s : State) (m : MasterId) (g : Datagram) (f : List Byte) (v : List Byte), Carries g f ∧ NewRequest m f s ∧ fService
      f = 0x01 ∧ (s.accepted m g).readObj m (fKey f) = .ok v ∧ v.length ≤ 1312) ∧
    (∃ (s : State) (m : MasterId) (g : Datagram) (f : List Byte) (v : List Byte), Carries g f ∧ NewRequest m f s ∧ fService
      f = 0x01 ∧ (s.accepted m g).readObj m (fKey f) = .ok v ∧ v.length ≤ 1312 ∧ s.peerOf m (fSeq f) =
      none) ∧
    (∃ (s : State) (m : MasterId) (g : Datagram) (f : List Byte) (v : List Byte), Carries g f ∧ NewRequest m f s ∧ fService
      f = 0x01 ∧ (s.accepted m g).readObj m (fKey f) = .ok v ∧ 1312 < v.length) ∧
    (∃ (s : State) (m : MasterId) (g : Datagram) (f : List Byte) (c : Nat), Carries g f ∧ NewRequest m f s ∧ fService f =
      0x01 ∧ (s.accepted m g).readObj m (fKey f) = .error c) ∧
    (∃ (s : State) (m : MasterId) (g : Datagram) (f : List Byte) (v : List Byte), Carries g f ∧ NewRequest m f s ∧ fService
      f = 0x03 ∧ (s.accepted m g).readObj m (fKey f) = .ok v ∧ fField f 16 4 = 0 ∧ 0 < fField f 20 2 ∧ fField f 20 2 ≤ 1024
      ∧ fField f 20 2 ≤ v.length) ∧
    (∃ (s : State) (m : MasterId) (g : Datagram) (f : List Byte), Carries g f ∧ NewRequest m f s ∧ fService f = 0x04 ∧
      (s.accepted m g).segmentCheck m (fKey f) = none ∧ fField f 16 4 ≤ 65536 ∧ fField f 20 4 = 0 ∧ ((fBody f).drop
      8).length = 1024 ∧ 1024 < fField f 16 4) ∧
    (∃ (s : State) (m : MasterId) (g : Datagram) (f : List Byte) (o : Obj), Carries g f ∧ NewRequest m f s ∧ fService f =
      0x02 ∧ objOf (fKey f) = some o ∧ o.access ≠ .cmd) ∧
    (∃ (s : State) (m : MasterId) (g : Datagram) (f : List Byte) (o : Obj), Carries g f ∧ NewRequest m f s ∧ fService f =
      0x02 ∧ objOf (fKey f) = some o ∧ o.access = .cmd) ∧
    (∃ (s : State) (m : MasterId) (g : Datagram) (f : List Byte) (o : Obj), Carries g f ∧ NewRequest m f s ∧ fService f =
      0x05 ∧ objOf (fKey f) = some o ∧ o.access = .cmd) ∧
    (∃ (s : State) (m : MasterId) (g : Datagram) (f : List Byte), Carries g f ∧ NewRequest m f s ∧ knownService (fService
      f) = false) ∧
    (∃ (s : State) (m : MasterId) (g : Datagram), m ≠ 3 ∧ g.taken = false ∧ s.tray.fw.resetDue = false) :=
  ⟨⟨open_, 1, udp (frame 1 ⟨0x1400, 1, 0xF⟩ ([])), frame 1 ⟨0x1400, 1, 0xF⟩ ([]), (leBytes 2 (open_.setting 0x1400 1 0xF)),
      ⟨by decide +kernel, rfl⟩, ⟨by decide, rfl, rfl, by decide +kernel, by decide +kernel, by decide +kernel,
      by decide +kernel⟩, by decide +kernel, rfl, by decide +kernel⟩,
    ⟨open_, 1, udp (frame 1 ⟨0x1400, 1, 0xF⟩ ([])), frame 1 ⟨0x1400, 1, 0xF⟩ ([]), (leBytes 2 (open_.setting 0x1400 1 0xF)),
      ⟨by decide +kernel, rfl⟩, ⟨by decide, rfl, rfl, by decide +kernel, by decide +kernel, by decide +kernel,
      by decide +kernel⟩, by decide +kernel, rfl, by decide +kernel, by decide +kernel⟩,
    ⟨open_, 1, udp (frame 1 ⟨0x2700, 2, 0⟩ ([])), frame 1 ⟨0x2700, 2, 0⟩ ([]), _, ⟨by decide +kernel, rfl⟩, ⟨by decide,
      rfl, rfl, by decide +kernel, by decide +kernel, by decide +kernel, by decide +kernel⟩, by decide +kernel, rfl,
      by decide +kernel⟩,
    ⟨open_, 1, udp (frame 1 ⟨0x1F00, 1, 0xF⟩ ([])), frame 1 ⟨0x1F00, 1, 0xF⟩ ([]), rcNoSuchItem, ⟨by decide +kernel, rfl⟩,
      ⟨by decide, rfl, rfl, by decide +kernel, by decide +kernel, by decide +kernel, by decide +kernel⟩, by decide +kernel,
      rfl⟩,
    ⟨open_, 1, udp (frame 3 ⟨0x1400, 1, 0xF⟩ (leBytes 4 0 ++ leBytes 2 2 ++ [0#8, 0#8])), frame 3 ⟨0x1400, 1, 0xF⟩ (leBytes
      4 0 ++ leBytes 2 2 ++ [0#8, 0#8]), (leBytes 2 (open_.setting 0x1400 1 0xF)), ⟨by decide +kernel, rfl⟩, ⟨by decide,
      rfl, rfl, by decide +kernel, by decide +kernel, by decide +kernel, by decide +kernel⟩, by decide +kernel, rfl,
      by decide +kernel, by decide +kernel, by decide +kernel, by decide +kernel⟩,
    ⟨open_, 1, udp (frame 4 ⟨0x1400, 1, 0xF⟩ (leBytes 4 2048 ++ leBytes 4 0 ++ List.replicate 1024 0#8)), frame 4 ⟨0x1400,
      1, 0xF⟩ (leBytes 4 2048 ++ leBytes 4 0 ++ List.replicate 1024 0#8), ⟨by decide +kernel, rfl⟩, ⟨by decide, rfl, rfl,
      by decide +kernel, by decide +kernel, by decide +kernel, by decide +kernel⟩, by decide +kernel, by decide +kernel,
      by decide +kernel, by decide +kernel, by decide +kernel, by decide +kernel⟩,
    ⟨open_, 1, udp (frame 2 ⟨0x1400, 1, 0xF⟩ ([0#8, 0#8])), frame 2 ⟨0x1400, 1, 0xF⟩ ([0#8, 0#8]), ((objOf ⟨0x1400, 1,
      0xF⟩).get (by decide +kernel)), ⟨by decide +kernel, rfl⟩, ⟨by decide, rfl, rfl, by decide +kernel, by decide +kernel,
      by decide +kernel, by decide +kernel⟩, by decide +kernel, by decide +kernel, by decide +kernel⟩,
    ⟨open_, 1, udp (frame 2 ⟨0x1400, 0xC, 0xF⟩ ([1#8])), frame 2 ⟨0x1400, 0xC, 0xF⟩ ([1#8]), ((objOf ⟨0x1400, 0xC,
      0xF⟩).get (by decide +kernel)), ⟨by decide +kernel, rfl⟩, ⟨by decide, rfl, rfl, by decide +kernel, by decide +kernel,
      by decide +kernel, by decide +kernel⟩, by decide +kernel, by decide +kernel, by decide +kernel⟩,
    ⟨open_, 1, udp (frame 5 ⟨0x1400, 0xC, 0xF⟩ ([1#8])), frame 5 ⟨0x1400, 0xC, 0xF⟩ ([1#8]), ((objOf ⟨0x1400, 0xC,
      0xF⟩).get (by decide +kernel)), ⟨by decide +kernel, rfl⟩, ⟨by decide, rfl, rfl, by decide +kernel, by decide +kernel,
      by decide +kernel, by decide +kernel⟩, by decide +kernel, by decide +kernel, by decide +kernel⟩,
    ⟨open_, 1, udp (frame 0x0C ⟨0x1400, 1, 0xF⟩ ([])), frame 0x0C ⟨0x1400, 1, 0xF⟩ ([]), ⟨by decide +kernel, rfl⟩, ⟨by
      decide, rfl, rfl, by decide +kernel, by decide +kernel, by decide +kernel, by decide +kernel⟩, by decide +kernel⟩,
    ⟨(base).modTray fun y => { y with fw.resetDue := false }, 1, { udp [] with hop := 1 }, by decide +kernel⟩⟩

theorem witness_ExpertSessions :
    (∃ (s : State) (m : MasterId) (g : Datagram) (f : List Byte), Carries g f ∧ NewRequest m f s ∧ fService f = 0x08) ∧
    (∃ (s : State) (m : MasterId) (g : Datagram) (f : List Byte) (e : Ns), Carries g f ∧ NewRequest m f s ∧ fService f =
      0x09 ∧ s.tray.leg.lockoutEnd = some e ∧ s.accNow < e ∧ fByte f 16 = 0 ∧ s.unlockBody f = none) ∧
    (∃ (s : State) (m : MasterId) (g : Datagram) (f : List Byte), Carries g f ∧ NewRequest m f s ∧ fService f = 0x09 ∧
      s.tray.leg.lockoutEnd = none ∧ s.unlockBody f = none ∧ (s.master m).nonce = none) ∧
    (∃ (s : State) (m : MasterId) (g : Datagram) (f : List Byte) (key : List Byte) (nc : Nonce), Carries g f ∧ NewRequest m
      f s ∧ fService f = 0x09 ∧ s.tray.leg.lockoutEnd = none ∧ s.unlockBody f = none ∧ (s.master m).nonce = some nc ∧
      s.tray.now ≤ nc.at_ + 60000000000 ∧ fByte f 16 = 1 ∧ s.tray.leg.unlockKey = some key) ∧
    (∃ (s : State) (m : MasterId) (g : Datagram) (f : List Byte), Carries g f ∧ NewRequest m f s ∧ fService f = 0x0A) :=
  ⟨⟨open_, 1, udp (frame 8 ⟨0x1400, 1, 0xF⟩ ([])), frame 8 ⟨0x1400, 1, 0xF⟩ ([]), ⟨by decide +kernel, rfl⟩, ⟨by decide,
      rfl, rfl, by decide +kernel, by decide +kernel, by decide +kernel, by decide +kernel⟩, by decide +kernel⟩,
    ⟨open_.modTray fun y => { y with leg.lockoutEnd := some (10 ^ 12) }, 1, udp (frame 9 ⟨0x1400, 1, 0xF⟩
      ([0#8, 1#8, 0#8, 0#8] ++ leBytes 4 60 ++ List.replicate 104 0#8 ++ [8#8] ++ List.replicate 27 0#8)), frame 9 ⟨0x1400,
      1, 0xF⟩ ([0#8, 1#8, 0#8, 0#8] ++ leBytes 4 60 ++ List.replicate 104 0#8 ++ [8#8] ++ List.replicate 27 0#8), 10 ^ 12,
      ⟨by decide +kernel, rfl⟩, ⟨by decide, rfl, rfl, by decide +kernel, by decide +kernel, by decide +kernel,
      by decide +kernel⟩, by decide +kernel, by decide +kernel, by decide +kernel, by decide +kernel, by decide +kernel⟩,
    ⟨open_, 1, udp (frame 9 ⟨0x1400, 1, 0xF⟩ ([1#8, 1#8, 0#8, 0#8] ++ leBytes 4 60 ++ List.replicate 200 0#8)), frame 9
      ⟨0x1400, 1, 0xF⟩ ([1#8, 1#8, 0#8, 0#8] ++ leBytes 4 60 ++ List.replicate 200 0#8), ⟨by decide +kernel, rfl⟩, ⟨by
      decide, rfl, rfl, by decide +kernel, by decide +kernel, by decide +kernel, by decide +kernel⟩, by decide +kernel,
      by decide +kernel, by decide +kernel, by decide +kernel⟩,
    ⟨{ open_ with masters := Vector.replicate 4 { nonce := some ⟨[], 0, 0⟩ }, tray := { open_.tray with leg.unlockKey := some [] } }, 1, udp (frame 9 ⟨0x1400, 1, 0xF⟩ ([1#8, 1#8, 0#8, 0#8] ++ leBytes 4 60 ++ List.replicate 200 0#8)), frame 9 ⟨0x1400, 1, 0xF⟩ ([1#8, 1#8, 0#8, 0#8] ++ leBytes 4 60 ++ List.replicate 200 0#8), [], ⟨[], 0, 0⟩, ⟨by decide +kernel, rfl⟩, ⟨by decide, rfl, rfl, by decide +kernel, by decide +kernel, by decide +kernel, by decide +kernel⟩, by decide +kernel, by decide +kernel, by decide +kernel, by decide +kernel, by decide +kernel, by decide +kernel, by decide +kernel⟩,
    ⟨open_, 1, udp (frame 0x0A ⟨0x1400, 1, 0xF⟩ ([])), frame 0x0A ⟨0x1400, 1, 0xF⟩ ([]), ⟨by decide +kernel, rfl⟩, ⟨by
      decide, rfl, rfl, by decide +kernel, by decide +kernel, by decide +kernel, by decide +kernel⟩, by decide +kernel⟩⟩

theorem witness_Subscriptions :
    (∃ (s : State) (m : MasterId) (g : Datagram) (f : List Byte) (o : Obj), Carries g f ∧ NewRequest m f s ∧ fService f =
      0x06 ∧ fByte f 16 = 1 ∧ objOf (fKey f) = some o ∧ (o.access = .ro ∨ o.access = .rw) ∧ o.expert = false ∧ 0 < fField f
      20 4 ∧ fField f 20 4 ≤ 10000 ∧ ((s.master m).subs.find? fun q => q.key == fKey f) = none ∧ (s.master m).subs.length <
      64) ∧
    (∃ (s : State) (m : MasterId) (no : Nat) (q : Subscription), s.sub? m no = some q) ∧
    (∃ (s : State) (m : MasterId) (no : Nat) (q : Subscription) (due : Nat) (u : State) (segs : List NotifySeg), s.sub? m
      no = some q ∧ q.period ≠ 0 ∧ s.trayAnswers = true ∧ due = q.since + 1000000 * q.period * max 1 (ceilDiv (s.tray.now -
      q.since) (1000000 * q.period)) ∧ due < q.renewed + 60000000000 ∧ u = ((s.advanceTo due).modSub m no fun q =>
      { q with since := due }).flushSegs m ∧ segs = segmentsOf q (u.sample m q.key).1 (u.sampleTime q.key) (u.sample
      m q.key).2) ∧
    (∃ (s : State) (m : MasterId) (no : Nat) (q : Subscription), s.sub? m no = some q ∧ q.period = 0 ∧ s.trayAnswers = true
      ∧ s.tray.now < q.renewed + 60000000000 ∧ q.key.stream = false ∧ q.last = some (leBytes 2 (s.sample m q.key).1 ++
      (s.sample m q.key).2)) ∧
    (∃ (s : State) (m : MasterId) (no : Nat) (q : Subscription), s.sub? m no = some q ∧ q.period = 0 ∧ s.trayAnswers = true
      ∧ s.tray.now < q.renewed + 60000000000 ∧ q.key.stream = false ∧ q.last = none) :=
  ⟨⟨open_, 1, udp (frame 6 ⟨0x1400, 1, 0xF⟩ ([1#8, 0#8, 0#8, 0#8] ++ leBytes 4 10000)), frame 6 ⟨0x1400, 1, 0xF⟩
      ([1#8, 0#8, 0#8, 0#8] ++ leBytes 4 10000), ((objOf ⟨0x1400, 1, 0xF⟩).get (by decide +kernel)), ⟨by decide +kernel,
      rfl⟩, ⟨by decide, rfl, rfl, by decide +kernel, by decide +kernel, by decide +kernel, by decide +kernel⟩,
      by decide +kernel, by decide +kernel, by decide +kernel, by decide +kernel, by decide +kernel, by decide +kernel,
      by decide +kernel, by decide +kernel, by decide +kernel⟩,
    ⟨{ base with masters := Vector.replicate 4 { subs := [{ no := 1, key := ⟨0x1400, 1, 0xF⟩, period := 0, since := 0, renewed := 0 }] } }, 1, 1, { no := 1, key := ⟨0x1400, 1, 0xF⟩, period := 0, since := 0, renewed := 0 }, by decide +kernel⟩,
    ⟨{ base with masters := Vector.replicate 4 { subs := [{ no := 1, key := ⟨0x1400, 1, 0xF⟩, period := 1, since := 0, renewed := 0 }] } }, 1, 1, { no := 1, key := ⟨0x1400, 1, 0xF⟩, period := 1, since := 0, renewed := 0 }, _, _, _, by decide +kernel, by decide +kernel, by decide +kernel, rfl, by decide +kernel, rfl, rfl⟩,
    ⟨{ base with masters := Vector.replicate 4 { subs := [{ no := 1, key := ⟨0x1400, 1, 0xF⟩, period := 0, since := 0, renewed := 0, last := some (leBytes 2 (base.sample 1 ⟨0x1400, 1, 0xF⟩).1 ++ (base.sample 1 ⟨0x1400, 1, 0xF⟩).2) }] } }, 1, 1, { no := 1, key := ⟨0x1400, 1, 0xF⟩, period := 0, since := 0, renewed := 0, last := some (leBytes 2 (base.sample 1 ⟨0x1400, 1, 0xF⟩).1 ++ (base.sample 1 ⟨0x1400, 1, 0xF⟩).2) }, by decide +kernel⟩,
    ⟨{ base with masters := Vector.replicate 4 { subs := [{ no := 1, key := ⟨0x1400, 1, 0xF⟩, period := 0, since := 0, renewed := 0 }] } }, 1, 1, { no := 1, key := ⟨0x1400, 1, 0xF⟩, period := 0, since := 0, renewed := 0 }, by decide +kernel⟩⟩

theorem witness_FieldPorts :
    (∃ (s : State) (m : MasterId), (s.master m).high.isSome = true) ∧
    (∃ (s : State) (m : MasterId) (a : ObjKey × Nat × List Byte × Ns), (s.master m).assembly = some a) ∧
    (∃ (s : State) (p : Bool) (target : Nat) (src : Nat), target ≠ s.portAddr p) ∧
    (∃ (s : State) (p : Bool) (src : Nat), s.trayAnswers = true ∧ src ≠ 0) ∧
    (∃ (s : State) (p : Bool) (src : Nat) (body : List Byte), s.trayAnswers = true) :=
  ⟨⟨{ base with masters := Vector.replicate 4 { high := some 0 } }, 1, by decide +kernel⟩,
    ⟨{ base with masters := Vector.replicate 4 { assembly := some (⟨0, 0, 0⟩, 0, [], 0) } }, 1, (⟨0, 0, 0⟩, 0, [], 0),
      by decide +kernel⟩,
    ⟨base, false, 0, 0, by decide +kernel⟩,
    ⟨base, false, 1, by decide +kernel⟩,
    ⟨base, false, 0, [], by decide +kernel⟩⟩

theorem witness_SpdmResponder :
    (∃ (s : State) (r : Responder) (msg : List Byte), 4 ≤ msg.length ∧ (msg.getD 1 0#8).toNat ∉ spdmCodes) ∧
    (∃ (s : State) (r : Responder) (msg : List Byte), 4 ≤ msg.length ∧ msg.getD 0 0#8 = 0x10#8 ∧ msg.getD 1 0#8 = 0x84#8) ∧
    (∃ (s : State) (r : Responder) (msg : List Byte), msg.length = 20 ∧ msg.getD 0 0#8 = 0x12#8 ∧ msg.getD 1 0#8 = 0xE1#8) ∧
    (∃ (s : State) (r : Responder) (msg : List Byte), msg.length = 32 ∧ msg.getD 0 0#8 = 0x12#8 ∧ msg.getD 1 0#8 = 0xE3#8 ∧
      leNat ((msg.drop 4).take 2) = 32) ∧
    (∃ (s : State) (r : Responder) (msg : List Byte), 4 ≤ msg.length ∧ msg.getD 0 0#8 = 0x12#8 ∧ msg.getD 1 0#8 = 0x81#8 ∧
      (s.spdm r).stage = 3) ∧
    (∃ (s : State) (r : Responder) (msg : List Byte), msg.length = 4 ∧ msg.getD 0 0#8 = 0x12#8 ∧ msg.getD 1 0#8 = 0xE0#8 ∧
      msg.getD 2 0#8 = 0#8 ∧ msg.getD 3 0#8 = 0#8 ∧ (s.spdm r).stage = 3) :=
  ⟨⟨base, .doe (.pf 0), [0x12#8, 0#8, 0#8, 0#8], by decide +kernel⟩,
    ⟨base, .doe (.pf 0), [0x10#8, 0x84#8, 0#8, 0#8], by decide +kernel⟩,
    ⟨base, .doe (.pf 0), [0x12#8, 0xE1#8] ++ List.replicate 18 0#8, by decide +kernel⟩,
    ⟨base, .doe (.pf 0), [0x12#8, 0xE3#8, 0#8, 0#8, 32#8] ++ List.replicate 27 0#8, by decide +kernel⟩,
    ⟨{ base with masters := Vector.replicate 4 { spdm := { stage := 3 } } }, .lap 1, [0x12#8, 0x81#8, 0#8, 0#8],
      by decide +kernel⟩,
    ⟨{ base with masters := Vector.replicate 4 { spdm := { stage := 3 } } }, .lap 1, [0x12#8, 0xE0#8, 0#8, 0#8],
      by decide +kernel⟩⟩

theorem witness_HostAccesses :
    (∃ (s : State) (p : Nat) (n : Nat) (size : Nat) (value : Nat) (entry : List Byte) (cmds : List (List Byte)) (v : VF),
      s.vf? p n = some v ∧ s.decodes (.vf p n) = true ∧ s.tray.fw.resetDue = false) ∧
    (∃ (s : State) (p : Fin 2) (i : Nat) (value : Nat) (x : MsixVec), s.decodes (.pf p.val) = true ∧ s.tray.fw.resetDue =
      false ∧ i < 2 ∧ (s.pf p).vecs[i]? = some x) ∧
    (∃ (s : State) (p : Nat) (n : Nat) (size : Nat) (value : Nat), s.decodes (.vf p n) = true ∧ size ≠ 8 ∧ 0 < size) ∧
    (∃ (s : State) (f : Fn) (v : Nat), s.decodes f = true ∧ (s.ring f).size = 0 ∧ v < 2 ^ 32 ∧ ringSizeOk v = true ∧ v ≠ 0)
      ∧
    (∃ (s : State) (f : Fn) (v : Nat), s.decodes f = true ∧ v < 2 ^ 32) ∧
    (∃ (s : State) (p : Fin 2), (s.pf p).mse = true ∧ (s.pf p).d3hot = false) ∧
    (∃ (s : State) (p : Fin 2) (n : Nat) (v : VF), (s.pf p).vfMse = true ∧ s.vf? p.val n = some v) ∧
    (∃ (s : State) (p : Nat) (n : Nat) (mse : Bool) (v : VF), s.vf? p n = some v ∧ v.inReset = false ∧ v.held = []) ∧
    (∃ (s : State) (p : Nat) (n : Nat) (mse : Bool) (v : VF), s.vf? p n = some v) ∧
    (∃ (s : State) (f : Fn) (v : Nat) (u : Ns), (s.vec f v).until_ = some u) ∧
    (∃ (s : State) (p : Fin 2) (i : Nat) (x : MsixVec), s.decodes (.pf p.val) = true ∧ (s.pf p).vecs[i]? = some x) :=
  ⟨⟨withCtx (cmd [0]) [] [], 0, 0, 0, 0, [], [], { bme := true, tenant := some 0, evSize := 16 }, by decide +kernel⟩,
    ⟨(base).modTray fun y => { y with fw.resetDue := false }, 0, 1, 0, {}, by decide +kernel⟩,
    ⟨withCtx (cmd [0]) [] [], 0, 0, 4, 0, by decide +kernel⟩,
    ⟨base, (.pf 0), 16, by decide +kernel⟩,
    ⟨base, (.pf 0), 4096, by decide +kernel⟩,
    ⟨base, 0, by decide +kernel⟩,
    ⟨withCtx (cmd [0]) [] [], 0, 0, { bme := true, tenant := some 0, evSize := 16 }, by decide +kernel⟩,
    ⟨withCtx (cmd [0]) [] [], 0, 0, false, { bme := true, tenant := some 0, evSize := 16 }, by decide +kernel⟩,
    ⟨withCtx (cmd [0]) [] [], 0, 0, false, { bme := true, tenant := some 0, evSize := 16 }, by decide +kernel⟩,
    ⟨{ base with pfs := Vector.replicate 2 { vecs := [{ until_ := some 5 }] } }, (.pf 0), 0, 5, by decide +kernel⟩,
    ⟨base, 0, 1, {}, by decide +kernel⟩⟩

theorem witness_HostLinksAndMailbox :
    (∃ (s : State) (p : Fin 2) (rates : List Nat) (widths : List Nat) (flit : Bool), s.tray.pow.busFrom.isSome = true ∧
      s.tray.pow.trayEn = true ∧ s.tray.fw.bootFailed = false ∧ s.tray.pow.down = false) ∧
    (∃ (s : State) (p : Fin 2) (idx : Nat), (s.pf p).doe.err = false) ∧
    (∃ (s : State) (p : Fin 2) (ty : Nat) (idx : Nat), (s.pf p).doe.err = false ∧ 1 < ty) ∧
    (∃ (s : State) (p : Fin 2) (v : Nat), s.decodes (.pf p.val) = true) ∧
    (∃ (s : State) (p : Fin 2) (v : Nat), (∀ q : Fin 2, s.decodes (.pf q.val) = true) ∧ v % 2 = 1 ∧ s.tray.mbox = none ∧
      (s.pf 0).link.isSome = true) ∧
    (∃ (s : State) (p : Fin 2) (len : Nat), s.decodes (.pf p.val) = true ∧ s.tray.fw.resetDue = false) ∧
    (∃ (s : State) (p : Fin 2) (len : Nat), s.decodes (.pf p.val) = true ∧ s.tray.mbox = some p ∧ (s.pf p).mboxBusy = false
      ∧ len ≤ 2048) :=
  ⟨⟨(base).modTray fun y => { y with pow.trayEn := true, fw.bootFailed := false, pow.down := false }, 0, [], [], false,
      by decide +kernel⟩,
    ⟨base, 0, 0, by decide +kernel⟩,
    ⟨base, 0, 2, 0, by decide +kernel⟩,
    ⟨base, 0, 0, by decide +kernel⟩,
    ⟨{ base with pfs := Vector.replicate 2 { link := some (64, 16, true), mse := true } }, 0, 1, by decide +kernel⟩,
    ⟨(base).modTray fun y => { y with fw.resetDue := false }, 0, 0, by decide +kernel⟩,
    ⟨(base).modTray fun y => { y with mbox := some 0 }, 0, 2048, by decide +kernel⟩⟩

theorem witness_HostResets :
    (∃ (s : State) (p : Fin 2) (n : Nat) (v : VF), s.vf? p.val n = some v ∧ v.inReset = false) ∧
    (∃ (s : State) (p : Fin 2) (n : Nat) (v : VF), s.vf? p.val n = some v ∧ v.inReset = true) ∧
    (∃ (s : State) (p : Fin 2) (num : Nat) (mse : Bool), (s.pf p).vfEnable = false) ∧
    (∃ (s : State) (p : Fin 2), (s.pf p).d3hot = true) :=
  ⟨⟨withCtx (cmd [0]) [] [], 0, 0, { bme := true, tenant := some 0, evSize := 16 }, by decide +kernel⟩,
    ⟨{ base with vfs := [((0, 0), { tenant := some 0, inReset := true })] }, 0, 0, { tenant := some 0, inReset := true },
      by decide +kernel⟩,
    ⟨base, 0, 0, false, by decide +kernel⟩,
    ⟨{ base with pfs := Vector.replicate 2 { d3hot := true } }, 0, by decide +kernel⟩⟩

theorem witness_CommandCompletion :
    (∃ (s : State) (t : Nat) (h : Nat) (q : Nat) (e : Cmd) (y : Queue), Heads s t h q 0x00 e ∧ s.queue? t h q = some y ∧
      y.cmds = [e]) ∧
    (∃ (s : State) (t : Nat) (h : Nat) (q : Nat) (e : Cmd), Heads s t h q 0x00 e) ∧
    (∃ (t : Nat) (h : Nat) (q : Nat) (op : Nat) (c : Instr), (op, c) ∈
      [(0x00, Instr.nopCommand t h q), (0x01, .bind t h q), (0x02, .unbind t h q), (0x03, .reside t h q), (0x04, .evict t h q), (0x05, .copy t h q), (0x06, .loadPlan t h q (.data [])), (0x07, .runPlan t h q), (0x08, .haltPlan t h q), (0x09, .signal t h q), (0x0A, .wait t h q), (0x0B, .query t h q), (0x0C, .scrub t h q), (0x0D, .fence t h q)]) :=
  ⟨⟨withCtx (cmd [0]) [] [], 0, 0, 0, cmd [0], queue (cmd [0]), ⟨rfl, by decide +kernel, rfl, by decide +kernel,
      by decide +kernel⟩, by decide +kernel, by decide +kernel⟩,
    ⟨withCtx (cmd [0]) [] [], 0, 0, 0, cmd [0], ⟨rfl, by decide +kernel, rfl, by decide +kernel, by decide +kernel⟩⟩,
    ⟨0, 0, 0, 0x0D, .fence 0 0 0, by decide +kernel⟩⟩

theorem witness_ContextCommands :
    (∃ (s : State) (t : Nat) (h : Nat) (q : Nat) (d : DieId) (e : Cmd), Heads s t h q 0x01 e ∧ e.byte 10 = 0 ∧ OnDie s t h
      d ∧ s.binding t h (e.fld 8 2) = none ∧ (∀ i, i < e.fld 18 2 → (s.die d).closed (e.fld 16 2 + i) = false ∧ ((s.die
      d).til.owner (e.fld 16 2 + i) = .free ∨ (s.die d).til.owner (e.fld 16 2 + i) = .held t))) ∧
    (∃ (s : State) (t : Nat) (h : Nat) (q : Nat) (d : DieId) (e : Cmd) (i : Nat) (u : Nat) (o : Nat), Heads s t h q 0x01 e
      ∧ e.byte 10 = 0 ∧ OnDie s t h d ∧ s.binding t h (e.fld 8 2) = none ∧ i < e.fld 18 2 ∧ (s.die d).til.owner (e.fld 16 2
      + i) = .owned u o) ∧
    (∃ (s : State) (t : Nat) (h : Nat) (q : Nat) (e : Cmd), Heads s t h q 0x01 e ∧ e.byte 10 = 1) ∧
    (∃ (s : State) (t : Nat) (h : Nat) (q : Nat) (o : Nat) (first : Nat) (count : Nat) (e : Cmd) (r : Nat × Nat), Heads s t
      h q 0x01 e ∧ e.byte 10 = 2 ∧ (s.ctx? t h).bind Ctx.resident = some r ∧ s.binding t h (e.fld 8 2) = some (.sram o
      first count) ∧ KV.get? (s.tenant t).shared (e.fld 12 2) = none) ∧
    (∃ (s : State) (t : Nat) (h : Nat) (q : Nat) (d : DieId) (e : Cmd) (o : Shared), Heads s t h q 0x01 e ∧ e.byte 10 = 3 ∧
      OnDie s t h d ∧ KV.get? (s.tenant t).shared (e.fld 12 2) = some o ∧ s.binding t h (e.fld 8 2) = none) ∧
    (∃ (s : State) (t : Nat) (h : Nat) (q : Nat) (e : Cmd) (r : Nat × Nat) (b : Binding), Heads s t h q 0x02 e ∧ (s.ctx? t
      h).bind Ctx.resident = some r ∧ s.binding t h (e.fld 8 2) = some b) ∧
    (∃ (s : State) (t : Nat) (h : Nat) (q : Nat) (d : DieId) (e : Cmd), Heads s t h q 0x03 e ∧ e.byte 8 = d.val ∧ (s.ctx? t
      h).bind Ctx.resident = none) ∧
    (∃ (s : State) (t : Nat) (h : Nat) (q : Nat) (e : Cmd) (r : Nat × Nat), Heads s t h q 0x03 e ∧ (s.ctx? t h).bind
      Ctx.resident = some r) ∧
    (∃ (s : State) (t : Nat) (h : Nat) (q : Nat) (d : DieId) (e : Cmd), Heads s t h q 0x04 e ∧ OnDie s t h d ∧ (∀ r ∈
      (s.die d).til.runs, ¬(r.tenant = t ∧ r.handle = h)) ∧ (∀ k, (s.die d).til.inHand t h k = 0) ∧ (∀ k c, s.headCmd t h k
      = some c → c.moving = false)) :=
  ⟨⟨(withCtx (cmd [1, 0, 0, 0, 0, 0, 0, 0, 0, 0, 0, 0, 0, 0, 0, 0, 0, 0, 1]) [] []).modDie 0 fun x =>
      { x with til.granuleBase := .free }, 0, 0, 0, 0, cmd [1, 0, 0, 0, 0, 0, 0, 0, 0, 0, 0, 0, 0, 0, 0, 0, 0, 0, 1], ⟨rfl,
      by decide +kernel, rfl, by decide +kernel, by decide +kernel⟩, by decide +kernel, ⟨⟨_, rfl, by decide +kernel⟩,
      by decide +kernel⟩, by decide +kernel, by decide +kernel⟩,
    ⟨(withCtx (cmd [1, 0, 0, 0, 0, 0, 0, 0, 0, 0, 0, 0, 0, 0, 0, 0, 0, 0, 1]) [] []).modDie 0 fun x =>
      { x with til.granuleBase := .owned 1 2 }, 0, 0, 0, 0, cmd [1, 0, 0, 0, 0, 0, 0, 0, 0, 0, 0, 0, 0, 0, 0, 0, 0, 0, 1],
      0, 1, 2, ⟨rfl, by decide +kernel, rfl, by decide +kernel, by decide +kernel⟩, by decide +kernel, ⟨⟨_, rfl,
      by decide +kernel⟩, by decide +kernel⟩, by decide +kernel, by decide +kernel, by decide +kernel⟩,
    ⟨withCtx (cmd [1, 0, 0, 0, 0, 0, 0, 0, 0, 0, 1, 0, 0, 0, 0, 0, 0, 0, 0, 0, 0, 0, 0, 0, 0, 16]) [] [], 0, 0, 0, cmd
      [1, 0, 0, 0, 0, 0, 0, 0, 0, 0, 1, 0, 0, 0, 0, 0, 0, 0, 0, 0, 0, 0, 0, 0, 0, 16], ⟨rfl, by decide +kernel, rfl,
      by decide +kernel, by decide +kernel⟩, by decide +kernel⟩,
    ⟨withCtx (cmd [1, 0, 0, 0, 0, 0, 0, 0, 0, 0, 2]) [(0, .sram 5 6 7)] [], 0, 0, 0, 5, 6, 7, cmd
      [1, 0, 0, 0, 0, 0, 0, 0, 0, 0, 2], (0, 0), ⟨rfl, by decide +kernel, rfl, by decide +kernel, by decide +kernel⟩,
      by decide +kernel, by decide +kernel, by decide +kernel, by decide +kernel⟩,
    ⟨{ withCtx (cmd [1, 0, 0, 0, 0, 0, 0, 0, 0, 0, 3]) [] [] with tenants := [(0, { shared := [(0, ⟨0, 1, 2, 3⟩)] })] }, 0,
      0, 0, 0, cmd [1, 0, 0, 0, 0, 0, 0, 0, 0, 0, 3], ⟨0, 1, 2, 3⟩, ⟨rfl, by decide +kernel, rfl, by decide +kernel,
      by decide +kernel⟩, by decide +kernel, ⟨⟨_, rfl, by decide +kernel⟩, by decide +kernel⟩, by decide +kernel,
      by decide +kernel⟩,
    ⟨withCtx (cmd [2]) [(0, .host 0 4096)] [], 0, 0, 0, cmd [2], (0, 0), .host 0 4096, ⟨rfl, by decide +kernel, rfl,
      by decide +kernel, by decide +kernel⟩, by decide +kernel, by decide +kernel⟩,
    ⟨{ base with ctxs := [((0, 0), { ctx (cmd [3]) [] [] with resident := none })] }, 0, 0, 0, 0, cmd [3], ⟨rfl,
      by decide +kernel, rfl, by decide +kernel, by decide +kernel⟩, by decide +kernel, by decide +kernel⟩,
    ⟨withCtx (cmd [3]) [] [], 0, 0, 0, cmd [3], (0, 0), ⟨rfl, by decide +kernel, rfl, by decide +kernel,
      by decide +kernel⟩, by decide +kernel⟩,
    ⟨withCtx (cmd [4]) [] [], 0, 0, 0, 0, cmd [4], ⟨rfl, by decide +kernel, rfl, by decide +kernel, by decide +kernel⟩,
      ⟨⟨_, rfl, by decide +kernel⟩, by decide +kernel⟩, by decide +kernel, fun _ => rfl, evict_still⟩⟩

theorem witness_WorkCommands :
    (∃ (s : State) (t : Nat) (h : Nat) (q : Nat) (d : DieId) (e : Cmd) (a : Binding) (b : Binding), Heads s t h q 0x05 e ∧
      e.started = none ∧ OnDie s t h d ∧ s.binding t h (e.fld 8 2) = some a ∧ s.binding t h (e.fld 10 2) = some b) ∧
    (∃ (s : State) (t : Nat) (h : Nat) (q : Nat) (o : Nat) (first : Nat) (count : Nat) (d : DieId) (e : Cmd), Heads s t h q
      0x0C e ∧ e.started = none ∧ OnDie s t h d ∧ s.binding t h (e.fld 8 2) = some (.sram o first count) ∧ e.fld 16 8 +
      e.length ≤ s.sizeOf t (.sram o first count)) ∧
    (∃ (s : State) (d : DieId) (i : Fin 8) (t : Nat) (h : Nat) (q : Nat) (k : Nat) (bytes : List Byte) (e : Cmd), (((s.die
      d).til.engines.getD i.val {}).unit = some (t, h, q, k)) ∧ (s.die d).rails.vcore = true ∧ (s.die
      d).clk.enables.getLsbD 14 = true ∧ s.headCmd t h q = some e ∧ 1 < e.units ∧ ((s.ctx? t h).map Ctx.evicting).getD
      false = false) ∧
    (∃ (s : State) (t : Nat) (h : Nat) (q : Nat) (addr : Nat) (len : Nat) (d : DieId) (e : Cmd) (bytes : List Byte), Heads
      s t h q 0x06 e ∧ OnDie s t h d ∧ s.copies d = true ∧ s.binding t h (e.fld 8 2) = some (.host addr len) ∧ (∀ r ∈
      (s.die d).til.runs, ¬(r.tenant = t ∧ r.handle = h ∧ r.slot = e.byte 10)) ∧ e.fld 16 8 + max 128 (containerOf
      bytes).len ≤ len) ∧
    (∃ (s : State) (t : Nat) (h : Nat) (q : Nat) (addr : Nat) (len : Nat) (det : Nat) (d : DieId) (e : Cmd), Heads s t h q
      0x06 e ∧ OnDie s t h d ∧ s.copies d = true ∧ s.binding t h (e.fld 8 2) = some (.host addr len) ∧ (∀ r ∈ (s.die
      d).til.runs, ¬(r.tenant = t ∧ r.handle = h ∧ r.slot = e.byte 10))) ∧
    (∃ (s : State) (t : Nat) (h : Nat) (q : Nat) (d : DieId) (e : Cmd) (y : Ctx) (p : Plan), Heads s t h q 0x07 e ∧ OnDie s
      t h d ∧ s.ctx? t h = some y ∧ KV.get? y.plans (e.byte 8) = some p ∧ (∀ r ∈ (s.die d).til.runs, r.is t h q = false) ∧
      (s.die d).mer.member = true ∧ (∀ i, i < 8 → bit p.bankMask i = true → ((s.die d).sct.banks.getD i {}).state ≠ .failed
      ∧ ((s.die d).sct.banks.getD i {}).state ≠ .gated) ∧ (s.abandonRecal d p.bankMask).mayStart d t h q p = true ∧
      (s.setting 0x1400 2 0xF ≠ 1 ∨ s.tray.hold.available = true)) ∧
    (∃ (s : State) (t : Nat) (h : Nat) (q : Nat) (d : DieId) (e : Cmd) (y : Ctx), Heads s t h q 0x07 e ∧ OnDie s t h d ∧
      s.ctx? t h = some y ∧ KV.get? y.plans (e.byte 8) = none ∧ (∀ r ∈ (s.die d).til.runs, r.is t h q = false)) ∧
    (∃ (s : State) (t : Nat) (h : Nat) (q : Nat) (d : DieId) (e : Cmd), Heads s t h q 0x08 e ∧ OnDie s t h d) ∧
    (∃ (s : State) (d : DieId) (g : Nat), (s.die d).til.owner g = .zeroing ∨ (s.die d).til.owner g = .unready ∧ (s.die
      d).rails.vcore = true ∧ g < 16384) :=
  ⟨⟨withCtx (cmd [5, 0, 0, 0, 0, 0, 0, 0, 0, 0, 1, 0, 0, 0, 0, 0, 0, 0, 0, 0, 0, 0, 0, 0, 0, 0, 0, 0, 0, 0, 0, 0, 64])
      [(0, .host 0 4096), (1, .sram 0 0 1)] [], 0, 0, 0, 0, cmd
      [5, 0, 0, 0, 0, 0, 0, 0, 0, 0, 1, 0, 0, 0, 0, 0, 0, 0, 0, 0, 0, 0, 0, 0, 0, 0, 0, 0, 0, 0, 0, 0, 64], .host 0 4096,
      .sram 0 0 1, ⟨rfl, by decide +kernel, rfl, by decide +kernel, by decide +kernel⟩, by decide +kernel, ⟨⟨_, rfl,
      by decide +kernel⟩, by decide +kernel⟩, by decide +kernel, by decide +kernel⟩,
    ⟨withCtx (cmd [12, 0, 0, 0, 0, 0, 0, 0, 0, 0, 0, 0, 0, 0, 0, 0, 0, 0, 0, 0, 0, 0, 0, 0, 0, 16]) [(0, .sram 0 0 1)] [],
      0, 0, 0, 0, 0, 1, 0, cmd [12, 0, 0, 0, 0, 0, 0, 0, 0, 0, 0, 0, 0, 0, 0, 0, 0, 0, 0, 0, 0, 0, 0, 0, 0, 16], ⟨rfl,
      by decide +kernel, rfl, by decide +kernel, by decide +kernel⟩, by decide +kernel, ⟨⟨_, rfl, by decide +kernel⟩,
      by decide +kernel⟩, by decide +kernel, by decide +kernel⟩,
    ⟨(withCtx { cmd [5] with units := 2 } [] []).modDie 0 fun x =>
      { x with til.engines := [{ unit := some (0, 0, 0, 0) }] }, 0, 0, 0, 0, 0, 0, [], { cmd [5] with units := 2 },
      by decide +kernel⟩,
    ⟨withCtx (cmd [6]) [(0, .host 0 4096)] [], 0, 0, 0, 0, 4096, 0, cmd [6], [], ⟨rfl, by decide +kernel, rfl,
      by decide +kernel, by decide +kernel⟩, ⟨⟨_, rfl, by decide +kernel⟩, by decide +kernel⟩, by decide +kernel,
      by decide +kernel, by decide +kernel, by decide +kernel⟩,
    ⟨withCtx (cmd [6]) [(0, .host 0 4096)] [], 0, 0, 0, 0, 4096, 0, 0, cmd [6], ⟨rfl, by decide +kernel, rfl,
      by decide +kernel, by decide +kernel⟩, ⟨⟨_, rfl, by decide +kernel⟩, by decide +kernel⟩, by decide +kernel,
      by decide +kernel, by decide +kernel⟩,
    ⟨withCtx (cmd [7]) [] [(0, plan ⟨0, 0x52, 0, 0⟩)], 0, 0, 0, 0, cmd [7], ctx (cmd [7]) [] [(0, plan ⟨0, 0x52, 0, 0⟩)],
      plan ⟨0, 0x52, 0, 0⟩, ⟨rfl, by decide +kernel, rfl, by decide +kernel, by decide +kernel⟩, ⟨⟨_, rfl,
      by decide +kernel⟩, by decide +kernel⟩, by decide +kernel, by decide +kernel, by decide +kernel, by decide +kernel,
      by decide +kernel, by decide +kernel, by decide +kernel⟩,
    ⟨withCtx (cmd [7]) [] [], 0, 0, 0, 0, cmd [7], ctx (cmd [7]) [] [], ⟨rfl, by decide +kernel, rfl, by decide +kernel,
      by decide +kernel⟩, ⟨⟨_, rfl, by decide +kernel⟩, by decide +kernel⟩, by decide +kernel, by decide +kernel,
      by decide +kernel⟩,
    ⟨withCtx (cmd [8]) [] [], 0, 0, 0, 0, cmd [8], ⟨rfl, by decide +kernel, rfl, by decide +kernel, by decide +kernel⟩,
      ⟨⟨_, rfl, by decide +kernel⟩, by decide +kernel⟩⟩,
    ⟨(base).modDie 0 fun x => { x with rails.vcore := true }, 0, 16383, by decide +kernel⟩⟩

theorem witness_EventCommands :
    (∃ (s : State) (t : Nat) (h : Nat) (q : Nat) (e : Cmd), Heads s t h q 0x09 e ∧ e.fld 8 2 < s.eventCount t) ∧
    (∃ (s : State) (t : Nat) (h : Nat) (q : Nat) (e : Cmd), Heads s t h q 0x09 e ∧ s.eventCount t ≤ e.fld 8 2) ∧
    (∃ (s : State) (t : Nat) (h : Nat) (q : Nat) (e : Cmd), Heads s t h q 0x0A e ∧ e.fld 8 2 < s.eventCount t) ∧
    (∃ (s : State) (t : Nat) (h : Nat) (q : Nat) (addr : Nat) (len : Nat) (e : Cmd), Heads s t h q 0x0B e ∧ s.binding t h
      (e.fld 8 2) = some (.host addr len)) ∧
    (∃ (s : State) (t : Nat) (h : Nat) (q : Nat) (e : Cmd), Heads s t h q 0x0D e ∧ e.fence = none ∧ (∀ k y, k < 8 → k ≠ q →
      bit (e.byte 8) k = true → s.queue? t h k = some y → ∀ c ∈ y.cmds, (s.tenant t).bells < c.bell)) ∧
    (∃ (s : State) (t : Nat) (h : Nat) (q : Nat) (k : Nat) (e : Cmd) (c : Cmd) (y : Queue), Heads s t h q 0x0D e ∧ e.fence
      = none ∧ k < 8 ∧ k ≠ q ∧ bit (e.byte 8) k = true ∧ s.queue? t h k = some y ∧ c ∈ y.cmds ∧ c.bell ≤ (s.tenant
      t).bells) ∧
    (∃ (s : State) (t : Nat) (h : Nat) (q : Nat) (e : Cmd) (y : Queue) (w : Ns), s.headCmd t h q = some e ∧ s.queue? t h q
      = some y ∧ e.waitFrom = some w ∧ e.horizonEnds = true ∧ (∀ d, s.waitDie t h e = some d → (s.die d).frost.state ≠
      .frozen)) :=
  ⟨⟨withCtx (cmd [9]) [] [], 0, 0, 0, cmd [9], ⟨rfl, by decide +kernel, rfl, by decide +kernel, by decide +kernel⟩,
      by decide +kernel⟩,
    ⟨withCtx (cmd [9, 0, 0, 0, 0, 0, 0, 0, 16]) [] [], 0, 0, 0, cmd [9, 0, 0, 0, 0, 0, 0, 0, 16], ⟨rfl, by decide +kernel,
      rfl, by decide +kernel, by decide +kernel⟩, by decide +kernel⟩,
    ⟨withCtx (cmd [10]) [] [], 0, 0, 0, cmd [10], ⟨rfl, by decide +kernel, rfl, by decide +kernel, by decide +kernel⟩,
      by decide +kernel⟩,
    ⟨withCtx (cmd [11]) [(0, .host 0 4096)] [], 0, 0, 0, 0, 4096, cmd [11], ⟨rfl, by decide +kernel, rfl,
      by decide +kernel, by decide +kernel⟩, by decide +kernel⟩,
    ⟨withCtx (cmd [13]) [] [], 0, 0, 0, cmd [13], ⟨rfl, by decide +kernel, rfl, by decide +kernel, by decide +kernel⟩,
      by decide +kernel, by intro k y _ _ h; revert h; simp [cmd, Cmd.byte, bit]⟩,
    ⟨{ base with ctxs := [((0, 0), { ctx (cmd [13, 0, 0, 0, 0, 0, 0, 0, 2]) [] [] with queues := [some (queue (cmd [13, 0, 0, 0, 0, 0, 0, 0, 2])), some (queue (cmd [0]))] })], tenants := [(0, { bells := 1 })] }, 0, 0, 0, 1, cmd [13, 0, 0, 0, 0, 0, 0, 0, 2], cmd [0], queue (cmd [0]), ⟨rfl, by decide +kernel, rfl, by decide +kernel, by decide +kernel⟩, by decide +kernel, by decide +kernel, by decide +kernel, by decide +kernel, by decide +kernel, by decide +kernel, by decide +kernel⟩,
    ⟨withCtx { cmd [10] with waitFrom := some 0 } [] [], 0, 0, 0, { cmd [10] with waitFrom := some 0 }, queue
      { cmd [10] with waitFrom := some 0 }, 0, by decide +kernel⟩⟩

theorem witness_StartUp :
    (∃ (s : State) (okA : Bool) (okB : Bool) (b : Bool), s.mayBoot = true ∧ s.tray.fw.slot b = .active ∧ s.tray.fw.slot
      (!b) ≠ .active) ∧
    (∃ (s : State) (d : DieId) (g : Ns), (if loopB d then s.tray.cool.goodB else s.tray.cool.goodA) = some g ∧ (s.die
      d).svc.state = .starting ∧ (s.die d).svc.step = 6 ∧ s.tray.fw.running = true ∧ (s.die d).heat.flowLoss = .none) ∧
    (∃ (s : State) (d : DieId) (ok : Bool) (digest : List Byte), (s.die d).svc.state = .starting ∧ (s.die d).svc.step = 7 ∧
      (s.die d).rails.vio = true) ∧
    (∃ (s : State) (d : DieId) (key : List Byte) (serial : List Byte) (sig : List Byte) (m : List Byte) (chains : Bool),
      (s.die d).svc.state = .starting ∧ (s.die d).svc.fwDigest = some m ∧ 7 ≤ (s.die d).svc.step) ∧
    (∃ (s : State) (d : DieId), (s.die d).svc.govRuns = true ∧ (s.die d).svc.state = .starting ∨ (s.die d).svc.warm = true
      ∧ (s.die d).clk.xaReady = true ∨ (s.die d).clk.xbReady = true) ∧
    (∃ (s : State) (d : DieId) (failed : Nat) (tested : Nat) (detectors : Nat) (lines : List (Nat × Nat)), (s.die
      d).svc.state = .starting ∧ (s.die d).svc.govRuns = true ∧ (s.die d).rails.vcore = true ∧ (s.die d).svc.selfTested =
      false ∧ (∀ i, i < 64 → bit detectors i = true) ∧ failed = tested ||| lineFails lines) ∧
    (∃ (s : State) (d : DieId), (s.die d).svc.state = .starting) ∧
    (∃ (s : State) (d : DieId), s.readyNow d = true ∧ (s.die d).svc.state = .starting) :=
  ⟨⟨(base).modTray fun y => { y with fw.running := false }, false, false, false, by decide +kernel⟩,
    ⟨((base).modDie 0 fun x => { x with svc.state := .starting, svc.step := 6, heat.flowLoss := .none }).modTray fun y =>
      { y with fw.running := true }, 0, 0, by decide +kernel⟩,
    ⟨(base).modDie 0 fun x => { x with svc.state := .starting, svc.step := 7, rails.vio := true }, 0, false, [],
      by decide +kernel⟩,
    ⟨(base).modDie 0 fun x => { x with svc.state := .starting, svc.fwDigest := some [], svc.step := 7 }, 0, [], [], [], [],
      false, by decide +kernel⟩,
    ⟨(base).modDie 0 fun x => { x with svc.govRuns := true, svc.state := .starting }, 0, by decide +kernel⟩,
    ⟨(base).modDie 0 fun x =>
      { x with svc.state := .starting, svc.govRuns := true, rails.vcore := true, svc.selfTested := false }, 0, 0, 0, (2 ^
      64 - 1), {}, by decide +kernel⟩,
    ⟨(base).modDie 0 fun x => { x with svc.state := .starting }, 0, by decide +kernel⟩,
    ⟨(withPort port).modDie 0 fun x =>
      { x with sct.tablesBuilt := true, svc.selfTested := true, svc.govRuns := true, svc.state := .starting }, 0,
      by decide +kernel⟩⟩

theorem witness_TrayStartAndRestart :
    (∃ (s : State), s.tray.fw.trayReady = false ∧ s.tray.fw.running = true ∧ s.tray.pow.down = false ∧ (∃ d, (s.die
      d).svc.state = .running ∨ (s.die d).svc.state = .frost)) ∧
    (∃ (s : State) (v : VaultSave) (g : SavedGranule), s.tray.hold.save = some v ∧ s.tray.hold.restoring = true ∧
      v.granules = [g] ∧ (s.die (dieOf g.die)).svc.selfTested = true ∧ (s.die (dieOf g.die)).svc.heldOff = false) ∧
    (∃ (s : State), s.tray.pow.trayEn = true ∧ s.tray.pow.busFrom.isSome = true ∧ s.tray.fw.restarting = false ∧
      s.tray.fw.bootFailed = false) ∧
    (∃ (s : State), s.tray.fw.restarting = true) :=
  ⟨⟨(base).modTray fun y => { y with fw.trayReady := false, fw.running := true, pow.down := false }, by decide +kernel⟩,
    ⟨((base).modDie 0 fun x => { x with svc.selfTested := true }).modTray fun y =>
      { y with hold.save := some ⟨0, [⟨0, 0, 0, [], true⟩]⟩, hold.restoring := true }, ⟨0, [⟨0, 0, 0, [], true⟩]⟩, ⟨0, 0,
      0, [], true⟩, by decide +kernel⟩,
    ⟨(base).modTray fun y => { y with pow.trayEn := true, fw.restarting := false, fw.bootFailed := false },
      by decide +kernel⟩,
    ⟨(base).modTray fun y => { y with fw.restarting := true }, by decide +kernel⟩⟩

theorem witness_FrostEntryAndThaw :
    (∃ (s : State) (d : DieId), (s.die d).frost.state = .stopPending ∧ (∀ r ∈ (s.die d).til.runs, r.halted = true)) ∧
    (∃ (s : State) (d : DieId), (s.die d).frost.state = .entering ∧ (∀ e ∈ (s.die d).til.engines, e.unit = none) ∧ (s.die
      d).frost.thawKept = false) ∧
    (∃ (s : State) (d : DieId), (s.die d).frost.state = .stopPending ∧ (s.die d).frost.cause = .command ∧ (∃ r ∈ (s.die
      d).til.runs, r.halted = false)) ∧
    (∃ (s : State), s.tray.hold.onHoldup = true) ∧
    (∃ (s : State) (d : DieId), (s.die d).frost.state = .thawing) :=
  ⟨⟨(base).modDie 0 fun x => { x with frost.state := .stopPending }, 0, by decide +kernel⟩,
    ⟨(base).modDie 0 fun x => { x with frost.state := .entering, frost.thawKept := false }, 0, by decide +kernel⟩,
    ⟨(base).modDie 0 fun x =>
      { x with frost.state := .stopPending, frost.cause := .command, til.runs := [run ⟨0, 0x52, 0, 0⟩] }, 0,
      by decide +kernel⟩,
    ⟨(base).modTray fun y => { y with hold.onHoldup := true }, by decide +kernel⟩,
    ⟨(base).modDie 0 fun x => { x with frost.state := .thawing }, 0, by decide +kernel⟩⟩

theorem witness_HoldUpAndVault :
    (∃ (s : State) (ok : Bool) (serial : List Byte) (mv : Nat), s.tray.hold.present = false) ∧
    (∃ (s : State), s.tray.hold.present = true) ∧
    (∃ (s : State) (mv : Nat), s.tray.hold.present = true ∧ s.tray.hold.idRead = true ∧ s.tray.hold.faulted = false ∧
      s.tray.hold.onHoldup = false ∧ s.tray.hold.charging = false ∧ s.tray.pow.trayEn = true ∧ s.tray.pow.busLost = false ∧
      s.tray.pow.down = false ∧ (s.tray.hold.charged = false ∨ mv < 26400)) ∧
    (∃ (s : State) (ma : Nat), s.tray.hold.charging = true ∧ ma < 50) ∧
    (∃ (s : State) (ma : Nat), 50 ≤ ma) ∧
    (∃ (s : State) (mah : Nat) (rest0 : Nat) (rest1 : Nat), mah = capacityOf rest0 rest1 ∧ s.tray.hold.present = true ∧
      s.tray.hold.charged = true ∧ s.tray.hold.faulted = false ∧ s.tray.pow.trayEn = true ∧ s.tray.pow.busLost = false) ∧
    (∃ (s : State) (mv : Nat), 20000 ≤ mv ∧ mv ≤ 30000) ∧
    (∃ (s : State) (mv : Nat), s.tray.hold.present = true ∧ s.tray.hold.faulted = false ∧ (mv < 20000 ∨ 30000 < mv)) ∧
    (∃ (s : State), s.tray.hold.onHoldup = true ∧ s.tray.hold.saving = false) ∧
    (∃ (s : State), s.tray.hold.saving = true) ∧
    (∃ (s : State) (e : Ns), s.tray.hold.restoredEnd = some e) :=
  ⟨⟨(base).modTray fun y => { y with hold.present := false }, false, [], 0, by decide +kernel⟩,
    ⟨(base).modTray fun y => { y with hold.present := true }, by decide +kernel⟩,
    ⟨(base).modTray fun y =>
      { y with hold.present := true, hold.idRead := true, hold.faulted := false, hold.onHoldup := false, hold.charging := false, pow.trayEn := true, pow.busLost := false, pow.down := false }, 0, by decide +kernel⟩,
    ⟨(base).modTray fun y => { y with hold.charging := true }, 0, by decide +kernel⟩,
    ⟨base, 50, by decide +kernel⟩,
    ⟨(base).modTray fun y =>
      { y with hold.present := true, hold.charged := true, hold.faulted := false, pow.trayEn := true, pow.busLost := false }, _, 0, 0, rfl, by decide +kernel, by decide +kernel, by decide +kernel, by decide +kernel, by decide +kernel⟩,
    ⟨base, 20000, by decide +kernel⟩,
    ⟨(base).modTray fun y => { y with hold.present := true, hold.faulted := false }, 30001, by decide +kernel⟩,
    ⟨(base).modTray fun y => { y with hold.onHoldup := true, hold.saving := false }, by decide +kernel⟩,
    ⟨(base).modTray fun y => { y with hold.saving := true }, by decide +kernel⟩,
    ⟨(base).modTray fun y => { y with hold.restoredEnd := some 0 }, 0, by decide +kernel⟩⟩

theorem witness_Handoff :
    (∃ (s : State) (d : DieId) (t0 : Ns) (r : FirnHeader), (s.die d).svc.handoffAt = some t0 ∧ (s.die d).svc.firnTaken =
      false ∧ s.tray.now ≤ t0 + 150000 ∧ s.firnOk (some d) r = false) ∧
    (∃ (s : State) (r : FirnHeader), s.tray.fw.handoff = true ∧ s.firnOk none r = false) ∧
    (∃ (s : State) (d : DieId) (est : Nat), (s.die d).svc.holding.isSome = true) ∧
    (∃ (s : State) (d : DieId) (digest : List Byte) (t0 : Ns), (s.die d).svc.holding = some t0 ∧ (s.die d).svc.firnTaken =
      true) ∧
    (∃ (s : State) (d : DieId) (t0 : Ns), (s.die d).svc.handoffAt = some t0) ∧
    (∃ (s : State), s.tray.fw.handoff = true ∧ s.tray.fw.status = 4 ∧ s.tray.fw.resetDue = false ∧ (∀ n, (s.master n).queue
      = [])) ∧
    (∃ (s : State) (t0 : Ns), s.tray.fw.confirmFrom = some t0 ∧ s.tray.fw.status = 4 ∧ s.tray.fw.handAt = none ∧
      s.tray.fw.nextDie = none ∧ s.tray.fw.handoff = false ∧ (∀ d, (s.die d).svc.holding = none)) :=
  ⟨⟨(base).modDie 0 fun x => { x with svc.handoffAt := some 850000, svc.firnTaken := false }, 0, 850000, ⟨false, 0, 0, 0⟩,
      by decide +kernel⟩,
    ⟨(base).modTray fun y => { y with fw.handoff := true }, ⟨false, 0, 0, 0⟩, by decide +kernel⟩,
    ⟨(base).modDie 0 fun x => { x with svc.holding := some 0 }, 0, 0, by decide +kernel⟩,
    ⟨(base).modDie 0 fun x => { x with svc.holding := some 0, svc.firnTaken := true }, 0, [], 0, by decide +kernel⟩,
    ⟨(base).modDie 0 fun x => { x with svc.handoffAt := some 0 }, 0, 0, by decide +kernel⟩,
    ⟨(base).modTray fun y => { y with fw.handoff := true, fw.status := 4, fw.resetDue := false }, by decide +kernel⟩,
    ⟨(base).modTray fun y =>
      { y with fw.confirmFrom := some 0, fw.status := 4, fw.handAt := none, fw.nextDie := none, fw.handoff := false }, 0,
      by decide +kernel⟩⟩

theorem witness_RepairsAndService :
    (∃ (s : State) (r : Report) (rs : List Report), s.tray.mor.reports = r :: rs ∧ s.tray.fw.running = true ∧
      s.tray.fw.restarting = false) ∧
    (∃ (s : State) (m : MasterId) (d : DieId) (v : Nat), GateTakes m ⟨0x6000, 9, d.val⟩ (leBytes 1 v) s ∧ v < 128) ∧
    (∃ (s : State) (d : DieId) (L : Nat), ((s.die d).svc.remap.find? fun L => (s.die d).quiescent L) = some L ∧ L < 128 ∧ 8
      ≤ (s.die d).til.rowMap.length) ∧
    (∃ (s : State) (d : DieId) (L : Nat), ((s.die d).svc.remap.find? fun L => (s.die d).quiescent L) = some L) ∧
    (∃ (s : State) (d : DieId) (ring : Nat) (meas : Nat) (o : Bool), ring < 10816 ∧ (s.die d).rails.vhtr = true ∧ ((s.die
      d).fab.heater ring).isOpen = false ∧ o = heaterBad d ring ((s.die d).heaterDuty d ring) meas) ∧
    (∃ (s : State) (d : DieId), (s.die d).clk.xaReady = true ∧ (s.die d).clk.refInUse = .xb ∨ (s.die d).clk.holdover =
      true) :=
  ⟨⟨(base).modTray fun y => { y with fw.running := true, fw.restarting := false, mor.reports := [⟨0, 0, 0, 0, [], 0⟩] },
      ⟨0, 0, 0, 0, [], 0⟩, [], by decide +kernel⟩,
    ⟨base, 1, 0, 127, ⟨rfl, rfl, rfl, by decide +kernel, by decide +kernel⟩, by decide +kernel⟩,
    ⟨(base).modDie 0 fun x => { x with svc.remap := [127], til.granuleBase := .free, til.rowMap := List.replicate 8 16 },
      0, 127, by decide +kernel⟩,
    ⟨(base).modDie 0 fun x => { x with svc.remap := [127], til.granuleBase := .free }, 0, 127, by decide +kernel⟩,
    ⟨(base).modDie 0 fun x => { x with rails.vhtr := true }, 0, 10815, 0, _, by decide +kernel, by decide +kernel,
      by decide +kernel, rfl⟩,
    ⟨(base).modDie 0 fun x => { x with clk.xaReady := true, clk.refInUse := .xb }, 0, by decide +kernel⟩⟩

end Sys2Proof.Tests
end

section
/-! SUPPORT. The frames `DieSends` and `DieActs`: how they compose, and which of the other frames imply them. -/

namespace Sys2Proof
open Sys2Proof.Machine

theorem DieSends.trans {d : DieId} {s t u : State} (h : DieSends d s t) (k : DieSends d t u) : DieSends d s u := by
  refine ⟨?_, fun e he => (k.others e he).trans (h.others e he)⟩
  have a := h.rest
  have b := k.rest
  rw [b, a]

theorem DieOnly.sends {d : DieId} {s t : State} (h : DieOnly d s t) : DieSends d s t := by
  refine ⟨?_, h.others⟩
  have a := h.rest
  rw [a]

theorem DieSends.tray {d : DieId} {s t : State} (h : DieSends d s t) : t.tray = s.tray := by
  rw [h.rest]

theorem DieActs.trans {d : DieId} {s t u : State} (h : DieActs d s t) (k : DieActs d t u) : DieActs d s u := by
  refine ⟨?_, fun e he => (k.others e he).trans (h.others e he)⟩
  have a := h.rest
  have b := k.rest
  rw [b, a]

theorem DieSends.acts {d : DieId} {s t : State} (h : DieSends d s t) : DieActs d s t := by
  refine ⟨?_, h.others⟩
  have a := h.rest
  rw [a]

end Sys2Proof

namespace Sys2Proof.Machine
open Sys2Proof

theorem State.advanceTo_acts (s : State) (d : DieId) (t : Ns) : DieActs d s (s.advanceTo t) := ⟨rfl, fun _ _ => rfl⟩

theorem State.advanceIn_acts (s : State) (d : DieId) (t : Ns) : DieActs d s (s.advanceIn d t) := ⟨rfl, fun _ _ => rfl⟩

@[simp] theorem State.advanceTo_die (s : State) (t : Ns) (d : DieId) : (s.advanceTo t).die d = s.die d := rfl

@[simp] theorem State.advanceIn_die (s : State) (e : DieId) (t : Ns) (d : DieId) :
    (s.advanceIn e t).die d = s.die d := rfl

/-! ### Sending a record touches the ports of the die alone -/

/-- Nothing changed but what was sent and the fabric of die d. -/
structure PortsOnly (d : DieId) (s t : State) : Prop extends DieSends d s t where
  die : t.die d = { s.die d with fab := (t.die d).fab }

theorem PortsOnly.refl (d : DieId) (s : State) : PortsOnly d s s := ⟨⟨rfl, fun _ _ => rfl⟩, rfl⟩

theorem PortsOnly.trans {d : DieId} {s t u : State} (h : PortsOnly d s t) (k : PortsOnly d t u) : PortsOnly d s u := by
  refine ⟨h.toDieSends.trans k.toDieSends, ?_⟩
  have a := h.die
  have b := k.die
  rw [b, a]

theorem PortsOnly.ite {d : DieId} {s t u : State} {c : Prop} [Decidable c] (h : PortsOnly d s t) (k : PortsOnly d s u) :
    PortsOnly d s (if c then t else u) := by
  split
  · exact h
  · exact k

theorem PortsOnly.foldl {α : Type} {d : DieId} {f : State → α → State} (hf : ∀ u x, PortsOnly d u (f u x)) (l : List α)
    (s : State) : PortsOnly d s (l.foldl f s) := by
  induction l generalizing s with
  | nil => exact .refl d s
  | cons x xs ih => exact (hf s x).trans (ih _)

theorem PortsOnly.mer {d : DieId} {s t : State} (h : PortsOnly d s t) : (t.die d).mer = (s.die d).mer := by
  rw [h.die]

theorem PortsOnly.til {d : DieId} {s t : State} (h : PortsOnly d s t) : (t.die d).til = (s.die d).til := by
  rw [h.die]

theorem State.modFab_ports (s : State) (d : DieId) (f : Fabric → Fabric) :
    PortsOnly d s (s.modDie d fun x => { x with fab := f x.fab }) :=
  ⟨(s.modDie_only d _).sends, by rw [State.modDie_die]⟩

theorem State.emit_ports (s : State) (d : DieId) (o : Output) : PortsOnly d s (s.emit o) := ⟨⟨rfl, fun _ _ => rfl⟩, rfl⟩

theorem State.modPort_ports (s : State) (d : DieId) (p : Nat) (f : Port → Port) : PortsOnly d s (s.modPort d p f) :=
  s.modFab_ports d fun y => { y with ports := y.ports.modify p f }

theorem State.ctrlDiscard_ports (s : State) (d : DieId) : PortsOnly d s (s.ctrlDiscard d) :=
  s.modFab_ports d fun y => { y with ctrlDiscards := satAdd 32 y.ctrlDiscards 1 }

theorem State.sendFlit_ports (s : State) (d : DieId) (p ty : Nat) (last : Bool) (label tenant fseq : Nat)
    (payload : List Byte) : PortsOnly d s (s.sendFlit d p ty last label tenant fseq payload) :=
  (s.emit_ports d _).trans (State.modPort_ports ..)

theorem State.putRecord_ports (s : State) (d : DieId) (p : Nat) (bytes : List Byte) :
    PortsOnly d s (s.putRecord d p bytes) :=
  .ite (State.modPort_ports ..) (.ite (State.sendFlit_ports ..) (s.ctrlDiscard_ports d))

theorem State.sendFor_ports (s : State) (d : DieId) (ty dest src : Nat) (body : List Byte) :
    PortsOnly d s (s.sendFor d ty dest src body) :=
  .ite (s.ctrlDiscard_ports d) (State.putRecord_ports ..)

theorem State.ackRecord_ports (s : State) (d : DieId) (dst ty src epoch : Nat) :
    PortsOnly d s (s.ackRecord d dst ty src epoch) :=
  .ite (.refl d s) (State.sendFor_ports ..)

theorem State.ackUp_ports (s : State) (d : DieId) (ty src : Nat) : PortsOnly d s (s.ackUp d ty src) :=
  .foldl (fun _ _ => State.ackRecord_ports ..) _ s

theorem State.sendResult_ports (s : State) (d : DieId) (r : MResult) (src : Nat) :
    PortsOnly d s (s.sendResult d r src) := by
  refine (PortsOnly.foldl (fun u j => ?children) _ s).trans (.foldl (fun u p => ?neighbours) _ _)
  case children => exact .foldl (fun _ _ => State.sendFor_ports ..) _ u
  case neighbours =>
    cases (u.port d p).neighbour with
    | none => exact .refl d u
    | some n => exact .ite (.foldl (fun _ _ => State.putRecord_ports ..) _ u) (.refl d u)

/-! ### Holding a result -/

theorem State.modMer_only (s : State) (d : DieId) (f : Meridian → Meridian) : DieOnly d s (s.modMer d f) :=
  s.modDie_only d _

@[simp] theorem State.modMer_die (s : State) (d : DieId) (f : Meridian → Meridian) :
    (s.modMer d f).die d = { s.die d with mer := f (s.die d).mer } := State.modDie_die ..

/-- Nothing changed but the clocks, the rails and the operating point of die d. -/
structure TunesOnly (d : DieId) (s t : State) : Prop extends DieOnly d s t where
  die : t.die d = { s.die d with clk := (t.die d).clk, rails := (t.die d).rails, op := (t.die d).op }

theorem State.modClk_tunes (s : State) (d : DieId) (f : Clk → Clk) : TunesOnly d s (s.modClk d f) :=
  ⟨s.modDie_only d _, by rw [State.modClk, State.modDie_die]⟩

theorem State.moveVcore_tunes (s : State) (d : DieId) (goal : Nat) : TunesOnly d s (s.moveVcore d goal) := by
  refine ⟨s.modDie_only d _, ?_⟩
  rw [State.moveVcore, State.modDie_die]
  split
  · rfl
  split
  · rfl
  split <;> rfl

/-- Die d holds result r of die src, and neither the rest of its meridian part nor its tiles changed. -/
structure HoldsResult (d : DieId) (r : MResult) (src : Nat) (s t : State) : Prop extends DieOnly d s t where
  mer : (t.die d).mer =
    { (s.die d).mer with result := some { r with more := false }, resultFrom := src, heardResult := true }
  til : (t.die d).til = (s.die d).til

theorem HoldsResult.tunes {d : DieId} {r : MResult} {src : Nat} {s t u : State} (h : HoldsResult d r src s t)
    (k : TunesOnly d t u) : HoldsResult d r src s u :=
  ⟨h.toDieOnly.trans k.toDieOnly, by rw [k.die, ← h.mer], by rw [k.die, ← h.til]⟩

/-- The die notes the result, and then at most retunes its idle loop and moves VCORE (R192, R43, R74). -/
theorem State.holdResult_holds (s : State) (d : DieId) (r : MResult) (src : Nat) :
    HoldsResult d r src s (s.holdResult d r src) := by
  unfold State.holdResult
  extract_lets g s1 x c s2
  have noted : HoldsResult d r src s s1 :=
    ⟨s.modDie_only d _, by rw [State.modDie_die], by rw [State.modDie_die]⟩
  have retuned : HoldsResult d r src s s2 := by
    unfold s2
    split
    · exact noted
    · exact noted.tunes (State.modClk_tunes ..)
  split
  · exact noted
  · exact retuned.tunes (State.moveVcore_tunes ..)

end Sys2Proof.Machine
end

section
/-! SUPPORT. What the root hears of a proposal, and the step it forms (R190, R191). -/

namespace Sys2Proof.Machine
open Sys2Proof

/-! ### Hearing a proposal (R190) -/

@[simp] theorem Meridian.hear_ids (m : Meridian) (id code : Nat) :
    (m.hear id code).members.map Member.id = m.members.map Member.id := by
  simp only [Meridian.hear, List.map_map]
  refine List.map_congr_left fun e _ => ?_
  simp only [Function.comp_apply]
  split <;> rfl

theorem Meridian.mem_hear_heard (m : Meridian) (id code i : Nat) :
    i ∈ (m.hear id code).heard ↔ i = id ∨ i ∈ m.heard := by
  by_cases h : id ∈ m.heard <;> simp [Meridian.hear, h]
  rintro rfl
  exact h

/-- A member of which nothing was heard has the code that it proposes. -/
theorem Meridian.hear_sets_code {m : Meridian} {e : Member} {id : Nat} (code : Nat) (he : e ∈ m.members)
    (hid : e.id = id) (hc : e.code = none) : { e with code := some code } ∈ (m.hear id code).members :=
  List.mem_map.2 ⟨e, he, by simp [hid, hc]⟩

theorem Meridian.hear_keeps_member {m : Meridian} {e : Member} {id : Nat} (code : Nat) (he : e ∈ m.members)
    (hid : e.id ≠ id) : e ∈ (m.hear id code).members :=
  List.mem_map.2 ⟨e, he, by simp [hid]⟩

/-- A forwarder's count makes the root hear members of the block that it had not heard, and does nothing else. -/
theorem Meridian.hearBlock_induction {P : Meridian → Prop} (hear : ∀ m i, i ∉ m.heard → P m → P (m.hear i 0x10))
    (m : Meridian) (src heard : Nat) (h : P m) : P (m.hearBlock src heard) := by
  unfold Meridian.hearBlock
  dsimp only
  split
  · exact h
  · refine List.foldlRecOn _ _ h fun n hn i _ => ?_
    split
    · exact hn
    · next unheard => exact hear n i (by simpa using unheard) hn

theorem Meridian.hearBlock_ids (m : Meridian) (src heard : Nat) :
    (m.hearBlock src heard).members.map Member.id = m.members.map Member.id :=
  hearBlock_induction (P := fun n => n.members.map Member.id = m.members.map Member.id)
    (fun n i _ hn => (n.hear_ids i 0x10).trans hn) m src heard rfl

theorem Meridian.hearBlock_keeps_heard {m : Meridian} {i : Nat} (src heard : Nat) (h : i ∈ m.heard) :
    i ∈ (m.hearBlock src heard).heard :=
  hearBlock_induction (fun n j _ hn => (n.mem_hear_heard j 0x10 i).2 (.inr hn)) m src heard h

/-- The count of a block leaves a member that was heard as it is. -/
theorem Meridian.hearBlock_keeps_member {m : Meridian} {e : Member} (src heard : Nat) (he : e ∈ m.members)
    (h : e.id ∈ m.heard) : e ∈ (m.hearBlock src heard).members := by
  refine (hearBlock_induction (P := fun n => e ∈ n.members ∧ e.id ∈ n.heard) (fun n i hi ⟨hn, hh⟩ => ?_) m src heard
    ⟨he, h⟩).1
  have other : e.id ≠ i := fun c => hi (c ▸ hh)
  exact ⟨hear_keeps_member _ hn other, (n.mem_hear_heard i 0x10 e.id).2 (.inr hh)⟩

/-- What the root of an open epoch does with a proposal of a member that comes in time (R188, R190). -/
theorem State.takeProposal_root {s : State} {d : DieId} {src : Nat} (code heard : Nat) (urgent revised : Bool)
    (member : (s.die d).mer.member = true) (known : src ∈ (s.die d).mer.members.map Member.id)
    (root : (s.die d).mer.root = true) (isOpen : (s.die d).mer.closed = false) (inTime : s.inEpoch d ≤ 768000) :
    s.takeProposal d src (s.epoch d) code urgent revised heard =
      (s.ackUp d 0x01 src).modMer d fun m => (m.hear src code).hearBlock src heard := by
  have known' : ((s.die d).mer.members.map Member.id).contains src = true := List.contains_iff_mem.2 known
  have notLate : ¬768000 < s.inEpoch d := Nat.not_lt.2 inTime
  simp [State.takeProposal, member, known', root, isOpen, notLate, -List.contains_eq_mem]

/-! ### The step of a result (R191) -/

/-- The step that a member counts for: none when it proposed 0x10, the group step when nothing was heard of it. -/
def countedCode (g : Nat) (e : Member) : Option Nat := if e.code = some 0x10 then none else some (e.code.getD g)

/-- The step is the highest of those that count, or the group step when none does, and a raise is at most one step. -/
theorem formStep_eq (ms : List Member) (g : Nat) :
    formStep ms g = max ((ms.filterMap (countedCode g)).max?.getD g) (g - 1) := by
  have codes {f : Member → Option Nat} (h : ∀ e, f e = countedCode g e) :
      ms.filterMap f = ms.filterMap (countedCode g) := by rw [funext h]
  unfold formStep
  dsimp only
  rw [codes fun e => ?code]
  case code =>
    unfold countedCode
    rcases e.code with _ | c
    · rfl
    · by_cases h : c = 0x10 <;> simp [h]
  cases ms.filterMap (countedCode g) <;> rfl

theorem mem_countedCodes {ms : List Member} {g c : Nat} :
    c ∈ ms.filterMap (countedCode g) ↔ ∃ e ∈ ms, e.code ≠ some 0x10 ∧ e.code.getD g = c := by
  simp [countedCode]

theorem countedCode_le_formStep {ms : List Member} {g : Nat} {e : Member} (he : e ∈ ms) (hc : e.code ≠ some 0x10) :
    e.code.getD g ≤ formStep ms g := by
  have counts : e.code.getD g ∈ ms.filterMap (countedCode g) := mem_countedCodes.2 ⟨e, he, hc, rfl⟩
  rw [formStep_eq]
  cases hm : (ms.filterMap (countedCode g)).max? with
  | none => simp [List.max?_eq_none_iff.1 hm] at counts
  | some m => exact Nat.le_trans ((List.max?_eq_some_iff.1 hm).2 _ counts) (Nat.le_max_left ..)

theorem formStep_of_all_ignored {ms : List Member} {g : Nat} (h : ∀ e ∈ ms, e.code = some 0x10) :
    formStep ms g = g := by
  have none_counts : ms.filterMap (countedCode g) = [] :=
    List.filterMap_eq_nil_iff.2 fun e he => if_pos (h e he)
  simp [formStep_eq, none_counts]

theorem formStep_of_highest {ms : List Member} {g m : Nat} (hm : ∃ e ∈ ms, e.code ≠ some 0x10 ∧ e.code.getD g = m)
    (hle : ∀ e ∈ ms, e.code ≠ some 0x10 → e.code.getD g ≤ m) : formStep ms g = max m (g - 1) := by
  have highest : (ms.filterMap (countedCode g)).max? = some m := by
    refine List.max?_eq_some_iff.2 ⟨mem_countedCodes.2 hm, fun c hc => ?_⟩
    obtain ⟨e, he, hne, rfl⟩ := mem_countedCodes.1 hc
    exact hle e he hne
  rw [formStep_eq, highest, Option.getD_some]

theorem Meridian.mem_closing {m : Meridian} {e : Member} (he : e ∈ m.members) (hr : some e.id ≠ m.failedRoot)
    (hl : e.id ∉ m.leaves) : { e with missed := if e.code.isNone then e.missed + 1 else 0 } ∈ m.closing :=
  List.mem_map.2 ⟨e, he, by simp [hr, hl]⟩

end Sys2Proof.Machine
end

section
/-! SUPPORT. A record that climbs on, and the result of an epoch: formed, taken over and received (R188, R191, R192,
R194). -/

namespace Sys2Proof.Machine
open Sys2Proof

/-- Die d formed the result of its epoch from the closed proposals, and kept its roles and its tiles. -/
structure FormedResult (d : DieId) (s t : State) : Prop extends DieSends d s t where
  closed : (t.die d).mer.closed = true
  members : (t.die d).mer.members = (s.die d).mer.closing
  root : (t.die d).mer.root = (s.die d).mer.root
  standbyRoot : (t.die d).mer.standbyRoot = (s.die d).mer.standbyRoot
  result : ∃ r, (t.die d).mer.result = some r ∧ r.group = s.groupNo d ∧
    r.step = formStep (s.die d).mer.closing (s.die d).mer.groupStep
  til : (t.die d).til = (s.die d).til

theorem State.formResult_formed (s : State) (d : DieId) : FormedResult d s (s.formResult d) := by
  unfold State.formResult
  extract_lets m id ids members strays leaves joins r s1
  have sent := s1.sendResult_ports d r id
  have held := (s1.sendResult d r id).holdResult_holds d r id
  have closes : s1.die d = { s.die d with mer := (s1.die d).mer } := by simp [s1]
  have mer := held.mer
  rw [sent.mer, State.modMer_die] at mer
  exact {
    toDieSends := ((s.modMer_only d _).sends.trans sent.toDieSends).trans held.toDieOnly.sends
    closed := by rw [mer]
    members := by rw [mer]
    root := by rw [mer]
    standbyRoot := by rw [mer]
    result := ⟨r, by rw [mer], rfl, rfl⟩
    til := by rw [held.til, sent.til, closes] }

/-- Record no of those that wait goes to level l at time now (R188). -/
def Meridian.climb (m : Meridian) (no l : Nat) (now : Ns) : Meridian :=
  { m with unacked := m.unacked.map fun v => if v.no = no then { v with level := l, sentAt := now } else v }

theorem Meridian.climb_unacked {m : Meridian} {u : Sent} (waits : m.unacked = [u]) (l : Nat) (now : Ns) :
    (m.climb u.no l now).unacked = [{ u with level := l, sentAt := now }] := by
  simp [Meridian.climb, waits]

/-- The only record that waits, when another die stands one level further up: it is sent there (R188). -/
theorem execRecordAckTimeout_climbs {s : State} {d : DieId} {u : Sent} (waits : (s.die d).mer.unacked = [u])
    (other : aggregator (s.die d).mer.tree (s.identity d) (min 4 (u.level + 1)) ≠ s.identity d) :
    execRecordAckTimeout d u.no s = .next (((s.advanceTo (u.sentAt + 8000)).modMer d fun m =>
        m.climb u.no (min 4 (u.level + 1)) (s.advanceTo (u.sentAt + 8000)).tray.now).sendFor
      d u.ty (aggregator (s.die d).mer.tree (s.identity d) (min 4 (u.level + 1))) u.src u.body) := by
  simp [execRecordAckTimeout, Meridian.climb, waits, other]

/-- The result of the die's own epoch, when the die is a member with none below it and holds no result yet (R192). -/
theorem State.takeResult_leaf {s : State} {d : DieId} (src : Nat) {r : MResult} (group : r.group = s.groupNo d)
    (epoch : r.epoch = s.epoch d) (member : (s.die d).mer.member = true)
    (leaf : childrenOf (s.die d).mer (s.identity d) = []) (first : (s.die d).mer.result = none) :
    s.takeResult d src r =
      (s.modMer d fun m => { m with closed := m.closed || m.root }).holdResult d r src := by
  simp [State.takeResult, Meridian.joined, group, epoch, member, leaf, first]

theorem State.takeResult_ignored {s : State} {d : DieId} (src : Nat) {r : MResult}
    (h : r.group ≠ s.groupNo d ∨ (r.epoch ≠ s.epoch d ∧ (s.die d).mer.member = true)) : s.takeResult d src r = s := by
  unfold State.takeResult
  rcases h with group | ⟨epoch, member⟩
  · simp only [if_pos group]
  · simp [epoch, member]

theorem State.takeResult_of_other_epoch {s : State} {d : DieId} (src : Nat) {r : MResult}
    (group : r.group = s.groupNo d) (epoch : r.epoch ≠ s.epoch d) (member : (s.die d).mer.member = false) :
    s.takeResult d src r = s.modMer d fun m => { m with heardResult := true } := by
  simp [State.takeResult, group, epoch, member]

end Sys2Proof.Machine
end

section
/-! Proposals, acknowledgements and the result of an epoch. -/

namespace Sys2Proof
open Sys2Proof.Machine

theorem does_proposalReceive_root {s : State} {d : DieId} {src : Nat} (code heard : Nat) (urgent revised : Bool)
    (member : (s.die d).mer.member = true) (known : src ∈ (s.die d).mer.members.map Member.id)
    (root : (s.die d).mer.root = true) (isOpen : (s.die d).mer.closed = false) (inTime : s.inEpoch d ≤ 768000) :
    Does (.proposalReceive d src (s.epoch d) code urgent revised heard) s fun t =>
      src ∈ (t.die d).mer.heard ∧ (t.die d).til = (s.die d).til ∧
      (t.die d).mer.members.map Member.id = (s.die d).mer.members.map Member.id ∧
      (∀ e ∈ (s.die d).mer.members, e.id = src → e.code = none →
        ∃ f ∈ (t.die d).mer.members, f.id = src ∧ f.code = some code) ∧ DieActs d s t := by
  have acked := s.ackUp_ports d 0x01 src
  have hears : src ∈ ((s.die d).mer.hear src code).heard := (Meridian.mem_hear_heard ..).2 (.inl rfl)
  have taken := (s.ackUp d 0x01 src).modMer_only d fun m => (m.hear src code).hearBlock src heard
  have mer : (((s.ackUp d 0x01 src).modMer d fun m => (m.hear src code).hearBlock src heard).die d).mer =
      ((s.die d).mer.hear src code).hearBlock src heard := by
    rw [State.modMer_die, acked.mer]
  refine ⟨_, congrArg Host.Outcome.next
      (State.takeProposal_root code heard urgent revised member known root isOpen inTime),
    ?heard, by rw [State.modMer_die, acked.til], ?ids, ?code, (acked.toDieSends.trans taken.sends).acts⟩
  case heard => exact mer ▸ Meridian.hearBlock_keeps_heard _ _ hears
  case ids => rw [mer, Meridian.hearBlock_ids, Meridian.hear_ids]
  case code =>
    intro e he hid hc
    rw [mer]
    exact ⟨_, Meridian.hearBlock_keeps_member _ _ (Meridian.hear_sets_code code he hid hc) (hid ▸ hears), hid, rfl⟩

theorem does_recordAckTimeout_climbs {s : State} {d : DieId} {u : Sent} (waits : (s.die d).mer.unacked = [u])
    (other : aggregator (s.die d).mer.tree (s.identity d) (min 4 (u.level + 1)) ≠ s.identity d) :
    Does (.recordAckTimeout d u.no) s fun t =>
      (t.die d).mer.unacked = [{ u with level := min 4 (u.level + 1), sentAt := t.tray.now }] ∧
      u.sentAt + 8000 ≤ t.tray.now ∧ (t.die d).til = (s.die d).til ∧ DieActs d s t := by
  let s1 := s.advanceTo (u.sentAt + 8000)
  have climbed := s1.modMer_only d fun m => m.climb u.no (min 4 (u.level + 1)) s1.tray.now
  have sent := State.sendFor_ports (s1.modMer d fun m => m.climb u.no (min 4 (u.level + 1)) s1.tray.now) d u.ty
    (aggregator (s.die d).mer.tree (s.identity d) (min 4 (u.level + 1))) u.src u.body
  have now := congrArg Tray.now (climbed.sends.trans sent.toDieSends).tray
  refine ⟨_, execRecordAckTimeout_climbs waits other, ?_, ?_, ?_, ?_⟩
  · rw [sent.mer, State.modMer_die, now]
    exact Meridian.climb_unacked waits ..
  · rw [now]
    exact Nat.le_max_right ..
  · exact sent.til.trans (by simp [s1])
  · exact ((s.advanceTo_acts d _).trans climbed.sends.acts).trans sent.toDieSends.acts

theorem does_resultForm {s : State} {d : DieId} (root : (s.die d).mer.root = true)
    (isOpen : (s.die d).mer.closed = false) :
    Does (.resultForm d) s fun t =>
      (t.die d).mer.closed = true ∧ (t.die d).mer.root = true ∧ (t.die d).mer.members = (s.die d).mer.closing ∧
      (∃ r, (t.die d).mer.result = some r ∧ r.group = s.groupNo d ∧
        r.step = formStep (s.die d).mer.closing (s.die d).mer.groupStep) ∧
      t.tray.now = s.tray.now + (768000 - s.inEpoch d) ∧ (t.die d).til = (s.die d).til ∧ DieActs d s t := by
  have formed := (s.advanceIn d 768000).formResult_formed d
  have runs : execResultForm d s = .next ((s.advanceIn d 768000).formResult d) := by
    simp [execResultForm, root, isOpen]
  exact ⟨_, runs, formed.closed, formed.root.trans root, formed.members, formed.result,
    congrArg Tray.now formed.toDieSends.tray, formed.til, (s.advanceIn_acts d _).trans formed.toDieSends.acts⟩

theorem does_standbyRootTakeover {s : State} {d : DieId} (member : (s.die d).mer.member = true)
    (root : (s.die d).mer.root = false) (first : (s.die d).mer.result = none)
    (standby : standbyId (s.die d).mer.tree = some (s.identity d)) :
    Does (.standbyRootTakeover d) s fun t =>
      (t.die d).mer.root = false ∧ (t.die d).mer.standbyRoot = true ∧ (t.die d).mer.closed = true ∧
      (t.die d).til = (s.die d).til ∧ DieActs d s t := by
  have runs : execStandbyRootTakeover d s =
      .next (((s.advanceIn d 800000).modMer d fun m => { m with standbyRoot := true }).formResult d) := by
    simp [execStandbyRootTakeover, member, root, first, standby]
  have took := (s.advanceIn d 800000).modMer_only d fun m => { m with standbyRoot := true }
  have formed := ((s.advanceIn d 800000).modMer d fun m => { m with standbyRoot := true }).formResult_formed d
  refine ⟨_, runs, formed.root.trans (by simp [root]), formed.standbyRoot.trans (by simp), formed.closed,
    formed.til.trans (by simp), ?_⟩
  exact ((s.advanceIn_acts d _).trans took.sends.acts).trans formed.toDieSends.acts

theorem does_resultReceive_leaf {s : State} {d : DieId} (src : Nat) {r : MResult} (group : r.group = s.groupNo d)
    (epoch : r.epoch = s.epoch d) (member : (s.die d).mer.member = true)
    (leaf : childrenOf (s.die d).mer (s.identity d) = []) (first : (s.die d).mer.result = none) :
    Does (.resultReceive d src r) s fun t =>
      (t.die d).mer.result = some { r with more := false } ∧ (t.die d).mer.resultFrom = src ∧
      (t.die d).til = (s.die d).til ∧ DieActs d s t := by
  have held := (s.modMer d fun m => { m with closed := m.closed || m.root }).holdResult_holds d r src
  refine ⟨_, congrArg Host.Outcome.next (State.takeResult_leaf src group epoch member leaf first),
    by rw [held.mer], by rw [held.mer], held.til.trans (by simp), ?_⟩
  exact ((s.modMer_only d _).trans held.toDieOnly).sends.acts

/-- Settles O19: a clause each from what the root hears, the step that it forms, and what the die that forms or holds a
result keeps. -/
theorem proposalsAndResults : Obligations.ProposalsAndResults := by
  unfold Obligations.ProposalsAndResults
  refine ⟨?notMember, ?rootHears, ?climbs, ?step, ?forms, ?takesOver, ?closes, ?ignored, ?otherEpoch, ?holds⟩
  case notMember =>
    intro s d src epoch code heard urgent revised member
    exact ⟨s, congrArg Host.Outcome.next (by simp [State.takeProposal, member]), rfl⟩
  case rootHears =>
    intro s d src code heard urgent revised member known root isOpen inTime
    exact does_proposalReceive_root code heard urgent revised member known root isOpen inTime
  case climbs => exact fun _ _ _ waits other => does_recordAckTimeout_climbs waits other
  case step =>
    intro ms g
    refine ⟨?_, ?_, ?_, formStep_of_all_ignored, fun m hm hle => formStep_of_highest hm hle⟩
    · exact formStep_eq ms g ▸ Nat.le_max_right ..
    · intro e he c hc hne
      have le := countedCode_le_formStep (g := g) he (by simpa [hc] using hne)
      rwa [hc] at le
    · rintro ⟨e, he, hc⟩
      have le := countedCode_le_formStep (g := g) he (by simp [hc])
      rwa [hc] at le
  case forms => exact fun _ _ root isOpen => does_resultForm root isOpen
  case takesOver => exact fun _ _ member root first standby => does_standbyRootTakeover member root first standby
  case closes => exact fun _ _ he hr hl => Meridian.mem_closing he hr hl
  case ignored => exact fun s _ src _ h => ⟨s, congrArg Host.Outcome.next (State.takeResult_ignored src h), rfl⟩
  case otherEpoch =>
    intro s d src r group epoch member
    exact ⟨_, congrArg Host.Outcome.next (State.takeResult_of_other_epoch src group epoch member), State.modMer_die ..,
      s.modMer_only d _⟩
  case holds =>
    exact fun _ _ src _ group epoch member leaf first => does_resultReceive_leaf src group epoch member leaf first

end Sys2Proof
end

section
/-! SUPPORT. The functions of the host ports, and what their parts read back after a write. -/

namespace Sys2Proof.Machine
open Sys2Proof

/-! ### Keyed lists -/

section
variable {κ α : Type} [DecidableEq κ]

theorem KV.get?_cons (e : κ × α) (m : List (κ × α)) (j : κ) :
    KV.get? (e :: m) j = if e.1 = j then some e.2 else KV.get? m j := by
  by_cases h : e.1 = j <;> simp [KV.get?, h]

theorem KV.modify_cons (e : κ × α) (m : List (κ × α)) (k : κ) (f : α → α) :
    KV.modify (e :: m) k f = (if e.1 = k then (e.1, f e.2) else e) :: KV.modify m k f := by
  simp [KV.modify]

theorem KV.get?_modify (m : List (κ × α)) (k j : κ) (f : α → α) :
    KV.get? (KV.modify m k f) j = if j = k then (KV.get? m j).map f else KV.get? m j := by
  induction m with
  | nil => simp [KV.get?, KV.modify]
  | cons e m ih =>
    rw [KV.modify_cons, KV.get?_cons, KV.get?_cons, ih]
    by_cases same : j = k
    · by_cases found : e.1 = k <;> simp [same, found]
    · by_cases changed : e.1 = k <;> simp [same, changed, Ne.symm same]

end

/-! ### The functions of the host ports -/

@[simp] theorem portIx_val : ∀ p : Fin 2, portIx p.val = p
  | 0 => rfl
  | 1 => rfl

theorem State.modPf_only (s : State) (p : Fin 2) (f : PF → PF) : PfOnly p s (s.modPf p f) :=
  ⟨rfl, fun q hq => s.modPf_pf_ne p q f hq⟩

theorem State.vf?_modVf (s : State) (p n : Nat) (f : VF → VF) (q k : Nat) :
    (s.modVf p n f).vf? q k = if (q, k) = (p, n) then (s.vf? q k).map f else s.vf? q k :=
  KV.get?_modify ..

@[simp] theorem State.modVf_vf? (s : State) (p n : Nat) (f : VF → VF) :
    (s.modVf p n f).vf? p n = (s.vf? p n).map f := by
  rw [State.vf?_modVf, if_pos rfl]

theorem State.readable_of_decodes {s : State} {f : Fn} (h : s.decodes f = true) : s.readable f = true :=
  (Bool.and_eq_true_iff.1 h).1

/-- A virtual function that takes writes exists and is not in reset (R463). -/
theorem State.vf?_of_decodes {s : State} {p n : Nat} (h : s.decodes (.vf p n) = true) :
    ∃ v, s.vf? p n = some v ∧ v.inReset = false := by
  have live := (Bool.and_eq_true_iff.1 h).2
  cases hv : s.vf? p n with
  | none => simp [hv] at live
  | some v => exact ⟨v, rfl, by simpa [hv] using live⟩

theorem State.silent_vf {s : State} {p n : Nat} {v : VF} (hv : s.vf? p n = some v) :
    s.silent (.vf p n) = v.inReset := by
  simp only [State.vf?] at hv
  simp [State.silent, hv]

theorem State.canSend_vf {s : State} {p n : Nat} {v : VF} (hv : s.vf? p n = some v) :
    s.canSend (.vf p n) = v.bme := by
  simp only [State.vf?] at hv
  simp [State.canSend, hv]

theorem State.silent_noVf {s : State} {p n : Nat} (hv : s.vf? p n = none) : s.silent (.vf p n) = true := by
  simp only [State.vf?] at hv
  simp [State.silent, hv]

theorem State.canSend_noVf {s : State} {p n : Nat} (hv : s.vf? p n = none) : s.canSend (.vf p n) = false := by
  simp only [State.vf?] at hv
  simp [State.canSend, hv]

/-- The notice ring of a function that exists reads back what was written to it. -/
theorem State.modRing_ring {s : State} {f : Fn} (h : s.readable f = true) (g : Ring32 → Ring32) :
    (s.modRing f g).ring f = g (s.ring f) := by
  cases f with
  | pf p => simp [State.modRing, State.ring]
  | vf p n =>
    obtain ⟨v, hv⟩ := Option.isSome_iff_exists.1 (Bool.and_eq_true_iff.1 h).2
    simp only [State.vf?] at hv
    simp [State.modRing, State.ring, State.modVf, KV.get?_modify, hv]

/-- An MSI-X vector that is there reads back what was written to it. -/
theorem State.modVec_vec {s : State} {f : Fn} {v : Nat} (h : s.vec f v ≠ {}) (g : MsixVec → MsixVec) :
    (s.modVec f v g).vec f v = g (s.vec f v) := by
  have within (l : List MsixVec) (here : l.getD v {} ≠ {}) : (l.modify v g).getD v {} = g (l.getD v {}) := by
    by_cases hl : v < l.length
    · simp [List.getD_eq_getElem?_getD, hl]
    · simp [List.getD_eq_getElem?_getD, hl] at here
  cases f with
  | pf p =>
    simp only [State.modVec, State.vec, State.modPf_pf] at h ⊢
    exact within _ h
  | vf p n =>
    cases hv : KV.get? s.vfs (p, n) with
    | none => simp [State.vec, hv] at h
    | some x =>
      simp only [State.vec, hv] at h
      simp only [State.modVec, State.vec, State.modVf, KV.get?_modify, hv, if_true, Option.map_some]
      exact within _ h

end Sys2Proof.Machine
end

section
/-! SUPPORT. What telling the host changes: the functions and what was sent, nothing else (17.5, 17.6). -/

namespace Sys2Proof.Machine
open Sys2Proof

/-- The enables and the power state are as they were. -/
structure PF.Stands (x y : PF) : Prop where
  bme : y.bme = x.bme
  mse : y.mse = x.mse
  d3hot : y.d3hot = x.d3hot

/-- The enable and the reset are as they were, and the errors that x reports are reported still. -/
structure VF.Stands (x y : VF) : Prop where
  bme : y.bme = x.bme
  inReset : y.inReset = x.inReset
  errDoorbell : y.errDoorbell = x.errDoorbell
  funcError : ∀ b, x.funcError.getLsbD b = true → y.funcError.getLsbD b = true

theorem VF.Stands.refl (x : VF) : x.Stands x := ⟨rfl, rfl, rfl, fun _ => id⟩

theorem VF.Stands.trans {x y z : VF} (h : x.Stands y) (k : y.Stands z) : x.Stands z :=
  ⟨k.bme.trans h.bme, k.inReset.trans h.inReset, k.errDoorbell.trans h.errDoorbell,
    fun b hb => k.funcError b (h.funcError b hb)⟩

/-- Nothing changed but the functions and what was sent, and of the functions only what they wait for and report. -/
structure TellsHost (s t : State) : Prop where
  rest : t = { s with pfs := t.pfs, vfs := t.vfs, outputs := t.outputs }
  pf : ∀ q, (s.pf q).Stands (t.pf q)
  vf : ∀ p n x, s.vf? p n = some x → ∃ y, t.vf? p n = some y ∧ x.Stands y
  noVf : ∀ p n, s.vf? p n = none → t.vf? p n = none

theorem TellsHost.refl (s : State) : TellsHost s s :=
  ⟨rfl, fun _ => ⟨rfl, rfl, rfl⟩, fun _ _ x hx => ⟨x, hx, .refl x⟩, fun _ _ => id⟩

theorem TellsHost.trans {s t u : State} (h : TellsHost s t) (k : TellsHost t u) : TellsHost s u := by
  refine ⟨?_, fun q => ?_, fun p n x hx => ?_, fun p n hn => k.noVf p n (h.noVf p n hn)⟩
  · have a := h.rest
    have b := k.rest
    rw [b, a]
  · have a := h.pf q
    have b := k.pf q
    exact ⟨b.bme.trans a.bme, b.mse.trans a.mse, b.d3hot.trans a.d3hot⟩
  · obtain ⟨y, hy, xy⟩ := h.vf p n x hx
    obtain ⟨z, hz, yz⟩ := k.vf p n y hy
    exact ⟨z, hz, xy.trans yz⟩

theorem TellsHost.ite {s t u : State} {c : Prop} [Decidable c] (h : TellsHost s t) (k : TellsHost s u) :
    TellsHost s (if c then t else u) := by
  split
  · exact h
  · exact k

theorem TellsHost.foldl {α : Type} {f : State → α → State} (hf : ∀ u x, TellsHost u (f u x)) (l : List α) (s : State) :
    TellsHost s (l.foldl f s) := by
  induction l generalizing s with
  | nil => exact .refl s
  | cons x xs ih => exact (hf s x).trans (ih _)

theorem TellsHost.tray {s t : State} (h : TellsHost s t) : t.tray = s.tray := by rw [h.rest]
theorem TellsHost.dies {s t : State} (h : TellsHost s t) : t.dies = s.dies := by rw [h.rest]
theorem TellsHost.ctxs {s t : State} (h : TellsHost s t) : t.ctxs = s.ctxs := by rw [h.rest]
theorem TellsHost.tenants {s t : State} (h : TellsHost s t) : t.tenants = s.tenants := by rw [h.rest]

theorem TellsHost.canSend {s t : State} (h : TellsHost s t) (f : Fn) : t.canSend f = s.canSend f := by
  cases f with
  | pf p => simp only [State.canSend, (h.pf _).bme, (h.pf _).d3hot]
  | vf p n =>
    cases hs : s.vf? p n with
    | none => rw [State.canSend_noVf hs, State.canSend_noVf (h.noVf p n hs)]
    | some x =>
      obtain ⟨y, hy, xy⟩ := h.vf p n x hs
      rw [State.canSend_vf hs, State.canSend_vf hy, xy.bme]

theorem TellsHost.silent {s t : State} (h : TellsHost s t) (f : Fn) : t.silent f = s.silent f := by
  cases f with
  | pf p => rfl
  | vf p n =>
    cases hs : s.vf? p n with
    | none => rw [State.silent_noVf hs, State.silent_noVf (h.noVf p n hs)]
    | some x =>
      obtain ⟨y, hy, xy⟩ := h.vf p n x hs
      rw [State.silent_vf hs, State.silent_vf hy, xy.inReset]

theorem State.emit_tells (s : State) (o : Output) : TellsHost s (s.emit o) :=
  ⟨rfl, fun _ => ⟨rfl, rfl, rfl⟩, fun _ _ x hx => ⟨x, hx, .refl x⟩, fun _ _ => id⟩

theorem State.modPf_tells (s : State) (p : Fin 2) (f : PF → PF) (hf : ∀ x : PF, x.Stands (f x)) :
    TellsHost s (s.modPf p f) := by
  refine ⟨rfl, fun q => ?_, fun _ _ x hx => ⟨x, hx, .refl x⟩, fun _ _ => id⟩
  by_cases hq : q = p
  · rw [hq, State.modPf_pf]
    exact hf _
  · rw [State.modPf_pf_ne _ _ _ _ hq]
    exact ⟨rfl, rfl, rfl⟩

theorem State.modVf_tells (s : State) (p n : Nat) (f : VF → VF) (hf : ∀ x : VF, x.Stands (f x)) :
    TellsHost s (s.modVf p n f) := by
  refine ⟨rfl, fun _ => ⟨rfl, rfl, rfl⟩, fun q k x hx => ?_, fun q k hn => ?_⟩
  · rw [State.vf?_modVf, hx]
    split
    · exact ⟨f x, rfl, hf x⟩
    · exact ⟨x, rfl, .refl x⟩
  · simp [State.vf?_modVf, hn]

theorem State.holdOp_tells (s : State) (f : Fn) (o : HostOp) : TellsHost s (s.holdOp f o) := by
  unfold State.holdOp
  cases f with
  | pf p => exact s.modPf_tells _ _ fun _ => ⟨rfl, rfl, rfl⟩
  | vf p n => exact s.modVf_tells p n _ fun _ => ⟨rfl, rfl, rfl, fun _ => id⟩

theorem State.modVec_tells (s : State) (f : Fn) (v : Nat) (g : MsixVec → MsixVec) : TellsHost s (s.modVec f v g) := by
  unfold State.modVec
  cases f with
  | pf p => exact s.modPf_tells _ _ fun _ => ⟨rfl, rfl, rfl⟩
  | vf p n => exact s.modVf_tells p n _ fun _ => ⟨rfl, rfl, rfl, fun _ => id⟩

theorem State.modRing_tells (s : State) (f : Fn) (g : Ring32 → Ring32) : TellsHost s (s.modRing f g) := by
  unfold State.modRing
  cases f with
  | pf p => exact s.modPf_tells _ _ fun _ => ⟨rfl, rfl, rfl⟩
  | vf p n => exact s.modVf_tells p n _ fun _ => ⟨rfl, rfl, rfl, fun _ => id⟩

theorem State.hostWrite_tells (s : State) (f : Fn) (addr : Nat) (bytes : List Byte) :
    TellsHost s (s.hostWrite f addr bytes) :=
  .ite (.refl s) (.ite (s.emit_tells _) (s.holdOp_tells ..))

theorem State.sendVec_tells (s : State) (f : Fn) (v : Nat) : TellsHost s (s.sendVec f v) :=
  (s.emit_tells _).trans (State.modVec_tells ..)

theorem State.msix_tells (s : State) (f : Fn) (v : Nat) : TellsHost s (s.msix f v) :=
  .ite (.refl s) (.ite (s.holdOp_tells ..)
    (.ite (s.modVec_tells ..) (.ite (s.modVec_tells ..) (s.sendVec_tells f v))))

/-- A notice that finds no room sets FUNC_ERROR bit 6 beside the bits that were set (R452). -/
theorem State.writeNotice_tells (s : State) (f : Fn) (body : List Byte) : TellsHost s (s.writeNotice f body) := by
  unfold State.writeNotice
  extract_lets r bytes s1
  have numbered : TellsHost s s1 := s.modRing_tells f _
  split
  · cases f with
    | pf p => exact numbered
    | vf p n =>
      refine numbered.trans (s1.modVf_tells p n _ ?_)
      exact fun x => ⟨rfl, rfl, rfl, fun b hb => by simp [hb]⟩
  · exact ((numbered.trans (s1.emit_tells _)).trans (State.modRing_tells ..)).trans (State.msix_tells ..)

theorem State.notice_tells (s : State) (f : Fn) (src code die sysTime detail : Nat) :
    TellsHost s (s.notice f src code die sysTime detail) :=
  .ite (.refl s) (.ite (s.writeNotice_tells ..) (s.holdOp_tells ..))

end Sys2Proof.Machine
end

section
/-! SUPPORT. What leaves the tails of the queues where a doorbell put them: completions, the cycle check and the thaw that
follow a doorbell (18.3, R503, R548). -/

namespace Sys2Proof.Machine
open Sys2Proof

/-! ### Pumping a port touches the ports of the die alone -/

theorem State.sendHop_ports (s : State) (d : DieId) (p ty : Nat) (body : List Byte) :
    PortsOnly d s (s.sendHop d p ty body) := State.putRecord_ports ..

theorem State.modTx_ports (s : State) (d : DieId) (f : List TxFlow → List TxFlow) : PortsOnly d s (s.modTx d f) :=
  s.modFab_ports d fun y => { y with tx := f y.tx }

theorem State.freeLabel_ports (s : State) (d : DieId) (p l : Nat) : PortsOnly d s (s.freeLabel d p l) :=
  State.modPort_ports ..

theorem State.sendTransit_ports (s : State) (d : DieId) (p : Nat) : PortsOnly d s (s.sendTransit d p) :=
  .ite (.refl d s) ((State.modPort_ports ..).trans (.foldl (fun _ _ => State.sendFlit_ports ..) _ _))

theorem State.pumpOnce_ports (s : State) (d : DieId) (t id : Nat) : PortsOnly d s (s.pumpOnce d t id) := by
  unfold State.pumpOnce
  split
  · exact .refl d s
  dsimp only
  refine .ite (.refl d s) ?_
  split
  · exact .ite (((s.sendFlit_ports ..).trans (State.modTx_ports ..)).trans (State.freeLabel_ports ..)) (.refl d s)
  · exact .ite (.refl d s) ((s.sendFlit_ports ..).trans (State.modTx_ports ..))

theorem State.pumpSlot_ports (s : State) (d : DieId) (p k t : Nat) : PortsOnly d s (s.pumpSlot d p k t) := by
  unfold State.pumpSlot
  dsimp only
  split
  · exact State.pumpOnce_ports ..
  · exact .refl d s

theorem State.pumpPort_go_ports (d : DieId) (p n : Nat) (s : State) : PortsOnly d s (State.pumpPort.go d p n s) := by
  induction n generalizing s with
  | zero => exact .refl d s
  | succ n ih =>
    refine PortsOnly.trans (.ite ?rotation ?labels) (ih _)
    case rotation => exact .foldl (fun _ _ => State.pumpSlot_ports ..) _ s
    case labels => exact .foldl (fun _ _ => State.pumpOnce_ports ..) _ s

theorem State.pumpPort_ports (s : State) (d : DieId) (p : Nat) : PortsOnly d s (s.pumpPort d p) :=
  (s.sendTransit_ports d p).trans (State.pumpPort_go_ports ..)

theorem State.portsBack_ports (s : State) (d : DieId) : PortsOnly d s (s.portsBack d) :=
  .foldl (fun u _ => .ite (((u.sendHop_ports ..).trans (State.modPort_ports ..)).trans (State.pumpPort_ports ..))
    (.refl d u)) _ s

/-! ### Queues -/

/-- A queue of a context across a change of a queue. -/
theorem State.modQueue_queue? (s : State) (t h q : Nat) (f : Queue → Queue) (u k r : Nat) :
    (s.modQueue t h q f).queue? u k r =
      if ((u, k), r) = ((t, h), q) then (s.queue? u k r).map f else s.queue? u k r := by
  simp only [State.queue?, State.ctx?, State.modQueue, State.modCtx, KV.get?_modify]
  by_cases hc : (u, k) = (t, h)
  · cases KV.get? s.ctxs (u, k) with
    | none => simp [hc]
    | some c =>
      by_cases hq : q = r
      · cases hx : c.queues[r]? <;> simp [hc, hq, hx, List.getD_eq_getElem?_getD]
      · simp [hc, hq, Ne.symm hq, List.getD_eq_getElem?_getD]
  · simp [hc]

/-- No reset falls due and every queue keeps its tail. -/
structure TailsStay (s t : State) : Prop where
  resetDue : t.tray.fw.resetDue = s.tray.fw.resetDue
  tail : ∀ u k r, (t.queue? u k r).map Queue.tail = (s.queue? u k r).map Queue.tail

theorem TailsStay.refl (s : State) : TailsStay s s := ⟨rfl, fun _ _ _ => rfl⟩

theorem TailsStay.trans {s t u : State} (h : TailsStay s t) (k : TailsStay t u) : TailsStay s u :=
  ⟨k.resetDue.trans h.resetDue, fun a b c => (k.tail a b c).trans (h.tail a b c)⟩

theorem TailsStay.ite {s t u : State} {c : Prop} [Decidable c] (h : TailsStay s t) (k : TailsStay s u) :
    TailsStay s (if c then t else u) := by
  split
  · exact h
  · exact k

theorem TailsStay.foldl {α : Type} {f : State → α → State} (hf : ∀ u x, TailsStay u (f u x)) (l : List α) (s : State) :
    TailsStay s (l.foldl f s) := by
  induction l generalizing s with
  | nil => exact .refl s
  | cons x xs ih => exact (hf s x).trans (ih _)

theorem TailsStay.of_ctxs {s t : State} (resetDue : t.tray.fw.resetDue = s.tray.fw.resetDue) (ctxs : t.ctxs = s.ctxs) :
    TailsStay s t := ⟨resetDue, fun _ _ _ => by simp only [State.queue?, State.ctx?, ctxs]⟩

theorem TellsHost.tails {s t : State} (h : TellsHost s t) : TailsStay s t :=
  .of_ctxs (by rw [h.tray]) h.ctxs

theorem PortsOnly.tails {d : DieId} {s t : State} (h : PortsOnly d s t) : TailsStay s t :=
  .of_ctxs (by rw [h.tray]) (by rw [h.rest])

theorem State.modDie_tails (s : State) (d : DieId) (f : Die → Die) : TailsStay s (s.modDie d f) := .of_ctxs rfl rfl

theorem State.modQueue_tails (s : State) (t h q : Nat) (f : Queue → Queue) (hf : ∀ x, (f x).tail = x.tail) :
    TailsStay s (s.modQueue t h q f) := by
  refine ⟨rfl, fun u k r => ?_⟩
  rw [State.modQueue_queue?]
  split
  · cases s.queue? u k r with
    | none => rfl
    | some x => exact congrArg some (hf x)
  · rfl

theorem State.setEvent_tails (s : State) (t e : Nat) (v : Event) : TailsStay s (s.setEvent t e v) := by
  unfold State.setEvent
  extract_lets s1
  have noted : TailsStay s s1 := .of_ctxs rfl rfl
  split
  · exact .ite (noted.trans (State.hostWrite_tells ..).tails) noted
  · exact noted

theorem State.errEvent_tails (s : State) (t e : Nat) : TailsStay s (s.errEvent t e) :=
  .ite (s.setEvent_tails ..) (.refl s)

/-- A command that completes leaves its queue and is reported; the tail stays (R476, R477). -/
theorem State.finishHead_tails (s : State) (t h q status detail result : Nat) (deg : Bool) :
    TailsStay s (s.finishHead t h q status detail result deg) := by
  unfold State.finishHead
  split
  · exact .refl s
  next x _ =>
  split
  · exact .refl s
  next c _ _ =>
  extract_lets phase record s1 s2 s3
  have recorded : TailsStay s s1 := by
    unfold s1
    split
    · exact (s.hostWrite_tells ..).tails
    · exact .refl s
  have dropped : TailsStay s s2 := recorded.trans (s1.modQueue_tails t h q _ fun _ => rfl)
  have signalled : TailsStay s s3 := .ite (dropped.trans (s2.errEvent_tails ..)) dropped
  refine .ite ?_ signalled
  split
  · exact signalled.trans (s3.msix_tells ..).tails
  · exact signalled

theorem State.settleOnce_tails (s : State) (t h q : Nat) : TailsStay s (s.settleOnce t h q) := by
  unfold State.settleOnce
  split
  · exact .refl s
  split
  · exact .refl s
  exact .ite (s.finishHead_tails ..) (.ite (s.finishHead_tails ..) (.ite (s.finishHead_tails ..) (.refl s)))

theorem State.settle_go_tails (t h q n : Nat) (s : State) : TailsStay s (State.settle.go t h q n s) := by
  induction n generalizing s with
  | zero => exact .refl s
  | succ n ih => exact (s.settleOnce_tails t h q).trans (ih _)

theorem State.settle_tails (s : State) (t h q : Nat) : TailsStay s (s.settle t h q) := State.settle_go_tails ..

theorem State.refuse_tails (s : State) (t : Nat) (x : CycleNode) : TailsStay s (s.refuse t x) := by
  refine (s.modQueue_tails t x.h x.q _ ?sameTail).trans (State.settle_tails ..)
  exact fun _ => rfl

theorem State.breakCycles_tails (s : State) (t bell : Nat) : TailsStay s (s.breakCycles t bell) := by
  refine .foldl (fun u _ => ?_) _ s
  split
  · exact u.refuse_tails ..
  · exact .refl u

theorem State.followCharge_tails (s : State) : TailsStay s s.followCharge := .of_ctxs rfl rfl

theorem State.startThaw_tails (s : State) (d : DieId) : TailsStay s (s.startThaw d) := by
  unfold State.startThaw
  extract_lets x g n hi target
  refine .ite (.refl s) ?_
  exact ((s.modDie_tails d _).trans (State.portsBack_ports _ d).tails).trans (State.followCharge_tails _)

theorem State.thawTrigger_tails (s : State) (d : DieId) : TailsStay s (s.thawTrigger d) := by
  refine .ite (.ite (s.modDie_tails ..) (.refl s)) ?_
  split
  · exact s.modDie_tails ..
  · exact s.modDie_tails ..
  · exact .ite (s.modDie_tails ..) (s.startThaw_tails d)
  · exact .refl s
  · exact .refl s

theorem State.bellThaw_tails (s : State) (n : Nat) : TailsStay s (s.bellThaw n) :=
  .ite (s.thawTrigger_tails _) (.refl s)

end Sys2Proof.Machine
end

section
/-! Doorbells (R449 to R451). -/

namespace Sys2Proof.Machine
open Sys2Proof

theorem State.finishReset_of_not_due {s : State} (h : s.tray.fw.resetDue = false) : s.finishReset = s := by
  simp [State.finishReset, h]

theorem TellsHost.finishReset {s t : State} (h : TellsHost s t) (noReset : s.tray.fw.resetDue = false) :
    t.finishReset = t :=
  State.finishReset_of_not_due (by rw [h.tray, noReset])

/-! ### A doorbell that fails a check (R450) -/

/-- FUNC_ERROR bit b is set and ERROR_DOORBELL holds the value of the doorbell. -/
def VF.markError (x : VF) (b value : Nat) : VF :=
  { x with funcError := x.funcError ||| BitVec.ofNat 8 (2 ^ b), errDoorbell := value }

theorem VF.markError_funcError (x : VF) {b : Nat} (value : Nat) (hb : b < 8) :
    (x.markError b value).funcError.getLsbD b = true := by
  simp only [VF.markError, BitVec.getLsbD_or, BitVec.getLsbD_ofNat, Nat.testBit_two_pow_self, hb, decide_true,
    Bool.and_true, Bool.or_true]

/-- What follows the mark is the notice of it. -/
theorem State.funcError_tells (s : State) (p n b value : Nat) :
    TellsHost (s.modVf p n fun x => x.markError b value) (s.funcError p n b value) := State.notice_tells ..

theorem State.funcError_reports {s : State} {p n b : Nat} {v : VF} (hv : s.vf? p n = some v) (value : Nat) (hb : b < 8) :
    ∃ x, (s.funcError p n b value).vf? p n = some x ∧ x.funcError.getLsbD b = true ∧ x.errDoorbell = value := by
  have marked : (s.modVf p n fun x => x.markError b value).vf? p n = some (v.markError b value) := by simp [hv]
  obtain ⟨y, hy, stands⟩ := (s.funcError_tells p n b value).vf p n _ marked
  exact ⟨y, hy, stands.funcError b (v.markError_funcError value hb), stands.errDoorbell⟩

/-- A function error touches no context, die or tenant. -/
theorem State.funcError_frame (s : State) (p n b value : Nat) :
    (s.funcError p n b value).ctxs = s.ctxs ∧ (s.funcError p n b value).dies = s.dies ∧
      (s.funcError p n b value).tenants = s.tenants :=
  have told := s.funcError_tells p n b value
  ⟨told.ctxs, told.dies, told.tenants⟩

theorem State.funcError_finishReset {s : State} (noReset : s.tray.fw.resetDue = false) (p n b value : Nat) :
    (s.funcError p n b value).finishReset = s.funcError p n b value :=
  (s.funcError_tells p n b value).finishReset noReset

section
variable {s : State} {p n size value : Nat} {entry : List Byte} {cmds : List (List Byte)} {v : VF}

theorem State.doorbell_of_partial (hv : s.vf? p n = some v) (taken : s.decodes (.vf p n) = true) (hsize : size ≠ 8) :
    s.doorbell p n size value entry cmds = s.funcError p n fePartial value := by
  simp [State.doorbell, hv, taken, hsize]

theorem State.doorbell_of_not_ready (hv : s.vf? p n = some v) (taken : s.decodes (.vf p n) = true) (hsize : size = 8)
    (h : s.tray.fw.trayReady = false ∨ v.tenant = none) :
    s.doorbell p n size value entry cmds = s.funcError p n feNotReady value := by
  simp [State.doorbell, hv, taken, hsize, h]

theorem State.doorbell_of_reserved (hv : s.vf? p n = some v) (taken : s.decodes (.vf p n) = true) (hsize : size = 8)
    (ready : s.tray.fw.trayReady = true) (tenant : v.tenant.isSome = true)
    (h : bits value 31 23 ≠ 0 ∨ bits value 63 48 ≠ 0) :
    s.doorbell p n size value entry cmds = s.funcError p n feHandle value := by
  simp [State.doorbell, hv, taken, hsize, ready, Option.isSome_iff_ne_none.1 tenant, h]

theorem State.doorbell_of_well_formed (hv : s.vf? p n = some v) (taken : s.decodes (.vf p n) = true) (hsize : size = 8)
    (ready : s.tray.fw.trayReady = true) (tenant : v.tenant.isSome = true) (low : bits value 31 23 = 0)
    (high : bits value 63 48 = 0) :
    s.doorbell p n size value entry cmds =
      if v.bme = true then s.bellGo p n value entry cmds else s.holdOp (.vf p n) (.bell value entry cmds) := by
  cases hb : v.bme <;>
    simp [State.doorbell, hv, taken, hsize, ready, Option.isSome_iff_ne_none.1 tenant, low, high, hb]

/-! ### A doorbell that is fetched (R451, R475) -/

theorem State.bellCtx_of_active {u h : Nat} {c : Ctx} (hc : s.ctx? u h = some c) (lives : c.dying = false) :
    s.bellCtx u h v entry = .ok c := by
  simp [State.bellCtx, hc, lives]

/-- The queue of an active context takes the tail of the doorbell, and what follows leaves it there. -/
theorem State.bellGo_tails {u : Nat} {c : Ctx} {y : Queue} (hv : s.vf? p n = some v) (tenant : v.tenant = some u)
    (hc : s.ctx? u (bits value 19 0) = some c) (lives : c.dying = false)
    (hq : c.queues.getD (bits value 22 20) none = some y) (fits : bits value 47 32 < 2 ^ y.z) :
    ∃ (g : Tenant → Tenant) (f : Queue → Queue), (∀ x, (f x).tail = bits value 47 32) ∧
      TailsStay ((s.modTenant u g).modQueue u (bits value 19 0) (bits value 22 20) f)
        (s.bellGo p n value entry cmds) := by
  unfold State.bellGo
  simp only [hv, tenant, State.bellCtx_of_active hc lives, hq, Nat.not_le.2 fits, hc, Option.isSome_some, if_true,
    if_false]
  refine ⟨_, _, ?_, ((State.settle_tails ..).trans (State.breakCycles_tails ..)).trans
    (.foldl (fun w d => w.bellThaw_tails d) _ _)⟩
  exact fun _ => rfl

theorem State.bellGo_moves_tail {u : Nat} {c : Ctx} {y : Queue} (hv : s.vf? p n = some v) (tenant : v.tenant = some u)
    (hc : s.ctx? u (bits value 19 0) = some c) (lives : c.dying = false)
    (hq : c.queues.getD (bits value 22 20) none = some y) (fits : bits value 47 32 < 2 ^ y.z) :
    (s.bellGo p n value entry cmds).tray.fw.resetDue = s.tray.fw.resetDue ∧
    ((s.bellGo p n value entry cmds).queue? u (bits value 19 0) (bits value 22 20)).map Queue.tail =
      some (bits value 47 32) := by
  obtain ⟨g, f, moved, stays⟩ := State.bellGo_tails (entry := entry) (cmds := cmds) hv tenant hc lives hq fits
  refine ⟨stays.resetDue, (stays.tail ..).trans ?_⟩
  have here : (s.modTenant u g).queue? u (bits value 19 0) (bits value 22 20) = some y := by
    change (s.ctx? _ _).bind _ = _
    rw [hc]
    exact hq
  simp [State.modQueue_queue?, here, moved]

/-- A well-formed doorbell waits while Bus Master Enable is clear (R446). -/
theorem State.doorbell_held (hv : s.vf? p n = some v) (taken : s.decodes (.vf p n) = true)
    (noReset : s.tray.fw.resetDue = false) (hsize : size = 8) (ready : s.tray.fw.trayReady = true)
    (tenant : v.tenant.isSome = true) (low : bits value 31 23 = 0) (high : bits value 63 48 = 0) (off : v.bme = false) :
    (s.doorbell p n size value entry cmds).finishReset.vf? p n =
      some { v with held := v.held ++ [.bell value entry cmds] } := by
  have waits : s.doorbell p n size value entry cmds = s.holdOp (.vf p n) (.bell value entry cmds) := by
    rw [State.doorbell_of_well_formed hv taken hsize ready tenant low high, if_neg (by simp [off])]
  rw [waits, (s.holdOp_tells ..).finishReset noReset, State.holdOp, State.modVf_vf?, hv, Option.map_some]

theorem State.doorbell_moves_tail (hv : s.vf? p n = some v) (taken : s.decodes (.vf p n) = true)
    (noReset : s.tray.fw.resetDue = false) (hsize : size = 8) (ready : s.tray.fw.trayReady = true)
    (low : bits value 31 23 = 0) (high : bits value 63 48 = 0) (on : v.bme = true) {u : Nat} {c : Ctx} {y : Queue}
    (tenant : v.tenant = some u) (hc : s.ctx? u (bits value 19 0) = some c) (lives : c.dying = false)
    (hq : c.queues.getD (bits value 22 20) none = some y) (fits : bits value 47 32 < 2 ^ y.z) :
    ((s.doorbell p n size value entry cmds).finishReset.queue? u (bits value 19 0) (bits value 22 20)).map Queue.tail =
      some (bits value 47 32) := by
  obtain ⟨resetDue, moved⟩ := State.bellGo_moves_tail (entry := entry) (cmds := cmds) hv tenant hc lives hq fits
  rw [State.doorbell_of_well_formed hv taken hsize ready (by simp [tenant]) low high, if_pos on,
    State.finishReset_of_not_due (resetDue.trans noReset)]
  exact moved

end

end Sys2Proof.Machine
end

section
/-! The registers of BAR0 and the notice rings (R445, R448, R453). -/

namespace Sys2Proof.Machine
open Sys2Proof

/-! ### Reads -/

theorem State.barRead_isSome (s : State) (f : Fn) (off size : Nat) :
    (s.barRead f off size).1.isSome = true ↔ s.readable f = true := by
  cases h : s.readable f <;> simp [State.barRead, h]

theorem State.barRead_word {s : State} {f : Fn} (h : s.readable f = true) {off : Nat} (aligned : off % 4 = 0) :
    (s.barRead f off 4).1 = some (s.barValue f off) := by
  simp [State.barRead, h, aligned]

theorem State.readable_pf {s : State} {p : Fin 2} (mse : (s.pf p).mse = true) (awake : (s.pf p).d3hot = false) :
    s.readable (.pf p.val) = true := by
  simp [State.readable, mse, awake]

theorem State.readable_vf {s : State} {p : Fin 2} {n : Nat} {v : VF} (mse : (s.pf p).vfMse = true)
    (hv : s.vf? p.val n = some v) : s.readable (.vf p.val n) = true := by
  simp [State.readable, mse, hv]

theorem State.barValue_mbox_status (s : State) (p : Fin 2) :
    s.barValue (.pf p.val) 0x18 = b2n (s.pf p).mboxBusy + 2 * b2n (s.pf p).mboxReady +
      4 * b2n (s.pf p).mboxNotOwner + 8 * b2n (s.pf p).mboxNotTaken := by
  simp [State.barValue, State.pfRead]

theorem State.barValue_funcError {s : State} {p n : Nat} {v : VF} (hv : s.vf? p n = some v) :
    s.barValue (.vf p n) 0x20 = v.funcError.toNat := by
  simp [State.barValue, State.vfRead, hv]

theorem State.barValue_tenant {s : State} {p n : Nat} {v : VF} (hv : s.vf? p n = some v) :
    s.barValue (.vf p n) 0x04 = (v.tenant.map (· + 2 ^ 31)).getD 0 := by
  cases ht : v.tenant <;> simp [State.barValue, State.vfRead, hv, ht]

/-! ### Writes -/

theorem State.barWord_holdoff (s : State) (f : Fn) {i : Nat} (hi : i < f.vectors) (v : Nat) :
    s.barWord f (0x3400 + 4 * i) v = s.modVec f i fun x => { x with holdoff := v % 256 } := by
  have few : f.vectors ≤ 16 := by cases f <;> simp [Fn.vectors]
  have notRing : ¬(0x2010 ≤ 0x3400 + 4 * i ∧ 0x3400 + 4 * i ≤ 0x201C) := by omega
  have notTable : ¬(0x3000 ≤ 0x3400 + 4 * i ∧ 0x3400 + 4 * i < 0x3000 + 16 * f.vectors) := by omega
  have index : (0x3400 + 4 * i - 0x3400) / 4 = i := by omega
  unfold State.barWord
  rw [if_neg notRing, if_neg notTable, if_pos (by omega), index]

theorem execBarRegisterWrite_pf_word {s : State} {p off : Nat} (taken : s.decodes (.pf p) = true)
    (aligned : off % 4 = 0) (value : Nat) :
    execBarRegisterWrite (.pf p) off 4 value s = .next (s.barWord (.pf p) off (value % 2 ^ 32)).finishReset := by
  simp [execBarRegisterWrite, taken, aligned]

theorem execBarRegisterWrite_partial_doorbell {s : State} {p n size : Nat} (taken : s.decodes (.vf p n) = true)
    (hsize : size ≠ 8) (nonzero : 0 < size) (value : Nat) :
    execBarRegisterWrite (.vf p n) 0x1000 size value s = .next (s.funcError p n fePartial value) := by
  simp [execBarRegisterWrite, taken, hsize, nonzero]

theorem execNoticeRingWrite_word {s : State} {f : Fn} (taken : s.decodes f = true) (off : Nat) {v : Nat}
    (hv : v < 2 ^ 32) : execNoticeRingWrite f off v s = .next (s.ringWord f off v) := by
  simp only [execNoticeRingWrite, taken, Nat.mod_eq_of_lt hv, hv]
  simp

/-- A write that R453 ignores sets FUNC_ERROR bit 7 of a VF and leaves the ring. -/
theorem State.ringIgnored_ring (s : State) (f : Fn) : (s.ringIgnored f).ring f = s.ring f := by
  cases f with
  | pf p => rfl
  | vf p n =>
    cases hv : KV.get? s.vfs (p, n) <;> simp [State.ringIgnored, State.ring, State.modVf, KV.get?_modify, hv]

theorem State.ringWord_base (s : State) (f : Fn) (v : Nat) :
    s.ringWord f 0x2010 v = if (s.ring f).size ≠ 0 ∨ v % 4096 ≠ 0 then s.ringIgnored f
      else s.modRing f fun r => { r with base := putWord r.base 0 v } := rfl

theorem State.ringWord_size {s : State} {f : Fn} {v : Nat} (unset : (s.ring f).size = 0) (ok : ringSizeOk v = true)
    (nonzero : v ≠ 0) : s.ringWord f 0x2018 v = s.modRing f fun r => { r with size := v, head := 0, tail := 0 } := by
  simp [State.ringWord, unset, ok, nonzero]

end Sys2Proof.Machine

namespace Sys2Proof
open Sys2Proof.Machine

theorem does_barRegisterWrite_holdoff {s : State} {p : Fin 2} {i : Nat} (value : Nat) {x : MsixVec}
    (taken : s.decodes (.pf p.val) = true) (noReset : s.tray.fw.resetDue = false) (hi : i < 2)
    (hx : (s.pf p).vecs[i]? = some x) :
    Does (.barRegisterWrite (.pf p.val) (0x3400 + 4 * i) 4 value) s fun t =>
      (t.pf p).vecs[i]? = some { x with holdoff := value % 256 } ∧ PfOnly p s t := by
  have written := s.barWord_holdoff (.pf p.val) hi (value % 2 ^ 32)
  refine ⟨_, execBarRegisterWrite_pf_word taken (by omega) value, ?_⟩
  rw [written, (s.modVec_tells ..).finishReset noReset, State.modVec, portIx_val]
  refine ⟨?_, s.modPf_only p _⟩
  rw [State.modPf_pf, List.getElem?_modify_eq, hx]
  simp

theorem does_barRegisterWrite_partial_doorbell {s : State} {p n size : Nat} (value : Nat)
    (taken : s.decodes (.vf p n) = true) (hsize : size ≠ 8) (nonzero : 0 < size) :
    Does (.barRegisterWrite (.vf p n) 0x1000 size value) s fun t =>
      (∃ x, t.vf? p n = some x ∧ x.funcError.getLsbD 3 = true ∧ x.errDoorbell = value) ∧
      t.ctxs = s.ctxs ∧ t.dies = s.dies ∧ t.tenants = s.tenants := by
  obtain ⟨v, hv, -⟩ := State.vf?_of_decodes taken
  exact ⟨_, execBarRegisterWrite_partial_doorbell taken hsize nonzero value, State.funcError_reports hv value (by decide),
    s.funcError_frame ..⟩

theorem does_noticeRingWrite_size {s : State} {f : Fn} {v : Nat} (taken : s.decodes f = true)
    (unset : (s.ring f).size = 0) (hv : v < 2 ^ 32) (ok : ringSizeOk v = true) (nonzero : v ≠ 0) :
    Does (.noticeRingWrite f 0x2018 v) s fun t =>
      t.ring f = { s.ring f with size := v, head := 0, tail := 0 } ∧ t.tray = s.tray ∧ t.dies = s.dies := by
  have written := s.modRing_tells f fun r => { r with size := v, head := 0, tail := 0 }
  exact ⟨_, (execNoticeRingWrite_word taken _ hv).trans (congrArg _ (State.ringWord_size unset ok nonzero)),
    State.modRing_ring (State.readable_of_decodes taken) _, written.tray, written.dies⟩

theorem does_noticeRingWrite_base {s : State} {f : Fn} {v : Nat} (taken : s.decodes f = true) (hv : v < 2 ^ 32) :
    Does (.noticeRingWrite f 0x2010 v) s fun t =>
      ((s.ring f).size = 0 → v % 4096 = 0 → t.ring f = { s.ring f with base := putWord (s.ring f).base 0 v }) ∧
      ((s.ring f).size ≠ 0 ∨ v % 4096 ≠ 0 → t.ring f = s.ring f) := by
  refine ⟨_, (execNoticeRingWrite_word taken _ hv).trans (congrArg _ (s.ringWord_base f v)), fun unset aligned => ?_,
    fun refused => ?_⟩
  · rw [if_neg (by simp [unset, aligned]), State.modRing_ring (State.readable_of_decodes taken)]
  · rw [if_pos refused, State.ringIgnored_ring]

end Sys2Proof
end

section
/-! Bus Master Enable and the MSI-X vectors (R446, R456). -/

namespace Sys2Proof.Machine
open Sys2Proof

/-! ### What waited for Bus Master Enable -/

theorem State.flushHeld_of_not_canSend {s : State} {f : Fn} (h : s.canSend f = false) : s.flushHeld f = s := by
  simp [State.flushHeld, h]

/-- What a PF held back is told in its order; its own enables stay. -/
theorem State.flushHeld_pf_tells (s : State) (p : Nat) : TellsHost s (s.flushHeld (.pf p)) := by
  unfold State.flushHeld
  extract_lets run
  refine .ite (.refl s) (.trans ?cleared (.foldl (fun u o => ?told) _ _))
  case cleared =>
    refine s.modPf_tells (portIx p) _ ?_
    exact fun _ => ⟨rfl, rfl, rfl⟩
  case told =>
    cases o with
    | write a b => exact u.hostWrite_tells ..
    | notice b => exact u.writeNotice_tells ..
    | msix v => exact u.msix_tells ..
    | bell v e c => exact .refl u

theorem State.modPf_same {s : State} {p : Fin 2} {f : PF → PF} (h : f (s.pf p) = s.pf p) : s.modPf p f = s := by
  have stays : s.pfs.set p.val (f (s.pfs.get p)) p.isLt = s.pfs := by
    rw [show f (s.pfs.get p) = s.pfs[p.val] from h]
    exact Vector.set_getElem_self p.isLt
  rw [State.modPf, stays]

theorem State.flushHeld_pf_nil {s : State} {p : Fin 2} (h : (s.pf p).held = []) : s.flushHeld (.pf p.val) = s := by
  have same : (s.modPf p fun x => { x with held := [] }) = s := State.modPf_same (by rw [← h])
  simp [State.flushHeld, h, same]

theorem State.flushHeld_vf_nil {s : State} {p n : Nat} {v : VF} (hv : s.vf? p n = some v) (on : v.bme = true)
    (h : v.held = []) : s.flushHeld (.vf p n) = s.modVf p n fun x => { x with held := [] } := by
  simp [State.flushHeld, State.canSend_vf hv, on, hv, h]

/-! ### Vectors -/

@[simp] theorem State.emit_vec (s : State) (o : Output) (f : Fn) (v : Nat) : (s.emit o).vec f v = s.vec f v := by
  cases f <;> rfl

@[simp] theorem State.advanceTo_vec (s : State) (t : Ns) (f : Fn) (v : Nat) :
    (s.advanceTo t).vec f v = s.vec f v := by
  cases f <;> rfl

@[simp] theorem State.advanceTo_silent (s : State) (t : Ns) (f : Fn) : (s.advanceTo t).silent f = s.silent f := by
  cases f <;> rfl

@[simp] theorem State.advanceTo_canSend (s : State) (t : Ns) (f : Fn) : (s.advanceTo t).canSend f = s.canSend f := by
  cases f <;> rfl

@[simp] theorem State.modVec_outputs (s : State) (f : Fn) (v : Nat) (g : MsixVec → MsixVec) :
    (s.modVec f v g).outputs = s.outputs := by
  cases f <;> rfl

theorem State.sendVec_outputs (s : State) (f : Fn) (v : Nat) : Output.msix f v ∈ (s.sendVec f v).outputs := by
  simp [State.sendVec]

/-- A cause is sent where neither the mask nor a holdoff keeps it back, and none is merged with it then (R456). -/
theorem State.msix_sends {s : State} {f : Fn} {v : Nat} (heard : s.silent f = false) (sends : s.canSend f = true)
    (unmasked : (s.vec f v).masked = false) (idle : (s.vec f v).until_ = none) :
    Output.msix f v ∈ (s.msix f v).outputs ∧ ((s.msix f v).vec f v).merged = false := by
  have sent : s.msix f v = s.sendVec f v := by
    simp [State.msix, heard, sends, unmasked, idle]
  have there : (s.emit (.msix f v)).vec f v ≠ {} := by
    rw [State.emit_vec]
    exact fun h => by simp [h] at unmasked
  rw [sent]
  refine ⟨s.sendVec_outputs f v, ?_⟩
  rw [State.sendVec, State.modVec_vec there]

end Sys2Proof.Machine

namespace Sys2Proof
open Sys2Proof.Machine

theorem does_busMasterEnableSet_pf (s : State) (p : Fin 2) (mse : Bool) :
    Does (.busMasterEnableSet (.pf p.val) mse) s fun t =>
      (t.pf p).bme = true ∧ (t.pf p).mse = mse ∧ ((s.pf p).held = [] ∨ (s.pf p).d3hot = true →
        t.pf p = { s.pf p with bme := true, mse := mse } ∧ PfOnly p s t) := by
  let s1 := s.modPf p fun x => { x with bme := true, mse := mse }
  have pf : s1.pf p = { s.pf p with bme := true, mse := mse } := s.modPf_pf p _
  have runs : execBusMasterEnableSet (.pf p.val) mse s = .next (s1.flushHeld (.pf p.val)) := by
    simp [execBusMasterEnableSet, State.fnLives, s1]
  have enables := (s1.flushHeld_pf_tells p.val).pf p
  refine ⟨_, runs, by rw [enables.bme, pf], by rw [enables.mse, pf], fun quiet => ?_⟩
  have flushed : s1.flushHeld (.pf p.val) = s1 := by
    rcases quiet with nothing | asleep
    · exact State.flushHeld_pf_nil (by rw [pf]; exact nothing)
    · exact State.flushHeld_of_not_canSend (by simp [State.canSend, pf, asleep])
  rw [flushed]
  exact ⟨pf, s.modPf_only p _⟩

theorem does_busMasterEnableSet_vf {s : State} {p n : Nat} (mse : Bool) {v : VF} (hv : s.vf? p n = some v)
    (lives : v.inReset = false) (nothing : v.held = []) :
    Does (.busMasterEnableSet (.vf p n) mse) s fun t => t.vf? p n = some { v with bme := true } ∧ t.pfs = s.pfs := by
  let s1 := s.modVf p n fun x => { x with bme := true }
  have vf : s1.vf? p n = some { v with bme := true } := by simp [s1, hv]
  have runs : execBusMasterEnableSet (.vf p n) mse s =
      .next (s1.modVf p n fun x => { x with held := [] }) := by
    rw [← State.flushHeld_vf_nil vf rfl nothing]
    simp only [State.vf?] at hv
    simp [execBusMasterEnableSet, State.fnLives, hv, lives, s1]
  refine ⟨_, runs, ?_, rfl⟩
  rw [State.modVf_vf?, vf, Option.map_some, ← nothing]

theorem does_holdoffExpire {s : State} {f : Fn} {v : Nat} {u : Ns} (holds : (s.vec f v).until_ = some u) :
    Does (.holdoffExpire f v) s fun t =>
      u ≤ t.tray.now ∧
      ((s.vec f v).merged = false → t.vec f v = { s.vec f v with until_ := none, merged := false } ∧
        t.outputs = s.outputs) ∧
      ((s.vec f v).merged = true → (s.vec f v).masked = false → s.silent f = false → s.canSend f = true →
        Output.msix f v ∈ t.outputs ∧ (t.vec f v).merged = false) := by
  let s1 := (s.advanceTo u).modVec f v fun x => { x with until_ := none, merged := false }
  have runs : execHoldoffExpire f v s =
      .next (if (s.vec f v).merged = true then s1.msix f v else s1) := by
    simp [execHoldoffExpire, holds, s1]
  have there : (s.advanceTo u).vec f v ≠ {} := by
    rw [State.advanceTo_vec]
    exact fun h => by simp [h] at holds
  have vec : s1.vec f v = { s.vec f v with until_ := none, merged := false } := by
    rw [State.modVec_vec there, State.advanceTo_vec]
  have ended := State.modVec_tells (s.advanceTo u) f v fun x => { x with until_ := none, merged := false }
  refine ⟨_, runs, ?due, fun single => ?single, fun merged unmasked heard sends => ?merged⟩
  case due =>
    have told : TellsHost (s.advanceTo u) (if (s.vec f v).merged = true then s1.msix f v else s1) :=
      .ite (ended.trans (s1.msix_tells f v)) ended
    rw [told.tray]
    exact Nat.le_max_right ..
  case single =>
    rw [if_neg (by simp [single])]
    exact ⟨vec, State.modVec_outputs ..⟩
  case merged =>
    rw [if_pos merged]
    exact State.msix_sends (by simp [s1, ended.silent, heard]) (by simp [s1, ended.canSend, sends])
      (by rw [vec]; exact unmasked) (by rw [vec])

theorem does_msixUnmask_pf {s : State} {p : Fin 2} {i : Nat} {x : MsixVec} (taken : s.decodes (.pf p.val) = true)
    (hx : (s.pf p).vecs[i]? = some x) :
    Does (.msixUnmask (.pf p.val) i) s fun t =>
      (x.pend = false → (t.pf p).vecs[i]? = some { x with masked := false, pend := false } ∧ t.outputs = s.outputs) ∧
      (x.pend = true → x.until_ = none → (s.pf p).bme = true → Output.msix (.pf p.val) i ∈ t.outputs) := by
  let s1 := s.modVec (.pf p.val) i fun x => { x with masked := false, pend := false }
  have before : s.vec (.pf p.val) i = x := by simp [State.vec, List.getD_eq_getElem?_getD, hx]
  have vecs : (s1.pf p).vecs[i]? = some { x with masked := false, pend := false } := by
    simp [s1, State.modVec, hx]
  have after : s1.vec (.pf p.val) i = { x with masked := false, pend := false } := by
    simp [State.vec, List.getD_eq_getElem?_getD, vecs]
  have runs : execMsixUnmask (.pf p.val) i s =
      .next (if x.pend = true then s1.msix (.pf p.val) i else s1) := by
    simp [execMsixUnmask, State.unmask, taken, before, s1]
  refine ⟨_, runs, fun idle => ?idle, fun pends quiet on => ?pends⟩
  case idle =>
    rw [if_neg (by simp [idle])]
    exact ⟨vecs, State.modVec_outputs ..⟩
  case pends =>
    have awake : (s.pf p).d3hot = false := by
      have readable := State.readable_of_decodes taken
      simp only [State.readable, portIx_val] at readable
      simpa using (Bool.and_eq_true_iff.1 readable).2
    have sends : s1.canSend (.pf p.val) = true := by
      rw [(s.modVec_tells ..).canSend]
      simp [State.canSend, on, awake]
    rw [if_pos pends]
    exact (State.msix_sends rfl sends (by rw [after]) (by rw [after]; exact quiet)).1

/-- Settles O48: a clause each for what a doorbell, a register of BAR0, the notice ring, Bus Master Enable and a vector
do. -/
theorem hostAccesses : Obligations.HostAccesses := by
  unfold Obligations.HostAccesses
  refine ⟨?doorbell, ?holdoff, ?partialWrite, ?ringSize, ?ringBase, ?reads, ?mailbox, ?vfRegisters, ?enablePf, ?enableVf,
    ?clearPf, ?clearVf, ?expires, ?unmasks⟩
  case doorbell =>
    intro s p n size value entry cmds v hv taken noReset
    refine ⟨_, rfl, fun hsize => ?short, fun hsize h => ?notReady, fun hsize ready tenant h => ?reserved, ?held, ?fetched⟩
    case short =>
      rw [State.doorbell_of_partial hv taken hsize, State.funcError_finishReset noReset]
      exact ⟨State.funcError_reports hv value (by decide), s.funcError_frame ..⟩
    case notReady =>
      rw [State.doorbell_of_not_ready hv taken hsize h, State.funcError_finishReset noReset]
      exact State.funcError_reports hv value (by decide)
    case reserved =>
      rw [State.doorbell_of_reserved hv taken hsize ready tenant h, State.funcError_finishReset noReset]
      exact State.funcError_reports hv value (by decide)
    case held => exact State.doorbell_held hv taken noReset
    case fetched =>
      exact fun hsize ready low high on _ _ _ => State.doorbell_moves_tail hv taken noReset hsize ready low high on
  case holdoff => exact fun _ _ _ value _ taken noReset hi hx => does_barRegisterWrite_holdoff value taken noReset hi hx
  case partialWrite =>
    exact fun _ _ _ _ value taken hsize nonzero => does_barRegisterWrite_partial_doorbell value taken hsize nonzero
  case ringSize => exact fun _ _ _ taken unset hv ok nonzero => does_noticeRingWrite_size taken unset hv ok nonzero
  case ringBase => exact fun _ _ _ taken hv => does_noticeRingWrite_base taken hv
  case reads => exact fun s f off size => ⟨rfl, s.barRead_isSome f off size⟩
  case mailbox =>
    intro s p mse awake
    rw [State.barRead_word (State.readable_pf mse awake) (by decide), State.barValue_mbox_status]
  case vfRegisters =>
    intro s p n v mse hv
    have readable := State.readable_vf mse hv
    rw [State.barRead_word readable (by decide), State.barRead_word readable (by decide), State.barValue_funcError hv,
      State.barValue_tenant hv]
    refine ⟨rfl, ?_⟩
    cases v.tenant <;> rfl
  case enablePf => exact does_busMasterEnableSet_pf
  case enableVf => exact fun _ _ _ mse _ hv lives nothing => does_busMasterEnableSet_vf mse hv lives nothing
  case clearPf =>
    intro s p mse
    refine ⟨s.modPf p fun x => { x with bme := false, mse := mse }, ?_, s.modPf_pf p _, s.modPf_only p _⟩
    change Host.Outcome.next (s.modPf (portIx p.val) _) = _
    rw [portIx_val]
  case clearVf => exact fun s p n mse v hv => ⟨_, rfl, by rw [State.modVf_vf?, hv]; rfl, rfl⟩
  case expires => exact fun _ _ _ _ holds => does_holdoffExpire holds
  case unmasks => exact fun _ _ _ _ taken hx => does_msixUnmask_pf taken hx

end Sys2Proof
end

section
/-! SUPPORT. The head command of a queue and the events of a tenant (18.3, 18.8). -/

namespace Sys2Proof.Machine
open Sys2Proof

/-! ### The head command -/

/-- A command that starts is handed to its operation. -/
theorem State.withHead_of_heads {s : State} {t h q op : Nat} {e : Cmd} (starts : Heads s t h q op e)
    (f : State → Cmd → State) : s.withHead t h q op f = f s e := by
  obtain ⟨head, isOp, taken, runs, formed⟩ := starts
  have passes : ¬(e.op ≠ op ∨ e.refused ∨ (((s.queue? t h q).map Queue.faulted).getD false ∧ !e.isResume)) := by
    rintro (wrongOp | refused | ⟨faulted, noResume⟩)
    · exact wrongOp isOp
    · simp [taken] at refused
    · simp [runs faulted] at noResume
  simp only [State.withHead, head, if_neg passes, formed]

theorem State.modHead_headCmd (s : State) (t h q : Nat) (f : Cmd → Cmd) :
    (s.modHead t h q f).headCmd t h q = (s.headCmd t h q).map f := by
  rw [State.headCmd, State.modHead, State.modQueue_queue?, if_pos rfl, State.headCmd]
  rcases s.queue? t h q with _ | ⟨_, _, _, _, _, _, _, _, _ | _, _, _⟩ <;> rfl

/-- The head command of a queue once it waits and a further change was made to it (R506). -/
theorem State.waits_modHead_headCmd {s : State} {t h q : Nat} {e : Cmd} (head : s.headCmd t h q = some e)
    (f : Cmd → Cmd) : ((s.waits t h q).modHead t h q f).headCmd t h q =
      some (f { e with waitFrom := some (e.waitFrom.getD s.tray.now) }) := by
  rw [State.modHead_headCmd, State.waits, State.modHead_headCmd, head]
  rfl

/-! ### Events -/

theorem KV.get?_put_ne {κ α : Type} [DecidableEq κ] (m : List (κ × α)) {j k : κ} (hj : j ≠ k) (v : α) :
    KV.get? (KV.put m k v) j = KV.get? m j := by
  have kept : (fun p : κ × α => !decide (p.1 = k) && decide (p.1 = j)) = fun p => decide (p.1 = j) := by
    funext p
    by_cases found : p.1 = j <;> simp [found, hj]
  simp [KV.get?, KV.put, KV.del, List.find?_filter, Ne.symm hj, kept]

theorem State.modTenant_tenant (s : State) (t : Nat) (f : Tenant → Tenant) :
    (s.modTenant t f).tenant t = f (s.tenant t) := by
  rw [State.tenant, State.modTenant, KV.getD, KV.get?_put, Option.getD_some]

/-- An event is its tenant's alone. -/
theorem State.event_congr {s u : State} (same : u.tenants = s.tenants) (t i : Nat) : u.event t i = s.event t i := by
  rw [State.event, State.event, State.tenant, State.tenant, same]

/-- Beside the event itself, its change only writes the mirror entry (R498). -/
theorem State.setEvent_tells (s : State) (t e : Nat) (v : Event) :
    TellsHost (s.modTenant t fun x => { x with events := KV.put x.events e v }) (s.setEvent t e v) := by
  unfold State.setEvent
  extract_lets s1
  split
  · exact .ite (State.hostWrite_tells ..) (.refl s1)
  · exact .refl s1

theorem State.setEvent_event (s : State) (t e : Nat) (v : Event) (i : Nat) :
    (s.setEvent t e v).event t i = if i = e then v else s.event t i := by
  rw [State.event_congr (s.setEvent_tells t e v).tenants, State.event, State.modTenant_tenant, KV.getD]
  split
  next same => rw [same, KV.get?_put, Option.getD_some]
  next other => rw [KV.get?_put_ne _ other, State.event, KV.getD]

/-! ### What FENCE waits for (R501) -/

/-- A command that was exposed by doorbell `bell` stands in another queue of the mask of FENCE c. -/
def State.fenceHeld (s : State) (t h q : Nat) (c : Cmd) (bell : Nat) : Bool :=
  (List.range 8).any fun k => k != q && bit (c.byte 8) k &&
    (((s.queue? t h k).map fun y => y.cmds.any fun e => decide (e.bell ≤ bell)).getD false)

theorem State.fenceHeld_iff {s : State} {t h q : Nat} {c : Cmd} {bell : Nat} :
    s.fenceHeld t h q c bell = true ↔ ∃ k y, k < 8 ∧ k ≠ q ∧ bit (c.byte 8) k = true ∧ s.queue? t h k = some y ∧
      ∃ e ∈ y.cmds, e.bell ≤ bell := by
  have exposed (k : Nat) : ((s.queue? t h k).map fun y => y.cmds.any fun e => decide (e.bell ≤ bell)).getD false = true ↔
      ∃ y, s.queue? t h k = some y ∧ ∃ e ∈ y.cmds, e.bell ≤ bell := by
    cases s.queue? t h k <;> simp
  simp only [State.fenceHeld, List.any_eq_true, List.mem_range, Bool.and_eq_true, bne_iff_ne, exposed]
  constructor
  · rintro ⟨k, hk, ⟨other, masked⟩, y, hy, waits⟩
    exact ⟨k, y, hk, other, masked, hy, waits⟩
  · rintro ⟨k, y, hk, other, masked, hy, waits⟩
    exact ⟨k, hk, ⟨other, masked⟩, y, hy, waits⟩

/-! ### The wait horizon (R506) -/

/-- A wait whose horizon ends is over no sooner than that. -/
theorem execWaitHorizonExpire_expires {s : State} {t h q : Nat} {e : Cmd} {y : Queue} {w : Ns}
    (head : s.headCmd t h q = some e) (queue : s.queue? t h q = some y) (since : e.waitFrom = some w)
    (ends : e.horizonEnds = true) (awake : ∀ d, s.waitDie t h e = some d → (s.die d).frost.state ≠ .frozen) :
    ∃ u : State, execWaitHorizonExpire t h q s = .next (u.ends t h q stWaitExpired) ∧ u.ctxs = s.ctxs ∧
      w + 1000000 * (if y.horizon = 0 then 2000 else y.horizon) ≤ u.tray.now := by
  have late (at_ : Ns) : at_ ≤ (s.advanceTo at_).tray.now := Nat.le_max_right ..
  simp only [execWaitHorizonExpire, head, queue, since, ends]
  cases needs : s.waitDie t h e with
  | none => exact ⟨_, rfl, rfl, late _⟩
  | some d =>
    have notFrozen : ((s.die d).frost.state == .frozen) = false := beq_false_of_ne (awake d needs)
    simp only [notFrozen]
    exact ⟨_, rfl, rfl, late _⟩

end Sys2Proof.Machine
end

section
/-! The commands of events (18.8). -/

namespace Sys2Proof
open Sys2Proof.Machine

/-- A command of a queue that starts does what its operation does. -/
theorem Heads.does {s : State} {t h q op : Nat} {e : Cmd} (starts : Heads s t h q op e) {c : Instr}
    {f : State → Cmd → State} (runs : Machine.exec c s = .next (s.withHead t h q op f)) {P : State → Prop}
    (holds : P (f s e)) : Does c s P :=
  ⟨f s e, by rw [runs, State.withHead_of_heads starts], holds⟩

section
variable {s : State} {t h q : Nat} {e : Cmd}

/-- SIGNAL changes the event that it names and no other (R495, R496, R500). -/
theorem does_signal (starts : Heads s t h q 0x09 e) (within : e.fld 8 2 < s.eventCount t) :
    Does (.signal t h q) s fun x =>
      ∃ w : State, x = w.complete t h q stOk 0 (max (s.event t (e.fld 8 2)).value (e.fld 16 8)) false ∧
        (∀ i, w.event t i = if i = e.fld 8 2 then
          { value := max (s.event t (e.fld 8 2)).value (e.fld 16 8),
            errored := (s.event t (e.fld 8 2)).errored && e.byte 10 != 1 } else s.event t i) ∧ w.dies = s.dies := by
  refine starts.does rfl ?_
  simp only [if_neg (Nat.not_le.2 within)]
  refine ⟨_, rfl, fun i => ?_, ?_⟩
  · split
    next unchanged =>
      split
      next same => rw [same, unchanged]
      next => rfl
    next => exact s.setEvent_event ..
  · split
    · rfl
    · exact (s.setEvent_tells ..).dies

theorem does_signal_badEvent (starts : Heads s t h q 0x09 e) (beyond : s.eventCount t ≤ e.fld 8 2) :
    Does (.signal t h q) s fun x => x = s.ends t h q stBadEvent :=
  starts.does rfl (if_pos beyond)

theorem does_wait (starts : Heads s t h q 0x0A e) (within : e.fld 8 2 < s.eventCount t) :
    Does (.wait t h q) s fun x =>
      ((s.event t (e.fld 8 2)).errored = true → x = s.ends t h q stEventErrored) ∧
      ((s.event t (e.fld 8 2)).errored = false → e.fld 16 8 ≤ (s.event t (e.fld 8 2)).value →
        x = s.complete t h q stOk 0 (s.event t (e.fld 8 2)).value false) ∧
      ((s.event t (e.fld 8 2)).errored = false → (s.event t (e.fld 8 2)).value < e.fld 16 8 →
        x.headCmd t h q = some { e with waitFrom := some (e.waitFrom.getD s.tray.now)
                                        started := some (e.started.getD s.tray.now) } ∧
        x = { s with ctxs := x.ctxs }) := by
  refine starts.does rfl ?_
  simp only [if_neg (Nat.not_le.2 within)]
  refine ⟨fun errored => if_pos errored, fun sound high => ?_, fun sound low => ?_⟩
  · rw [if_neg (by simp [sound]), if_pos high]
  · rw [if_neg (by simp [sound]), if_neg (Nat.not_le.2 low)]
    exact ⟨State.waits_modHead_headCmd starts.head _, rfl⟩

theorem does_query {addr len : Nat} (starts : Heads s t h q 0x0B e)
    (bound : s.binding t h (e.fld 8 2) = some (.host addr len)) :
    Does (.query t h q) s fun x =>
      (len < e.fld 16 8 + 128 → x = s.ends t h q stRange) ∧
      (∀ f, e.fld 16 8 + 128 ≤ len → s.fnOf t = some f →
        x = (s.hostWrite f (addr + e.fld 16 8) (if e.byte 10 = 2 then s.queryHeld (dieOf (e.byte 11)) t (e.fld 12 2)
          else s.queryCtx t h (e.byte 10 = 0))).ends t h q stOk) := by
  refine starts.does rfl ?_
  simp only [bound]
  refine ⟨fun short => if_pos ?_, fun f fits serves => ?_⟩
  · simp [inObject, short]
  · rw [if_neg (by simp [inObject, fits])]
    simp only [serves]

/-- FENCE waits for its queues from the doorbells counted when it started (R501). -/
theorem does_fence (starts : Heads s t h q 0x0D e) (first : e.fence = none) :
    Does (.fence t h q) s fun x =>
      (s.fenceHeld t h q e (s.tenant t).bells = false →
        x = (if e.isResume then s.modQueue t h q fun y => { y with faulted := false } else s).ends t h q stOk) ∧
      (s.fenceHeld t h q e (s.tenant t).bells = true → x = { s with ctxs := x.ctxs } ∧
        (x.headCmd t h q).map Cmd.fence = some (some (s.tenant t).bells)) := by
  refine starts.does rfl ?_
  unfold State.fenceHeld
  simp only [first, Option.getD_none]
  refine ⟨fun free => if_neg (Bool.eq_false_iff.1 free), fun held => ?_⟩
  rw [if_pos held]
  exact ⟨rfl, by rw [State.waits_modHead_headCmd starts.head]; rfl⟩

end

/-- Settles O54: a clause each for what SIGNAL, WAIT, QUERY and FENCE do, and for the end of a wait at its horizon. -/
theorem eventCommands : Obligations.EventCommands := by
  unfold Obligations.EventCommands
  refine ⟨?signal, fun _ _ _ _ _ => does_signal_badEvent, fun _ _ _ _ _ => does_wait, ?query, ?fencePasses, ?fenceWaits,
    ?horizon⟩
  case signal =>
    intro s t h q e starts within
    obtain ⟨x, done, w, rfl, events, dies⟩ := does_signal starts within
    have named := events (e.fld 8 2)
    rw [if_pos rfl] at named
    refine ⟨_, done, w, rfl, by rw [named], fun clears => ?_, fun keeps => ?_, fun i other => ?_, dies⟩
    · simp [named, clears]
    · simp [named, keeps]
    · rw [events, if_neg other]
  case query =>
    intro s t h q addr len e starts bound
    obtain ⟨x, done, short, written⟩ := does_query starts bound
    refine ⟨x, done, short, fun f fits serves own => ?_, fun f fits serves held => ?_⟩
    · rw [written f fits serves, if_neg own]
      rfl
    · rw [written f fits serves, if_pos held]
      rfl
  case fencePasses =>
    intro s t h q e starts first later
    obtain ⟨x, done, passes, -⟩ := does_fence starts first
    have free : s.fenceHeld t h q e (s.tenant t).bells = false := by
      rw [Bool.eq_false_iff, ne_eq, State.fenceHeld_iff]
      rintro ⟨k, y, hk, other, masked, hy, c, hc, exposed⟩
      exact Nat.not_le.2 (later k y hk other masked hy c hc) exposed
    refine ⟨x, done, fun plain => ?_, fun resumes => ?_⟩
    · rw [passes free, plain]
      rfl
    · rw [passes free, resumes]
      rfl
  case fenceWaits =>
    intro s t h q k e c y starts first hk other masked hy hc exposed
    obtain ⟨x, done, -, waits⟩ := does_fence starts first
    exact ⟨x, done, waits (State.fenceHeld_iff.2 ⟨k, y, hk, other, masked, hy, c, hc, exposed⟩)⟩
  case horizon =>
    intro s t h q e y w head queue since ends awake
    obtain ⟨u, done, same, late⟩ := execWaitHorizonExpire_expires head queue since ends awake
    exact ⟨_, done, u, rfl, same, late⟩

end Sys2Proof
end

section
/-! What every command and every step keep: the dispatch of `exec` over the lemmas of Laws/Keeps*.lean, and the statements
about the machine as a whole (O1 to O6). -/

namespace Sys2Proof.Machine
open Sys2Proof

/-- Every command of the table ends in a next state and keeps what `Keeps` says. -/
theorem exec_keeps (c : Instr) (s : State) : OKeeps s (exec c s) := by
  cases c with
  | trayEnAssert pins busMv => exact execTrayEnAssert_keeps (.refl s) pins busMv
  | slotIdChange pins => exact execSlotIdChange_keeps (.refl s) pins
  | busLoss cause => exact execBusLoss_keeps (.refl s) cause
  | busBack busMv => exact execBusBack_keeps (.refl s) busMv
  | trayEnDeassert => exact execTrayEnDeassert_keeps (.refl s)
  | effectiveTrayCapUpdate busMv inlet => exact execEffectiveTrayCapUpdate_keeps (.refl s) busMv inlet
  | refLoss d => exact execRefLoss_keeps (.refl s) d
  | rlRelockDone d => exact execRlRelockDone_keeps (.refl s) d
  | refBothLostHalt d => exact execRefBothLostHalt_keeps (.refl s) d
  | refCompareInterval d ppm => exact execRefCompareInterval_keeps (.refl s) d ppm
  | sourceReady d src => exact execSourceReady_keeps (.refl s) d src
  | loopLockLoss d l => exact execLoopLockLoss_keeps (.refl s) d l
  | idleLoopReady d => exact execIdleLoopReady_keeps (.refl s) d
  | epochBoundary => exact execEpochBoundary_keeps (.refl s)
  | compTableUpdate d => exact execCompTableUpdate_keeps (.refl s) d
  | timeExchangeTick d => exact execTimeExchangeTick_keeps (.refl s) d
  | timeRequest d port src no t1 t2 => exact execTimeRequest_keeps (.refl s) d port src no t1 t2
  | timeResponse d no t1 t2 t3 t4 => exact execTimeResponse_keeps (.refl s) d no t1 t2 t3 t4
  | avsCurrentRead d ma mv => exact execAvsCurrentRead_keeps (.refl s) d ma mv
  | avsWriteTimeout d => exact execAvsWriteTimeout_keeps (.refl s) d
  | voltageReady d => exact execVoltageReady_keeps (.refl s) d
  | converterFail n => exact execConverterFail_keeps (.refl s) n
  | vcorePhaseFail d n => exact execVcorePhaseFail_keeps (.refl s) d n
  | regAlertAssert d cause => exact execRegAlertAssert_keeps (.refl s) d cause
  | forcedStateEnd d => exact execForcedStateEnd_keeps (.refl s) d
  | alertHalt d => exact execAlertHalt_keeps (.refl s) d
  | regAlertDeassert d => exact execRegAlertDeassert_keeps (.refl s) d
  | alertAck d => exact execAlertAck_keeps (.refl s) d
  | alertRelease d => exact execAlertRelease_keeps (.refl s) d
  | ageingMeasurement d trim ceil => exact execAgeingMeasurement_keeps (.refl s) d trim ceil
  | ageingOverdue d => exact execAgeingOverdue_keeps (.refl s) d
  | marginModeWrite m d v => exact execMarginModeWrite_keeps (.refl s) m d v
  | vsramVoltageWrite m d v => exact execVsramVoltageWrite_keeps (.refl s) m d v
  | segmentLookahead d t h seg => exact execSegmentLookahead_keeps (.refl s) d t h seg
  | segmentEnd d t h seg watts => exact execSegmentEnd_keeps (.refl s) d t h seg watts
  | rateControlTick d est => exact execRateControlTick_keeps (.refl s) d est
  | demandCurveSend d => exact execDemandCurveSend_keeps (.refl s) d
  | sharesSend loads bus => exact execSharesSend_keeps (.refl s) loads bus
  | sharesLate => exact execSharesLate_keeps (.refl s)
  | proposalSend d => exact execProposalSend_keeps (.refl s) d
  | dieCapWrite m d v => exact execDieCapWrite_keeps (.refl s) m d v
  | trayCapWrite m v => exact execTrayCapWrite_keeps (.refl s) m v
  | glacierWindowWrite m d v => exact execGlacierWindowWrite_keeps (.refl s) m d v
  | divisionModeWrite m d v => exact execDivisionModeWrite_keeps (.refl s) m d v
  | sealedTableWrite m d v => exact execSealedTableWrite_keeps (.refl s) m d v
  | droopTrip d taps => exact execDroopTrip_keeps (.refl s) d taps
  | armedWindowClose d => exact execArmedWindowClose_keeps (.refl s) d
  | detectorTest d failed => exact execDetectorTest_keeps (.refl s) d failed
  | droopSettingWrite m d sub v => exact execDroopSettingWrite_keeps (.refl s) m d sub v
  | thermalSample d n t => exact execThermalSample_keeps (.refl s) d n t
  | thermalRateRise d => exact execThermalRateRise_keeps (.refl s) d
  | groupMaxPublish d => exact execGroupMaxPublish_keeps (.refl s) d
  | heatSurgeEnd d => exact execHeatSurgeEnd_keeps (.refl s) d
  | surgeTimeout d => exact execSurgeTimeout_keeps (.refl s) d
  | tripRestart d => exact execTripRestart_keeps (.refl s) d
  | clearTripLatch m d v => exact execClearTripLatch_keeps (.refl s) m d v
  | loopLossDeclare b flows => exact execLoopLossDeclare_keeps (.refl s) b flows
  | flowLossAssert d => exact execFlowLossAssert_keeps (.refl s) d
  | flowLossRelease d => exact execFlowLossRelease_keeps (.refl s) d
  | flowLossPowerOff d => exact execFlowLossPowerOff_keeps (.refl s) d
  | valveTrim => exact execValveTrim_keeps (.refl s)
  | coolantAlarmUpdate inlet fa fb stuckA stuckB => exact execCoolantAlarmUpdate_keeps (.refl s) inlet fa fb stuckA stuckB
  | heatThresholdWrite m d sub v => exact execHeatThresholdWrite_keeps (.refl s) m d sub v
  | proposalReceive d src epoch code urgent revised heard => exact execProposalReceive_keeps (.refl s) d src epoch code urgent revised heard
  | recordAckTimeout d no => exact execRecordAckTimeout_keeps (.refl s) d no
  | resultForm d => exact execResultForm_keeps (.refl s) d
  | resultReceive d src r => exact execResultReceive_keeps (.refl s) d src r
  | standbyRootTakeover d => exact execStandbyRootTakeover_keeps (.refl s) d
  | leaveSend d cause => exact execLeaveSend_keeps (.refl s) d cause
  | leaveReceive d id => exact execLeaveReceive_keeps (.refl s) d id
  | leaveGroup m d v => exact execLeaveGroup_keeps (.refl s) m d v
  | groupIdentityWrite m d sub v => exact execGroupIdentityWrite_keeps (.refl s) m d sub v
  | joinSend d => exact execJoinSend_keeps (.refl s) d
  | joinReceive d id valid => exact execJoinReceive_keeps (.refl s) d id valid
  | selfRoot d => exact execSelfRoot_keeps (.refl s) d
  | rootMerge d root => exact execRootMerge_keeps (.refl s) d root
  | lend d src amount epoch => exact execLend_keeps (.refl s) d src amount epoch
  | grant d src amount epoch => exact execGrant_keeps (.refl s) d src amount epoch
  | commit d src amount epoch => exact execCommit_keeps (.refl s) d src amount epoch
  | release d src amount epoch => exact execRelease_keeps (.refl s) d src amount epoch
  | energyInterval d r => exact execEnergyInterval_keeps (.refl s) d r
  | benchmarkStart d t h => exact execBenchmarkStart_keeps (.refl s) d t h
  | benchmarkEnd d t h c7 cl => exact execBenchmarkEnd_keeps (.refl s) d t h c7 cl
  | upliftRecompute d => exact execUpliftRecompute_keeps (.refl s) d
  | coeffStore => exact execCoeffStore_keeps (.refl s)
  | overheadRuleWrite m d v => exact execOverheadRuleWrite_keeps (.refl s) m d v
  | contextSelectorWrite m d v => exact execContextSelectorWrite_keeps (.refl s) m d v
  | surveyNow m d v => exact execSurveyNow_keeps (.refl s) m d v
  | surveyIntervalExpire d => exact execSurveyIntervalExpire_keeps (.refl s) d
  | surveyComplete d grid => exact execSurveyComplete_keeps (.refl s) d grid
  | frameStart d => exact execFrameStart_keeps (.refl s) d
  | frameComplete d inTime => exact execFrameComplete_keeps (.refl s) d inTime
  | composerCheck d fault setFaults => exact execComposerCheck_keeps (.refl s) d fault setFaults
  | runCheckNow m d v => exact execRunCheckNow_keeps (.refl s) m d v
  | coeffSetWrite m d set v => exact execCoeffSetWrite_keeps (.refl s) m d set v
  | composerWrite m d sub v => exact execComposerWrite_keeps (.refl s) m d sub v
  | nop d t h u v => exact execNop_keeps (.refl s) d t h u v
  | mloadw d t h u v => exact execMloadw_keeps (.refl s) d t h u v
  | mswap d t h u v => exact execMswap_keeps (.refl s) d t h u v
  | mma d t h u v => exact execMma_keeps (.refl s) d t h u v
  | mdrain d t h u v => exact execMdrain_keeps (.refl s) d t h u v
  | mzero d t h u v => exact execMzero_keeps (.refl s) d t h u v
  | vload d t h u v => exact execVload_keeps (.refl s) d t h u v
  | vstore d t h u v => exact execVstore_keeps (.refl s) d t h u v
  | vadd d t h u v => exact execVadd_keeps (.refl s) d t h u v
  | vmul d t h u v => exact execVmul_keeps (.refl s) d t h u v
  | vfma d t h u v => exact execVfma_keeps (.refl s) d t h u v
  | vmax d t h u v => exact execVmax_keeps (.refl s) d t h u v
  | vexp2 d t h u v => exact execVexp2_keeps (.refl s) d t h u v
  | vrcp d t h u v => exact execVrcp_keeps (.refl s) d t h u v
  | vrsqrt d t h u v => exact execVrsqrt_keeps (.refl s) d t h u v
  | vred d t h u v => exact execVred_keeps (.refl s) d t h u v
  | vscale d t h u v => exact execVscale_keeps (.refl s) d t h u v
  | vacc d t h u v => exact execVacc_keeps (.refl s) d t h u v
  | mcopy d t h u v => exact execMcopy_keeps (.refl s) d t h u v
  | mfill d t h u v => exact execMfill_keeps (.refl s) d t h u v
  | mgather d t h u v => exact execMgather_keeps (.refl s) d t h u v
  | fsend d t h u v => exact execFsend_keeps (.refl s) d t h u v
  | frecv d t h u v => exact execFrecv_keeps (.refl s) d t h u v
  | sload d t h => exact execSload_keeps (.refl s) d t h
  | sstream d t h => exact execSstream_keeps (.refl s) d t h
  | sselect d t h => exact execSselect_keeps (.refl s) d t h
  | sblank d t h => exact execSblank_keeps (.refl s) d t h
  | barrier d t h => exact execBarrier_keeps (.refl s) d t h
  | haltpt d t h => exact execHaltpt_keeps (.refl s) d t h
  | end_ d t h => exact execEnd_keeps (.refl s) d t h
  | bankFree d b => exact execBankFree_keeps (.refl s) d b
  | floatSegmentStart d t h => exact execFloatSegmentStart_keeps (.refl s) d t h
  | holdExpired d t h => exact execHoldExpired_keeps (.refl s) d t h
  | scrubLine d tile bank single double => exact execScrubLine_keeps (.refl s) d tile bank single double
  | barrierArrivalSend d t h pos => exact execBarrierArrivalSend_keeps (.refl s) d t h pos
  | barrierArrival d src t id n parts => exact execBarrierArrival_keeps (.refl s) d src t id n parts
  | barrierRelease d t id n => exact execBarrierRelease_keeps (.refl s) d t id n
  | combStartupCheck d aDev bDev aPow bPow => exact execCombStartupCheck_keeps (.refl s) d aDev bDev aPow bPow
  | combLoss d samples => exact execCombLoss_keeps (.refl s) d samples
  | heaterLoopUpdate d ring u err => exact execHeaterLoopUpdate_keeps (.refl s) d ring u err
  | ringLockLoss d port drop line => exact execRingLockLoss_keeps (.refl s) d port drop line
  | ringSearchTimeout d port drop line => exact execRingSearchTimeout_keeps (.refl s) d port drop line
  | sweepComplete d port drop power => exact execSweepComplete_keeps (.refl s) d port drop power
  | farLightArrival d port => exact execFarLightArrival_keeps (.refl s) d port
  | hello d port group id farPort serial => exact execHello_keeps (.refl s) d port group id farPort serial
  | lanemap d port seq lines => exact execLanemap_keeps (.refl s) d port seq lines
  | trainingComplete d port passTx passRx => exact execTrainingComplete_keeps (.refl s) d port passTx passRx
  | retrainComplete d port => exact execRetrainComplete_keeps (.refl s) d port
  | portLossTimeout d port => exact execPortLossTimeout_keeps (.refl s) d port
  | downPortRetry d port => exact execDownPortRetry_keeps (.refl s) d port
  | portEnableWrite m d v => exact execPortEnableWrite_keeps (.refl s) m d v
  | calibrationStart d port => exact execCalibrationStart_keeps (.refl s) d port
  | calStart d port line => exact execCalStart_keeps (.refl s) d port line
  | calEnd d port line failed => exact execCalEnd_keeps (.refl s) d port line failed
  | calTimeout d port => exact execCalTimeout_keeps (.refl s) d port
  | lineBerWeak d port drop line => exact execLineBerWeak_keeps (.refl s) d port drop line
  | recordBaseline m d v => exact execRecordBaseline_keeps (.refl s) m d v
  | statusSend d port stages stage5 => exact execStatusSend_keeps (.refl s) d port stages stage5
  | status d port stage3 stage5 => exact execStatus_keeps (.refl s) d port stage3 stage5
  | flitReceive d port bytes fixed => exact execFlitReceive_keeps (.refl s) d port bytes fixed
  | nakReceive d port seq => exact execNakReceive_keeps (.refl s) d port seq
  | replayTimeout d port => exact execReplayTimeout_keeps (.refl s) d port
  | open_ d port r => exact execOpen_keeps (.refl s) d port r
  | openDone d t id allot => exact execOpenDone_keeps (.refl s) d t id allot
  | credit d t id n => exact execCredit_keeps (.refl s) d t id n
  | closeFlit d port label t => exact execCloseFlit_keeps (.refl s) d port label t
  | flowlost d t id cause => exact execFlowlost_keeps (.refl s) d t id cause
  | tenantHalt d t all ids => exact execTenantHalt_keeps (.refl s) d t all ids
  | controlRecordForward d port bytes => exact execControlRecordForward_keeps (.refl s) d port bytes
  | lowrate d port back line => exact execLowrate_keeps (.refl s) d port back line
  | refRingUpdate d b change locked => exact execRefRingUpdate_keeps (.refl s) d b change locked
  | tapPowerMeasure d b dbm => exact execTapPowerMeasure_keeps (.refl s) d b dbm
  | bankRecalibration d b d0 gain pass => exact execBankRecalibration_keeps (.refl s) d b d0 gain pass
  | recalibrateNow m d v => exact execRecalibrateNow_keeps (.refl s) m d v
  | persistentCommit ok => exact execPersistentCommit_keeps (.refl s) ok
  | legendWrite m w others => exact execLegendWrite_keeps (.refl s) m w others
  | sitePasswordWrite m v => exact execSitePasswordWrite_keeps (.refl s) m v
  | unlockKeyWrite m v => exact execUnlockKeyWrite_keeps (.refl s) m v
  | preferredRefWrite m d v => exact execPreferredRefWrite_keeps (.refl s) m d v
  | clockEnableWrite m d v => exact execClockEnableWrite_keeps (.refl s) m d v
  | clkmonSelectWrite m d sub v => exact execClkmonSelectWrite_keeps (.refl s) m d sub v
  | clkmonDriveWrite m d v => exact execClkmonDriveWrite_keeps (.refl s) m d v
  | tenantMapWrite m v => exact execTenantMapWrite_keeps (.refl s) m v
  | holdTimeWrite m v => exact execHoldTimeWrite_keeps (.refl s) m v
  | lockoutEnd => exact execLockoutEnd_keeps (.refl s)
  | sessionExpire m => exact execSessionExpire_keeps (.refl s) m
  | endAllExpertSessions m v => exact execEndAllExpertSessions_keeps (.refl s) m v
  | read m g => exact execRead_keeps (.refl s) m g
  | write m g => exact execWrite_keeps (.refl s) m g
  | readBlock m g => exact execReadBlock_keeps (.refl s) m g
  | writeBlock m g => exact execWriteBlock_keeps (.refl s) m g
  | command m g => exact execCommand_keeps (.refl s) m g
  | subscribe m g => exact execSubscribe_keeps (.refl s) m g
  | unknownService m g => exact execUnknownService_keeps (.refl s) m g
  | unlockChallenge m g => exact execUnlockChallenge_keeps (.refl s) m g
  | unlockResponse m g => exact execUnlockResponse_keeps (.refl s) m g
  | lock m g => exact execLock_keeps (.refl s) m g
  | sequenceWindowClear m => exact execSequenceWindowClear_keeps (.refl s) m
  | assemblyTimeout m => exact execAssemblyTimeout_keeps (.refl s) m
  | subscriptionExpire m no => exact execSubscriptionExpire_keeps (.refl s) m no
  | notifyPeriodic m no => exact execNotifyPeriodic_keeps (.refl s) m no
  | notifyOnChange m no => exact execNotifyOnChange_keeps (.refl s) m no
  | beaconTimeout p => exact execBeaconTimeout_keeps (.refl s) p
  | neighbourSolicitation p target src => exact execNeighbourSolicitation_keeps (.refl s) p target src
  | icmpEcho p dst src body => exact execIcmpEcho_keeps (.refl s) p dst src body
  | getVersion q => exact execGetVersion_keeps (.refl s) q
  | getCapabilities q => exact execGetCapabilities_keeps (.refl s) q
  | negotiateAlgorithms q => exact execNegotiateAlgorithms_keeps (.refl s) q
  | getDigests q => exact execGetDigests_keeps (.refl s) q
  | getCertificate q => exact execGetCertificate_keeps (.refl s) q
  | challenge q => exact execChallenge_keeps (.refl s) q
  | getMeasurements q => exact execGetMeasurements_keeps (.refl s) q
  | spdmUnsupportedRequest q => exact execSpdmUnsupportedRequest_keeps (.refl s) q
  | spdmStateTimeout m => exact execSpdmStateTimeout_keeps (.refl s) m
  | doeAbort f => exact execDoeAbort_keeps (.refl s) f
  | doorbell port n size value entry cmds => exact execDoorbell_keeps (.refl s) port n size value entry cmds
  | barRegisterWrite f off size value => exact execBarRegisterWrite_keeps (.refl s) f off size value
  | noticeRingWrite f off value => exact execNoticeRingWrite_keeps (.refl s) f off value
  | busMasterEnableSet f mse => exact execBusMasterEnableSet_keeps (.refl s) f mse
  | holdoffExpire f v => exact execHoldoffExpire_keeps (.refl s) f v
  | msixUnmask f v => exact execMsixUnmask_keeps (.refl s) f v
  | mboxClaim p v also => exact execMboxClaim_keeps (.refl s) p v also
  | mboxDoorbell p len => exact execMboxDoorbell_keeps (.refl s) p len
  | linkTraining p rates widths flit => exact execLinkTraining_keeps (.refl s) p rates widths flit
  | vfFlr p n => exact execVfFlr_keeps (.refl s) p n
  | vfFlrComplete p n => exact execVfFlrComplete_keeps (.refl s) p n
  | vfEnableClear p num => exact execVfEnableClear_keeps (.refl s) p num
  | pfFlr p => exact execPfFlr_keeps (.refl s) p
  | conventionalReset p => exact execConventionalReset_keeps (.refl s) p
  | pfD3hot p => exact execPfD3hot_keeps (.refl s) p
  | nopCommand t h q => exact execNopCommand_keeps (.refl s) t h q
  | bind t h q => exact execBind_keeps (.refl s) t h q
  | unbind t h q => exact execUnbind_keeps (.refl s) t h q
  | reside t h q => exact execReside_keeps (.refl s) t h q
  | evict t h q => exact execEvict_keeps (.refl s) t h q
  | copy t h q => exact execCopy_keeps (.refl s) t h q
  | loadPlan t h q container => exact execLoadPlan_keeps (.refl s) t h q container
  | runPlan t h q => exact execRunPlan_keeps (.refl s) t h q
  | haltPlan t h q => exact execHaltPlan_keeps (.refl s) t h q
  | signal t h q => exact execSignal_keeps (.refl s) t h q
  | wait t h q => exact execWait_keeps (.refl s) t h q
  | query t h q => exact execQuery_keeps (.refl s) t h q
  | scrub t h q => exact execScrub_keeps (.refl s) t h q
  | fence t h q => exact execFence_keeps (.refl s) t h q
  | copyUnitDone d e data => exact execCopyUnitDone_keeps (.refl s) d e data
  | granuleZeroed d g => exact execGranuleZeroed_keeps (.refl s) d g
  | waitHorizonExpire t h q => exact execWaitHorizonExpire_keeps (.refl s) t h q
  | bootRomStart okA okB => exact execBootRomStart_keeps (.refl s) okA okB
  | lockstepMismatch => exact execLockstepMismatch_keeps (.refl s)
  | dieStart d => exact execDieStart_keeps (.refl s) d
  | governorFirmwareLoad d ok digest => exact execGovernorFirmwareLoad_keeps (.refl s) d ok digest
  | dieIdentityCheck d key serial sig chains => exact execDieIdentityCheck_keeps (.refl s) d key serial sig chains
  | clockStart d => exact execClockStart_keeps (.refl s) d
  | selfTest d tested lines detectors => exact execSelfTest_keeps (.refl s) d tested lines detectors
  | startStepLate d => exact execStartStepLate_keeps (.refl s) d
  | dieReady d => exact execDieReady_keeps (.refl s) d
  | trayReady => exact execTrayReady_keeps (.refl s)
  | vaultRestore => exact execVaultRestore_keeps (.refl s)
  | trayColdReset m v => exact execTrayColdReset_keeps (.refl s) m v
  | diePowerCycle m d v => exact execDiePowerCycle_keeps (.refl s) m d v
  | dieWarmReset m d v => exact execDieWarmReset_keeps (.refl s) m d v
  | enterFrost m d v => exact execEnterFrost_keeps (.refl s) m d v
  | enterFrostTray m v => exact execEnterFrostTray_keeps (.refl s) m v
  | haltPointsReached d => exact execHaltPointsReached_keeps (.refl s) d
  | frozen d => exact execFrozen_keeps (.refl s) d
  | frostEntryTimeout d => exact execFrostEntryTimeout_keeps (.refl s) d
  | frostHaltDeadline => exact execFrostHaltDeadline_keeps (.refl s)
  | thaw m d v => exact execThaw_keeps (.refl s) m d v
  | thawTray m v => exact execThawTray_keeps (.refl s) m v
  | thawEnd d => exact execThawEnd_keeps (.refl s) d
  | moduleInserted ok serial mv => exact execModuleInserted_keeps (.refl s) ok serial mv
  | moduleRemoved => exact execModuleRemoved_keeps (.refl s)
  | chargerStart mv => exact execChargerStart_keeps (.refl s) mv
  | chargeComplete ma => exact execChargeComplete_keeps (.refl s) ma
  | chargeCurrentCollapse ma => exact execChargeCurrentCollapse_keeps (.refl s) ma
  | capacityTest rest0 rest1 => exact execCapacityTest_keeps (.refl s) rest0 rest1
  | moduleFault mv => exact execModuleFault_keeps (.refl s) mv
  | holdupAvailabilityCheck mah => exact execHoldupAvailabilityCheck_keeps (.refl s) mah
  | holdTimerExpire => exact execHoldTimerExpire_keeps (.refl s)
  | vaultSaveComplete => exact execVaultSaveComplete_keeps (.refl s)
  | discardVaultSave m v => exact execDiscardVaultSave_keeps (.refl s) m v
  | granuleHoldExpire => exact execGranuleHoldExpire_keeps (.refl s)
  | trayPowerDown m v => exact execTrayPowerDown_keeps (.refl s) m v
  | imageChunkNumberWrite m v => exact execImageChunkNumberWrite_keeps (.refl s) m v
  | imageChunk m v => exact execImageChunk_keeps (.refl s) m v
  | stageImage m v => exact execStageImage_keeps (.refl s) m v
  | stagingComplete r => exact execStagingComplete_keeps (.refl s) r
  | activateStagedImage m v => exact execActivateStagedImage_keeps (.refl s) m v
  | firnRecordCheck who r => exact execFirnRecordCheck_keeps (.refl s) who r
  | holdingPatternCheck d est => exact execHoldingPatternCheck_keeps (.refl s) d est
  | holdingPatternEnd d digest => exact execHoldingPatternEnd_keeps (.refl s) d digest
  | handoffWatchdog who => exact execHandoffWatchdog_keeps (.refl s) who
  | updateConfirm => exact execUpdateConfirm_keeps (.refl s)
  | emergency d r => exact execEmergency_keeps (.refl s) d r
  | moraineAssign => exact execMoraineAssign_keeps (.refl s)
  | remapTile m d v => exact execRemapTile_keeps (.refl s) m d v
  | tileRemap d pass => exact execTileRemap_keeps (.refl s) d pass
  | ledDiagnosis currents => exact execLedDiagnosis_keeps (.refl s) currents
  | heaterDiagnosis d ring meas => exact execHeaterDiagnosis_keeps (.refl s) d ring meas
  | boundaryScanInstruction ir => exact execBoundaryScanInstruction_keeps (.refl s) ir
  | sourceReadyLoss d src => exact execSourceReadyLoss_keeps (.refl s) d src
  | converterRestored n => exact execConverterRestored_keeps (.refl s) n
  | detectorLineStuck d det => exact execDetectorLineStuck_keeps (.refl s) d det
  | standbyUnavailable d pow offs => exact execStandbyUnavailable_keeps (.refl s) d pow offs
  | framingLoss d port => exact execFramingLoss_keeps (.refl s) d port
  | busMasterEnableClear f mse => exact execBusMasterEnableClear_keeps (.refl s) f mse
  | pfReturnToD0 p => exact execPfReturnToD0_keeps (.refl s) p
  | vfEnableSet p num mse => exact execVfEnableSet_keeps (.refl s) p num mse
  | doeDiscovery f ty idx => exact execDoeDiscovery_keeps (.refl s) f ty idx
  | scoutCalibrationTablesBuilt d d0 gain => exact execScoutCalibrationTablesBuilt_keeps (.refl s) d d0 gain
  | holdupConverterTakeover mv => exact execHoldupConverterTakeover_keeps (.refl s) mv
  | trayControllerRestartDone => exact execTrayControllerRestartDone_keeps (.refl s)
  | beaconRegained p => exact execBeaconRegained_keeps (.refl s) p

theorem Keeps.inv {s t : State} (k : Keeps s t) (sound : Inv s) : Inv t :=
  ⟨k.dies sound.dies, k.masters sound.masters⟩

theorem keeps_of_exec {c : Instr} {s t : State} (h : exec c s = .next t) : Keeps s t := by
  obtain ⟨u, hu, k⟩ := (exec_keeps c s).keeps
  obtain rfl : u = t := by simpa [hu] using h
  exact k

theorem step_nil {s : State} (h : s.pending = []) :
    step s = .next { s with tray := { s.tray with now := s.tray.now + 1 } } := by
  unfold step
  rw [h]

theorem step_cons {c : Instr} {cs : List Instr} {s : State} (h : s.pending = c :: cs) :
    step s = exec c { s with pending := cs } := by
  unfold step
  rw [h]

/-- A read of n bytes gives each byte of the memory, whatever its other cells. -/
theorem Sram.readN_eq (m : List Host.Cell) (a n : Nat) :
    Sram.readN m a n = (List.range n).map fun i => Sram.read m (a + i) := by
  unfold Sram.readN
  refine List.map_congr_left fun i hi => Sram.read_filter m _ _ fun c hc => ?_
  have := List.mem_range.1 hi
  simp [hc, this]

theorem State.sramRead_one (s : State) (d : DieId) (a : Nat) : s.sramRead d a 1 = [Sram.read (s.die d).til.sram a] := by
  simp [State.sramRead, Sram.readN_eq]

@[simp] theorem State.sramWrite_sram (s : State) (d : DieId) (a : Nat) (bs : List Byte) :
    ((s.sramWrite d a bs).die d).til.sram = Sram.write (s.die d).til.sram a bs := by
  simp [State.sramWrite]

@[simp] theorem State.sramZero_sram (s : State) (d : DieId) (a n : Nat) :
    ((s.sramZero d a n).die d).til.sram = Sram.zero (s.die d).til.sram a n := by
  simp [State.sramZero]

end Sys2Proof.Machine
end

section
namespace Sys2Proof
open Sys2Proof.Machine

/-- Settles O1: `step` of a queue with a front command is `exec` of it. -/
theorem stepRunsTheFrontCommand : Obligations.StepRunsTheFrontCommand := by
  intro c cs s
  exact step_cons rfl

/-- Settles O2. -/
theorem emptyQueueIdles : Obligations.EmptyQueueIdles := by
  intro s empty
  exact ⟨_, step_nil empty, (Nat.add_assoc ..).symm, rfl⟩

/-- Settles O3: all three clauses are parts of `Keeps`, which every arm of `exec` has. -/
theorem everyCommandCompletes : Obligations.EveryCommandCompletes := by
  refine ⟨fun c s => ?_, fun c s t h => (keeps_of_exec h).pending, fun c s t h => ?_⟩
  · obtain ⟨t, done, -⟩ := (exec_keeps c s).keeps
    exact ⟨t, done⟩
  · exact ⟨(keeps_of_exec h).time, (keeps_of_exec h).outputs⟩

/-- Settles O4: every die and every master is the default one. -/
theorem resetIsSound : Obligations.ResetIsSound := by
  have die (d : DieId) : State.reset.die d = {} := by simp [State.die, State.reset, vec_get]
  have master (m : MasterId) : State.reset.master m = {} := by simp [State.master, State.reset, vec_get]
  refine ⟨fun d => ?_, fun m => ?_⟩
  · rw [die]
    exact ⟨rfl, Nat.zero_le _, nofun, Nat.zero_le _, Nat.zero_le _, by simp⟩
  · rw [master]
    exact ⟨Nat.zero_le _, Nat.zero_le _⟩

/-- Settles O5: an idle step touches no die and no master, and a command keeps the state sound by `exec_keeps`. -/
theorem everyStepKeepsTheStateSound : Obligations.EveryStepKeepsTheStateSound := by
  intro s t sound ran
  cases queue : s.pending with
  | nil =>
    obtain rfl : _ = t := by simpa [step_nil queue] using ran
    exact ⟨sound.dies, sound.masters⟩
  | cons c cs =>
    rw [step_cons queue] at ran
    exact (keeps_of_exec ran).inv ⟨sound.dies, sound.masters⟩

/-- Settles O6: the laws of `Sram` (Laws/Memory.lean), read through the die that is written. -/
theorem sramReadsWhatWasWritten : Obligations.SramReadsWhatWasWritten := by
  intro s d a bs
  simp only [State.sramRead_one, List.cons.injEq, and_true]
  refine ⟨fun i hi => ?_, fun b hb => ?_, fun e b other => ?_, fun n b low high => ?_, fun n b hb => ?_⟩
  · rw [State.sramWrite_sram, Sram.read_write _ _ _ _ hi]
  · rw [State.sramWrite_sram, Sram.read_write_ne _ _ _ _ hb]
  · rw [State.sramWrite, State.modDie_die_ne _ _ _ _ other]
  · rw [State.sramZero_sram, Sram.read_zero _ _ _ _ ⟨low, high⟩]
  · rw [State.sramZero_sram, Sram.read_zero_ne _ _ _ _ hb]

end Sys2Proof
end

section
/-! What a write of the gate leaves as it was: the frame `GateOnly`, and the rules `LimitRule` and `BoundaryRule` of the writes
that lower at once and raise at the boundary (R400 to R402). -/

namespace Sys2Proof
open Sys2Proof.Machine

theorem Does.imp {c : Instr} {s : State} {P Q : State → Prop} (h : Does c s P) (imp : ∀ t, P t → Q t) : Does c s Q := by
  obtain ⟨t, ran, holds⟩ := h
  exact ⟨t, ran, imp t holds⟩

theorem GateOnly.trans {k : ObjKey} {s t u : State} (h : GateOnly k s t) (j : GateOnly k t u) : GateOnly k s u := by
  refine ⟨?_, fun i u l hk => (j.settings i u l hk).trans (h.settings i u l hk),
    fun i hi => (j.raises i hi).trans (h.raises i hi)⟩
  have a := h.rest
  have b := j.rest
  rw [b, a]

theorem GateOnly.outputs {k : ObjKey} {s t : State} (h : GateOnly k s t) : t.outputs = s.outputs := by
  have a := h.rest
  rw [a]

theorem DieOnly.gate {d : DieId} {s t : State} (h : DieOnly d s t) (k : ObjKey) : GateOnly k s t := by
  have a := h.rest
  rw [a]
  exact ⟨rfl, fun _ _ _ _ => rfl, fun _ _ => rfl⟩

namespace Machine

theorem State.atTick_gate (k : ObjKey) (s : State) : GateOnly k s s.atTick := ⟨rfl, fun _ _ _ _ => rfl, fun _ _ => rfl⟩

theorem KV.get?_put_other {α β : Type} [DecidableEq α] (l : List (α × β)) {j k : α} (h : j ≠ k) (v : β) :
    KV.get? (KV.put l k v) j = KV.get? l j := KV.get?_put_ne l h v

theorem State.setting_putSetting_ne (s : State) {i u l i' u' l' : Nat} (v : Nat)
    (h : (⟨i', u', l'⟩ : ObjKey) ≠ ⟨i, u, l⟩) : (s.putSetting i u l v).setting i' u' l' = s.setting i' u' l' := by
  unfold State.setting State.putSetting
  simp only [State.modTray, KV.get?_put_ne _ h]

/-- A setting and a pending raise are read from the Legend and the latched slot number alone. -/
theorem State.setting_congr {s t : State} (leg : t.tray.leg = s.tray.leg)
    (slot : t.tray.pow.slotLatched = s.tray.pow.slotLatched) (i u l : Nat) : t.setting i u l = s.setting i u l := by
  unfold State.setting
  rw [leg, slot]

theorem State.pendingRaise_congr {s t : State} (leg : t.tray.leg = s.tray.leg) (k : ObjKey) :
    t.pendingRaise k = s.pendingRaise k := by
  unfold State.pendingRaise
  rw [leg]

@[simp] theorem State.pendingRaise_cancelRaise (s : State) (k : ObjKey) : (s.cancelRaise k).pendingRaise k = none := by
  simp [State.pendingRaise, State.cancelRaise]

theorem State.pendingRaise_cancelRaise_ne (s : State) {j k : ObjKey} (h : j ≠ k) :
    (s.cancelRaise k).pendingRaise j = s.pendingRaise j := by
  simp only [State.pendingRaise, State.cancelRaise, State.modTray_tray, List.find?_filter]
  congr 2
  funext r
  by_cases same : r.1 = j
  · simp [same, h]
  · simp [same]

@[simp] theorem State.pendingRaise_setRaise (s : State) (k : ObjKey) (v e : Nat) :
    (s.setRaise k v e).pendingRaise k = some (v, e) := by
  have none := s.pendingRaise_cancelRaise k
  simp only [State.pendingRaise, Option.map_eq_none_iff] at none
  simp [State.pendingRaise, State.setRaise, List.find?_append, none]

theorem State.pendingRaise_setRaise_ne (s : State) {j k : ObjKey} (h : j ≠ k) (v e : Nat) :
    (s.setRaise k v e).pendingRaise j = s.pendingRaise j := by
  rw [← s.pendingRaise_cancelRaise_ne h]
  simp [State.pendingRaise, State.setRaise, List.find?_append, h.symm]

@[simp] theorem State.setting_cancelRaise (s : State) (k : ObjKey) (i u l : Nat) :
    (s.cancelRaise k).setting i u l = s.setting i u l := rfl
@[simp] theorem State.setting_setRaise (s : State) (k : ObjKey) (v e i u l : Nat) :
    (s.setRaise k v e).setting i u l = s.setting i u l := rfl
@[simp] theorem State.cancelRaise_die (s : State) (k : ObjKey) (d : DieId) : (s.cancelRaise k).die d = s.die d := rfl
@[simp] theorem State.cancelRaise_dies (s : State) (k : ObjKey) : (s.cancelRaise k).dies = s.dies := rfl
@[simp] theorem State.setRaise_dies (s : State) (k : ObjKey) (v e : Nat) : (s.setRaise k v e).dies = s.dies := rfl
@[simp] theorem State.putSetting_die (s : State) (i u l v : Nat) (d : DieId) : (s.putSetting i u l v).die d = s.die d := rfl
@[simp] theorem State.putSetting_dies (s : State) (i u l v : Nat) : (s.putSetting i u l v).dies = s.dies := rfl
@[simp] theorem State.pendingRaise_putSetting (s : State) (i u l v : Nat) (k : ObjKey) :
    (s.putSetting i u l v).pendingRaise k = s.pendingRaise k := rfl

theorem State.cancelRaise_gate (s : State) (k : ObjKey) : GateOnly k s (s.cancelRaise k) :=
  ⟨rfl, fun _ _ _ _ => rfl, fun _ h => s.pendingRaise_cancelRaise_ne h⟩

theorem State.setRaise_gate (s : State) (k : ObjKey) (v e : Nat) : GateOnly k s (s.setRaise k v e) :=
  ⟨rfl, fun _ _ _ _ => rfl, fun _ h => s.pendingRaise_setRaise_ne h v e⟩

theorem State.putSetting_gate (s : State) (i u l v : Nat) : GateOnly ⟨i, u, l⟩ s (s.putSetting i u l v) :=
  ⟨rfl, fun _ _ _ h => s.setting_putSetting_ne v h, fun _ _ => rfl⟩

theorem gateEnd_done_gate (m : MasterId) (k : ObjKey) (v : List Byte) (t : State) (e : Nat) (b : Bool) :
    GateOnly k t (gateEnd m k v (.done t e b)) := by
  rw [gateEnd_done]
  exact ⟨rfl, fun _ _ _ _ => rfl, fun _ _ => rfl⟩

@[simp] theorem gateEnd_done_pendingRaise (m : MasterId) (k : ObjKey) (v : List Byte) (t : State) (e : Nat) (b : Bool)
    (j : ObjKey) : (gateEnd m k v (.done t e b)).pendingRaise j = t.pendingRaise j := by
  unfold State.pendingRaise
  rw [gateEnd_done_raises]

@[simp] theorem dieOf_val (d : DieId) : dieOf d.val = d := Fin.ext (Nat.mod_eq_of_lt d.isLt)

/-- The gate takes a write of m at once and applies the rule `apply` of its object: the command leaves what ends the write. -/
theorem does_gate {c : Instr} {s : State} {m : MasterId} {k : ObjKey} {v : List Byte}
    {apply : State → MasterId → List Byte → GateResult} (takes : GateTakes m k v s)
    (runs : exec c s = .next (s.gate m k v apply)) {P : State → Prop} (holds : P (gateEnd m k v (apply s.atTick m v))) :
    Does c s P := ⟨_, runs.trans (by rw [State.gate_takes takes]), holds⟩

/-- As `does_gate`, for a write that its object's rule carries out. -/
theorem does_gate_done {c : Instr} {s u : State} {m : MasterId} {k : ObjKey} {v : List Byte} {e : Nat} {b : Bool}
    {apply : State → MasterId → List Byte → GateResult} (takes : GateTakes m k v s)
    (runs : exec c s = .next (s.gate m k v apply)) (done : apply s.atTick m v = .done u e b) {P : State → Prop}
    (holds : P (gateEnd m k v (.done u e b))) : Does c s P :=
  does_gate takes runs (by rw [done]; exact holds)

/-! ### Writes of limit-class objects -/

/-- The lowering of a limit-class object is in force: its setting stands, its raise is cancelled, and the effect that the object
adds came on top. -/
def State.lowered (s : State) (k : ObjKey) (v : Nat) : State := (s.cancelRaise k).putSetting k.idx k.sub k.sel v

/-- A lowering is applied when it is written: it is more restrictive, no equal value, and no holding pattern delays it. -/
def State.lowersNow (s : State) (k : ObjKey) (d : DieId) (lower : Bool) (v : Nat) : Prop :=
  v ≠ s.setting k.idx k.sub k.sel ∧ moreRestrictive lower v (s.setting k.idx k.sub k.sel) = true ∧
    (0x2000 ≤ k.idx → (s.die d).svc.holding = none)

/-- What a write of a limit-class object leaves, by R400 and R401: the rule, and the effect exactly when it lowers at once. -/
structure LimitDone (m : MasterId) (k : ObjKey) (d : DieId) (lower : Bool) (v : Nat) (bytes : List Byte)
    (effect : State → State) (s t : State) : Prop where
  rule : LimitRule k d lower v s t
  waits : ¬ s.lowersNow k d lower v → GateOnly k s t ∧ t.dies = s.dies ∧ t.tray.pow = s.tray.pow
  lowers : s.lowersNow k d lower v → t = gateEnd m k bytes (.done (effect (s.atTick.lowered k v)) 0 true)

theorem moreRestrictive_self (lower : Bool) (v : Nat) : moreRestrictive lower v v = true := by
  cases lower <;> simp [moreRestrictive]

theorem State.limitWrite_done {s : State} (m : MasterId) {k : ObjKey} {d : DieId} {lower : Bool} (v : Nat)
    (bytes : List Byte) {effect : State → State} (cls : limitClass k.idx k.sub = some lower)
    (counts : (if k.idx < 0x2000 then s.timeDie else dieOf k.sel) = d)
    (settings : ∀ u i j l, (effect u).setting i j l = u.setting i j l)
    (raises : ∀ u j, (effect u).pendingRaise j = u.pendingRaise j) :
    ∃ t e b, s.atTick.limitWrite k v effect = .done t e b ∧
      LimitDone m k d lower v bytes effect s (gateEnd m k bytes (.done t e b)) := by
  have die : 0x2000 ≤ k.idx → dieOf k.sel = d := fun h => by rw [← counts, if_neg (Nat.not_lt.2 h)]
  have timeDie : s.atTick.timeDie = s.timeDie := rfl
  unfold State.limitWrite
  simp only [cls, Option.getD_some, State.atTick_setting, timeDie, counts, State.atTick_die]
  by_cases same : v = s.setting k.idx k.sub k.sel
  · rw [if_pos same]
    refine ⟨_, _, _, rfl, ⟨⟨fun _ => ?_, fun h => absurd same h, fun h => absurd same h, fun h => ?_⟩, fun _ => ⟨?_, ?_, ?_⟩,
      fun h => absurd same h.1⟩⟩
    · simp [same]
    · rw [same, moreRestrictive_self] at h
      cases h
    · exact ((s.atTick_gate k).trans (State.cancelRaise_gate ..)).trans (gateEnd_done_gate ..)
    · simp
    · simp only [gateEnd_done_pow]
      rfl
  · rw [if_neg same]
    by_cases more : moreRestrictive lower v (s.setting k.idx k.sub k.sel) = true
    · by_cases held : 0x2000 ≤ k.idx ∧ (s.die d).svc.holding.isSome = true
      · rw [if_pos ⟨more, held.1, by rw [die held.1]; exact held.2⟩]
        refine ⟨_, _, _, rfl, ⟨⟨fun h => absurd h same, fun _ _ h => ?_, fun _ _ _ _ => ?_, fun h => ?_⟩, fun _ => ⟨?_, ?_, ?_⟩,
          fun h => ?_⟩⟩
        · simp [h held.1] at held
        · simp
        · rw [more] at h
          cases h
        · exact ((s.atTick_gate k).trans (State.setRaise_gate ..)).trans (gateEnd_done_gate ..)
        · simp
        · simp only [gateEnd_done_pow]
          rfl
        · simp [h.2.2 held.1] at held
      · have free : 0x2000 ≤ k.idx → (s.die d).svc.holding = none := fun h => by
          simpa [h] using held
        rw [if_neg (fun h => held ⟨h.2.1, by rw [← die h.2.1]; exact h.2.2⟩), if_pos more]
        refine ⟨_, _, _, rfl, ⟨⟨fun h => absurd h same, fun _ _ _ => ?_, fun _ _ h1 h2 => absurd ⟨h1, h2⟩ held, fun h => ?_⟩,
          fun h => absurd ⟨same, more, free⟩ h, fun _ => rfl⟩⟩
        · simp [settings, raises]
        · rw [more] at h
          cases h
    · rw [if_neg (fun h => more h.1), if_neg more]
      refine ⟨_, _, _, rfl, ⟨⟨fun h => absurd h same, fun _ h => absurd h more, fun _ h => absurd h more, fun _ => ?_⟩,
        fun _ => ⟨?_, ?_, ?_⟩, fun h => absurd h.2.1 more⟩⟩
      · simp
      · exact ((s.atTick_gate k).trans (State.setRaise_gate ..)).trans (gateEnd_done_gate ..)
      · simp
      · simp only [gateEnd_done_pow]
        rfl

theorem State.lowered_gate (s : State) (k : ObjKey) (v : Nat) : GateOnly k s (s.atTick.lowered k v) :=
  ((s.atTick_gate k).trans (State.cancelRaise_gate ..)).trans (State.putSetting_gate ..)

/-- A limit-class write whose effect stays within one die keeps `GateOnly`, whether it lowers or waits. -/
theorem LimitDone.gate {m : MasterId} {k : ObjKey} {d : DieId} {lower : Bool} {v : Nat} {bytes : List Byte}
    {effect : State → State} {s t : State} (h : LimitDone m k d lower v bytes effect s t)
    (only : ∀ u, DieOnly d u (effect u)) : GateOnly k s t ∧ ∀ e, e ≠ d → t.die e = s.die e := by
  by_cases now : s.lowersNow k d lower v
  · rw [h.lowers now]
    refine ⟨((s.lowered_gate k v).trans ((only _).gate k)).trans (gateEnd_done_gate ..), fun e he => ?_⟩
    rw [gateEnd_done_die, (only _).others e he]
    rfl
  · obtain ⟨gate, dies, -⟩ := h.waits now
    exact ⟨gate, fun e _ => congrArg (Vector.get · e) dies⟩

/-- The gate takes a write of a limit-class object by number. -/
theorem does_limitWrite {c : Instr} {s : State} {m : MasterId} {k : ObjKey} {n v : Nat} {d : DieId} {lower : Bool}
    {effect : State → State} {apply : State → MasterId → List Byte → GateResult} (takes : GateTakes m k (leBytes n v) s)
    (runs : exec c s = .next (s.gate m k (leBytes n v) apply))
    (rule : apply s.atTick m (leBytes n v) = s.atTick.limitWrite k (v % 256 ^ n) effect)
    (cls : limitClass k.idx k.sub = some lower) (counts : (if k.idx < 0x2000 then s.timeDie else dieOf k.sel) = d)
    (settings : ∀ u i j l, (effect u).setting i j l = u.setting i j l)
    (raises : ∀ u j, (effect u).pendingRaise j = u.pendingRaise j) :
    Does c s (LimitDone m k d lower (v % 256 ^ n) (leBytes n v) effect s) := by
  obtain ⟨t, e, b, done, holds⟩ := s.limitWrite_done m (v % 256 ^ n) (leBytes n v) cls counts settings raises
  exact does_gate_done takes runs (rule.trans done) holds

/-! ### A fold over the dies -/

/-- A fold of steps each of which changes one die alone: each die is the one that its own step made of it. -/
theorem foldl_dies {R : State → State → Prop} (refl : ∀ s, R s s) (trans : ∀ s t u, R s t → R t u → R s u)
    {f : State → DieId → State} (step : ∀ u d, R u (f u d)) (others : ∀ u d e, e ≠ d → (f u d).die e = u.die e)
    (l : List DieId) (nodup : l.Nodup) (s : State) :
    R s (l.foldl f s) ∧ (∀ d, d ∉ l → (l.foldl f s).die d = s.die d) ∧
      ∀ d ∈ l, ∃ u, R s u ∧ u.die d = s.die d ∧ (l.foldl f s).die d = (f u d).die d := by
  induction l generalizing s with
  | nil => exact ⟨refl s, fun _ _ => rfl, fun _ h => absurd h List.not_mem_nil⟩
  | cons a l ih =>
    obtain ⟨fresh, rest⟩ := List.nodup_cons.1 nodup
    obtain ⟨frame, out, own⟩ := ih rest (f s a)
    refine ⟨trans _ _ _ (step s a) frame, fun d hd => ?_, fun d hd => ?_⟩
    · obtain ⟨ne, nl⟩ := not_or.1 fun mem => hd (List.mem_cons.2 mem)
      exact (out d nl).trans (others s a d ne)
    · by_cases same : d = a
      · subst same
        exact ⟨s, refl s, rfl, out d fresh⟩
      · obtain ⟨u, ru, du, fu⟩ := own d ((List.mem_cons.1 hd).resolve_left same)
        exact ⟨u, trans _ _ _ (step s a) ru, du.trans (others s a d same), fu⟩

theorem State.forDies_die {R : State → State → Prop} (refl : ∀ s, R s s) (trans : ∀ s t u, R s t → R t u → R s u)
    {f : State → DieId → State} (step : ∀ u d, R u (f u d)) (others : ∀ u d e, e ≠ d → (f u d).die e = u.die e)
    (s : State) : R s (s.forDies f) ∧ ∀ d, ∃ u, R s u ∧ u.die d = s.die d ∧ (s.forDies f).die d = (f u d).die d := by
  obtain ⟨frame, -, own⟩ := foldl_dies refl trans step others (List.finRange 8) (List.nodup_finRange 8) s
  exact ⟨frame, fun d => own d (List.mem_finRange d)⟩

/-! ### The tray cap (R129) -/

theorem State.vsramSet_only (s : State) (d : DieId) (v : Nat) : DieOnly d s (s.vsramSet d v) := by
  unfold State.vsramSet State.modRails
  exact s.modDie_only d _

theorem State.scaleBudgets_only (s : State) (d : DieId) : DieOnly d s (s.scaleBudgets d) := by
  unfold State.scaleBudgets
  exact State.modDie_only ..

theorem Die.limitRates_pow (x : Die) (rem : Nat) : (x.limitRates rem).pow = x.pow := rfl

theorem Die.scaled_share (x : Die) (roh b : Nat) (pg : Int) : (x.scaled roh b pg).pow.share = x.pow.share := rfl

@[simp] theorem State.scaleBudgets_share (s : State) (d : DieId) : ((s.scaleBudgets d).die d).pow.share = (s.die d).pow.share := by
  unfold State.scaleBudgets
  rw [State.modDie_die, Die.limitRates_pow, Die.scaled_share]

theorem State.cutShares_spec (s : State) : s.cutShares.tray = s.tray ∧
    ∀ d, (s.cutShares.die d).pow.share = (s.sharesBy fun e => (s.die e).clk.curStep).getD d.val 0 := by
  obtain ⟨frame, own⟩ := State.forDies_die (R := fun s t => t.tray = s.tray) (fun _ => rfl) (fun _ _ _ h k => k.trans h)
    (f := fun u d => (u.modDie d fun x => { x with pow := { x.pow with
      share := (s.sharesBy fun e => (s.die e).clk.curStep).getD d.val 0 } }).scaleBudgets d)
    (fun _ _ => rfl) (fun u d e he => ((u.modDie_only d _).trans (State.scaleBudgets_only ..)).others e he) s
  refine ⟨frame, fun d => ?_⟩
  obtain ⟨u, -, -, last⟩ := own d
  unfold State.cutShares
  rw [last, State.scaleBudgets_share, State.modDie_die]

theorem State.updateCap_tray (s : State) : s.updateCap.tray.leg = s.tray.leg ∧
    s.updateCap.tray.pow.slotLatched = s.tray.pow.slotLatched := by
  refine ⟨rfl, ?_⟩
  unfold State.updateCap
  rw [State.modTray_tray]
  dsimp only
  split <;> rfl

end Machine

/-- Settles O13: each write is one `limitWrite` of its object, and the effect on top of it changes its own die alone; that of the
tray cap shares anew. -/
theorem limitWrites : Obligations.LimitWrites := by
  unfold Obligations.LimitWrites
  refine ⟨?vsram, ?dieCap, ?trayCap, ?droop, ?heat⟩
  case vsram =>
    intro s m d v takes
    refine (does_limitWrite (d := d) (effect := fun s => s.vsramSet d (v % 256 ^ 2)) takes rfl
      (by simp only [leNat_leBytes]) rfl (dieOf_val d) (fun _ _ _ _ => rfl) (fun _ _ => rfl)).imp fun t h => ?_
    obtain ⟨gate, others⟩ := h.gate fun u => u.vsramSet_only d _
    refine ⟨h.rule, fun low => (h.waits fun now => ?_).2.1, fun high free => ?_, gate, others⟩
    · have := now.2.1
      simp only [moreRestrictive, Bool.false_eq_true, if_false, decide_eq_true_eq] at this
      exact now.1 (Nat.le_antisymm low this)
    · rw [h.lowers ⟨Nat.ne_of_gt high, decide_eq_true (Nat.le_of_lt high), fun _ => free⟩]
      simp [State.vsramSet, State.modRails, State.lowered]
  case dieCap =>
    intro s m d v shared takes
    refine (does_limitWrite (d := d) (effect := fun s => s.scaleBudgets d) takes rfl
      (by simp [State.dieCapApply, leNat_leBytes, shared]) rfl (dieOf_val d) (fun _ _ _ _ => rfl) (fun _ _ => rfl)).imp
      fun t h => ?_
    obtain ⟨gate, others⟩ := h.gate fun u => u.scaleBudgets_only d
    refine ⟨h.rule, fun high => (h.waits fun now => ?_).2.1, fun low free => ?_, gate, others⟩
    · have := now.2.1
      simp only [moreRestrictive, if_true, decide_eq_true_eq] at this
      exact now.1 (Nat.le_antisymm this high)
    · rw [h.lowers ⟨Nat.ne_of_lt low, decide_eq_true (Nat.le_of_lt low), fun _ => free⟩, gateEnd_done_dies]
      rfl
  case trayCap =>
    intro s m v shared takes
    have effect (u : State) : u.updateCap.cutShares.tray = u.updateCap.tray := (State.cutShares_spec _).1
    refine (does_limitWrite (d := s.timeDie) (effect := fun s => s.updateCap.cutShares) takes rfl
      (by simp [State.trayCapApply, leNat_leBytes, shared]) rfl rfl
      (fun u _ _ _ => State.setting_congr (by rw [effect, u.updateCap_tray.1]) (by rw [effect, u.updateCap_tray.2]) ..)
      (fun u _ => State.pendingRaise_congr (by rw [effect, u.updateCap_tray.1]) _)).imp fun t h => ?_
    refine ⟨h.rule, fun high => (h.waits fun now => ?_).2, fun low => ?_⟩
    · have := now.2.1
      simp only [moreRestrictive, if_true, decide_eq_true_eq] at this
      exact now.1 (Nat.le_antisymm this high)
    · rw [h.lowers ⟨Nat.ne_of_lt low, decide_eq_true (Nat.le_of_lt low), fun h => absurd h (by decide)⟩]
      simp only [gateEnd_done_pow, gateEnd_done_die, effect]
      exact ⟨rfl, fun d => (State.cutShares_spec _).2 d⟩
  case droop =>
    intro s m d sub v hsub takes
    have cls : limitClass 0x2200 sub = some (sub == 1) := by
      obtain rfl | rfl | rfl := hsub <;> rfl
    refine (does_limitWrite (effect := id) takes rfl (by simp only [leNat_leBytes]) cls (dieOf_val d) (fun _ _ _ _ => rfl)
      (fun _ _ => rfl)).imp fun t h => ⟨h.rule, (h.gate (DieOnly.refl d)).1, ?_⟩
    by_cases now : s.lowersNow ⟨0x2200, sub, d.val⟩ d (sub == 1) (v % 256 ^ 1)
    · rw [h.lowers now, gateEnd_done_dies]
      rfl
    · exact (h.waits now).2.1
  case heat =>
    intro s m d sub v hsub takes
    have cls : limitClass 0x2300 sub = some (sub != 4) := by
      obtain rfl | rfl | rfl := hsub <;> rfl
    refine (does_limitWrite (effect := id) takes rfl (by simp only [leNat_leBytes]) cls (dieOf_val d) (fun _ _ _ _ => rfl)
      (fun _ _ => rfl)).imp fun t h => ⟨h.rule, (h.gate (DieOnly.refl d)).1, ?_⟩
    by_cases now : s.lowersNow ⟨0x2300, sub, d.val⟩ d (sub != 4) (v % 256 ^ 2)
    · rw [h.lowers now, gateEnd_done_dies]
      rfl
    · exact (h.waits now).2.1

end Sys2Proof
end

section
/-! Writes that wait for the boundary, and writes in force at once (09.5, 04.5, 05.9, 20.3). A wide margin write that is in force at
once sweeps the acknowledgements, and so answers the accepted writes of other masters that were ready (R383, R400). -/

namespace Sys2Proof.Machine
open Sys2Proof

theorem State.noStepCheck_rest (s : State) (d : DieId) (was : Bool) :
    (s.noStepCheck d was).tray.leg = s.tray.leg ∧ (s.noStepCheck d was).outputs = s.outputs := by
  unfold State.noStepCheck
  dsimp only
  split
  · unfold State.logDie
    rw [State.log_rest]
    exact ⟨rfl, rfl⟩
  · exact ⟨rfl, rfl⟩

/-- An answer to a request of a field port or of the firmware is sent at once. -/
theorem State.answer_sends (s : State) {m : MasterId} {w : GateWrite} {seq service : Nat} (req : w.req = some (seq, service))
    (direct : m ≠ 3) (status detail epoch : Nat) : ∃ o, (s.answer m w status detail epoch).outputs = o :: s.outputs := by
  unfold State.answer State.respond State.lapSend
  simp only [req, if_neg direct]
  exact ⟨_, rfl⟩

/-- The one acknowledgement that waits is ready: the sweep after an effect answers it. -/
theorem State.effectDone_sends {s : State} {a : Waiting} {seq service : Nat} (waits : s.tray.leg.acks = [a])
    (effect : a.effect = true) (commit : a.commit = false) (req : a.write.req = some (seq, service)) (direct : a.master ≠ 3)
    (k : ObjKey) (v epoch : Nat) : ∃ o, (s.effectDone k v epoch).outputs = o :: s.outputs := by
  unfold State.effectDone State.sweepAcks
  simp only [State.modTray_tray, waits, List.map_cons, List.map_nil, effect, commit, List.filter_cons, List.filter_nil,
    Bool.not_true, Bool.false_eq_true, and_false, if_false, Bool.not_false, Bool.and_self, if_true, List.foldl_cons,
    List.foldl_nil]
  exact State.answer_sends _ req direct ..

/-- A wide margin write of a die without VCORE is in force at once (R78). -/
theorem State.marginApply_wide {s : State} {d : DieId} (lean : (s.die d).op.wide = false) (off : (s.die d).rails.vcore = false)
    (shared : (s.die d).pow.sealed = false) (free : (s.die d).svc.holding = none) :
    s.marginApply d 1 = .done ((((s.cancelRaise ⟨0x2100, 1, d.val⟩).putSetting 0x2100 1 d.val 1).modOp d fun o =>
      { o with leanAfterWide := false }).wideInForce d) 0 true := by
  unfold State.marginApply
  simp [lean, off, shared, free]

theorem State.wideInForce_sends {s : State} {d : DieId} {a : Waiting} {seq service : Nat}
    (last : (s.die d).op.leanAfterWide = false) (waits : s.tray.leg.acks = [a]) (effect : a.effect = true)
    (commit : a.commit = false) (req : a.write.req = some (seq, service)) (direct : a.master ≠ 3) :
    ∃ o, (s.wideInForce d).outputs = o :: s.outputs := by
  unfold State.wideInForce
  dsimp only
  rw [last, if_neg Bool.false_ne_true]
  generalize before : State.noStepCheck _ d _ = u
  have acks : u.tray.leg.acks = [a] := by
    rw [← before, (State.noStepCheck_rest ..).1]
    exact waits
  have outputs : u.outputs = s.outputs := by
    rw [← before, (State.noStepCheck_rest ..).2]
    rfl
  rw [← outputs]
  exact State.effectDone_sends acks effect commit req direct ..

end Sys2Proof.Machine

namespace Sys2Proof
open Sys2Proof.Machine

/-- A write of master 1 that was accepted, with its effect in force and no commit awaited. -/
def readyAck : Waiting := ⟨1, ⟨⟨0x1000, 1, 0xF⟩, [], some (0, 3)⟩, 0, true, false⟩

/-- A running tray whose die 0 has SRAM but no VCORE, with `readyAck` not yet answered, and master 1 in an Expert session. -/
def readyAckState : State :=
  { State.reset with
    tray := { State.reset.tray with
      fw := { State.reset.tray.fw with running := true }
      leg := { State.reset.tray.leg with acks := [readyAck] } }
    dies := Vector.replicate 8 { (State.reset.die 0) with
      rails := { vio := true, vsram := true }
      svc := { state := .running } }
    masters := Vector.replicate 4 { State.reset.master 0 with session := some ⟨false, 10 ^ 12, [], []⟩ } }

/-- Refutes O14: a wide margin write of a die without VCORE also answers a write that was ready to be answered, so more
changes than `GateOnly` allows: a frame is sent. -/
theorem not_boundaryWrites : ¬ Obligations.BoundaryWrites := by
  unfold Obligations.BoundaryWrites
  rintro ⟨-, -, -, wide, -⟩
  have takes : GateTakes 1 ⟨0x2100, 1, 0⟩ (leBytes 1 1) readyAckState :=
    ⟨rfl, rfl, rfl, by decide +kernel, by decide +kernel⟩
  obtain ⟨t, ran, -, -, -, -, frame, -⟩ := wide readyAckState 1 0 1 takes rfl (by decide +kernel) (by decide +kernel)
    (by decide +kernel) (by decide +kernel)
  have kept : t.outputs = readyAckState.outputs := frame.outputs
  have runs : exec (.marginModeWrite 1 0 1) readyAckState = .next (gateEnd 1 ⟨0x2100, 1, 0⟩ (leBytes 1 1)
      (readyAckState.atTick.marginApply 0 1)) := congrArg Host.Outcome.next (State.gate_takes takes _)
  rw [State.marginApply_wide (by decide +kernel) (by decide +kernel) (by decide +kernel) (by decide +kernel)] at runs
  obtain ⟨o, sent⟩ := State.wideInForce_sends (d := 0) (a := readyAck) (s := (((readyAckState.atTick.cancelRaise
    ⟨0x2100, 1, 0⟩).putSetting 0x2100 1 0 1).modOp 0 fun o => { o with leanAfterWide := false }))
    (by decide +kernel) rfl rfl rfl rfl (by decide)
  obtain rfl : _ = t := by simpa [runs] using ran
  rw [(gateEnd_done_gate ..).outputs] at kept
  exact absurd (sent.symm.trans kept) (List.cons_ne_self _ _)

end Sys2Proof
end

section
/-! Records of plans: what the issue of a record leaves (11.6, 11.8), and the operations on the units of a tile and on SRAM. -/

namespace Sys2Proof.Machine
open Sys2Proof

/-! ### Keyed lists -/

section KeyedList
variable {κ α : Type} [DecidableEq κ]

theorem KV.getD_put (l : List (κ × α)) (k : κ) (v d : α) : KV.getD (KV.put l k v) k d = v := by
  simp [KV.getD, KV.get?_put]

theorem KV.getD_put_ne (l : List (κ × α)) {j k : κ} (h : j ≠ k) (v d : α) : KV.getD (KV.put l k v) j d = KV.getD l j d := by
  simp [KV.getD, KV.get?_put_ne _ h]

theorem KV.getD_of_get? {l : List (κ × α)} {k : κ} {v : α} (h : KV.get? l k = some v) (d : α) : KV.getD l k d = v := by
  simp [KV.getD, h]

/-- A fold of writes to keys `key b`: every other entry stays, and a key written once holds what was written. -/
theorem KV.get?_foldl_put {β : Type} (key : β → κ) (val : β → α) (bs : List β) (l : List (κ × α)) :
    (∀ j, (∀ b ∈ bs, key b ≠ j) → KV.get? (bs.foldl (fun m b => KV.put m (key b) (val b)) l) j = KV.get? l j) ∧
    ∀ b ∈ bs, (bs.map key).Nodup → KV.get? (bs.foldl (fun m b => KV.put m (key b) (val b)) l) (key b) = some (val b) := by
  induction bs generalizing l with
  | nil => exact ⟨fun _ _ => rfl, fun _ h => absurd h List.not_mem_nil⟩
  | cons a bs ih =>
    obtain ⟨out, own⟩ := ih (KV.put l (key a) (val a))
    refine ⟨fun j hj => ?_, fun b hb nodup => ?_⟩
    · rw [List.foldl_cons, out j fun b hb => hj b (List.mem_cons_of_mem _ hb)]
      exact KV.get?_put_ne _ (hj a List.mem_cons_self).symm _
    · obtain ⟨fresh, nodup⟩ := List.nodup_cons.1 (List.map_cons ▸ nodup)
      rcases List.mem_cons.1 hb with rfl | hb
      · rw [List.foldl_cons, out _ fun c hc same => fresh (List.mem_map.2 ⟨c, hc, same⟩), KV.get?_put]
      · exact own b hb nodup

theorem KV.get?_filter_keys (l : List (κ × α)) (p : κ → Bool) (k : κ) :
    KV.get? (l.filter fun e => p e.1) k = if p k then KV.get? l k else none := by
  simp only [KV.get?, List.find?_filter]
  split
  next keep =>
    congr 2
    funext e
    by_cases same : e.1 = k
    · simp [same, keep]
    · simp [same]
  next drop =>
    rw [Option.map_eq_none_iff, List.find?_eq_none]
    rintro e - both
    simp only [decide_eq_true_eq] at both
    exact drop (both.2 ▸ both.1)

end KeyedList

/-! ### The issue of a record -/

theorem State.runTo_notes (s : State) (d : DieId) (r : Run) (c : Nat) : DieNoted d s (s.runTo d r c) := by
  unfold State.runTo State.modRun
  exact (⟨rfl, fun _ _ => rfl⟩ : DieNoted d s (s.advanceTo _)).trans (State.modDie_only ..).noted

theorem State.modRun_only (s : State) (d : DieId) (t h q : Nat) (f : Run → Run) : DieOnly d s (s.modRun d t h q f) := by
  unfold State.modRun
  exact State.modDie_only ..

theorem State.modRun_die (s : State) (d : DieId) (t h q : Nat) (f : Run → Run) :
    (s.modRun d t h q f).die d = { s.die d with til := { (s.die d).til with
      runs := (s.die d).til.runs.map fun r => if r.is t h q then f r else r } } := by
  unfold State.modRun
  rw [State.modDie_die]

theorem State.countAct_only (s : State) (d : DieId) (a : Activity) : DieOnly d s (s.countAct d a) := by
  unfold State.countAct
  exact State.modDie_only ..

@[simp] theorem State.countAct_til (s : State) (d : DieId) (a : Activity) : ((s.countAct d a).die d).til = (s.die d).til := by
  unfold State.countAct
  rw [State.modDie_die]

/-- What the issue of a record leaves of its die: the SRAM, the units, the poison. -/
theorem State.issued_til (s : State) (d : DieId) (t h u v : Nat) (r : Run) (q : Rec) :
    ((s.issued d t h u v r q).die d).til.sram = (s.die d).til.sram ∧
    ((s.issued d t h u v r q).die d).til.units = (s.die d).til.units ∧
    ((s.issued d t h u v r q).die d).til.poison = (s.die d).til.poison := by
  unfold State.issued State.runTo
  simp only [State.countAct_til, State.modRun_die]
  exact ⟨rfl, rfl, rfl⟩

theorem State.issued_notes (s : State) (d : DieId) (t h u v : Nat) (r : Run) (q : Rec) :
    DieNoted d s (s.issued d t h u v r q) := by
  unfold State.issued
  exact ((s.runTo_notes d r q.cyc).trans (State.modRun_only ..).noted).trans (State.countAct_only ..).noted

@[simp] theorem State.issued_unit (s : State) (d : DieId) (t h u v : Nat) (r : Run) (q : Rec) (j : Nat) :
    (s.issued d t h u v r q).unit d j = s.unit d j := by
  unfold State.unit
  rw [(s.issued_til d t h u v r q).2.1]

@[simp] theorem State.issued_sramRead (s : State) (d : DieId) (t h u v : Nat) (r : Run) (q : Rec) (a n : Nat) :
    (s.issued d t h u v r q).sramRead d a n = s.sramRead d a n := by
  unfold State.sramRead
  rw [(s.issued_til d t h u v r q).1]

end Sys2Proof.Machine

namespace Sys2Proof
open Sys2Proof.Machine

/-- A command that issues a record now does what the record's effect does to the state of its issue. -/
theorem Issues.does {c : Instr} {s : State} {d : DieId} {t h op u v : Nat} {r : Run} {q : Rec}
    (issues : Issues s d t h op u v r q) {eff : State → Run → Rec → Nat → State}
    (runs : exec c s = .next (s.issueNow d t h op u v eff)) {P : State → Prop}
    (holds : P (eff (s.issued d t h u v r q) r q (r.plan.tile u v))) : Does c s P :=
  ⟨_, runs.trans (by rw [State.issueNow_issues issues]), holds⟩

end Sys2Proof

namespace Sys2Proof.Machine
open Sys2Proof

/-! ### The units of a tile -/

@[simp] theorem State.modUnit_unit (s : State) (d : DieId) (j : Nat) (f : TileUnit → TileUnit) :
    (s.modUnit d j f).unit d j = f (s.unit d j) := by
  unfold State.modUnit State.unit
  rw [State.modDie_die, KV.getD_put]

theorem State.modUnit_unitOnly (s : State) (d : DieId) (j : Nat) (f : TileUnit → TileUnit) : UnitOnly d j s (s.modUnit d j f) where
  rest := rfl
  die := by
    unfold State.modUnit
    rw [State.modDie_die]
  units k other := by
    unfold State.modUnit State.unit
    rw [State.modDie_die, KV.getD_put_ne _ other]
  others e other := by
    unfold State.modUnit
    exact State.modDie_die_ne _ _ _ _ other

end Sys2Proof.Machine

namespace Sys2Proof
open Sys2Proof.Machine

theorem UnitOnly.skipFree {s t : State} {d : DieId} {j n : Nat} (h : UnitOnly d j (s.skipFree n) t) : UnitOnly d j s t :=
  ⟨h.rest, h.die, h.units, h.others⟩

/-- A record that changes the units of its tile alone. -/
theorem Issues.does_unit {c : Instr} {s : State} {d : DieId} {t h op u v : Nat} {r : Run} {q : Rec}
    (issues : Issues s d t h op u v r q) {f : State → Rec → Nat → TileUnit → TileUnit}
    (runs : exec c s = .next (s.issueNow d t h op u v fun s _ q tile => s.modUnit d tile (f s q tile))) :
    Does c s fun x => x.unit d (r.plan.tile u v) =
        f (s.issued d t h u v r q) q (r.plan.tile u v) (s.unit d (r.plan.tile u v)) ∧
      UnitOnly d (r.plan.tile u v) (s.issued d t h u v r q) x :=
  issues.does runs ⟨by rw [State.modUnit_unit, State.issued_unit], State.modUnit_unitOnly ..⟩

end Sys2Proof

namespace Sys2Proof.Machine
open Sys2Proof

theorem TileUnit.vec_setVec (x : TileUnit) (i : Nat) (l : List Nat) : (x.setVec i l).vec i = l := KV.getD_put ..

theorem TileUnit.vec_setVec_ne (x : TileUnit) {i j : Nat} (h : j ≠ i) (l : List Nat) : (x.setVec i l).vec j = x.vec j :=
  KV.getD_put_ne _ h ..

/-- Vectors set one after the other: each named one holds what was set, the others stay. -/
theorem TileUnit.vec_foldl_setVec (x : TileUnit) (first n : Nat) (l : Nat → List Nat) :
    (∀ i, i < n → ((List.range n).foldl (fun x i => x.setVec (first + i) (l i)) x).vec (first + i) = l i) ∧
    ∀ i, i < first ∨ first + n ≤ i → ((List.range n).foldl (fun x i => x.setVec (first + i) (l i)) x).vec i = x.vec i := by
  have v : ((List.range n).foldl (fun x i => x.setVec (first + i) (l i)) x).v =
      (List.range n).foldl (fun m i => KV.put m (first + i) (l i)) x.v := by
    generalize List.range n = is
    induction is generalizing x with
    | nil => rfl
    | cons i is ih => exact ih _
  obtain ⟨out, own⟩ := KV.get?_foldl_put (first + ·) l (List.range n) x.v
  have nodup : ((List.range n).map (first + ·)).Nodup := 
    List.Pairwise.map _ (fun _ _ ne same => ne (Nat.add_left_cancel same)) List.nodup_range
  refine ⟨fun i hi => ?_, fun i hi => ?_⟩
  · unfold TileUnit.vec
    rw [v]
    exact KV.getD_of_get? (own i (List.mem_range.2 hi) nodup) _
  · unfold TileUnit.vec KV.getD
    rw [v, out i fun b hb => by have := List.mem_range.1 hb; omega]

/-! ### SRAM -/

theorem Sram.readN_length (m : List Host.Cell) (a n : Nat) : (Sram.readN m a n).length = n := by simp [Sram.readN]

/-- The bytes just written read back. -/
theorem Sram.readN_write (m : List Host.Cell) (a : Nat) (bs : List Byte) : Sram.readN (Sram.write m a bs) a bs.length = bs := by
  rw [Sram.readN_eq]
  refine List.ext_getElem (by simp) fun i hi hi' => ?_
  rw [List.getElem_map, List.getElem_range, Sram.read_write _ _ _ _ hi', List.getD_eq_getElem?_getD,
    List.getElem?_eq_getElem hi', Option.getD_some]

/-- A read that a write does not meet. -/
theorem Sram.readN_write_ne (m : List Host.Cell) (a : Nat) (bs : List Byte) (b n : Nat)
    (apart : b + n ≤ a ∨ a + bs.length ≤ b) : Sram.readN (Sram.write m a bs) b n = Sram.readN m b n := by
  rw [Sram.readN_eq, Sram.readN_eq]
  refine List.map_congr_left fun i hi => Sram.read_write_ne _ _ _ _ ?_
  have := List.mem_range.1 hi
  omega

theorem State.sramWrite_sramRead (s : State) (d : DieId) (a : Nat) (bs : List Byte) (n : Nat) (hn : n = bs.length) :
    (s.sramWrite d a bs).sramRead d a n = bs := by
  unfold State.sramRead
  rw [State.sramWrite_sram, hn, Sram.readN_write]

end Sys2Proof.Machine

namespace Sys2Proof
open Sys2Proof.Machine

theorem SramOnly.refl (d : DieId) (a n : Nat) (s : State) : SramOnly d a n s s :=
  ⟨rfl, rfl, fun _ _ => rfl, fun _ _ => rfl⟩

theorem SramOnly.trans {d : DieId} {a n : Nat} {s t u : State} (h : SramOnly d a n s t) (k : SramOnly d a n t u) :
    SramOnly d a n s u := by
  refine ⟨?_, ?_, fun b hb => (k.bytes b hb).trans (h.bytes b hb), fun e he => (k.others e he).trans (h.others e he)⟩
  · have a := h.rest
    have b := k.rest
    rw [b, a]
  · have a := h.die
    have b := k.die
    rw [b, a]

end Sys2Proof

namespace Sys2Proof.Machine
open Sys2Proof

theorem State.sramWrite_sramOnly (s : State) (d : DieId) (a : Nat) (bs : List Byte) {b n : Nat} (low : b ≤ a)
    (high : a + bs.length ≤ b + n) : SramOnly d b n s (s.sramWrite d a bs) where
  rest := rfl
  die := by
    unfold State.sramWrite
    rw [State.modDie_die]
  bytes x hx := by
    unfold State.sramRead
    rw [State.sramWrite_sram, Sram.readN_write_ne _ _ _ _ _ (by omega)]
  others e he := by
    unfold State.sramWrite
    exact State.modDie_die_ne _ _ _ _ he

theorem State.sramFree_eq (s : State) (d : DieId) (a n : Nat) : s.sramFree d a n =
    (s.skipFree n).sramWrite d a ((List.range n).map fun i => Config.freeByte (s.fresh + i)) := rfl

theorem State.sramFree_sramOnly (s : State) (d : DieId) (a : Nat) (len : Nat) {b n : Nat} (low : b ≤ a)
    (high : a + len ≤ b + n) : SramOnly d b n s (s.sramFree d a len) := by
  have h := (s.skipFree len).sramWrite_sramOnly d a ((List.range len).map fun i => Config.freeByte (s.fresh + i)) low
    (by simpa using high)
  rw [State.sramFree_eq]
  exact ⟨h.rest, h.die, h.bytes, h.others⟩

end Sys2Proof.Machine

namespace Sys2Proof
open Sys2Proof.Machine

/-- A record that writes bytes to one range of its die's SRAM. -/
theorem Issues.does_write {c : Instr} {s : State} {d : DieId} {t h op u v : Nat} {r : Run} {q : Rec}
    (issues : Issues s d t h op u v r q) {a : Run → Rec → Nat → Nat} {bs : State → Run → Rec → Nat → List Byte}
    (runs : exec c s = .next (s.issueNow d t h op u v fun s r q tile => s.sramWrite d (a r q tile) (bs s r q tile))) :
    Does c s fun x => ∃ l, l = bs (s.issued d t h u v r q) r q (r.plan.tile u v) ∧
      x = (s.issued d t h u v r q).sramWrite d (a r q (r.plan.tile u v)) l ∧
      (x.die d).til.sram = Sram.write (s.die d).til.sram (a r q (r.plan.tile u v)) l ∧
      SramOnly d (a r q (r.plan.tile u v)) l.length (s.issued d t h u v r q) x :=
  issues.does runs ⟨_, rfl, rfl, by rw [State.sramWrite_sram, (s.issued_til d t h u v r q).1],
    State.sramWrite_sramOnly _ _ _ _ (Nat.le_refl _) (Nat.le_refl _)⟩

/-- The records of one lane operation. -/
theorem laneRecords {op : Nat} {c : DieId → Nat → Nat → Nat → Nat → Instr} {f : Rec → Nat → Nat → Nat → Nat}
    (runs : ∀ d t h u v s, exec (c d t h u v) s = .next (s.lanes d t h op u v f)) : LaneRecords op c f := by
  intro s d t h u v r q issues
  exact issues.does_unit (f := fun _ q _ x => x.setVec q.vd
    ((x.vec q.va).mapIdx fun i a => f q a ((x.vec q.vb).getD i 0) ((x.vec q.vc).getD i 0))) (runs ..)

/-- Settles O24: all eight operations are `State.lanes` with their function of the lanes. -/
theorem vectorLanes : Obligations.VectorLanes :=
  ⟨laneRecords fun _ _ _ _ _ _ => rfl, laneRecords fun _ _ _ _ _ _ => rfl, laneRecords fun _ _ _ _ _ _ => rfl,
    laneRecords fun _ _ _ _ _ _ => rfl, laneRecords fun _ _ _ _ _ _ => rfl, laneRecords fun _ _ _ _ _ _ => rfl,
    laneRecords fun _ _ _ _ _ _ => rfl, laneRecords fun _ _ _ _ _ _ => rfl⟩

end Sys2Proof
end

section
/-! The records that store to SRAM (11.6, Table 11.8). -/

namespace Sys2Proof.Machine
open Sys2Proof

theorem leBytes_length (n v : Nat) : (leBytes n v).length = n := by
  induction n generalizing v with
  | zero => rfl
  | succ n ih => simp [leBytes, ih]

theorem lineAddr_add_mul (tile la n k : Nat) : lineAddr tile (la + n * k) = lineAddr tile la + n * (128 * k) := by
  rw [lineAddr, lineAddr, Nat.add_mul, Nat.mul_assoc n, Nat.mul_comm k, Nat.add_assoc]

/-- What a gather stores at one position: the lines of an index, or free bytes where the selector holds none. -/
def State.gatherOne (d : DieId) (len : Nat) (s : State) (p : Nat × Option (List Byte)) : State :=
  match p.2 with
  | some bs => s.sramWrite d p.1 bs
  | none => s.sramFree d p.1 len

/-- The positions of a gather follow one another in SRAM; each position keeps what it was given. -/
theorem State.gather_spec (d : DieId) (base len n : Nat) (src : Nat → Option (List Byte))
    (sized : ∀ i bs, src i = some bs → bs.length = len) (s : State) :
    SramOnly d base (n * len) s (((List.range n).map fun i => (base + i * len, src i)).foldl (State.gatherOne d len) s) ∧
    ∀ i, i < n → ∀ bs, src i = some bs →
      (((List.range n).map fun i => (base + i * len, src i)).foldl (State.gatherOne d len) s).sramRead d (base + i * len) len =
        bs := by
  induction n with
  | zero => exact ⟨SramOnly.refl .., fun _ h => absurd h (Nat.not_lt_zero _)⟩
  | succ n ih =>
    obtain ⟨frame, stored⟩ := ih
    rw [List.range_succ, List.map_append, List.foldl_append, List.map_singleton, List.foldl_cons, List.foldl_nil]
    generalize ((List.range n).map fun i => (base + i * len, src i)).foldl (State.gatherOne d len) s = u at *
    have size : (n + 1) * len = n * len + len := Nat.succ_mul ..
    have wide : SramOnly d base ((n + 1) * len) s u :=
      ⟨frame.rest, frame.die, fun b hb => frame.bytes b (by omega), frame.others⟩
    have last : ∃ (bs : List Byte) (w : State), State.gatherOne d len u (base + n * len, src n) = w.sramWrite d (base + n * len) bs ∧
        bs.length = len ∧ (∀ b m, w.sramRead d b m = u.sramRead d b m) ∧ (∀ l, src n = some l → bs = l) ∧
        SramOnly d base ((n + 1) * len) u (w.sramWrite d (base + n * len) bs) := by
      unfold State.gatherOne
      cases given : src n with
      | some bs =>
        refine ⟨bs, u, rfl, sized n bs given, fun _ _ => rfl, fun l h => (Option.some.inj h), ?_⟩
        exact u.sramWrite_sramOnly d _ bs (by omega) (by rw [sized n bs given]; omega)
      | none =>
        refine ⟨_, _, u.sramFree_eq d _ len, by simp, fun _ _ => rfl, nofun, ?_⟩
        exact u.sramFree_sramOnly d _ len (by omega) (by omega)
    obtain ⟨bs, w, step, sizedN, reads, given, only⟩ := last
    rw [step]
    refine ⟨wide.trans only, fun i hi l hl => ?_⟩
    rcases Nat.lt_succ_iff_lt_or_eq.1 hi with before | rfl
    · have apart : base + i * len + len ≤ base + n * len := by
        have := Nat.mul_le_mul_right len before
        rw [Nat.succ_mul] at this
        omega
      have kept := stored i before l hl
      rw [← reads] at kept
      unfold State.sramRead at kept ⊢
      rw [State.sramWrite_sram, Sram.readN_write_ne _ _ _ _ _ (.inl apart), kept]
    · rw [State.sramWrite_sramRead _ _ _ _ _ sizedN.symm, given l hl]

end Sys2Proof.Machine

namespace Sys2Proof
open Sys2Proof.Machine

/-- Settles O26: the drain, the store, the copy and the fill are one write each; the gather is one write per position, and the
positions lie apart. -/
theorem storingRecords : Obligations.StoringRecords := by
  unfold Obligations.StoringRecords
  refine ⟨?drain, ?store, ?copy, ?fill, ?gather⟩
  case drain =>
    intro s d t h u v r q issues
    refine (issues.does_write (a := fun _ q tile => lineAddr tile (bits q.w 15 0)) (bs := fun s _ q tile =>
      ((List.range q.M).map fun i =>
        let a := KV.getD (s.unit d tile).acc (bits q.w 24 16 + i) (false, List.replicate 128 0)
        elemBytes q.s (a.2.map fun e => if a.1 then fromI32 q.fmt e else fromF32 q.fmt e)).flatten) rfl).imp ?_
    rintro x ⟨bs, hbs, -, written, only⟩
    exact ⟨bs, by rw [hbs, State.issued_unit], written, only⟩
  case store =>
    intro s d t h u v r q issues
    refine (issues.does_write (a := fun _ q tile => lineAddr tile (bits q.w 31 16)) (bs := fun s _ q tile =>
      ((List.range q.nv).map fun i => elemBytes q.s (((s.unit d tile).vec (q.vd + i)).map (fromF32 q.fmt))).flatten)
      rfl).imp ?_
    rintro x ⟨bs, hbs, -, written, only⟩
    exact ⟨bs, by rw [hbs, State.issued_unit], written, only⟩
  case copy =>
    intro s d t h u v r q issues
    refine (issues.does_write (a := fun r q _ => lineAddr (r.plan.tile (raU q.dst) (raV q.dst)) (raLA q.dst))
      (bs := fun s r q _ => s.sramRead d (lineAddr (r.plan.tile (raU q.src) (raV q.src)) (raLA q.src)) (128 * q.nm))
      rfl).imp ?_
    rintro x ⟨bs, hbs, rfl, -, only⟩
    have len : bs.length = 128 * q.nm := by rw [hbs]; exact Sram.readN_length ..
    exact ⟨by rw [State.sramWrite_sramRead _ _ _ _ _ len.symm, hbs, State.issued_sramRead], len ▸ only⟩
  case fill =>
    intro s d t h u v r q issues
    refine (issues.does_write (a := fun r q _ => lineAddr (r.plan.tile (raU q.dst) (raV q.dst)) (raLA q.dst))
      (bs := fun _ _ q _ => (List.replicate (32 * q.nm) (leBytes 4 (bits q.w 63 32))).flatten) rfl).imp ?_
    rintro x ⟨bs, hbs, rfl, -, only⟩
    have len : bs.length = 128 * q.nm := by
      rw [hbs]
      simp [leBytes_length]
      omega
    exact ⟨by rw [State.sramWrite_sramRead _ _ _ _ _ len.symm, hbs], len ▸ only⟩
  case gather =>
    intro s d t h u v r q issues
    have runs : exec (.mgather d t h u v) s = .next (s.issueNow d t h 0x22 u v fun s _ q tile =>
        ((List.range q.gk).map fun pos => (lineAddr tile (bits q.w 31 16) + pos * (128 * q.gb),
          ((s.unit d tile).sel[pos]?).map fun i =>
            s.sramRead d (lineAddr tile (bits q.w 15 0 + i * q.stride)) (128 * q.gb))).foldl
          (State.gatherOne d (128 * q.gb)) s) := by
      simp only [exec, execMgather, lineAddr_add_mul]
      rfl
    obtain ⟨only, stored⟩ := (s.issued d t h u v r q).gather_spec d (lineAddr (r.plan.tile u v) (bits q.w 31 16))
      (128 * q.gb) q.gk (fun pos => ((s.unit d (r.plan.tile u v)).sel[pos]?).map fun i =>
        s.sramRead d (lineAddr (r.plan.tile u v) (bits q.w 15 0 + i * q.stride)) (128 * q.gb)) (by
      intro i bs h
      obtain ⟨j, -, rfl⟩ := Option.map_eq_some_iff.1 h
      exact Sram.readN_length ..)
    refine issues.does runs ?_
    simp only [State.issued_unit, State.issued_sramRead, lineAddr_add_mul _ (bits q.w 31 16)]
    refine ⟨fun pos i hpos hi => stored pos hpos _ (by rw [hi]; rfl), ?_⟩
    rw [Nat.mul_assoc, Nat.mul_comm q.gb]
    exact only

end Sys2Proof
end

section
/-! Records that cannot issue (R262), and the records that read memory or the accumulators into the units of their tile. -/

namespace Sys2Proof.Machine
open Sys2Proof

/-- What noting a poisoned word leaves: the SRAM, the units of the tiles, the contexts. -/
structure PoisonNotes (d : DieId) (s t : State) : Prop where
  sram : (t.die d).til.sram = (s.die d).til.sram
  units : (t.die d).til.units = (s.die d).til.units
  ctxs : t.ctxs = s.ctxs

theorem PoisonNotes.trans {d : DieId} {s t u : State} (h : PoisonNotes d s t) (k : PoisonNotes d t u) : PoisonNotes d s u :=
  ⟨k.sram.trans h.sram, k.units.trans h.units, k.ctxs.trans h.ctxs⟩

theorem State.logDie_ctxs (s : State) (d : DieId) (code : Nat) (detail : List Byte) : (s.logDie d code detail).ctxs = s.ctxs := by
  unfold State.logDie
  rw [State.log_rest]

theorem State.failTile_notes (s : State) (d : DieId) (L : Nat) : PoisonNotes d s (s.failTile d L) := by
  unfold State.failTile
  dsimp only
  split
  · exact ⟨rfl, rfl, rfl⟩
  · exact ⟨by rw [State.logDie_die, State.modDie_die], by rw [State.logDie_die, State.modDie_die],
      by rw [State.logDie_ctxs, State.modDie_ctxs]⟩

theorem State.poisonWord_notes (s : State) (d : DieId) (w : Nat) : PoisonNotes d s (s.poisonWord d w) := by
  have mark (u : State) (f : Die → Die) (sram : ∀ x, (f x).til.sram = x.til.sram) (units : ∀ x, (f x).til.units = x.til.units) :
      PoisonNotes d u (u.modDie d f) := ⟨by rw [State.modDie_die, sram], by rw [State.modDie_die, units], rfl⟩
  have log (u : State) (code : Nat) (detail : List Byte) : PoisonNotes d u (u.logDie d code detail) :=
    ⟨by rw [State.logDie_die], by rw [State.logDie_die], u.logDie_ctxs ..⟩
  unfold State.poisonWord
  extract_lets g s1 now s2 n
  have first : PoisonNotes d s s1 := mark _ _ (fun _ => rfl) (fun _ => rfl)
  have second : PoisonNotes d s1 s2 := by
    refine PoisonNotes.trans (mark _ _ ?_ ?_) (log ..)
    · exact fun _ => rfl
    · exact fun _ => rfl
  split
  · exact first
  · split
    · exact (first.trans second).trans (State.failTile_notes ..)
    · exact first.trans second

theorem State.poisonWords_notes (s : State) (d : DieId) (ws : List Nat) :
    PoisonNotes d s (ws.foldl (fun s w => s.poisonWord d w) s) := by
  induction ws generalizing s with
  | nil => exact ⟨rfl, rfl, rfl⟩
  | cons w ws ih => exact (s.poisonWord_notes d w).trans (ih _)

theorem State.runTo_poisonNotes (s : State) (d : DieId) (r : Run) (c : Nat) : PoisonNotes d s (s.runTo d r c) := by
  unfold State.runTo
  exact ⟨by rw [State.modRun_die]; rfl, by rw [State.modRun_die]; rfl, rfl⟩

theorem State.issue_of_not_next {s : State} {d : DieId} {t h op u v : Nat} (next : (s.die d).issuing t h op u v = none)
    (wait : State → Run → Rec → Option HoldCause) (eff : State → Run → Rec → Nat → State) :
    s.issue d t h op u v wait eff = s := by
  unfold State.issue
  rw [next]

/-- A poisoned word in the score store or in a source line ends the plan (R262). -/
theorem State.issue_of_poisoned {s : State} {d : DieId} {t h op u v : Nat} {r : Run} {q : Rec}
    (next : (s.die d).issuing t h op u v = some (r, q))
    (poisoned : s.poisoned d (lineAddr (r.plan.tile u v) (r.plan.stores.getD (v * r.plan.w + u) 0 +
      r.next.getD (v * r.plan.w + u) 0 / 8) + 16 * (r.next.getD (v * r.plan.w + u) 0 % 8)) 16 ≠ [] ∨
      ∃ p ∈ s.readRanges d r q u v, s.poisoned d p.1 p.2 ≠ [])
    (wait : State → Run → Rec → Option HoldCause) (eff : State → Run → Rec → Nat → State) :
    ∃ w, s.issue d t h op u v wait eff = w.endRun d t h r.queue stSramUncorrectable 0 ∧ PoisonNotes d s w := by
  unfold State.issue
  simp only [next, State.runTo_poisoned, State.runTo_readRanges]
  rw [if_pos]
  · exact ⟨_, rfl, (s.runTo_poisonNotes d r q.cyc).trans (State.poisonWords_notes ..)⟩
  · rw [Bool.not_eq_true', List.isEmpty_eq_false_iff, ne_eq, List.append_eq_nil_iff, not_and]
    intro fetched
    obtain ⟨p, hp, bad⟩ := poisoned.resolve_left (not_not_intro fetched)
    exact fun clean => bad (List.flatten_eq_nil_iff.1 clean _ (List.mem_map.2 ⟨p, hp, rfl⟩))

/-! ### The matrix issue -/

@[simp] theorem State.skipFree_unit (s : State) (n : Nat) (d : DieId) (j : Nat) : (s.skipFree n).unit d j = s.unit d j := rfl

/-- Accumulator row i of a matrix issue on active weights of format fmt: its number, its kind and its 128 sums. -/
def State.mmaRow (s : State) (d : DieId) (q : Rec) (tile fmt i : Nat) : Nat × Bool × List Nat :=
  let old := KV.getD (s.unit d tile).acc (bits q.w 24 16 + i) (fmtInt fmt, List.replicate 128 0)
  (bits q.w 24 16 + i, fmtInt fmt,
    if old.1 = fmtInt fmt then ((s.unit d tile).columns).mapIdx fun j c => mmaElem fmt (old.2.getD j 0)
      (elems q.s (s.sramRead d (lineAddr tile (bits q.w 15 0 + i * q.s)) (128 * q.s))) c
    else (List.range 128).map fun j => (Config.freeWord (s.fresh + 128 * i + j)).toNat % 2 ^ 32)

theorem State.mma_of_active {s : State} {d : DieId} {q : Rec} {tile : Nat} {w : Nat × List (List Nat)}
    (active : (s.unit d tile).weights = some w) : s.mma d q tile = (s.skipFree (128 * q.M)).modUnit d tile fun x =>
      { x with acc := ((List.range q.M).map (s.mmaRow d q tile w.1)).foldl (fun a r => KV.put a r.1 r.2) x.acc } := by
  unfold State.mma
  simp only [active]
  rfl

end Sys2Proof.Machine

namespace Sys2Proof
open Sys2Proof.Machine

/-- Settles O31: each of the commands is `State.issue` of its opcode, with a wait and an effect of its own. -/
theorem recordsThatCannotIssue : Obligations.RecordsThatCannotIssue := by
  intro d t h u v op c listed s
  have lanes {op : Nat} (f : Rec → Nat → Nat → Nat → Nat) :
      ∃ wait eff, Host.Outcome.next (s.lanes d t h op u v f) = .next (φ := Fault) (ρ := Refusal) (s.issue d t h op u v wait eff) := by
    unfold State.lanes State.issueNow
    exact ⟨_, _, rfl⟩
  have issues : ∃ wait eff, exec c s = .next (s.issue d t h op u v wait eff) := by
    simp only [List.mem_cons, Prod.mk.injEq, List.not_mem_nil, or_false] at listed
    rcases listed with ⟨rfl, rfl⟩ | ⟨rfl, rfl⟩ | ⟨rfl, rfl⟩ | ⟨rfl, rfl⟩ | ⟨rfl, rfl⟩ | ⟨rfl, rfl⟩ | ⟨rfl, rfl⟩ |
      ⟨rfl, rfl⟩ | ⟨rfl, rfl⟩ | ⟨rfl, rfl⟩ | ⟨rfl, rfl⟩ | ⟨rfl, rfl⟩ | ⟨rfl, rfl⟩ | ⟨rfl, rfl⟩ | ⟨rfl, rfl⟩ |
      ⟨rfl, rfl⟩ | ⟨rfl, rfl⟩ | ⟨rfl, rfl⟩ | ⟨rfl, rfl⟩ | ⟨rfl, rfl⟩ | ⟨rfl, rfl⟩ | ⟨rfl, rfl⟩ | ⟨rfl, rfl⟩
    iterate 8 · exact ⟨_, _, rfl⟩
    iterate 7 · exact lanes _
    · exact ⟨_, _, rfl⟩
    · exact lanes _
    all_goals exact ⟨_, _, rfl⟩
  obtain ⟨wait, eff, runs⟩ := issues
  refine ⟨fun next => ⟨s, by rw [runs, State.issue_of_not_next next], rfl⟩, fun r q next poisoned => ?_⟩
  obtain ⟨w, ended, notes⟩ := State.issue_of_poisoned next poisoned wait eff
  exact ⟨_, runs.trans (congrArg _ ended), w, rfl, notes.sram, notes.units, notes.ctxs⟩

/-- Settles O25: the loads, the swap, the zeroing and the reduction are one change of the units each; the rows of a matrix issue
are written under keys of their own. -/
theorem unitAndMatrixRecords : Obligations.UnitAndMatrixRecords := by
  unfold Obligations.UnitAndMatrixRecords
  refine ⟨?nop, ?loadWeights, ?swap, ?zero, ?load, ?reduce, ?take, ?issue, ?int8⟩
  case nop => exact fun s d t h u v r q issues => issues.does rfl rfl
  case loadWeights =>
    intro s d t h u v r q issues
    refine (issues.does_unit (f := fun s q tile x => { x with shadow := some (q.fmt, (List.range 128).map fun k =>
      ((elems q.s (s.sramRead d (lineAddr tile (bits q.w 15 0)) (128 * 128 * q.s))).drop (128 * k)).take 128) }) rfl).imp ?_
    rintro x ⟨unit, only⟩
    rw [unit]
    exact ⟨by rw [State.issued_sramRead], rfl, rfl, rfl, only⟩
  case swap =>
    exact fun s d t h u v r q issues => issues.does_unit (f := fun _ _ _ x => { x with weights := x.shadow }) rfl
  case zero =>
    intro s d t h u v r q issues
    refine (issues.does_unit (f := fun _ q _ x => { x with
      acc := x.acc.filter fun r => !decide (bits q.w 24 16 ≤ r.1 ∧ r.1 < bits q.w 24 16 + q.M) }) rfl).imp ?_
    rintro x ⟨unit, only⟩
    have acc (i : Nat) := KV.get?_filter_keys (s.unit d (r.plan.tile u v)).acc
      (fun i => !decide (bits q.w 24 16 ≤ i ∧ i < bits q.w 24 16 + q.M)) i
    rw [unit]
    refine ⟨fun i low high => ?_, fun i out => ?_, rfl, only⟩
    · rw [acc, if_neg (by simp [low, high])]
    · rw [acc, if_pos (by simp; omega)]
  case load =>
    intro s d t h u v r q issues
    refine (issues.does_unit (f := fun s q tile x => (List.range q.nv).foldl (fun x i => x.setVec (q.vd + i)
      ((elems q.s (s.sramRead d (lineAddr tile (bits q.w 31 16) + 64 * i * q.s) (64 * q.s))).map (toF32 q.fmt))) x) rfl).imp ?_
    rintro x ⟨unit, only⟩
    simp only [State.issued_sramRead] at unit
    obtain ⟨own, out⟩ := (s.unit d (r.plan.tile u v)).vec_foldl_setVec q.vd q.nv fun i =>
      (elems q.s (s.sramRead d (lineAddr (r.plan.tile u v) (bits q.w 31 16) + 64 * i * q.s) (64 * q.s))).map (toF32 q.fmt)
    rw [unit]
    exact ⟨own, out, only⟩
  case reduce =>
    exact fun s d t h u v r q issues => issues.does_unit (f := fun _ q _ x =>
      x.setVec q.vd (List.replicate 64 (vReduce (bits q.w 33 32 == 1) (x.vec q.va)))) rfl
  case take =>
    intro s d t h u v r q l issues row
    refine (issues.does_unit (f := fun _ q _ x =>
      let a := KV.getD x.acc (bits q.w 24 16) (false, List.replicate 128 0)
      let l := a.2.map fun e => if a.1 then fromI32 5 e else e
      (x.setVec q.vd (l.take 64)).setVec (q.vd + 1) (l.drop 64)) rfl).imp ?_
    rintro x ⟨unit, only⟩
    rw [unit, KV.getD_of_get? row]
    refine ⟨?_, ?_, rfl, only⟩
    · rw [TileUnit.vec_setVec_ne _ (Nat.ne_of_lt (Nat.lt_succ_self _)), TileUnit.vec_setVec]
      simp
    · rw [TileUnit.vec_setVec]
      simp
  case issue =>
    intro s d t h u v r q w issues active
    obtain ⟨x, done, unit, only⟩ : Does (.mma d t h u v) s fun x =>
        x.unit d (r.plan.tile u v) = { s.unit d (r.plan.tile u v) with
          acc := ((List.range q.M).map ((s.issued d t h u v r q).mmaRow d q (r.plan.tile u v) w.1)).foldl
            (fun a r => KV.put a r.1 r.2) (s.unit d (r.plan.tile u v)).acc } ∧
        UnitOnly d (r.plan.tile u v) (s.issued d t h u v r q) x := by
      refine issues.does rfl ?_
      rw [State.mma_of_active (w := w) (by rw [State.issued_unit]; exact active)]
      exact ⟨by rw [State.modUnit_unit, State.skipFree_unit, State.issued_unit],
        (State.modUnit_unitOnly ..).skipFree⟩
    have nodup : (((List.range q.M).map ((s.issued d t h u v r q).mmaRow d q (r.plan.tile u v) w.1)).map Prod.fst).Nodup := by
      rw [List.map_map]
      exact List.Pairwise.map _ (fun _ _ ne same => ne (Nat.add_left_cancel same)) List.nodup_range
    obtain ⟨out, own⟩ := KV.get?_foldl_put Prod.fst Prod.snd
      ((List.range q.M).map ((s.issued d t h u v r q).mmaRow d q (r.plan.tile u v) w.1)) (s.unit d (r.plan.tile u v)).acc
    refine ⟨x, done, fun i hi old row => ?_, fun i outside => ?_, by rw [unit], by rw [unit]; exact active, only⟩
    · rw [unit]
      refine (own _ (List.mem_map.2 ⟨i, List.mem_range.2 hi, rfl⟩) nodup).trans ?_
      simp only [State.mmaRow, State.issued_unit, State.issued_sramRead, KV.getD_of_get? row, if_pos]
    · rw [unit]
      refine out i fun b hb same => ?_
      obtain ⟨k, hk, rfl⟩ := List.mem_map.1 hb
      have := List.mem_range.1 hk
      simp only [State.mmaRow] at same
      omega
  case int8 =>
    intro old row col
    unfold mmaElem
    rw [if_pos rfl]
    rfl

end Sys2Proof
end

section
/-! The commands that move data and run plans (18.5 to 18.7): what the copy engines leave when they take units, and what one unit
moves. -/

namespace Sys2Proof.Machine
open Sys2Proof

/-! ### The head command of a queue -/

/-- A change of one head command leaves those of the other queues. -/
theorem State.modHead_headCmd_ne (s : State) {t h q u k r : Nat} (other : ((u, k), r) ≠ ((t, h), q)) (f : Cmd → Cmd) :
    (s.modHead t h q f).headCmd u k r = s.headCmd u k r := by
  rw [State.headCmd, State.modHead, State.modQueue_queue?, if_neg other, State.headCmd]

theorem State.headCmd_congr {s u : State} (same : u.ctxs = s.ctxs) (t h q : Nat) : u.headCmd t h q = s.headCmd t h q := by
  unfold State.headCmd State.queue? State.ctx?
  rw [same]

theorem State.binding_congr {s u : State} (same : u.ctxs = s.ctxs) (t h n : Nat) : u.binding t h n = s.binding t h n := by
  unfold State.binding State.ctx?
  rw [same]

theorem State.granulesOf_congr {s u : State} (same : u.tenants = s.tenants) (t : Nat) (b : Binding) :
    u.granulesOf t b = s.granulesOf t b := by
  cases b <;> simp [State.granulesOf, State.tenant, same]

theorem List.any_modify_of_eq {α : Type} (l : List α) (p : α → Bool) (f : α → α) (same : ∀ x, p (f x) = p x) (i : Nat) :
    (l.modify i f).any p = l.any p := by
  induction l generalizing i with
  | nil => simp
  | cons a l ih => cases i <;> simp [same, ih]

/-- A change that leaves the opcode and the start of a head command leaves whether its context is being evicted. -/
theorem State.modHead_evicting (s : State) (t h q : Nat) (f : Cmd → Cmd) (op : ∀ c, (f c).op = c.op)
    (started : ∀ c, (f c).started = c.started) :
    ((s.modHead t h q f).ctx? t h).map Ctx.evicting = (s.ctx? t h).map Ctx.evicting := by
  unfold State.modHead State.modQueue State.modCtx State.ctx?
  dsimp only
  rw [KV.get?_modify, if_pos rfl, Option.map_map]
  congr 1
  funext c
  refine List.any_modify_of_eq c.queues _ _ (fun o => ?_) q
  rcases o with _ | ⟨_, _, _, _, _, _, _, _, _ | ⟨e, es⟩, _, _⟩
  · rfl
  · rfl
  · simp only [Option.map_some, op, started]

/-! ### The copy engines take units (R489) -/

/-- What the engines leave when they take units: memory, the count of units moved, and of each head command all but the unit
that is next. -/
structure Feeds (d : DieId) (s t : State) : Prop where
  sram : (t.die d).til.sram = (s.die d).til.sram
  moved : (t.die d).til.unitsMoved = (s.die d).til.unitsMoved
  heads : ∀ t' h q c, s.headCmd t' h q = some c → ∃ n, t.headCmd t' h q = some { c with nextUnit := n }

theorem Feeds.refl (d : DieId) (s : State) : Feeds d s s := ⟨rfl, rfl, fun _ _ _ c h => ⟨c.nextUnit, h⟩⟩

theorem Feeds.trans {d : DieId} {s t u : State} (h : Feeds d s t) (k : Feeds d t u) : Feeds d s u := by
  refine ⟨k.sram.trans h.sram, k.moved.trans h.moved, fun t' h' q c hc => ?_⟩
  obtain ⟨n, hn⟩ := h.heads t' h' q c hc
  obtain ⟨m, hm⟩ := k.heads t' h' q { c with nextUnit := n } hn
  exact ⟨m, hm⟩

theorem State.feedOne_feeds (s : State) (d : DieId) (e : Nat) : Feeds d s (s.feedOne d e) := by
  unfold State.feedOne
  dsimp only
  split
  · exact Feeds.refl ..
  · split
    · exact Feeds.refl ..
    · split
      · exact Feeds.refl ..
      · split
        · exact Feeds.refl ..
        · next t _ _ h _ _ q _ =>
          refine ⟨by rw [State.modDie_die]; rfl, by rw [State.modDie_die]; rfl, fun u k r c hc => ?_⟩
          change ∃ n, (s.modHead t h q _).headCmd u k r = _
          by_cases same : ((u, k), r) = ((t, h), q)
          · cases same
            rw [State.modHead_headCmd, hc]
            exact ⟨_, rfl⟩
          · rw [State.modHead_headCmd_ne _ same, hc]
            exact ⟨c.nextUnit, rfl⟩

theorem State.feedEngines_feeds (s : State) (d : DieId) : Feeds d s (s.feedEngines d) := by
  unfold State.feedEngines
  have each (l : List Nat) (s : State) : Feeds d s (l.foldl (fun s e => s.feedOne d e) s) := by
    induction l generalizing s with
    | nil => exact Feeds.refl ..
    | cons e l ih => exact (s.feedOne_feeds d e).trans (ih _)
  split
  · exact each _ s
  · exact Feeds.refl ..

/-- A command that is cut into units: its head stands with all units to move. -/
theorem State.cut_headCmd {s : State} {t h q : Nat} {e : Cmd} (head : s.headCmd t h q = some e) (d : DieId) (units : Nat)
    (now : Ns) : ∃ n, ((s.modHead t h q fun e => { e with
      started := some now, waitFrom := none, units := units, nextUnit := 0 }).feedEngines d).headCmd t h q =
        some { e with started := some now, waitFrom := none, units := units, nextUnit := n } ∧
      (((s.modHead t h q fun e => { e with
        started := some now, waitFrom := none, units := units, nextUnit := 0 }).feedEngines d).die d).til.sram =
        (s.die d).til.sram := by
  have feeds := (s.modHead t h q fun e => { e with
    started := some now, waitFrom := none, units := units, nextUnit := 0 }).feedEngines_feeds d
  obtain ⟨n, hn⟩ := feeds.heads t h q _ (by rw [State.modHead_headCmd, head]; rfl)
  exact ⟨n, hn, feeds.sram⟩

/-! ### One unit (R486, R488) -/

/-- What moving a unit leaves: the contexts, the tenants, the count of units moved. -/
structure Moves (d : DieId) (s t : State) : Prop where
  ctxs : t.ctxs = s.ctxs
  tenants : t.tenants = s.tenants
  moved : (t.die d).til.unitsMoved = (s.die d).til.unitsMoved

theorem Moves.trans {d : DieId} {s t u : State} (h : Moves d s t) (k : Moves d t u) : Moves d s u :=
  ⟨k.ctxs.trans h.ctxs, k.tenants.trans h.tenants, k.moved.trans h.moved⟩

theorem Moves.refl (d : DieId) (s : State) : Moves d s s := ⟨rfl, rfl, rfl⟩

theorem State.modDie_moves (s : State) (d : DieId) (f : Die → Die) (same : ∀ x, (f x).til.unitsMoved = x.til.unitsMoved) :
    Moves d s (s.modDie d f) := ⟨rfl, rfl, by rw [State.modDie_die, same]⟩

theorem State.logDie_moves (s : State) (d : DieId) (code : Nat) (detail : List Byte) : Moves d s (s.logDie d code detail) := by
  refine ⟨s.logDie_ctxs .., ?_, by rw [State.logDie_die]⟩
  unfold State.logDie
  rw [State.log_rest]

theorem State.failTile_moves (s : State) (d : DieId) (L : Nat) : Moves d s (s.failTile d L) := by
  unfold State.failTile
  dsimp only
  split
  · exact Moves.refl ..
  · refine Moves.trans (State.modDie_moves _ _ _ ?_) (State.logDie_moves ..)
    exact fun _ => rfl

theorem State.poisonWord_moves (s : State) (d : DieId) (w : Nat) : Moves d s (s.poisonWord d w) := by
  unfold State.poisonWord
  extract_lets g s1 now s2 n
  have first : Moves d s s1 := State.modDie_moves _ _ _ fun _ => rfl
  have second : Moves d s1 s2 := by
    refine Moves.trans (State.modDie_moves _ _ _ ?_) (State.logDie_moves ..)
    exact fun _ => rfl
  split
  · exact first
  · split
    · exact (first.trans second).trans (State.failTile_moves ..)
    · exact first.trans second

theorem State.countAct_moves (s : State) (d : DieId) (a : Activity) : Moves d s (s.countAct d a) := by
  unfold State.countAct
  exact State.modDie_moves _ _ _ fun _ => rfl

theorem State.countUnit_moves (s : State) (d : DieId) (t h q : Nat) (c : Cmd) (k : Nat) : Moves d s (s.countUnit d t h q c k) := by
  have sram (u : State) (o : Option (Nat × Nat)) (a : Nat × Nat → Activity) :
      Moves d u (match o with | some g => u.countAct d (a g) | none => u) := by
    cases o with
    | none => exact Moves.refl ..
    | some g => exact State.countAct_moves ..
  unfold State.countUnit
  extract_lets o n sr s1
  have first : Moves d s s1 := State.countAct_moves ..
  split
  · exact first.trans (sram _ _ _)
  · exact (first.trans (sram _ _ _)).trans (sram _ _ _)

theorem State.stageUnit_moves (s : State) (d : DieId) (t h : Nat) (c : Cmd) (k : Nat) (data : List Byte) :
    Moves d s (s.stageUnit d t h c k data).1 := by
  have words (ws : List Nat) (u : State) : Moves d u (ws.foldl (fun s w => s.poisonWord d w) u) := by
    induction ws generalizing u with
    | nil => exact Moves.refl ..
    | cons w ws ih => exact (u.poisonWord_moves d w).trans (ih _)
  unfold State.stageUnit
  dsimp only
  split
  · exact Moves.refl ..
  · split
    · exact words _ s
    · exact Moves.refl ..

theorem State.sramWrite_moves (s : State) (d : DieId) (a : Nat) (bs : List Byte) : Moves d s (s.sramWrite d a bs) :=
  s.modDie_moves d _ fun _ => rfl

theorem State.sramZero_moves (s : State) (d : DieId) (a n : Nat) : Moves d s (s.sramZero d a n) :=
  s.modDie_moves d _ fun _ => rfl

theorem TellsHost.moves {s t : State} (h : TellsHost s t) (d : DieId) : Moves d s t :=
  ⟨h.ctxs, h.tenants, by rw [State.die, h.dies]; rfl⟩

theorem State.placeUnit_moves (s : State) (d : DieId) (t h : Nat) (c : Cmd) (k : Nat) (bytes : List Byte) :
    Moves d s (s.placeUnit d t h c k bytes) := by
  have put (a : Nat) : Moves d s (if c.op = 0x0C then s.sramZero d a bytes.length else s.sramWrite d a bytes) := by
    split
    · exact State.sramZero_moves ..
    · exact State.sramWrite_moves ..
  unfold State.placeUnit
  dsimp only
  split
  · exact Moves.refl ..
  · split
    · split
      · exact (State.hostWrite_tells ..).moves d
      · exact Moves.refl ..
    · exact put _
    · exact Moves.refl ..

theorem State.moveUnit_moves (s : State) (d : DieId) (e t h : Nat) (c : Cmd) (k : Nat) (data : List Byte) :
    Moves d s (s.moveUnit d e t h c k data) := by
  unfold State.moveUnit
  refine ((s.stageUnit_moves d t h c k data).trans (State.placeUnit_moves ..)).trans (State.modDie_moves _ _ _ ?_)
  exact fun _ => rfl

theorem State.moveUnit_sramRead (s : State) (d : DieId) (e t h : Nat) (c : Cmd) (k : Nat) (data : List Byte) (a n : Nat) :
    (s.moveUnit d e t h c k data).sramRead d a n =
      ((s.stageUnit d t h c k data).1.placeUnit d t h c k (s.stageUnit d t h c k data).2).sramRead d a n := by
  unfold State.moveUnit State.sramRead
  rw [State.modDie_die]

theorem Sram.readN_zero (m : List Host.Cell) (a n : Nat) : Sram.readN (Sram.zero m a n) a n = List.replicate n 0#8 := by
  rw [Sram.readN_eq, List.eq_replicate_iff]
  refine ⟨by simp, fun b hb => ?_⟩
  obtain ⟨i, hi, rfl⟩ := List.mem_map.1 hb
  exact Sram.read_zero _ _ _ _ ⟨Nat.le_add_right .., Nat.add_lt_add_left (List.mem_range.1 hi) _⟩

/-- A unit of a SCRUB reads 0 where it moved (R486). -/
theorem State.moveUnit_scrub {s : State} {d : DieId} {t h o first count : Nat} {c : Cmd} (op : c.op = 0x0C)
    (bound : s.binding t h (c.fld 8 2) = some (.sram o first count)) (e k : Nat) (data : List Byte) :
    (s.moveUnit d e t h c k data).sramRead d (objAddr first (c.fld 16 8 + 4096 * k)) (min 4096 (c.length - 4096 * k)) =
      List.replicate (min 4096 (c.length - 4096 * k)) 0#8 := by
  rw [State.moveUnit_sramRead]
  simp only [State.stageUnit, State.placeUnit, op, if_true, bound, State.granulesOf, List.length_replicate]
  rw [State.sramRead, State.sramZero_sram, Sram.readN_zero]

/-- A unit of a COPY from host memory reads the bytes that were read from it (R488). -/
theorem State.moveUnit_copy {s : State} {d : DieId} {t h addr len o first count : Nat} {c : Cmd} (op : c.op = 0x05)
    (src : s.binding t h (c.fld 8 2) = some (.host addr len)) (dst : s.binding t h (c.fld 10 2) = some (.sram o first count))
    (e : Nat) {k : Nat} {data : List Byte} (sized : data.length = min 4096 (c.length - 4096 * k)) :
    (s.moveUnit d e t h c k data).sramRead d (objAddr first (c.fld 24 8 + 4096 * k)) (min 4096 (c.length - 4096 * k)) =
      data := by
  have noScrub : ¬ c.op = 0x0C := by rw [op]; decide
  have staged : (List.range (min 4096 (c.length - 4096 * k))).map (fun i => data.getD i 0#8) = data := by
    rw [← sized]
    exact List.ext_getElem (by simp) fun i _ hi => by simp [hi]
  rw [State.moveUnit_sramRead]
  simp only [State.stageUnit, State.placeUnit, noScrub, if_false, src, dst, State.granulesOf, Option.bind_some, staged]
  exact State.sramWrite_sramRead _ _ _ _ _ sized.symm

end Sys2Proof.Machine
end

section
/-! COPY, SCRUB, LOAD_PLAN, RUN_PLAN, HALT_PLAN and zeroed granules (18.5 to 18.7). -/

namespace Sys2Proof
open Sys2Proof.Machine

theorem OnDie.onDie {s : State} {t h : Nat} {d : DieId} (on : OnDie s t h d) (q : Nat) (f : State → DieId → State) :
    s.onDie t h q f = f s d := by
  obtain ⟨⟨r, resident, rfl⟩, free⟩ := on
  unfold State.onDie
  simp only [resident, free, Bool.false_eq_true, if_false]

theorem OnDie.ctx {s : State} {t h : Nat} {d : DieId} (on : OnDie s t h d) :
    ∃ y r, s.ctx? t h = some y ∧ y.resident = some r ∧ dieOf r.1 = d := by
  obtain ⟨⟨r, resident, die⟩, -⟩ := on
  obtain ⟨y, hy, hr⟩ := Option.bind_eq_some_iff.1 resident
  exact ⟨y, r, hy, hr, die⟩

/-- A command of a resident context that starts does what its operation does on its die. -/
theorem Heads.doesOn {s : State} {t h q op : Nat} {e : Cmd} {d : DieId} (starts : Heads s t h q op e) (on : OnDie s t h d)
    {c : Instr} {f : State → Cmd → State → DieId → State}
    (runs : Machine.exec c s = .next (s.withHead t h q op fun s e => s.onDie t h q (f s e))) {P : State → Prop}
    (holds : P (f s e s d)) : Does c s P :=
  starts.does runs (by rw [on.onDie]; exact holds)

namespace Machine

/-- Whether a running plan of a context came from a slot. -/
theorem any_slot_false {l : List Run} {t h k : Nat} (none : ∀ r ∈ l, ¬(r.tenant = t ∧ r.handle = h ∧ r.slot = k)) :
    (l.any fun r => r.tenant == t && r.handle == h && r.slot == k) = false := by
  rw [List.any_eq_false]
  intro r hr both
  simp only [Bool.and_eq_true, beq_iff_eq, and_assoc] at both
  exact none r hr both

theorem State.placeScores_ctxs (s : State) (d : DieId) (c : Container) : (s.placeScores d c).ctxs = s.ctxs := by
  unfold State.placeScores
  generalize List.zip _ _ = l
  induction l generalizing s with
  | nil => rfl
  | cons e l ih => exact ih _

/-! ### Granules -/

theorem KV.getD_del_ne {κ α : Type} [DecidableEq κ] (l : List (κ × α)) {j k : κ} (h : j ≠ k) (d : α) :
    KV.getD (KV.del l k) j d = KV.getD l j d := by
  have kept := KV.get?_filter_keys l (fun i => !decide (i = k)) j
  rw [if_pos (by simp [h])] at kept
  unfold KV.getD KV.del
  rw [kept]

theorem KV.getD_del {κ α : Type} [DecidableEq κ] (l : List (κ × α)) (k : κ) (d : α) : KV.getD (KV.del l k) k d = d := by
  have gone := KV.get?_filter_keys l (fun i => !decide (i = k)) k
  rw [if_neg (by simp)] at gone
  unfold KV.getD KV.del
  rw [gone]
  rfl

theorem Tiles.owner_setOwner (x : Tiles) (g : Nat) (o : Granule) : (x.setOwner g o).owner g = o := by
  unfold Tiles.setOwner Tiles.owner
  split
  next base => rw [KV.getD_del, base]
  next => exact KV.getD_put ..

theorem Tiles.owner_setOwner_ne (x : Tiles) {g i : Nat} (h : i ≠ g) (o : Granule) : (x.setOwner g o).owner i = x.owner i := by
  unfold Tiles.setOwner Tiles.owner
  split
  · exact KV.getD_del_ne _ h _
  · exact KV.getD_put_ne _ h _ _

/-! ### The start of a plan (R493) -/

/-- What the start of a plan without flows puts on its die: the run, and its banks held for the context. -/
theorem State.startRun_noFlows (s : State) (d : DieId) (t h q : Nat) (c : Cmd) {p : Plan} (flows : p.flowsAt = []) :
    ((s.startRun d t h q c p).die d).til.runs = (s.die d).til.runs ++ [(s.die d).newRun d s.tray.now t h q (c.byte 8) c.idx p] ∧
    ((s.startRun d t h q c p).die d).sct.banks = (s.die d).sct.banks.mapIdx fun i b =>
      if bit p.bankMask i then { b with state := .held, holder := some (t, h) } else b := by
  have leave : ((s.leaveWait d t h q).die d).til.runs = (s.die d).til.runs ∧ ((s.leaveWait d t h q).die d).sct = (s.die d).sct := by
    unfold State.leaveWait
    rw [State.modDie_die]
    exact ⟨rfl, rfl⟩
  unfold State.startRun
  simp only [flows, List.filter_nil, List.foldl_nil, State.modDie_die, State.modHead, State.modQueue, State.modCtx_die, leave,
    and_self]

end Machine

/-! ### COPY and SCRUB -/

section
variable {s : State} {t h q : Nat} {d : DieId} {e : Cmd}

theorem inObject_iff {off len size : Nat} : inObject off len size = true ↔ off + len ≤ size := decide_eq_true_iff

theorem does_copy {a b : Binding} (starts : Heads s t h q 0x05 e) (fresh : e.started = none) (on : OnDie s t h d)
    (src : s.binding t h (e.fld 8 2) = some a) (dst : s.binding t h (e.fld 10 2) = some b) : Does (.copy t h q) s fun x =>
      (∀ i j k l, a = .host i j → b = .host k l → x = s.ends t h q stBadBinding) ∧
      (∀ i, b = .shared i → x = s.ends t h q stReadOnly) ∧
      ((∀ i, b ≠ .shared i) → (∀ i j k l, a = .host i j → b ≠ .host k l) → x =
        if !inObject (e.fld 16 8) e.length (s.sizeOf t a) ∨ !inObject (e.fld 24 8) e.length (s.sizeOf t b) then
          s.ends t h q stRange
        else (s.modHead t h q fun e' => { e' with
          started := some s.tray.now, waitFrom := none, units := e.total, nextUnit := 0 }).feedEngines d) := by
  refine starts.does rfl ?_
  simp only [fresh, Option.isSome_none, Bool.false_eq_true, if_false, on.onDie, src, dst]
  refine ⟨?_, ?_, ?_⟩
  · rintro i j k l rfl rfl
    rfl
  · rintro i rfl
    cases a <;> rfl
  · intro writable moves
    rcases b with ⟨_, _, _⟩ | ⟨_, _⟩ | i
    · cases a <;> rfl
    · rcases a with ⟨_, _, _⟩ | ⟨i, j⟩ | _
      · rfl
      · exact absurd rfl (moves i j _ _ rfl)
      · rfl
    · exact absurd rfl (writable i)

theorem does_scrub {o first count : Nat} (starts : Heads s t h q 0x0C e) (fresh : e.started = none) (on : OnDie s t h d)
    (bound : s.binding t h (e.fld 8 2) = some (.sram o first count))
    (fits : e.fld 16 8 + e.length ≤ s.sizeOf t (.sram o first count)) : Does (.scrub t h q) s fun x => x =
      if e.total = 0 then s.ends t h q stOk
      else (s.modHead t h q fun e' => { e' with
        started := some s.tray.now, waitFrom := none, units := e.total, nextUnit := 0 }).feedEngines d := by
  refine starts.does rfl ?_
  simp only [fresh, Option.isSome_none, Bool.false_eq_true, if_false, on.onDie, bound, inObject_iff.2 fits, Bool.not_true]

end

/-- The state after an engine has let go of its unit. -/
def Machine.State.unitTaken (s : State) (d : DieId) (i : Nat) : State :=
  s.modDie d fun x => { x with til := { x.til with
    engines := x.til.engines.modify i fun g => { g with unit := none }
    unitsMoved := satAdd 64 x.til.unitsMoved 1 } }

/-- The state after a unit has been counted and moved. -/
def Machine.State.unitMoved (s : State) (d : DieId) (i t h q k : Nat) (e : Cmd) (bytes : List Byte) : State :=
  ((s.unitTaken d i).countUnit d t h q e k).moveUnit d i t h e k bytes

namespace Machine

theorem State.unitMoved_moves (s : State) (d : DieId) (i t h q k : Nat) (e : Cmd) (bytes : List Byte) :
    Moves d (s.unitTaken d i) (s.unitMoved d i t h q k e bytes) :=
  (State.countUnit_moves ..).trans (State.moveUnit_moves ..)

theorem State.unitMoved_ctxs (s : State) (d : DieId) (i t h q k : Nat) (e : Cmd) (bytes : List Byte) :
    (s.unitMoved d i t h q k e bytes).ctxs = s.ctxs := (s.unitMoved_moves ..).ctxs

theorem State.unitMoved_count (s : State) (d : DieId) (i t h q k : Nat) (e : Cmd) (bytes : List Byte) :
    ((s.unitMoved d i t h q k e bytes).die d).til.unitsMoved = satAdd 64 (s.die d).til.unitsMoved 1 := by
  rw [(s.unitMoved_moves ..).moved, State.unitTaken, State.modDie_die]

end Machine

/-- What an engine that ends one of several units of a command leaves (R489). -/
theorem does_copyUnitDone {s : State} {d : DieId} {i : Fin 8} {t h q k : Nat} {bytes : List Byte} {e : Cmd}
    (unit : ((s.die d).til.engines.getD i.val {}).unit = some (t, h, q, k)) (powered : (s.die d).rails.vcore = true)
    (clocked : (s.die d).clk.enables.getLsbD 14 = true) (head : s.headCmd t h q = some e) (more : 1 < e.units)
    (stays : ((s.ctx? t h).map Ctx.evicting).getD false = false) : Does (.copyUnitDone d i (.data bytes)) s fun x =>
      x = ((s.unitMoved d i.val t h q k e bytes).modHead t h q fun c => { c with units := c.units - 1 }).feedEngines d := by
  have kept : ((((s.unitMoved d i.val t h q k e bytes).modHead t h q fun c => { c with units := c.units - 1 }).ctx? t h).map
      Ctx.evicting).getD false = false := by
    rw [State.modHead_evicting _ t h q (fun c => { c with units := c.units - 1 }) (fun _ => rfl) (fun _ => rfl)]
    unfold State.ctx? at stays ⊢
    rw [State.unitMoved_ctxs]
    exact stays
  refine ⟨_, ?_, rfl⟩
  change execCopyUnitDone d i (.data bytes) s = _
  unfold execCopyUnitDone
  simp only [unit, powered, clocked, head, Bool.not_true, Bool.false_eq_true, or_self, if_false, if_neg (Nat.not_le.2 more)]
  refine congrArg (fun x : State => Host.Outcome.next (x.feedEngines d)) (if_neg fun gone => ?_)
  exact absurd (kept.symm.trans gone.1) Bool.false_ne_true

section
variable {s : State} {d : DieId} {i t h q k : Nat} {bytes : List Byte} {e : Cmd}

/-- The head command of the queue is left one unit the fewer. -/
theorem unitMoved_heads (head : s.headCmd t h q = some e) :
    ((((s.unitMoved d i t h q k e bytes).modHead t h q fun c => { c with units := c.units - 1 }).feedEngines d).headCmd
      t h q).map Cmd.units = some (e.units - 1) := by
  obtain ⟨n, hn⟩ := (State.feedEngines_feeds ((s.unitMoved d i t h q k e bytes).modHead t h q fun c => { c with
    units := c.units - 1 }) d).heads t h q { e with units := e.units - 1 } (by
      rw [State.modHead_headCmd, State.headCmd_congr (State.unitMoved_ctxs ..), head]
      rfl)
  rw [hn]
  rfl

theorem unitMoved_reads (a n : Nat) :
    (((s.unitMoved d i t h q k e bytes).modHead t h q fun c => { c with units := c.units - 1 }).feedEngines d).sramRead d a n =
      (s.unitMoved d i t h q k e bytes).sramRead d a n := by
  unfold State.sramRead
  rw [(State.feedEngines_feeds _ d).sram]
  rfl

theorem unitTaken_binding (n : Nat) :
    ((s.unitTaken d i).countUnit d t h q e k).binding t h n = s.binding t h n :=
  State.binding_congr (State.countUnit_moves ..).ctxs ..

end

end Sys2Proof
end

section
/-! LOAD_PLAN, RUN_PLAN, HALT_PLAN and zeroed granules (18.6, 18.7), and what the work commands do. -/

namespace Sys2Proof
open Sys2Proof.Machine

section
variable {s : State} {t h q : Nat} {d : DieId} {e : Cmd}

/-- The state in which LOAD_PLAN completes with a good container: its scores placed, its plan in the slot. -/
def Machine.State.planLoaded (s : State) (d : DieId) (t h slot : Nat) (k : Container) : State :=
  ((s.placeScores d k).modDie d fun x => { x with til := { x.til with
    unitsMoved := satAdd 64 x.til.unitsMoved (k.scores.map fun p => ceilDiv (16 * p.2) 4096).sum } }).modCtx t h fun x =>
      { x with plans := KV.put x.plans slot k.plan }

theorem planLoaded_slot {y : Ctx} (ctx : s.ctx? t h = some y) (slot : Nat) (k : Container) :
    ((s.planLoaded d t h slot k).ctx? t h).bind (fun c => KV.get? c.plans slot) = some k.plan := by
  unfold State.planLoaded State.modCtx State.ctx?
  dsimp only
  rw [KV.get?_modify, if_pos rfl]
  change (Option.map _ (KV.get? (s.placeScores d k).ctxs (t, h))).bind _ = _
  rw [State.placeScores_ctxs, show KV.get? s.ctxs (t, h) = some y from ctx]
  exact KV.get?_put ..

theorem does_loadPlan {container : HostRead} {addr len : Nat} {y : Ctx} (starts : Heads s t h q 0x06 e) (on : OnDie s t h d)
    (copies : s.copies d = true) (bound : s.binding t h (e.fld 8 2) = some (.host addr len)) (ctx : s.ctx? t h = some y)
    (unused : ∀ r ∈ (s.die d).til.runs, ¬(r.tenant = t ∧ r.handle = h ∧ r.slot = e.byte 10)) {P : State → Prop}
    (fault : ∀ det, container = .fault det → P (s.complete t h q stHostFault det 0 false))
    (range : ∀ bytes, container = .data bytes → len < e.fld 16 8 + max 128 (containerOf bytes).len → P (s.ends t h q stRange))
    (free : ∀ bytes, container = .data bytes → (containerOf bytes).firstFail t y.owns (s.shares t y) = some 0xFF →
      P (s.takeFree.2.complete t h q stMalformed ((Config.freeWord s.takeFree.1).toNat % 65536) 0 false))
    (fails : ∀ bytes k, container = .data bytes → (containerOf bytes).firstFail t y.owns (s.shares t y) = some k → k ≠ 0xFF →
      P (s.complete t h q stMalformed k 0 false))
    (loads : ∀ bytes, container = .data bytes → (containerOf bytes).firstFail t y.owns (s.shares t y) = none →
      P ((s.planLoaded d t h (e.byte 10) (containerOf bytes)).complete t h q stOk 0 (containerOf bytes).plan.hash false)) :
    Does (.loadPlan t h q container) s P := by
  refine starts.doesOn on rfl ?_
  simp only [copies, Bool.not_true, Bool.false_eq_true, if_false, bound, ctx, any_slot_false unused]
  cases container with
  | fault det => exact fault det rfl
  | data bytes =>
    dsimp only
    by_cases fits : e.fld 16 8 + max 128 (containerOf bytes).len ≤ len
    · rw [inObject_iff.2 fits, if_neg (by simp)]
      cases first : (containerOf bytes).firstFail t y.owns (s.shares t y) with
      | none => exact loads bytes rfl first
      | some k =>
        dsimp only
        split
        next isFree => exact free bytes rfl (isFree ▸ first)
        next named => exact fails bytes k rfl first named
    · rw [if_pos (by simpa [inObject] using fits)]
      exact range bytes rfl (Nat.lt_of_not_le fits)

theorem does_runPlan {y : Ctx} (starts : Heads s t h q 0x07 e) (on : OnDie s t h d) (ctx : s.ctx? t h = some y)
    (idle : ∀ r ∈ (s.die d).til.runs, r.is t h q = false) : Does (.runPlan t h q) s fun x => x =
      match KV.get? y.plans (e.byte 8) with
      | none => (s.leaveWait d t h q).ends t h q stPlanNotLoaded
      | some p => s.tryRun d t h q e p := by
  obtain ⟨⟨r, resident, rfl⟩, free⟩ := on
  rw [ctx, Option.bind_some] at resident
  have none : ((s.die (dieOf r.1)).til.runs.any fun r => r.is t h q) = false := by
    rw [List.any_eq_false]
    exact fun r hr => by simp [idle r hr]
  refine starts.does rfl ?_
  cases found : KV.get? y.plans (e.byte 8) <;>
    simp only [ctx, resident, none, free, found, Bool.false_eq_true, if_false]

/-- A RUN_PLAN on a member with working banks whose conditions of R493 hold starts its plan. -/
theorem tryRun_starts {p : Plan} (member : (s.die d).mer.member = true)
    (banks : ∀ i, i < 8 → bit p.bankMask i = true → ((s.die d).sct.banks.getD i {}).state ≠ .failed ∧
      ((s.die d).sct.banks.getD i {}).state ≠ .gated)
    (may : (s.abandonRecal d p.bankMask).mayStart d t h q p = true)
    (held : s.setting 0x1400 2 0xF ≠ 1 ∨ s.tray.hold.available = true) :
    s.tryRun d t h q e p = (s.abandonRecal d p.bankMask).startRun d t h q e p := by
  have dead : ((List.range 8).any fun i => bit p.bankMask i && (((s.die d).sct.banks.getD i {}).state == .failed ||
      ((s.die d).sct.banks.getD i {}).state == .gated)) = false := by
    rw [List.any_eq_false]
    intro i hi both
    simp only [Bool.and_eq_true, Bool.or_eq_true, beq_iff_eq] at both
    obtain ⟨working, fed⟩ := banks i (List.mem_range.1 hi) both.1
    exact both.2.elim working fed
  unfold State.tryRun
  simp only [member, dead, may, Bool.not_true, Bool.false_eq_true, if_false]
  refine if_neg fun required => ?_
  obtain ⟨module, unavailable, -⟩ := required
  exact held.elim (· module) fun ready => by simp [ready] at unavailable

theorem does_haltPlan (starts : Heads s t h q 0x08 e) (on : OnDie s t h d) : Does (.haltPlan t h q) s fun x => x =
    match (s.die d).til.runs.find? fun r => r.tenant == t && r.handle == h && r.slot == e.byte 8 with
    | some r => (s.endRun d t h r.queue stHalted 0).ends t h q stOk
    | none => s.ends t h q stOk := by
  refine starts.doesOn on rfl ?_
  cases (s.die d).til.runs.find? fun r => r.tenant == t && r.handle == h && r.slot == e.byte 8 <;> rfl

end

/-- A granule that is zeroed reads 0 and is free; the other bytes and granules of its die stay. -/
theorem does_granuleZeroed {s : State} {d : DieId} {g : Nat}
    (due : (s.die d).til.owner g = .zeroing ∨ (s.die d).til.owner g = .unready) (powered : (s.die d).rails.vcore = true)
    (inside : g < 16384) : Does (.granuleZeroed d g) s fun x =>
      x = (s.sramZero d (65536 * g) 65536).modDie d fun x => { x with til := x.til.setOwner g .free } := by
  refine ⟨_, ?_, rfl⟩
  change execGranuleZeroed d g s = _
  unfold execGranuleZeroed
  rcases due with due | due <;>
    simp only [due, powered, Bool.not_true, Bool.false_eq_true, false_or, Nat.not_le.2 inside, if_false]

/-- What a granule that is zeroed leaves of its die. -/
theorem granuleZeroed_spec (s : State) (d : DieId) (g : Nat) :
    let x := (s.sramZero d (65536 * g) 65536).modDie d fun x => { x with til := x.til.setOwner g .free }
    (x.die d).til.owner g = .free ∧ x.sramRead d (65536 * g) 65536 = List.replicate 65536 0#8 ∧
      (∀ i, i ≠ g → (x.die d).til.owner i = (s.die d).til.owner i) ∧
      (∀ a, a < 65536 * g ∨ 65536 * g + 65536 ≤ a → x.sramRead d a 1 = s.sramRead d a 1) ∧ DieOnly d s x := by
  have owner : ((s.sramZero d (65536 * g) 65536).die d).til.owner = (s.die d).til.owner := by
    rw [State.sramZero, State.modDie_die]
    rfl
  have sram (x : Tiles) (o : Granule) : (x.setOwner g o).sram = x.sram := by
    unfold Tiles.setOwner
    split <;> rfl
  have reads (a n : Nat) : ((s.sramZero d (65536 * g) 65536).modDie d fun x => { x with til := x.til.setOwner g .free }).sramRead
      d a n = (s.sramZero d (65536 * g) 65536).sramRead d a n := by
    unfold State.sramRead
    rw [State.modDie_die]
    exact congrArg (Sram.readN · a n) (sram ..)
  refine ⟨?_, ?_, fun i other => ?_, fun a outside => ?_, ?_⟩
  · rw [State.modDie_die]
    exact Tiles.owner_setOwner ..
  · rw [reads, State.sramRead, State.sramZero_sram, Sram.readN_zero]
  · rw [State.modDie_die]
    exact (Tiles.owner_setOwner_ne _ other _).trans (congrFun owner i)
  · rw [reads, State.sramRead_one, State.sramRead_one, State.sramZero_sram, Sram.read_zero_ne _ _ _ _ outside]
  · exact (State.modDie_only ..).trans (State.modDie_only ..)


/-- Settles O53: each command by what it does with the command at the head of its queue; a unit by what it leaves of the state
it moves in. -/
theorem workCommands : Obligations.WorkCommands := by
  unfold Obligations.WorkCommands
  refine ⟨?_, ?_, ?_, ?_, ?_, ?_, ?_, ?_, ?_⟩
  · intro s t h q d e a b starts fresh on src dst
    refine (does_copy starts fresh on src dst).imp fun x ⟨hosts, shared, cut⟩ => ⟨hosts, shared, fun writable moves => ?_⟩
    have made := cut writable moves
    refine ⟨fun beyond => made.trans (if_pos ?_), fun fits fits' => ?_⟩
    · simpa [inObject] using beyond
    · rw [if_neg (by simp [inObject_iff.2 fits, inObject_iff.2 fits'])] at made
      obtain ⟨n, hn, sram⟩ := State.cut_headCmd starts.head d e.total s.tray.now
      exact made ▸ ⟨_, hn, rfl, rfl, rfl, sram⟩
  · intro s t h q o first count d e starts fresh on bound fits
    refine (does_scrub starts fresh on bound fits).imp fun x made => ⟨fun none => made.trans (if_pos none), fun some => ?_⟩
    rw [if_neg some] at made
    obtain ⟨n, hn, -⟩ := State.cut_headCmd starts.head d e.total s.tray.now
    exact made ▸ ⟨_, hn, rfl, rfl⟩
  · intro s d i t h q k bytes e unit powered clocked head more stays
    refine (does_copyUnitDone unit powered clocked head more stays).imp ?_
    rintro x rfl
    refine ⟨(State.feedEngines_feeds _ d).moved.trans (State.unitMoved_count ..), unitMoved_heads head,
      fun o first count op bound => ?_, fun addr len o first count op src dst sized => ?_⟩
    · rw [unitMoved_reads]
      exact State.moveUnit_scrub op ((unitTaken_binding _).trans bound) ..
    · rw [unitMoved_reads]
      exact State.moveUnit_copy op ((unitTaken_binding _).trans src) ((unitTaken_binding _).trans dst) _ sized
  · intro s t h q addr len d e bytes starts on copies bound unused fits
    obtain ⟨y, -, ctx, -, -⟩ := on.ctx
    refine does_loadPlan starts on copies bound ctx unused (fun _ other => by cases other) ?_ ?_ ?_ ?_
    · rintro _ ⟨⟩ beyond
      exact absurd fits (Nat.not_le.2 beyond)
    · rintro _ ⟨⟩ free
      refine ⟨fun y' hy good => ?_, fun y' k hy bad named => ?_⟩ <;> obtain rfl := Option.some.inj (ctx.symm.trans hy)
      · rw [free] at good
        cases good
      · exact absurd (Option.some.inj (bad.symm.trans free)) named
    · rintro _ k ⟨⟩ bad named
      refine ⟨fun y' hy good => ?_, fun y' k' hy bad' _ => ?_⟩ <;> obtain rfl := Option.some.inj (ctx.symm.trans hy)
      · rw [bad] at good
        cases good
      · obtain rfl := Option.some.inj (bad.symm.trans bad')
        exact ⟨s, rfl, rfl, rfl⟩
    · rintro _ ⟨⟩ good
      refine ⟨fun y' hy _ => ⟨_, rfl, planLoaded_slot ctx ..⟩, fun y' k hy bad _ => ?_⟩
      obtain rfl := Option.some.inj (ctx.symm.trans hy)
      rw [good] at bad
      cases bad
  · intro s t h q addr len det d e starts on copies bound unused
    obtain ⟨y, -, ctx, -, -⟩ := on.ctx
    refine does_loadPlan starts on copies bound ctx unused ?_ (fun _ other => by cases other) (fun _ other => by cases other)
      (fun _ _ other => by cases other) (fun _ other => by cases other)
    rintro _ ⟨⟩
    rfl
  · intro s t h q d e y p starts on ctx loaded idle member banks may held
    refine (does_runPlan starts on ctx idle).imp fun x made => ?_
    rw [loaded] at made
    obtain rfl := made.trans (tryRun_starts member banks may held)
    refine ⟨rfl, fun flows => ?_⟩
    obtain ⟨runs, held⟩ := State.startRun_noFlows (s.abandonRecal d p.bankMask) d t h q e flows
    refine ⟨⟨_, runs ▸ List.mem_append_right _ (List.mem_singleton.2 rfl), rfl, rfl, rfl, rfl⟩, fun i b masked here => ?_⟩
    rw [held, List.getElem?_mapIdx] at here
    obtain ⟨b', -, rfl⟩ := Option.map_eq_some_iff.1 here
    rw [if_pos masked]
    exact ⟨rfl, rfl⟩
  · intro s t h q d e y starts on ctx unloaded idle
    refine (does_runPlan starts on ctx idle).imp fun x made => ?_
    rwa [unloaded] at made
  · intro s t h q d e starts on
    refine (does_haltPlan starts on).imp fun x made => ⟨fun r found => ?_, fun none => ?_⟩
    · rwa [found] at made
    · have absent : ((s.die d).til.runs.find? fun r => r.tenant == t && r.handle == h && r.slot == e.byte 8) = .none :=
        List.find?_eq_none.2 fun r hr both => none r hr (by simpa [and_assoc] using both)
      rwa [absent] at made
  · intro s d g due powered inside
    refine (does_granuleZeroed due powered inside).imp ?_
    rintro x rfl
    exact granuleZeroed_spec s d g


end Sys2Proof
end

section
/-! TRAY_EN_n and the cold start (2.2). -/

namespace Sys2Proof
open Sys2Proof.Machine

/-- A command ends in a state that passes a test: what a counterexample evaluates. -/
def endsIn (c : Instr) (s : State) (test : State → Bool) : Bool :=
  match Machine.exec c s with
  | .next t => test t
  | _ => false

/-- What a command is said to do holds of the state in which it was seen to end. -/
theorem Does.seen {c : Instr} {s : State} {P : State → Prop} (does : Does c s P) {test : State → Bool}
    (seen : endsIn c s test = true) : ∃ t, test t = true ∧ P t := by
  obtain ⟨t, ran, holds⟩ := does
  refine ⟨t, ?_, holds⟩
  unfold endsIn at seen
  rwa [show Machine.exec c s = .next t from ran] at seen

/-- A tray that is off, every die with no working VCORE phase left. -/
def phasesLostState : State :=
  { State.reset with dies := Vector.replicate 8 { (State.reset.die 0) with rails := { phases := 0 } } }

/-- Refutes O7: TRAY_EN_n leaves the failed VCORE phases of a die (R69), so its rails are not those of a die that was never
used. -/
theorem not_trayEnableAndBus : ¬ Obligations.TrayEnableAndBus := by
  unfold Obligations.TrayEnableAndBus
  rintro ⟨asserts, -⟩
  obtain ⟨t, lost, -, -, -, -, -, -, -, -, fresh⟩ := (asserts phasesLostState 0 48000 rfl).seen
    (test := fun t => decide ((t.die 0).rails.phases = 0)) (by decide +kernel)
  rw [(fresh 0).1] at lost
  exact absurd lost (by decide)

end Sys2Proof
end

section
/-! The move from the bridge to the idle loop (3.3). -/

namespace Sys2Proof
open Sys2Proof.Machine

/-- A die that computes on the bridge under an alert, its spare loop at F15, while a benchmark runs. -/
def bridgeDie : Die :=
  { (State.reset.die 0) with
    rails := { vcore := true }
    op := { awaitRelease := true }
    clk := { onBridge := true }
    nrg := { bench := [⟨0, 0, [], 0, false⟩] } }

/-- Every die is `bridgeDie`. -/
def bridgeState : State := { State.reset with dies := Vector.replicate 8 bridgeDie }

/-- Refutes O8: the move from the bridge to the idle loop spoils a running benchmark (R218), which the statement has stay. -/
theorem not_clockSources : ¬ Obligations.ClockSources := by
  unfold Obligations.ClockSources
  rintro ⟨-, -, -, -, -, -, moves, -⟩
  obtain ⟨t, spoilt, -, -, -, rest, -⟩ := (moves bridgeState 0 (by decide +kernel) (by decide +kernel) (by decide +kernel)
    (by decide +kernel) (by decide +kernel)).seen
    (test := fun t => decide ((t.die 0).nrg.bench = [⟨0, 0, [], 0, true⟩])) (by decide +kernel)
  have kept : (t.die 0).nrg = (bridgeState.die 0).nrg := by rw [rest]
  rw [kept] at spoilt
  exact absurd spoilt (by decide +kernel)

end Sys2Proof
end

section
/-! Steering of system time and the TIME exchange (3.8, 12.10). -/

namespace Sys2Proof.Machine
open Sys2Proof

theorem State.modClk_die (s : State) (d : DieId) (f : Clk → Clk) :
    (s.modClk d f).die d = { s.die d with clk := f (s.die d).clk } := State.modDie_die ..

theorem State.modClk_only (s : State) (d : DieId) (f : Clk → Clk) : DieOnly d s (s.modClk d f) := s.modDie_only d _

/-- A change of one die that leaves a part of it leaves that part of every die. -/
theorem State.modDie_same {α : Type} (s : State) (d : DieId) (f : Die → Die) (g : Die → α) (same : ∀ x, g (f x) = g x)
    (e : DieId) : g ((s.modDie d f).die e) = g (s.die e) := by
  by_cases here : e = d
  · rw [here, State.modDie_die, same]
  · rw [State.modDie_die_ne _ _ _ _ here]

/-! ### The clock at the start of a steering interval (R59, R60) -/

section
variable (c : Clk) (now : Ns)

theorem Clk.newRate_raw (n : Nat) (short : n ≤ 1000000) :
    (c.newRate now).raw (now + n) = c.raw now + n + (c.newRate now).rateAdj * n / 1000000 := by
  unfold Clk.raw Clk.steered
  simp only [Clk.newRate, Nat.add_sub_cancel_left, Nat.min_eq_left short, Clk.steered]
  omega

theorem Clk.newRate_count : (c.newRate now).count now = c.count now := by
  have same := c.newRate_raw now 0 (Nat.zero_le _)
  simp only [Int.natCast_zero, Nat.add_zero, Int.add_zero, Int.mul_zero, Int.zero_ediv] at same
  rw [Clk.count, same]
  rfl

theorem Clk.newRate_adj (valid : c.timeValid = true) : (c.newRate now).rateAdj = max (-200) (min 200 c.steer) := by
  simp [Clk.newRate, valid, clampI]

theorem Clk.newRate_steer (valid : c.timeValid = true) :
    (c.newRate now).steer = c.steer - max (-200) (min 200 c.steer) := by
  simp [Clk.newRate, valid, clampI]

end

end Sys2Proof.Machine

namespace Sys2Proof
open Sys2Proof.Machine

section
variable {s : State} {d : DieId}

/-- The time root keeps its place when its rate changes. -/
theorem timeRoot_newRate (root : s.timeRoot d = true) : (s.modClk d fun c => c.newRate s.tray.now).timeRoot d = true := by
  have mer (e : DieId) : ((s.modClk d fun c => c.newRate s.tray.now).die e).mer = (s.die e).mer :=
    s.modDie_same d (fun x => { x with clk := x.clk.newRate s.tray.now }) Die.mer (fun _ => rfl) e
  have valid (e : DieId) : ((s.modClk d fun c => c.newRate s.tray.now).die e).clk.timeValid = (s.die e).clk.timeValid :=
    s.modDie_same d (fun x => { x with clk := x.clk.newRate s.tray.now }) (fun x => x.clk.timeValid) (fun _ => rfl) e
  have dset (e : DieId) (idx sub : Nat) : (s.modClk d fun c => c.newRate s.tray.now).dset e idx sub = s.dset e idx sub := rfl
  unfold State.timeRoot State.groupNo State.identity at root ⊢
  simp only [mer, valid, dset]
  exact root

theorem does_timeExchangeTick (root : s.timeRoot d = true) : Does (.timeExchangeTick d) s fun t =>
    t = s.modClk d fun c => c.newRate s.tray.now := by
  refine ⟨_, ?_, rfl⟩
  change execTimeExchangeTick d s = _
  unfold execTimeExchangeTick
  exact if_pos (timeRoot_newRate root)

end

/-- Settles O9: the tick of a root by the clock it starts anew; a request by the flit of its response; a response by its
offset. -/
theorem timeExchange : Obligations.TimeExchange := by
  unfold Obligations.TimeExchange
  refine ⟨?_, ?_, ?_, ?_⟩
  · intro s d root
    have valid : (s.die d).clk.timeValid = true := by
      unfold State.timeRoot at root
      simp only [Bool.and_eq_true] at root
      exact root.1.1
    refine (does_timeExchangeTick root).imp ?_
    rintro t rfl
    rw [State.modClk_die]
    exact ⟨Clk.newRate_adj _ _ valid, rfl, Clk.newRate_count .., fun n short => Clk.newRate_raw _ _ _ short,
      Clk.newRate_steer _ _ valid, rfl, State.modClk_only ..⟩
  · intro s d port src no t1 t2 up room
    refine ⟨_, rfl, ?_, (State.putRecord_ports ..).die, (State.putRecord_ports ..).toDieSends⟩
    unfold State.takeTimeRequest State.putRecord
    simp only [up, PortState.carries, Nat.not_le.2 room, and_false, or_false, if_false, if_true, reduceCtorEq]
    rfl
  · intro s d no own t1 t2 t3 t4 opened valid low high
    refine ⟨_, rfl, ?_⟩
    have near : ¬((((t2 : Int) - t1) + ((t3 : Int) - t4)) / 2 < -40 ∨ 40 < (((t2 : Int) - t1) + ((t3 : Int) - t4)) / 2) := by
      omega
    unfold State.takeTimeResponse
    simp only [opened, ne_eq, not_true, if_false, if_neg near, Nat.not_le.2 (show (0 : Nat) < 10 by decide)]
    rw [if_pos valid]
    exact ⟨State.modClk_die .., State.modClk_only ..⟩
  · intro s d no own t1 t2 t3 t4 opened invalid low high
    refine ⟨_, rfl, ?_⟩
    unfold State.takeTimeResponse
    simp only [opened, invalid, ne_eq, not_true, Bool.false_eq_true, if_false, if_pos (And.intro low high)]
    rw [State.modClk_die]
    exact ⟨by simp, rfl, rfl, State.modClk_only ..⟩

end Sys2Proof
end

section
/-! The AVSBus fault (4.2). -/

namespace Sys2Proof
open Sys2Proof.Machine

/-- Every die has retried a voltage write under an alert, and its regulator's VOUT_MAX is 0. -/
def retriedState : State :=
  { State.reset with dies := Vector.replicate 8 { (State.reset.die 0) with
    rails := { avsWrite := some (0, true), avsGov := true, voutMax := 0 }
    op := { alert := true } } }

/-- The second failure of a write under an alert leaves VCORE at the wide F15 target or VOUT_MAX, the lower (R70, R71). -/
theorem does_avsWriteTimeout_again {s : State} {d : DieId} {v : Nat} (retried : (s.die d).rails.avsWrite = some (v, true))
    (alert : (s.die d).op.alert = true) : Does (.avsWriteTimeout d) s fun t =>
      (t.die d).rails.vcoreSet = min (vcoreTarget d 15 true (s.die d).op.trim 0) (s.die d).rails.voutMax := by
  change ∃ t, Machine.execAvsWriteTimeout d s = .next t ∧ _
  unfold execAvsWriteTimeout State.assertAlert
  have alerts : ((((s.advanceTo ((s.die d).rails.writeAt + 4000)).modRails d fun r => { r with
      avsFault := true, avsGov := false }.pmbus (vcoreTarget d 15 true (s.die d).op.trim 0)).die d).op.alert) = true := by
    rw [State.modRails, State.modDie_die]
    exact alert
  simp only [retried, alerts, if_true]
  refine ⟨_, rfl, ?_⟩
  simp only [State.modOp, State.modRails, State.modDie_die]
  rfl

/-- Refutes O11: the tray controller commands no voltage above VOUT_MAX (R70), so an AVSBus fault leaves VCORE at the lower of
that and the wide F15 target. -/
theorem not_avsBusAndConverters : ¬ Obligations.AvsBusAndConverters := by
  unfold Obligations.AvsBusAndConverters
  rintro ⟨-, -, faults, -⟩
  obtain ⟨t, ran, -, -, target, -⟩ := faults retriedState 0 0 (by decide +kernel) (by decide +kernel)
  obtain ⟨u, ran', capped⟩ := does_avsWriteTimeout_again (s := retriedState) (d := 0) (v := 0) (by decide +kernel)
    (by decide +kernel)
  obtain rfl : t = u := by simpa [ran] using ran'
  have none : (retriedState.die 0).rails.voutMax = 0 := by decide +kernel
  rw [none, Nat.min_zero, target] at capped
  have least : 2000 ≤ vcoreTarget 0 15 true (retriedState.die 0).op.trim 0 := Nat.le_max_left ..
  rw [capped] at least
  exact absurd least (by decide)

end Sys2Proof
end

section
/-! What steers a die: the switch of its step, its voltage, urgent proposals and what they leave of the rest (R44, R74, R195). -/

namespace Sys2Proof.Machine
open Sys2Proof

/-! ### Steering -/

/-- Of a die nothing changed but what steers its step and voltage, its part of the group, and what it sends. -/
def Steers (x y : Die) : Prop :=
  y = { x with
    clk := y.clk, mer := y.mer, fab := y.fab, nrg := y.nrg
    rails := { x.rails with
      avsGoal := y.rails.avsGoal, target := y.rails.target, vReady := y.rails.vReady, avsWrite := y.rails.avsWrite
      writeAt := y.rails.writeAt }
    op := { x.op with supplyLag := y.op.supplyLag, trimWas := y.op.trimWas }
    droop := { x.droop with lowerNext := y.droop.lowerNext } }

theorem Steers.refl (x : Die) : Steers x x := rfl

theorem Steers.trans {x y z : Die} (h : Steers x y) (k : Steers y z) : Steers x z := by
  unfold Steers at *
  rw [k, h]

theorem Steers.spoil (x : Die) : Steers x x.spoil := rfl

theorem Steers.til {x y : Die} (h : Steers x y) : y.til = x.til := by rw [h]

/-- Die d was steered, which may have been recorded. -/
structure Steered (d : DieId) (s t : State) : Prop extends DieNoted d s t where
  die : Steers (s.die d) (t.die d)
  now : t.tray.now = s.tray.now

/-- Die d was steered, which may have sent records. -/
structure Urged (d : DieId) (s t : State) : Prop extends DieSends d s t where
  die : Steers (s.die d) (t.die d)

theorem Steered.refl (d : DieId) (s : State) : Steered d s s := ⟨⟨rfl, fun _ _ => rfl⟩, rfl, rfl⟩

theorem Steered.trans {d : DieId} {s t u : State} (h : Steered d s t) (k : Steered d t u) : Steered d s u :=
  ⟨h.toDieNoted.trans k.toDieNoted, h.die.trans k.die, k.now.trans h.now⟩

theorem Urged.refl (d : DieId) (s : State) : Urged d s s := ⟨⟨rfl, fun _ _ => rfl⟩, rfl⟩

theorem Urged.trans {d : DieId} {s t u : State} (h : Urged d s t) (k : Urged d t u) : Urged d s u :=
  ⟨h.toDieSends.trans k.toDieSends, h.die.trans k.die⟩

theorem PortsOnly.urged {d : DieId} {s t : State} (h : PortsOnly d s t) : Urged d s t :=
  ⟨h.toDieSends, by rw [h.die]; rfl⟩

theorem State.log_now (s : State) (source code : Nat) (detail : List Byte) :
    (s.log source code detail).tray.now = s.tray.now := by
  unfold State.log
  dsimp only
  split <;> rfl

section
variable (s : State) (d : DieId)

theorem State.modDie_steered (f : Die → Die) (steers : ∀ x, Steers x (f x)) : Steered d s (s.modDie d f) :=
  ⟨(s.modDie_only d f).noted, by rw [State.modDie_die]; exact steers _, rfl⟩

theorem State.modDie_urged (f : Die → Die) (steers : ∀ x, Steers x (f x)) : Urged d s (s.modDie d f) :=
  ⟨(s.modDie_only d f).sends, by rw [State.modDie_die]; exact steers _⟩

theorem State.modClk_steered (f : Clk → Clk) : Steered d s (s.modClk d f) := s.modDie_steered d _ fun _ => rfl

theorem State.modClk_urged (f : Clk → Clk) : Urged d s (s.modClk d f) := s.modDie_urged d _ fun _ => rfl

theorem State.logDie_steered (code : Nat) (detail : List Byte) : Steered d s (s.logDie d code detail) :=
  ⟨s.log_noted .., by rw [State.logDie_die]; rfl, s.log_now ..⟩

theorem State.logClk_steered (code : Nat) : Steered d s (s.logClk d code) :=
  ⟨s.log_noted .., by rw [State.logClk, State.logDie_die]; rfl, s.log_now ..⟩

/-- What the voltage sequencer does of a die (R74). -/
theorem State.moveVcore_steers (goal : Nat) : Steers (s.die d) ((s.moveVcore d goal).die d) := by
  rw [State.moveVcore, State.modDie_die]
  split
  · exact .refl _
  · split
    · exact .refl _
    · split
      · exact rfl
      · exact rfl

theorem State.moveVcore_steered (goal : Nat) : Steered d s (s.moveVcore d goal) :=
  ⟨(s.modDie_only d _).noted, s.moveVcore_steers d goal, rfl⟩

theorem State.moveVcore_urged (goal : Nat) : Urged d s (s.moveVcore d goal) :=
  ⟨(s.modDie_only d _).sends, s.moveVcore_steers d goal⟩

/-! ### The switch of the step (R44 to R47, R75) -/

theorem State.supplyLag_steered (g : Nat) : Steered d s (s.supplyLag d g) :=
  (s.modDie_steered d (fun x => { x with
    clk := { x.clk with raiseWaits := true }
    op := { x.op with supplyLag := true }
    mer := { x.mer with emergency := true, releasedAt := none } }) fun _ => rfl).trans (State.logDie_steered ..)

theorem State.clockFault_steered (l : Option LoopId) : Steered d s (s.clockFault d l) := by
  unfold State.clockFault
  extract_lets now s1
  have first : Steered d s s1 := s.modDie_steered d _ fun _ => rfl
  exact first.trans (s1.logClk_steered ..)

theorem State.loopFault_steered (l : LoopId) (g : Nat) : Steered d s (s.loopFault d l g) := by
  unfold State.loopFault
  dsimp only
  split
  · exact (State.clockFault_steered ..).trans (State.modClk_steered ..)
  · exact State.clockFault_steered ..

theorem State.raiseRefused_steered (l : LoopId) (g : Nat) : Steered d s (s.raiseRefused d l g) := by
  unfold State.raiseRefused
  extract_lets s1 s2
  have first : Steered d s s1 :=
    ((State.modClk_steered ..).trans (State.logClk_steered ..)).trans (State.loopFault_steered ..)
  have second : Steered d s s2 := by
    unfold s2
    split
    · exact first
    · exact first.trans (State.supplyLag_steered ..)
  exact second.trans (State.moveVcore_steered ..)

theorem State.applyStep_steered (g : Nat) : Steered d s (s.applyStep d g) := by
  unfold State.applyStep
  extract_lets g x c s1 l ready s2
  have ended : Steered d s s1 := s.modDie_steered d _ fun _ => rfl
  have lowered : Steered d s s2 := by
    unfold s2
    split
    · exact ended.trans (State.modClk_steered ..)
    · exact ((ended.trans (State.modClk_steered ..)).trans (State.logClk_steered ..)).trans (State.loopFault_steered ..)
  have bridged (f : Clk → Clk) (v : Nat) : Steered d s (((s1.modClk d f).clockFault d none).moveVcore d v) :=
    ((ended.trans (State.modClk_steered ..)).trans (State.clockFault_steered ..)).trans (State.moveVcore_steered ..)
  split
  · exact .refl ..
  · split
    · exact s.modDie_steered d _ fun _ => rfl
    · split
      · split
        · split
          · exact ended.trans (State.modClk_steered ..)
          · exact ended.trans (State.supplyLag_steered ..)
        · split
          · exact .refl ..
          · split
            · exact bridged _ _
            · exact State.modClk_steered ..
      · split
        · exact bridged _ _
        · split
          · exact lowered.trans (State.moveVcore_steered ..)
          · split
            · exact ended.trans (State.raiseRefused_steered ..)
            · split
              · exact ended.trans (State.supplyLag_steered ..)
              · exact ended.trans (State.modClk_steered ..)

/-! ### Urgent proposals (R195, R196) -/

theorem State.holdResult_urged (r : MResult) (src : Nat) : Urged d s (s.holdResult d r src) := by
  unfold State.holdResult
  extract_lets g s1 x c s2
  have noted : Urged d s s1 := by
    refine s.modDie_urged d _ fun x => ?_
    split <;> rfl
  have retuned : Urged d s s2 := by
    unfold s2
    split
    · exact noted
    · exact noted.trans (State.modClk_urged ..)
  split
  · exact noted
  · exact retuned.trans (State.moveVcore_urged ..)

theorem State.amend_urged (code : Nat) : Urged d s (s.amend d code) := by
  unfold State.amend
  split
  · exact .refl ..
  · dsimp only
    split
    · exact .refl ..
    · exact (State.sendResult_ports ..).urged.trans (State.holdResult_urged ..)

theorem State.sendUp_urged (k ty src : Nat) (body : List Byte) : Urged d s (s.sendUp d k ty src body) := by
  unfold State.sendUp
  dsimp only
  split
  · exact .refl ..
  · exact (State.sendFor_ports ..).urged.trans (State.modDie_urged _ _ _ fun _ => rfl)

theorem State.urgent_urged (st : Nat) : Urged d s (s.urgent d st) := by
  unfold State.urgent
  extract_lets st1 s0 m code id s1
  have spoilt : Urged d s s0 := s.modDie_urged d _ fun _ => rfl
  have heard : Urged d s s1 := spoilt.trans (s0.modDie_urged d _ fun _ => rfl)
  split
  · exact spoilt
  · split
    · split
      · exact heard.trans (State.amend_urged ..)
      · exact heard
    · exact heard.trans (State.sendUp_urged ..)

theorem State.retarget_urged : Urged d s (s.retarget d) := State.moveVcore_urged ..

end

end Sys2Proof.Machine
end

section
/-! The regulator alert from assertion to release, and the ageing trim (4.6, 4.7). -/

namespace Sys2Proof.Machine
open Sys2Proof

section
variable (s : State) (d : DieId)

/-- While an alert suspends voltage writes the sequencer leaves the rails (R85). -/
theorem State.moveVcore_held {s : State} {d : DieId} (hold : (s.die d).op.hold = true) (goal : Nat) :
    (s.moveVcore d goal).die d = s.die d := by
  rw [State.moveVcore, State.modDie_die, if_pos (.inr (.inr (.inr hold)))]

theorem State.holdResult_rails {s : State} {d : DieId} (hold : (s.die d).op.hold = true) (r : MResult) (src : Nat) :
    ((s.holdResult d r src).die d).rails = (s.die d).rails := by
  unfold State.holdResult
  extract_lets g s1 x c s2
  have first : (s1.die d).rails = (s.die d).rails ∧ (s1.die d).op = (s.die d).op := by
    rw [State.modDie_die]
    exact ⟨rfl, rfl⟩
  have second : (s2.die d).rails = (s.die d).rails ∧ (s2.die d).op = (s.die d).op := by
    unfold s2
    split
    · exact first
    · rw [State.modClk, State.modDie_die]
      exact first
  split
  · exact first.1
  · rw [State.moveVcore_held (by rw [second.2]; exact hold)]
    exact second.1

theorem PortsOnly.rails {d : DieId} {s t : State} (h : PortsOnly d s t) : (t.die d).rails = (s.die d).rails := by rw [h.die]
theorem PortsOnly.op {d : DieId} {s t : State} (h : PortsOnly d s t) : (t.die d).op = (s.die d).op := by rw [h.die]

theorem State.amend_rails {s : State} {d : DieId} (hold : (s.die d).op.hold = true) (code : Nat) :
    ((s.amend d code).die d).rails = (s.die d).rails := by
  unfold State.amend
  split
  · rfl
  · dsimp only
    split
    · rfl
    · rw [State.holdResult_rails (by rw [(State.sendResult_ports ..).op]; exact hold), (State.sendResult_ports ..).rails]

theorem State.amend_emergency (code : Nat) : ((s.amend d code).die d).mer.emergency = (s.die d).mer.emergency := by
  unfold State.amend
  split
  · rfl
  · dsimp only
    split
    · rfl
    · rw [(State.holdResult_holds ..).mer, (State.sendResult_ports ..).mer]

theorem State.sendUp_rails (k ty src : Nat) (body : List Byte) : ((s.sendUp d k ty src body).die d).rails = (s.die d).rails := by
  unfold State.sendUp
  dsimp only
  split
  · rfl
  · rw [State.modDie_die]
    exact (State.sendFor_ports ..).rails

theorem State.sendUp_emergency (k ty src : Nat) (body : List Byte) :
    ((s.sendUp d k ty src body).die d).mer.emergency = (s.die d).mer.emergency := by
  unfold State.sendUp
  dsimp only
  split
  · rfl
  · rw [State.modDie_die]
    dsimp only
    rw [(State.sendFor_ports ..).mer]

/-- An urgent proposal puts its die under a local emergency, and under an alert it leaves the rails (R85, R195). -/
theorem State.urgent_emergency (st : Nat) : ((s.urgent d st).die d).mer.emergency = true ∧
    ((s.die d).op.hold = true → ((s.urgent d st).die d).rails = (s.die d).rails) := by
  unfold State.urgent
  extract_lets st1 s0 m code id s1
  have spoilt : (s0.die d).mer.emergency = true ∧ (s0.die d).rails = (s.die d).rails ∧ (s0.die d).op = (s.die d).op := by
    rw [State.modDie_die]
    exact ⟨rfl, rfl, rfl⟩
  have heard : (s1.die d).mer.emergency = true ∧ (s1.die d).rails = (s.die d).rails ∧ (s1.die d).op = (s.die d).op := by
    rw [State.modDie_die]
    exact spoilt
  obtain ⟨emergency, rails, op⟩ := heard
  split
  · exact ⟨spoilt.1, fun _ => spoilt.2.1⟩
  · split
    · split
      · exact ⟨(State.amend_emergency ..).trans emergency,
          fun hold => (State.amend_rails (op ▸ hold) _).trans rails⟩
      · exact ⟨emergency, fun _ => rails⟩
    · exact ⟨(State.sendUp_emergency ..).trans emergency, fun _ => (State.sendUp_rails ..).trans rails⟩

/-! ### The assertion (R85) -/

theorem State.noticePfs_tells (src code die sysTime detail : Nat) : TellsHost s (s.noticePfs src code die sysTime detail) :=
  (State.notice_tells ..).trans (State.notice_tells ..)

theorem State.noticeDie_tells (src code : Nat) : TellsHost s (s.noticeDie d src code) := by
  refine TellsHost.trans (.foldl (fun u x => ?_) _ s) (State.noticePfs_tells ..)
  cases u.fnOf x with
  | none => exact .refl u
  | some f => exact State.notice_tells ..

theorem State.flood_ports (ty : Nat) (body : List Byte) : PortsOnly d s (s.flood d ty body) := by
  unfold State.flood
  extract_lets b s1
  have sent : PortsOnly d s s1 := .foldl (fun u p => .ite (State.putRecord_ports ..) (.refl d u)) _ s
  exact sent.trans (s1.modFab_ports d fun y => { y with seen := (seenKey b, s.tray.now) :: y.seen })

/-- An announcement changes of the dies what the announcing one sent. -/
theorem State.announce_die (src code : Nat) : (∀ e, e ≠ d → (s.announce d src code).die e = s.die e) ∧
    (s.announce d src code).die d = { s.die d with fab := ((s.announce d src code).die d).fab } := by
  have same (e : DieId) : (s.noticeDie d src code).die e = s.die e := by
    unfold State.die
    rw [(State.noticeDie_tells ..).dies]
  unfold State.announce
  have flood := (s.noticeDie d src code).flood_ports d 0x14
    ([BitVec.ofNat 8 src, BitVec.ofNat 8 code, 0#8, 0#8] ++ leBytes 8 (s.stampTime d))
  exact ⟨fun e other => (flood.others e other).trans (same e), flood.die.trans (by rw [same])⟩

/-- A die on which REG_ALERT_n asserts, `w` being the causes it then has (R85). -/
def Die.alerted (x : Die) (w cause : Nat) (now : Ns) : Die :=
  { x with
    op := { x.op with
      alert := true, alertCause := w, liveCauses := 2 ^ cause
      alertCount := satAdd 32 x.op.alertCount 1, alertAt := now, deassertAt := none, hold := true, issueCut := true
      awaitRelease := true, div4 := true, acked := false, f15Pending := false }
    rails := { x.rails with avsWrite := none }
    clk := if x.computes then x.clk.tuneIdle 15 else x.clk }

/-- The state in which the alert of a die has been announced (R85). -/
def State.alertAnnounced (s : State) (d : DieId) (cause : Nat) : State :=
  ((s.modDie d fun x => x.alerted ((s.die d).op.alertCause ||| 2 ^ cause) cause s.tray.now).logDie d 0x2101
    (leBytes 2 ((s.die d).op.alertCause ||| 2 ^ cause))).announce d 2 1

/-- An asserted REG_ALERT_n adds its cause; else the forced state begins, announced and proposed (R85). -/
theorem State.assertAlert_eq (cause : Nat) : s.assertAlert d cause =
    if (s.die d).op.alert then s.modOp d fun o => { o with
      alertCause := (s.die d).op.alertCause ||| 2 ^ cause, liveCauses := (s.die d).op.liveCauses ||| 2 ^ cause }
    else if (s.die d).computes then (s.alertAnnounced d cause).urgent d 15 else s.alertAnnounced d cause := rfl

theorem State.alertAnnounced_die (cause : Nat) : (∀ e, e ≠ d → (s.alertAnnounced d cause).die e = s.die e) ∧
    (s.alertAnnounced d cause).die d =
      { (s.die d).alerted ((s.die d).op.alertCause ||| 2 ^ cause) cause s.tray.now with
        fab := ((s.alertAnnounced d cause).die d).fab } := by
  have told := State.announce_die ((s.modDie d fun x => x.alerted ((s.die d).op.alertCause ||| 2 ^ cause) cause
    s.tray.now).logDie d 0x2101 (leBytes 2 ((s.die d).op.alertCause ||| 2 ^ cause))) d 2 1
  refine ⟨fun e other => ?_, told.2.trans ?_⟩
  · exact (told.1 e other).trans (by rw [State.logDie_die, State.modDie_die_ne _ _ _ _ other])
  · rw [State.logDie_die, State.modDie_die]
    rfl

/-- The forced state of an alert that was asserted at a time (R85). -/
def Die.Forced (x : Die) (at_ : Ns) : Prop :=
  x.op.alert = true ∧ x.op.hold = true ∧ x.op.div4 = true ∧ x.op.issueCut = true ∧ x.op.alertAt = at_ ∧ x.op.awaitRelease = true

theorem Die.Forced.steers {x y : Die} {at_ : Ns} (h : x.Forced at_) (k : Steers x y) : y.Forced at_ := by
  rw [k]
  exact h

/-- The assertion of a quiet REG_ALERT_n puts its die into the forced state, with no voltage write under way; its tiles and
the other dies stay (R85). -/
theorem State.assertAlert_begins (cause : Nat) (quiet : (s.die d).op.alert = false) :
    ((s.assertAlert d cause).die d).Forced s.tray.now ∧ ((s.assertAlert d cause).die d).rails.avsWrite = none ∧
      ((s.assertAlert d cause).die d).til = (s.die d).til ∧
      ((s.die d).computes = true → ((s.assertAlert d cause).die d).mer.emergency = true) ∧
      ∀ e, e ≠ d → (s.assertAlert d cause).die e = s.die e := by
  obtain ⟨others, die⟩ := s.alertAnnounced_die d cause
  have forced : ((s.alertAnnounced d cause).die d).Forced s.tray.now := by
    rw [die]
    exact ⟨rfl, rfl, rfl, rfl, rfl, rfl⟩
  have writes : ((s.alertAnnounced d cause).die d).rails.avsWrite = none := by rw [die]; rfl
  have tiles : ((s.alertAnnounced d cause).die d).til = (s.die d).til := by rw [die]; rfl
  obtain ⟨emergency, rails⟩ := (s.alertAnnounced d cause).urgent_emergency d 15
  have urged := (s.alertAnnounced d cause).urgent_urged d 15
  rw [State.assertAlert_eq, quiet, if_neg Bool.false_ne_true]
  split
  · refine ⟨forced.steers urged.die, ?_, urged.die.til.trans tiles, fun _ => emergency,
      fun e other => (urged.others e other).trans (others e other)⟩
    rw [rails forced.2.1]
    exact writes
  · next still => exact ⟨forced, writes, tiles, fun computes => absurd computes still, others⟩

/-! ### The end of the forced state, and the release (R86, R88) -/

theorem State.releaseEmergency_steered : Steered d s (s.releaseEmergency d) := by
  unfold State.releaseEmergency
  extract_lets x g s1
  have first : Steered d s s1 := s.modDie_steered d _ fun _ => rfl
  split
  · exact .refl ..
  · split
    · exact first
    · exact (first.trans (State.modClk_steered ..)).trans (State.moveVcore_steered ..)

end

theorem State.advanceTo_noted (s : State) (d : DieId) (t : Ns) : DieNoted d s (s.advanceTo t) := ⟨rfl, fun _ _ => rfl⟩

theorem State.advanceTo_now (s : State) (t : Ns) : t ≤ (s.advanceTo t).tray.now := Nat.le_max_right ..

end Sys2Proof.Machine

namespace Sys2Proof
open Sys2Proof.Machine

theorem Machine.Steered.op {d : DieId} {s t : State} (h : Steered d s t) : (t.die d).op =
    { (s.die d).op with supplyLag := (t.die d).op.supplyLag, trimWas := (t.die d).op.trimWas } := congrArg Die.op h.die

section
variable {s : State} {d : DieId}

/-- The state in which the forced state of a die is over, before the die is tuned (R86). -/
def Machine.State.forcedOver (s : State) (d : DieId) : State :=
  (s.advanceTo ((s.die d).op.alertAt + 1000000)).modOp d fun o => { o with
    hold := false, div4 := false, issueCut := o.alert
    f15Pending := (s.die d).computes && (s.die d).rails.avsGov }

/-- What holds of a die whose forced state is over (R86). -/
def ForcedEnds (d : DieId) (s t : State) : Prop :=
  (t.die d).op.hold = false ∧ (t.die d).op.div4 = false ∧ (t.die d).op.issueCut = (s.die d).op.alert ∧
    (s.die d).op.alertAt + 1000000 ≤ t.tray.now ∧ DieNoted d s t

theorem forcedOver_ends : ForcedEnds d s (s.forcedOver d) := by
  have reached : DieNoted d s (s.forcedOver d) := by
    unfold State.forcedOver State.modOp
    exact (s.advanceTo_noted d _).trans (State.modDie_only ..).noted
  refine ⟨?_, ?_, ?_, State.advanceTo_now .., reached⟩ <;> rw [State.forcedOver, State.modOp, State.modDie_die]
  rfl

theorem ForcedEnds.steered {t u : State} (h : ForcedEnds d s t) (k : Steered d t u) : ForcedEnds d s u := by
  obtain ⟨hold, div4, cut, now, noted⟩ := h
  refine ⟨?_, ?_, ?_, k.now ▸ now, noted.trans k.toDieNoted⟩ <;> rw [k.op]
  · exact hold
  · exact div4
  · exact cut

theorem ForcedEnds.moved {t : State} (h : ForcedEnds d s t) : ForcedEnds d s (t.moveVcore d (t.targetAt d 15)) :=
  h.steered (State.moveVcore_steered ..)

theorem ForcedEnds.modOp {t : State} (h : ForcedEnds d s t) :
    ForcedEnds d s (if (t.die d).rails.avsWrite.isNone then t.modOp d fun o => { o with f15Pending := false } else t) := by
  split
  · obtain ⟨hold, div4, cut, now, noted⟩ := h
    refine ⟨?_, ?_, ?_, now, noted.trans (State.modDie_only ..).noted⟩ <;> rw [State.modOp, State.modDie_die]
    · exact hold
    · exact div4
    · exact cut
  · exact h

theorem does_forcedStateEnd (hold : (s.die d).op.hold = true) : Does (.forcedStateEnd d) s fun t => ForcedEnds d s t := by
  change ∃ t, execForcedStateEnd d s = .next t ∧ _
  unfold execForcedStateEnd
  simp only [hold, Bool.not_true, Bool.false_eq_true, if_false]
  refine ⟨_, rfl, ?_⟩
  have ends : ForcedEnds d s (if (s.die d).clk.curStep = 15 ∧ (!(s.die d).clk.onBridge) = true then s.forcedOver d
      else (s.forcedOver d).applyStep d 15) := by
    split
    · exact forcedOver_ends
    · exact forcedOver_ends.steered (State.applyStep_steered ..)
  exact ends.moved.modOp

theorem does_alertRelease {at_ : Ns} (deasserted : (s.die d).op.deassertAt = some at_)
    (awaits : (s.die d).op.awaitRelease = true) (acked : (s.die d).op.acked = true) (quiet : (s.die d).op.alert = false)
    (ended : (s.die d).op.hold = false) : Does (.alertRelease d) s fun t =>
      (t.die d).op.awaitRelease = false ∧ (t.die d).op.alertCause = 0 ∧ (t.die d).op.deassertAt = none ∧
      at_ + 100000 ≤ t.tray.now ∧ DieNoted d s t := by
  change ∃ t, execAlertRelease d s = .next t ∧ _
  unfold execAlertRelease
  simp only [deasserted, awaits, acked, quiet, ended, Bool.not_true, Bool.false_eq_true, or_self, if_false]
  refine ⟨_, rfl, ?_⟩
  generalize released : State.modDie (s.advanceTo (at_ + 100000)) d _ = u
  have steered := u.releaseEmergency_steered d
  have op : (u.die d).op.awaitRelease = false ∧ (u.die d).op.alertCause = 0 ∧ (u.die d).op.deassertAt = none := by
    rw [← released, State.modDie_die]
    exact ⟨rfl, rfl, rfl⟩
  have reached : DieNoted d s u := released ▸ (s.advanceTo_noted d _).trans (State.modDie_only ..).noted
  have now : at_ + 100000 ≤ u.tray.now := released ▸ State.advanceTo_now ..
  refine ⟨?_, ?_, ?_, steered.now ▸ now, reached.trans steered.toDieNoted⟩ <;> rw [steered.op]
  · exact op.1
  · exact op.2.1
  · exact op.2.2

/-! ### Ageing (R81 to R84) -/

theorem OpPoint.aged_spec {o : OpPoint} (need ceil : Nat) (within : o.trim ≤ 160) :
    (o.trim < need → (o.aged need ceil).trim = min (min (o.trim + 20) need) 160 ∧ (o.aged need ceil).trimFall = none) ∧
    (need ≤ o.trim → (o.aged need ceil).trim = o.trim) ∧
    (o.aged need ceil).saturated = decide (160 < need) ∧ (o.aged need ceil).trim ≤ 160 ∧
    (160 < need → (o.aged need ceil).agedCeiling = ceil) := by
  unfold OpPoint.aged
  refine ⟨fun rises => ?_, fun falls => ?_, rfl, ?_, fun beyond => if_pos beyond⟩
  · simp only [if_pos rises]
    exact ⟨by omega, trivial⟩
  · exact if_neg (Nat.not_lt.2 falls)
  · dsimp only
    split
    · exact Nat.min_le_left ..
    · exact within

/-- A fall of 10 mV or more is one of at most 5 mV that waits for the boundary (R82). -/
theorem OpPoint.aged_trimFall {o : OpPoint} {need : Nat} (ceil : Nat) (spare : need + 40 ≤ o.trim) :
    (o.aged need ceil).trimFall = some (max (o.trim - 20) need) := by
  unfold OpPoint.aged
  dsimp only
  rw [if_neg (by omega), if_pos spare]

/-- Of an operating point nothing changed but what its voltage moves note. -/
def VoltNoted (o p : OpPoint) : Prop := p = { o with supplyLag := p.supplyLag, trimWas := p.trimWas }

theorem VoltNoted.trans {o p q : OpPoint} (h : VoltNoted o p) (k : VoltNoted p q) : VoltNoted o q := by
  unfold VoltNoted at *
  rw [k, h]

theorem Machine.Steers.volt {x y : Die} (h : Steers x y) : VoltNoted x.op y.op := congrArg Die.op h

/-- The check of the ceiling step leaves the operating point but for what a voltage move notes of it (R636). -/
theorem ceilingCheck_volt (u : State) : VoltNoted (u.die d).op ((u.ceilingCheck d).die d).op := by
  unfold State.ceilingCheck
  extract_lets x c above u1 u2
  have same : (u2.die d).op = (u.die d).op := by
    rw [State.modDie_die]
    change (u1.die d).op = _
    unfold u1
    split
    · rw [State.logDie_die]
    · rfl
  have volt : VoltNoted (u.die d).op (u2.die d).op := by
    rw [same]
    rfl
  split
  · exact volt.trans ((State.urgent_urged ..).trans (State.retarget_urged ..)).die.volt
  · exact volt

theorem noStepCheck_op (u : State) (was : Bool) : ((u.noStepCheck d was).die d).op = (u.die d).op := by
  unfold State.noStepCheck
  dsimp only
  split
  · rw [State.logDie_die]
  · rfl

/-- What a measurement that is due leaves of the operating point of its die. -/
theorem does_ageingMeasurement {need ceil : Nat} (bench : (s.die d).nrg.bench ≠ []) (computes : (s.die d).computes = true)
    (due : 604800000000000 ≤ (s.die d).op.ageRuntime) (within : (s.die d).op.trim ≤ 160) (falls : need < (s.die d).op.trim) :
    Does (.ageingMeasurement d need ceil) s fun t => VoltNoted ((s.die d).op.aged need ceil) (t.die d).op := by
  have runs : ¬((s.die d).nrg.bench.isEmpty = true ∨ (!(s.die d).computes) = true ∨ (s.die d).op.ageRuntime < ageDue) := by
    simp only [List.isEmpty_iff, bench, computes, Bool.not_true, Bool.false_eq_true, false_or]
    exact Nat.not_lt.2 due
  change ∃ t, execAgeingMeasurement d need ceil s = .next t ∧ _
  unfold execAgeingMeasurement
  dsimp only
  rw [if_neg runs, if_neg (show ¬160 < need by omega), if_neg (Nat.not_lt.2 (Nat.le_of_lt falls))]
  refine ⟨_, rfl, ?_⟩
  have measured : (((s.modDie d Die.spoil).modOp d fun o => o.aged need ceil).die d).op = (s.die d).op.aged need ceil := by
    rw [State.modOp, State.modDie_die, State.modDie_die]
    rfl
  split
  · rw [measured]
    rfl
  · rw [← measured]
    exact ceilingCheck_volt _

/-- What an overdue measurement leaves of the operating point of its die (R83). -/
theorem does_ageingOverdue (powered : (s.die d).rails.vcore = true) : Does (.ageingOverdue d) s fun t =>
    ∃ due o, VoltNoted o (t.die d).op ∧ o.overdue = true ∧ o.trim = min 160 ((s.die d).op.trim + 20) ∧
      o.ageRuntime = max (s.die d).op.ageRuntime due ∧
      ((s.die d).op.overdue = false → due = 604800000000000 + 86400000000000) := by
  change ∃ t, execAgeingOverdue d s = .next t ∧ _
  unfold execAgeingOverdue
  simp only [powered, Bool.not_true, Bool.false_eq_true, if_false]
  refine ⟨_, rfl, if (s.die d).op.overdue then (s.die d).op.overdueFrom + day else ageDue + day, _,
    (State.retarget_urged ..).die.volt.trans (ceilingCheck_volt _), ?_⟩
  rw [noStepCheck_op, State.modOp, State.modDie_die]
  exact ⟨rfl, rfl, rfl, fun first => by rw [first]; rfl⟩

end

/-- Settles O12: the alert by the state its forced state leaves, the trim by what a measurement makes of it; neither an
urgent proposal nor a voltage move touches the rest of the operating point. -/
theorem alertsAndTrim : Obligations.AlertsAndTrim := by
  unfold Obligations.AlertsAndTrim
  refine ⟨?_, ?_, ?_, ?_, ?_, ?_, ?_, ?_, ?_, ?_, ?_, ?_, ?_⟩
  · intro s d cause asserted
    refine ⟨_, rfl, ?_⟩
    rw [State.assertAlert_eq, if_pos asserted]
    exact ⟨State.modDie_die .., State.modDie_only ..⟩
  · intro s d cause quiet
    obtain ⟨⟨alert, hold, div4, cut, at_, awaits⟩, writes, tiles, emergency, others⟩ := s.assertAlert_begins d cause quiet
    exact ⟨_, rfl, alert, hold, div4, cut, at_, awaits, writes, tiles, emergency, others⟩
  · exact fun s d hold => does_forcedStateEnd hold
  · intro s d events
    exact ⟨s, if_pos (.inr (.inr events)), rfl⟩
  · intro s d alert runs holds
    refine ⟨_, if_neg (by simp [alert, runs, holds]), State.modDie_die .., State.advanceTo_now .., ?_⟩
    exact (s.advanceTo_noted d _).trans (State.modDie_only ..).noted
  · intro s d alert
    have noted : DieNoted d s (if bit (s.die d).op.liveCauses 8 then s.advanceTo ((s.die d).op.phaseFallAt + 1000000) else s) ∧
        (if bit (s.die d).op.liveCauses 8 then s.advanceTo ((s.die d).op.phaseFallAt + 1000000) else s).die d = s.die d := by
      split
      · exact ⟨s.advanceTo_noted .., rfl⟩
      · exact ⟨(DieOnly.refl d s).noted, rfl⟩
    refine ⟨_, if_neg (by simp [alert]), ?_, noted.1.trans (State.modDie_only ..).noted, ?_⟩
    · rw [State.modOp, State.modDie_die, noted.2]
      rfl
    · change (if bit (s.die d).op.liveCauses 8 then _ else s).tray.now = _
      split <;> rfl
  · intro s d awaits ended settled
    refine ⟨_, if_pos (by simp [awaits, ended, settled]), State.modDie_die .., State.modDie_only ..⟩
  · intro s d pending
    exact ⟨s, if_neg (by simp [pending]), rfl⟩
  · exact fun s d at_ deasserted awaits acked quiet ended => does_alertRelease deasserted awaits acked quiet ended
  · intro s d need ceil young
    exact ⟨s, if_pos (.inr (.inr young)), rfl⟩
  · intro s d need ceil bench computes due within falls
    refine (does_ageingMeasurement (ceil := ceil) bench computes due within falls).imp fun t volt => ?_
    obtain ⟨-, stays, -⟩ := OpPoint.aged_spec need ceil within
    rw [volt]
    refine ⟨stays (Nat.le_of_lt falls), rfl, rfl, fun spare => ?_⟩
    exact OpPoint.aged_trimFall ceil spare
  · exact fun o need ceil within => OpPoint.aged_spec need ceil within
  · intro s d powered
    refine (does_ageingOverdue powered).imp ?_
    rintro t ⟨due, o, volt, overdue, trim, age, first⟩
    rw [volt]
    exact ⟨overdue, trim, age ▸ Nat.le_max_left .., fun was => age ▸ first was ▸ Nat.le_max_right ..⟩

end Sys2Proof
end

section
/-! Rate control (5.7). -/

namespace Sys2Proof
open Sys2Proof.Machine

/-- A plan of one tile without records or segments. -/
def idlePlan : Plan :=
  { w := 1, h := 1, x0 := 0, y0 := 0, bankMask := 0, length := 0, floatNs := 0, scores := [[]], stores := [0], segs := []
    flows := [], barriers := [], hash := 0 }

/-- A run of `idlePlan` at rate 0. -/
def stillRun : Run :=
  { tenant := 0, handle := 0, queue := 0, slot := 0, cmdNo := 0, plan := idlePlan, next := [0], barCount := [], barSent := []
    rate := 0 }

/-- Refutes O15: a run at rate 0, which draws nothing, counts as one at rate 1 and is raised to 2, by two steps. -/
theorem not_levelingCycle : ¬ Obligations.LevelingCycle := by
  unfold Obligations.LevelingCycle
  rintro ⟨-, -, -, -, -, bounds, -⟩
  obtain ⟨-, step, -⟩ := bounds stillRun {} 0 0 0 0
  have raised : (stillRun.rateTick {} 0 0 0 0).rate = 2 := by decide +kernel
  rw [raised] at step
  exact absurd step (by decide)

end Sys2Proof
end

section
/-! The droop detectors, the stretcher and stretch debt (chapter 06). -/

namespace Sys2Proof
open Sys2Proof.Machine

theorem DieNoted.acts {d : DieId} {s t : State} (h : DieNoted d s t) : DieActs d s t := by
  refine ⟨?_, h.others⟩
  have a := h.rest
  rw [a]

end Sys2Proof

namespace Sys2Proof.Machine
open Sys2Proof

section
variable (s : State) (d : DieId)

/-! ### The float of a die (R144, R145) -/

/-- Of a droop part nothing changed but what the comparison of U with the die float notes. -/
def FloatNoted (w v : Droop) : Prop :=
  v = { w with
    overrun := v.overrun, overruns := v.overruns, overrunAt := v.overrunAt, lowerNext := v.lowerNext
    loweredThis := v.loweredThis }

theorem FloatNoted.trans {w v u : Droop} (h : FloatNoted w v) (k : FloatNoted v u) : FloatNoted w u := by
  unfold FloatNoted at *
  rw [k, h]

/-- What the comparison of U with the die float leaves: the tiles of its die, the droop part but for its notes, and every other
die. -/
structure FloatChecked (d : DieId) (s t : State) : Prop extends DieActs d s t where
  droop : FloatNoted (s.die d).droop (t.die d).droop
  til : (t.die d).til = (s.die d).til

theorem FloatChecked.refl : FloatChecked d s s := ⟨⟨rfl, fun _ _ => rfl⟩, rfl, rfl⟩

theorem FloatChecked.trans {d : DieId} {s t u : State} (h : FloatChecked d s t) (k : FloatChecked d t u) :
    FloatChecked d s u :=
  ⟨h.toDieActs.trans k.toDieActs, h.droop.trans k.droop, k.til.trans h.til⟩

theorem State.modDroop_checked (f : Droop → Droop) (notes : ∀ w, FloatNoted w (f w)) :
    FloatChecked d s (s.modDie d fun x => { x with droop := f x.droop }) :=
  ⟨(s.modDie_only d _).sends.acts, by rw [State.modDie_die]; exact notes _, by rw [State.modDie_die]⟩

theorem Urged.checked {d : DieId} {s t : State} (h : Urged d s t) : FloatChecked d s t :=
  ⟨h.acts, by rw [h.die]; rfl, h.die.til⟩

theorem State.logDie_checked (code : Nat) (detail : List Byte) : FloatChecked d s (s.logDie d code detail) :=
  ⟨(s.log_noted ..).acts, by rw [State.logDie_die]; rfl, by rw [State.logDie_die]⟩

theorem State.retarget_only : DieOnly d s (s.retarget d) := by
  unfold State.retarget State.moveVcore
  exact s.modDie_only ..

theorem State.propose_urged (code : Nat) (urgent revised : Bool) : Urged d s (s.propose d code urgent revised) := by
  unfold State.propose
  extract_lets id s1
  have heard : Urged d s s1 := s.modDie_urged d _ fun _ => rfl
  exact heard.trans (State.sendUp_urged ..)

theorem State.floatCheck_checked : FloatChecked d s (s.floatCheck d) := by
  unfold State.floatCheck
  extract_lets x fresh s1 s2 s3
  split
  · exact .refl ..
  · split
    · exact .refl ..
    · have passed : FloatChecked d s s1 := by
        refine State.modDroop_checked s d (fun w => { w with
          overrun := true, overruns := satAdd 32 w.overruns 1
          overrunAt := if fresh then some s.tray.now else w.overrunAt }) fun _ => rfl
      have noted : FloatChecked d s s2 := by
        unfold s2
        split
        · exact passed.trans (State.logDie_checked ..)
        · exact passed
      split
      · exact noted
      · split
        · exact noted.trans (State.modDroop_checked _ d (fun w => { w with lowerNext := true }) fun _ => rfl)
        · split
          · exact noted
          · extract_lets code
            have lowered : FloatChecked d s s3 :=
              noted.trans (State.modDroop_checked _ d (fun w => { w with loweredThis := true }) fun _ => rfl)
            split
            · exact lowered.trans (State.propose_urged ..).checked
            · exact lowered

end

/-! ### One tripped cycle (R138 to R141, R147, R148) -/

section
variable {s : State} {d : DieId} {c : List (Nat × Nat)}

/-- The unmasked detectors that trip in a cycle. -/
def State.liveDetectors (s : State) (d : DieId) (c : List (Nat × Nat)) : List Nat :=
  ((s.die d).til.tripped (s.tripLevel d) c).filter fun i => !(s.die d).droop.masked.getLsbD i

/-- What one cycle of the detectors leaves, and the quarters it stretches. -/
def State.tripCycle (s : State) (d : DieId) (c : List (Nat × Nat)) : Droop × Nat :=
  (s.die d).droop.cycle (s.liveDetectors d c) s.tray.now (settingQuarters (s.dset d 0x2200 3))
    (settingQuarters (s.dset d 0x2200 2))

/-- One cycle leaves its droop part with the debt of its stretch, but for what the comparison with the die float notes. -/
theorem does_droopTrip (on : (s.die d).detectorsOn = true) (computes : (s.die d).computes = true) :
    Does (.droopTrip d [c]) s fun t =>
      FloatNoted { (s.tripCycle d c).1 with debtEpoch := (s.tripCycle d c).1.debtEpoch +
        if (s.die d).stretchEmergency then 0 else (s.tripCycle d c).2 * (s.die d).quarterPeriod } (t.die d).droop ∧
      (t.die d).til.sram = (s.die d).til.sram ∧ DieActs d s t := by
  change ∃ t, execDroopTrip d [c] s = .next t ∧ _
  unfold execDroopTrip
  simp only [on, computes, Bool.not_true, Bool.false_eq_true, or_self, if_false, List.foldl_cons, List.foldl_nil,
    Nat.zero_div, Nat.add_zero, Nat.zero_add]
  refine ⟨_, rfl, ?_⟩
  generalize stretched : State.modDie (s.advanceTo _) d _ = u
  have checked := u.floatCheck_checked d
  have droop : (u.die d).droop = { (s.tripCycle d c).1 with debtEpoch := (s.tripCycle d c).1.debtEpoch +
      if (s.die d).stretchEmergency then 0 else (s.tripCycle d c).2 * (s.die d).quarterPeriod } := by
    rw [← stretched, State.modDie_die]
    rfl
  have sram : (u.die d).til.sram = (s.die d).til.sram := by
    rw [← stretched, State.modDie_die]
    rfl
  have acts : DieActs d s u := stretched ▸ (s.advanceTo_acts d _).trans (State.modDie_only ..).sends.acts
  exact ⟨droop ▸ checked.droop, (congrArg Tiles.sram checked.til).trans sram, acts.trans checked.toDieActs⟩

end

/-! ### Lines that fail (R136, R137) -/

/-- What the first failure of a line leaves. -/
theorem State.lineFails_first {s : State} {d : DieId} {i : Nat} (works : (s.die d).droop.lineFailed.getLsbD i = false) :
    s.lineFails d i = (s.modDie d fun x => { x with droop := { x.droop with
      lineFailed := x.droop.lineFailed ||| BitVec.twoPow 64 i } }).logDie d 0x2201 [BitVec.ofNat 8 i] := by
  unfold State.lineFails
  simp only [works, Bool.not_false, if_true]

theorem State.lineFails_second {s : State} {d : DieId} {i : Nat} (failed : (s.die d).droop.lineFailed.getLsbD i = true)
    (serves : (s.die d).droop.masked.getLsbD i = false) :
    s.lineFails d i = ((s.modDie d fun x => { x with droop := { x.droop with
      lineFailed2 := x.droop.lineFailed2 ||| BitVec.twoPow 64 i
      masked := x.droop.masked ||| BitVec.twoPow 64 i } }).logDie d 0x2202 [BitVec.ofNat 8 i]).retarget d := by
  unfold State.lineFails
  simp only [failed, serves, Bool.not_true, Bool.false_eq_true, if_false, Bool.not_false, if_true]

/-- The entry of a die that changed is handed to the moraine. -/
theorem State.modDie_logDie_reported (s : State) (d : DieId) (f : Die → Die) (code : Nat) (detail : List Byte) :
    Reported ((s.modDie d f).logDie d code detail) s d.val code detail :=
  fun idle => (s.modDie d f).log_reported d.val code detail idle

/-- What a first failure leaves of its die. -/
theorem State.lineFails_first_die {s : State} {d : DieId} {i : Nat} (works : (s.die d).droop.lineFailed.getLsbD i = false) :
    (s.lineFails d i).die d = { s.die d with droop := { (s.die d).droop with
      lineFailed := (s.die d).droop.lineFailed ||| BitVec.twoPow 64 i } } := by
  rw [State.lineFails_first works, State.logDie_die, State.modDie_die]

/-- Lines that worked and fail one after the other are marked, and mask nothing. -/
theorem State.lineFails_fold {d : DieId} (l : List Nat) (s : State)
    (works : ∀ i ∈ l, (s.die d).droop.lineFailed.getLsbD i = false) (apart : l.Nodup) :
    let t := l.foldl (fun s i => s.lineFails d i) s
    DieNoted d s t ∧ (t.die d).til = (s.die d).til ∧ (t.die d).droop.masked = (s.die d).droop.masked ∧
    ∀ i, (t.die d).droop.lineFailed.getLsbD i =
      ((s.die d).droop.lineFailed.getLsbD i || (decide (i < 64) && decide (i ∈ l))) := by
  induction l generalizing s with
  | nil => exact ⟨(DieOnly.refl d s).noted, rfl, rfl, fun i => by simp⟩
  | cons i l ih =>
    obtain ⟨fresh, apart⟩ := List.nodup_cons.1 apart
    have die := State.lineFails_first_die (works i List.mem_cons_self)
    have bits (j : Nat) : ((s.lineFails d i).die d).droop.lineFailed.getLsbD j =
        ((s.die d).droop.lineFailed.getLsbD j || (decide (j < 64) && decide (j = i))) := by
      rw [die, BitVec.getLsbD_or, BitVec.getLsbD_twoPow]
      by_cases same : j = i
      · simp [same]
      · simp [same, Ne.symm same]
    have noted : DieNoted d s (s.lineFails d i) := by
      rw [State.lineFails_first (works i List.mem_cons_self)]
      exact (State.modDie_only ..).noted.trans (State.log_noted ..)
    obtain ⟨rest, til, masked, marks⟩ := ih (s.lineFails d i) (fun j hj => by
      have other : j ≠ i := fun same => fresh (same ▸ hj)
      simp [bits, works j (List.mem_cons_of_mem _ hj), other]) apart
    refine ⟨noted.trans rest, til.trans (by rw [die]), masked.trans (by rw [die]), fun j => ?_⟩
    rw [List.foldl_cons, marks, bits]
    by_cases same : j = i <;> simp [same, fresh]

end Sys2Proof.Machine

namespace Sys2Proof
open Sys2Proof.Machine

section
variable {s : State} {d : DieId} {c : List (Nat × Nat)}

/-- A cycle in which no unmasked detector trips ends the run. -/
theorem tripCycle_quiet (quiet : s.liveDetectors d c = []) : s.tripCycle d c = ({ (s.die d).droop with runLen := 0 }, 0) := by
  unfold State.tripCycle Droop.cycle
  rw [quiet]
  rfl

theorem liveDetectors_nil (masked : ∀ i ∈ (s.die d).til.tripped (s.tripLevel d) c, (s.die d).droop.masked.getLsbD i = true) :
    s.liveDetectors d c = [] :=
  List.filter_eq_nil_iff.2 fun i hi => by simp [masked i hi]

/-- A tripped cycle counts, prolongs the run and stretches its edges. -/
theorem tripCycle_live (trips : s.liveDetectors d c ≠ []) : s.tripCycle d c =
    ({ (s.die d).droop with
        trips := (s.die d).droop.trips.mapIdx fun i k => if (s.liveDetectors d c).contains i then k + 1 else k
        trippedTotal := (s.die d).droop.trippedTotal + 1, runLen := (s.die d).droop.runLen + 1
        longest := max (s.die d).droop.longest ((s.die d).droop.runLen + 1)
        attributed := (s.die d).droop.attributed ++
          (((s.die d).droop.armed.filter fun a => a.openAt s.tray.now).filterMap Armed.seg).filter fun k =>
            !(s.die d).droop.attributed.contains k },
      if (s.die d).droop.monitor then 0 else
        stretchOf (if ((s.die d).droop.armed.filter fun a => a.openAt s.tray.now).isEmpty then
          settingQuarters (s.dset d 0x2200 2) else settingQuarters (s.dset d 0x2200 3)) ((s.die d).droop.runLen + 1)) := by
  unfold State.tripCycle Droop.cycle
  exact if_neg (by simpa using trips)

end

/-- A test of a line that no detector fails goes on to the other line. -/
theorem does_detectorTest_passed {s : State} {d : DieId} (on : (s.die d).detectorsOn = true)
    (cold : (s.die d).svc.warm = false) : Does (.detectorTest d 0) s fun t =>
      t = s.modDie d fun x => { x with droop := { x.droop with testLine := 1 - x.droop.testLine } } := by
  have none : ((List.range 64).filter fun i => bit 0 i && !(s.die d).droop.lineFailed.getLsbD i) = [] :=
    List.filter_eq_nil_iff.2 fun i _ => by simp [bit]
  change ∃ t, execDetectorTest d 0 s = .next t ∧ _
  unfold execDetectorTest
  simp only [on, cold, none, Bool.not_true, Bool.false_eq_true, if_false, List.foldl_nil]
  exact ⟨_, rfl, rfl⟩

/-- What the tests of a warm reset leave of the lines of a die (R137). -/
theorem does_detectorTest_warm {s : State} {d : DieId} (failed : Nat) (on : (s.die d).detectorsOn = true)
    (warm : (s.die d).svc.warm = true) : Does (.detectorTest d failed) s fun t =>
      (t.die d).droop.masked = (s.die d).droop.masked &&& BitVec.ofNat 64 failed ∧
      (t.die d).droop.lineFailed = BitVec.ofNat 64 failed ∧ (t.die d).til = (s.die d).til ∧ DieNoted d s t := by
  have unmasked : ((s.unmaskLines d (~~~BitVec.ofNat 64 failed)).die d).droop.masked =
        (s.die d).droop.masked &&& BitVec.ofNat 64 failed ∧
      ((s.unmaskLines d (~~~BitVec.ofNat 64 failed)).die d).droop.lineFailed =
        (s.die d).droop.lineFailed &&& BitVec.ofNat 64 failed ∧
      ((s.unmaskLines d (~~~BitVec.ofNat 64 failed)).die d).til = (s.die d).til := by
    unfold State.unmaskLines
    rw [(State.retarget_urged ..).die, State.modDie_die, BitVec.not_not]
    exact ⟨rfl, rfl, rfl⟩
  change ∃ t, execDetectorTest d failed s = .next t ∧ _
  unfold execDetectorTest
  simp only [on, warm, Bool.not_true, Bool.false_eq_true, if_false, if_true]
  obtain ⟨noted, til, masked, marks⟩ := State.lineFails_fold (d := d)
    ((List.range 64).filter fun i => bit failed i && !(s.die d).droop.lineFailed.getLsbD i)
    (s.unmaskLines d (~~~BitVec.ofNat 64 failed)) (fun i hi => by
      obtain ⟨-, fails⟩ := List.mem_filter.1 hi
      simp only [Bool.and_eq_true, Bool.not_eq_true'] at fails
      rw [unmasked.2.1, BitVec.getLsbD_and, fails.2, Bool.false_and]) (List.nodup_range.filter _)
  refine ⟨_, rfl, masked.trans unmasked.1, ?_, til.trans unmasked.2.2, ?_⟩
  · refine BitVec.eq_of_getLsbD_eq fun i hi => ?_
    rw [marks, unmasked.2.1, BitVec.getLsbD_and, BitVec.getLsbD_ofNat]
    simp only [List.mem_filter, List.mem_range, bit, hi, true_and, decide_true, Bool.true_and, Bool.decide_eq_true]
    cases failed.testBit i <;> simp
  · refine DieNoted.trans ?_ noted
    unfold State.unmaskLines
    exact (State.modDie_only ..).noted.trans (State.retarget_only ..).noted

/-- Settles O16: the detectors by what one cycle makes of the droop part, the lines by their first and second failure. -/
theorem droopDetectors : Obligations.DroopDetectors := by
  unfold Obligations.DroopDetectors
  refine ⟨?_, ?_, ?_, ?_, ?_, ?_, ?_, ?_, ?_, ?_⟩
  · intro s d c live on computes lives some none
    refine (does_droopTrip (c := c) on computes).imp fun t ⟨droop, sram, acts⟩ => ?_
    change live = s.liveDetectors d c at lives
    subst lives
    rw [tripCycle_live some, none] at droop
    rw [droop]
    refine ⟨rfl, rfl, rfl, fun quiet => ?_, fun acting calm => ?_, fun i n here => ?_, sram, acts⟩
    · rcases quiet with monitor | emergency
      · simp [monitor]
      · simp [emergency]
    · simp [acting, calm]
    · simp [List.getElem?_mapIdx, here]
  · intro s d c on computes masked
    refine (does_droopTrip (c := c) on computes).imp fun t ⟨droop, sram, acts⟩ => ?_
    rw [tripCycle_quiet (liveDetectors_nil masked)] at droop
    rw [droop]
    exact ⟨rfl, rfl, by simp, rfl, rfl, sram, acts⟩
  · intro s d c w k i on computes trips serves armed opened seg acts calm
    have live : s.liveDetectors d c ≠ [] := List.ne_nil_of_mem (List.mem_filter.2 ⟨trips, by simp [serves]⟩)
    refine (does_droopTrip (c := c) on computes).imp fun t ⟨droop, sram, acted⟩ => ?_
    rw [tripCycle_live live, armed] at droop
    rw [droop]
    refine ⟨?_, by simp [opened, acts, calm]⟩
    by_cases known : k ∈ (s.die d).droop.attributed <;> simp [opened, seg, known]
  · intro s d taps off
    exact ⟨s, if_pos (by simpa using off), rfl⟩
  · intro s d w c armed closes
    change ∃ t, execArmedWindowClose d s = .next t ∧ _
    unfold execArmedWindowClose
    simp only [armed, closes, List.filterMap_cons, List.filterMap_nil, List.foldl_nil]
    refine ⟨_, rfl, ?_, s.advanceTo_now c, (s.advanceTo_noted d c).trans (State.modDie_only ..).noted⟩
    rw [State.modDie_die, State.advanceTo_die, armed]
    simp [closes, Nat.not_lt.2 (s.advanceTo_now c)]
  · intro s d det on near works
    have runs : Machine.exec (.detectorLineStuck d det) s = .next (s.lineFails d det.val) :=
      if_neg (by simp [on, Nat.not_lt.2 near])
    refine ⟨_, runs, State.lineFails_first_die works, ?_, ?_⟩ <;> rw [State.lineFails_first works]
    · exact State.modDie_logDie_reported s d _ _ _
    · exact (State.modDie_only ..).noted.trans (State.log_noted ..)
  · intro s d det apart
    exact ⟨s, if_pos (.inr apart), rfl⟩
  · intro s d det on near failed serves
    have runs : Machine.exec (.detectorLineStuck d det) s = .next (s.lineFails d det.val) :=
      if_neg (by simp [on, Nat.not_lt.2 near])
    refine ⟨_, runs, ?_⟩
    rw [State.lineFails_second failed serves]
    generalize second : State.logDie _ d 0x2202 _ = u
    have steers := (u.retarget_urged d).die
    have droop : (u.die d).droop = { (s.die d).droop with
        lineFailed2 := (s.die d).droop.lineFailed2 ||| BitVec.twoPow 64 det.val
        masked := (s.die d).droop.masked ||| BitVec.twoPow 64 det.val } := by
      rw [← second, State.logDie_die, State.modDie_die]
    have noted : DieNoted d s u := second ▸ (State.modDie_only ..).noted.trans (State.log_noted ..)
    have reported : Reported u s d.val 0x2202 [BitVec.ofNat 8 det.val] := second ▸ State.modDie_logDie_reported s d _ _ _
    refine ⟨?_, ?_, reported, noted.trans (State.retarget_only ..).noted⟩ <;> rw [steers]
    · rw [droop]
    · rw [droop]
  · intro s d on cold
    refine (does_detectorTest_passed on cold).imp ?_
    rintro t rfl
    exact ⟨State.modDie_die .., State.modDie_only ..⟩
  · exact fun s d failed on warm => does_detectorTest_warm failed on warm

end Sys2Proof
end

section
/-! What ends the work of a die: its plans, its flows and the commands of its contexts, and what that leaves of the rest
(R202, R268, R338, R502). -/

namespace Sys2Proof.Machine
open Sys2Proof

/-- Of a die nothing changed but its tiles, its flows, its banks, its ledger, and what a plan that ends owes of power, droop and
lead. -/
def Ends (x y : Die) : Prop :=
  y = { x with
    til := y.til, fab := y.fab, sct := y.sct, nrg := y.nrg
    pow := { x.pow with slots := y.pow.slots }
    droop := { x.droop with armed := y.droop.armed, attributed := y.droop.attributed }
    op := { x.op with lead := y.op.lead, leadOwed := y.op.leadOwed, trimWas := y.op.trimWas }
    rails := { x.rails with
      avsGoal := y.rails.avsGoal, target := y.rails.target, vReady := y.rails.vReady, avsWrite := y.rails.avsWrite
      writeAt := y.rails.writeAt } }

theorem Ends.trans {x y z : Die} (h : Ends x y) (k : Ends y z) : Ends x z := by
  unfold Ends at *
  rw [k, h]

/-- Work of die d ended: nothing of another die or of the tray changed. -/
structure EndsWork (d : DieId) (s t : State) : Prop where
  rest : t = { s with
    dies := t.dies, ctxs := t.ctxs, tenants := t.tenants, pfs := t.pfs, vfs := t.vfs, outputs := t.outputs, fresh := t.fresh }
  others : ∀ e, e ≠ d → t.die e = s.die e
  die : Ends (s.die d) (t.die d)

section
variable {d : DieId} {s t u : State}

theorem EndsWork.refl (d : DieId) (s : State) : EndsWork d s s := ⟨rfl, fun _ _ => rfl, rfl⟩

theorem EndsWork.trans (h : EndsWork d s t) (k : EndsWork d t u) : EndsWork d s u := by
  refine ⟨?_, fun e he => (k.others e he).trans (h.others e he), h.die.trans k.die⟩
  have a := h.rest
  have b := k.rest
  rw [b, a]

theorem EndsWork.tray (h : EndsWork d s t) : t.tray = s.tray := by rw [h.rest]

theorem EndsWork.foldl {α : Type} {f : State → α → State} (hf : ∀ u x, EndsWork d u (f u x)) (l : List α) (s : State) :
    EndsWork d s (l.foldl f s) := by
  induction l generalizing s with
  | nil => exact .refl d s
  | cons x xs ih => exact (hf s x).trans (ih _)

theorem PortsOnly.endsWork (h : PortsOnly d s t) : EndsWork d s t :=
  ⟨by rw [h.rest], h.others, by rw [h.die]; rfl⟩

theorem TellsHost.endsWork (h : TellsHost s t) (d : DieId) : EndsWork d s t := by
  have same (e : DieId) : t.die e = s.die e := by rw [State.die, h.dies]; rfl
  exact ⟨by rw [h.rest], fun e _ => same e, by rw [same]; rfl⟩

end

section
variable (s : State) (d : DieId)

theorem State.modDie_endsWork (f : Die → Die) (ends : ∀ x, Ends x (f x)) : EndsWork d s (s.modDie d f) :=
  ⟨rfl, (s.modDie_only d f).others, by rw [State.modDie_die]; exact ends _⟩

theorem State.modCtx_endsWork (t h : Nat) (f : Ctx → Ctx) : EndsWork d s (s.modCtx t h f) := ⟨rfl, fun _ _ => rfl, rfl⟩

theorem State.modQueue_endsWork (t h q : Nat) (f : Queue → Queue) : EndsWork d s (s.modQueue t h q f) :=
  s.modCtx_endsWork ..

theorem State.modTenant_endsWork (t : Nat) (f : Tenant → Tenant) : EndsWork d s (s.modTenant t f) :=
  ⟨rfl, fun _ _ => rfl, rfl⟩

/-! ### A plan stops (R268, R288) -/

theorem State.countAct_endsWork (a : Activity) : EndsWork d s (s.countAct d a) := s.modDie_endsWork d _ fun _ => rfl

theorem State.countRun_endsWork (r : Run) : EndsWork d s (s.countRun d r) := .foldl (fun u a => u.countAct_endsWork d a) _ s

theorem State.sramWrite_endsWork (a : Nat) (bs : List Byte) : EndsWork d s (s.sramWrite d a bs) := by
  unfold State.sramWrite
  exact s.modDie_endsWork d _ fun _ => rfl

theorem State.sramFree_endsWork (a n : Nat) : EndsWork d s (s.sramFree d a n) := by
  refine EndsWork.trans (t := s.skipFree n) ⟨rfl, fun _ _ => rfl, rfl⟩ ?_
  exact State.sramWrite_endsWork ..

theorem State.clearRegion_endsWork (p : Plan) : EndsWork d s (s.clearRegion d p) := s.modDie_endsWork d _ fun _ => rfl

theorem State.releaseBanks_endsWork (mask : Nat) : EndsWork d s (s.releaseBanks d mask) := s.modDie_endsWork d _ fun _ => rfl

theorem State.pump_ports (t id : Nat) : PortsOnly d s (s.pump d t id) := by
  have go (n : Nat) (u : State) : PortsOnly d u (State.pump.go d t id n u) := by
    induction n generalizing u with
    | zero => exact .refl ..
    | succ n ih => exact (u.pumpOnce_ports ..).trans (ih _)
  exact go 256 s

theorem State.modRx_ports (f : List RxFlow → List RxFlow) : PortsOnly d s (s.modRx d f) :=
  s.modFab_ports d fun y => { y with rx := f y.rx }

theorem State.closeFlows_ports (t h q : Nat) : PortsOnly d s (s.closeFlows d t h q) :=
  ((s.modTx_ports ..).trans (State.modRx_ports ..)).trans (.foldl (fun _ _ => State.pump_ports ..) _ _)

theorem State.moveVcore_endsWork (goal : Nat) : EndsWork d s (s.moveVcore d goal) := by
  refine s.modDie_endsWork d _ fun x => ?_
  split
  · exact rfl
  · split
    · exact rfl
    · split <;> exact rfl

theorem State.leadFall_endsWork : EndsWork d s (s.leadFall d) := by
  unfold State.leadFall
  dsimp only
  split
  · exact .refl ..
  · refine EndsWork.trans (State.modDie_endsWork _ _ _ ?_) (State.moveVcore_endsWork ..)
    exact fun _ => rfl

theorem State.stopRun_endsWork (t h q : Nat) : EndsWork d s (s.stopRun d t h q) := by
  unfold State.stopRun
  split
  · exact .refl ..
  · next r _ =>
    extract_lets s0 s1 s2 s3
    have counted : EndsWork d s s0 := s.countRun_endsWork d r
    have freed : EndsWork d s s1 := counted.trans (.foldl (fun u p => u.sramFree_endsWork ..) _ _)
    have cleared : EndsWork d s s2 := by
      refine freed.trans (EndsWork.trans (State.modDie_endsWork _ _ _ ?_) (State.clearRegion_endsWork ..))
      exact fun _ => rfl
    have closed : EndsWork d s s3 :=
      (cleared.trans (State.releaseBanks_endsWork ..)).trans (State.closeFlows_ports ..).endsWork
    exact (closed.trans (State.modCtx_endsWork ..)).trans (State.leadFall_endsWork ..)

/-! ### A command completes (R476, R499) -/

theorem State.errEvent_endsWork (t e : Nat) : EndsWork d s (s.errEvent t e) := by
  unfold State.errEvent
  split
  · exact (s.modTenant_endsWork d t _).trans ((State.setEvent_tells ..).endsWork d)
  · exact .refl ..

theorem State.finishHead_endsWork (t h q status detail result : Nat) (deg : Bool) :
    EndsWork d s (s.finishHead t h q status detail result deg) := by
  unfold State.finishHead
  split
  · exact .refl ..
  · split
    · exact .refl ..
    · extract_lets phase rec_ s1 s2 s3
      have written : EndsWork d s s1 := by
        unfold s1
        split
        · exact (State.hostWrite_tells ..).endsWork d
        · exact .refl ..
      have popped : EndsWork d s s2 := written.trans (State.modQueue_endsWork ..)
      have marked : EndsWork d s s3 := by
        unfold s3
        split
        · exact popped.trans (State.errEvent_endsWork ..)
        · exact popped
      split
      · split
        · exact marked.trans ((State.msix_tells ..).endsWork d)
        · exact marked
      · exact marked

theorem State.settleOnce_endsWork (t h q : Nat) : EndsWork d s (s.settleOnce t h q) := by
  unfold State.settleOnce
  split
  · exact .refl ..
  · split
    · exact .refl ..
    · split
      · exact State.finishHead_endsWork ..
      · split
        · exact State.finishHead_endsWork ..
        · split
          · exact State.finishHead_endsWork ..
          · exact .refl ..

theorem State.complete_endsWork (t h q status detail result : Nat) (deg : Bool) :
    EndsWork d s (s.complete t h q status detail result deg) := by
  have go (n : Nat) (u : State) : EndsWork d u (State.settle.go t h q n u) := by
    induction n generalizing u with
    | zero => exact .refl ..
    | succ n ih => exact (u.settleOnce_endsWork d t h q).trans (ih _)
  exact (s.finishHead_endsWork ..).trans (go ..)

/-! ### Plans and commands end (R493, R502) -/

theorem State.endRun_endsWork (t h q status detail : Nat) : EndsWork d s (s.endRun d t h q status detail) := by
  unfold State.endRun
  split
  · exact .refl ..
  · exact (State.stopRun_endsWork ..).trans (State.complete_endsWork ..)

theorem State.endRuns_endsWork (status detail : Nat) : EndsWork d s (s.endRuns d status detail) :=
  .foldl (fun _ _ => State.endRun_endsWork ..) _ s

theorem State.dropUnits_endsWork (t h q : Nat) : EndsWork d s (s.dropUnits d t h q) := s.modDie_endsWork d _ fun _ => rfl

theorem State.failQueue_endsWork (t h q status : Nat) : EndsWork d s (s.failQueue d t h q status) := by
  have go (n : Nat) (u : State) : EndsWork d u (State.failQueue.go t h q status n u) := by
    induction n generalizing u with
    | zero => exact .refl ..
    | succ n ih =>
      refine EndsWork.trans ?_ (ih _)
      cases u.headCmd t h q with
      | none => exact .refl ..
      | some c => exact State.finishHead_endsWork ..
  unfold State.failQueue
  extract_lets r s1 s2
  have stopped : EndsWork d s s1 := (State.stopRun_endsWork ..).trans (State.dropUnits_endsWork ..)
  have finished : EndsWork d s s2 := by
    unfold s2 r
    split
    · exact stopped.trans (State.finishHead_endsWork ..)
    · exact stopped
  exact finished.trans (go ..)

theorem State.charge_endsWork (t h : Nat) (q : Option Nat) (e : Nat) : EndsWork d s (s.charge d t h q e) := by
  unfold State.charge
  split
  · exact .refl ..
  · split
    · exact .refl ..
    · extract_lets s1 s2
      have first : EndsWork d s s1 := s.modCtx_endsWork ..
      have second : EndsWork d s s2 := by
        unfold s2
        split
        · exact first.trans (State.modQueue_endsWork ..)
        · exact first
      refine (second.trans (State.modTenant_endsWork ..)).trans (State.modDie_endsWork _ _ _ ?_)
      exact fun _ => rfl

theorem State.settleCtx_endsWork (t h : Nat) : EndsWork d s (s.settleCtx d t h) := by
  unfold State.settleCtx
  extract_lets x mine s1 ns e
  have paid : EndsWork d s s1 := .foldl (fun _ _ => State.charge_endsWork ..) _ s
  refine (paid.trans (State.charge_endsWork ..)).trans (State.modDie_endsWork _ _ _ ?_)
  exact fun _ => rfl

theorem State.failResidents_endsWork (status : Nat) : EndsWork d s (s.failResidents d status) := by
  unfold State.failResidents
  extract_lets rs s1 s2 s3
  have failed : EndsWork d s s1 := .foldl (fun _ _ => .foldl (fun _ _ => State.failQueue_endsWork ..) _ _) _ s
  have left : EndsWork d s s2 :=
    failed.trans (.foldl (fun _ _ => (State.settleCtx_endsWork ..).trans (State.modCtx_endsWork ..)) _ _)
  have cleared : EndsWork d s s3 := by
    refine left.trans (State.modDie_endsWork _ _ _ ?_)
    exact fun _ => rfl
  exact cleared.trans ⟨rfl, fun _ _ => rfl, rfl⟩

/-! ### Flows end (R338) -/

theorem State.tellLost_ports (toId t cause id src dst : Nat) : PortsOnly d s (s.tellLost d toId t cause id src dst) :=
  .ite (.refl d s) (State.sendFor_ports ..)

theorem State.loseTransit_ports (e : Transit) (cause : Nat) : PortsOnly d s (s.loseTransit d e cause) := by
  unfold State.loseTransit
  extract_lets s1
  have gone : PortsOnly d s s1 :=
    (s.modFab_ports d fun y => { y with transit := y.transit.filter fun g => !(g == e) }).trans (State.freeLabel_ports ..)
  exact (gone.trans (State.tellLost_ports ..)).trans (State.tellLost_ports ..)

theorem State.dropFlows_ports (cause : Nat) : PortsOnly d s (s.dropFlows d cause) := by
  unfold State.dropFlows
  extract_lets me f s1 s2 s3 s4
  have first : PortsOnly d s s1 :=
    .foldl (fun _ _ => (State.tellLost_ports ..).trans (State.freeLabel_ports ..)) _ s
  have second : PortsOnly d s s2 := first.trans (.foldl (fun _ _ => State.tellLost_ports ..) _ _)
  have third : PortsOnly d s s3 := second.trans (.foldl (fun _ _ => State.tellLost_ports ..) _ _)
  have fourth : PortsOnly d s s4 := third.trans (s3.modFab_ports d fun y => { y with
    tx := [], rx := [], pendOpen := [], flowsLost := satAdd 32 y.flowsLost (f.tx.length + f.rx.length) })
  exact fourth.trans (.foldl (fun _ _ => State.loseTransit_ports ..) _ _)

theorem State.loseFlow_endsWork (t id : Nat) : EndsWork d s (s.loseFlow d t id) := by
  unfold State.loseFlow
  extract_lets tx rx s1 s2
  have sent : EndsWork d s s1 := by
    unfold s1 tx
    split
    · exact ((State.modTx_ports ..).trans (State.freeLabel_ports ..)).endsWork.trans (State.endRun_endsWork ..)
    · exact .refl ..
  have received : EndsWork d s s2 := by
    unfold s2 rx
    split
    · exact sent.trans ((State.modRx_ports ..).endsWork.trans (State.endRun_endsWork ..))
    · exact sent
  split
  · refine received.trans (State.modDie_endsWork _ _ _ ?_)
    exact fun _ => rfl
  · exact received

theorem State.loseFlows_endsWork (cause : Nat) (tx : TxFlow → Bool) (rx : RxFlow → Bool) (tr : Transit → Bool) :
    EndsWork d s (s.loseFlows d cause tx rx tr) := by
  have lose (u : State) (toId t id src dst u' i : Nat) :
      EndsWork d u ((u.tellLost d toId t cause id src dst).loseFlow d u' i) :=
    (State.tellLost_ports ..).endsWork.trans (State.loseFlow_endsWork ..)
  unfold State.loseFlows
  extract_lets me txs rxs trs s1 s2
  have sent : EndsWork d s s1 := .foldl (fun _ _ => lose ..) _ s
  have received : EndsWork d s s2 := sent.trans (.foldl (fun _ _ => lose ..) _ _)
  exact received.trans (.foldl (fun _ _ => (State.loseTransit_ports ..).endsWork) _ _)

end

end Sys2Proof.Machine
end

section
/-! Protective sensors, the thermal rate, the hardware trip and its latch (7.1 to 7.5). -/

namespace Sys2Proof.Machine
open Sys2Proof

/-! ### Readings (R157) -/

theorem KV.put_put {κ α : Type} [DecidableEq κ] (l : List (κ × α)) (k : κ) (v w : α) :
    KV.put (KV.put l k v) k w = KV.put l k w := by
  simp [KV.put, KV.del]

/-- The record of a sensor holds a sensor part that is put in its place. -/
theorem Heat.sensor_put (h : Heat) (n : Nat) (x : Sensor) (l : List (Nat × Sensor)) (i : Nat) :
    ({ h with sensors := KV.put l n x } : Heat).sensor i = if i = n then x else KV.getD l i {} := by
  unfold Heat.sensor
  by_cases same : i = n
  · rw [if_pos same, same]
    exact KV.getD_put ..
  · rw [if_neg same]
    exact KV.getD_put_ne _ same _ _

/-- Readings and maximum depend on the last reading and the failure of each sensor alone. -/
theorem Heat.reading_congr {h g : Heat} (last : ∀ i, (g.sensor i).last = (h.sensor i).last)
    (failed : ∀ i, (g.sensor i).failed = (h.sensor i).failed) (n : Nat) : g.reading n = h.reading n := by
  unfold Heat.reading
  simp only [last, failed]

theorem Heat.maximum_congr {h g : Heat} (keys : g.sensors.map Prod.fst = h.sensors.map Prod.fst)
    (reads : ∀ i, g.reading i = h.reading i) : g.maximum = h.maximum := by
  have by_key (x : Heat) : (x.sensors.filterMap fun p => x.reading p.1) = (x.sensors.map Prod.fst).filterMap x.reading := by
    rw [List.filterMap_map]
    rfl
  unfold Heat.maximum
  rw [by_key g, by_key h, keys, funext reads]

theorem Heat.take_sensors (h : Heat) (n : Nat) (t : Int) (now : Ns) (limit : Nat) :
    ∃ x : Sensor, x.last = some t ∧ (h.take n t now limit).1 = { h with sensors := KV.put h.sensors n x } := ⟨_, rfl, rfl⟩

/-! ### What a heat event leaves of the dies -/

section
variable (s : State) (d : DieId)

/-- Nothing changed of the dies but the fabric of die d. -/
structure FabOnly (d : DieId) (s t : State) : Prop where
  others : ∀ e, e ≠ d → t.die e = s.die e
  die : t.die d = { s.die d with fab := (t.die d).fab }

theorem FabOnly.trans {d : DieId} {s t u : State} (h : FabOnly d s t) (k : FabOnly d t u) : FabOnly d s u := by
  refine ⟨fun e other => (k.others e other).trans (h.others e other), ?_⟩
  have a := h.die
  have b := k.die
  rw [b, a]

theorem PortsOnly.fab {d : DieId} {s t : State} (h : PortsOnly d s t) : FabOnly d s t := ⟨h.others, h.die⟩

theorem State.logDie_fab (code : Nat) (detail : List Byte) : FabOnly d s (s.logDie d code detail) :=
  ⟨fun e _ => State.logDie_die .., by rw [State.logDie_die]⟩

theorem State.noticeDie_die (src code : Nat) (e : DieId) : (s.noticeDie d src code).die e = s.die e := by
  unfold State.die
  rw [(State.noticeDie_tells ..).dies]

theorem State.heatEvent_die (code : Nat) (e : DieId) : (s.heatEvent d code).die e = s.die e := by
  rw [State.heatEvent, State.logDie_die, State.noticeDie_die]

theorem State.heat_fab (code : Nat) : FabOnly d s (s.heat d code) := by
  have event : FabOnly d s (s.heatEvent d code) :=
    ⟨fun e _ => State.heatEvent_die .., by rw [State.heatEvent_die]⟩
  unfold State.heat
  dsimp only
  split
  · exact event.trans (State.flood_ports ..).fab
  · exact event

/-! ### What a sample leaves of the readings -/

/-- The sensors, the die maximum and the rails that a sample finds on a die stay. -/
structure ReadsStay (d : DieId) (s t : State) : Prop where
  sensors : (t.die d).heat.sensors = (s.die d).heat.sensors
  dieMax : (t.die d).heat.dieMax = (s.die d).heat.dieMax
  vcore : (t.die d).rails.vcore = (s.die d).rails.vcore
  vio : (t.die d).rails.vio = (s.die d).rails.vio

theorem ReadsStay.refl : ReadsStay d s s := ⟨rfl, rfl, rfl, rfl⟩

theorem ReadsStay.trans {d : DieId} {s t u : State} (h : ReadsStay d s t) (k : ReadsStay d t u) : ReadsStay d s u :=
  ⟨k.sensors.trans h.sensors, k.dieMax.trans h.dieMax, k.vcore.trans h.vcore, k.vio.trans h.vio⟩

theorem FabOnly.reads {d : DieId} {s t : State} (h : FabOnly d s t) : ReadsStay d s t := by
  constructor <;> rw [h.die]

theorem State.logDie_reads (code : Nat) (detail : List Byte) : ReadsStay d s (s.logDie d code detail) :=
  (s.logDie_fab d code detail).reads

theorem State.modHeat_reads (f : Heat → Heat) (sensors : ∀ h, (f h).sensors = h.sensors) (dieMax : ∀ h, (f h).dieMax = h.dieMax) :
    ReadsStay d s (s.modHeat d f) := by
  unfold State.modHeat
  constructor <;> rw [State.modDie_die]
  · exact sensors _
  · exact dieMax _

/-- A voltage move touches no switch of a rail. -/
theorem State.moveVcore_reads (goal : Nat) : ReadsStay d s (s.moveVcore d goal) := by
  have ends := (s.moveVcore_endsWork d goal).die
  constructor <;> rw [ends]

theorem Urged.reads {d : DieId} {s t : State} (h : Urged d s t) : ReadsStay d s t := by
  constructor <;> rw [h.die]

theorem Steered.reads {d : DieId} {s t : State} (h : Steered d s t) : ReadsStay d s t := by
  constructor <;> rw [h.die]

theorem State.setRate_reads (goal : Nat) : ReadsStay d s (s.setRate d goal) := by
  have lower (u : State) : ReadsStay d u (u.modHeat d fun h =>
      if goal < h.h then { h with
        h := goal, hGoal := goal, hRoseAt := s.tray.now, throttleSince := some (h.throttleSince.getD s.tray.now) }
      else { h with hGoal := goal }) := by
    refine State.modHeat_reads _ _ _ (fun h => ?_) fun h => ?_ <;> split <;> rfl
  have spoilt : ReadsStay d s (if goal < 16 then s.modDie d Die.spoil else s) := by
    split
    · exact (s.modDie_urged d _ Steers.spoil).reads
    · exact .refl ..
  unfold State.setRate
  dsimp only
  split
  · refine ((spoilt.trans (lower _)).trans (State.modHeat_reads _ _ _ ?_ ?_)).trans (State.heat_fab ..).reads
    · exact fun _ => rfl
    · exact fun _ => rfl
  · exact spoilt.trans (lower _)

theorem State.fullCheck_reads (ts : Nat) (T : Int) : ReadsStay d s (s.fullCheck d ts T) := by
  have heat (u : State) (full : Bool) (below : Option Ns) :
      ReadsStay d u (u.modHeat d fun h => { h with fullSeen := full, belowSince := below }) :=
    u.modHeat_reads d _ (fun _ => rfl) fun _ => rfl
  have below (u : State) (b : Option Ns) : ReadsStay d u (u.modHeat d fun h => { h with belowSince := b }) :=
    u.modHeat_reads d _ (fun _ => rfl) fun _ => rfl
  unfold State.fullCheck
  dsimp only
  split
  · split
    · exact heat ..
    · have event (u : State) : ReadsStay d u (u.heatEvent d 3) := by constructor <;> rw [State.heatEvent_die]
      exact ((heat s true none).trans (event _)).trans (State.urgent_urged ..).reads
  · split
    · exact .refl ..
    · split
      · exact below ..
      · split
        · exact below ..
        · split
          · exact (heat s false none).trans (State.releaseEmergency_steered ..).reads
          · exact .refl ..

theorem State.surge_reads : ReadsStay d s (s.surge d) := by
  unfold State.surge
  extract_lets x s1 s2
  have first : ReadsStay d s s1 := s.modHeat_reads d _ (fun _ => rfl) fun _ => rfl
  have second : ReadsStay d s s2 := by
    refine (first.trans (State.modHeat_reads _ _ _ ?_ ?_)).trans (State.heat_fab ..).reads
    · exact fun _ => rfl
    · exact fun _ => rfl
  split
  · exact first
  · split
    · exact second.trans (State.urgent_urged ..).reads
    · exact second

theorem State.failTile_reads (L : Nat) : ReadsStay d s (s.failTile d L) := by
  unfold State.failTile
  dsimp only
  split
  · exact .refl ..
  · refine ReadsStay.trans (t := s.modDie d _) ?_ (State.logDie_reads ..)
    constructor <;> rw [State.modDie_die]

/-! ### The hardware trip (R171, R172, R174) -/

/-- LEAVE on behalf of a die changes another one. -/
theorem State.leaveFor_die (cause : Nat) : (s.leaveFor d cause).die d = s.die d := by
  unfold State.leaveFor
  split
  · rfl
  · next e found =>
    have apart : e ≠ d := by
      have chosen := List.find?_some found
      simp only [Bool.and_eq_true, bne_iff_ne] at chosen
      exact chosen.1.1.1
    split
    · rfl
    · unfold State.passLeave
      dsimp only
      split
      · exact State.modDie_die_ne _ _ _ _ apart.symm
      · exact (State.sendUp_urged ..).others d apart.symm

/-- The rails that go off, in whatever order. -/
theorem Rails.allDown_keepVio (r : Rails) (trip : Bool) :
    r.allDown trip true = { r with vsram := false, vcore := false, vana := false, vhtr := false } := by
  cases trip <;> rfl

theorem Rails.allDown_all (r : Rails) (trip : Bool) : r.allDown trip false =
    { r with vio := false, vsram := false, vcore := false, vana := false, vhtr := false } := by
  cases trip <;> rfl

/-- What the loss of the rails of a die leaves of it: no rail but a kept VIO, no SRAM. -/
structure RailsGone (keepVio : Bool) (x y : Die) : Prop where
  heat : y.heat = x.heat
  vcore : y.rails.vcore = false
  vsram : y.rails.vsram = false
  vana : y.rails.vana = false
  vhtr : y.rails.vhtr = false
  vio : y.rails.vio = (keepVio && x.rails.vio)
  sram : y.til.sram = []

theorem State.railsOff_gone (keepVio : Bool) (status : Nat) :
    RailsGone keepVio (s.die d) ((s.railsOff d keepVio status).die d) := by
  have ends : Ends (s.die d) (((s.failResidents d status).sramLost d).die d) :=
    ((s.failResidents_endsWork d status).trans (by
      unfold State.sramLost
      exact State.modDie_endsWork _ _ _ fun _ => rfl)).die
  have lost : (((s.failResidents d status).sramLost d).die d).til.sram = [] := by
    rw [State.sramLost, State.modDie_die]
  unfold State.railsOff
  dsimp only
  rw [Ends] at ends
  cases keepVio
  · constructor <;> rw [State.modDie_die] <;> simp only [Rails.allDown_all, Rails.coreOff, Bool.false_and]
    · rw [ends]
    · exact lost
  · constructor <;> rw [State.modDie_die] <;> simp only [Rails.allDown_keepVio, Rails.coreOff, Bool.true_and]
    · rw [ends]
    · rw [ends]
    · exact lost

/-- A die that its hardware trip left: rails off but VIO, tripped, and latched off after the third trip on record. -/
structure Tripped (x : Die) : Prop where
  vcore : x.rails.vcore = false
  vsram : x.rails.vsram = false
  vana : x.rails.vana = false
  vhtr : x.rails.vhtr = false
  sram : x.til.sram = []
  tripped : x.heat.tripped = true
  state : x.svc.state = .tripped ∨ x.svc.state = .latched
  latched : x.heat.latched = true ↔ 3 ≤ x.heat.trips.length

theorem State.heat_reads (code : Nat) : ReadsStay d s (s.heat d code) := (s.heat_fab d code).reads

theorem State.leaveFor_reads (cause : Nat) : ReadsStay d s (s.leaveFor d cause) := by
  constructor <;> rw [State.leaveFor_die]

/-- The die that a trip leaves, of the die whose rails went off, with the trips on record. -/
def Die.trips (ts : List Ns) (x : Die) : Die :=
  let latch := decide (3 ≤ ts.length)
  { x with
    heat := { x.heat with tripped := true, latched := latch, trips := ts, surgeAt := none, fullSeen := false
                          coolSince := none, thawKept := false, wasFrozen := false }
    svc := { x.svc with state := if latch then .latched else .tripped } }

theorem RailsGone.trips {k : Bool} {x y : Die} (gone : RailsGone k x y) (ts : List Ns) : Tripped (y.trips ts) := by
  refine ⟨gone.vcore, gone.vsram, gone.vana, gone.vhtr, gone.sram, rfl, ?_, decide_eq_true_iff⟩
  dsimp only [Die.trips]
  split
  · exact .inr rfl
  · exact .inl rfl

/-- A die with VCORE or VSRAM trips from a state whose dies read the same as before. -/
theorem State.trip_eq (on : ((s.die d).rails.vcore || (s.die d).rails.vsram) = true) :
    ∃ (ts : List Ns) (u : State), ReadsStay d s u ∧ s.trip d = (u.railsOff d true stDieTripped).modDie d (Die.trips ts) := by
  unfold State.trip
  simp only [on, Bool.not_true, Bool.false_eq_true, if_false]
  have first : ReadsStay d s ((s.heat d 6).leaveFor d 6) := (s.heat_reads d 6).trans (State.leaveFor_reads ..)
  refine ⟨_, _, ?_, rfl⟩
  split
  · exact first.trans (State.heat_reads ..)
  · exact first

/-- The trip keeps what the sensors read; where VCORE was on, it takes the rails. -/
theorem State.trip_spec :
    ((s.trip d).die d).heat.sensors = (s.die d).heat.sensors ∧ ((s.trip d).die d).heat.dieMax = (s.die d).heat.dieMax ∧
      ((s.die d).rails.vcore = true → Tripped ((s.trip d).die d) ∧ ((s.trip d).die d).rails.vio = (s.die d).rails.vio) := by
  by_cases on : ((s.die d).rails.vcore || (s.die d).rails.vsram) = true
  · obtain ⟨ts, u, reads, ended⟩ := s.trip_eq d on
    have gone := u.railsOff_gone d true stDieTripped
    rw [ended, State.modDie_die]
    refine ⟨?_, ?_, fun _ => ⟨gone.trips ts, gone.vio.trans reads.vio⟩⟩
    · exact (congrArg Heat.sensors gone.heat).trans reads.sensors
    · exact (congrArg Heat.dieMax gone.heat).trans reads.dieMax
  · refine ⟨?_, ?_, fun vcore => absurd (by rw [vcore]; rfl) on⟩
    · rw [State.trip, if_pos (by simpa using on)]
    · rw [State.trip, if_pos (by simpa using on)]

end

/-! ### A sample of a protective sensor (R155, R157) -/

/-- What a sample of t leaves of the readings: the record x of sensor n takes t, the die maximum follows, and where the
maximum calls for it the die trips. -/
structure Sampled (d : DieId) (n : Nat) (t : Int) (s u : State) : Prop where
  sensors : ∃ x : Sensor, x.last = some t ∧ (u.die d).heat.sensors = KV.put (s.die d).heat.sensors n x
  dieMax : (u.die d).heat.dieMax = (u.die d).heat.maximum
  trips : ∀ T, (s.die d).rails.vcore = true →
    ((s.die d).heat.take n t s.tray.now (s.dset d 0x2300 5)).1.maximum = some T → 1920 ≤ T →
      Tripped (u.die d) ∧ (u.die d).rails.vio = (s.die d).rails.vio

/-- The maximum stays while the sensors do. -/
theorem Heat.maximum_sensors {h g : Heat} (same : g.sensors = h.sensors) : g.maximum = h.maximum :=
  Heat.maximum_congr (by rw [same]) fun i => Heat.reading_congr (fun i => by unfold Heat.sensor; rw [same])
    (fun i => by unfold Heat.sensor; rw [same]) i

/-- The die's part of a sample: the record of sensor n is put, and the rest of the sample finds it so. -/
theorem ReadsStay.sampled {s s3 u : State} {d : DieId} {n : Nat} {t : Int} {x : Sensor} (last : x.last = some t)
    (put : (s3.die d).heat.sensors = KV.put (s.die d).heat.sensors n x) (top : (s3.die d).heat.dieMax = (s3.die d).heat.maximum)
    (h : ReadsStay d s3 u) : (∃ x : Sensor, x.last = some t ∧ (u.die d).heat.sensors = KV.put (s.die d).heat.sensors n x) ∧
      (u.die d).heat.dieMax = (u.die d).heat.maximum :=
  ⟨⟨x, last, h.sensors.trans put⟩, by rw [h.dieMax, top, Heat.maximum_sensors h.sensors]⟩

/-- What a sample notes beside the last reading and the failure moves no maximum. -/
theorem Heat.maximum_put {h g : Heat} {l : List (Nat × Sensor)} {n : Nat} {x y : Sensor} (hs : h.sensors = KV.put l n x)
    (gs : g.sensors = KV.put l n y) (last : y.last = x.last) (failed : y.failed = x.failed) : g.maximum = h.maximum := by
  have at_key {k : Heat} {z : Sensor} (ks : k.sensors = KV.put l n z) (i : Nat) :
      k.sensor i = if i = n then z else KV.getD l i {} := by
    have put := k.sensor_put n z l i
    unfold Heat.sensor at put ⊢
    rw [ks, ← put]
  refine Heat.maximum_congr ?_ fun i => Heat.reading_congr (fun i => ?_) (fun i => ?_) i
  · rw [hs, gs]
    rfl
  · rw [at_key gs, at_key hs]
    split
    · exact last
    · rfl
  · rw [at_key gs, at_key hs]
    split
    · exact failed
    · rfl

theorem does_thermalSample {s : State} {d : DieId} {n : Nat} {t : Int} (known : n < 576) (on : (s.die d).rails.vio = true) :
    Does (.thermalSample d n t) s (Sampled d n t s) := by
  change ∃ u, execThermalSample d n t s = .next u ∧ _
  unfold execThermalSample
  rw [if_neg (by simp [on, known])]
  obtain ⟨x, last, took⟩ := (s.die d).heat.take_sensors n t s.tray.now (s.dset d 0x2300 5)
  extract_lets ts near now
  have same : now = s.tray.now := rfl
  clear_value now
  subst same
  generalize taken : (s.die d).heat.take n t s.tray.now (s.dset d 0x2300 5) = r at took ⊢
  obtain ⟨h, rise, fails⟩ := r
  dsimp -zeta only at took ⊢
  have sensors : h.sensors = KV.put (s.die d).heat.sensors n x := by rw [took]
  clear took
  extract_lets fast x1 s0 m s1 s2 s3
  have record : h.sensor n = x := by rw [Heat.sensor, sensors]; exact KV.getD_put ..
  have put0 : (s0.die d).heat.sensors = KV.put (s.die d).heat.sensors n { x with fastUntil := fast } := by
    unfold s0 x1 State.modHeat
    rw [State.modDie_die, sensors, KV.put_put, record]
  have rails0 : (s0.die d).rails = (s.die d).rails := by
    unfold s0 State.modHeat
    rw [State.modDie_die]
  have max0 : m = h.maximum := Heat.maximum_put sensors put0 rfl rfl
  have put1 : (s1.die d).heat.sensors = (s0.die d).heat.sensors ∧ (s1.die d).heat.dieMax = m ∧ (s1.die d).rails = (s0.die d).rails := by
    unfold s1 State.modHeat
    rw [State.modDie_die]
    exact ⟨rfl, rfl, rfl⟩
  have reads2 : ReadsStay d s1 s2 := by
    unfold s2
    split
    · exact State.logDie_reads ..
    · exact .refl ..
  have reads3 : ReadsStay d s1 s3 := by
    unfold s3
    split
    · exact reads2.trans (State.failTile_reads ..)
    · exact reads2
  have put3 : (s3.die d).heat.sensors = KV.put (s.die d).heat.sensors n { x with fastUntil := fast } := by
    rw [reads3.sensors, put1.1, put0]
  have top3 : (s3.die d).heat.dieMax = (s3.die d).heat.maximum := by
    rw [reads3.dieMax, put1.2.1]
    exact (Heat.maximum_sensors (reads3.sensors.trans put1.1)).symm
  cases top : m with
  | none =>
    refine ⟨_, rfl, ⟨⟨{ x with fastUntil := fast }, last, put3⟩, top3, fun T _ hot => ?_⟩⟩
    rw [taken, ← max0, top] at hot
    cases hot
  | some T =>
    dsimp -zeta only
    extract_lets s4 s5
    have reads5 : ReadsStay d s3 s5 := by
      have first : ReadsStay d s3 s4 := (State.setRate_reads ..).trans (State.fullCheck_reads ..)
      unfold s5
      split
      · exact first.trans (State.surge_reads ..)
      · exact first
    have rails5 : (s5.die d).rails.vcore = (s.die d).rails.vcore ∧ (s5.die d).rails.vio = (s.die d).rails.vio := by
      rw [reads5.vcore, reads5.vio, reads3.vcore, reads3.vio, put1.2.2, rails0]
      exact ⟨rfl, rfl⟩
    clear_value s4 s5
    refine ⟨_, rfl, ?_⟩
    split
    · obtain ⟨kept, max, trips⟩ := s5.trip_spec d
      refine ⟨⟨{ x with fastUntil := fast }, last, (kept.trans reads5.sensors).trans put3⟩, ?_, fun _ vcore _ _ => ?_⟩
      · rw [max, reads5.dieMax, top3]
        exact (Heat.maximum_sensors (kept.trans reads5.sensors)).symm
      · rw [← rails5.2]
        exact trips (rails5.1.trans vcore)
    · next cool =>
      obtain ⟨put, max⟩ := reads5.sampled (x := { x with fastUntil := fast }) last put3 top3
      refine ⟨put, max, fun T' _ hot limit => ?_⟩
      rw [taken, ← max0, top] at hot
      cases hot
      exact absurd limit cool

/-! ### The thermal rate and the group maxima (R158, R161) -/

section
variable (s : State) (d : DieId)

theorem does_thermalRateRise (room : (s.die d).heat.h < (s.die d).heat.hGoal) (below : (s.die d).heat.h < 15) :
    Does (.thermalRateRise d) s fun u =>
      u.die d = { s.die d with heat := { (s.die d).heat with h := (s.die d).heat.h + 1, hRoseAt := u.tray.now } } ∧
      (s.die d).heat.hRoseAt + 50000 ≤ u.tray.now ∧ DieNoted d s u := by
  change ∃ t, execThermalRateRise d s = .next t ∧ _
  unfold execThermalRateRise
  have short : (s.die d).heat.h + 1 ≠ 16 := by omega
  simp only [Nat.not_le.mpr room, short, if_false, false_and]
  refine ⟨_, rfl, ?_, ?_, ?_⟩
  · unfold State.modHeat
    rw [State.modDie_die]
    rfl
  · exact State.advanceTo_now ..
  · exact (State.advanceTo_noted ..).trans (by unfold State.modHeat; exact (State.modDie_only ..).noted)

theorem does_groupMaxPublish :
    Does (.groupMaxPublish d) s fun u =>
      u.die d = { s.die d with heat := { (s.die d).heat with groupMax := (u.die d).heat.groupMax } } ∧
      (u.die d).heat.groupMax.length = 16 ∧
      (∀ k, k < 16 → (∀ p ∈ (s.die d).heat.sensors, s.dset d 0x2300 8 / 2 ^ (8 * p.1) % 256 ≠ k) →
        (u.die d).heat.groupMax.getD k 0 = 0x8000) ∧ DieOnly d s u := by
  change ∃ t, execGroupMaxPublish d s = .next t ∧ _
  unfold execGroupMaxPublish
  dsimp only
  refine ⟨_, rfl, ?_, ?_, fun k small apart => ?_, ?_⟩
  · unfold State.modHeat
    rw [State.modDie_die]
  · unfold State.modHeat
    rw [State.modDie_die]
    simp
  · unfold State.modHeat
    rw [State.modDie_die]
    have none_in : ((s.die d).heat.sensors.filterMap fun p =>
        if (s.dset d 0x2300 8 >>> (8 * p.1)) % 256 = k ∧ !p.2.failed then p.2.last else none) = [] := by
      refine List.filterMap_eq_nil_iff.mpr fun p mem => if_neg fun h => apart p mem ?_
      rw [← Nat.shiftRight_eq_div_pow]
      exact h.1
    rw [List.getD_eq_getElem?_getD, List.getElem?_map, List.getElem?_range small]
    dsimp only [Option.map_some, Option.getD_some]
    rw [none_in]
    rfl
  · unfold State.modHeat
    exact State.modDie_only ..

/-! ### Restart after a trip (R173, R174) -/

theorem Rails.pmbus_switches (r : Rails) (v : Nat) :
    (r.pmbus v).vio = r.vio ∧ (r.pmbus v).vcore = r.vcore ∧ (r.pmbus v).vsram = r.vsram := by
  unfold Rails.pmbus
  split
  · exact ⟨rfl, rfl, rfl⟩
  · exact ⟨rfl, rfl, rfl⟩

theorem State.railsUp_on : ((s.railsUp d).die d).rails.vio = true ∧ ((s.railsUp d).die d).rails.vcore = true ∧
    ((s.railsUp d).die d).rails.vsram = true := by
  unfold State.railsUp
  rw [State.modDie_die]
  obtain ⟨vio, vcore, vsram⟩ := Rails.pmbus_switches (Rails.allUp { (s.die d).rails with
    retention := (s.die d).heldInRetention, avsGov := false, avsFault := false, voutMax := 3800, ovLimit := 4000 })
    (vcoreTarget d 15 true (s.die d).op.trim 0)
  exact ⟨vio.trans rfl, vcore.trans rfl, vsram.trans rfl⟩

theorem does_tripRestart {c : Ns} (free : (s.die d).heat.latched = false) (flow : (s.die d).heat.flowLoss = .none)
    (tripped : (s.die d).heat.tripped = true) (cool : (s.die d).heat.coolSince = some c) :
    Does (.tripRestart d) s fun t =>
      (t.die d).heat.tripped = false ∧ (t.die d).svc.state = .starting ∧ (t.die d).svc.tripRestart = true ∧
      (t.die d).rails.vio = true ∧ (t.die d).rails.vcore = true ∧ (t.die d).rails.vsram = true ∧
      c + 60000000000 ≤ t.tray.now ∧ DieNoted d s t := by
  change ∃ t, execTripRestart d s = .next t ∧ _
  unfold execTripRestart
  simp only [free, flow, tripped, cool, Bool.false_eq_true, false_or, ne_eq, not_true_eq_false, if_false, if_true]
  refine ⟨_, rfl, ?_⟩
  rw [State.modDie_die]
  have up : DieOnly d (s.advanceTo (c + 60000000000)) ((s.advanceTo (c + 60000000000)).railsUp d) := State.modDie_only ..
  have vio := (s.advanceTo (c + 60000000000)).railsUp_on d
  refine ⟨rfl, ?_, rfl, vio.1, vio.2.1, vio.2.2, State.advanceTo_now .., ?_⟩
  · unfold State.railsUp
    rw [State.modDie_die]
  · exact ((State.advanceTo_noted ..).trans up.noted).trans (State.modDie_only ..).noted

theorem does_tripRestart_held (held : (s.die d).heat.latched = true ∨ (s.die d).heat.flowLoss ≠ .none) :
    Does (.tripRestart d) s fun t => t = s := by
  change ∃ t, execTripRestart d s = .next t ∧ _
  unfold execTripRestart
  exact ⟨_, if_pos held, rfl⟩

end

theorem does_clearTripLatch {s : State} {m : MasterId} {d : DieId} {v : Nat}
    (takes : GateTakes m ⟨0x2300, 0xD, d.val⟩ (leBytes 1 v) s) (latched : (s.die d).heat.latched = true) :
    Does (.clearTripLatch m d v) s fun t =>
      t.die d = { s.die d with
        heat := { (s.die d).heat with latched := false, trips := [], tripped := true }
        svc := { (s.die d).svc with state := .tripped } } ∧
      GateOnly ⟨0x2300, 0xD, d.val⟩ s t ∧ ∀ e, e ≠ d → t.die e = s.die e := by
  refine does_gate_done takes rfl rfl ⟨?_, ?_, fun e other => ?_⟩
  · rw [gateEnd_done_die, State.modDie_die]
    simp [latched]
  · exact ((s.atTick_gate _).trans ((State.modDie_only ..).gate _)).trans (gateEnd_done_gate ..)
  · rw [gateEnd_done_die, State.modDie_die_ne _ _ _ _ other]
    rfl

end Sys2Proof.Machine

namespace Sys2Proof
open Sys2Proof.Machine

/-- Settles O17: the readings are followed through everything a sample sets off, up to the trip. -/
theorem sensorsAndTrips : Obligations.SensorsAndTrips := by
  refine ⟨fun s d n t known on => (does_thermalSample known on).imp fun u done => ?_,
    fun s d n t T known on vcore hot limit => (does_thermalSample known on).imp fun u done => ?_,
    fun s d => does_thermalRateRise s d, fun s d => does_groupMaxPublish s d,
    fun s d c => does_tripRestart s d, fun s d => does_tripRestart_held s d, fun s m d v => does_clearTripLatch⟩
  · obtain ⟨⟨x, last, put⟩, max, -⟩ := done
    unfold Heat.sensor
    rw [put]
    refine ⟨?_, fun i other => KV.getD_put_ne _ other _ _, max⟩
    rw [KV.getD_put]
    exact last
  · obtain ⟨tripped, vio⟩ := done.trips T vcore hot limit
    exact ⟨tripped.vcore, tripped.vsram, tripped.vana, tripped.vhtr, vio.trans on, tripped.sram, tripped.tripped,
      tripped.state, tripped.latched⟩

end Sys2Proof
end

section
/-! Heat surge, FLOW_LOSS, the coolant loops and their alarms (7.4, 7.6, 7.7). -/

namespace Sys2Proof.Machine
open Sys2Proof

section
variable (s : State) (d : DieId)

/-! ### FLOW_LOSS (R170, R177) -/

theorem PortsOnly.tray {d : DieId} {s t : State} (h : PortsOnly d s t) : t.tray = s.tray := by rw [h.rest]

/-- The heat part and the service state of die d stay, and no time passes. -/
structure HeatStays (d : DieId) (s t : State) : Prop where
  heat : (t.die d).heat = (s.die d).heat
  svc : (t.die d).svc = (s.die d).svc
  now : t.tray.now = s.tray.now

theorem HeatStays.trans {d : DieId} {s t u : State} (h : HeatStays d s t) (k : HeatStays d t u) : HeatStays d s u :=
  ⟨k.heat.trans h.heat, k.svc.trans h.svc, k.now.trans h.now⟩

theorem EndsWork.heatStays {d : DieId} {s t : State} (h : EndsWork d s t) : HeatStays d s t :=
  ⟨by rw [h.die], by rw [h.die], by rw [h.tray]⟩

theorem Urged.heatStays {d : DieId} {s t : State} (h : Urged d s t) : HeatStays d s t :=
  ⟨by rw [h.die], by rw [h.die], by rw [h.rest]⟩

theorem State.heatEvent_now (code : Nat) : (s.heatEvent d code).tray.now = s.tray.now := by
  unfold State.heatEvent
  rw [State.logDie, State.log_now]
  exact congrArg Tray.now (State.noticeDie_tells ..).tray

theorem State.heat_now (code : Nat) : (s.heat d code).tray.now = s.tray.now := by
  unfold State.heat
  dsimp only
  split
  · rw [(State.flood_ports ..).rest]
    exact s.heatEvent_now d code
  · exact s.heatEvent_now d code

theorem State.heat_heatStays (code : Nat) : HeatStays d s (s.heat d code) := by
  have fab := (s.heat_fab d code).die
  exact ⟨by rw [fab], by rw [fab], s.heat_now d code⟩

theorem State.sendLeave_urged (cause : Nat) : Urged d s (s.sendLeave d cause) := by
  unfold State.sendLeave State.passLeave
  dsimp only
  split
  · exact .refl ..
  · have leaving : Urged d s (s.modDie d fun x => { x with mer := { x.mer with
        leaving := true, proposal := some 0x10 } }) := State.modDie_urged _ _ _ fun _ => rfl
    split
    · exact leaving.trans (State.modDie_urged _ _ _ fun _ => rfl)
    · exact leaving.trans (State.sendUp_urged ..)

theorem State.stopCal_ports (p : Nat) : PortsOnly d s (s.stopCal d p) := by
  unfold State.stopCal
  split
  · exact .refl ..
  · exact ⟨(s.modDie_only d _).sends, by rw [State.modDie_die]⟩

theorem State.portsLow_endsWork : EndsWork d s (s.portsLow d) := by
  unfold State.portsLow
  dsimp only
  refine (PortsOnly.foldl (fun u p => ?_) _ s).endsWork.trans (State.loseFlows_endsWork ..)
  split
  · exact ((State.stopCal_ports ..).trans (State.sendHop_ports ..)).trans (State.modPort_ports ..)
  · exact .refl ..

/-- What FLOW_LOSS of a kind, asserted in a state, leaves of its die. -/
structure FlowHalted (kind : FlowLoss) (x y : Die) (now : Ns) : Prop where
  kind : y.heat.flowLoss = kind
  since : y.heat.flowLossAt = now
  surge : y.heat.surgeAt = none
  vcore : y.rails.vcore = false
  retention : y.rails.retention = true
  state : y.svc.state = .flowHalt

theorem State.assertFlow_halts (kind : FlowLoss) (free : (s.die d).heat.flowLoss = .none) (on : (s.die d).rails.vsram = true)
    (runs : (s.die d).svc.state = .running) : FlowHalted kind (s.die d) ((s.assertFlow d kind).die d) s.tray.now ∧
      (s.assertFlow d kind).tray.now = s.tray.now := by
  unfold State.assertFlow
  extract_lets x frozen s1 s2 s3
  rw [if_neg (by simp [x, free, on])]
  have heard := s.heat_heatStays d 4
  have marks : (s1.die d).heat = { (s.die d).heat with
      flowLoss := kind, flowLossAt := s.tray.now, surgeAt := none, wasFrozen := frozen } ∧
      (s1.die d).svc = (s.die d).svc ∧ s1.tray.now = s.tray.now := by
    unfold s1 State.modHeat
    rw [State.modDie_die, State.modDie_tray, heard.now, heard.heat, heard.svc]
    exact ⟨rfl, rfl, rfl⟩
  have lost : HeatStays d s1 s2 := by
    unfold s2
    split
    · exact (State.loseFlows_endsWork ..).heatStays
    · exact ((State.dropFlows_ports ..).endsWork.trans (State.endRuns_endsWork ..)).heatStays
  have low : HeatStays d s1 s3 :=
    (lost.trans (State.sendLeave_urged ..).heatStays).trans (State.portsLow_endsWork ..).heatStays
  obtain ⟨heat, svc, now⟩ := marks
  have state : (s3.die d).svc.state ≠ .starting := by
    rw [low.svc, svc, runs]
    exact fun h => nomatch h
  rw [State.modDie_die, State.modDie_tray, if_neg state]
  refine ⟨?_, low.now.trans now⟩
  refine ⟨?_, ?_, ?_, rfl, rfl, rfl⟩ <;> dsimp only <;> rw [low.heat, heat]

/-! ### The surge (R169) -/

theorem does_heatSurgeEnd (surges : (s.die d).heat.surgeAt.isSome = true) : Does (.heatSurgeEnd d) s fun t =>
    (t.die d).heat.surgeAt = none ∧ (s.die d).heat.surgeLast + 1000000 ≤ t.tray.now ∧
    (t.die d).til = (s.die d).til ∧ ∀ e, e ≠ d → t.die e = s.die e := by
  change ∃ t, execHeatSurgeEnd d s = .next t ∧ _
  have surging : (s.die d).heat.surgeAt.isNone = false := by rw [← Option.not_isSome, surges]; rfl
  unfold execHeatSurgeEnd
  simp only [surging, Bool.false_eq_true, if_false]
  refine ⟨_, rfl, ?_⟩
  generalize ended : (s.advanceTo ((s.die d).heat.surgeLast + 1000000)).modHeat d (fun h => { h with surgeAt := none }) = u
  have die : u.die d = { s.die d with heat := { (s.die d).heat with surgeAt := none } } := by
    rw [← ended, State.modHeat, State.modDie_die, State.advanceTo_die]
  have others (e : DieId) (other : e ≠ d) : u.die e = s.die e := by
    rw [← ended, State.modHeat, State.modDie_die_ne _ _ _ _ other, State.advanceTo_die]
  have now : (s.die d).heat.surgeLast + 1000000 ≤ u.tray.now := by
    rw [← ended]
    exact State.advanceTo_now ..
  have heat := u.heat_fab d 2
  have free := (u.heat d 2).releaseEmergency_steered d
  refine ⟨?_, ?_, ?_, fun e other => ?_⟩
  · rw [free.die, heat.die, die]
  · rw [free.now, State.heat_now]
    exact now
  · rw [free.die, heat.die, die]
  · rw [free.others e other, heat.others e other, others e other]

theorem does_surgeTimeout {a : Ns} (surges : (s.die d).heat.surgeAt = some a) (free : (s.die d).heat.flowLoss = .none)
    (on : (s.die d).rails.vsram = true) (runs : (s.die d).svc.state = .running) : Does (.surgeTimeout d) s fun t =>
      (t.die d).heat.flowLoss = .local ∧ (t.die d).heat.surgeAt = none ∧ (t.die d).rails.vcore = false ∧
      (t.die d).rails.retention = true ∧ (t.die d).svc.state = .flowHalt ∧ a + 5000000 ≤ t.tray.now := by
  change ∃ t, execSurgeTimeout d s = .next t ∧ _
  unfold execSurgeTimeout
  rw [surges]
  obtain ⟨halted, now⟩ := (s.advanceTo (a + 5000000)).assertFlow_halts d .local free on runs
  refine ⟨_, rfl, halted.kind, halted.surge, halted.vcore, halted.retention, halted.state, ?_⟩
  rw [now]
  exact State.advanceTo_now ..

theorem does_flowLossAssert (lost : (if loopB d then s.tray.cool.lostB else s.tray.cool.lostA) = true)
    (free : (s.die d).heat.flowLoss = .none) (on : (s.die d).rails.vsram = true) (runs : (s.die d).svc.state = .running) :
    Does (.flowLossAssert d) s fun t =>
      (t.die d).heat.flowLoss = .loop ∧ (t.die d).heat.flowLossAt = s.tray.now ∧ (t.die d).rails.vcore = false ∧
      (t.die d).rails.retention = true ∧ (t.die d).svc.state = .flowHalt := by
  change ∃ t, execFlowLossAssert d s = .next t ∧ _
  unfold execFlowLossAssert
  rw [if_pos lost]
  obtain ⟨halted, -⟩ := s.assertFlow_halts d .loop free on runs
  exact ⟨_, rfl, halted.kind, halted.since, halted.vcore, halted.retention, halted.state⟩

/-! ### After FLOW_LOSS (R180, R181) -/

theorem State.railsOff_now (keepVio : Bool) (status : Nat) : (s.railsOff d keepVio status).tray.now = s.tray.now :=
  congrArg Tray.now (s.failResidents_endsWork d status).tray

theorem does_flowLossPowerOff (lost : (s.die d).heat.flowLoss ≠ .none) (on : (s.die d).heat.flowOff = false)
    (free : (s.die d).heat.latched = false) (cool : (s.die d).heat.tripped = false) : Does (.flowLossPowerOff d) s fun t =>
      (t.die d).heat.flowOff = true ∧ (t.die d).svc.state = .off ∧ (t.die d).rails.vio = false ∧
      (t.die d).rails.vsram = false ∧ (t.die d).rails.vcore = false ∧ (t.die d).til.sram = [] ∧
      (s.die d).heat.flowLossAt + 30000000000 ≤ t.tray.now := by
  change ∃ t, execFlowLossPowerOff d s = .next t ∧ _
  unfold execFlowLossPowerOff
  simp only [lost, on, Bool.false_eq_true, or_self, if_false]
  have heard := (s.advanceTo ((s.die d).heat.flowLossAt + 30000000000)).heat_heatStays d 9
  have gone := ((s.advanceTo ((s.die d).heat.flowLossAt + 30000000000)).heat d 9).railsOff_gone d false stDiePoweredOff
  have heat : ((((s.advanceTo ((s.die d).heat.flowLossAt + 30000000000)).heat d 9).railsOff d false stDiePoweredOff).die d).heat =
      (s.die d).heat := by
    rw [gone.heat, heard.heat, State.advanceTo_die]
  refine ⟨_, rfl, ?_⟩
  rw [State.modDie_die, State.modDie_tray, State.railsOff_now, heard.now]
  generalize (((s.advanceTo ((s.die d).heat.flowLossAt + 30000000000)).heat d 9).railsOff d false stDiePoweredOff).die d = y
    at gone heat ⊢
  refine ⟨rfl, ?_, gone.vio, gone.vsram, gone.vcore, gone.sram, State.advanceTo_now ..⟩
  dsimp only
  rw [heat, free, cool]
  rfl

theorem does_flowLossRelease {b : Ns} (lost : (s.die d).heat.flowLoss = .local) (on : (s.die d).heat.flowOff = false)
    (halted : (s.die d).svc.state = .flowHalt) (awake : (s.die d).heat.wasFrozen = false)
    (good : (if loopB d then s.tray.cool.goodB else s.tray.cool.goodA).isSome = true) (band : (s.die d).heat.bandSince = some b)
    (cool : (s.die d).nearBand (s.dset d 0x2300 1) (s.dset d 0x2300 4) = false) (alert : (s.die d).op.alertHalt = false)
    (refs : (s.die d).clk.refsLostHalt = false) : Does (.flowLossRelease d) s fun t =>
      (t.die d).heat.flowLoss = .none ∧ (t.die d).rails.retention = false ∧ (t.die d).rails.vcore = true ∧
      (t.die d).svc.state = .running ∧ (t.die d).til.sram = (s.die d).til.sram ∧ b + 1000000000 ≤ t.tray.now := by
  change ∃ t, execFlowLossRelease d s = .next t ∧ _
  unfold execFlowLossRelease
  have kept : (FlowLoss.local = .loop) = False := eq_false (fun h => nomatch h)
  have loss : (FlowLoss.local = .none) = False := eq_false (fun h => nomatch h)
  simp only [lost, kept, loss, good, band, cool, if_true, if_false, List.all_cons, List.all_nil, Bool.not_false, Bool.and_true,
    Bool.not_true, Bool.false_eq_true, or_self]
  generalize freed : ((((s.advanceTo (b + 1000000000)).modTray _).modHeat d _).heat d 5) = u
  have heat : (u.die d).heat = { (s.die d).heat with flowLoss := .none } ∧ (u.die d).svc = (s.die d).svc ∧
      (u.die d).til = (s.die d).til ∧ (u.die d).op = (s.die d).op ∧ (u.die d).clk = (s.die d).clk ∧
      b + 1000000000 ≤ u.tray.now := by
    rw [← freed, State.heat_now, (State.heat_fab ..).die, State.modHeat, State.modDie_die]
    refine ⟨rfl, rfl, rfl, rfl, rfl, ?_⟩
    exact State.advanceTo_now ..
  obtain ⟨heat, svc, til, op, clk, now⟩ := heat
  simp only [on, halted, awake, Bool.false_eq_true, ne_eq, not_true_eq_false, or_self, if_false]
  refine ⟨_, rfl, ?_⟩
  rw [(State.portsBack_ports _ d).die, (State.portsBack_ports _ d).tray, State.modDie_die]
  refine ⟨?_, ?_, rfl, rfl, ?_, now⟩
  · dsimp only
    rw [heat]
  · dsimp only [Die.heldInRetention]
    rw [heat, op, clk, alert, refs]
    rfl
  · dsimp only
    rw [til]

end

end Sys2Proof.Machine
end

section
/-! The coolant loops: samples of their flow, valves and alarms (7.6, Table 07.5). -/

namespace Sys2Proof.Machine
open Sys2Proof

/-! ### Samples of a loop's flow (R176) -/

/-- How many samples in a row were below 40 % of the nominal flow of a loop. -/
def Coolant.low (c : Coolant) (b : Bool) : Nat := if b then c.lowB else c.lowA

/-- One sample of 1 ms. -/
def State.flowSampled (b : Bool) (nom : Nat) (s : State) (f : Nat) : State :=
  (s.advanceTo (s.tray.now + 1000000)).modTray fun y => { y with cool := y.cool.flowSample b nom f y.now }

/-- Samples of 1 ms move only the time, the flows and how long they have been low or good. -/
structure FlowsSampled (n : Nat) (s t : State) : Prop where
  rest : t = { s with tray := { s.tray with now := s.tray.now + 1000000 * n, cool := { s.tray.cool with
    flowA := t.tray.cool.flowA, flowB := t.tray.cool.flowB, lowA := t.tray.cool.lowA, lowB := t.tray.cool.lowB
    goodA := t.tray.cool.goodA, goodB := t.tray.cool.goodB } } }

theorem State.flowSampled_one (b : Bool) (nom f : Nat) (s : State) : FlowsSampled 1 s (State.flowSampled b nom s f) := by
  have later : max s.tray.now (s.tray.now + 1000000) = s.tray.now + 1000000 * 1 := Nat.max_eq_right (Nat.le_add_right ..)
  constructor
  unfold State.flowSampled State.advanceTo State.modTray Coolant.flowSample
  dsimp only
  rw [later]
  cases b
  · rfl
  · rfl

theorem FlowsSampled.trans {n m : Nat} {s t u : State} (h : FlowsSampled n s t) (k : FlowsSampled m t u) :
    FlowsSampled (n + m) s u := by
  have total : s.tray.now + 1000000 * (n + m) = s.tray.now + 1000000 * n + 1000000 * m := by
    rw [Nat.mul_add]
    exact (Nat.add_assoc ..).symm
  constructor
  have a := h.rest
  have b := k.rest
  rw [b, a, total]

theorem State.flowSampled_low {b : Bool} {nom f : Nat} (low : f * 5 < nom) (s : State) :
    (State.flowSampled b nom s f).tray.cool.low b = s.tray.cool.low b + 1 := by
  unfold State.flowSampled State.advanceTo State.modTray Coolant.flowSample Coolant.low
  cases b <;> simp [low]

theorem State.flowSampled_foldl {b : Bool} {nom : Nat} {flows : List Nat} (s : State) (low : ∀ f ∈ flows, f * 5 < nom) :
    FlowsSampled flows.length s (flows.foldl (State.flowSampled b nom) s) ∧
      (flows.foldl (State.flowSampled b nom) s).tray.cool.low b = s.tray.cool.low b + flows.length := by
  induction flows generalizing s with
  | nil => exact ⟨⟨rfl⟩, rfl⟩
  | cons f fs ih =>
    obtain ⟨rest, count⟩ := ih (State.flowSampled b nom s f) fun g mem => low g (List.mem_cons_of_mem _ mem)
    have one := State.flowSampled_one b nom f s
    refine ⟨?_, ?_⟩
    · rw [List.length_cons, Nat.add_comm]
      exact one.trans rest
    · rw [List.foldl_cons, count, State.flowSampled_low (low f List.mem_cons_self), List.length_cons]
      omega

/-- The loss of a loop, declared: it counts, its alarm is raised. -/
def State.loopLost (s : State) (b : Bool) : State :=
  (s.modTray fun y => { y with cool := { y.cool with
    lostA := y.cool.lostA || !b, lostB := y.cool.lostB || b, losses := satAdd 32 y.cool.losses 1
    alarms := s.tray.cool.alarms ||| BitVec.twoPow 16 (b2n b), absent := y.cool.absent.filter fun p => p.1 != b2n b } }).logTray
      0x1301 (leBytes 2 (s.tray.cool.alarms ||| BitVec.twoPow 16 (b2n b)).toNat)

/-- Whether the loss of a loop may be declared: it is not, and its flow sensor works. -/
def Coolant.watched (c : Coolant) (b : Bool) : Prop :=
  if b then c.lostB = false ∧ c.sensorFailB = false else c.lostA = false ∧ c.sensorFailA = false

theorem execLoopLossDeclare_eq (b : Bool) (flows : List Nat) (s : State) :
    let t := flows.foldl (State.flowSampled b (s.setting 0x1300 1 0xF)) s
    (t.tray.cool.low b < 200 → exec (.loopLossDeclare b flows) s = .next t) ∧
    (t.tray.cool.watched b → 200 ≤ t.tray.cool.low b → exec (.loopLossDeclare b flows) s = .next (t.loopLost b)) := by
  intro t
  refine ⟨fun few => ?_, fun watched many => ?_⟩
  · change execLoopLossDeclare b flows s = _
    unfold execLoopLossDeclare
    refine if_pos ?_
    change (if b then t.tray.cool.lostB || t.tray.cool.sensorFailB || decide (t.tray.cool.lowB < 200)
      else t.tray.cool.lostA || t.tray.cool.sensorFailA || decide (t.tray.cool.lowA < 200)) = true
    cases b
    · exact Bool.or_eq_true_iff.mpr (.inr (decide_eq_true few))
    · exact Bool.or_eq_true_iff.mpr (.inr (decide_eq_true few))
  · change execLoopLossDeclare b flows s = _
    unfold execLoopLossDeclare
    refine if_neg ?_
    change ¬ (if b then t.tray.cool.lostB || t.tray.cool.sensorFailB || decide (t.tray.cool.lowB < 200)
      else t.tray.cool.lostA || t.tray.cool.sensorFailA || decide (t.tray.cool.lowA < 200)) = true
    cases b
    · obtain ⟨lost, fails⟩ : t.tray.cool.lostA = false ∧ t.tray.cool.sensorFailA = false := watched
      have many : 200 ≤ t.tray.cool.lowA := many
      simp [lost, fails, many]
    · obtain ⟨lost, fails⟩ : t.tray.cool.lostB = false ∧ t.tray.cool.sensorFailB = false := watched
      have many : 200 ≤ t.tray.cool.lowB := many
      simp [lost, fails, many]

theorem State.loopLost_spec (s : State) (b : Bool) :
    (s.loopLost b).tray.cool = { s.tray.cool with
      lostA := s.tray.cool.lostA || !b, lostB := s.tray.cool.lostB || b, losses := satAdd 32 s.tray.cool.losses 1
      alarms := s.tray.cool.alarms ||| BitVec.twoPow 16 (b2n b)
      absent := s.tray.cool.absent.filter fun p => p.1 != b2n b } ∧
    (s.loopLost b).tray.now = s.tray.now ∧ TrayOnly s (s.loopLost b) ∧
    Reported (s.loopLost b) s 0xF 0x1301 (leBytes 2 (s.tray.cool.alarms ||| BitVec.twoPow 16 (b2n b)).toNat) := by
  refine ⟨?_, ?_, ?_, fun idle => State.log_reported _ _ _ _ idle⟩ <;> unfold State.loopLost State.logTray
  · rw [State.log_rest]
    rfl
  · rw [State.log_now]
    rfl
  · unfold TrayOnly
    rw [State.log_rest]
    rfl

/-- What samples that all lie below 40 % do to a watched loop. -/
structure LoopSampled (b : Bool) (n : Nat) (s t : State) : Prop where
  tray : TrayOnly s t
  now : t.tray.now = s.tray.now + 1000000 * n
  low : t.tray.cool.low b = s.tray.cool.low b + n
  few : s.tray.cool.low b + n < 200 → t.tray.cool.lostA = s.tray.cool.lostA ∧ t.tray.cool.lostB = s.tray.cool.lostB ∧
    t.tray.cool.losses = s.tray.cool.losses
  many : 200 ≤ s.tray.cool.low b + n → t.tray.cool.lostA = (s.tray.cool.lostA || !b) ∧
    t.tray.cool.lostB = (s.tray.cool.lostB || b) ∧ t.tray.cool.losses = satAdd 32 s.tray.cool.losses 1 ∧
    t.tray.cool.alarms = s.tray.cool.alarms ||| BitVec.twoPow 16 (b2n b) ∧
    Reported t s 0xF 0x1301 (leBytes 2 (s.tray.cool.alarms ||| BitVec.twoPow 16 (b2n b)).toNat)

theorem does_loopLossDeclare_low {b : Bool} {flows : List Nat} {s : State} (watched : s.tray.cool.watched b)
    (low : ∀ f ∈ flows, f * 5 < s.setting 0x1300 1 0xF) : Does (.loopLossDeclare b flows) s (LoopSampled b flows.length s) := by
  obtain ⟨stays, lost⟩ := execLoopLossDeclare_eq b flows s
  obtain ⟨sampled, count⟩ := State.flowSampled_foldl (b := b) s low
  generalize flows.foldl (State.flowSampled b (s.setting 0x1300 1 0xF)) s = t at stays lost sampled count
  have rest := sampled.rest
  have same : t.tray.cool.lostA = s.tray.cool.lostA ∧ t.tray.cool.lostB = s.tray.cool.lostB ∧
      t.tray.cool.losses = s.tray.cool.losses ∧ t.tray.cool.alarms = s.tray.cool.alarms ∧
      t.tray.cool.sensorFailA = s.tray.cool.sensorFailA ∧ t.tray.cool.sensorFailB = s.tray.cool.sensorFailB ∧
      t.tray.fw = s.tray.fw := by
    rw [rest]
    exact ⟨rfl, rfl, rfl, rfl, rfl, rfl, rfl⟩
  obtain ⟨lostA, lostB, losses, alarms, failA, failB, fw⟩ := same
  have tray : TrayOnly s t := by
    unfold TrayOnly
    rw [rest]
  have now : t.tray.now = s.tray.now + 1000000 * flows.length := by rw [rest]
  by_cases few : s.tray.cool.low b + flows.length < 200
  · exact ⟨t, stays (count ▸ few), tray, now, count, fun _ => ⟨lostA, lostB, losses⟩, fun many => absurd few (Nat.not_lt.mpr many)⟩
  · have watched : t.tray.cool.watched b := by
      unfold Coolant.watched
      rw [lostA, lostB, failA, failB]
      exact watched
    obtain ⟨cool, later, gone, told⟩ := t.loopLost_spec b
    rw [lostA, lostB, losses, alarms] at cool
    rw [alarms] at told
    refine ⟨_, lost watched (count ▸ Nat.not_lt.mp few), ?_, later.trans now, ?_, fun h => absurd h few, fun _ => ?_⟩
    · unfold TrayOnly at *
      rw [gone, tray]
    · rw [cool, ← count]
      rfl
    · rw [cool]
      exact ⟨rfl, rfl, rfl, rfl, fun idle => told (by rw [fw]; exact idle)⟩

theorem does_loopLossDeclare_good {b : Bool} {f : Nat} {s : State} (good : s.setting 0x1300 1 0xF ≤ f * 5) :
    Does (.loopLossDeclare b [f]) s fun t =>
      (if b then t.tray.cool.lowB else t.tray.cool.lowA) = 0 ∧ t.tray.cool.lostA = s.tray.cool.lostA ∧
      t.tray.cool.lostB = s.tray.cool.lostB ∧ TrayOnly s t := by
  have none : (State.flowSampled b (s.setting 0x1300 1 0xF) s f).tray.cool.low b = 0 := by
    unfold State.flowSampled State.advanceTo State.modTray Coolant.flowSample Coolant.low
    cases b <;> simp [Nat.not_lt.mpr good]
  have rest := (State.flowSampled_one b (s.setting 0x1300 1 0xF) f s).rest
  obtain ⟨stays, -⟩ := execLoopLossDeclare_eq b [f] s
  refine ⟨_, stays ?_, none, ?_, ?_, ?_⟩
  · exact none ▸ Nat.succ_pos _
  · exact congrArg (fun u => u.tray.cool.lostA) rest
  · exact congrArg (fun u => u.tray.cool.lostB) rest
  · change TrayOnly s (State.flowSampled b (s.setting 0x1300 1 0xF) s f)
    unfold TrayOnly
    rw [rest]

/-! ### Valves (R179) -/

theorem does_valveTrim_lost {s : State} (lost : s.tray.cool.lostA = true ∨ s.tray.cool.lostB = true) : Does .valveTrim s fun t =>
    t = { s with tray := { s.tray with cool := { s.tray.cool with valveA := 100, valveB := 100 } } } := by
  change ∃ t, execValveTrim s = .next t ∧ _
  unfold execValveTrim
  exact ⟨_, if_pos lost, rfl⟩

theorem does_valveTrim_hotA {s : State} {a b : Int} (good : s.tray.cool.lostA = false ∧ s.tray.cool.lostB = false)
    (meanA : s.loopMean false = some a) (meanB : s.loopMean true = some b) (hotter : 128 < a - b) : Does .valveTrim s fun t =>
      t = { s with tray := { s.tray with cool := { s.tray.cool with
        valveA := min 100 (s.tray.cool.valveA + 1), valveB := max 70 (s.tray.cool.valveB - 1) } } } := by
  change ∃ t, execValveTrim s = .next t ∧ _
  have far : ¬ (a - b).natAbs ≤ 128 := by omega
  have order : b < a := by omega
  unfold execValveTrim
  rw [if_neg (by simp [good])]
  simp only [meanA, meanB, far, order, if_true, if_false]
  exact ⟨_, rfl, rfl⟩

/-! ### Alarms (R182, Table 07.5) -/

/-- A word made of its bits reads each bit back. -/
theorem Nat.testBit_sum_bits (on : Nat → Bool) (n i : Nat) :
    (((List.range n).map fun k => if on k then 2 ^ k else 0).sum).testBit i = (decide (i < n) && on i) ∧
      ((List.range n).map fun k => if on k then 2 ^ k else 0).sum < 2 ^ n := by
  induction n with
  | zero => simp
  | succ n ih =>
    obtain ⟨bits, below⟩ := ih
    rw [List.range_succ, List.map_append, List.sum_append, List.map_singleton, List.sum_singleton]
    generalize ((List.range n).map fun k => if on k then 2 ^ k else 0).sum = w at bits below
    have double : 2 ^ (n + 1) = 2 ^ n + 2 ^ n := by omega
    cases set : on n
    · refine ⟨?_, ?_⟩
      · rw [if_neg (by simp), Nat.add_zero, bits]
        by_cases top : i = n
        · simp [top, set]
        · congr 1
          exact decide_eq_decide.mpr (by omega)
      · simp only [Bool.false_eq_true, if_false]
        omega
    · refine ⟨?_, ?_⟩
      · rw [if_pos rfl, Nat.add_comm]
        rcases Nat.lt_trichotomy i n with low | top | high
        · rw [Nat.testBit_two_pow_add_gt low, bits, decide_eq_true low, decide_eq_true (Nat.lt_succ_of_lt low)]
        · rw [top, Nat.testBit_two_pow_add_eq, Nat.testBit_lt_two_pow below, set, decide_eq_true (Nat.lt_succ_self n)]
          rfl
        · have beyond : 2 ^ n + w < 2 ^ i :=
            Nat.lt_of_lt_of_le (by omega) (Nat.pow_le_pow_right (by decide) (show n + 1 ≤ i from high))
          rw [Nat.testBit_lt_two_pow beyond, decide_eq_false (by omega)]
          rfl
      · simp only [if_true]
        omega


/-- Shares cut anew change the dies alone. -/
theorem State.cutShares_dies (s : State) : s.cutShares = { s with dies := s.cutShares.dies } := by
  obtain ⟨frame, -⟩ := State.forDies_die (R := fun s t => t = { s with dies := t.dies }) (fun _ => rfl)
    (fun _ _ _ h k => by rw [k, h])
    (f := fun u d => (u.modDie d fun x => { x with pow := { x.pow with
      share := (s.sharesBy fun e => (s.die e).clk.curStep).getD d.val 0 } }).scaleBudgets d)
    (fun _ _ => rfl) (fun u d e he => ((u.modDie_only d _).trans (State.scaleBudgets_only ..)).others e he) s
  exact frame

/-- The cap formed anew changes the tray, and the dies only where it falls. -/
theorem State.recap_spec (s : State) : s.recap = { s with dies := s.recap.dies, tray := s.recap.tray } ∧
    s.recap.tray.cool = s.tray.cool ∧ (s.recap.tray.pow.effCap = s.tray.pow.effCap → TrayOnly s s.recap) := by
  have tray : TrayOnly s s.updateCap := rfl
  have cool : s.updateCap.tray.cool = s.tray.cool := rfl
  unfold State.recap
  dsimp only
  split
  · next falls =>
    have dies := State.cutShares_dies s.updateCap
    refine ⟨?_, ?_, fun same => ?_⟩
    · rw [dies, tray]
    · rw [dies, cool]
    · rw [s.updateCap.cutShares_spec.1] at same
      exact absurd same (Nat.ne_of_lt falls)
  · exact ⟨by rw [tray], cool, fun _ => tray⟩

/-- The alarm word a coolant update sets: a condition that holds has its bit. -/
theorem does_coolantAlarmUpdate {s : State} {inlet : Int} {fa fb : Nat} {stuckA stuckB : Bool} :
    Does (.coolantAlarmUpdate inlet fa fb stuckA stuckB) s fun t =>
      t.tray.cool.inlet = inlet ∧ t.tray.cool.flowA = fa ∧ t.tray.cool.flowB = fb ∧
      (640 < inlet → inlet ≤ 720 → t.tray.cool.alarms.getLsbD 3 = true) ∧
      (720 < inlet → t.tray.cool.alarms.getLsbD 4 = true) ∧ (inlet < 240 → t.tray.cool.alarms.getLsbD 5 = true) ∧
      (fa + fb < 100 → t.tray.cool.alarms.getLsbD 2 = true) ∧
      t.tray.cool.lostA = s.tray.cool.lostA ∧ t.tray.cool.lostB = s.tray.cool.lostB ∧
      t = { s with dies := t.dies, tray := t.tray } ∧ (t.tray.pow.effCap = s.tray.pow.effCap → TrayOnly s t) := by
  change ∃ t, execCoolantAlarmUpdate inlet fa fb stuckA stuckB s = .next t ∧ _
  unfold execCoolantAlarmUpdate
  extract_lets c now busy cs absent on w nom good s1 s2
  have bit (i : Nat) (inside : i < 10) (holds : cs.getD i false = true) : w.getLsbD i = true := by
    have raised : on i = true := by
      unfold on
      rw [holds, Bool.true_or]
    unfold w
    rw [BitVec.getLsbD_ofNat, (Nat.testBit_sum_bits on 10 i).1, raised, decide_eq_true inside, decide_eq_true (by omega)]
    rfl
  have tray2 : TrayOnly s s2 ∧ s2.tray.cool = s1.tray.cool ∧ s2.tray.pow = s.tray.pow := by
    unfold s2
    split
    · exact ⟨rfl, rfl, rfl⟩
    · unfold State.logTray TrayOnly
      rw [State.log_rest]
      exact ⟨rfl, rfl, rfl⟩
  obtain ⟨tray2, cool2, pow2⟩ := tray2
  have cool : s2.tray.cool.inlet = inlet ∧ s2.tray.cool.flowA = fa ∧ s2.tray.cool.flowB = fb ∧ s2.tray.cool.alarms = w ∧
      s2.tray.cool.lostA = s.tray.cool.lostA ∧ s2.tray.cool.lostB = s.tray.cool.lostB := by
    rw [cool2]
    exact ⟨rfl, rfl, rfl, rfl, rfl, rfl⟩
  obtain ⟨inletIs, flowA, flowB, alarms, lostA, lostB⟩ := cool
  have capped : ∃ t, (if c.inletFail = cs.getD 8 false then s2 else s2.recap) = t ∧ t = { s2 with dies := t.dies, tray := t.tray } ∧
      t.tray.cool = s2.tray.cool ∧ (t.tray.pow.effCap = s2.tray.pow.effCap → TrayOnly s2 t) := by
    clear_value s2
    refine ⟨_, rfl, ?_⟩
    split
    · exact ⟨rfl, rfl, fun _ => rfl⟩
    · exact s2.recap_spec
  obtain ⟨t, ended, rest, same, only⟩ := capped
  refine ⟨t, congrArg _ ended, ?_⟩
  rw [same, pow2] at *
  rw [alarms]
  refine ⟨inletIs, flowA, flowB, fun warm mild => bit 3 (by decide) (decide_eq_true ⟨warm, mild⟩),
    fun hot => bit 4 (by decide) (decide_eq_true hot), fun cold => bit 5 (by decide) (decide_eq_true cold),
    fun little => bit 2 (by decide) (decide_eq_true little), lostA, lostB, ?_, fun kept => ?_⟩
  · rw [rest, tray2]
  · have t2 := only kept
    unfold TrayOnly at *
    rw [t2, tray2]

end Sys2Proof.Machine

namespace Sys2Proof
open Sys2Proof.Machine

/-- Settles O18: the frames of FLOW_LOSS, the run of low samples by induction over them, and the alarm word bit by bit. -/
theorem surgeAndCoolant : Obligations.SurgeAndCoolant := by
  refine ⟨fun s d => does_heatSurgeEnd s d, fun s d a => does_surgeTimeout s d, fun s d => does_flowLossAssert s d,
    fun s d => does_flowLossPowerOff s d, fun s d b => does_flowLossRelease s d, fun s flows on works low _ => ?_,
    fun s flows on works low _ => ?_, fun s b f => does_loopLossDeclare_good, fun s => does_valveTrim_lost,
    fun s a b onA onB => does_valveTrim_hotA ⟨onA, onB⟩, fun s inlet fa fb stuckA stuckB => does_coolantAlarmUpdate⟩
  · refine (does_loopLossDeclare_low (b := false) ⟨on, works⟩ low).imp fun t done => ?_
    have lostB : t.tray.cool.lostB = s.tray.cool.lostB := by
      by_cases few : s.tray.cool.low false + flows.length < 200
      · exact (done.few few).2.1
      · rw [(done.many (Nat.not_lt.mp few)).2.1, Bool.or_false]
    refine ⟨done.now, done.low, lostB, done.tray, fun few => ?_, fun many => ?_⟩
    · obtain ⟨lostA, -, losses⟩ := done.few few
      exact ⟨lostA.trans on, losses⟩
    · obtain ⟨lostA, -, losses, alarms, told⟩ := done.many many
      exact ⟨lostA.trans (Bool.or_true _), losses, alarms, told⟩
  · refine (does_loopLossDeclare_low (b := true) ⟨on, works⟩ low).imp fun t done => ?_
    have lostA : t.tray.cool.lostA = s.tray.cool.lostA := by
      by_cases few : s.tray.cool.low true + flows.length < 200
      · exact (done.few few).1
      · rw [(done.many (Nat.not_lt.mp few)).1, Bool.not_true, Bool.or_false]
    refine ⟨done.low, lostA, done.tray, fun few => (done.few few).2.1.trans on, fun many => ?_⟩
    obtain ⟨-, lostB, -, alarms, -⟩ := done.many many
    exact ⟨lostB.trans (Bool.or_true _), alarms⟩

end Sys2Proof
end

section
/-! The estimator's stored set (9.2). -/

namespace Sys2Proof
open Sys2Proof.Machine

/-- Refutes O22: right after reset a die has no coefficients of its own, and the store keeps none, where the statement has it
store the empty list. -/
theorem not_energyEstimator : ¬ Obligations.EnergyEstimator := by
  intro holds
  obtain ⟨-, -, -, -, -, -, -, -, stores⟩ := holds
  obtain ⟨t, kept, ends⟩ := (stores State.reset).seen (test := fun t => decide ((t.die 0).nrg.stored = none)) (by decide +kernel)
  obtain ⟨stored, -⟩ := ends 0
  rw [stored] at kept
  exact absurd kept (by decide)

end Sys2Proof
end

section
/-! Leaving and joining a group (8.6), and lending (8.7). -/

namespace Sys2Proof.Machine
open Sys2Proof

section
variable (s : State) (d : DieId)

/-! ### What sending upward leaves of a die's part of the group (R187) -/

/-- Of die d's part of the group only the records that wait for an answer changed. -/
structure SentUp (d : DieId) (s t : State) : Prop where
  rest : Urged d s t
  mer : (t.die d).mer = { (s.die d).mer with unacked := (t.die d).mer.unacked, recNo := (t.die d).mer.recNo }
  til : (t.die d).til = (s.die d).til
  leg : t.tray = s.tray

theorem State.sendUp_sent (k ty src : Nat) (body : List Byte) : SentUp d s (s.sendUp d k ty src body) := by
  have urged := s.sendUp_urged d k ty src body
  refine ⟨urged, ?_, by rw [urged.die], by rw [urged.rest]⟩
  unfold State.sendUp
  dsimp only
  split
  · rfl
  · rw [State.modDie_die]
    dsimp only
    rw [(State.sendFor_ports ..).mer]

/-- A leave that a member takes: a root lists it, another one passes it on. -/
theorem State.passLeave_sent (cause id : Nat) :
    Urged d s (s.passLeave d cause id) ∧
    (∃ leaves unacked recNo, ((s.passLeave d cause id).die d).mer =
      { (s.die d).mer with leaves := leaves, unacked := unacked, recNo := recNo } ∧
      ((s.die d).mer.root = true → id ∈ leaves)) := by
  unfold State.passLeave
  dsimp only
  split
  · refine ⟨State.modDie_urged _ _ _ fun _ => rfl, _, _, _, by rw [State.modDie_die], fun _ => ?_⟩
    split
    · next known => exact List.contains_iff_mem.mp known
    · exact List.mem_append_right _ (List.mem_singleton.mpr rfl)
  · next low =>
    have sent := s.sendUp_sent d 1 0x04 id (leaveBody cause id)
    exact ⟨sent.rest, _, _, _, sent.mer, fun root => absurd (.inl root) low⟩

/-- What its LEAVE leaves of a member. -/
structure Leaves (d : DieId) (s t : State) : Prop where
  rest : Urged d s t
  mer : ∃ leaves unacked recNo, (t.die d).mer = { (s.die d).mer with
    leaving := true, proposal := some 0x10, leaves := leaves, unacked := unacked, recNo := recNo } ∧
    ((s.die d).mer.root = true → s.identity d ∈ leaves)

theorem State.sendLeave_leaves (cause : Nat) (member : (s.die d).mer.member = true) (stays : (s.die d).mer.leaving = false) :
    Leaves d s (s.sendLeave d cause) := by
  have rest := s.sendLeave_urged d cause
  refine ⟨rest, ?_⟩
  unfold State.sendLeave
  extract_lets m
  rw [if_neg (by simp [m, member, stays])]
  obtain ⟨-, leaves, unacked, recNo, mer, listed⟩ := State.passLeave_sent (s.modDie d fun x => { x with mer := { x.mer with
    leaving := true, proposal := some 0x10 } }) d cause (s.identity d)
  rw [State.modDie_die] at mer listed
  dsimp only at mer listed
  exact ⟨leaves, unacked, recNo, mer, listed⟩

/-! ### Leaving (R186, R200) -/

theorem Urged.tray {d : DieId} {s t : State} (h : Urged d s t) : t.tray = s.tray := by rw [h.rest]

theorem Urged.acts {d : DieId} {s t : State} (h : Urged d s t) : DieActs d s t := h.toDieSends.acts

theorem does_leaveSend {cause : Nat} (own : cause ≠ 6) (member : (s.die d).mer.member = true)
    (stays : (s.die d).mer.leaving = false) : Does (.leaveSend d cause) s fun t =>
      (t.die d).mer.leaving = true ∧ (t.die d).mer.proposal = some 0x10 ∧ (t.die d).mer.member = true ∧
      ((s.die d).mer.root = true → s.identity d ∈ (t.die d).mer.leaves) ∧
      (t.die d).til = (s.die d).til ∧ DieActs d s t := by
  change ∃ t, execLeaveSend d cause s = .next t ∧ _
  unfold execLeaveSend
  rw [if_neg own]
  obtain ⟨rest, leaves, unacked, recNo, mer, listed⟩ := s.sendLeave_leaves d cause member stays
  refine ⟨_, rfl, ?_⟩
  rw [mer]
  exact ⟨rfl, rfl, member, listed, by rw [rest.die], rest.acts⟩

theorem does_leaveReceive {id : Nat} (member : (s.die d).mer.member = true) (root : (s.die d).mer.root = true) :
    Does (.leaveReceive d id) s fun t =>
      id ∈ (t.die d).mer.leaves ∧ (t.die d).til = (s.die d).til ∧ DieActs d s t := by
  change ∃ t, execLeaveReceive d id s = .next t ∧ _
  unfold execLeaveReceive State.takeLeave
  rw [if_neg (by simp [member])]
  have acked := s.ackUp_ports d 0x04 id
  obtain ⟨rest, leaves, unacked, recNo, mer, listed⟩ := (s.ackUp d 0x04 id).passLeave_sent d 3 id
  have all := acked.urged.trans rest
  refine ⟨_, rfl, ?_, by rw [all.die], all.acts⟩
  rw [mer]
  exact listed (by rw [acked.mer, root])

end

theorem does_leaveGroup {s : State} {m : MasterId} {d : DieId} {v : Nat} (takes : GateTakes m ⟨0x2500, 0xE, d.val⟩ (leBytes 1 v) s)
    (member : (s.die d).mer.member = true) (stays : (s.die d).mer.leaving = false) : Does (.leaveGroup m d v) s fun t =>
      (t.die d).mer.leaving = true ∧ (t.die d).mer.proposal = some 0x10 ∧ (t.die d).mer.member = true ∧
      ∀ e, e ≠ d → t.die e = s.die e := by
  obtain ⟨rest, leaves, unacked, recNo, mer, -⟩ := s.atTick.sendLeave_leaves d 3 member stays
  refine does_gate_done takes rfl rfl ?_
  simp only [gateEnd_done_die, mer]
  exact ⟨trivial, trivial, member, rest.others⟩

/-- A write of the group number or identity of a member (R186). -/
theorem does_groupIdentityWrite {s : State} {m : MasterId} {d : DieId} {sub v : Nat} (known : sub = 1 ∨ sub = 2)
    (takes : GateTakes m ⟨0x2500, sub, d.val⟩ (leBytes 2 v) s) (member : (s.die d).mer.member = true)
    (stays : (s.die d).mer.leaving = false) : Does (.groupIdentityWrite m d sub v) s fun t =>
      t.setting 0x2500 sub d.val = v % 256 ^ 2 ∧ (t.die d).mer.leaving = true ∧
      t.groupNo d = s.groupNo d ∧ t.identity d = s.identity d ∧ ∀ e, e ≠ d → t.die e = s.die e := by
  have runs : exec (.groupIdentityWrite m d sub v) s =
      .next (s.gate m ⟨0x2500, sub, d.val⟩ (leBytes 2 v) fun s _ w => s.groupApply d sub (leNat w)) := if_pos known
  refine does_gate takes runs ?_
  unfold State.groupApply
  extract_lets x g id s1 s2
  rw [if_neg (by simp [x, member])]
  have kept : (s1.die d).mer = { (s.die d).mer with keptGroup := some g, keptId := some id } := by
    unfold s1 State.modMer
    rw [State.modDie_die]
    exact if_pos member
  obtain ⟨rest, leaves, unacked, recNo, mer, -⟩ := (s1.putSetting 0x2500 sub d.val (leNat (leBytes 2 v))).sendLeave_leaves d 4
    (by rw [State.putSetting_die, kept]; exact member) (by rw [State.putSetting_die, kept]; exact stays)
  rw [State.putSetting_die, kept] at mer
  have others (e : DieId) (other : e ≠ d) : s2.die e = s.die e := by
    rw [rest.others e other, State.putSetting_die]
    exact State.modDie_die_ne _ _ _ _ other
  have tray : s2.tray = (s1.putSetting 0x2500 sub d.val (leNat (leBytes 2 v))).tray := rest.tray
  have mer : (s2.die d).mer = _ := mer
  refine ⟨?_, ?_, ?_, ?_, fun e other => ?_⟩
  · rw [gateEnd_done_setting, State.setting_congr (congrArg Tray.leg tray) (congrArg (fun t => t.pow.slotLatched) tray),
      State.setting_putSetting, leNat_leBytes]
  · rw [gateEnd_done_die, mer]
  · rw [State.groupNo, gateEnd_done_die, mer]
    rfl
  · rw [State.identity, gateEnd_done_die, mer]
    rfl
  · rw [gateEnd_done_die]
    exact others e other

/-! ### Joining (R203 to R205) -/

section
variable (s : State) (d : DieId)

theorem does_joinSend {p : Nat} (port : s.joinPort d = some p) (may : (s.die d).mayJoin = true)
    (anew : (s.die d).mer.joinEpoch ≠ some (s.epoch d)) : Does (.joinSend d) s fun t =>
    (t.die d).mer.joining = true ∧ (t.die d).mer.joinEpoch = some (s.epoch d) ∧
    (t.die d).mer.joinSent =
      (if (s.die d).clk.timeValid = true ∧ s.inEpoch d ≤ 736000 then some (s.epoch d) else none) ∧
    (t.die d).til = (s.die d).til ∧ DieActs d s t := by
  change ∃ t, execJoinSend d s = .next t ∧ _
  unfold execJoinSend
  rw [port]
  dsimp only
  rw [if_neg (by simp [may, anew])]
  refine ⟨_, rfl, ?_⟩
  unfold State.modMer
  rw [State.modDie_die]
  refine ⟨rfl, rfl, ?_, (State.putRecord_ports ..).til, ?_⟩
  · simp only [Bool.and_eq_true, decide_eq_true_eq]
  · exact ((State.putRecord_ports ..).toDieSends.trans (State.modDie_only ..).sends).acts

theorem does_joinSend_again (sent : (s.die d).mer.joinEpoch = some (s.epoch d)) : Does (.joinSend d) s fun t => t = s := by
  change ∃ t, execJoinSend d s = .next t ∧ _
  unfold execJoinSend
  dsimp only
  split
  · exact ⟨s, rfl, rfl⟩
  · exact ⟨s, if_pos (.inr sent), rfl⟩

theorem does_joinReceive {id : Nat} {valid : Bool} (member : (s.die d).mer.member = true) (root : (s.die d).mer.root = true)
    (opened : (s.die d).mer.closed = false) (early : s.inEpoch d ≤ 768000) (free : id ∉ (s.die d).mer.members.map Member.id)
    (anew : id ∉ (s.die d).mer.joins) : Does (.joinReceive d id valid) s fun t =>
      (t.die d).mer.joins = (s.die d).mer.joins ++ (if valid then [id] else []) ∧
      (t.die d).til = (s.die d).til ∧ DieActs d s t := by
  change ∃ t, execJoinReceive d id valid s = .next t ∧ _
  unfold execJoinReceive State.takeJoin
  dsimp only
  have acked := s.ackRecord_ports d id 0x03 id (s.epoch d)
  rw [if_neg (by simp [member]), if_neg (by simp [root])]
  cases valid with
  | false =>
    rw [if_pos (by simp)]
    refine ⟨_, rfl, ?_, acked.til, acked.toDieSends.acts⟩
    rw [acked.mer]
    exact (List.append_nil _).symm
  | true =>
    rw [if_neg (by simp [opened, Nat.not_lt.mpr early, free, anew])]
    refine ⟨_, rfl, ?_⟩
    unfold State.modMer
    rw [State.modDie_die]
    refine ⟨?_, acked.til, (acked.toDieSends.trans (State.modDie_only ..).sends).acts⟩
    dsimp only
    rw [acked.mer]
    rfl

theorem does_selfRoot (may : (s.die d).mayJoin = true) (alone : 4 ≤ (s.die d).mer.soloEpochs) : Does (.selfRoot d) s fun t =>
    (t.die d).mer.member = true ∧ (t.die d).mer.root = true ∧ (t.die d).mer.groupStep = 15 ∧
    (t.die d).mer.members = [⟨s.identity d, none, 0⟩] ∧ (t.die d).clk.timeValid = true ∧
    (t.die d).til = (s.die d).til ∧ DieOnly d s t := by
  change ∃ t, execSelfRoot d s = .next t ∧ _
  unfold execSelfRoot
  dsimp only
  rw [if_neg (by simp [may, alone])]
  refine ⟨_, rfl, ?_⟩
  rw [State.modDie_die]
  exact ⟨rfl, rfl, rfl, rfl, rfl, rfl, State.modDie_only ..⟩

theorem does_rootMerge {root : Nat} (leads : (s.die d).mer.root = true) (lower : root < s.identity d)
    (free : (s.die d).mer.merging = false) : Does (.rootMerge d root) s fun t =>
      t.die d = { s.die d with mer := { (s.die d).mer with
        merging := true, leaves := (s.die d).mer.members.map Member.id, joins := [] } } ∧ DieOnly d s t := by
  change ∃ t, execRootMerge d root s = .next t ∧ _
  unfold execRootMerge State.meetRoot
  dsimp only
  rw [if_neg (by simp [leads, free, lower])]
  refine ⟨_, rfl, ?_⟩
  unfold State.modMer
  exact ⟨State.modDie_die .., State.modDie_only ..⟩

theorem does_rootMerge_higher {root : Nat} (higher : s.identity d ≤ root) : Does (.rootMerge d root) s fun t => t = s := by
  change ∃ t, execRootMerge d root s = .next t ∧ _
  unfold execRootMerge State.meetRoot
  exact ⟨_, congrArg _ (if_pos (.inr (.inl higher))), rfl⟩

end

end Sys2Proof.Machine

namespace Sys2Proof
open Sys2Proof.Machine

/-- Settles O20: each way out of a group sends one record up, which leaves the die's part of the group but for the leave itself. -/
theorem leaveAndJoin : Obligations.LeaveAndJoin := by
  refine ⟨fun s d cause => does_leaveSend s d, fun s d id => does_leaveReceive s d, fun s m d v => does_leaveGroup,
    fun s m d sub v => does_groupIdentityWrite, fun s d p => does_joinSend s d, fun s d => does_joinSend_again s d,
    fun s d id valid => does_joinReceive s d, fun s d => does_selfRoot s d, fun s d root => does_rootMerge s d,
    fun s d root _ => does_rootMerge_higher s d⟩

end Sys2Proof
end

section
/-! Lending of budget between the dies of a tray (8.7). -/

namespace Sys2Proof.Machine
open Sys2Proof

/-! ### Two changes of one die -/

theorem State.modDie_modDie (s : State) (d : DieId) (f g : Die → Die) :
    (s.modDie d f).modDie d g = s.modDie d fun x => g (f x) := by
  have first : (s.modDie d f).dies.get d = f (s.dies.get d) := s.modDie_die d f
  unfold State.modDie at *
  rw [first]
  exact congrArg (fun v => { s with dies := v }) (Vector.set_set ..)

theorem State.modDie_self {s : State} {d : DieId} {f : Die → Die} (same : f (s.die d) = s.die d) : s.modDie d f = s := by
  have stays : s.dies.set d.val (s.dies.get d) d.isLt = s.dies := Vector.set_getElem_self _
  unfold State.modDie
  rw [show f (s.dies.get d) = s.dies.get d from same, stays]

section
variable (s : State) (d : DieId)

/-! ### LEND (R206, R207) -/

theorem State.sendRecord_ports (ty dest : Nat) (body : List Byte) : PortsOnly d s (s.sendRecord d ty dest body) :=
  State.sendFor_ports ..

/-- With no other request waiting, a LEND is answered at once. -/
theorem execLend_eq {src : DieId} {amount epoch : Nat} (idle : (s.die d).mer.lendWait = []) :
    exec (.lend d src amount epoch) s = .next (s.grantLend d src amount epoch) := by
  change execLend d src amount epoch s = _
  have taken : ((s.takeLend d src amount epoch).die d).mer.lendWait = [(src.val, amount, epoch)] := by
    unfold State.takeLend State.modMer
    rw [State.modDie_die]
    dsimp only
    rw [idle]
    rfl
  have cleared : (s.takeLend d src amount epoch).modMer d (fun m => { m with lendWait := [] }) = s := by
    unfold State.takeLend State.modMer
    rw [State.modDie_modDie]
    refine State.modDie_self ?_
    dsimp only
    rw [← idle]
  unfold execLend State.serveLends
  rw [cleared, taken]
  change Host.Outcome.next (s.grantLend d (dieOf src.val) amount epoch) = _
  rw [dieOf_val]

theorem does_lend_refused {src : DieId} {amount epoch : Nat} (refused : s.lends d = false ∨ epoch ≠ s.epoch d)
    (idle : (s.die d).mer.lendWait = []) : Does (.lend d src amount epoch) s fun t =>
      (t.die d).mer.lent = (s.die d).mer.lent ∧ (t.die d).pow = (s.die d).pow ∧ DieActs d s t := by
  refine ⟨_, execLend_eq s d idle, ?_⟩
  have none : ¬ (s.lends d = true ∧ (s.die d).mer.lendOpen.isNone = true ∧ epoch = s.epoch d) := by
    rintro ⟨lends, -, now⟩
    rcases refused with no | late
    · rw [no] at lends
      cases lends
    · exact late now
  unfold State.grantLend
  dsimp only
  rw [if_neg none, if_pos rfl]
  have sent := s.sendRecord_ports d 0x19 (s.identity src) (loanBody 0 epoch)
  exact ⟨by rw [sent.die], by rw [sent.die], sent.toDieSends.acts⟩

theorem does_lend {src : DieId} {amount : Nat} (lends : s.lends d = true) (free : (s.die d).mer.lendOpen = none)
    (idle : (s.die d).mer.lendWait = []) (some : 0 < min amount (s.die d).spareMw) :
    Does (.lend d src amount (s.epoch d)) s fun t =>
      (t.die d).mer.lent = (s.die d).mer.lent ++ [⟨src.val, min amount (s.die d).spareMw, false⟩] ∧
      (t.die d).pow.budget = (s.die d).pow.budget - min amount (s.die d).spareMw ∧
      (t.die d).til.sram = (s.die d).til.sram ∧ DieActs d s t := by
  refine ⟨_, execLend_eq s d idle, ?_⟩
  unfold State.grantLend
  dsimp only
  have grants : s.lends d = true ∧ (s.die d).mer.lendOpen.isNone = true ∧ s.epoch d = s.epoch d := ⟨lends, by rw [free]; rfl, rfl⟩
  rw [if_pos grants, if_neg (Nat.ne_of_gt some)]
  unfold State.rescale State.modMer
  rw [State.modDie_modDie]
  refine ⟨?_, ?_, ?_, ((State.modDie_only ..).sends.trans (State.sendRecord_ports ..).toDieSends).acts⟩ <;>
    rw [(State.sendRecord_ports ..).die, State.modDie_die]

/-! ### GRANT, COMMIT and RELEASE (R206, R208) -/

/-- What asking the next die leaves of a die that borrows. -/
theorem State.askLend_asks : DieSends d s (s.askLend d) ∧ ((s.askLend d).die d).pow = (s.die d).pow ∧
    ((s.askLend d).die d).mer.borrowed = (s.die d).mer.borrowed ∧ ((s.askLend d).die d).til = (s.die d).til := by
  unfold State.askLend
  dsimp only
  split
  · exact ⟨⟨rfl, fun _ _ => rfl⟩, rfl, rfl, rfl⟩
  · split
    · exact ⟨⟨rfl, fun _ _ => rfl⟩, rfl, rfl, rfl⟩
    · unfold State.modMer
      refine ⟨(State.modDie_only ..).sends.trans (State.sendRecord_ports ..).toDieSends, ?_, ?_, ?_⟩ <;>
        rw [(State.sendRecord_ports ..).die, State.modDie_die]

theorem does_grant {src : DieId} {amount want : Nat} {at_ : Ns} (open_ : (s.die d).mer.lendOpen = some (src.val, want, at_))
    (inTime : s.tray.now ≤ at_ + 10000) : Does (.grant d src amount (s.epoch d)) s fun t =>
      (t.die d).pow.budget = (s.die d).pow.budget +
        min amount (min (s.die d).pow.pg 1300000 - (s.die d).pow.budget) ∧
      (t.die d).mer.borrowed = (s.die d).mer.borrowed +
        min amount (min (s.die d).pow.pg 1300000 - (s.die d).pow.budget) ∧
      (t.die d).til.sram = (s.die d).til.sram ∧ DieActs d s t := by
  change ∃ t, execGrant d src amount (s.epoch d) s = .next t ∧ _
  unfold execGrant State.takeGrant
  rw [open_]
  dsimp only
  rw [if_neg (by simp), if_neg (Nat.not_lt.mpr inTime)]
  unfold State.modMer
  rw [State.modDie_die, State.modDie_modDie]
  dsimp only
  refine ⟨_, rfl, ?_⟩
  generalize raised : s.modDie d _ = u
  have die : (u.die d).pow.budget = (s.die d).pow.budget +
        min amount (min (s.die d).pow.pg 1300000 - (s.die d).pow.budget) ∧
      (u.die d).mer.borrowed = (s.die d).mer.borrowed +
        min amount (min (s.die d).pow.pg 1300000 - (s.die d).pow.budget) ∧
      (u.die d).til.sram = (s.die d).til.sram := by
    rw [← raised, State.modDie_die]
    exact ⟨rfl, rfl, rfl⟩
  have only : DieOnly d s u := by
    rw [← raised]
    exact State.modDie_only ..
  have sent := u.sendRecord_ports d 0x1A (s.identity src) (loanBody amount (s.epoch d))
  obtain ⟨budget, borrowed, sram⟩ := die
  obtain ⟨sends, askPow, askBorrowed, askTil⟩ :=
    (u.sendRecord d 0x1A (s.identity src) (loanBody amount (s.epoch d))).askLend_asks d
  refine ⟨?_, ?_, ?_, ((only.sends.trans sent.toDieSends).trans sends).acts⟩
  · rw [askPow, sent.die, budget]
  · rw [askBorrowed, sent.mer, borrowed]
  · rw [askTil, sent.til, sram]

theorem does_commit {src : DieId} {amount : Nat} : Does (.commit d src amount (s.epoch d)) s fun t =>
    t.die d = { s.die d with mer := { (s.die d).mer with lent := (s.die d).mer.lent.map fun l =>
      if l.die = src.val ∧ l.amount = amount then { l with committed := true } else l } } ∧ DieOnly d s t := by
  change ∃ t, execCommit d src amount (s.epoch d) s = .next t ∧ _
  unfold execCommit State.takeCommit
  rw [if_neg (fun h => h rfl)]
  unfold State.modMer
  exact ⟨_, rfl, State.modDie_die .., State.modDie_only ..⟩

theorem does_release {src : DieId} {amount : Nat} (lent : ⟨src.val, amount, false⟩ ∈ (s.die d).mer.lent) :
    Does (.release d src amount (s.epoch d)) s fun t =>
      ⟨src.val, amount, false⟩ ∉ (t.die d).mer.lent ∧ (t.die d).pow.budget = (s.die d).pow.budget + amount ∧
      (t.die d).til.sram = (s.die d).til.sram ∧ DieOnly d s t := by
  change ∃ t, execRelease d src amount (s.epoch d) s = .next t ∧ _
  unfold execRelease State.takeRelease
  dsimp only
  have here : ((s.die d).mer.lent.any fun l => l.die == src.val && l.amount == amount && !l.committed) = true :=
    List.any_eq_true.mpr ⟨_, lent, by simp⟩
  rw [if_neg (by simp [here])]
  unfold State.rescale State.modMer
  rw [State.modDie_modDie]
  refine ⟨_, rfl, ?_⟩
  rw [State.modDie_die]
  refine ⟨?_, rfl, rfl, State.modDie_only ..⟩
  simp

end

end Sys2Proof.Machine

namespace Sys2Proof
open Sys2Proof.Machine

/-- Settles O21: every step of a loan is one change of its die, with a record sent. -/
theorem lending : Obligations.Lending := by
  refine ⟨fun s d src amount epoch => does_lend_refused s d, fun s d src amount => does_lend s d,
    fun s d src amount want at_ => does_grant s d, fun s d src amount => does_commit s d, fun s d src amount => does_release s d⟩

end Sys2Proof
end

section
/-! Surveys and the map composer (10.1, 10.4 to 10.6). -/

namespace Sys2Proof.Machine
open Sys2Proof

/-! ### Writes of one die that the gate takes -/

/-- A write that changes one die alone ends with that change: nothing else but what the gate itself touches. -/
theorem gateEnd_modDie (m : MasterId) (k : ObjKey) (v : List Byte) (s : State) (d : DieId) (f : Die → Die) :
    let t := gateEnd m k v (.done (s.atTick.modDie d f) 0 true)
    t.die d = f (s.die d) ∧ GateOnly k s t ∧ ∀ e, e ≠ d → t.die e = s.die e := by
  refine ⟨?_, ((s.atTick_gate _).trans ((State.modDie_only ..).gate _)).trans (gateEnd_done_gate ..), fun e other => ?_⟩
  · rw [gateEnd_done_die, State.modDie_die]
    rfl
  · rw [gateEnd_done_die, State.modDie_die_ne _ _ _ _ other]
    rfl

/-- As `gateEnd_modDie`, on top of the object's setting. -/
theorem gateEnd_put_modDie (m : MasterId) (v : List Byte) (s : State) (d : DieId) (i u n : Nat) (f : Die → Die) :
    let t := gateEnd m ⟨i, u, d.val⟩ v (.done ((s.atTick.putSetting i u d.val n).modDie d f) 0 true)
    t.setting i u d.val = n ∧ t.die d = f (s.die d) ∧ GateOnly ⟨i, u, d.val⟩ s t ∧ ∀ e, e ≠ d → t.die e = s.die e := by
  refine ⟨?_, ?_, (((s.atTick_gate _).trans (State.putSetting_gate ..)).trans ((State.modDie_only ..).gate _)).trans
    (gateEnd_done_gate ..), fun e other => ?_⟩
  · rw [gateEnd_done_setting]
    exact State.setting_putSetting ..
  · rw [gateEnd_done_die, State.modDie_die]
    rfl
  · rw [gateEnd_done_die, State.modDie_die_ne _ _ _ _ other]
    rfl

/-! ### Surveys (R234, R235) -/

theorem does_surveyNow {s : State} {m : MasterId} {d : DieId} {v : Nat} (takes : GateTakes m ⟨0x2700, 1, d.val⟩ (leBytes 1 v) s)
    (idle : (s.die d).srv.running = none) : Does (.surveyNow m d v) s fun t =>
      t.die d = { s.die d with srv := { (s.die d).srv with running := some (s.atTick.sysTime d) } } ∧
      GateOnly ⟨0x2700, 1, d.val⟩ s t ∧ ∀ e, e ≠ d → t.die e = s.die e := by
  refine does_gate takes rfl ?_
  have starts : s.atTick.surveyNow d = .done (s.atTick.modSrv d fun x => { x with running := some (s.atTick.sysTime d) }) 0 true :=
    if_neg (by rw [show (s.atTick.die d).srv.running = none from idle]; decide)
  rw [starts, State.modSrv]
  exact gateEnd_modDie ..

theorem does_surveyNow_busy {s : State} {m : MasterId} {d : DieId} {v : Nat}
    (takes : GateTakes m ⟨0x2700, 1, d.val⟩ (leBytes 1 v) s) (busy : (s.die d).srv.running.isSome = true) :
    Does (.surveyNow m d v) s fun t => t = s.atTick := by
  refine does_gate takes rfl ?_
  have refused : s.atTick.surveyNow d = .refused rcBusy 0 s.atTick := if_pos busy
  rw [refused]
  rfl

section
variable (s : State) (d : DieId)

theorem does_surveyIntervalExpire (every : s.dset d 0x2700 4 ≠ 0) (works : (s.die d).surveys = true)
    (idle : (s.die d).srv.running = none) : Does (.surveyIntervalExpire d) s fun t =>
      (t.die d).srv.running = some (t.sysTime d) ∧ (t.die d).srv.intervalFrom = t.tray.now ∧
      (s.die d).srv.intervalFrom + s.dset d 0x2700 4 * 1000000 ≤ t.tray.now ∧ DieNoted d s t := by
  change ∃ t, execSurveyIntervalExpire d s = .next t ∧ _
  unfold execSurveyIntervalExpire
  dsimp only
  rw [if_neg (by simp [every, works]), if_neg (by simp [idle])]
  refine ⟨_, rfl, ?_⟩
  unfold State.modSrv State.sysTime
  rw [State.modDie_die]
  exact ⟨rfl, rfl, State.advanceTo_now .., (State.advanceTo_noted ..).trans (State.modDie_only ..).noted⟩

theorem does_surveyComplete {grid : List Int} {t0 : Nat} (works : (s.die d).surveys = true)
    (runs : (s.die d).srv.running = some t0) (full : grid.length = 4096) : Does (.surveyComplete d grid) s fun t =>
      (t.die d).srv.grid = grid ∧ (t.die d).srv.seq = ((s.die d).srv.seq + 1) % 2 ^ 32 ∧ (t.die d).srv.time = t0 ∧
      (t.die d).srv.running = none ∧ t.die d = { s.die d with srv := (t.die d).srv } ∧ DieOnly d s t := by
  change ∃ t, execSurveyComplete d grid s = .next t ∧ _
  unfold execSurveyComplete
  rw [if_neg (by simp [works]), runs]
  have whole : ((List.range 4096).map fun i => grid.getD i 0) = grid := by
    refine List.ext_getElem (by simp [full]) fun i hi hj => ?_
    simp [List.getD_eq_getElem?_getD, hj]
  dsimp only
  rw [whole]
  refine ⟨_, rfl, ?_⟩
  unfold State.modSrv
  rw [State.modDie_die]
  exact ⟨rfl, rfl, rfl, rfl, rfl, State.modDie_only ..⟩

end

/-! ### The context selector (R385) -/

theorem does_contextSelectorWrite {s : State} {m : MasterId} {d : DieId} {v : Nat}
    (takes : GateTakes m ⟨0x2600, 0x10, d.val⟩ (leBytes 4 v) s) : Does (.contextSelectorWrite m d v) s fun t =>
      KV.get? (t.master m).ctxSel d.val = some (v % 256 ^ 4) ∧ t.dies = s.dies ∧ ∀ n, n ≠ m → t.master n = s.master n := by
  refine does_gate_done takes rfl rfl ⟨?_, ?_, fun n other => ?_⟩
  · rw [gateEnd_done_master, State.modMaster_master, leNat_leBytes]
    exact KV.get?_put ..
  · rw [gateEnd_done_dies]
    rfl
  · rw [gateEnd_done_master, State.modMaster_master_ne _ _ _ _ other]
    rfl

/-! ### Frames (R243, R244, R247) -/

section
variable (s : State) (d : DieId)

theorem does_frameStart_off (works : (s.die d).composes = true) (off : s.dset d 0x2700 6 = 0) : Does (.frameStart d) s fun t =>
      t.die d = { s.die d with cmp := { (s.die d).cmp with running := false } } ∧ DieOnly d s t := by
  change ∃ t, execFrameStart d s = .next t ∧ _
  unfold execFrameStart
  dsimp only
  rw [if_neg (by simp [works]), if_pos off]
  unfold State.modCmp
  exact ⟨_, rfl, State.modDie_die .., State.modDie_only ..⟩

theorem does_frameStart (works : (s.die d).composes = true) (on : s.dset d 0x2700 6 ≠ 0) : Does (.frameStart d) s fun t =>
      (t.die d).cmp.seq = ((s.die d).cmp.seq + 1) % 0xFFFFFFFF ∧ (t.die d).cmp.frame.isSome = true ∧
      (t.die d).cmp.running = true ∧ (t.die d).cmp.owner = s.tray.mbox ∧
      (t.die d).cmp.dropped = satAdd 32 (s.die d).cmp.dropped (if (s.die d).cmp.frame.isSome then 1 else 0) ∧
      (t.die d).cmp.active = (List.range 0x15).map (fun k => (k, s.dset d 0x2700 k)) ∧
      (t.die d).til = (s.die d).til ∧ s.tray.now ≤ t.tray.now ∧ ∀ e, e ≠ d → t.die e = s.die e := by
  change ∃ t, execFrameStart d s = .next t ∧ _
  unfold execFrameStart
  extract_lets x per t0 t s0 s1 act c0 c px flags bytes
  rw [if_neg (by simp [x, works]), if_neg on]
  refine ⟨_, rfl, ?_⟩
  unfold State.modCmp
  rw [State.modDie_die]
  refine ⟨rfl, rfl, rfl, rfl, rfl, rfl, ?_, ?_, fun e other => ?_⟩
  · change (s1.die d).til = _
    unfold s1
    rw [State.modDie_die]
    rfl
  · exact Nat.le_max_left ..
  · rw [State.modDie_die_ne _ _ _ _ other]
    change s1.die e = s0.die e
    exact State.modDie_die_ne _ _ _ _ other

theorem does_frameComplete_late {bytes : List Byte} (frame : (s.die d).cmp.frame = some bytes) :
    Does (.frameComplete d false) s fun t =>
      t.die d = { s.die d with cmp := { (s.die d).cmp with
        frame := none, dropped := satAdd 32 (s.die d).cmp.dropped 1 } } ∧ DieOnly d s t := by
  change ∃ t, execFrameComplete d false s = .next t ∧ _
  unfold execFrameComplete
  dsimp only
  rw [frame]
  dsimp only
  rw [if_pos (by simp)]
  unfold State.modCmp
  rw [State.modDie_modDie]
  exact ⟨_, rfl, State.modDie_die .., State.modDie_only ..⟩

theorem does_frameComplete_kept {bytes : List Byte} (frame : (s.die d).cmp.frame = some bytes) (works : (s.die d).composes = true)
    (noRing : bit ((s.die d).cmp.set 0xF) 0 = false) (noStream : bit ((s.die d).cmp.set 0xF) 1 = false) :
    Does (.frameComplete d true) s fun t =>
      t.die d = { s.die d with cmp := { (s.die d).cmp with frame := none } } ∧ DieOnly d s t := by
  change ∃ t, execFrameComplete d true s = .next t ∧ _
  unfold execFrameComplete
  dsimp only
  rw [frame]
  dsimp only
  rw [if_neg (by simp [works]), if_pos (by simp [noStream]), if_pos (by simp [noRing])]
  unfold State.modCmp
  exact ⟨_, rfl, State.modDie_die .., State.modDie_only ..⟩

/-! ### The check (R251, R252) -/

theorem does_composerCheck {fault : Nat} {setFaults : List Nat} (works : (s.die d).composes = true)
    (runs : (s.die d).cmp.running = true) (due : (s.die d).cmp.checkDue = true) :
    Does (.composerCheck d fault setFaults) s fun t =>
      (t.die d).cmp.checkDue = false ∧ (t.die d).cmp.lastSig = checkSignature.xor fault ∧
      (fault ≠ 0 → (t.die d).cmp.lastPassed = false ∧ (t.die d).cmp.disqualified = true ∧
        (t.die d).cmp.need = 2 ∧ (t.die d).cmp.failedChecks = satAdd 32 (s.die d).cmp.failedChecks 1 ∧
        Reported t s d.val 0x2701 (leBytes 4 (checkSignature.xor fault))) ∧
      ((t.die d).cmp.lastPassed = true → (t.die d).cmp.need = (s.die d).cmp.need - 1 ∧
        ((t.die d).cmp.disqualified = true ↔ (s.die d).cmp.disqualified = true ∧ 1 < (s.die d).cmp.need)) ∧
      t.die d = { s.die d with cmp := (t.die d).cmp } ∧ DieNoted d s t := by
  change ∃ t, execComposerCheck d fault setFaults s = .next t ∧ _
  unfold execComposerCheck
  extract_lets x used crc mism sig pass s1
  rw [if_neg (by simp [x, works, runs, due])]
  refine ⟨_, rfl, ?_⟩
  have die : s1.die d = { s.die d with cmp := { (s.die d).cmp with
      checkDue := false, lastSig := sig, lastPassed := pass, crcMismatch := mism
      need := if pass then (s.die d).cmp.need - 1 else 2
      disqualified := if pass then (s.die d).cmp.disqualified && decide (1 < (s.die d).cmp.need) else true
      failedChecks := satAdd 32 (s.die d).cmp.failedChecks (b2n !pass) } } := State.modDie_die ..
  have only : DieOnly d s s1 := State.modDie_only ..
  have failed : fault ≠ 0 → pass = false := fun bad => by simp [pass, bad]
  clear_value pass mism s1
  cases pass with
  | true =>
    rw [if_pos rfl, die]
    refine ⟨rfl, rfl, fun bad => absurd (failed bad) (by decide), fun _ => ⟨rfl, ?_⟩, rfl, only.noted⟩
    simp
  | false =>
    rw [if_neg (by decide), State.logDie_die, die]
    refine ⟨rfl, rfl, fun _ => ⟨rfl, rfl, rfl, rfl, fun idle => ?_⟩, fun passed => absurd passed Bool.false_ne_true, rfl,
      only.noted.trans (State.log_noted ..)⟩
    exact s1.log_reported d.val 0x2701 (leBytes 4 sig) (by rw [only.rest]; exact idle)

end

theorem does_runCheckNow {s : State} {m : MasterId} {d : DieId} {v : Nat}
    (takes : GateTakes m ⟨0x2700, 0x1B, d.val⟩ (leBytes 1 v) s) : Does (.runCheckNow m d v) s fun t =>
      t.die d = { s.die d with cmp := { (s.die d).cmp with checkDue := true } } ∧
      GateOnly ⟨0x2700, 0x1B, d.val⟩ s t ∧ ∀ e, e ≠ d → t.die e = s.die e :=
  does_gate_done takes rfl rfl (gateEnd_modDie ..)

/-! ### Composer settings (R241, R244) -/

theorem does_coeffSetWrite {s : State} {m : MasterId} {d : DieId} {set : Nat} {v : List Byte} (known : set < 4)
    (takes : GateTakes m ⟨0x2700, 0xB + set, d.val⟩ v s) : Does (.coeffSetWrite m d set v) s fun t =>
      t.setting 0x2700 (0xB + set) d.val = leNat v ∧
      (t.die d).cmp.setCrc = (s.die d).cmp.setCrc.set set (some (crc32 v)) ∧
      (t.die d).cmp.frame = (s.die d).cmp.frame ∧ (t.die d).cmp.active = (s.die d).cmp.active ∧
      GateOnly ⟨0x2700, 0xB + set, d.val⟩ s t ∧ ∀ e, e ≠ d → t.die e = s.die e := by
  have runs : exec (.coeffSetWrite m d set v) s =
      .next (s.gate m ⟨0x2700, 0xB + set, d.val⟩ v fun s _ w => s.composerApply d (0xB + set) w) := if_pos known
  have done : s.atTick.composerApply d (0xB + set) v = .done ((s.atTick.putSetting 0x2700 (0xB + set) d.val (leNat v)).modDie d
      fun x => { x with cmp := { x.cmp with setCrc := x.cmp.setCrc.set set (some (crc32 v)) } }) 0 true := by
    unfold State.composerApply
    dsimp only
    rw [if_neg (by omega), if_neg (by omega), if_pos (by omega), Nat.add_sub_cancel_left]
    rfl
  obtain ⟨setting, die, gate, others⟩ := gateEnd_put_modDie m v s d 0x2700 (0xB + set) (leNat v)
    fun x => { x with cmp := { x.cmp with setCrc := x.cmp.setCrc.set set (some (crc32 v)) } }
  exact does_gate_done takes runs done ⟨setting, by rw [die], by rw [die], by rw [die], gate, others⟩

/-- The objects that COMPOSER_WRITE writes. -/
theorem execComposerWrite_eq {s : State} {m : MasterId} {d : DieId} {sub : Nat} {v : List Byte}
    (known : sub = 4 ∨ (6 ≤ sub ∧ sub ≤ 0xA) ∨ (0xF ≤ sub ∧ sub ≤ 0x14)) : exec (.composerWrite m d sub v) s =
      .next (s.gate m ⟨0x2700, sub, d.val⟩ v fun s _ w => s.composerApply d sub w) := if_pos known

theorem does_composerWrite {s : State} {m : MasterId} {d : DieId} {sub : Nat} {v : List Byte}
    (known : sub = 4 ∨ (6 ≤ sub ∧ sub ≤ 0xA) ∨ sub = 0xF ∨ (0x11 ≤ sub ∧ sub ≤ 0x14))
    (fits : sub = 7 ∨ sub = 8 ∨ sub = 9 ∨ sub = 0x12 → s.streamFits d sub (leNat v) = true)
    (takes : GateTakes m ⟨0x2700, sub, d.val⟩ v s) : Does (.composerWrite m d sub v) s fun t =>
      t.setting 0x2700 sub d.val = leNat v ∧ (t.die d).cmp = (s.die d).cmp ∧
      GateOnly ⟨0x2700, sub, d.val⟩ s t ∧ ∀ e, e ≠ d → t.die e = s.die e := by
  have fits : ¬ ((sub = 7 ∨ sub = 8 ∨ sub = 9 ∨ sub = 0x12) ∧ (!s.atTick.streamFits d sub (leNat v)) = true) := by
    rintro ⟨named, tight⟩
    have room : s.atTick.streamFits d sub (leNat v) = true := fits named
    simp [room] at tight
  have done : ∃ f : Die → Die, (∀ x, (f x).cmp = x.cmp) ∧ s.atTick.composerApply d sub v =
      .done ((s.atTick.putSetting 0x2700 sub d.val (leNat v)).modDie d f) 0 true := by
    unfold State.composerApply
    dsimp only
    rw [if_neg (by omega), if_neg fits, if_neg (by omega), if_neg (by omega)]
    by_cases interval : sub = 4
    · rw [if_pos interval]
      refine ⟨_, ?_, rfl⟩
      exact fun _ => rfl
    · rw [if_neg interval]
      exact ⟨id, fun _ => rfl, by rw [State.modDie_self rfl]⟩
  obtain ⟨f, cmp, done⟩ := done
  obtain ⟨setting, die, gate, others⟩ := gateEnd_put_modDie m v s d 0x2700 sub (leNat v) f
  exact does_gate_done takes (execComposerWrite_eq (by omega)) done ⟨setting, by rw [die, cmp], gate, others⟩

theorem does_composerWrite_ring {s : State} {m : MasterId} {d : DieId} {v : List Byte} (aligned : leNat v % 4096 = 0)
    (takes : GateTakes m ⟨0x2700, 0x10, d.val⟩ v s) : Does (.composerWrite m d 0x10 v) s fun t =>
      t.setting 0x2700 0x10 d.val = leNat v ∧
      t.die d = { s.die d with cmp := { (s.die d).cmp with ringStopped := false } } ∧
      GateOnly ⟨0x2700, 0x10, d.val⟩ s t ∧ ∀ e, e ≠ d → t.die e = s.die e := by
  have done : s.atTick.composerApply d 0x10 v = .done ((s.atTick.putSetting 0x2700 0x10 d.val (leNat v)).modDie d
      fun x => { x with cmp := { x.cmp with ringStopped := false } }) 0 true := by
    unfold State.composerApply
    dsimp only
    rw [if_neg (by simp [aligned]), if_neg (by simp), if_neg (by simp), if_pos rfl]
    rfl
  exact does_gate_done takes (execComposerWrite_eq (by omega)) done (gateEnd_put_modDie ..)

end Sys2Proof.Machine

namespace Sys2Proof
open Sys2Proof.Machine

/-- Settles O23: surveys, frames and checks are changes of their die; a write is its setting with one change on top. -/
theorem surveysAndMaps : Obligations.SurveysAndMaps := by
  refine ⟨fun s m d v => does_surveyNow, fun s m d v => does_surveyNow_busy, fun s d => does_surveyIntervalExpire s d,
    fun s d grid t0 => does_surveyComplete s d, fun s m d v => does_contextSelectorWrite, fun s d => does_frameStart_off s d,
    fun s d => does_frameStart s d, fun s d bytes => does_frameComplete_late s d,
    fun s d bytes => does_frameComplete_kept s d, fun s d fault setFaults => does_composerCheck s d,
    fun s m d v => does_runCheckNow, fun s m d set v => does_coeffSetWrite, fun s m d sub v => does_composerWrite,
    fun s m d v takes aligned => does_composerWrite_ring aligned takes⟩

end Sys2Proof
end

section
/-! Records that may hold their plan: sends, receives and barriers (11.6, 11.8), and the scout records (chapter 13). -/

namespace Sys2Proof.Machine
open Sys2Proof

/-- The cause for which a run holds, and since when. -/
def Run.held (c : HoldCause) (now : Ns) (k : Run) : Run :=
  { k with holding := some (c, match k.holding with | some p => p.2 | none => now) }

end Sys2Proof.Machine

namespace Sys2Proof
open Sys2Proof.Machine

/-! ### Issue with a condition to wait for (R283) -/

section
variable {s : State} {d : DieId} {t h op u v : Nat} {r : Run} {q : Rec}

theorem Issues.reads_clean (i : Issues s d t h op u v r q) :
    ((s.readRanges d r q u v).map fun p => s.poisoned d p.1 p.2).flatten = [] := by
  refine List.flatten_eq_nil_iff.mpr fun l hl => ?_
  obtain ⟨p, hp, rfl⟩ := List.mem_map.1 hl
  exact i.read p hp

/-- A record that must wait holds its plan, since it first did. -/
theorem Issues.waits (i : Issues s d t h op u v r q) {wait : State → Run → Rec → Option HoldCause}
    {eff : State → Run → Rec → Nat → State} {c : HoldCause} (must : wait (s.runTo d r q.cyc) r q = some c) :
    s.issue d t h op u v wait eff =
      (s.runTo d r q.cyc).modRun d t h r.queue (Run.held c (s.runTo d r q.cyc).tray.now) := by
  have fetched := i.fetched
  unfold State.issue
  simp only [i.next, State.runTo_poisoned, State.runTo_readRanges, fetched, i.reads_clean, List.append_nil, List.isEmpty_nil,
    Bool.not_true, Bool.false_eq_true, if_false, must]
  rfl

/-- A record that need not wait has its effect on the state of its issue. -/
theorem Issues.passes (i : Issues s d t h op u v r q) {wait : State → Run → Rec → Option HoldCause}
    {eff : State → Run → Rec → Nat → State} (free : wait (s.runTo d r q.cyc) r q = none) :
    s.issue d t h op u v wait eff = eff (s.issued d t h u v r q) r q (r.plan.tile u v) := by
  have fetched := i.fetched
  unfold State.issue
  simp only [i.next, State.runTo_poisoned, State.runTo_readRanges, fetched, i.reads_clean, List.append_nil, List.isEmpty_nil,
    Bool.not_true, Bool.false_eq_true, if_false, free]
  rfl

end

end Sys2Proof

namespace Sys2Proof.Machine
open Sys2Proof

/-! ### What an issue leaves of its die -/

section
variable (s : State) (d : DieId)

theorem State.runTo_fab (r : Run) (c : Nat) : ((s.runTo d r c).die d).fab = (s.die d).fab := by
  unfold State.runTo
  rw [State.modRun_die]
  rfl

/-- An issue moves the runs of its die and what is counted for the ledger. -/
theorem State.issued_die (t h u v : Nat) (r : Run) (q : Rec) : (s.issued d t h u v r q).die d =
    { s.die d with
      til := { (s.die d).til with runs := ((s.issued d t h u v r q).die d).til.runs }
      nrg := ((s.issued d t h u v r q).die d).nrg } := by
  unfold State.issued State.countAct State.runTo
  simp only [State.modDie_die, State.modRun_die]
  rfl

theorem State.issued_fab (t h u v : Nat) (r : Run) (q : Rec) : ((s.issued d t h u v r q).die d).fab = (s.die d).fab := by
  rw [State.issued_die]

theorem State.issued_sct (t h u v : Nat) (r : Run) (q : Rec) : ((s.issued d t h u v r q).die d).sct = (s.die d).sct := by
  rw [State.issued_die]

end

/-! ### FSEND (R330, R332) -/

section
variable {s : State} {d : DieId} {t h u v : Nat} {r : Run} {q : Rec}

/-- The flow of a run is found by the fabric alone. -/
theorem Die.txOf_congr {x y : Die} (fab : y.fab = x.fab) (r : Run) (pos : Nat) : y.txOf r pos = x.txOf r pos := by
  unfold Die.txOf
  rw [fab]

theorem Die.rxOf_congr {x y : Die} (fab : y.fab = x.fab) (r : Run) (pos : Nat) : y.rxOf r pos = x.rxOf r pos := by
  unfold Die.rxOf
  rw [fab]

theorem does_fsend_waits {f : TxFlow} (i : Issues s d t h 0x30 u v r q) (flow : (s.die d).txOf r (bits q.w 7 0) = some f)
    (shut : f.opened = false) : Does (.fsend d t h u v) s fun x =>
      x = (s.runTo d r q.cyc).modRun d t h r.queue (Run.held .openDone (s.runTo d r q.cyc).tray.now) := by
  have must : sendWait d (s.runTo d r q.cyc) r q = some .openDone := by
    unfold sendWait
    rw [Die.txOf_congr (s.runTo_fab d r q.cyc), flow]
    exact if_pos (by rw [shut]; rfl)
  change ∃ x, execFsend d t h u v s = .next x ∧ _
  unfold execFsend
  rw [i.waits must]
  exact ⟨_, rfl, rfl⟩

theorem does_fsend {f : TxFlow} (i : Issues s d t h 0x30 u v r q) (flow : (s.die d).txOf r (bits q.w 7 0) = some f)
    (open_ : f.opened = true) (room : (f.data.map List.length).sum + 128 * q.nf ≤ f.space) :
    Does (.fsend d t h u v) s fun x =>
      x = ((s.issued d t h u v r q).modTx d fun fs => fs.map fun g => if g.is f.tenant f.id then { g with
        data := g.data ++ [s.sramRead d (lineAddr (r.plan.tile u v) (bits q.w 23 8)) (128 * q.nf)] } else g).pump d
          f.tenant f.id := by
  have free : sendWait d (s.runTo d r q.cyc) r q = none := by
    unfold sendWait
    rw [Die.txOf_congr (s.runTo_fab d r q.cyc), flow]
    dsimp only
    rw [if_neg (by simp [open_]), if_neg (Nat.not_lt.mpr room)]
  change ∃ x, execFsend d t h u v s = .next x ∧ _
  unfold execFsend
  rw [i.passes free]
  refine ⟨_, rfl, ?_⟩
  rw [Die.txOf_congr (s.issued_fab d t h u v r q), flow]
  dsimp only
  rw [State.issued_sramRead]

/-! ### FRECV (R280, R333) -/

theorem does_frecv_waits {f : RxFlow} (i : Issues s d t h 0x31 u v r q) (flow : (s.die d).rxOf r (bits q.w 7 0) = some f)
    (few : f.data.length < 128 * q.nf) : Does (.frecv d t h u v) s fun x =>
      x = (s.runTo d r q.cyc).modRun d t h r.queue (Run.held .recv (s.runTo d r q.cyc).tray.now) := by
  have must : recvWait d (s.runTo d r q.cyc) r q = some .recv := by
    unfold recvWait
    rw [Die.rxOf_congr (s.runTo_fab d r q.cyc), flow]
    exact if_pos few
  change ∃ x, execFrecv d t h u v s = .next x ∧ _
  unfold execFrecv
  rw [i.waits must]
  exact ⟨_, rfl, rfl⟩

end

/-! ### Receive flows stay while records are sent -/

section
variable (s : State) (d : DieId)

/-- What was sent over the ports of die d leaves its receive flows. -/
structure RxStays (d : DieId) (s t : State) : Prop extends PortsOnly d s t where
  rx : (t.die d).fab.rx = (s.die d).fab.rx

theorem RxStays.trans {d : DieId} {s t u : State} (h : RxStays d s t) (k : RxStays d t u) : RxStays d s u :=
  ⟨h.toPortsOnly.trans k.toPortsOnly, k.rx.trans h.rx⟩

theorem State.modPort_rx (p : Nat) (f : Port → Port) : RxStays d s (s.modPort d p f) :=
  ⟨s.modPort_ports d p f, by rw [State.modPort, State.modDie_die]⟩

theorem State.putRecord_rx (p : Nat) (bytes : List Byte) : RxStays d s (s.putRecord d p bytes) := by
  unfold State.putRecord
  dsimp only
  split
  · exact s.modPort_rx ..
  · split
    · exact ⟨s.sendFlit_ports .., by rw [State.sendFlit, (State.modPort_rx _ d _ _).rx]; rfl⟩
    · exact ⟨s.ctrlDiscard_ports .., by rw [State.ctrlDiscard, State.modDie_die]⟩

theorem State.sendRecord_rx (ty dest : Nat) (body : List Byte) : RxStays d s (s.sendRecord d ty dest body) := by
  unfold State.sendRecord State.sendFor
  dsimp only
  split
  · exact ⟨s.ctrlDiscard_ports .., by rw [State.ctrlDiscard, State.modDie_die]⟩
  · exact s.putRecord_rx ..

theorem RxStays.foldl {α : Type} {d : DieId} {f : State → α → State} (hf : ∀ u x, RxStays d u (f u x)) (l : List α) (s : State) :
    RxStays d s (l.foldl f s) := by
  induction l generalizing s with
  | nil => exact ⟨.refl .., rfl⟩
  | cons x xs ih => exact (hf s x).trans (ih _)

/-- Credit returned for a flow notes what is still owed, and leaves what has arrived. -/
theorem State.returnCredit_spec (f : RxFlow) (n : Nat) : PortsOnly d s (s.returnCredit d f n) ∧
    ∃ owed, ((s.returnCredit d f n).die d).fab.rx =
      (s.die d).fab.rx.map fun g => if g.is f.tenant f.id then { g with owed := owed } else g := by
  unfold State.returnCredit
  extract_lets total full last send s1 s2
  have one (u : State) (k : Nat) : RxStays d u (send u k) := u.sendRecord_rx ..
  have first : RxStays d s s1 := .foldl one _ s
  have second : RxStays d s s2 := by
    unfold s2
    split
    · exact first
    · exact first.trans (one ..)
  refine ⟨second.toPortsOnly.trans (State.modRx_ports ..), total - 4096 * full - last, ?_⟩
  rw [State.modRx, State.modDie_die]
  dsimp only
  rw [second.rx]

end

theorem does_frecv {s : State} {d : DieId} {t h u v : Nat} {r : Run} {q : Rec} {f : RxFlow} (i : Issues s d t h 0x31 u v r q)
    (flow : (s.die d).rxOf r (bits q.w 7 0) = some f) (enough : 128 * q.nf ≤ f.data.length) :
    Does (.frecv d t h u v) s fun x =>
      (x.die d).til.sram = Sram.write (s.die d).til.sram (lineAddr (r.plan.tile u v) (bits q.w 23 8))
        (f.data.take (128 * q.nf)) ∧
      (∀ g ∈ (x.die d).fab.rx, g.is f.tenant f.id = true → ∃ g0 ∈ (s.die d).fab.rx,
        g0.is f.tenant f.id = true ∧ g.data = g0.data.drop (128 * q.nf)) ∧ DieActs d s x := by
  have free : recvWait d (s.runTo d r q.cyc) r q = none := by
    unfold recvWait
    rw [Die.rxOf_congr (s.runTo_fab d r q.cyc), flow]
    exact if_neg (Nat.not_lt.mpr enough)
  change ∃ x, execFrecv d t h u v s = .next x ∧ _
  unfold execFrecv
  rw [i.passes free]
  refine ⟨_, rfl, ?_⟩
  rw [Die.rxOf_congr (s.issued_fab d t h u v r q), flow]
  dsimp only
  have acts : DieActs d s (s.issued d t h u v r q) := (s.issued_notes d t h u v r q).acts
  have rx : ((s.issued d t h u v r q).die d).fab.rx = (s.die d).fab.rx := by rw [State.issued_fab]
  have sram := (s.issued_til d t h u v r q).1
  generalize s.issued d t h u v r q = w at acts rx sram
  generalize stored : (w.sramWrite d (lineAddr (r.plan.tile u v) (bits q.w 23 8)) (f.data.take (128 * q.nf))).modRx d _ = z
  have die : (z.die d).til.sram = Sram.write (w.die d).til.sram (lineAddr (r.plan.tile u v) (bits q.w 23 8))
      (f.data.take (128 * q.nf)) ∧ (z.die d).fab.rx = (w.die d).fab.rx.map fun g =>
        if g.is f.tenant f.id then { g with data := g.data.drop (128 * q.nf) } else g := by
    rw [← stored, State.modRx, State.modDie_die, State.sramWrite, State.modDie_die]
    exact ⟨rfl, rfl⟩
  have only : DieOnly d w z := by
    rw [← stored]
    exact (State.modDie_only w d _).trans (State.modDie_only ..)
  obtain ⟨ports, owed, kept⟩ := z.returnCredit_spec d f (128 * q.nf)
  refine ⟨?_, fun g mem mine => ?_, (acts.trans only.noted.acts).trans ports.toDieSends.acts⟩
  · rw [ports.til, die.1, sram]
  · rw [kept, die.2, rx] at mem
    simp only [List.mem_map] at mem
    obtain ⟨g1, ⟨g0, mem0, rfl⟩, rfl⟩ := mem
    by_cases own : g0.is f.tenant f.id = true
    · refine ⟨g0, mem0, own, ?_⟩
      rw [if_pos own]
      split <;> rfl
    · simp [own] at mine

end Sys2Proof.Machine

namespace Sys2Proof
open Sys2Proof.Machine

/-- Settles O27: a send or receive that must wait holds its plan; else its effect falls on the state of its issue. -/
theorem fabricRecords : Obligations.FabricRecords :=
  ⟨fun _ _ _ _ _ _ _ _ _ => does_fsend_waits, fun _ _ _ _ _ _ _ _ _ => does_fsend, fun _ _ _ _ _ _ _ _ _ => does_frecv_waits,
    fun _ _ _ _ _ _ _ _ _ => does_frecv⟩

end Sys2Proof
end

section
/-! The scout records (13.2 to 13.7). -/

namespace Sys2Proof.Machine
open Sys2Proof

section
variable {s : State} {d : DieId} {t h : Nat} {r : Run} {q : Rec}

/-! ### SLOAD and SSTREAM -/

theorem State.modBank_die (s : State) (d : DieId) (b : Nat) (f : Bank → Bank) : (s.modBank d b f).die d =
    { s.die d with sct := { (s.die d).sct with banks := (s.die d).sct.banks.modify b f } } := State.modDie_die ..

theorem State.modBank_only (s : State) (d : DieId) (b : Nat) (f : Bank → Bank) : DieOnly d s (s.modBank d b f) := by
  unfold State.modBank
  exact State.modDie_only ..

theorem does_sload {b : Bank} (i : Issues s d t h 0x40 0 0 r q) (bank : (s.die d).sct.banks[bits q.w 2 0]? = some b) :
    Does (.sload d t h) s fun x =>
      (x.die d).sct.banks[bits q.w 2 0]? = some { b with keys := [], weights := (List.range 32).map fun k =>
        (((s.sramRead d (lineAddr (r.plan.tile 0 0) (bits q.w 23 8)) 1152).map scoutElem).drop (36 * k)).take 36 } ∧
      (∀ i, i ≠ bits q.w 2 0 → (x.die d).sct.banks[i]? = (s.die d).sct.banks[i]?) ∧
      (x.die d).til = ((s.issued d t h 0 0 r q).die d).til ∧ DieOnly d (s.issued d t h 0 0 r q) x := by
  refine i.does rfl ?_
  dsimp only
  rw [State.modBank_die, State.issued_sramRead]
  refine ⟨?_, fun j other => ?_, rfl, State.modBank_only ..⟩
  · simp only [List.getElem?_modify, State.issued_sct, bank]
    rfl
  · dsimp only
    rw [State.issued_sct, List.getElem?_modify_ne _ _ other.symm]

/-- Adding keys to the banks of a mask, one bank after another, changes each bank of the list on its own. -/
theorem State.stream_spec (d : DieId) (mask : Nat) (f : Nat → Bank → Bank) (is : List Nat) (s : State) (nodup : is.Nodup) :
    let t := is.foldl (fun s i => if !bit mask i then s else s.modBank d i (f i)) s
    DieOnly d s t ∧ (t.die d).til = (s.die d).til ∧ ∀ j, (t.die d).sct.banks[j]? =
      if j ∈ is ∧ bit mask j = true then ((s.die d).sct.banks[j]?).map (f j) else (s.die d).sct.banks[j]? := by
  induction is generalizing s with
  | nil => exact ⟨.refl .., rfl, fun j => by simp⟩
  | cons i is ih =>
    obtain ⟨fresh, nodup⟩ := List.nodup_cons.1 nodup
    obtain ⟨only, til, banks⟩ := ih (if !bit mask i then s else s.modBank d i (f i)) nodup
    rw [List.foldl_cons]
    cases on : bit mask i
    · simp only [on, Bool.not_false, if_true] at only til banks ⊢
      refine ⟨only, til, fun j => (banks j).trans ?_⟩
      by_cases same : j = i
      · simp [same, on]
      · simp [same]
    · simp only [on, Bool.not_true, Bool.false_eq_true, if_false] at only til banks ⊢
      refine ⟨(State.modBank_only ..).trans only, til.trans ?_, fun j => (banks j).trans ?_⟩
      · rw [State.modBank_die]
      · rw [State.modBank_die]
        by_cases same : j = i
        · subst same
          simp [fresh, on]
        · simp [same, List.getElem?_modify_ne _ _ (Ne.symm same)]

/-- What a stream of n keys does to a bank. -/
structure Streamed (mask n i : Nat) (b b' : Bank) : Prop where
  weights : b'.weights = b.weights
  state : b'.state = b.state
  apart : bit mask i = false → b' = b
  keys : bit mask i = true → b'.keys.length = min 262144 (b.keys.length + n)

/-- The bank after a stream of the keys `keys`, captured from number `from_` on. -/
def Bank.stream (b : Bank) (d : DieId) (c : Scouts) (tau from_ : Nat) (keys : List (List Int)) (i : Nat) : Bank :=
  let dead := b.window || b.dark || b.failPending
  let new := keys.mapIdx fun j key =>
    (match b.score d i c.columnsOut key (from_ + j) tau with
      | none => none
      | some v => some (if dead then -128 else v), dead || b.degraded || !c.columnsOut.isEmpty)
  { b with keys := (b.keys ++ new).take 262144 }

theorem does_sstream (i : Issues s d t h 0x41 0 0 r q) : Does (.sstream d t h) s fun x =>
    (∀ j b, j < 8 → (s.die d).sct.banks[j]? = some b → ∃ b', (x.die d).sct.banks[j]? = some b' ∧ Streamed q.w q.nk j b b') ∧
    (x.die d).til = ((s.issued d t h 0 0 r q).die d).til ∧ ∀ e, e ≠ d → x.die e = s.die e := by
  refine i.does rfl ?_
  extract_lets bs keys c s1
  obtain ⟨only, til, banks⟩ := State.stream_spec d q.w
    (fun i b => b.stream d c (bits q.w 46 44) (s.issued d t h 0 0 r q).fresh keys i) (List.range 8) s1 List.nodup_range
  have many : keys.length = q.nk := by simp [keys]
  refine ⟨fun j b small bank => ?_, til, fun e other => ?_⟩
  · have bank1 : (s1.die d).sct.banks[j]? = some b := by
      change ((s.issued d t h 0 0 r q).die d).sct.banks[j]? = some b
      rw [State.issued_sct, bank]
    have after := banks j
    rw [bank1] at after
    cases on : bit q.w j
    · rw [if_neg (by simp [on])] at after
      exact ⟨b, after, rfl, rfl, fun _ => rfl, fun h => absurd (on.symm.trans h) (by decide)⟩
    · rw [if_pos ⟨List.mem_range.mpr small, on⟩] at after
      refine ⟨_, after, rfl, rfl, fun h => absurd (on.symm.trans h) (by decide), fun _ => ?_⟩
      unfold Bank.stream
      dsimp only
      rw [List.length_take, List.length_append, List.length_mapIdx, many]
  · exact (only.others e other).trans ((s.issued_notes d t h 0 0 r q).others e other)

/-! ### SSELECT -/

/-- The selectors of a list of tiles take one selection. -/
theorem State.selectors_spec (d : DieId) (sel : List Nat) (ls : List Nat) (s : State) :
    let t := ls.foldl (fun s L => s.modUnit d L fun x => { x with sel := sel }) s
    DieOnly d s t ∧ (t.die d).til.sram = (s.die d).til.sram ∧ (t.die d).sct = (s.die d).sct ∧
      (∀ L ∈ ls, (t.unit d L).sel = sel) ∧ ∀ L, (s.unit d L).sel = sel → (t.unit d L).sel = sel := by
  induction ls generalizing s with
  | nil => exact ⟨.refl .., rfl, rfl, fun L mem => absurd mem List.not_mem_nil, fun _ h => h⟩
  | cons K ls ih =>
    obtain ⟨only, sram, sct, picked, kept⟩ := ih (s.modUnit d K fun x => { x with sel := sel })
    have unit := s.modUnit_unitOnly d K fun x => { x with sel := sel }
    have first : ((s.modUnit d K fun x => { x with sel := sel }).unit d K).sel = sel := by rw [State.modUnit_unit]
    rw [List.foldl_cons]
    refine ⟨DieOnly.trans ?_ only, sram.trans (by rw [unit.die]), sct.trans (by rw [unit.die]), fun L mem => ?_, fun L had => ?_⟩
    · unfold State.modUnit
      exact State.modDie_only ..
    · rcases List.mem_cons.mp mem with rfl | mem
      · exact kept L first
      · exact picked L mem
    · by_cases same : L = K
      · exact same ▸ kept K first
      · exact kept L (by rw [unit.units L same]; exact had)

theorem does_sselect (i : Issues s d t h 0x42 0 0 r q) : Does (.sselect d t h) s fun x => ∃ sel : List Nat,
      sel = selectBlocks (((List.range 8).filter fun i => bit q.w i).map fun i => (s.die d).sct.banks.getD i {})
        q.selC q.selK q.selB ∧
      (∀ L ∈ r.plan.tiles, (x.unit d L).sel = sel) ∧
      (x.die d).til.sram = Sram.write (s.die d).til.sram (lineAddr (r.plan.tile 0 0) (bits q.w 54 39))
        (elemBytes 2 (sel ++ List.replicate (64 - sel.length) 0xFFFF)) ∧
      (x.die d).sct.selections = satAdd 64 (s.die d).sct.selections 1 ∧ (x.die d).sct.banks = (s.die d).sct.banks ∧
      DieOnly d (s.issued d t h 0 0 r q) x := by
  refine i.does rfl ?_
  extract_lets c banks sel deg s1 s2
  obtain ⟨only, sram, sct, picked, -⟩ := State.selectors_spec d sel r.plan.tiles (s.issued d t h 0 0 r q)
  have banksAre : sel = selectBlocks (((List.range 8).filter fun i => bit q.w i).map fun i => (s.die d).sct.banks.getD i {})
      q.selC q.selK q.selB := by
    unfold sel banks c
    rw [State.issued_sct]
  have only2 : DieOnly d s1 s2 := State.modDie_only ..
  have die2 : (s2.die d).sct = (s1.die d).sct ∧ (s2.die d).til.units = (s1.die d).til.units ∧
      (s2.die d).til.sram = Sram.write (s1.die d).til.sram (lineAddr (r.plan.tile 0 0) (bits q.w 54 39))
        (elemBytes 2 (sel ++ List.replicate (64 - sel.length) 0xFFFF)) := by
    unfold s2 State.sramWrite
    rw [State.modDie_die]
    exact ⟨rfl, rfl, rfl⟩
  obtain ⟨sct2, units2, sram2⟩ := die2
  clear_value s2
  refine ⟨sel, banksAre, fun L mem => ?_, ?_, ?_, ?_, ((only.trans only2).trans (State.modDie_only ..)).trans (State.modRun_only ..)⟩
  · rw [← picked L mem]
    unfold State.unit
    rw [State.modRun_die, State.modDie_die]
    dsimp only
    rw [units2]
  · rw [State.modRun_die, State.modDie_die]
    dsimp only
    rw [sram2, sram, (s.issued_til d t h 0 0 r q).1]
  · rw [State.modRun_die, State.modDie_die]
    dsimp only
    rw [sct2, sct, State.issued_sct]
  · rw [State.modRun_die, State.modDie_die]
    dsimp only
    rw [sct2, sct, State.issued_sct]

/-! ### SBLANK, and the end of a blanking -/

theorem does_sblank (i : Issues s d t h 0x43 0 0 r q) : Does (.sblank d t h) s fun x =>
      (∀ i b, (s.die d).sct.banks[i]? = some b → ∃ b', (x.die d).sct.banks[i]? = some b' ∧ b'.state = b.state ∧
        (bit q.w i = false → b' = b) ∧
        (bit q.w i = true → b'.weights = [] ∧ b'.keys = [] ∧ b'.holder = b.holder)) ∧
      (x.die d).til = ((s.issued d t h 0 0 r q).die d).til ∧ DieOnly d (s.issued d t h 0 0 r q) x := by
  refine i.does rfl ⟨fun j b bank => ?_, by rw [State.modDie_die], State.modDie_only ..⟩
  rw [State.modDie_die]
  simp only [List.getElem?_mapIdx, State.issued_sct, bank, Option.map_some]
  refine ⟨_, rfl, ?_⟩
  cases on : bit q.w j
  · exact ⟨rfl, fun _ => rfl, fun h => absurd h (by decide)⟩
  · exact ⟨rfl, fun h => absurd h (by decide), fun _ => ⟨rfl, rfl, rfl⟩⟩

end

theorem does_bankFree {s : State} {d : DieId} {b : Fin 8} {k : Bank} (bank : (s.die d).sct.banks[b.val]? = some k)
    (blanks : k.state = .blanking) : Does (.bankFree d b) s fun x =>
      (x.die d).sct.banks[b.val]? = some (if k.gatePending then { k with state := .gated, gatePending := false }
        else { k with state := .free }) ∧ k.freeAt ≤ x.tray.now ∧ (x.die d).til = (s.die d).til ∧ DieNoted d s x := by
  change ∃ x, execBankFree d b s = .next x ∧ _
  have known : (s.die d).sct.banks.getD b.val {} = k := by rw [List.getD_eq_getElem?_getD, bank]; rfl
  unfold execBankFree
  dsimp only
  rw [known, if_neg (fun h => h blanks)]
  refine ⟨_, rfl, ?_⟩
  rw [State.modBank_die]
  refine ⟨?_, State.advanceTo_now .., rfl, (State.advanceTo_noted ..).trans (State.modBank_only ..).noted⟩
  dsimp only
  rw [List.getElem?_modify_eq, State.advanceTo_die, bank]
  rfl

end Sys2Proof.Machine

namespace Sys2Proof
open Sys2Proof.Machine

/-- Settles O28: the records' effects on the banks, one bank at a time. -/
theorem scoutRecords : Obligations.ScoutRecords := by
  refine ⟨fun s d t h r q b => does_sload, fun s d t h r q i => (does_sstream i).imp fun x done => ?_,
    fun s d t h r q => does_sselect, fun s d t h r q => does_sblank, fun s d b k => does_bankFree⟩
  obtain ⟨banks, til, others⟩ := done
  refine ⟨fun j b small bank => ?_, til, others⟩
  obtain ⟨b', after, weights, state, apart, keys⟩ := banks j b small bank
  exact ⟨b', after, weights, state, apart, keys⟩

end Sys2Proof
end

section
/-! Barriers, halt points, END, float segments, holds and the scrubber (11.2, 11.8, 11.9). -/

namespace Sys2Proof.Machine
open Sys2Proof

section
variable {s : State} {d : DieId} {t h : Nat} {r : Run} {q : Rec}

/-! ### BARRIER (R283, R291) -/

/-- A barrier whose arrival has gone out issues, or waits, as its release says. -/
theorem execBarrier_sent (i : Issues s d t h 0x50 0 0 r q)
    (sent : r.barSent.getD (bits q.w 9 0) 0 ≠ r.barCount.getD (bits q.w 9 0) 0) :
    exec (.barrier d t h) s = .next (s.issue d t h 0x50 0 0
      (fun _ r q => if r.barFree.contains (bits q.w 9 0, r.barCount.getD (bits q.w 9 0) 0 + 1) then none else some .barrier)
      fun s r q _ => s.modRun d t h r.queue fun k => { k with
        barCount := k.barCount.set (bits q.w 9 0) (k.barCount.getD (bits q.w 9 0) 0 + 1)
        barFree := k.barFree.filter fun f => f != (bits q.w 9 0, k.barCount.getD (bits q.w 9 0) 0 + 1) }) := by
  change execBarrier d t h s = _
  unfold execBarrier
  simp only [i.next, sent, if_false]

theorem does_barrier (i : Issues s d t h 0x50 0 0 r q)
    (sent : r.barSent.getD (bits q.w 9 0) 0 ≠ r.barCount.getD (bits q.w 9 0) 0)
    (free : (bits q.w 9 0, r.barCount.getD (bits q.w 9 0) 0 + 1) ∈ r.barFree) : Does (.barrier d t h) s fun x =>
      x = (s.issued d t h 0 0 r q).modRun d t h r.queue fun k => { k with
        barCount := k.barCount.set (bits q.w 9 0) (k.barCount.getD (bits q.w 9 0) 0 + 1)
        barFree := k.barFree.filter fun f => f != (bits q.w 9 0, k.barCount.getD (bits q.w 9 0) 0 + 1) } :=
  ⟨_, (execBarrier_sent i sent).trans (congrArg _ (i.passes (if_pos (List.contains_iff_mem.mpr free)))), rfl⟩

theorem does_barrier_waits (i : Issues s d t h 0x50 0 0 r q)
    (sent : r.barSent.getD (bits q.w 9 0) 0 ≠ r.barCount.getD (bits q.w 9 0) 0)
    (held : (bits q.w 9 0, r.barCount.getD (bits q.w 9 0) 0 + 1) ∉ r.barFree) : Does (.barrier d t h) s fun x =>
      x = (s.runTo d r q.cyc).modRun d t h r.queue (Run.held .barrier (s.runTo d r q.cyc).tray.now) :=
  ⟨_, (execBarrier_sent i sent).trans (congrArg _ (i.waits (if_neg fun h => held (List.contains_iff_mem.mp h)))), rfl⟩

/-! ### HALTPT and END (R290, R493) -/

theorem does_haltpt_passes (i : Issues s d t h 0x51 0 0 r q) (runs : r.stop = .none) :
    Does (.haltpt d t h) s fun x => x = s.issued d t h 0 0 r q :=
  i.does rfl (if_pos runs)

theorem State.clearRegion_unit (s : State) (d : DieId) (p : Plan) {L : Nat} (mem : L ∈ p.tiles) :
    (s.clearRegion d p).unit d L = {} := by
  unfold State.clearRegion State.unit
  rw [State.modDie_die]
  dsimp only
  rw [KV.getD, KV.get?_filter_keys _ (fun k => !p.tiles.contains k) L, if_neg (by simp [mem])]
  rfl

theorem does_haltpt_stops (i : Issues s d t h 0x51 0 0 r q) (stops : r.stop ≠ .none) : Does (.haltpt d t h) s fun x =>
      x = ((s.issued d t h 0 0 r q).haltHere d r).modRun d t h r.queue (fun k => { k with halted := true }) ∧
      (∀ L ∈ r.plan.tiles, x.unit d L = {}) ∧ (x.die d).til.sram = (s.die d).til.sram := by
  refine i.does rfl ?_
  rw [if_neg stops]
  have sram := (s.issued_til d t h 0 0 r q).1
  generalize s.issued d t h 0 0 r q = w at sram
  refine ⟨rfl, fun L mem => ?_, ?_⟩
  · rw [← w.clearRegion_unit d r.plan mem]
    unfold State.unit State.haltHere
    rw [State.modRun_die, State.modDie_die]
  · rw [State.modRun_die, State.haltHere, State.modDie_die, State.clearRegion, State.modDie_die]
    exact sram

/-! ### Arrivals and releases (R291) -/

theorem does_barrierArrivalSend {pos : Nat} {b : PlanBarrier}
    (run : ((s.die d).til.runs.find? fun r => r.tenant == t && r.handle == h && !r.halted && r.holding.isNone) = some r)
    (rec_ : ((r.plan.scores.getD 0 []).filter fun q => q.op == 0x50 && bits q.w 9 0 == pos)[r.barSent.getD pos 0]? = some q)
    (barrier : r.plan.barriers[pos]? = some b) (next : r.isNext (q.cyc - b.lead) = true)
    (computes : (s.die d).computes = true) (quiet : (s.die d).op.alertHalt = false) : Does (.barrierArrivalSend d t h pos) s fun x =>
      x = (s.runTo d r (q.cyc - b.lead)).sendArrival d t h r.queue pos := by
  change ∃ x, execBarrierArrivalSend d t h pos s = .next x ∧ _
  unfold execBarrierArrivalSend
  rw [run]
  dsimp only
  rw [rec_, barrier]
  dsimp only
  rw [if_neg (by simp [next, computes, quiet])]
  exact ⟨_, rfl, rfl⟩

theorem does_barrierArrival {src t id n parts : Nat} (first : KV.get? (s.die d).fab.barriers (t, id, n) = none) (more : 1 < parts) :
    Does (.barrierArrival d src t id n parts) s fun x =>
      KV.get? (x.die d).fab.barriers (t, id, n) = some (parts, [src]) ∧
      x.die d = { s.die d with fab := { (s.die d).fab with barriers := (x.die d).fab.barriers } } ∧ DieOnly d s x := by
  change ∃ x, execBarrierArrival d src t id n parts s = .next x ∧ _
  unfold execBarrierArrival State.takeArrival
  have old : KV.getD (s.die d).fab.barriers (t, id, n) (parts, []) = (parts, []) := by rw [KV.getD, first]; rfl
  simp only [old, List.contains_nil, Bool.false_eq_true, if_false, List.nil_append]
  rw [if_pos (show [src].length < parts from more)]
  refine ⟨_, rfl, ?_⟩
  rw [State.modDie_die]
  exact ⟨KV.get?_put .., rfl, State.modDie_only ..⟩

theorem does_barrierRelease {t id n : Nat} : Does (.barrierRelease d t id n) s fun x =>
    (x.die d).til.runs.length = (s.die d).til.runs.length ∧
    (∀ (i p : Nat) (r : Run), (s.die d).til.runs[i]? = some r → r.tenant = t →
      r.plan.barriers.findIdx? (fun b => b.id == id) = some p →
      ∃ r', (x.die d).til.runs[i]? = some r' ∧ (p, n) ∈ r'.barFree ∧ r' = { r with barFree := r'.barFree }) ∧
    x.die d = { s.die d with til := { (s.die d).til with runs := (x.die d).til.runs } } ∧ DieOnly d s x := by
  change ∃ x, execBarrierRelease d t id n s = .next x ∧ _
  unfold execBarrierRelease State.takeRelease11
  refine ⟨_, rfl, ?_⟩
  rw [State.modDie_die]
  refine ⟨List.length_map .., fun i p r run mine at_ => ?_, rfl, State.modDie_only ..⟩
  dsimp only
  rw [List.getElem?_map, run]
  refine ⟨_, rfl, ?_⟩
  dsimp only
  rw [at_]
  dsimp only
  by_cases had : (p, n) ∈ r.barFree
  · rw [if_pos (by simp [mine, had])]
    exact ⟨had, rfl⟩
  · rw [if_neg (by simp [mine, had])]
    exact ⟨List.mem_append_right _ (List.mem_singleton.mpr rfl), rfl⟩

end

end Sys2Proof.Machine

namespace Sys2Proof
open Sys2Proof.Machine

/-- Settles O29: BARRIER, HALTPT and END as records that issue; arrivals and releases as changes of their die. -/
theorem barriersAndEnd : Obligations.BarriersAndEnd :=
  ⟨fun _ _ _ _ _ _ => does_barrier, fun _ _ _ _ _ _ => does_barrier_waits, fun _ _ _ _ _ _ => does_haltpt_passes,
    fun _ _ _ _ _ _ => does_haltpt_stops, fun _ _ _ _ _ _ i => i.does rfl rfl, fun _ _ _ _ _ _ _ _ => does_barrierArrivalSend,
    fun _ _ _ _ _ _ _ => does_barrierArrival, fun _ _ _ _ _ => does_barrierRelease⟩

end Sys2Proof

namespace Sys2Proof.Machine
open Sys2Proof

/-! ### Float segments and holds (R285, R287) -/

section
variable (s : State) (d : DieId)

theorem does_floatSegmentStart {t h : Nat} {r : Run} {g : Segment}
    (run : ((s.die d).til.runs.find? fun r => r.tenant == t && r.handle == h && !r.halted && r.holding.isNone) = some r)
    (float : r.nextFloat = some g) (next : r.isNext g.start = true) (computes : (s.die d).computes = true)
    (quiet : (s.die d).op.alertHalt = false) : Does (.floatSegmentStart d t h) s fun x => ∃ n,
      n = min (g.dur - 1) (r.late * stepN (s.die d).clk.curStep * g.rate / 160) ∧
      x = (s.runTo d r g.start).modRun d t h r.queue fun k => { k with
        clock := g.start + n, late := k.late - n * 160 / (g.rate * stepN (s.die d).clk.curStep) } := by
  change ∃ x, execFloatSegmentStart d t h s = .next x ∧ _
  unfold execFloatSegmentStart
  dsimp only
  rw [run]
  dsimp only
  rw [float]
  dsimp only
  rw [if_neg (by simp [next, computes, quiet])]
  exact ⟨_, rfl, _, rfl, rfl⟩

/-- The runs of die d stay. -/
def RunsStay (d : DieId) (s t : State) : Prop := (t.die d).til.runs = (s.die d).til.runs

theorem TellsHost.runs {s t : State} (told : TellsHost s t) : RunsStay d s t := by
  unfold RunsStay State.die
  rw [told.dies]

theorem RunsStay.trans {d : DieId} {s t u : State} (h : RunsStay d s t) (k : RunsStay d t u) : RunsStay d s u := Eq.trans k h

theorem RunsStay.of_die {d : DieId} {s t : State} (same : t.die d = s.die d) : RunsStay d s t := by
  unfold RunsStay
  rw [same]

theorem State.errEvent_runs (t e : Nat) : RunsStay d s (s.errEvent t e) := by
  unfold State.errEvent
  split
  · refine RunsStay.trans (.of_die ?_) (TellsHost.runs d (State.setEvent_tells ..))
    rfl
  · exact rfl

theorem State.finishHead_runs (t h q status detail result : Nat) (deg : Bool) :
    RunsStay d s (s.finishHead t h q status detail result deg) := by
  unfold State.finishHead
  split
  · exact rfl
  · split
    · exact rfl
    · extract_lets phase rec_ s1 s2 s3
      have written : RunsStay d s s1 := by
        unfold s1
        split
        · exact TellsHost.runs d (State.hostWrite_tells ..)
        · exact rfl
      have popped : RunsStay d s s2 := RunsStay.trans written (.of_die rfl)
      have marked : RunsStay d s s3 := by
        unfold s3
        split
        · exact RunsStay.trans popped (State.errEvent_runs ..)
        · exact popped
      split
      · split
        · exact RunsStay.trans marked (TellsHost.runs d (State.msix_tells ..))
        · exact marked
      · exact marked

theorem State.settleOnce_runs (t h q : Nat) : RunsStay d s (s.settleOnce t h q) := by
  unfold State.settleOnce
  split
  · exact rfl
  · split
    · exact rfl
    · split
      · exact State.finishHead_runs ..
      · split
        · exact State.finishHead_runs ..
        · split
          · exact State.finishHead_runs ..
          · exact rfl

theorem State.complete_runs (t h q status detail result : Nat) (deg : Bool) :
    RunsStay d s (s.complete t h q status detail result deg) := by
  have go (n : Nat) (u : State) : RunsStay d u (State.settle.go t h q n u) := by
    induction n generalizing u with
    | zero => exact rfl
    | succ n ih => exact RunsStay.trans (u.settleOnce_runs d t h q) (ih _)
  exact RunsStay.trans (s.finishHead_runs d ..) (go ..)

theorem PortsOnly.runs {d : DieId} {s t : State} (h : PortsOnly d s t) : RunsStay d s t := congrArg Tiles.runs h.til

theorem State.leadFall_runs : RunsStay d s (s.leadFall d) := by
  unfold State.leadFall State.retarget State.moveVcore
  dsimp only
  split
  · exact rfl
  · unfold RunsStay
    rw [State.modDie_die, State.modDie_die]
    dsimp only
    split
    · rfl
    · split
      · rfl
      · split <;> rfl

/-- A plan that ends is no run any more. -/
theorem State.endRun_gone (t h q status detail : Nat) :
    ∀ k ∈ ((s.endRun d t h q status detail).die d).til.runs, k.is t h q = false := by
  unfold State.endRun
  split
  · next none =>
    intro k mem
    simpa using List.find?_eq_none.mp none k mem
  · next r found =>
    rw [State.complete_runs _ d]
    unfold State.stopRun
    rw [found]
    dsimp -zeta only
    extract_lets s0 s1 s2 s3
    have gone : ∀ k ∈ (s2.die d).til.runs, k.is t h q = false := by
      unfold s2 State.clearRegion
      rw [State.modDie_die, State.modDie_die]
      intro k mem
      simpa using (List.mem_filter.mp mem).2
    have closed : RunsStay d s2 s3 := by
      refine RunsStay.trans ?_ (State.closeFlows_ports ..).runs
      unfold RunsStay State.releaseBanks
      rw [State.modDie_die]
    have lowered (u : State) (same : u.die d = s3.die d) : RunsStay d s2 (u.leadFall d) :=
      RunsStay.trans (closed.trans (.of_die same)) (State.leadFall_runs ..)
    have last := fun f => lowered (s3.modCtx t h f) rfl
    unfold RunsStay at last
    rw [last]
    exact gone

theorem does_holdExpired {t h : Nat} {r : Run} {c : HoldCause} {since : Ns} {q : Queue}
    (run : ((s.die d).til.runs.find? fun r => r.tenant == t && r.handle == h && r.holding.isSome) = some r)
    (held : r.holding = some (c, since)) (queue : s.queue? t h r.queue = some q) : Does (.holdExpired d t h) s fun x =>
      x = (s.advanceTo (since + q.horizonNs)).endRun d t h r.queue stHoldExpired 0 ∧
      since + q.horizonNs ≤ x.tray.now ∧ ∀ k ∈ (x.die d).til.runs, k.is t h r.queue = false := by
  change ∃ x, execHoldExpired d t h s = .next x ∧ _
  unfold execHoldExpired
  rw [run]
  dsimp only
  rw [held, queue]
  refine ⟨_, rfl, rfl, ?_, fun _ => State.endRun_gone _ _ _ _ _ _ _ _⟩
  rw [(State.endRun_endsWork ..).tray]
  exact State.advanceTo_now ..

/-! ### The scrubber (R263) -/

theorem does_scrubLine {tile : Fin 128} {bank : Fin 8} (on : (s.die d).rails.vcore = true) :
    Does (.scrubLine d tile bank [] []) s fun x =>
      KV.getD (x.die d).til.scrub (8 * tile.val + bank.val) 0 =
        (KV.getD (s.die d).til.scrub (8 * tile.val + bank.val) 0 + 1) % 8192 ∧
      (x.die d).til.corrected = satAdd 64 (s.die d).til.corrected 0 ∧ (x.die d).til.sram = (s.die d).til.sram ∧
      (x.die d).til.poison = (s.die d).til.poison ∧ DieOnly d s x := by
  change ∃ x, execScrubLine d tile bank [] [] s = .next x ∧ _
  unfold execScrubLine
  dsimp only
  rw [if_neg (by simp [on])]
  refine ⟨_, rfl, ?_⟩
  simp only [List.filter_nil, List.eraseDups_nil, List.foldl_nil, List.length_nil]
  rw [State.modDie_die]
  exact ⟨KV.getD_put .., rfl, rfl, rfl, State.modDie_only ..⟩

theorem does_scrubLine_off {tile : Fin 128} {bank : Fin 8} (off : (s.die d).rails.vcore = false) :
    Does (.scrubLine d tile bank [] []) s fun x => x = s := by
  change ∃ x, execScrubLine d tile bank [] [] s = .next x ∧ _
  unfold execScrubLine
  dsimp only
  rw [if_pos (by simp [off])]
  exact ⟨s, rfl, rfl⟩

end

end Sys2Proof.Machine

namespace Sys2Proof
open Sys2Proof.Machine

/-- Settles O30: a run that ended is filtered out, and nothing after that brings a run back. -/
theorem floatHoldScrub : Obligations.FloatHoldScrub :=
  ⟨fun s d _ _ _ _ => does_floatSegmentStart s d, fun s d _ _ _ _ _ _ => does_holdExpired s d, fun s d _ _ => does_scrubLine s d,
    fun s d _ _ => does_scrubLine_off s d⟩

end Sys2Proof
end

section
/-! A bad control record while a request for budget waits (12.10, 8.7). -/

namespace Sys2Proof
open Sys2Proof.Machine

/-- A reset die at which one request for budget waits. -/
def waitingLender : Die := { (State.reset.die 0) with mer := { lendWait := [(0, 0, 0)] } }

/-- Every die is `waitingLender`. -/
def waitingLenders : State := { State.reset with dies := Vector.replicate 8 waitingLender }

/-- Refutes O35: the arrival of a bad control record serves the requests for budget that wait (R207), which the statement has
stay. -/
theorem not_flitsAndRecords : ¬ Obligations.FlitsAndRecords := by
  unfold Obligations.FlitsAndRecords
  rintro ⟨-, -, -, -, -, bad, -⟩
  obtain ⟨t, served, rest, -⟩ := (bad waitingLenders 0 none [] (by decide +kernel)).seen
    (test := fun t => decide ((t.die 0).mer.lendWait = [])) (by decide +kernel)
  have kept : (t.die 0).mer = (waitingLenders.die 0).mer := by rw [rest]
  rw [kept] at served
  exact absurd served (by decide +kernel)

end Sys2Proof
end

section
/-! What records, flits and flows that end leave of a fabric: its rings, its counts, and every port but its queues (12.8 to
12.10). -/

namespace Sys2Proof.Machine
open Sys2Proof

/-- A port without its link sequence, what waits on it, and its labels. -/
def Port.link (x : Port) : Port := { x with txSeq := 0, replay := [], out := [], fwd := [], labels := [] }

/-- Nothing of a fabric changed but the queues of its ports, its discards, and its flows; no flow is new. -/
structure Fabric.Fades (x y : Fabric) : Prop where
  rest : y = { x with
    ports := y.ports, tx := y.tx, rx := y.rx, transit := y.transit, flowsLost := y.flowsLost, ctrlDiscards := y.ctrlDiscards }
  links : y.ports.map Port.link = x.ports.map Port.link
  sends : ∀ f ∈ y.tx, ∃ g ∈ x.tx, g.tenant = f.tenant ∧ g.id = f.id
  receives : ∀ f ∈ y.rx, f ∈ x.rx

/-- Flows of the fabric may have closed; none was lost, and no transit entry changed. -/
structure Fabric.Pumps (x y : Fabric) : Prop extends Fabric.Fades x y where
  transit : y.transit = x.transit
  flowsLost : y.flowsLost = x.flowsLost

theorem Fabric.Fades.refl (x : Fabric) : x.Fades x := ⟨rfl, rfl, fun f mem => ⟨f, mem, rfl, rfl⟩, fun _ mem => mem⟩

theorem Fabric.Pumps.refl (x : Fabric) : x.Pumps x := ⟨.refl x, rfl, rfl⟩

theorem Fabric.Fades.trans {x y z : Fabric} (h : x.Fades y) (k : y.Fades z) : x.Fades z := by
  refine ⟨?_, k.links.trans h.links, fun f mem => ?_, fun f mem => h.receives f (k.receives f mem)⟩
  · have a := h.rest
    have b := k.rest
    rw [b, a]
  · obtain ⟨g, mem, tenant, id⟩ := k.sends f mem
    obtain ⟨e, mem, tenant', id'⟩ := h.sends g mem
    exact ⟨e, mem, tenant'.trans tenant, id'.trans id⟩

theorem Fabric.Pumps.trans {x y z : Fabric} (h : x.Pumps y) (k : y.Pumps z) : x.Pumps z :=
  ⟨h.toFades.trans k.toFades, k.transit.trans h.transit, k.flowsLost.trans h.flowsLost⟩

/-- A port of the fabric keeps its link. -/
theorem Fabric.Fades.port {x y : Fabric} (h : x.Fades y) {p : Nat} {a : Port} (was : x.ports[p]? = some a) :
    ∃ b, y.ports[p]? = some b ∧ b.link = a.link := by
  have same := congrArg (fun l => l[p]?) h.links
  rw [List.getElem?_map, List.getElem?_map, was] at same
  obtain ⟨b, found, link⟩ := Option.map_eq_some_iff.mp same
  exact ⟨b, found, link⟩

/-- The fabric of die d fades. -/
def FabFades (d : DieId) (s t : State) : Prop := (s.die d).fab.Fades (t.die d).fab

/-- The fabric of die d pumps. -/
def FabPumps (d : DieId) (s t : State) : Prop := (s.die d).fab.Pumps (t.die d).fab

section
variable {d : DieId} {s t u : State}

theorem FabFades.trans (h : FabFades d s t) (k : FabFades d t u) : FabFades d s u := Fabric.Fades.trans h k

theorem FabPumps.trans (h : FabPumps d s t) (k : FabPumps d t u) : FabPumps d s u := Fabric.Pumps.trans h k

theorem FabPumps.fades (h : FabPumps d s t) : FabFades d s t := Fabric.Pumps.toFades h

theorem FabPumps.refl (d : DieId) (s : State) : FabPumps d s s := Fabric.Pumps.refl _

theorem FabPumps.of_fab (same : (t.die d).fab = (s.die d).fab) : FabPumps d s t := by
  unfold FabPumps
  rw [same]
  exact .refl _

theorem FabPumps.of_die (same : t.die d = s.die d) : FabPumps d s t := .of_fab (by rw [same])

theorem TellsHost.pumps (told : TellsHost s t) : FabPumps d s t := .of_die (by rw [State.die, told.dies]; rfl)

theorem FabPumps.foldl {α : Type} {f : State → α → State} (hf : ∀ u x, FabPumps d u (f u x)) (l : List α) (s : State) :
    FabPumps d s (l.foldl f s) := by
  induction l generalizing s with
  | nil => exact .refl d s
  | cons x xs ih => exact (hf s x).trans (ih _)

theorem FabFades.foldl {α : Type} {f : State → α → State} (hf : ∀ u x, FabFades d u (f u x)) (l : List α) (s : State) :
    FabFades d s (l.foldl f s) := by
  induction l generalizing s with
  | nil => exact (FabPumps.refl d s).fades
  | cons x xs ih => exact (hf s x).trans (ih _)

end

section
variable (s : State) (d : DieId)

/-- A change of die d that leaves its fabric. -/
theorem State.modDie_pumps (f : Die → Die) (same : ∀ x, (f x).fab = x.fab) : FabPumps d s (s.modDie d f) :=
  .of_fab (by rw [State.modDie_die, same])

theorem State.modPort_pumps (p : Nat) (f : Port → Port) (link : ∀ x, (f x).link = x.link) : FabPumps d s (s.modPort d p f) := by
  unfold FabPumps State.modPort
  rw [State.modDie_die]
  refine ⟨⟨rfl, List.ext_getElem? fun i => ?_, fun f mem => ⟨f, mem, rfl, rfl⟩, fun _ mem => mem⟩, rfl, rfl⟩
  dsimp only
  rw [List.getElem?_map, List.getElem?_map, List.getElem?_modify]
  cases (s.die d).fab.ports[i]? with
  | none => rfl
  | some x =>
    change Option.map Port.link (some (if p = i then f x else x)) = some x.link
    split
    · exact congrArg some (link x)
    · rfl

theorem State.modTx_pumps (f : List TxFlow → List TxFlow)
    (within : ∀ l, ∀ x ∈ f l, ∃ g ∈ l, g.tenant = x.tenant ∧ g.id = x.id) : FabPumps d s (s.modTx d f) := by
  unfold FabPumps State.modTx
  rw [State.modDie_die]
  exact ⟨⟨rfl, rfl, within _, fun _ mem => mem⟩, rfl, rfl⟩

theorem State.modTx_filter_pumps (q : TxFlow → Bool) : FabPumps d s (s.modTx d fun l => l.filter q) :=
  s.modTx_pumps d _ fun _ x mem => ⟨x, (List.mem_filter.mp mem).1, rfl, rfl⟩

theorem State.modTx_map_pumps (g : TxFlow → TxFlow) (key : ∀ x, x.tenant = (g x).tenant ∧ x.id = (g x).id) :
    FabPumps d s (s.modTx d fun l => l.map g) := by
  refine s.modTx_pumps d _ fun l x mem => ?_
  obtain ⟨y, was, rfl⟩ := List.mem_map.mp mem
  exact ⟨y, was, key y⟩

theorem State.modRx_filter_pumps (q : RxFlow → Bool) : FabPumps d s (s.modRx d fun l => l.filter q) := by
  unfold FabPumps State.modRx
  rw [State.modDie_die]
  exact ⟨⟨rfl, rfl, fun f mem => ⟨f, mem, rfl, rfl⟩, fun _ mem => (List.mem_filter.mp mem).1⟩, rfl, rfl⟩

theorem State.ctrlDiscard_pumps : FabPumps d s (s.ctrlDiscard d) := by
  unfold FabPumps State.ctrlDiscard
  rw [State.modDie_die]
  exact ⟨⟨rfl, rfl, fun f mem => ⟨f, mem, rfl, rfl⟩, fun _ mem => mem⟩, rfl, rfl⟩

/-! ### Records and flits -/

theorem State.sendFlit_pumps (p ty : Nat) (last : Bool) (label tenant fseq : Nat) (payload : List Byte) :
    FabPumps d s (s.sendFlit d p ty last label tenant fseq payload) := by
  refine FabPumps.trans (t := s.emit (.flit d p _)) (.of_die rfl) (State.modPort_pumps _ _ _ _ ?_)
  exact fun _ => rfl

theorem State.freeLabel_pumps (p l : Nat) : FabPumps d s (s.freeLabel d p l) := s.modPort_pumps d p _ fun _ => rfl

theorem State.putRecord_pumps (p : Nat) (bytes : List Byte) : FabPumps d s (s.putRecord d p bytes) := by
  unfold State.putRecord
  dsimp only
  split
  · exact s.modPort_pumps d p _ fun _ => rfl
  · split
    · exact s.sendFlit_pumps ..
    · exact s.ctrlDiscard_pumps d

theorem State.sendHop_pumps (p ty : Nat) (body : List Byte) : FabPumps d s (s.sendHop d p ty body) := s.putRecord_pumps ..

theorem State.sendRecord_pumps (ty dest : Nat) (body : List Byte) : FabPumps d s (s.sendRecord d ty dest body) := by
  unfold State.sendRecord State.sendFor
  dsimp only
  split
  · exact s.ctrlDiscard_pumps d
  · exact s.putRecord_pumps ..

theorem State.tellLost_pumps (toId t cause id src dst : Nat) : FabPumps d s (s.tellLost d toId t cause id src dst) := by
  unfold State.tellLost
  split
  · exact .refl d s
  · exact s.sendRecord_pumps ..

theorem State.drainRecords_pumps (p : Nat) : FabPumps d s (s.drainRecords d p) := by
  unfold State.drainRecords
  dsimp only
  split
  · refine FabPumps.trans (State.modPort_pumps _ _ _ _ ?_) (.foldl (fun u r => u.putRecord_pumps ..) _ _)
    exact fun _ => rfl
  · exact .refl d s

theorem State.sendTransit_pumps (p : Nat) : FabPumps d s (s.sendTransit d p) := by
  unfold State.sendTransit
  dsimp only
  split
  · exact .refl d s
  · refine FabPumps.trans (State.modPort_pumps _ _ _ _ ?_) (.foldl (fun u r => u.sendFlit_pumps ..) _ _)
    exact fun _ => rfl

theorem State.pumpOnce_pumps (t id : Nat) : FabPumps d s (s.pumpOnce d t id) := by
  unfold State.pumpOnce
  split
  · exact .refl d s
  · dsimp only
    split
    · exact .refl d s
    · split
      · split
        · exact ((s.sendFlit_pumps ..).trans (State.modTx_filter_pumps ..)).trans (State.freeLabel_pumps ..)
        · exact .refl d s
      · split
        · exact .refl d s
        · refine (s.sendFlit_pumps ..).trans (State.modTx_map_pumps _ _ _ fun x => ?_)
          split <;> exact ⟨rfl, rfl⟩

theorem State.pump_pumps (t id : Nat) : FabPumps d s (s.pump d t id) := by
  have go (n : Nat) (u : State) : FabPumps d u (State.pump.go d t id n u) := by
    induction n generalizing u with
    | zero => exact .refl ..
    | succ n ih => exact (u.pumpOnce_pumps ..).trans (ih _)
  exact go 256 s

theorem State.pumpSlot_pumps (p k t : Nat) : FabPumps d s (s.pumpSlot d p k t) := by
  unfold State.pumpSlot
  dsimp only
  split
  · exact s.pumpOnce_pumps ..
  · exact .refl d s

theorem State.pumpPort_pumps (p : Nat) : FabPumps d s (s.pumpPort d p) := by
  have go (n : Nat) (u : State) : FabPumps d u (State.pumpPort.go d p n u) := by
    induction n generalizing u with
    | zero => exact .refl ..
    | succ n ih =>
      refine FabPumps.trans ?_ (ih _)
      split
      · exact .foldl (fun u t => u.pumpSlot_pumps ..) _ u
      · exact .foldl (fun u f => u.pumpOnce_pumps ..) _ u
  exact (s.sendTransit_pumps d p).trans (go ..)

/-! ### Plans that end -/

theorem State.closeFlows_pumps (t h q : Nat) : FabPumps d s (s.closeFlows d t h q) := by
  unfold State.closeFlows
  refine FabPumps.trans (FabPumps.trans (State.modTx_map_pumps _ _ _ fun x => ?_) (State.modRx_filter_pumps ..))
    (.foldl (fun u f => u.pump_pumps ..) _ _)
  split <;> exact ⟨rfl, rfl⟩

theorem State.countRun_pumps (r : Run) : FabPumps d s (s.countRun d r) := by
  refine .foldl (fun u a => ?_) _ s
  refine State.modDie_pumps u d _ ?_
  exact fun _ => rfl

theorem State.clearRegion_pumps (p : Plan) : FabPumps d s (s.clearRegion d p) := s.modDie_pumps d _ fun _ => rfl

theorem State.releaseBanks_pumps (mask : Nat) : FabPumps d s (s.releaseBanks d mask) := s.modDie_pumps d _ fun _ => rfl

theorem State.sramFree_pumps (a n : Nat) : FabPumps d s (s.sramFree d a n) := by
  refine FabPumps.trans (t := s.skipFree n) (.of_die rfl) ?_
  exact State.modDie_pumps _ d _ fun _ => rfl

theorem State.leadFall_pumps : FabPumps d s (s.leadFall d) := by
  unfold State.leadFall State.retarget State.moveVcore
  dsimp only
  split
  · exact .refl d s
  · refine FabPumps.trans (State.modDie_pumps _ _ _ ?_) (State.modDie_pumps _ _ _ fun x => ?_)
    · exact fun _ => rfl
    · split
      · rfl
      · split
        · rfl
        · split <;> rfl

theorem State.stopRun_pumps (t h q : Nat) : FabPumps d s (s.stopRun d t h q) := by
  unfold State.stopRun
  split
  · exact .refl d s
  · next r _ =>
    extract_lets s0 s1 s2 s3
    have counted : FabPumps d s s0 := s.countRun_pumps d r
    have freed : FabPumps d s s1 := counted.trans (.foldl (fun u p => u.sramFree_pumps ..) _ _)
    have cleared : FabPumps d s s2 := by
      refine freed.trans (FabPumps.trans (State.modDie_pumps _ _ _ ?_) (State.clearRegion_pumps ..))
      exact fun _ => rfl
    have closed : FabPumps d s s3 := (cleared.trans (State.releaseBanks_pumps ..)).trans (State.closeFlows_pumps ..)
    clear_value s3
    refine closed.trans (FabPumps.trans (.of_die ?_) (State.leadFall_pumps ..))
    rfl

theorem State.finishHead_pumps (t h q status detail result : Nat) (deg : Bool) :
    FabPumps d s (s.finishHead t h q status detail result deg) := by
  unfold State.finishHead
  split
  · exact .refl d s
  · split
    · exact .refl d s
    · extract_lets phase rec_ s1 s2 s3
      have written : FabPumps d s s1 := by
        unfold s1
        split
        · exact (State.hostWrite_tells ..).pumps
        · exact .refl d s
      have popped : FabPumps d s s2 := written.trans (.of_die rfl)
      have marked : FabPumps d s s3 := by
        unfold s3 State.errEvent
        split
        · split
          · exact popped.trans (FabPumps.trans (.of_die (by rfl)) (State.setEvent_tells ..).pumps)
          · exact popped
        · exact popped
      split
      · split
        · exact marked.trans (State.msix_tells ..).pumps
        · exact marked
      · exact marked

theorem State.complete_pumps (t h q status detail result : Nat) (deg : Bool) :
    FabPumps d s (s.complete t h q status detail result deg) := by
  have once (u : State) : FabPumps d u (u.settleOnce t h q) := by
    unfold State.settleOnce
    split
    · exact .refl d u
    · split
      · exact .refl d u
      · split
        · exact u.finishHead_pumps ..
        · split
          · exact u.finishHead_pumps ..
          · split
            · exact u.finishHead_pumps ..
            · exact .refl d u
  have go (n : Nat) (u : State) : FabPumps d u (State.settle.go t h q n u) := by
    induction n generalizing u with
    | zero => exact .refl d u
    | succ n ih => exact (once u).trans (ih _)
  exact (s.finishHead_pumps d ..).trans (go ..)

theorem State.endRun_pumps (t h q status detail : Nat) : FabPumps d s (s.endRun d t h q status detail) := by
  unfold State.endRun
  split
  · exact .refl d s
  · exact (s.stopRun_pumps ..).trans (State.complete_pumps ..)

/-! ### Flows that are lost (R338) -/

/-- The flow is gone, and counts once when there was one. -/
theorem State.loseFlow_spec (t id : Nat) : FabFades d s (s.loseFlow d t id) ∧
    (∀ f ∈ ((s.loseFlow d t id).die d).fab.tx, f.is t id = false) ∧
    (∀ f ∈ ((s.loseFlow d t id).die d).fab.rx, f.is t id = false) ∧
    ((∃ f ∈ (s.die d).fab.tx, f.is t id = true) →
      ((s.loseFlow d t id).die d).fab.flowsLost = satAdd 32 (s.die d).fab.flowsLost 1) := by
  unfold State.loseFlow
  extract_lets tx rx s1 s2
  have sent : FabPumps d s s1 ∧ ∀ f ∈ (s1.die d).fab.tx, f.is t id = false := by
    unfold s1 tx
    split
    · next f _ =>
      have dropped := s.modTx_filter_pumps d fun g => !g.is t id
      have after := (State.freeLabel_pumps (s.modTx d fun fs => fs.filter fun g => !g.is t id) d f.port f.label).trans
        (State.endRun_pumps _ d t f.handle f.queue stFlowLost 0)
      refine ⟨dropped.trans after, fun g mem => ?_⟩
      obtain ⟨e, mem, tenant, same⟩ := after.sends g mem
      rw [State.modTx, State.modDie_die] at mem
      have no := (List.mem_filter.mp mem).2
      unfold TxFlow.is at no ⊢
      rw [← tenant, ← same]
      simpa only [Bool.not_eq_true'] using no
    · next none => exact ⟨.refl d s, fun f mem => by simpa using List.find?_eq_none.mp none f mem⟩
  have received : FabPumps d s1 s2 ∧ ∀ f ∈ (s2.die d).fab.rx, f.is t id = false := by
    unfold s2 rx
    split
    · next f _ =>
      have dropped := s1.modRx_filter_pumps d fun g => !g.is t id
      have after := State.endRun_pumps (s1.modRx d fun fs => fs.filter fun g => !g.is t id) d t f.handle f.queue stFlowLost 0
      refine ⟨dropped.trans after, fun g mem => ?_⟩
      have mem := after.receives g mem
      rw [State.modRx, State.modDie_die] at mem
      simpa using (List.mem_filter.mp mem).2
    · next none =>
      exact ⟨.refl d s1, fun f mem => by simpa using List.find?_eq_none.mp none f (sent.1.receives f mem)⟩
  have gone : ∀ f ∈ (s2.die d).fab.tx, f.is t id = false := by
    intro g mem
    obtain ⟨e, mem, tenant, same⟩ := received.1.sends g mem
    have no := sent.2 e mem
    unfold TxFlow.is at no ⊢
    rwa [← tenant, ← same]
  have both := sent.1.trans received.1
  split
  · have counted : (s2.modDie d fun x => { x with fab := { x.fab with flowsLost := satAdd 32 x.fab.flowsLost 1 } }).die d =
        { s2.die d with fab := { (s2.die d).fab with flowsLost := satAdd 32 (s2.die d).fab.flowsLost 1 } } :=
      State.modDie_die ..
    unfold FabFades
    rw [counted]
    refine ⟨?_, gone, received.2, fun _ => by dsimp only; rw [both.flowsLost]⟩
    exact both.toFades.trans ⟨rfl, rfl, fun f mem => ⟨f, mem, rfl, rfl⟩, fun _ mem => mem⟩
  · next none =>
    refine ⟨both.fades, gone, received.2, fun ⟨f, mem, is⟩ => ?_⟩
    refine absurd (.inl ?_) none
    unfold tx
    rw [List.find?_isSome]
    exact ⟨f, mem, is⟩

theorem State.loseTransit_fades (e : Transit) (cause : Nat) : FabFades d s (s.loseTransit d e cause) := by
  unfold State.loseTransit
  extract_lets s1
  have freed : FabFades d s s1 := by
    refine FabFades.trans ?_ (State.freeLabel_pumps ..).fades
    unfold FabFades
    rw [State.modDie_die]
    exact ⟨rfl, rfl, fun f mem => ⟨f, mem, rfl, rfl⟩, fun _ mem => mem⟩
  exact (freed.trans (State.tellLost_pumps ..).fades).trans (State.tellLost_pumps ..).fades

theorem State.tellLost_loseFlow_fades (toId t cause id src dst u i : Nat) :
    FabFades d s ((s.tellLost d toId t cause id src dst).loseFlow d u i) :=
  (State.tellLost_pumps ..).fades.trans (State.loseFlow_spec ..).1

theorem State.loseFlows_fades (cause : Nat) (tx : TxFlow → Bool) (rx : RxFlow → Bool) (tr : Transit → Bool) :
    FabFades d s (s.loseFlows d cause tx rx tr) := by
  unfold State.loseFlows
  extract_lets me txs rxs trs s1 s2
  have sent : FabFades d s s1 := .foldl (fun u _ => u.tellLost_loseFlow_fades ..) _ s
  have received : FabFades d s s2 := sent.trans (.foldl (fun u _ => u.tellLost_loseFlow_fades ..) _ _)
  exact received.trans (.foldl (fun u _ => u.loseTransit_fades ..) _ _)

end

end Sys2Proof.Machine
end

section
/-! Opening, credit, closing and loss of flows (12.9). -/

namespace Sys2Proof.Machine
open Sys2Proof

/-- The transit entry of an OPEN that arrived on port p and takes label l. -/
def OpenRec.entry (r : OpenRec) (p l : Nat) : Transit :=
  { inPort := p, inLabel := r.label, tenant := r.tenant, outPort := routeNibble r.route r.idx, outLabel := l, id := r.id
    source := r.source, dest := r.dest }

section
variable {s : State} {d : DieId}

/-! ### OPEN (R327, R328) -/

theorem does_open_transit {port : Fin 16} {r : OpenRec} {l : Nat} (transits : r.idx < r.hops)
    (free : (s.port d (routeNibble r.route r.idx)).freeLabel = some l)
    (up : (s.port d (routeNibble r.route r.idx)).state = .up) : Does (.open_ d port r) s fun t =>
      (∃ e ∈ (t.die d).fab.transit, e.inPort = port.val ∧ e.inLabel = r.label ∧ e.tenant = r.tenant ∧
        e.outPort = routeNibble r.route r.idx ∧ e.outLabel = l ∧ e.id = r.id) ∧
      (t.die d).til = (s.die d).til ∧ ∀ e, e ≠ d → t.die e = s.die e := by
  change ∃ t, execOpen d port r s = .next t ∧ _
  unfold execOpen State.takeOpen
  rw [if_pos transits]
  extract_lets out x old s1
  rw [show x.freeLabel = some l from free]
  dsimp -zeta only
  have works : ¬ (!(decide (x.state = .up ∨ x.state = .degraded))) = true := by simp [x, out, up]
  rw [if_neg works]
  extract_lets s2
  have freed : PortsOnly d s s1 := .foldl (fun u e => u.freeLabel_ports ..) _ s
  have kept : FabPumps d s2 (s2.sendOpen d out { r with idx := r.idx + 1, label := l }) := State.putRecord_pumps ..
  have sent : PortsOnly d s (s2.sendOpen d out { r with idx := r.idx + 1, label := l }) :=
    (freed.trans ((s1.modFab_ports d fun y => { y with transit :=
      (y.transit.filter fun e => !(e.inPort == port.val && e.inLabel == r.label)) ++ [r.entry port.val l] }).trans
        (State.modPort_ports ..))).trans (State.putRecord_ports ..)
  have taken : r.entry port.val l ∈ (s2.die d).fab.transit := by
    unfold s2 State.modPort
    rw [State.modDie_die, State.modDie_die]
    exact List.mem_append_right _ (List.mem_singleton.mpr rfl)
  refine ⟨_, rfl, ⟨r.entry port.val l, ?_, rfl, rfl, rfl, rfl, rfl, rfl⟩, sent.til, sent.others⟩
  rw [kept.transit]
  exact taken

theorem does_open_waits {port : Fin 16} {r : OpenRec} (arrives : r.hops ≤ r.idx) (group : r.group = s.groupNo d)
    (unmatched : ((s.die d).fab.rx.find? fun f => f.fits port.val r.tenant r.id r.source) = none)
    (room : (s.die d).fab.pendOpen.length < 1024) : Does (.open_ d port r) s fun t =>
      t.die d = { s.die d with fab := { (s.die d).fab with pendOpen := (s.die d).fab.pendOpen ++
        [⟨port.val, r.tenant, r.id, r.group, r.source, r.dest, r.label⟩] } } ∧ DieOnly d s t := by
  change ∃ t, execOpen d port r s = .next t ∧ _
  unfold execOpen State.takeOpen
  rw [if_neg (by omega), if_neg (by simp [group]), unmatched]
  dsimp only
  rw [if_neg (by omega)]
  exact ⟨_, rfl, State.modDie_die .., State.modDie_only ..⟩

/-! ### Credit and close (R330, R333, R337) -/

theorem does_openDone (t id allot : Nat) : Does (.openDone d t id allot) s fun u =>
    u = (s.modTx d fun fs => fs.map fun f =>
      if f.is t id ∧ !f.opened then { f with opened := true, credit := allot } else f).pump d t id ∧
    (u.die d).til = (s.die d).til :=
  ⟨_, rfl, rfl, ((State.modTx_ports ..).trans (State.pump_ports ..)).til⟩

theorem does_credit (t id n : Nat) : Does (.credit d t id n) s fun u =>
    u = (s.modTx d fun fs => fs.map fun f => if f.is t id then { f with credit := f.credit + n } else f).pump d t id ∧
    (u.die d).til = (s.die d).til :=
  ⟨_, rfl, rfl, ((State.modTx_ports ..).trans (State.pump_ports ..)).til⟩

theorem does_closeFlit {port : Fin 16} {label t : Nat} {r : RxFlow} (ends : (s.die d).fab.transitAt port.val label = none)
    (flow : (s.die d).fab.rxAt port.val label = some r) (tenant : r.tenant = t) : Does (.closeFlit d port label t) s fun u =>
      u.die d = { s.die d with fab := { (s.die d).fab with
        rx := (s.die d).fab.rx.map fun g => if g == r then { g with label := none } else g } } ∧ DieOnly d s u := by
  change ∃ u, execCloseFlit d port label t s = .next u ∧ _
  unfold execCloseFlit State.takeClose
  dsimp only
  rw [ends, flow]
  dsimp only
  rw [if_neg (by simp [tenant])]
  exact ⟨_, rfl, State.modDie_die .., State.modDie_only ..⟩

/-! ### Loss (R338, R339) -/

theorem does_flowlost {t id cause : Nat} (flow : ∃ f ∈ (s.die d).fab.tx, f.is t id = true) :
    Does (.flowlost d t id cause) s fun u => (∀ f ∈ (u.die d).fab.tx, f.is t id = false) ∧
      (∀ f ∈ (u.die d).fab.rx, f.is t id = false) ∧
      (u.die d).fab.flowsLost = satAdd 32 (s.die d).fab.flowsLost 1 ∧ ∀ e, e ≠ d → u.die e = s.die e := by
  obtain ⟨-, sends, receives, counts⟩ := s.loseFlow_spec d t id
  exact ⟨_, rfl, sends, receives, counts flow, (s.loseFlow_endsWork d t id).others⟩

/-- Of flows lost one after the other none is left. -/
theorem lostSends_gone {tell : State → TxFlow → State} (told : ∀ u f, FabFades d u (tell u f)) (l : List TxFlow) (s : State) :
    ∀ f ∈ ((l.foldl (fun u e => (tell u e).loseFlow d e.tenant e.id) s).die d).fab.tx, ∀ e ∈ l, f.is e.tenant e.id = false := by
  induction l generalizing s with
  | nil => exact fun _ _ _ mem => absurd mem List.not_mem_nil
  | cons x xs ih =>
    intro f left e mem
    rcases List.mem_cons.mp mem with rfl | later
    · have rest : FabFades d ((tell s e).loseFlow d e.tenant e.id) _ :=
        .foldl (fun u y => (told u y).trans (State.loseFlow_spec _ d y.tenant y.id).1) xs _
      obtain ⟨g, mem, tenant, id⟩ := rest.sends f left
      have gone := (State.loseFlow_spec (tell s e) d e.tenant e.id).2.1 g mem
      unfold TxFlow.is at gone ⊢
      rwa [← tenant, ← id]
    · exact ih _ f left e later

theorem lostReceives_gone {tell : State → RxFlow → State} (told : ∀ u f, FabFades d u (tell u f)) (l : List RxFlow) (s : State) :
    ∀ f ∈ ((l.foldl (fun u e => (tell u e).loseFlow d e.tenant e.id) s).die d).fab.rx, ∀ e ∈ l, f.is e.tenant e.id = false := by
  induction l generalizing s with
  | nil => exact fun _ _ _ mem => absurd mem List.not_mem_nil
  | cons x xs ih =>
    intro f left e mem
    rcases List.mem_cons.mp mem with rfl | later
    · have rest : FabFades d ((tell s e).loseFlow d e.tenant e.id) _ :=
        .foldl (fun u y => (told u y).trans (State.loseFlow_spec _ d y.tenant y.id).1) xs _
      exact (State.loseFlow_spec (tell s e) d e.tenant e.id).2.2.1 f (rest.receives f left)
    · exact ih _ f left e later

/-- No flow that the tests select is left. -/
theorem State.loseFlows_gone (s : State) (d : DieId) (cause : Nat) (tx : TxFlow → Bool) (rx : RxFlow → Bool)
    (tr : Transit → Bool) :
    (∀ f ∈ ((s.loseFlows d cause tx rx tr).die d).fab.tx, ∀ g ∈ (s.die d).fab.tx, tx g = true → f.is g.tenant g.id = false) ∧
    ∀ f ∈ ((s.loseFlows d cause tx rx tr).die d).fab.rx, ∀ g ∈ (s.die d).fab.rx, rx g = true → f.is g.tenant g.id = false := by
  unfold State.loseFlows
  extract_lets me txs rxs trs s1 s2
  have received : FabFades d s1 s2 := .foldl (fun u _ => u.tellLost_loseFlow_fades ..) _ _
  have transits : FabFades d s2 (trs.foldl (fun s e => s.loseTransit d e cause) s2) :=
    .foldl (fun u _ => u.loseTransit_fades ..) _ _
  constructor
  · intro f mem g was hit
    obtain ⟨e, mem, tenant, id⟩ := (received.trans transits).sends f mem
    have gone := lostSends_gone (fun u f => (State.tellLost_pumps u d f.peer f.tenant cause f.id me f.peer).fades) txs s e mem
      g (List.mem_filter.mpr ⟨was, hit⟩)
    unfold TxFlow.is at gone ⊢
    rwa [← tenant, ← id]
  · intro f mem g was hit
    exact lostReceives_gone (fun u f => (State.tellLost_pumps u d f.peer f.tenant cause f.id f.peer me).fades) rxs s1 f
      (transits.receives f mem) g (List.mem_filter.mpr ⟨was, hit⟩)

theorem does_tenantHalt {t : Nat} {ids : List Nat} (member : s.identity d ∈ ids) : Does (.tenantHalt d t false ids) s fun u =>
    (∀ f ∈ (u.die d).fab.tx, f.tenant ≠ t) ∧ (∀ f ∈ (u.die d).fab.rx, f.tenant ≠ t) ∧
    ∀ e, e ≠ d → u.die e = s.die e := by
  change ∃ u, execTenantHalt d t false ids s = .next u ∧ _
  unfold execTenantHalt State.takeTenantHalt
  extract_lets me hit s1
  have here : me = true := by simpa [me] using member
  have hits (b : Bool) : hit t me b = true := by simp [hit, here]
  have gone := s.loseFlows_gone d 5 (fun f => hit f.tenant me (ids.contains f.peer))
    (fun f => hit f.tenant me (ids.contains f.peer)) (fun e => hit e.tenant (ids.contains e.source) (ids.contains e.dest))
  have fades := s.loseFlows_fades d 5 (fun f => hit f.tenant me (ids.contains f.peer))
    (fun f => hit f.tenant me (ids.contains f.peer)) (fun e => hit e.tenant (ids.contains e.source) (ids.contains e.dest))
  have others := (s.loseFlows_endsWork d 5 (fun f => hit f.tenant me (ids.contains f.peer))
    (fun f => hit f.tenant me (ids.contains f.peer)) (fun e => hit e.tenant (ids.contains e.source) (ids.contains e.dest))).others
  refine ⟨_, rfl, ?_, ?_, fun e he => (State.modDie_die_ne _ _ _ _ he).trans (others e he)⟩
  · rw [State.modDie_die]
    rintro f mem rfl
    obtain ⟨g, was, tenant, id⟩ := fades.sends f mem
    have no := gone.1 f mem g was (by rw [tenant]; exact hits _)
    simp [TxFlow.is, tenant, id] at no
  · rw [State.modDie_die]
    rintro f mem rfl
    have no := gone.2 f mem f (fades.receives f mem) (hits _)
    simp [RxFlow.is] at no

end

end Sys2Proof.Machine

namespace Sys2Proof
open Sys2Proof.Machine

/-- Settles O36: an OPEN, an OPEN_DONE, a CREDIT and a close flit each end in the named change of the die's flows, and a lost
flow is gone because what its loss ends and sends makes no flow. -/
theorem flows : Obligations.Flows :=
  ⟨fun _ _ _ _ _ transits free up => does_open_transit transits free up,
   fun _ _ _ _ arrives group unmatched room => does_open_waits arrives group unmatched room,
   fun _ _ t id allot => does_openDone t id allot,
   fun _ _ t id n => does_credit t id n,
   fun _ _ _ _ _ _ ends flow tenant => does_closeFlit ends flow tenant,
   fun _ _ _ _ _ flow => does_flowlost flow,
   fun _ _ _ _ member => does_tenantHalt member⟩

end Sys2Proof
end

section
/-! Lines, lane maps and ports that go down: what happens to the port, and what stays of the rest (12.4, 12.5). -/

namespace Sys2Proof.Machine
open Sys2Proof

/-- Work on the ports of die d: its rings, the other dies, runtime and the settings stay. -/
structure PortWork (d : DieId) (s t : State) : Prop where
  others : ∀ e, e ≠ d → t.die e = s.die e
  rings : (t.die d).fab.rings = (s.die d).fab.rings
  now : t.tray.now = s.tray.now
  setting : ∀ i u l, t.setting i u l = s.setting i u l

section
variable {d : DieId} {s t u : State}

theorem PortWork.refl (d : DieId) (s : State) : PortWork d s s := ⟨fun _ _ => rfl, rfl, rfl, fun _ _ _ => rfl⟩

theorem PortWork.trans (h : PortWork d s t) (k : PortWork d t u) : PortWork d s u :=
  ⟨fun e he => (k.others e he).trans (h.others e he), k.rings.trans h.rings, k.now.trans h.now,
    fun i u l => (k.setting i u l).trans (h.setting i u l)⟩

theorem EndsWork.portWork (h : EndsWork d s t) (fades : FabFades d s t) : PortWork d s t :=
  ⟨h.others, by rw [fades.rest], by rw [h.tray], fun _ _ _ => by unfold State.setting; rw [h.tray]⟩

theorem PortsOnly.portWork (h : PortsOnly d s t) (pumps : FabPumps d s t) : PortWork d s t := h.endsWork.portWork pumps.fades

theorem PortWork.foldl {α : Type} {f : State → α → State} (hf : ∀ u x, PortWork d u (f u x)) (l : List α) (s : State) :
    PortWork d s (l.foldl f s) := by
  induction l generalizing s with
  | nil => exact .refl d s
  | cons x xs ih => exact (hf s x).trans (ih _)

/-- A port under no queue or label change. -/
theorem FabPumps.port (h : FabPumps d s t) {p : Nat} {x : Port} (was : (s.die d).fab.ports[p]? = some x) :
    ∃ y, (t.die d).fab.ports[p]? = some y ∧ y.link = x.link := h.fades.port was

end

section
variable {s : State} {d : DieId} {p : Nat} {x : Port}

theorem State.modDie_portWork (s : State) (d : DieId) (f : Die → Die) (rings : ∀ x, (f x).fab.rings = x.fab.rings) :
    PortWork d s (s.modDie d f) :=
  ⟨fun _ he => State.modDie_die_ne _ _ _ _ he, by rw [State.modDie_die, rings], rfl, fun _ _ _ => rfl⟩

theorem State.modPort_portWork (s : State) (d : DieId) (p : Nat) (f : Port → Port) : PortWork d s (s.modPort d p f) :=
  s.modDie_portWork d _ fun _ => rfl

theorem State.logDie_portWork (s : State) (d : DieId) (code : Nat) (detail : List Byte) :
    PortWork d s (s.logDie d code detail) :=
  ⟨fun e _ => State.logDie_die .., by rw [State.logDie_die], by rw [State.logDie, State.log_rest],
    fun _ _ _ => by unfold State.setting; rw [State.logDie, State.log_rest]⟩

theorem State.sendHop_portWork (s : State) (d : DieId) (p ty : Nat) (body : List Byte) : PortWork d s (s.sendHop d p ty body) :=
  (s.sendHop_ports ..).portWork (s.sendHop_pumps ..)

theorem State.drainRecords_ports (s : State) (d : DieId) (p : Nat) : PortsOnly d s (s.drainRecords d p) :=
  .ite ((State.modPort_ports ..).trans (.foldl (fun _ _ => State.putRecord_ports ..) _ _)) (.refl d s)

theorem State.trainSend_portWork (s : State) (d : DieId) (p ty : Nat) (body : List Byte) :
    PortWork d s (s.trainSend d p ty body) := ⟨fun _ _ => rfl, rfl, rfl, fun _ _ _ => rfl⟩

theorem State.startTraining_portWork (s : State) (d : DieId) (p : Nat) : PortWork d s (s.startTraining d p) :=
  (State.modPort_portWork ..).trans (State.trainSend_portWork ..)

theorem State.port_of (was : (s.die d).fab.ports[p]? = some x) : s.port d p = x := by
  unfold State.port
  rw [List.getD_eq_getElem?_getD, was]
  rfl

theorem State.modPort_port (f : Port → Port) (was : (s.die d).fab.ports[p]? = some x) :
    ((s.modPort d p f).die d).fab.ports[p]? = some (f x) := by
  rw [State.modPort, State.modDie_die]
  dsimp only
  rw [List.getElem?_modify, was]
  exact congrArg some (if_pos rfl)

theorem State.modPort_port_ne (f : Port → Port) {q : Nat} (other : q ≠ p) :
    ((s.modPort d q f).die d).fab.ports[p]? = (s.die d).fab.ports[p]? := by
  rw [State.modPort, State.modDie_die]
  dsimp only
  rw [List.getElem?_modify]
  cases (s.die d).fab.ports[p]? with
  | none => rfl
  | some x => exact congrArg some (if_neg other)

/-! ### Ports that go down -/

theorem State.loseFlows_portWork (s : State) (d : DieId) (cause : Nat) (tx : TxFlow → Bool) (rx : RxFlow → Bool)
    (tr : Transit → Bool) : PortWork d s (s.loseFlows d cause tx rx tr) :=
  (s.loseFlows_endsWork ..).portWork (s.loseFlows_fades ..)

theorem State.portDown_portWork (s : State) (d : DieId) (p : Nat) : PortWork d s (s.portDown d p) := by
  unfold State.portDown
  refine PortWork.trans ?_ (State.loseFlows_portWork ..)
  refine PortWork.trans ?_ (State.logDie_portWork ..)
  refine PortWork.trans (State.modDie_portWork _ _ _ ?_) (State.modPort_portWork ..)
  exact fun _ => rfl

theorem State.portDown_spec (was : (s.die d).fab.ports[p]? = some x) :
    (∃ y, ((s.portDown d p).die d).fab.ports[p]? = some y ∧ y.state = .down ∧ y.cal = none ∧ y.tx = x.tx ∧ y.rx = x.rx) ∧
      ((s.portDown d p).die d).fab.portsLost = satAdd 32 (s.die d).fab.portsLost 1 := by
  unfold State.portDown
  extract_lets s1 s2
  have lost : (s2.die d).fab.portsLost = satAdd 32 (s.die d).fab.portsLost 1 := by
    unfold s2 s1
    rw [State.logDie_die, State.modPort, State.modDie_die, State.modDie_die]
  have same : (s1.die d).fab.ports[p]? = some x := by
    unfold s1
    rw [State.modDie_die]
    exact was
  have down : (s2.die d).fab.ports[p]? = some { x with
      state := .down, downAt := s.tray.now, replay := [], out := [], fwd := [], cal := none, labels := [] } := by
    unfold s2
    rw [State.logDie_die]
    exact State.modPort_port _ same
  have fades := s2.loseFlows_fades d 1 (fun f => f.port == p) (fun f => f.port == p) fun e => e.inPort == p || e.outPort == p
  obtain ⟨y, found, link⟩ := fades.port down
  refine ⟨⟨y, found, ?_, ?_, ?_, ?_⟩, ?_⟩
  · exact (congrArg Port.state link :)
  · exact (congrArg Port.cal link :)
  · exact (congrArg Port.tx link :)
  · exact (congrArg Port.rx link :)
  · rw [fades.rest]
    exact lost

theorem State.stopCal_portWork (s : State) (d : DieId) (p : Nat) : PortWork d s (s.stopCal d p) := by
  unfold State.stopCal
  split
  · exact .refl d s
  · refine State.modDie_portWork _ _ _ ?_
    exact fun _ => rfl

theorem State.stopCal_idle (idle : (s.port d p).cal = none) : s.stopCal d p = s := by
  unfold State.stopCal
  rw [idle]

theorem State.portRetrain_portWork (s : State) (d : DieId) (p : Nat) : PortWork d s (s.portRetrain d p) := by
  unfold State.portRetrain
  split
  · refine PortWork.trans ?_ (State.modDie_portWork _ _ _ ?_)
    · exact (s.stopCal_portWork ..).trans (State.modPort_portWork ..)
    · exact fun _ => rfl
  · exact .refl d s

/-! ### The lane map anew (R296, R311, R316) -/

/-- What a refit of a direction leaves of a port. -/
structure Port.Refits (drop : Bool) (x y : Port) : Prop where
  idle : x.cal = none → y.cal = none
  out : ∀ (i : Nat) (st : LineState), x.tx[i]? = some st → st.usable = false → y.tx[i]? = some st
  stays : 8 ≤ (usableLines (if drop then x.rx else x.tx)).length → y.cal = x.cal ∧ y.calNext = x.calNext ∧
    (drop = false → y.rx = x.rx) ∧ (x.state = .up ∨ x.state = .degraded → y.state = .up ∨ y.state = .degraded)

theorem Port.Refits.refl (drop : Bool) (x : Port) : x.Refits drop x :=
  ⟨id, fun _ _ h _ => h, fun _ => ⟨rfl, rfl, fun _ => rfl, id⟩⟩

theorem mapStates_out {m : List (Option Nat)} {l : List LineState} {i : Nat} {st : LineState} (at_ : l[i]? = some st)
    (out : st.usable = false) : (mapStates m l)[i]? = some st := by
  unfold mapStates
  rw [List.getElem?_mapIdx, at_]
  exact congrArg some (if_neg (by rw [out]; exact Bool.false_ne_true))

theorem Port.upState_cases (x : Port) : x.upState = .up ∨ x.upState = .degraded := by
  unfold Port.upState
  split
  · exact .inl rfl
  · exact .inr rfl

theorem State.refit_portWork (s : State) (d : DieId) (p : Nat) (drop : Bool) : PortWork d s (s.refit d p drop) := by
  unfold State.refit
  extract_lets x live old st m s1 s2
  split
  · exact .refl d s
  · have mapped : PortWork d s s1 := by
      unfold s1
      split
      · exact State.modPort_portWork ..
      · split
        · exact State.modPort_portWork ..
        · exact (s.sendHop_portWork ..).trans (State.modPort_portWork ..)
    split
    · exact mapped.trans (State.portDown_portWork ..)
    · have settled : PortWork d s s2 := mapped.trans (State.modPort_portWork ..)
      split
      · exact settled.trans (State.logDie_portWork ..)
      · exact settled

/-- The port after its lane map and its line states are new. -/
theorem State.refit_port (drop : Bool) (was : (s.die d).fab.ports[p]? = some x) :
    ∃ y, ((s.refit d p drop).die d).fab.ports[p]? = some y ∧ x.Refits drop y := by
  unfold State.refit
  rw [State.port_of was]
  extract_lets now live old st m s1 s2
  split
  · exact ⟨x, was, .refl drop x⟩
  · have mapped : ∃ y, (s1.die d).fab.ports[p]? = some y ∧ y.cal = x.cal ∧ y.calNext = x.calNext ∧ y.state = x.state ∧
        (drop = false → y.rx = x.rx) ∧
        ∀ (i : Nat) (st : LineState), x.tx[i]? = some st → st.usable = false → y.tx[i]? = some st := by
      unfold s1
      split
      · next isDrop =>
        exact ⟨_, State.modPort_port _ was, rfl, rfl, rfl, fun no => absurd (no.symm.trans isDrop) (by decide), fun _ _ h _ => h⟩
      · split
        · exact ⟨_, State.modPort_port _ was, rfl, rfl, rfl, fun _ => rfl, fun _ _ h out => mapStates_out h out⟩
        · obtain ⟨z, found, link⟩ := (s.sendHop_pumps d p 0x21 (lanemapBody (x.txSeq + 1) m)).port was
          refine ⟨_, State.modPort_port _ found, ?_, ?_, ?_, fun _ => ?_, fun i st h out => mapStates_out ?_ out⟩
          · exact (congrArg Port.cal link :)
          · exact (congrArg Port.calNext link :)
          · exact (congrArg Port.state link :)
          · exact (congrArg Port.rx link :)
          · rw [show z.tx = x.tx from (congrArg Port.tx link :)]
            exact h
    obtain ⟨y, found, cal, next, state, other, out⟩ := mapped
    split
    · next few =>
      obtain ⟨⟨z, down, -, idle, tx, -⟩, -⟩ := State.portDown_spec found
      exact ⟨z, down, fun _ => idle, fun i st h no => by rw [tx]; exact out i st h no,
        fun enough => absurd few (Nat.not_lt.mpr enough)⟩
    · have settled : ∃ z, (s2.die d).fab.ports[p]? = some z ∧ x.Refits drop z := by
        refine ⟨_, State.modPort_port _ found, ?_⟩
        split
        · exact ⟨fun idle => cal.trans idle, out, fun _ => ⟨cal, next, other, fun _ => Port.upState_cases y⟩⟩
        · exact ⟨fun idle => cal.trans idle, out, fun _ => ⟨cal, next, other, fun live => state ▸ live⟩⟩
      split
      · rw [State.logDie_die]
        exact settled
      · exact settled

/-! ### Lines and rings out of service (R306, R316 to R318) -/

theorem State.lineOut_portWork (s : State) (d : DieId) (p : Nat) (drop : Bool) (line : Nat) (dst : LineState) (lost : Bool) :
    PortWork d s (s.lineOut d p drop line dst lost) := by
  unfold State.lineOut
  extract_lets s1 x st m noMove s2 s3
  have out : PortWork d s s3 :=
    ((s.stopCal_portWork d p).trans (State.modPort_portWork ..)).trans (State.refit_portWork ..)
  split
  · exact out.trans (State.portRetrain_portWork ..)
  · exact out

/-- The ring is unlocked and searched from now on. -/
theorem State.unlockRing_spec {n : Nat} (locked : ((s.die d).fab.heater n).locked = true) :
    ((s.unlockRing d n).die d).fab.heater n =
      { (s.die d).fab.heater n with locked := false, bad := 0, sat := 0, searchAt := some s.tray.now } ∧
    ∀ e, e ≠ d → (s.unlockRing d n).die e = s.die e := by
  unfold State.unlockRing
  extract_lets p drop r x line
  rw [if_neg (by rw [show r.locked = true from locked]; decide)]
  refine ⟨?_, fun e he => ((State.lineOut_portWork ..).others e he).trans (State.modDie_die_ne _ _ _ _ he)⟩
  unfold Fabric.heater
  rw [(State.lineOut_portWork ..).rings, State.modDie_die]
  exact KV.getD_put ..

end

end Sys2Proof.Machine
end

section
/-! The states of an optical port (12.4). -/

namespace Sys2Proof.Machine
open Sys2Proof

section
variable {s : State} {d : DieId} {port : Fin 16} {x : Port}

/-! ### Far light, HELLO and LANEMAP (R309 to R311) -/

theorem does_farLightArrival (was : (s.die d).fab.ports[port.val]? = some x) (searches : x.state = .search) :
    Does (.farLightArrival d port) s fun t =>
      (t.die d).fab.ports[port.val]? = some { x with farLight := true } ∧ DieOnly d s t := by
  change ∃ t, execFarLightArrival d port s = .next t ∧ _
  unfold execFarLightArrival
  rw [if_neg (by rw [State.port_of was, searches]; decide)]
  exact ⟨_, rfl, State.modPort_port _ was, State.modDie_only ..⟩

theorem does_hello (was : (s.die d).fab.ports[port.val]? = some x) (group id farPort : Nat) (serial : List Byte) :
    Does (.hello d port group id farPort serial) s fun t =>
      (t.die d).fab.ports[port.val]? =
        some { x with neighbour := some (group, id, farPort, serial), helloHeard := true } ∧ DieOnly d s t := by
  refine ⟨_, rfl, ?_⟩
  unfold State.takeHello
  exact ⟨State.modPort_port _ was, State.modDie_only ..⟩

theorem does_lanemap {seq : Nat} (was : (s.die d).fab.ports[port.val]? = some x) (noTrain : x.state ≠ .train)
    (noDown : x.state ≠ .down) (later : seq % 4096 ≠ x.rxSeq) (lines : List Nat) :
    Does (.lanemap d port seq lines) s fun t => ∃ m, m.length = 36 ∧
      (t.die d).fab.ports[port.val]? = some { x with rxNext := some (seq % 4096, m) } ∧ DieOnly d s t := by
  change ∃ t, execLanemap d port seq lines s = .next t ∧ _
  unfold execLanemap State.takeLanemap
  dsimp only
  rw [State.port_of was, if_neg (by simp [noTrain, noDown, later])]
  exact ⟨_, rfl, _, by rw [List.length_map, List.length_range], State.modPort_port _ was, State.modDie_only ..⟩

/-! ### The end of training (R310, R311, R313) -/

theorem does_trainingComplete_down {passTx passRx : Nat} (was : (s.die d).fab.ports[port.val]? = some x)
    (trains : x.state = .train ∨ x.state = .down) (heard : x.helloHeard = true)
    (few : (usableLines (testedLines passTx x.tx)).length < 8 ∨ (usableLines (testedLines passRx x.rx)).length < 8) :
    Does (.trainingComplete d port passTx passRx) s fun t => ∃ y, (t.die d).fab.ports[port.val]? = some y ∧
      y.state = .down ∧ y.downAt = s.tray.now ∧ DieOnly d s t := by
  change ∃ t, execTrainingComplete d port passTx passRx s = .next t ∧ _
  unfold execTrainingComplete
  dsimp only
  rw [State.port_of was, if_neg (by rw [heard]; rcases trains with h | h <;> simp [h]), if_pos few]
  exact ⟨_, rfl, _, State.modPort_port _ was, rfl, rfl, State.modDie_only ..⟩

theorem does_trainingComplete_up {passTx passRx : Nat} (was : (s.die d).fab.ports[port.val]? = some x)
    (trains : x.state = .train ∨ x.state = .down) (heard : x.helloHeard = true)
    (sends : 8 ≤ (usableLines (testedLines passTx x.tx)).length)
    (receives : 8 ≤ (usableLines (testedLines passRx x.rx)).length) :
    Does (.trainingComplete d port passTx passRx) s fun t => ∃ y, (t.die d).fab.ports[port.val]? = some y ∧
      (y.state = .up ∨ y.state = .degraded) ∧
      y.txMap = refitMap (testedLines passTx x.tx) (List.replicate 36 none) ∧ ∀ e, e ≠ d → t.die e = s.die e := by
  change ∃ t, execTrainingComplete d port passTx passRx s = .next t ∧ _
  unfold execTrainingComplete
  extract_lets p x0 tx rx none36 txm rxm s1 y s2 s3
  have same : x0 = x := State.port_of was
  rw [if_neg (by rw [same, heard]; rcases trains with h | h <;> simp [h])]
  rw [if_neg (by unfold tx rx; rw [same]; omega)]
  have trained : ∃ z, (s1.die d).fab.ports[p]? = some z ∧ (z.state = .up ∨ z.state = .degraded) ∧ z.txMap = txm :=
    ⟨_, State.modPort_port _ was, Port.upState_cases _, rfl⟩
  have first : PortWork d s s1 := (State.modPort_portWork ..).trans (State.trainSend_portWork ..)
  have logged : PortWork d s s2 ∧ s2.die d = s1.die d := by
    unfold s2
    split
    · exact ⟨first.trans (State.logDie_portWork ..), State.logDie_die ..⟩
    · exact ⟨first, rfl⟩
  have based : ∀ e, e ≠ d → s3.die e = s.die e := fun e he => (State.modDie_die_ne _ _ _ _ he).trans (logged.1.others e he)
  have ports : (s3.die d).fab.ports = (s1.die d).fab.ports := by
    unfold s3
    rw [State.modDie_die, logged.2]
    dsimp only
    split <;> rfl
  obtain ⟨z, found, state, map⟩ := trained
  have pumped : FabPumps d s3 ((s3.drainRecords d p).pumpPort d p) :=
    (State.drainRecords_pumps ..).trans (State.pumpPort_pumps ..)
  obtain ⟨w, now, link⟩ := pumped.port (ports ▸ found)
  refine ⟨_, rfl, w, now, ?_, ?_, fun e he => ?_⟩
  · rw [show w.state = z.state from (congrArg Port.state link :)]
    exact state
  · rw [show w.txMap = z.txMap from (congrArg Port.txMap link :), map]
    unfold txm tx
    rw [same]
  · exact (((State.drainRecords_ports ..).trans (State.pumpPort_ports ..)).others e he).trans (based e he)

theorem does_trainingComplete_waits (was : (s.die d).fab.ports[port.val]? = some x) (unheard : x.helloHeard = false)
    (passTx passRx : Nat) : Does (.trainingComplete d port passTx passRx) s fun t => t = s := by
  change ∃ t, execTrainingComplete d port passTx passRx s = .next t ∧ _
  unfold execTrainingComplete
  dsimp only
  rw [State.port_of was, if_pos (by rw [unheard]; exact .inr rfl)]
  exact ⟨_, rfl, rfl⟩

/-! ### RETRAIN (R312, R313) -/

theorem State.resend_pumps (s : State) (d : DieId) (p : Nat) (anew : Bool) :
    (∀ {y : Port}, (s.die d).fab.ports[p]? = some y → ∃ z, ((s.resend d p anew).die d).fab.ports[p]? = some z ∧ z.link = y.link) ∧
      ∀ e, e ≠ d → (s.resend d p anew).die e = s.die e := by
  unfold State.resend
  extract_lets x s1 now
  have sent : PortsOnly d s s1 := .foldl (fun u r => u.emit_ports ..) _ s
  have pumps : FabPumps d s s1 := by
    refine .foldl (fun u r => FabPumps.of_die ?_) _ s
    rfl
  split
  · exact ⟨pumps.port, sent.others⟩
  · refine ⟨fun was => ?_, fun e he => ?_⟩
    · obtain ⟨z, found, link⟩ := pumps.port was
      rw [State.modDie_die]
      exact ⟨_, State.modPort_port _ found, link⟩
    · rw [State.modDie_die_ne _ _ _ _ he]
      exact ((State.modPort_portWork ..).others e he).trans (sent.others e he)

theorem does_retrainComplete (was : (s.die d).fab.ports[port.val]? = some x) (retrains : x.state = .retrain)
    (full : (s.die d).lowRate = false) (lit : (s.die d).fab.combLost = false) : Does (.retrainComplete d port) s fun t =>
      ∃ y, (t.die d).fab.ports[port.val]? = some y ∧ y.state = x.upState ∧ y.txMap = x.txMap ∧
      ∀ e, e ≠ d → t.die e = s.die e := by
  change ∃ t, execRetrainComplete d port s = .next t ∧ _
  unfold execRetrainComplete
  extract_lets p low s1
  rw [if_neg (by rw [State.port_of was, retrains, lit]; simp)]
  have back : (s1.die d).fab.ports[p]? = some { x with state := x.upState, nakSent := false } := by
    unfold s1 low
    rw [State.modDie_die, full]
    exact State.modPort_port _ was
  have others : ∀ e, e ≠ d → s1.die e = s.die e := fun e he =>
    (State.modDie_die_ne _ _ _ _ he).trans ((State.modPort_portWork ..).others e he)
  obtain ⟨ports, rest⟩ := s1.resend_pumps d p true
  obtain ⟨y, found, link⟩ := ports back
  have pumped : FabPumps d (s1.resend d p true) (((s1.resend d p true).drainRecords d p).pumpPort d p) :=
    (State.drainRecords_pumps ..).trans (State.pumpPort_pumps ..)
  obtain ⟨z, now, last⟩ := pumped.port found
  have whole := last.trans link
  refine ⟨_, rfl, z, now, (congrArg Port.state whole :), (congrArg Port.txMap whole :), fun e he => ?_⟩
  exact ((((State.drainRecords_ports ..).trans (State.pumpPort_ports ..)).others e he).trans (rest e he)).trans (others e he)

theorem does_retrainComplete_dark (dark : (s.die d).fab.combLost = true) : Does (.retrainComplete d port) s fun t => t = s := by
  refine ⟨s, ?_, rfl⟩
  change execRetrainComplete d port s = _
  unfold execRetrainComplete
  dsimp only
  rw [if_pos (.inr dark)]

theorem does_portLossTimeout (was : (s.die d).fab.ports[port.val]? = some x) (retrains : x.state = .retrain) :
    Does (.portLossTimeout d port) s fun t => (∃ y, (t.die d).fab.ports[port.val]? = some y ∧ y.state = .down) ∧
      x.retrainAt + 1000000 * s.dset d 0x3000 9 ≤ t.tray.now ∧
      (t.die d).fab.portsLost = satAdd 32 (s.die d).fab.portsLost 1 ∧ ∀ e, e ≠ d → t.die e = s.die e := by
  change ∃ t, execPortLossTimeout d port s = .next t ∧ _
  unfold execPortLossTimeout
  dsimp only
  rw [State.port_of was, if_neg (by rw [retrains]; decide)]
  obtain ⟨⟨y, found, down, -⟩, lost⟩ :=
    State.portDown_spec (s := s.advanceTo (x.retrainAt + 1000000 * s.dset d 0x3000 9)) (d := d) was
  have work := (s.advanceTo (x.retrainAt + 1000000 * s.dset d 0x3000 9)).portDown_portWork d port.val
  refine ⟨_, rfl, ⟨y, found, down⟩, ?_, lost, work.others⟩
  rw [work.now]
  exact Nat.le_max_right ..

theorem does_downPortRetry (was : (s.die d).fab.ports[port.val]? = some x) (down : x.state = .down) :
    Does (.downPortRetry d port) s fun t => (t.die d).fab.ports[port.val]? =
        some { x with downAt := t.tray.now, helloHeard := false, mapHeard := false } ∧
      x.downAt + 1000000000 ≤ t.tray.now ∧ ∀ e, e ≠ d → t.die e = s.die e := by
  change ∃ t, execDownPortRetry d port s = .next t ∧ _
  unfold execDownPortRetry
  dsimp only
  rw [State.port_of was, if_neg (by rw [down]; decide)]
  refine ⟨_, rfl, ?_, Nat.le_max_right .., fun e he => ?_⟩
  · exact State.modPort_port _ (State.modPort_port _ was)
  · exact ((State.modPort_portWork ..).trans (State.startTraining_portWork ..)).others e he

theorem does_framingLoss (was : (s.die d).fab.ports[port.val]? = some x) (carries : x.state.carries = true)
    (idle : x.cal = none) : Does (.framingLoss d port) s fun t =>
      (t.die d).fab.ports[port.val]? = some { x with state := .retrain, retrainAt := s.tray.now } ∧
      (t.die d).fab.retrains = satAdd 32 (s.die d).fab.retrains 1 ∧ DieOnly d s t := by
  change ∃ t, execFramingLoss d port s = .next t ∧ _
  unfold execFramingLoss State.portRetrain
  rw [if_pos (by rw [State.port_of was, carries]), State.stopCal_idle (by rw [State.port_of was, idle])]
  refine ⟨_, rfl, ?_, ?_, (State.modDie_only ..).trans (State.modDie_only ..)⟩
  · rw [State.modDie_die]
    exact State.modPort_port _ was
  · rw [State.modDie_die, State.modPort, State.modDie_die]

end

/-! ### The port enables (R314) -/

/-- The part of a write of the port enables that concerns port p. -/
def State.enablePort (v : Nat) (d : DieId) (s : State) (p : Nat) : State :=
  let x := s.port d p
  if !bit v p then (if x.state = .off then s else s.portOff d p)
  else if x.state = .off ∧ (s.die d).rails.vhtr then
    if x.swept < 2 then s.modPort d p fun x => { x with state := .search }
    else (s.modPort d p fun x => { x with state := .train }).startTraining d p
  else s

theorem State.portEnableApply_eq (s : State) (d : DieId) (v : Nat) :
    s.portEnableApply d v = (List.range 16).foldl (State.enablePort v d) (s.putSetting 0x3000 2 d.val v) := rfl

section
variable {s : State} {d : DieId} {p q v : Nat} {x : Port}

theorem State.portOff_port (was : (s.die d).fab.ports[p]? = some x) :
    ∃ y, ((s.portOff d q).die d).fab.ports[p]? = some y ∧ y.state = if q = p then .off else x.state := by
  unfold State.portOff
  have fades := (s.modPort d q fun x => { x with
    state := .off, replay := [], out := [], fwd := [], cal := none, labels := [] }).loseFlows_fades
      d 1 (fun f => f.port == q) (fun f => f.port == q) fun e => e.inPort == q || e.outPort == q
  by_cases here : q = p
  · subst here
    obtain ⟨y, found, link⟩ := fades.port (State.modPort_port _ was)
    exact ⟨y, found, (congrArg Port.state link :).trans (if_pos rfl).symm⟩
  · obtain ⟨y, found, link⟩ := fades.port ((State.modPort_port_ne _ here).trans was)
    exact ⟨y, found, (congrArg Port.state link :).trans (if_neg here).symm⟩

theorem State.portOff_portWork (s : State) (d : DieId) (p : Nat) : PortWork d s (s.portOff d p) :=
  (State.modPort_portWork ..).trans (State.loseFlows_portWork ..)

theorem State.enablePort_portWork (s : State) (d : DieId) (v p : Nat) : PortWork d s (State.enablePort v d s p) := by
  unfold State.enablePort
  dsimp only
  split
  · split
    · exact .refl d s
    · exact s.portOff_portWork ..
  · split
    · split
      · exact s.modPort_portWork ..
      · exact (s.modPort_portWork ..).trans (State.startTraining_portWork ..)
    · exact .refl d s

/-- A port that is not enabled is OFF after its part, and as it was after any other's. -/
theorem State.enablePort_disabled (disabled : bit v p = false) (was : (s.die d).fab.ports[p]? = some x) :
    ∃ y, ((State.enablePort v d s q).die d).fab.ports[p]? = some y ∧ y.state = if q = p then .off else x.state := by
  by_cases here : q = p
  · subst here
    unfold State.enablePort
    dsimp only
    rw [State.port_of was, if_pos (by rw [disabled]; rfl)]
    split
    · next off => exact ⟨x, was, off.trans (if_pos rfl).symm⟩
    · exact State.portOff_port was
  · rw [if_neg here]
    unfold State.enablePort
    dsimp only
    split
    · split
      · exact ⟨x, was, rfl⟩
      · obtain ⟨y, found, state⟩ := State.portOff_port (q := q) was
        exact ⟨y, found, state.trans (if_neg here)⟩
    · split
      · split
        · exact ⟨x, (State.modPort_port_ne _ here).trans was, rfl⟩
        · exact ⟨x, (State.modPort_port_ne _ here).trans ((State.modPort_port_ne _ here).trans was), rfl⟩
      · exact ⟨x, was, rfl⟩

theorem enablePorts_disabled (disabled : bit v p = false) (l : List Nat) :
    ∀ {s : State} {x : Port}, (s.die d).fab.ports[p]? = some x → p ∈ l ∨ x.state = .off →
      ∃ y, ((l.foldl (State.enablePort v d) s).die d).fab.ports[p]? = some y ∧ y.state = .off := by
  induction l with
  | nil => exact fun was off => ⟨_, was, off.resolve_left List.not_mem_nil⟩
  | cons q l ih =>
    intro s x was reached
    obtain ⟨y, found, state⟩ := State.enablePort_disabled (q := q) disabled was
    refine ih found ?_
    by_cases here : q = p
    · exact .inr (state.trans (if_pos here))
    · rw [if_neg here] at state
      rcases reached with mem | off
      · exact .inl ((List.mem_cons.mp mem).resolve_left (Ne.symm here))
      · exact .inr (state.trans off)

theorem does_portEnableWrite {m : MasterId} (takes : GateTakes m ⟨0x3000, 2, d.val⟩ (leBytes 2 v) s) :
    Does (.portEnableWrite m d v) s fun t => t.setting 0x3000 2 d.val = v % 256 ^ 2 ∧
      (∀ p x, p < 16 → (s.die d).fab.ports[p]? = some x → bit (v % 256 ^ 2) p = false →
        ∃ y, (t.die d).fab.ports[p]? = some y ∧ y.state = .off) ∧ ∀ e, e ≠ d → t.die e = s.die e := by
  have work : PortWork d (s.atTick.putSetting 0x3000 2 d.val (v % 256 ^ 2)) (s.atTick.portEnableApply d (v % 256 ^ 2)) :=
    .foldl (fun u p => u.enablePort_portWork ..) _ _
  refine does_gate_done takes rfl rfl ⟨?_, fun p x low was disabled => ?_, fun e he => ?_⟩
  · rw [gateEnd_done_setting, leNat_leBytes, work.setting]
    exact State.setting_putSetting ..
  · rw [gateEnd_done_die, leNat_leBytes, State.portEnableApply_eq]
    exact enablePorts_disabled disabled _ was (.inl (List.mem_range.mpr low))
  · rw [gateEnd_done_die, leNat_leBytes, work.others e he]
    rfl

end

end Sys2Proof.Machine

namespace Sys2Proof
open Sys2Proof.Machine

/-- Settles O33: each event makes its one change of the port, which the records, flits and flows that follow leave, since they
touch no more of a port than its queues and labels. -/
theorem portStates : Obligations.PortStates :=
  ⟨fun _ _ _ _ was searches => does_farLightArrival was searches,
   fun _ _ _ _ group id farPort serial was => does_hello was group id farPort serial,
   fun _ _ _ _ _ lines was noTrain noDown later => does_lanemap was noTrain noDown later lines,
   fun _ _ _ _ _ _ was trains heard few => does_trainingComplete_down was trains heard few,
   fun _ _ _ _ _ _ was trains heard sends receives => does_trainingComplete_up was trains heard sends receives,
   fun _ _ _ _ passTx passRx was unheard => does_trainingComplete_waits was unheard passTx passRx,
   fun _ _ _ _ was retrains full lit => does_retrainComplete was retrains full lit,
   fun _ _ _ dark => does_retrainComplete_dark dark,
   fun _ _ _ _ was retrains => does_portLossTimeout was retrains,
   fun _ _ _ _ was down => does_downPortRetry was down,
   fun _ _ _ _ takes => does_portEnableWrite takes,
   fun _ _ _ _ was carries idle => does_framingLoss was carries idle⟩

end Sys2Proof
end

section
/-! Calibration of lines, weak lines and monitors (12.5, 12.6). -/

namespace Sys2Proof.Machine
open Sys2Proof

section
variable {s : State} {d : DieId} {p line : Nat} {x : Port}

/-- The two refits of a port one after the other. -/
def State.refitBoth (s : State) (d : DieId) (p : Nat) : State := (s.refit d p false).refit d p true

theorem State.refitBoth_portWork (s : State) (d : DieId) (p : Nat) : PortWork d s (s.refitBoth d p) :=
  (s.refit_portWork ..).trans (State.refit_portWork ..)

theorem State.refitBoth_idle (was : (s.die d).fab.ports[p]? = some x) (idle : x.cal = none) :
    ∃ y, ((s.refitBoth d p).die d).fab.ports[p]? = some y ∧ y.cal = none := by
  obtain ⟨y, found, first⟩ := State.refit_port false was
  obtain ⟨z, last, second⟩ := State.refit_port true found
  exact ⟨z, last, second.idle (first.idle idle)⟩

theorem State.stopCal_port (was : (s.die d).fab.ports[p]? = some x) :
    ∃ y, ((s.stopCal d p).die d).fab.ports[p]? = some y ∧ y.cal = none ∧ y.state = x.state := by
  unfold State.stopCal
  rw [State.port_of was]
  split
  · next idle => exact ⟨x, was, idle, rfl⟩
  · rw [State.modDie_die]
    dsimp only
    rw [List.getElem?_modify, was]
    exact ⟨_, congrArg some (if_pos rfl), rfl, rfl⟩

/-- A line goes out of service for its calibration. -/
theorem State.calOut_spec (was : (s.die d).fab.ports[p]? = some x)
    (sends : 8 ≤ (usableLines (x.tx.modify line fun _ => .calibrating)).length)
    (receives : 8 ≤ (usableLines (x.rx.modify line fun _ => .calibrating)).length) :
    PortWork d s (s.calOut d p line) ∧ ∃ y, ((s.calOut d p line).die d).fab.ports[p]? = some y ∧
      y.cal = some (line, s.tray.now) ∧ y.calNext = x.calNext := by
  refine ⟨(State.modPort_portWork ..).trans (State.refitBoth_portWork ..), ?_⟩
  unfold State.calOut
  obtain ⟨y, found, first⟩ := State.refit_port false (State.modPort_port (fun x => { x with
    cal := some (line, s.tray.now), tx := x.tx.modify line fun _ => .calibrating
    rx := x.rx.modify line fun _ => .calibrating }) was)
  obtain ⟨cal, next, rx, -⟩ := first.stays sends
  obtain ⟨z, last, second⟩ := State.refit_port true found
  obtain ⟨cal', next', -⟩ := second.stays (by rw [if_pos rfl, rx rfl]; exact receives)
  exact ⟨z, last, cal'.trans cal, next'.trans next⟩

/-- The calibration of a line ends; a failed line is out of service. -/
theorem State.calFinish_spec {at_ : Ns} {failed : Bool} (was : (s.die d).fab.ports[p]? = some x)
    (cal : x.cal = some (line, at_)) : ∃ y, ((s.calFinish d p line failed).die d).fab.ports[p]? = some y ∧ y.cal = none ∧
      (failed = true → x.tx[line]? = some .calibrating → y.tx[line]? = some .failed) ∧
      ∀ e, e ≠ d → (s.calFinish d p line failed).die e = s.die e := by
  unfold State.calFinish
  extract_lets x0 free end_ fix s1
  rw [if_neg (by rw [show x0 = x from State.port_of was, cal]; exact fun no => no rfl)]
  have ended : (s1.die d).fab.ports[p]? = some { x with cal := none, tx := x.tx.modify line fix, rx := x.rx.modify line fix } := by
    unfold s1
    rw [State.modDie_die]
    change ((s.die d).fab.ports.modify p _)[p]? = _
    rw [List.getElem?_modify, was]
    exact congrArg some (if_pos rfl)
  obtain ⟨y, found, first⟩ := State.refit_port false ended
  obtain ⟨z, last, second⟩ := State.refit_port true found
  refine ⟨z, last, second.idle (first.idle rfl), fun failed out => ?_, fun e he => ?_⟩
  · have marked : (x.tx.modify line fix)[line]? = some .failed := by
      rw [List.getElem?_modify, out]
      refine (congrArg some (if_pos rfl)).trans ?_
      unfold fix end_
      rw [if_pos rfl, failed]
      rfl
    exact second.out line .failed (first.out line .failed marked rfl) rfl
  · exact (State.refitBoth_portWork s1 d p).others e he |>.trans (State.modDie_die_ne _ _ _ _ he)

end

section
variable {s : State} {d : DieId} {port : Fin 16} {x : Port} {line : Nat} {at_ : Ns}

/-! ### Calibration (R315, R318) -/

theorem does_calibrationStart (was : (s.die d).fab.ports[port.val]? = some x) (leads : s.leads d port.val = true)
    (up : x.state = .up) (idle : x.cal = none) (free : (s.die d).svc.holding = none) (spareTx : hasReserve x.tx = true)
    (spareRx : hasReserve x.rx = true) (sends : 8 ≤ (usableLines (x.tx.modify x.calNext fun _ => .calibrating)).length)
    (receives : 8 ≤ (usableLines (x.rx.modify x.calNext fun _ => .calibrating)).length) :
    Does (.calibrationStart d port) s fun t => ∃ y, (t.die d).fab.ports[port.val]? = some y ∧
      y.cal = some (x.calNext, t.tray.now) ∧ y.calNext = (x.calNext + 1) % 40 ∧
      x.calAt + 1000000 * s.dset d 0x3000 8 ≤ t.tray.now ∧ ∀ e, e ≠ d → t.die e = s.die e := by
  change ∃ t, execCalibrationStart d port s = .next t ∧ _
  unfold execCalibrationStart
  extract_lets p x0 line s0
  have same : x0 = x := State.port_of was
  rw [if_neg (by rw [same]; simp [p, leads, up, idle, free, spareTx, spareRx])]
  have turn : line = x.calNext := by rw [← same]
  have due : x.calAt + 1000000 * s.dset d 0x3000 8 ≤ s0.tray.now := by
    rw [← same]
    exact Nat.le_max_right ..
  have dies (e : DieId) : s0.die e = s.die e := rfl
  clear_value line s0
  subst turn
  obtain ⟨z, found, link⟩ := (s0.sendHop_pumps d p 0x22 [BitVec.ofNat 8 x.calNext, 0#8, 0#8, 0#8]).port
    ((congrArg (fun y => y.fab.ports[p]?) (dies d)).trans was)
  have tx : z.tx = x.tx := (congrArg Port.tx link :)
  have rx : z.rx = x.rx := (congrArg Port.rx link :)
  obtain ⟨work, y, last, cal, next⟩ := State.calOut_spec (line := x.calNext) (State.modPort_port (fun y => { y with
    calNext := (x.calNext + 1) % 40, calAt := s0.tray.now }) found)
    (by dsimp only; rw [tx]; exact sends) (by dsimp only; rw [rx]; exact receives)
  have whole := ((State.sendHop_portWork ..).trans (State.modPort_portWork ..)).trans work
  refine ⟨_, rfl, y, last, ?_, next, le_of_le_of_eq due whole.now.symm, fun e he => (whole.others e he).trans (dies e)⟩
  rw [cal, work.now]

theorem does_calStart (was : (s.die d).fab.ports[port.val]? = some x) (follows : s.leads d port.val = false)
    (up : x.state = .up) (idle : x.cal = none) (known : line < 40)
    (sends : 8 ≤ (usableLines (x.tx.modify line fun _ => .calibrating)).length)
    (receives : 8 ≤ (usableLines (x.rx.modify line fun _ => .calibrating)).length) :
    Does (.calStart d port line) s fun t => ∃ y, (t.die d).fab.ports[port.val]? = some y ∧
      y.cal = some (line, s.tray.now) ∧ ∀ e, e ≠ d → t.die e = s.die e := by
  change ∃ t, execCalStart d port line s = .next t ∧ _
  unfold execCalStart State.takeCalStart
  dsimp only
  rw [State.port_of was, if_neg (by simp [follows, up, idle, known])]
  obtain ⟨work, y, found, cal, -⟩ := State.calOut_spec was sends receives
  exact ⟨_, rfl, y, found, cal, work.others⟩

theorem does_calEnd (was : (s.die d).fab.ports[port.val]? = some x) (cal : x.cal = some (line, at_)) (failed : Bool) :
    Does (.calEnd d port line failed) s fun t => ∃ y, (t.die d).fab.ports[port.val]? = some y ∧ y.cal = none ∧
      (failed = true → x.tx[line]? = some .calibrating → y.tx[line]? = some .failed) ∧ ∀ e, e ≠ d → t.die e = s.die e := by
  change ∃ t, execCalEnd d port line failed s = .next t ∧ _
  unfold execCalEnd
  dsimp only
  rw [State.port_of was, if_neg (by rw [cal]; exact fun no => no rfl)]
  split
  · obtain ⟨z, sent, link⟩ := (s.sendHop_pumps d port.val 0x23 [BitVec.ofNat 8 line, BitVec.ofNat 8 (b2n failed), 0#8, 0#8]).port was
    obtain ⟨y, found, idle, out, others⟩ := State.calFinish_spec (failed := failed) sent ((congrArg Port.cal link :).trans cal)
    refine ⟨_, rfl, y, found, idle, fun no was => out no ?_, fun e he => (others e he).trans ?_⟩
    · rw [show z.tx = x.tx from (congrArg Port.tx link :)]
      exact was
    · exact (State.sendHop_portWork ..).others e he
  · obtain ⟨y, found, idle, out, others⟩ := State.calFinish_spec (failed := failed) was cal
    exact ⟨_, rfl, y, found, idle, out, others⟩

theorem does_calTimeout (was : (s.die d).fab.ports[port.val]? = some x) (cal : x.cal = some (line, at_)) :
    Does (.calTimeout d port) s fun t => (∃ y, (t.die d).fab.ports[port.val]? = some y ∧ y.cal = none) ∧
      at_ + 5000000 ≤ t.tray.now ∧ ∀ e, e ≠ d → t.die e = s.die e := by
  change ∃ t, execCalTimeout d port s = .next t ∧ _
  unfold execCalTimeout
  rw [State.port_of was, cal]
  dsimp only
  obtain ⟨y, stopped, idle, -⟩ := State.stopCal_port (s := s.advanceTo (at_ + 5000000)) (d := d) was
  have work := ((s.advanceTo (at_ + 5000000)).stopCal_portWork d port.val).trans (State.refitBoth_portWork _ d port.val)
  refine ⟨_, rfl, State.refitBoth_idle stopped idle, ?_, work.others⟩
  exact le_of_le_of_eq (Nat.le_max_right ..) work.now.symm

/-! ### Weak lines (R317) -/

theorem does_lineBerWeak {line : Fin 40} (was : (s.die d).fab.ports[port.val]? = some x)
    (spare : x.tx[line.val]? = some .reserve) (idle : x.cal = none) : Does (.lineBerWeak d port false line) s fun t =>
      ∃ y, (t.die d).fab.ports[port.val]? = some y ∧ y.tx[line.val]? = some .weak ∧ ∀ e, e ≠ d → t.die e = s.die e := by
  change ∃ t, execLineBerWeak d port false line s = .next t ∧ _
  unfold execLineBerWeak
  dsimp only
  have usable : (x.tx.getD line.val .unlocked).usable = true := by rw [List.getD_eq_getElem?_getD, spare]; rfl
  rw [State.port_of was, if_neg Bool.false_ne_true, if_neg (by rw [usable]; decide)]
  refine ⟨_, rfl, ?_⟩
  have others := (s.lineOut_portWork d port.val false line.val .weak false).others
  have set : (x.tx.set line.val .weak)[line.val]? = some .weak := by
    rw [List.getElem?_set_self' , spare]
    rfl
  obtain ⟨y, found, refits⟩ := State.refit_port false (State.modPort_port (fun x => { x with tx := x.tx.set line.val .weak }) was)
  refine ⟨y, ?_, refits.out line.val .weak set rfl, others⟩
  unfold State.lineOut
  rw [State.stopCal_idle (by rw [State.port_of was, idle])]
  exact found

/-! ### Monitors and their baseline (R319 to R321) -/

theorem does_recordBaseline {m : MasterId} {v : Nat} (takes : GateTakes m ⟨0x3000, 0xC, d.val⟩ (leBytes 1 v) s)
    (read : (s.die d).fab.monitor ≠ []) : Does (.recordBaseline m d v) s fun t =>
      (t.die d).fab.baseline = some (s.die d).fab.monitor ∧ (t.die d).fab.ports = (s.die d).fab.ports ∧
      GateOnly ⟨0x3000, 0xC, d.val⟩ s t ∧ ∀ e, e ≠ d → t.die e = s.die e := by
  obtain ⟨die, gate, others⟩ := gateEnd_modDie m ⟨0x3000, 0xC, d.val⟩ (leBytes 1 v) s d fun x => { x with fab := x.fab.baselineNow }
  refine does_gate_done takes rfl rfl ⟨?_, by rw [die]; rfl, gate, others⟩
  rw [die]
  unfold Fabric.baselineNow
  dsimp only
  rw [if_neg (by simpa using read)]

/-- A reading among those that are set, at places that grow, holds. -/
theorem foldl_set_getD {vs : List (Nat × Int)} (apart : vs.Pairwise fun a b => a.1 < b.1) {i : Nat} {a : Int}
    (mem : (i, a) ∈ vs) : ∀ {l : List Int}, i < l.length → (vs.foldl (fun l v => l.set v.1 v.2) l).getD i 0 = a := by
  have later (vs : List (Nat × Int)) (none : ∀ v ∈ vs, i ≠ v.1) (l : List Int) :
      (vs.foldl (fun l v => l.set v.1 v.2) l).getD i 0 = l.getD i 0 := by
    induction vs generalizing l with
    | nil => rfl
    | cons v vs ih =>
      have ne := none v List.mem_cons_self
      rw [List.foldl_cons, ih (fun w mem => none w (List.mem_cons_of_mem v mem)), List.getD_eq_getElem?_getD,
        List.getElem?_set_ne ne.symm, List.getD_eq_getElem?_getD]
  induction vs with
  | nil => exact fun _ => absurd mem List.not_mem_nil
  | cons v vs ih =>
    intro l low
    obtain ⟨first, rest⟩ := List.pairwise_cons.mp apart
    rcases List.mem_cons.mp mem with rfl | mem
    · rw [List.foldl_cons, later vs fun w mem => Nat.ne_of_lt (first w mem), List.getD_eq_getElem?_getD, List.getElem?_set_self low]
      rfl
    · exact ih rest mem (by rwa [List.length_set])

/-- The readings that the averages of port p set. -/
def statusReadings (p : Nat) (stages stage5 : List Int) : List (Nat × Int) :=
  [(0, stages.getD 0 0), (1, stages.getD 1 0), (2 + p, stages.getD 2 0), (18 + p, stages.getD 3 0), (34 + p, stages.getD 4 0)] ++
    ((List.range 40).map fun i => stage5.getD i 0).mapIdx fun i a => (50 + 40 * p + i, a)

theorem mem_statusReadings_line {p : Nat} (stages stage5 : List Int) {i : Nat} (low : i < 40) :
    (50 + 40 * p + i, stage5.getD i 0) ∈ statusReadings p stages stage5 := by
  refine List.mem_append_right _ (List.mem_mapIdx.mpr ⟨i, by simpa using low, ?_⟩)
  rw [List.getElem_map, List.getElem_range]

theorem statusReadings_apart {p : Nat} (low : p < 16) (stages stage5 : List Int) :
    (statusReadings p stages stage5).Pairwise fun a b => a.1 < b.1 := by
  refine List.pairwise_append.mpr ⟨?_, ?_, fun a first b last => ?_⟩
  · simp
    omega
  · refine List.pairwise_iff_getElem.mpr fun i j _ _ less => ?_
    rw [List.getElem_mapIdx, List.getElem_mapIdx]
    exact Nat.add_lt_add_left less _
  · obtain ⟨i, _, rfl⟩ := List.mem_mapIdx.mp last
    simp only [List.mem_cons, List.not_mem_nil, or_false] at first
    rcases first with rfl | rfl | rfl | rfl | rfl <;> dsimp only <;> omega

theorem Fabric.setMon_rest (f : Fabric) (vs : List (Nat × Int)) : f.setMon vs = { f with monitor := (f.setMon vs).monitor } := rfl

theorem does_statusSend {stages stage5 : List Int} (whole : (s.die d).fab.monitor.length = 690)
    (quiet : (s.port d port.val).state ≠ .up) : Does (.statusSend d port stages stage5) s fun t =>
      (t.die d).fab.monitor.getD 0 0 = stages.getD 0 0 ∧ (t.die d).fab.monitor.getD (18 + port.val) 0 = stages.getD 3 0 ∧
      (∀ i, i < 40 → (t.die d).fab.monitor.getD (50 + 40 * port.val + i) 0 = stage5.getD i 0) ∧
      t.die d = { s.die d with fab := { (s.die d).fab with monitor := (t.die d).fab.monitor } } ∧ DieOnly d s t := by
  change ∃ t, execStatusSend d port stages stage5 s = .next t ∧ _
  unfold execStatusSend
  extract_lets p v r5 all s1
  rw [if_pos quiet]
  have set : s1.die d = { s.die d with fab := (s.die d).fab.setMon (statusReadings port.val stages stage5) } := State.modDie_die ..
  have only : DieOnly d s s1 := State.modDie_only ..
  clear_value s1
  have monitor : ((s.die d).fab.setMon (statusReadings port.val stages stage5)).monitor =
      (statusReadings port.val stages stage5).foldl (fun l v => l.set v.1 v.2) (s.die d).fab.monitor := by
    unfold Fabric.setMon
    dsimp only
    rw [if_neg (by intro empty; rw [List.isEmpty_iff.mp empty] at whole; cases whole)]
  have reads {i : Nat} {a : Int} (mem : (i, a) ∈ statusReadings port.val stages stage5) (low : i < 690) :
      ((s.die d).fab.setMon (statusReadings port.val stages stage5)).monitor.getD i 0 = a := by
    rw [monitor]
    exact foldl_set_getD (statusReadings_apart port.isLt stages stage5) mem (by rw [whole]; exact low)
  refine ⟨_, rfl, ?_⟩
  rw [set]
  refine ⟨reads (List.mem_append_left _ List.mem_cons_self) (by decide), reads ?_ (by omega), fun i low => ?_,
    congrArg (fun y => { s.die d with fab := y }) (Fabric.setMon_rest ..), only⟩
  · exact List.mem_append_left _ (.tail _ (.tail _ (.tail _ (.head _))))
  · exact reads (mem_statusReadings_line stages stage5 low) (by omega)

theorem does_status (was : (s.die d).fab.ports[port.val]? = some x) (holds : (s.die d).svc.holding.isSome = true) (stage3 : Int)
    (stage5 : List Int) : Does (.status d port stage3 stage5) s fun t =>
      (t.die d).fab.ports[port.val]? = some { x with far := some (stage3, stage5) } ∧ DieOnly d s t := by
  change ∃ t, execStatus d port stage3 stage5 s = .next t ∧ _
  unfold execStatus State.takeStatus
  dsimp only
  rw [if_pos holds]
  exact ⟨_, rfl, State.modPort_port _ was, State.modDie_only ..⟩

end

end Sys2Proof.Machine

namespace Sys2Proof
open Sys2Proof.Machine

/-- Settles O34: the two refits that follow every change of a line keep the calibration of a port with eight usable lines, and
never take a line that is out of service back. -/
theorem lineCalibration : Obligations.LineCalibration :=
  ⟨fun _ _ _ _ was leads up idle free spareTx spareRx sends receives =>
     does_calibrationStart was leads up idle free spareTx spareRx sends receives,
   fun _ _ _ _ _ was follows up idle known sends receives => does_calStart was follows up idle known sends receives,
   fun _ _ _ _ _ failed _ was cal => does_calEnd was cal failed,
   fun _ _ _ _ _ _ was cal => does_calTimeout was cal,
   fun _ _ _ _ _ was spare idle => does_lineBerWeak was spare idle,
   fun _ _ _ _ takes read => does_recordBaseline takes read,
   fun _ _ _ _ _ whole quiet => does_statusSend whole quiet,
   fun _ _ _ _ stage3 stage5 was holds => does_status was holds stage3 stage5⟩

end Sys2Proof
end

section
/-! Combs, rings and the search (12.2 to 12.4). -/

namespace Sys2Proof.Machine
open Sys2Proof

section
variable {s t u : State} {d : DieId}

/-! ### The start-up check of the combs (R299, R527) -/

/-- The search of a port begins. -/
def Port.searched (x : Port) : Port := if x.state = .off then { x with state := .search } else x

/-- The search of every enabled port below n begins. -/
def State.searchBelow (s : State) (d : DieId) (n : Nat) : State :=
  (List.range n).foldl (fun s p => if s.portOn d p then s.modPort d p Port.searched else s) s

theorem State.searchBelow_succ (s : State) (d : DieId) (n : Nat) : s.searchBelow d (n + 1) =
    if (s.searchBelow d n).portOn d n then (s.searchBelow d n).modPort d n Port.searched else s.searchBelow d n := by
  unfold State.searchBelow
  rw [List.range_succ, List.foldl_append]
  rfl

/-- Of a die only its ports changed. -/
structure PortsNew (d : DieId) (s t : State) : Prop where
  only : DieOnly d s t
  die : t.die d = { s.die d with fab := { (s.die d).fab with ports := (t.die d).fab.ports } }

theorem State.searchBelow_new (s : State) (d : DieId) (n : Nat) : PortsNew d s (s.searchBelow d n) := by
  induction n with
  | zero => exact ⟨.refl d s, rfl⟩
  | succ n ih =>
    rw [State.searchBelow_succ]
    split
    · refine ⟨ih.only.trans (State.modDie_only ..), ?_⟩
      rw [State.modPort, State.modDie_die]
      exact congrArg (fun x : Die => { x with fab := { x.fab with
        ports := ((s.searchBelow d n).die d).fab.ports.modify n Port.searched } }) ih.die
    · exact ih

theorem State.portOn_of_only (only : DieOnly d s t) (p : Nat) : t.portOn d p = s.portOn d p := by
  unfold State.portOn State.dset State.setting
  rw [only.rest]

theorem State.searchBelow_port {p : Nat} {x : Port} (was : (s.die d).fab.ports[p]? = some x) (n : Nat) :
    ((s.searchBelow d n).die d).fab.ports[p]? = some (if p < n ∧ s.portOn d p then x.searched else x) := by
  induction n with
  | zero => exact was.trans (congrArg some (if_neg (fun h => Nat.not_lt_zero p h.1)).symm)
  | succ n ih =>
    rw [State.searchBelow_succ, State.portOn_of_only (s.searchBelow_new d n).only]
    by_cases here : n = p
    · subst here
      rw [if_neg (fun h => Nat.lt_irrefl n h.1)] at ih
      by_cases on : s.portOn d n = true
      · rw [if_pos on, if_pos ⟨Nat.lt_succ_self n, on⟩]
        exact State.modPort_port _ ih
      · rw [if_neg on, if_neg (fun h => on h.2)]
        exact ih
    · have reach : (p < n + 1 ∧ s.portOn d p = true) ↔ (p < n ∧ s.portOn d p = true) :=
        and_congr_left fun _ => by omega
      simp only [reach]
      rw [← ih]
      split
      · exact State.modPort_port_ne _ here
      · rfl

section
variable {aDev bDev : List Int} {aPow bPow : Int}

theorem does_combStartupCheck {aOk bOk : Bool} (starts : (s.die d).svc.state = .starting) (on : (s.die d).rails.vana = true)
    (a : (s.die d).fab.combPasses d 0 aDev aPow = aOk) (b : (s.die d).fab.combPasses d 1 bDev bPow = bOk)
    (one : aOk = true ∨ bOk = true) : Does (.combStartupCheck d aDev bDev aPow bPow) s fun t =>
      (t.die d).fab.combB = !aOk ∧ (t.die d).fab.failedA = !aOk ∧ (t.die d).fab.failedB = !bOk ∧
      (t.die d).fab.standbyGone = false ∧
      (∀ p x, p < 16 → (s.die d).fab.ports[p]? = some x → (t.die d).fab.ports[p]? =
        some (if s.portOn d p = true ∧ x.state = .off then { x with state := .search } else x)) ∧ DieOnly d s t := by
  change ∃ t, execCombStartupCheck d aDev bDev aPow bPow s = .next t ∧ _
  unfold execCombStartupCheck
  dsimp only
  rw [a, b, if_neg (by simp [starts, on]), if_neg (by rcases one with h | h <;> simp [h])]
  generalize checked : (s.modDie d fun x => { x with fab := { x.fab with combB := !aOk, failedA := !aOk, failedB := !bOk, standbyGone := false, failover := false, combLost := false } }) = u
  have only : DieOnly d s u := checked ▸ State.modDie_only ..
  have die : u.die d = { s.die d with fab := { (s.die d).fab with combB := !aOk, failedA := !aOk, failedB := !bOk, standbyGone := false, failover := false, combLost := false } } := by
    rw [← checked, State.modDie_die]
  have new := u.searchBelow_new d 16
  refine ⟨u.searchBelow d 16, rfl, ?_, ?_, ?_, ?_, fun p x low was => ?_, only.trans new.only⟩
  · rw [new.die, die]
  · rw [new.die, die]
  · rw [new.die, die]
  · rw [new.die, die]
  · rw [State.searchBelow_port (x := x) (by rw [die]; exact was), State.portOn_of_only only]
    unfold Port.searched
    by_cases enabled : s.portOn d p = true
    · simp [low, enabled]
    · simp [enabled]

theorem does_combStartupCheck_none (starts : (s.die d).svc.state = .starting) (on : (s.die d).rails.vana = true)
    (a : (s.die d).fab.combPasses d 0 aDev aPow = false) (b : (s.die d).fab.combPasses d 1 bDev bPow = false) :
    Does (.combStartupCheck d aDev bDev aPow bPow) s fun t =>
      (t.die d).svc.state = .off ∧ (t.die d).svc.heldOff = true ∧ (t.die d).rails.vcore = false := by
  change ∃ t, execCombStartupCheck d aDev bDev aPow bPow s = .next t ∧ _
  unfold execCombStartupCheck State.holdOff
  dsimp only
  rw [a, b, if_neg (by simp [starts, on]), if_pos ⟨rfl, rfl⟩]
  refine ⟨_, rfl, ?_⟩
  rw [State.logDie_die, State.modDie_die]
  exact ⟨rfl, rfl, (State.railsOff_gone ..).vcore⟩

end

/-! ### The loss of a comb (R300, R302, R369) -/

/-- Ports of a die retrain; nothing else of it changes. -/
structure Retrains (d : DieId) (s t : State) : Prop where
  only : DieOnly d s t
  die : t.die d = { s.die d with fab := { (s.die d).fab with
    ports := (t.die d).fab.ports, retrains := (t.die d).fab.retrains } }

theorem Retrains.trans (h : Retrains d s t) (k : Retrains d t u) : Retrains d s u := by
  refine ⟨h.only.trans k.only, ?_⟩
  have a := h.die
  have b := k.die
  rw [b, a]

theorem State.stopCal_new (s : State) (d : DieId) (p : Nat) : PortsNew d s (s.stopCal d p) := by
  unfold State.stopCal
  split
  · exact ⟨.refl d s, rfl⟩
  · exact ⟨State.modDie_only .., by rw [State.modDie_die]⟩

theorem State.portRetrain_retrains (s : State) (d : DieId) (p : Nat) : Retrains d s (s.portRetrain d p) := by
  unfold State.portRetrain
  split
  · have stopped := s.stopCal_new d p
    generalize s.stopCal d p = u at stopped
    refine ⟨(stopped.only.trans (State.modDie_only ..)).trans (State.modDie_only ..), ?_⟩
    rw [State.modDie_die, State.modPort, State.modDie_die, stopped.die]
  · exact ⟨.refl d s, rfl⟩

/-- Retraining every port of a list. -/
theorem retrainAll_retrains (l : List Nat) (s : State) : Retrains d s (l.foldl (fun s p => s.portRetrain d p) s) := by
  induction l generalizing s with
  | nil => exact ⟨.refl d s, rfl⟩
  | cons p l ih => exact (s.portRetrain_retrains d p).trans (ih _)

theorem State.portRetrain_port {p q : Nat} {x : Port} (was : (s.die d).fab.ports[p]? = some x) :
    ∃ y, ((s.portRetrain d q).die d).fab.ports[p]? = some y ∧
      y.state = if q = p ∧ x.state.carries = true then .retrain else x.state := by
  unfold State.portRetrain
  by_cases here : q = p
  · subst here
    rw [State.port_of was]
    by_cases carries : x.state.carries = true
    · obtain ⟨y, stopped, -, -⟩ := State.stopCal_port was
      rw [if_pos carries, State.modDie_die]
      exact ⟨_, State.modPort_port _ stopped, (if_pos ⟨rfl, carries⟩).symm⟩
    · rw [if_neg carries]
      exact ⟨x, was, (if_neg fun h => carries h.2).symm⟩
  · refine ⟨x, ?_, (if_neg fun h => here h.1).symm⟩
    split
    · rw [State.modDie_die]
      refine (State.modPort_port_ne _ here).trans ?_
      unfold State.stopCal
      split
      · exact was
      · rw [State.modDie_die]
        dsimp only
        rw [List.getElem?_modify, was]
        exact congrArg some (if_neg here)
    · exact was

theorem retrainAll_port {p : Nat} (l : List Nat) : ∀ {s : State} {x : Port}, (s.die d).fab.ports[p]? = some x →
    (p ∈ l ∧ x.state.carries = true) ∨ x.state = .retrain →
    ∃ y, ((l.foldl (fun s p => s.portRetrain d p) s).die d).fab.ports[p]? = some y ∧ y.state = .retrain := by
  induction l with
  | nil => exact fun was reached => ⟨_, was, reached.resolve_left fun h => List.not_mem_nil h.1⟩
  | cons q l ih =>
    intro s x was reached
    obtain ⟨y, found, state⟩ := State.portRetrain_port (q := q) was
    refine ih found ?_
    by_cases here : q = p ∧ x.state.carries = true
    · exact .inr (state.trans (if_pos here))
    · rw [if_neg here] at state
      rw [state]
      refine reached.imp_left fun h => ⟨(List.mem_cons.mp h.1).resolve_left fun same => here ⟨same.symm, h.2⟩, h.2⟩

/-- The window of every bank opens. -/
def Die.windowed (x : Die) : Die := { x with sct := { x.sct with banks := x.sct.banks.map fun b => { b with window := true } } }

/-- The die switches to its standby comb. -/
def Die.switched (x : Die) : Die :=
  { x.windowed with fab := { x.fab with
      combB := !x.fab.combB, failedA := x.fab.failedA || !x.fab.combB, failedB := x.fab.failedB || x.fab.combB
      failover := true, failovers := satAdd 32 x.fab.failovers 1 } }

/-- The die has lost its last comb. -/
def Die.darkened (x : Die) : Die := { x.windowed with fab := { x.fab with combLost := true } }

theorem State.combLossNow_standby (lit : (s.die d).fab.combLost = false) (standby : (s.die d).fab.noStandby = false) :
    s.combLossNow d = (List.range 16).foldl (fun s p => s.portRetrain d p)
      ((s.modDie d Die.switched).logDie d 0x3001 [BitVec.ofNat 8 (b2n !(s.die d).fab.combB)]) := by
  unfold State.combLossNow
  dsimp only
  rw [if_neg (by rw [lit]; decide), if_neg (by rw [standby]; decide), State.modDie_modDie, State.modDie_die]
  rfl

theorem State.combLossNow_dark (lit : (s.die d).fab.combLost = false) (none : (s.die d).fab.noStandby = true) :
    s.combLossNow d = (List.range 16).foldl (fun s p => s.portRetrain d p) (s.modDie d Die.darkened) := by
  unfold State.combLossNow
  dsimp only
  rw [if_neg (by rw [lit]; decide), if_pos none, State.modDie_modDie]
  rfl

section
variable {samples : List Int}

theorem execCombLoss_eq (on : (s.die d).rails.vana = true) (lit : (s.die d).fab.combLost = false) (eight : samples.length = 8)
    (low : ∀ x ∈ samples, x + 300 < (s.die d).fab.combRef d (b2n (s.die d).fab.combB)) :
    exec (.combLoss d samples) s = .next (s.combLossNow d) := by
  change execCombLoss d samples s = _
  unfold execCombLoss
  dsimp only
  have all : (samples.drop (samples.length - 8)).all ((s.die d).fab.combLow d (b2n (s.die d).fab.combB)) = true := by
    rw [eight]
    refine List.all_eq_true.mpr fun x mem => ?_
    exact decide_eq_true (low x mem)
  rw [if_neg (by simp [on, lit, eight] at all ⊢; exact all)]

theorem does_combLoss (on : (s.die d).rails.vana = true) (lit : (s.die d).fab.combLost = false) (eight : samples.length = 8)
    (low : ∀ x ∈ samples, x + 300 < (s.die d).fab.combRef d (b2n (s.die d).fab.combB))
    (standby : (s.die d).fab.noStandby = false) : Does (.combLoss d samples) s fun t =>
      (t.die d).fab.combB = !(s.die d).fab.combB ∧ (t.die d).fab.failovers = satAdd 32 (s.die d).fab.failovers 1 ∧
      (t.die d).sct.banks = (s.die d).sct.banks.map (fun b => { b with window := true }) ∧
      Reported t s d.val 0x3001 [BitVec.ofNat 8 (if (s.die d).fab.combB then 0 else 1)] ∧
      (∀ p x, p < 16 → (s.die d).fab.ports[p]? = some x → x.state.carries = true →
        ∃ y, (t.die d).fab.ports[p]? = some y ∧ y.state = .retrain) ∧ (t.die d).til = (s.die d).til ∧ DieNoted d s t := by
  refine ⟨_, execCombLoss_eq on lit eight low, ?_⟩
  rw [State.combLossNow_standby lit standby]
  generalize switched : (s.modDie d Die.switched).logDie d 0x3001 [BitVec.ofNat 8 (b2n !(s.die d).fab.combB)] = u
  have die : u.die d = (s.die d).switched := by rw [← switched, State.logDie_die, State.modDie_die]
  have noted : DieNoted d s u := switched ▸ (State.modDie_only ..).noted.trans (State.log_noted ..)
  have told : Reported u s d.val 0x3001 [BitVec.ofNat 8 (if (s.die d).fab.combB then 0 else 1)] := by
    have code : (if (s.die d).fab.combB then 0 else 1) = b2n !(s.die d).fab.combB := by cases (s.die d).fab.combB <;> rfl
    rw [code, ← switched]
    exact fun idle => State.modDie_logDie_reported s d Die.switched _ _ idle
  have all := retrainAll_retrains (d := d) (List.range 16) u
  refine ⟨?_, ?_, ?_, ?_, fun p x low was carries => ?_, ?_, noted.trans all.only.noted⟩
  · rw [all.die, die]
    rfl
  · rw [all.die, die]
    rfl
  · rw [all.die, die]
    rfl
  · unfold Reported
    rw [all.only.rest]
    exact told
  · exact retrainAll_port _ (by rw [die]; exact was) (.inl ⟨List.mem_range.mpr low, carries⟩)
  · rw [all.die, die]
    rfl

theorem does_combLoss_dark (on : (s.die d).rails.vana = true) (lit : (s.die d).fab.combLost = false) (eight : samples.length = 8)
    (low : ∀ x ∈ samples, x + 300 < (s.die d).fab.combRef d (b2n (s.die d).fab.combB))
    (none : (s.die d).fab.noStandby = true) : Does (.combLoss d samples) s fun t =>
      (t.die d).fab.combLost = true ∧ (t.die d).fab.combB = (s.die d).fab.combB ∧
      (t.die d).fab.failovers = (s.die d).fab.failovers ∧ DieOnly d s t := by
  refine ⟨_, execCombLoss_eq on lit eight low, ?_⟩
  rw [State.combLossNow_dark lit none]
  have all := retrainAll_retrains (d := d) (List.range 16) (s.modDie d Die.darkened)
  have die : (s.modDie d Die.darkened).die d = (s.die d).darkened := State.modDie_die ..
  refine ⟨?_, ?_, ?_, (State.modDie_only ..).trans all.only⟩ <;> rw [all.die, die] <;> rfl

end

theorem does_standbyUnavailable (pow : Int) (offs : List Int) : Does (.standbyUnavailable d pow offs) s fun t =>
    (∃ gone, t.die d = { s.die d with fab := { (s.die d).fab with standbyGone := gone } } ∧
      (gone = true ↔ pow + 300 < (s.die d).fab.combRef d (1 - b2n (s.die d).fab.combB) ∨
        ∃ x ∈ offs, x < -5000 ∨ 5000 < x)) ∧ DieOnly d s t := by
  refine ⟨_, rfl, ⟨_, State.modDie_die .., ?_⟩, State.modDie_only ..⟩
  simp [Fabric.combLow]

/-! ### Lock loops (R304, R306) -/

theorem Fabric.heater_put (f : Fabric) (l : List (Nat × Ring)) (n : Nat) (r : Ring) :
    ({ f with rings := KV.put l n r } : Fabric).heater n = r := KV.getD_put ..

theorem Fabric.heater_cons (f : Fabric) (n : Nat) (r : Ring) (l : List (Nat × Ring)) :
    ({ f with rings := (n, r) :: l } : Fabric).heater n = r := by
  simp [Fabric.heater, KV.getD, KV.get?]

/-- What an update of a locked ring's loop leaves of it. -/
structure LoopUpdated (d : DieId) (ring u : Nat) (err : Bool) (s t : State) : Prop where
  only : DieOnly d s t
  ports : (t.die d).fab.ports = (s.die d).fab.ports
  command : ((t.die d).fab.heater ring).u = min u 16383
  locked : ((t.die d).fab.heater ring).locked = true
  bad : ((t.die d).fab.heater ring).bad = if err then ((s.die d).fab.heater ring).bad + 1 else 0

theorem execHeaterLoopUpdate_spec {ring u : Nat} {err : Bool} (on : (s.die d).rails.vhtr = true) (known : ring < 1280)
    (locked : ((s.die d).fab.heater ring).locked = true) : ∃ t sat, LoopUpdated d ring u err s t ∧
      sat ≤ ((s.die d).fab.heater ring).sat + 1 ∧ exec (.heaterLoopUpdate d ring u err) s = .next
        (if 10 ≤ (if err then ((s.die d).fab.heater ring).bad + 1 else 0) ∨ 10 ≤ sat then t.unlockRing d ring else t) := by
  change ∃ t sat, _ ∧ _ ∧ execHeaterLoopUpdate d ring u err s = _
  unfold execHeaterLoopUpdate
  extract_lets x f1 r0 f0 f r bad sat back r1 s1 p drop y
  have ringNow : r.u = min u 16383 ∧ r.locked = true ∧ r.bad = ((s.die d).fab.heater ring).bad ∧
      r.sat = ((s.die d).fab.heater ring).sat := by
    have : r = { (s.die d).fab.heater ring with u := min u 16383, d := f0.duty d ring } :=
      Fabric.heater_cons f0 ..
    rw [this]
    exact ⟨rfl, locked, rfl, rfl⟩
  obtain ⟨command, lock, bads, sats⟩ := ringNow
  have stays : back = false := by
    unfold back
    rw [lock]
    rfl
  rw [if_neg (by simp [x, on, known]), if_neg (by rw [stays]; decide)]
  have die : s1.die d = { s.die d with fab := { f with rings := KV.put f.rings ring r1 } } := State.modDie_die ..
  have heater : (s1.die d).fab.heater ring = r1 := by
    rw [die]
    exact Fabric.heater_put ..
  refine ⟨s1, sat, ⟨State.modDie_only .., ?_, ?_, ?_, ?_⟩, ?_, ?_⟩
  · rw [die]
    rfl
  · rw [heater]
    exact command
  · rw [heater]
    unfold r1
    dsimp only
    rw [lock, Bool.true_or]
  · rw [heater]
    unfold r1 bad
    dsimp only
    rw [bads]
  · unfold sat
    rw [sats]
    split <;> omega
  · unfold bad
    rw [bads]
    exact (apply_ite Host.Outcome.next _ _ _).symm

theorem does_heaterLoopUpdate {ring u : Nat} (on : (s.die d).rails.vhtr = true) (known : ring < 1280)
    (locked : ((s.die d).fab.heater ring).locked = true) (within : ((s.die d).fab.heater ring).sat < 9) :
    Does (.heaterLoopUpdate d ring u false) s fun t =>
      ((t.die d).fab.heater ring).u = min u 16383 ∧ ((t.die d).fab.heater ring).locked = true ∧
      ((t.die d).fab.heater ring).bad = 0 ∧ (t.die d).fab.ports = (s.die d).fab.ports ∧ DieOnly d s t := by
  obtain ⟨t, sat, updated, few, exec⟩ := execHeaterLoopUpdate_spec (u := u) (err := false) on known locked
  rw [if_neg (by simp; omega)] at exec
  exact ⟨t, exec, updated.command, updated.locked, updated.bad, updated.ports, updated.only⟩

theorem does_heaterLoopUpdate_lost {ring u : Nat} (on : (s.die d).rails.vhtr = true) (known : ring < 1280)
    (locked : ((s.die d).fab.heater ring).locked = true) (last : ((s.die d).fab.heater ring).bad = 9) :
    Does (.heaterLoopUpdate d ring u true) s fun t =>
      ((t.die d).fab.heater ring).locked = false ∧ ((t.die d).fab.heater ring).searchAt = some s.tray.now ∧
      ∀ e, e ≠ d → t.die e = s.die e := by
  obtain ⟨t, sat, updated, -, exec⟩ := execHeaterLoopUpdate_spec (u := u) (err := true) on known locked
  rw [if_pos (by rw [last]; exact .inl (Nat.le_refl 10))] at exec
  obtain ⟨lost, others⟩ := State.unlockRing_spec updated.locked
  have now : t.tray.now = s.tray.now := by rw [updated.only.rest]
  exact ⟨_, exec, by rw [lost], by rw [lost, now], fun e he => (others e he).trans (updated.only.others e he)⟩

section
variable {port : Fin 16} {drop : Bool} {line : Fin 40}

theorem does_ringLockLoss
    (locked : ((s.die d).fab.heater ((s.port d port.val).ringNo port.val drop line.val)).locked = true) :
    Does (.ringLockLoss d port drop line) s fun t =>
      ((t.die d).fab.heater ((s.port d port.val).ringNo port.val drop line.val)).locked = false ∧
      ((t.die d).fab.heater ((s.port d port.val).ringNo port.val drop line.val)).searchAt = some s.tray.now ∧
      ∀ e, e ≠ d → t.die e = s.die e := by
  obtain ⟨lost, others⟩ := State.unlockRing_spec locked
  exact ⟨_, rfl, by rw [lost], by rw [lost], others⟩

theorem does_ringSearchTimeout {at_ : Ns}
    (lost : ((s.die d).fab.heater ((s.port d port.val).ringNo port.val drop line.val)).locked = false)
    (since : ((s.die d).fab.heater ((s.port d port.val).ringNo port.val drop line.val)).searchAt = some at_) :
    Does (.ringSearchTimeout d port drop line) s fun t =>
      ((t.die d).fab.heater ((s.port d port.val).ringNo port.val drop line.val)).searchAt = none ∧
      ((t.die d).fab.heater ((s.port d port.val).ringNo port.val drop line.val)).locked = false ∧
      at_ + 2000000 ≤ t.tray.now ∧ ∀ e, e ≠ d → t.die e = s.die e := by
  change ∃ t, execRingSearchTimeout d port drop line s = .next t ∧ _
  unfold execRingSearchTimeout
  dsimp only
  generalize (s.port d port.val).ringNo port.val drop line.val = n at lost since ⊢
  rw [since]
  dsimp only
  rw [if_neg (by rw [lost]; decide)]
  refine ⟨_, rfl, ?_⟩
  generalize searched : ((s.advanceTo (at_ + 2000000)).modDie d fun x => { x with fab := { x.fab with
    rings := KV.put x.fab.rings n { (s.die d).fab.heater n with searchAt := none } } }) = u
  have ring : (u.die d).fab.heater n = { (s.die d).fab.heater n with searchAt := none } := by
    rw [← searched, State.modDie_die]
    exact Fabric.heater_put ..
  have now : at_ + 2000000 ≤ u.tray.now := by
    rw [← searched]
    exact Nat.le_max_right ..
  have others (e : DieId) (he : e ≠ d) : u.die e = s.die e := by
    rw [← searched]
    exact State.modDie_die_ne _ _ _ _ he
  have work := u.lineOut_portWork d port.val drop line.val .failed true
  have same : ((u.lineOut d port.val drop line.val .failed true).die d).fab.heater n = (u.die d).fab.heater n :=
    congrArg (fun l => KV.getD l n ({} : Ring)) work.rings
  refine ⟨by rw [same, ring], by rw [same, ring]; exact lost, le_of_le_of_eq now work.now.symm, fun e he => ?_⟩
  exact (work.others e he).trans (others e he)

end

/-! ### Sweeps (R308, Table 12.4) -/

section
variable {port : Fin 16} {x : Port} {power : List (List (Option Nat))}

theorem does_sweepComplete (was : (s.die d).fab.ports[port.val]? = some x) (searches : x.state = .search)
    (on : (s.die d).rails.vhtr = true) (unswept : x.swept = 0) (turn : (s.die d).fab.roundOf port.val = true) :
    Does (.sweepComplete d port false power) s fun t =>
      ∃ y, (t.die d).fab.ports[port.val]? = some y ∧ y.shiftTx = bestShift power ∧ y.state = .search ∧ y.swept = 1 ∧
      DieOnly d s t := by
  change ∃ t, execSweepComplete d port false power s = .next t ∧ _
  unfold execSweepComplete
  extract_lets p b pw duty base st s1
  rw [State.port_of was, if_neg (by simp [searches, on, unswept, turn, p, b2n]), if_neg Bool.false_ne_true]
  have held : (s1.die d).fab.ports[port.val]? = some x := by
    unfold s1
    rw [State.modDie_die]
    exact was
  have only : DieOnly d s s1 := State.modDie_only ..
  clear_value s1
  exact ⟨_, rfl, _, State.modPort_port _ held, rfl, searches, rfl, only.trans (State.modDie_only ..)⟩

theorem does_sweepComplete_early
    (turn : (s.die d).fab.roundOf port.val = false) : Does (.sweepComplete d port false power) s fun t => t = s := by
  refine ⟨s, ?_, rfl⟩
  change execSweepComplete d port false power s = _
  unfold execSweepComplete
  extract_lets p b pw duty base st s1
  rw [if_pos (.inr (.inr (.inr (by simp [turn, p]))))]

theorem does_sweepComplete_drop (was : (s.die d).fab.ports[port.val]? = some x) (searches : x.state = .search)
    (on : (s.die d).rails.vhtr = true) (swept : x.swept = 1) (light : x.farLight = true) :
    Does (.sweepComplete d port true power) s fun t =>
      ∃ y, (t.die d).fab.ports[port.val]? = some y ∧ y.shiftRx = bestShift power ∧ y.state = .train ∧ DieSends d s t := by
  change ∃ t, execSweepComplete d port true power s = .next t ∧ _
  unfold execSweepComplete
  extract_lets p b pw duty base st s1
  rw [State.port_of was, if_neg (by simp [searches, on, swept, light, b2n]), if_pos rfl]
  have held : (s1.die d).fab.ports[port.val]? = some x := by
    unfold s1
    rw [State.modDie_die]
    exact was
  have sent : DieSends d s s1 := (State.modDie_only ..).sends
  clear_value s1
  unfold State.startTraining
  refine ⟨_, rfl, _, State.modPort_port _ (State.modPort_port _ held), rfl, rfl, ?_⟩
  exact (sent.trans ((State.modPort_ports ..).trans (State.modPort_ports ..)).toDieSends).trans (State.emit_ports ..).toDieSends

end

/-- The choice of the least cost among a list, of two with the same first part the one with the lesser second. -/
def lesserCost (cost : Nat → Nat × Nat) (best b : Nat) : Nat :=
  if (cost b).1 < (cost best).1 ∨ ((cost b).1 = (cost best).1 ∧ (cost b).2 < (cost best).2) then b else best

theorem lesserCost_le (cost : Nat → Nat × Nat) (best b : Nat) :
    (cost (lesserCost cost best b)).1 ≤ (cost best).1 ∧ (cost (lesserCost cost best b)).1 ≤ (cost b).1 := by
  unfold lesserCost
  split <;> omega

theorem lesserCost_mem (cost : Nat → Nat × Nat) (best b : Nat) : lesserCost cost best b = b ∨ lesserCost cost best b = best := by
  unfold lesserCost
  split
  · exact .inl rfl
  · exact .inr rfl

theorem leastCost_le (cost : Nat → Nat × Nat) (l : List Nat) (best : Nat) :
    (l.foldl (lesserCost cost) best = best ∨ l.foldl (lesserCost cost) best ∈ l) ∧
      (cost (l.foldl (lesserCost cost) best)).1 ≤ (cost best).1 ∧
      ∀ b ∈ l, (cost (l.foldl (lesserCost cost) best)).1 ≤ (cost b).1 := by
  induction l generalizing best with
  | nil => exact ⟨.inl rfl, Nat.le_refl _, fun _ mem => absurd mem List.not_mem_nil⟩
  | cons a l ih =>
    obtain ⟨among, low, all⟩ := ih (lesserCost cost best a)
    obtain ⟨below, least⟩ := lesserCost_le cost best a
    refine ⟨?_, Nat.le_trans low below, fun b mem => ?_⟩
    · rcases among with same | mem
      · rcases lesserCost_mem cost best a with h | h
        · exact .inr (List.mem_cons.mpr (.inl (same.trans h)))
        · exact .inl (same.trans h)
      · exact .inr (List.mem_cons_of_mem a mem)
    · rcases List.mem_cons.mp mem with rfl | mem
      · exact Nat.le_trans low least
      · exact all b mem

/-- Unbounded rings and total power of a port under shift b. -/
def shiftCost (power : List (List (Option Nat))) (b : Nat) : Nat × Nat :=
  let ps := (List.range 40).map fun r => (power.getD r []).getD ((r + b) % 40) none
  ((ps.filter Option.isNone).length, (ps.filterMap id).sum)

theorem bestShift_eq (power : List (List (Option Nat))) :
    bestShift power = (List.range 40).foldl (lesserCost (shiftCost power)) 0 := rfl

theorem shiftCost_unbounded (power : List (List (Option Nat))) (b : Nat) : (shiftCost power b).1 =
    ((List.range 40).filter fun r => ((power.getD r []).getD ((r + b) % 40) none).isNone).length := by
  unfold shiftCost
  dsimp only
  rw [List.filter_map, List.length_map]
  rfl

theorem bestShift_least (power : List (List (Option Nat))) : bestShift power < 40 ∧ ∀ b, b < 40 →
    ((List.range 40).filter fun r => ((power.getD r []).getD ((r + bestShift power) % 40) none).isNone).length ≤
      ((List.range 40).filter fun r => ((power.getD r []).getD ((r + b) % 40) none).isNone).length := by
  obtain ⟨among, -, all⟩ := leastCost_le (shiftCost power) (List.range 40) 0
  rw [← bestShift_eq] at among all
  refine ⟨?_, fun b low => ?_⟩
  · rcases among with zero | mem
    · rw [zero]
      decide
    · exact List.mem_range.mp mem
  · rw [← shiftCost_unbounded, ← shiftCost_unbounded]
    exact all b (List.mem_range.mpr low)

end

end Sys2Proof.Machine

namespace Sys2Proof
open Sys2Proof.Machine

/-- Settles O32: the loss of a comb retrains port by port what carries, a ring that loses lock stays unlocked through all that
its line's move ends, and the choice of a shift keeps the least cost met so far. -/
theorem combsAndRings : Obligations.CombsAndRings :=
  ⟨fun _ _ _ _ _ _ _ _ starts on a b one => does_combStartupCheck starts on a b one,
   fun _ _ _ _ _ _ starts on a b => does_combStartupCheck_none starts on a b,
   fun _ _ _ on lit eight low standby => does_combLoss on lit eight low standby,
   fun _ _ _ on lit eight low none => does_combLoss_dark on lit eight low none,
   fun _ _ pow offs => does_standbyUnavailable pow offs,
   fun _ _ _ _ on known locked within => does_heaterLoopUpdate on known locked within,
   fun _ _ _ _ on known locked last => does_heaterLoopUpdate_lost on known locked last,
   fun _ _ _ _ _ locked => does_ringLockLoss locked,
   fun _ _ _ _ _ _ lost since => does_ringSearchTimeout lost since,
   fun _ _ _ _ _ was searches on unswept turn => does_sweepComplete was searches on unswept turn,
   fun _ _ _ _ _ _ _ _ _ turn => does_sweepComplete_early turn,
   fun _ _ _ _ _ was searches on swept light => does_sweepComplete_drop was searches on swept light,
   fun power => bestShift_least power⟩

end Sys2Proof
end

section
/-! The scout banks (13.7, 13.8). -/

namespace Sys2Proof.Machine
open Sys2Proof

section
variable {s : State} {d : DieId} {b : Fin 8} {k : Bank}

theorem State.modBank_bank (s : State) (d : DieId) (b i : Nat) (f : Bank → Bank) :
    ((s.modBank d b f).die d).sct.banks[i]? = if b = i then (s.die d).sct.banks[i]?.map f else (s.die d).sct.banks[i]? := by
  rw [State.modBank, State.modDie_die]
  dsimp only
  rw [List.getElem?_modify]
  split
  · rfl
  · cases (s.die d).sct.banks[i]? <;> rfl

theorem State.modBank_same {b : Nat} (was : (s.die d).sct.banks[b]? = some k) (f : Bank → Bank) :
    ((s.modBank d b f).die d).sct.banks[b]? = some (f k) := by
  rw [State.modBank_bank, if_pos rfl, was]
  rfl

theorem State.bank_of {b : Nat} (was : (s.die d).sct.banks[b]? = some k) : (s.die d).sct.banks.getD b {} = k := by
  rw [List.getD_eq_getElem?_getD, was]
  rfl

/-! ### Reference rings and tap power (R351, R358, R370) -/

theorem does_refRingUpdate (was : (s.die d).sct.banks[b.val]? = some k) (change : List Int) :
    Does (.refRingUpdate d b change true) s fun t =>
      (t.die d).sct.banks[b.val]? = some { k with
        refSum := k.refSum + (change.take 4).foldl (· + ·) 0, window := false } ∧
      (∀ i, i ≠ b.val → (t.die d).sct.banks[i]? = (s.die d).sct.banks[i]?) ∧ DieOnly d s t :=
  ⟨_, rfl, State.modBank_same was _, fun _ other => (State.modBank_bank ..).trans (if_neg (Ne.symm other)),
    State.modDie_only ..⟩

theorem does_refRingUpdate_lost (was : (s.die d).sct.banks[b.val]? = some k) (lit : k.window = false) (free : k.state = .free)
    (works : k.failPending = false) (change : List Int) : Does (.refRingUpdate d b change false) s fun t =>
      (t.die d).sct.banks[b.val]? = some { k with state := .failed, holder := none } ∧
      Reported t s d.val 0x3101 [BitVec.ofNat 8 b.val] ∧ DieNoted d s t := by
  change ∃ t, execRefRingUpdate d b change false s = .next t ∧ _
  unfold execRefRingUpdate State.failBank
  dsimp only
  rw [State.bank_of was, if_neg Bool.false_ne_true, if_neg (by rw [lit]; decide), if_neg (by simp [free, works])]
  refine ⟨_, rfl, ?_, fun idle => State.modDie_logDie_reported s d _ 0x3101 _ idle,
    (State.modDie_only ..).noted.trans (State.log_noted ..)⟩
  rw [State.logDie_die, State.modBank_same was, if_neg (by rw [free]; decide)]

theorem does_tapPowerMeasure {dbm : Int} (was : (s.die d).sct.banks[b.val]? = some k)
    (within : ¬ 1200 < ({ k with tap := dbm } : Bank).loss d b.val) : Does (.tapPowerMeasure d b dbm) s fun t =>
      (∃ k', (t.die d).sct.banks[b.val]? = some k' ∧ k'.tap = dbm ∧ k'.tapT = (s.bankTemp d b.val).getD k.tapT ∧ k'.dark = false ∧
        k'.degraded = decide (600 < k'.loss d b.val) ∧ k'.state = k.state) ∧ DieOnly d s t := by
  change ∃ t, execTapPowerMeasure d b dbm s = .next t ∧ _
  unfold execTapPowerMeasure
  extract_lets s1
  have measured : (s1.die d).sct.banks[b.val]? = _ := State.modBank_same was _
  have light : ((s1.die d).sct.banks.getD b.val {}).dark = false := by
    rw [State.bank_of measured]
    exact decide_eq_false within
  rw [if_neg (by rw [light]; decide)]
  exact ⟨_, rfl, ⟨_, measured, rfl, rfl, decide_eq_false within, rfl, rfl⟩, State.modDie_only ..⟩

/-! ### Recalibration (R368, R514) -/

theorem does_bankRecalibration {d0 gain : List Nat} (was : (s.die d).sct.banks[b.val]? = some k) (free : k.state = .free)
    (runs : (s.die d).svc.holding = none) : Does (.bankRecalibration d b d0 gain true) s fun t =>
      (∃ k', (t.die d).sct.banks[b.val]? = some k' ∧ k'.d0 = d0 ∧ k'.gain = gain ∧ k'.refSum = 0 ∧
        k'.state = .free ∧ k'.tapBase = k.tap) ∧ ∀ e, e ≠ d → t.die e = s.die e := by
  change ∃ t, execBankRecalibration d b d0 gain true s = .next t ∧ _
  unfold execBankRecalibration
  dsimp only
  rw [State.bank_of was, if_neg (by simp [free, runs]), if_neg (by decide), if_pos free]
  refine ⟨_, rfl, ⟨_, State.modBank_same (s := (s.advanceTo _).skipFree 9216) was _, rfl, rfl, rfl, rfl, rfl⟩, fun e he => ?_⟩
  exact State.modDie_die_ne _ _ _ _ he

theorem does_recalibrateNow {m : MasterId} {v : Nat} (takes : GateTakes m ⟨0x3100, 0xA, d.val⟩ (leBytes 1 v) s) :
    Does (.recalibrateNow m d v) s fun t =>
      (∀ i k, (s.die d).sct.banks[i]? = some k → (t.die d).sct.banks[i]? =
        some (if bit (v % 256 ^ 1) i = true ∧ k.state = .free then { k with state := .recal } else k)) ∧
      GateOnly ⟨0x3100, 0xA, d.val⟩ s t ∧ ∀ e, e ≠ d → t.die e = s.die e := by
  obtain ⟨die, gate, others⟩ := gateEnd_modDie m ⟨0x3100, 0xA, d.val⟩ (leBytes 1 v) s d fun x => { x with sct := { x.sct with
    banks := x.sct.banks.mapIdx fun i k =>
      if bit (leNat (leBytes 1 v)) i = true ∧ k.state = .free then { k with state := .recal } else k } }
  refine does_gate_done takes rfl rfl ⟨fun i k was => ?_, gate, others⟩
  refine (congrArg (fun x : Die => x.sct.banks[i]?) die).trans ?_
  dsimp only
  rw [List.getElem?_mapIdx, was, leNat_leBytes]
  rfl

theorem does_scoutCalibrationTablesBuilt {d0 gain : List (List Nat)} (starts : (s.die d).svc.state = .starting)
    (on : (s.die d).rails.vhtr = true) (first : (s.die d).sct.tablesBuilt = false) :
    Does (.scoutCalibrationTablesBuilt d d0 gain) s fun t =>
      (t.die d).sct.tablesBuilt = true ∧
      (∀ i k, (s.die d).sct.banks[i]? = some k → ∃ k', (t.die d).sct.banks[i]? = some k' ∧
        k'.d0 = d0.getD i [] ∧ k'.gain = gain.getD i [] ∧ k'.window = k.window ∧
        k'.state = (if (s.die d).clk.enables.getLsbD (6 + i) then .free else .gated)) ∧
      (t.die d).til = (s.die d).til ∧ ∀ e, e ≠ d → t.die e = s.die e := by
  change ∃ t, execScoutCalibrationTablesBuilt d d0 gain s = .next t ∧ _
  unfold execScoutCalibrationTablesBuilt
  dsimp only
  rw [if_neg (by simp [starts, on, first])]
  refine ⟨_, rfl, ?_⟩
  rw [State.modDie_die]
  refine ⟨rfl, fun i k was => ?_, rfl, fun e he => State.modDie_die_ne _ _ _ _ he⟩
  refine ⟨_, (List.getElem?_mapIdx ..).trans (congrArg (Option.map _) was), rfl, rfl, rfl, rfl⟩

end

end Sys2Proof.Machine

namespace Sys2Proof
open Sys2Proof.Machine

/-- Settles O37: each event of a scout bank is one change of that bank, or of every bank by its index. -/
theorem scoutBanks : Obligations.ScoutBanks :=
  ⟨fun _ _ _ _ change was => does_refRingUpdate was change,
   fun _ _ _ _ change was lit free works => does_refRingUpdate_lost was lit free works change,
   fun _ _ _ _ _ was within => does_tapPowerMeasure was within,
   fun _ _ _ _ _ _ was free runs => does_bankRecalibration was free runs,
   fun _ _ _ _ takes => does_recalibrateNow takes,
   fun _ _ _ _ starts on first => does_scoutCalibrationTablesBuilt starts on first⟩

end Sys2Proof
end

section
/-! Writes of the clock objects and of gated blocks (3.2, 3.5, 3.6). -/

namespace Sys2Proof.Machine
open Sys2Proof

/-! ### The preferred reference (R38) -/

/-- The clocks after a write of the preferred reference. -/
def Clk.prefers (c : Clk) (r : RefIn) : Clk :=
  let c := { c with preferred := r }
  if c.relockTo.isSome then { c with switchStatus := 2 }
  else if c.refInUse = r ∧ !c.holdover then c
  else if c.refReady r then { c with relockTo := some r, switchStatus := 2 }
  else { c with switchStatus := 1 }

section
variable (c : Clk) (r : RefIn)

theorem Clk.prefers_rest : c.prefers r = { c with
    preferred := r, relockTo := (c.prefers r).relockTo, switchStatus := (c.prefers r).switchStatus } := by
  unfold Clk.prefers
  dsimp only
  split
  · rfl
  · split
    · rfl
    · split <;> rfl

variable {c r}

theorem Clk.prefers_used (idle : c.relockTo = none) (used : c.refInUse = r) (locked : c.holdover = false) :
    (c.prefers r).relockTo = none ∧ (c.prefers r).switchStatus = c.switchStatus := by
  unfold Clk.prefers
  dsimp only
  rw [if_neg (by rw [idle]; decide), if_pos ⟨used, by rw [locked]; rfl⟩]
  exact ⟨idle, rfl⟩

theorem Clk.prefers_ready (idle : c.relockTo = none) (other : c.refInUse ≠ r ∨ c.holdover = true)
    (ready : c.refReady r = true) : (c.prefers r).relockTo = some r ∧ (c.prefers r).switchStatus = 2 := by
  have ready : ({ c with preferred := r } : Clk).refReady r = true := by
    cases r <;> exact ready
  unfold Clk.prefers
  dsimp only
  rw [if_neg (by rw [idle]; decide), if_neg (by rcases other with h | h <;> simp [h]), if_pos ready]
  exact ⟨rfl, rfl⟩

theorem Clk.prefers_waits (idle : c.relockTo = none) (other : c.refInUse ≠ r ∨ c.holdover = true)
    (lost : c.refReady r = false) : (c.prefers r).relockTo = none ∧ (c.prefers r).switchStatus = 1 := by
  have lost : ({ c with preferred := r } : Clk).refReady r = false := by
    cases r <;> exact lost
  unfold Clk.prefers
  dsimp only
  rw [if_neg (by rw [idle]; decide), if_neg (by rcases other with h | h <;> simp [h]), if_neg (by rw [lost]; decide)]
  exact ⟨idle, rfl⟩

end

section
variable {s : State} {m : MasterId} {d : DieId} {v : Nat}

theorem gateEnd_refused (m : MasterId) (k : ObjKey) (v : List Byte) (a b : Nat) (t : State) :
    gateEnd m k v (.refused a b t) = t := rfl

theorem leNat_byte (low : v < 256) : leNat (leBytes 1 v) = v := by
  rw [leNat_leBytes]
  exact Nat.mod_eq_of_lt low

theorem does_preferredRefWrite {r : RefIn} (takes : GateTakes m ⟨0x5000, 1, d.val⟩ (leBytes 1 v) s) (low : v < 2)
    (named : r = if v = 0 then .xa else .xb) : Does (.preferredRefWrite m d v) s fun t =>
      t.die d = { s.die d with clk := { (s.die d).clk with
        preferred := r, relockTo := (t.die d).clk.relockTo, switchStatus := (t.die d).clk.switchStatus } } ∧
      ((s.die d).clk.relockTo = none → (s.die d).clk.refInUse = r → (s.die d).clk.holdover = false →
        (t.die d).clk.relockTo = none ∧ (t.die d).clk.switchStatus = (s.die d).clk.switchStatus) ∧
      ((s.die d).clk.relockTo = none → (s.die d).clk.refInUse ≠ r ∨ (s.die d).clk.holdover = true →
        (s.die d).clk.refReady r = true → (t.die d).clk.relockTo = some r ∧ (t.die d).clk.switchStatus = 2) ∧
      ((s.die d).clk.relockTo = none → (s.die d).clk.refInUse ≠ r ∨ (s.die d).clk.holdover = true →
        (s.die d).clk.refReady r = false → (t.die d).clk.relockTo = none ∧ (t.die d).clk.switchStatus = 1) ∧
      GateOnly ⟨0x5000, 1, d.val⟩ s t ∧ ∀ e, e ≠ d → t.die e = s.die e := by
  obtain ⟨die, gate, others⟩ := gateEnd_modDie m ⟨0x5000, 1, d.val⟩ (leBytes 1 v) s d fun x => { x with clk := x.clk.prefers r }
  have done : s.atTick.preferredApply d (leNat (leBytes 1 v)) =
      .done (s.atTick.modDie d fun x => { x with clk := x.clk.prefers r }) 0 true := by
    rw [leNat_byte (by omega), named]
    rfl
  refine does_gate_done takes rfl done ⟨?_, ?_, ?_, ?_, gate, others⟩ <;> rw [die]
  · exact congrArg (fun c => { s.die d with clk := c }) (Clk.prefers_rest ..)
  · exact Clk.prefers_used
  · exact Clk.prefers_ready
  · exact Clk.prefers_waits

/-! ### The clock enables (R55, R373) -/

/-- Engines that take units leave the rest of every die. -/
structure FeedsOnly (s t : State) : Prop where
  die : ∀ e, t.die e = { s.die e with til := (t.die e).til }

theorem FeedsOnly.trans {s t u : State} (h : FeedsOnly s t) (k : FeedsOnly t u) : FeedsOnly s u := by
  refine ⟨fun e => ?_⟩
  have a := h.die e
  have b := k.die e
  rw [b, a]

theorem State.feedOne_only (s : State) (d : DieId) (e : Nat) : FeedsOnly s (s.feedOne d e) := by
  unfold State.feedOne
  dsimp only
  split
  · exact ⟨fun _ => rfl⟩
  · split
    · exact ⟨fun _ => rfl⟩
    · split
      · exact ⟨fun _ => rfl⟩
      · split
        · exact ⟨fun _ => rfl⟩
        · refine ⟨fun g => ?_⟩
          by_cases here : g = d
          · subst here
            rw [State.modDie_die]
            rfl
          · rw [State.modDie_die_ne _ _ _ _ here]
            rfl

theorem State.feedEngines_only (s : State) (d : DieId) : FeedsOnly s (s.feedEngines d) := by
  have all (l : List Nat) (s : State) : FeedsOnly s (l.foldl (fun s e => s.feedOne d e) s) := by
    induction l generalizing s with
    | nil => exact ⟨fun _ => rfl⟩
    | cons e l ih => exact (s.feedOne_only d e).trans (ih _)
  unfold State.feedEngines
  split
  · exact all _ s
  · exact ⟨fun _ => rfl⟩

/-- A die whose clock enables are the bits of v. -/
def Die.clocked (v : Nat) (x : Die) : Die :=
  { x with
    clk := { x.clk with enables := BitVec.ofNat 32 v }
    srv := if bit v 1 then x.srv else { x.srv with running := none }
    cmp := if bit v 4 then x.cmp else { x.cmp with running := false, frame := none }
    sct := { x.sct with banks := x.sct.banks.mapIdx fun i k => k.enable (bit v (6 + i)) } }

theorem does_clockEnableWrite (takes : GateTakes m ⟨0x5000, 5, d.val⟩ (leBytes 4 v) s) (low : v < 2 ^ 32) :
    Does (.clockEnableWrite m d v) s fun t =>
      (t.die d).clk = { (s.die d).clk with enables := BitVec.ofNat 32 v } ∧
      (bit v 1 = false → (t.die d).srv = { (s.die d).srv with running := none }) ∧
      (bit v 4 = false → (t.die d).cmp = { (s.die d).cmp with running := false, frame := none }) ∧
      (∀ (i : Nat) (b : Bank), (s.die d).sct.banks[i]? = some b →
        (t.die d).sct.banks[i]? = some (b.enable (bit v (6 + i)))) ∧
      (bit v 14 = false → GateOnly ⟨0x5000, 5, d.val⟩ s t ∧ ∀ e, e ≠ d → t.die e = s.die e) := by
  obtain ⟨-, gate, others⟩ := gateEnd_modDie m ⟨0x5000, 5, d.val⟩ (leBytes 4 v) s d (Die.clocked v)
  have clocked : (s.atTick.modDie d (Die.clocked v)).die d = (s.die d).clocked v := State.modDie_die ..
  have value : leNat (leBytes 4 v) = v := by
    rw [leNat_leBytes]
    exact Nat.mod_eq_of_lt low
  have done : s.atTick.enablesApply d (leNat (leBytes 4 v)) = .done (if bit v 14 then
      (s.atTick.modDie d (Die.clocked v)).feedEngines d else s.atTick.modDie d (Die.clocked v)) 0 true := by
    rw [value]
    rfl
  generalize fed : (if bit v 14 then (s.atTick.modDie d (Die.clocked v)).feedEngines d
    else s.atTick.modDie d (Die.clocked v)) = u at done
  have die : u.die d = { (s.die d).clocked v with til := (u.die d).til } := by
    rw [← fed]
    split
    · rw [← clocked]
      exact (State.feedEngines_only ..).die d
    · rw [clocked]
  refine does_gate_done takes rfl done ⟨?_, fun off => ?_, fun off => ?_, fun i b was => ?_, fun off => ?_⟩
  · rw [gateEnd_done_die, die]
    rfl
  · rw [gateEnd_done_die, die]
    exact if_neg (by rw [off]; decide)
  · rw [gateEnd_done_die, die]
    exact if_neg (by rw [off]; decide)
  · rw [gateEnd_done_die, die]
    exact (List.getElem?_mapIdx ..).trans (congrArg (Option.map _) was)
  · rw [off, if_neg Bool.false_ne_true] at fed
    rw [← fed]
    exact ⟨gate, others⟩

/-! ### The monitor output (R56, R57) -/

theorem does_clkmonSelectWrite {sub src k : Nat} (takes : GateTakes m ⟨0x5000, sub, d.val⟩ (leBytes 1 v) s)
    (known : sub = 6 ∨ sub = 7) (low : v < 256) (source : src = if sub = 6 then v else (s.die d).clk.monSrc)
    (divider : k = if sub = 6 then (s.die d).clk.monK else v) : Does (.clkmonSelectWrite m d sub v) s fun t =>
      (clkmonKhz.getD src 0 ≤ 250000 * 2 ^ k →
        t.die d = { s.die d with clk := { (s.die d).clk with monSrc := src, monK := k } }) ∧
      (250000 * 2 ^ k < clkmonKhz.getD src 0 → t.die d = { s.die d with clk := { (s.die d).clk with switchStatus := 3 } }) ∧
      GateOnly ⟨0x5000, sub, d.val⟩ s t ∧ ∀ e, e ≠ d → t.die e = s.die e := by
  have runs : exec (.clkmonSelectWrite m d sub v) s = .next (s.gate m ⟨0x5000, sub, d.val⟩ (leBytes 1 v) fun s _ w =>
      s.clkmonApply d sub (leNat w)) := if_pos known
  have applies : s.atTick.clkmonApply d sub (leNat (leBytes 1 v)) = if 250000 * 2 ^ k < clkmonKhz.getD src 0 then
      .refused rcOutOfRange 0 (s.atTick.modClk d fun c => { c with switchStatus := 3 })
    else .done (s.atTick.modClk d fun c => { c with monSrc := src, monK := k }) 0 true := by
    rw [leNat_byte low, source, divider]
    rfl
  by_cases fast : 250000 * 2 ^ k < clkmonKhz.getD src 0
  · rw [if_pos fast] at applies
    refine does_gate takes runs ?_
    rw [applies, gateEnd_refused]
    exact ⟨fun slow => absurd fast (Nat.not_lt.mpr slow), fun _ => State.modClk_die ..,
      (s.atTick_gate _).trans ((State.modClk_only ..).gate _), fun e he => State.modDie_die_ne _ _ _ _ he⟩
  · rw [if_neg fast] at applies
    obtain ⟨die, gate, others⟩ := gateEnd_modDie m ⟨0x5000, sub, d.val⟩ (leBytes 1 v) s d fun x => { x with
      clk := { x.clk with monSrc := src, monK := k } }
    exact does_gate_done takes runs applies ⟨fun _ => die, fun slow => absurd slow fast, gate, others⟩

theorem clkmonOut_of_drives {t : State} (drives : (t.die d).clk.monDrive = true)
    (alone : ∀ e, e ≠ d → (t.die e).clk.monDrive = false) : t.clkmonOut =
      if (t.die d).clk.enables.getLsbD 15 = true then some (d, (t.die d).clk.monSrc, (t.die d).clk.monK) else none := by
  have found : ((List.finRange 8).find? fun e => (t.die e).clk.monDrive) = some d := by
    cases h : (List.finRange 8).find? fun e => (t.die e).clk.monDrive with
    | none => exact absurd drives (List.find?_eq_none.mp h d (List.mem_finRange d))
    | some e =>
      refine congrArg some (Decidable.byContradiction fun other => ?_)
      have on := List.find?_some h
      rw [alone e other] at on
      cases on
  unfold State.clkmonOut
  rw [found]
  rfl

theorem does_clkmonDriveWrite (takes : GateTakes m ⟨0x5000, 8, d.val⟩ (leBytes 1 v) s) (low : v < 2) :
    Does (.clkmonDriveWrite m d v) s fun t =>
      t.die d = { s.die d with clk := { (s.die d).clk with monDrive := v == 1 } } ∧
      (∀ e, e ≠ d → t.die e = { s.die e with clk := { (s.die e).clk with
        monDrive := if v = 1 then false else (s.die e).clk.monDrive } }) ∧ GateOnly ⟨0x5000, 8, d.val⟩ s t ∧
      (v = 1 → t.clkmonOut = if (s.die d).clk.enables.getLsbD 15 = true
        then some (d, (s.die d).clk.monSrc, (s.die d).clk.monK) else none) := by
  have value := leNat_byte (v := v) (by omega)
  generalize freed : (if v = 1 then s.atTick.allDies fun x => { x with clk := { x.clk with monDrive := false } } else s.atTick) = u
  have done : s.atTick.driveApply d (leNat (leBytes 1 v)) = .done (u.modClk d fun c => { c with monDrive := v == 1 }) 0 true := by
    rw [value, ← freed]
    rfl
  have dies (e : DieId) : u.die e = { s.die e with clk := { (s.die e).clk with
      monDrive := if v = 1 then false else (s.die e).clk.monDrive } } := by
    rw [← freed]
    by_cases one : v = 1
    · rw [if_pos one, if_pos one, State.allDies_die]
      rfl
    · rw [if_neg one, if_neg one]
      rfl
  have gate : GateOnly ⟨0x5000, 8, d.val⟩ s u := by
    rw [← freed]
    split
    · exact (s.atTick_gate _).trans ⟨rfl, fun _ _ _ _ => rfl, fun _ _ => rfl⟩
    · exact s.atTick_gate _
  have mine : (u.modClk d fun c => { c with monDrive := v == 1 }).die d =
      { s.die d with clk := { (s.die d).clk with monDrive := v == 1 } } := by rw [State.modClk_die, dies]
  have others (e : DieId) (he : e ≠ d) : (u.modClk d fun c => { c with monDrive := v == 1 }).die e = { s.die e with
      clk := { (s.die e).clk with monDrive := if v = 1 then false else (s.die e).clk.monDrive } } :=
    (State.modDie_die_ne _ _ _ _ he).trans (dies e)
  refine does_gate_done takes rfl done ⟨by rw [gateEnd_done_die, mine], fun e he => by rw [gateEnd_done_die, others e he],
    (gate.trans ((State.modClk_only ..).gate _)).trans (gateEnd_done_gate ..), fun one => ?_⟩
  rw [clkmonOut_of_drives (d := d) (by rw [gateEnd_done_die, mine, one]; rfl)
    (fun e he => by rw [gateEnd_done_die, others e he]; exact if_pos one), gateEnd_done_die, mine]

end

/-! ### Registers of gated blocks (R50, R51) -/

theorem blockIdentity_low (b : Nat) : (blockIdentity b).setWidth 8 = 0x5A#8 := by
  unfold blockIdentity
  rw [BitVec.setWidth_append, dif_pos (Nat.le_refl 8), BitVec.setWidth_eq]

theorem Clk.block_gated {c : Clk} {b : Nat} (gated : c.enables.getLsbD b = false) (off : Nat) (v : BitVec 32) :
    c.blockRead b off = 0 ∧ c.blockWrite b off v = c := by
  unfold Clk.blockRead Clk.blockWrite
  rw [gated]
  exact ⟨rfl, if_pos (.inl rfl)⟩

theorem Clk.block_clocked {c : Clk} {b : Nat} (on : c.enables.getLsbD b = true) (off : Nat) (v : BitVec 32) :
    (c.blockRead b 0).setWidth 8 = 0x5A#8 ∧ c.blockRead b 0 ≠ 0 ∧
      (off ≠ 0 → (c.blockWrite b off v).blockRead b off = v ∧
        ∀ off', off' ≠ off → (c.blockWrite b off v).blockRead b off' = c.blockRead b off') := by
  have identity : c.blockRead b 0 = blockIdentity b := by
    unfold Clk.blockRead
    rw [on, if_neg (by decide), if_pos rfl]
  refine ⟨by rw [identity, blockIdentity_low], fun zero => ?_, fun named => ?_⟩
  · rw [identity] at zero
    have low := blockIdentity_low b
    rw [zero] at low
    exact absurd low (by decide)
  · have written : c.blockWrite b off v = { c with blockRegs := KV.put c.blockRegs (b, off) v } :=
      if_neg (by rw [on]; simp [named])
    rw [written]
    unfold Clk.blockRead
    dsimp only
    rw [on, if_neg (by decide), if_neg named]
    refine ⟨KV.getD_put .., fun off' other => ?_⟩
    rw [KV.getD_put_ne _ (fun same => other (Prod.mk.inj same).2)]

end Sys2Proof.Machine

namespace Sys2Proof
open Sys2Proof.Machine

/-- Settles O38: each write of a clock object is one change of its die's clocks or of all dies' drives, and a block's registers
are read and written only while its enable bit is set. -/
theorem clockWrites : Obligations.ClockWrites :=
  ⟨fun _ _ _ _ _ takes low named => does_preferredRefWrite takes low named,
   fun _ _ _ _ takes low => does_clockEnableWrite takes low,
   fun _ _ _ _ _ _ _ takes known low source divider => does_clkmonSelectWrite takes known low source divider,
   fun _ _ _ _ takes low => does_clkmonDriveWrite takes low,
   fun _ _ off v => ⟨fun gated => Clk.block_gated gated off v, fun on => Clk.block_clocked on off v⟩⟩

end Sys2Proof
end

section
/-! A thaw under an alert that holds the SRAM of its die in retention (20.1.2, R14). -/

namespace Sys2Proof
open Sys2Proof.Machine

/-- A frozen die whose SRAM the regulator alert holds in retention. -/
def alertedFrost : Die :=
  { (State.reset.die 0) with
    rails := { vio := true, vsram := true }
    op := { alertHalt := true }
    frost := { state := .frozen }
    svc := { state := .frost } }

/-- A running tray of such dies, master 1 in an Expert session. -/
def alertedFrostState : State :=
  { State.reset with
    tray := { State.reset.tray with fw := { State.reset.tray.fw with running := true } }
    dies := Vector.replicate 8 alertedFrost
    masters := Vector.replicate 4 { State.reset.master 0 with session := some ⟨false, 10 ^ 12, [], []⟩ } }

/-- Refutes O39: a thaw leaves the SRAM in retention while the alert holds it there (R14, R87). -/
theorem not_resetFrostAndPowerCommands : ¬ Obligations.ResetFrostAndPowerCommands := by
  unfold Obligations.ResetFrostAndPowerCommands
  rintro ⟨-, -, -, -, -, -, thaws, -⟩
  have takes : GateTakes 1 ⟨0x7000, 2, (0 : DieId).val⟩ (leBytes 1 1) alertedFrostState :=
    ⟨rfl, rfl, rfl, by decide +kernel, by decide +kernel⟩
  obtain ⟨t, held, frozen, -⟩ := (thaws alertedFrostState 1 0 1 takes (by decide +kernel) (by decide +kernel)).seen
    (test := fun t => (t.die 0).rails.retention) (by decide +kernel)
  obtain ⟨-, -, -, active, -⟩ := frozen (by decide +kernel) (by decide +kernel)
  rw [held] at active
  cases active

end Sys2Proof
end

section
/-! Delivery, staging and activation of an image (21.2). -/

namespace Sys2Proof
open Sys2Proof.Machine

namespace Machine

/-! ### Writes that change the firmware part of the tray -/

theorem gateEnd_modFw (m : MasterId) (k : ObjKey) (v : List Byte) (s : State) (f : Firmware → Firmware) :
    let t := gateEnd m k v (.done (s.atTick.modFw f) 0 true)
    t.tray.fw = f s.tray.fw ∧ t.tray.hold = s.tray.hold ∧ GateTray s t ∧ t.tray.now = s.atTick.tray.now := by
  dsimp only
  rw [gateEnd_done_fw, gateEnd_done_hold]
  refine ⟨rfl, rfl, ?_, ?_⟩ <;> rw [gateEnd_done]
  · rfl
  · rfl

theorem gateEnd_atTick (m : MasterId) (k : ObjKey) (v : List Byte) (s : State) :
    let t := gateEnd m k v (.done s.atTick 0 true)
    t.tray.fw = s.tray.fw ∧ t.tray.hold = s.tray.hold ∧ GateTray s t := by
  obtain ⟨fw, hold, gate, -⟩ := gateEnd_modFw m k v s id
  exact ⟨fw, hold, gate⟩

/-! ### The slots -/

section
variable (f : Firmware) (b : Bool) (x : SlotState)

theorem Firmware.setSlot_slot : (f.setSlot b x).slot b = x := by
  cases b <;> rfl

theorem Firmware.setSlot_other : (f.setSlot b x).slot (!b) = f.slot (!b) := by
  cases b <;> rfl

end

/-! ### Delivery (R574) -/

section
variable {s : State} {m : MasterId} {v : Nat}

theorem does_imageChunkNumberWrite (takes : GateTakes m ⟨0x1600, 1, 0xF⟩ (leBytes 2 v) s) (low : v < 65536) :
    Does (.imageChunkNumberWrite m v) s fun t =>
      (v = 0 → s.tray.fw.status ≠ 4 → s.tray.fw.rollBack = false →
        t.tray.fw = { s.tray.fw with chunkNo := 0, opening := true } ∧ t.tray.hold = s.tray.hold ∧ GateTray s t) ∧
      (v = s.tray.fw.chunkNo → v ≠ 0 ∨ s.tray.fw.status = 4 ∨ s.tray.fw.rollBack = true →
        t.tray.fw = s.tray.fw ∧ t.tray.hold = s.tray.hold ∧ GateTray s t) ∧
      (v ≠ s.tray.fw.chunkNo → v ≠ 0 → t = s.atTick) := by
  have value : leNat (leBytes 2 v) = v := by
    rw [leNat_leBytes]
    exact Nat.mod_eq_of_lt low
  have applies : s.atTick.chunkNoApply (leNat (leBytes 2 v)) =
      if v = 0 ∧ s.tray.fw.status ≠ 4 ∧ !s.tray.fw.rollBack then
        .done (s.atTick.modFw fun f => { f with chunkNo := 0, opening := true }) 0 true
      else if v = s.tray.fw.chunkNo then .done s.atTick 0 true
      else .refused rcOutOfRange 0 s.atTick := by
    rw [value]
    rfl
  refine does_gate takes rfl ?_
  rw [applies]
  split
  · next opens =>
    obtain ⟨zero, idle, ahead⟩ := opens
    obtain ⟨fw, hold, gate, -⟩ := gateEnd_modFw m ⟨0x1600, 1, 0xF⟩ (leBytes 2 v) s fun f => { f with chunkNo := 0, opening := true }
    refine ⟨fun _ _ _ => ⟨fw, hold, gate⟩, fun _ busy => ?_, fun _ some => absurd zero some⟩
    rcases busy with some | four | back
    · exact absurd zero some
    · exact absurd four idle
    · rw [back] at ahead
      cases ahead
  · next no =>
    split
    · next same =>
      obtain ⟨fw, hold, gate⟩ := gateEnd_atTick m ⟨0x1600, 1, 0xF⟩ (leBytes 2 v) s
      refine ⟨fun zero idle ahead => absurd ⟨zero, idle, by rw [ahead]; rfl⟩ no, fun _ _ => ⟨fw, hold, gate⟩, fun other => ?_⟩
      exact absurd same other
    · next other =>
      exact ⟨fun zero idle ahead => absurd ⟨zero, idle, by rw [ahead]; rfl⟩ no, fun same => absurd same other, fun _ _ => rfl⟩

/-- The firmware part after a chunk. -/
def Firmware.delivered (f : Firmware) (v : List Byte) : Firmware :=
  let f := if f.opening then { f.setSlot f.freeSlot .empty with opening := false, status := 1, chunks := [] } else f
  { f with chunks := KV.put f.chunks f.chunkNo v, chunkNo := f.chunkNo + 1 }

section
variable {f : Firmware} (v : List Byte)

theorem Firmware.delivered_open (opens : f.opening = true) : f.delivered v =
    { f.setSlot f.freeSlot .empty with
      opening := false, status := 1, chunks := KV.put [] f.chunkNo v, chunkNo := f.chunkNo + 1 } := by
  unfold Firmware.delivered Firmware.setSlot
  dsimp only
  rw [if_pos opens]
  split <;> rfl

theorem Firmware.delivered_next (opened : f.opening = false) : f.delivered v =
    { f with chunks := KV.put f.chunks f.chunkNo v, chunkNo := f.chunkNo + 1 } := by
  unfold Firmware.delivered
  dsimp only
  rw [if_neg (by rw [opened]; decide)]

theorem Firmware.delivered_chunk : (f.delivered v).chunkNo = f.chunkNo + 1 ∧ KV.get? (f.delivered v).chunks f.chunkNo = some v := by
  cases opened : f.opening
  · rw [Firmware.delivered_next v opened]
    exact ⟨rfl, KV.get?_put ..⟩
  · rw [Firmware.delivered_open v opened]
    exact ⟨rfl, KV.get?_put ..⟩

end

theorem does_imageChunk {v : List Byte} (takes : GateTakes m ⟨0x1600, 2, 0xF⟩ v s) : Does (.imageChunk m v) s fun t =>
    (s.tray.fw.status = 4 ∨ s.tray.fw.rollBack = true → t = s.atTick) ∧
    (s.tray.fw.status ≠ 4 → s.tray.fw.rollBack = false → s.tray.fw.chunkNo < 4096 →
      t.tray.fw.chunkNo = s.tray.fw.chunkNo + 1 ∧ KV.get? t.tray.fw.chunks s.tray.fw.chunkNo = some v ∧
      (s.tray.fw.opening = true → t.tray.fw.status = 1 ∧ t.tray.fw.slot s.tray.fw.freeSlot = .empty ∧
        t.tray.fw.opening = false ∧ ∀ i, i ≠ s.tray.fw.chunkNo → KV.get? t.tray.fw.chunks i = none) ∧
      (s.tray.fw.opening = false → t.tray.fw = { s.tray.fw with
        chunkNo := s.tray.fw.chunkNo + 1, chunks := t.tray.fw.chunks }) ∧
      t.tray.hold = s.tray.hold ∧ GateTray s t) := by
  have applies : s.atTick.chunkApply v = if s.tray.fw.status = 4 ∨ s.tray.fw.rollBack then .refused rcBusy 0 s.atTick
      else if 4096 ≤ s.tray.fw.chunkNo then .refused rcOutOfRange 0 s.atTick
      else .done (s.atTick.modFw fun f => f.delivered v) 0 true := rfl
  refine does_gate takes rfl ?_
  rw [applies]
  split
  · next busy =>
    refine ⟨fun _ => rfl, fun idle ahead => ?_⟩
    rcases busy with four | back
    · exact absurd four idle
    · rw [ahead] at back
      cases back
  · next idle =>
    split
    · next full => exact ⟨fun busy => absurd busy idle, fun _ _ room => absurd room (Nat.not_lt.mpr full)⟩
    · obtain ⟨fw, hold, gate, -⟩ := gateEnd_modFw m ⟨0x1600, 2, 0xF⟩ v s fun f => f.delivered v
      obtain ⟨number, chunk⟩ := Firmware.delivered_chunk (f := s.tray.fw) v
      refine ⟨fun busy => absurd busy idle, fun _ _ _ => ⟨by rw [fw, number], by rw [fw, chunk], fun opens => ?_, fun opened => ?_, hold,
        gate⟩⟩
      · rw [fw, Firmware.delivered_open v opens]
        refine ⟨rfl, Firmware.setSlot_slot .., rfl, fun i other => ?_⟩
        rw [KV.get?_put_ne _ other]
        rfl
      · rw [fw, Firmware.delivered_next v opened]

/-! ### Staging (R575) -/

theorem does_stageImage (takes : GateTakes m ⟨0x1600, 3, 0xF⟩ (leBytes 4 v) s) (low : v < 2 ^ 32)
    (idle : s.tray.fw.status ≠ 4) (ahead : s.tray.fw.rollBack = false) : Does (.stageImage m v) s fun t =>
      t.tray.fw = { s.tray.fw with stageLen := v, status := 2 } ∧ t.tray.hold = s.tray.hold ∧ GateTray s t := by
  have value : leNat (leBytes 4 v) = v := by
    rw [leNat_leBytes]
    exact Nat.mod_eq_of_lt low
  obtain ⟨fw, hold, gate, -⟩ := gateEnd_modFw m ⟨0x1600, 3, 0xF⟩ (leBytes 4 v) s fun f => { f with stageLen := v, status := 2 }
  refine does_gate_done takes rfl ?_ ⟨fw, hold, gate⟩
  rw [value]
  exact if_neg (not_or.2 ⟨idle, Bool.eq_false_iff.1 ahead⟩)

theorem does_stagingComplete {r : StageResult} (stages : s.tray.fw.status = 2) : Does (.stagingComplete r) s fun t =>
    (s.tray.fw.stageCode r = 0 → t.tray.fw.slot s.tray.fw.freeSlot = .staged ∧ t.tray.fw.status = 3 ∧
      t.tray.fw.otherRelease = r.release ∧ t.tray.fw.otherDigest = r.digest ∧ t.tray.fw.stagedFloor = r.floor) ∧
    (s.tray.fw.stageCode r ≠ 0 → t.tray.fw.slot s.tray.fw.freeSlot = .invalid ∧ t.tray.fw.status = 6 ∧
      t.tray.fw.result = s.tray.fw.stageCode r) ∧
    t.tray.fw.slot (!s.tray.fw.freeSlot) = s.tray.fw.slot (!s.tray.fw.freeSlot) ∧
    t = { s with tray := { s.tray with fw := t.tray.fw } } := by
  change ∃ t, execStagingComplete r s = .next t ∧ _
  unfold execStagingComplete
  dsimp only
  rw [if_neg (by rw [stages]; decide)]
  by_cases passes : s.tray.fw.stageCode r = 0
  · simp only [if_pos passes]
    refine ⟨_, rfl, fun _ => ⟨Firmware.setSlot_slot .., rfl, rfl, rfl, rfl⟩, fun fails => absurd passes fails, ?_, rfl⟩
    exact Firmware.setSlot_other ..
  · simp only [if_neg passes]
    refine ⟨_, rfl, fun none => absurd none passes, fun _ => ⟨Firmware.setSlot_slot .., rfl, rfl⟩, ?_, rfl⟩
    exact Firmware.setSlot_other ..

theorem Firmware.stageCode_passes {f : Firmware} {r : StageResult} (passes : f.stageCode r = 0) :
    (∀ i, i < ceilDiv f.stageLen 65536 → (KV.get? f.chunks i).isSome = true) ∧ r.headerOk = true ∧ r.sigOk = true ∧
    f.floor ≤ r.security ∧ r.oldest ≤ f.release := by
  unfold Firmware.stageCode at passes
  dsimp only at passes
  split at passes
  · cases passes
  · next whole =>
    split at passes
    · cases passes
    · next header =>
      split at passes
      · cases passes
      · next signed =>
        split at passes
        · cases passes
        · next secure =>
          split at passes
          · cases passes
          · next recent =>
            refine ⟨fun i low => ?_, ?_, by simpa using signed, Nat.not_lt.mp secure, Nat.not_lt.mp recent⟩
            · refine Classical.byContradiction fun lost => ?_
              exact whole (List.any_eq_true.mpr ⟨i, List.mem_range.mpr low, by simpa using lost⟩)
            · refine Classical.byContradiction fun bad => ?_
              exact header (.inl (by simpa using bad))

/-! ### Activation (R576, R577) -/

/-- The conditions under which an activation is refused. -/
theorem State.activateApply_eq (s : State) : s.activateApply =
    if s.tray.fw.slot s.tray.fw.freeSlot ≠ .staged ∨ !s.tray.fw.trayReady ∨ s.tray.fw.status = 4 ∨ s.tray.fw.rollBack ∨
        (List.finRange 8).any (fun d => (s.die d).svc.holding.isSome) then .refused rcBusy 0 s
    else .done (s.modFw fun f =>
      { f with status := 4, handAt := some (s.tray.now + 20000000), nextDie := none, confirmFrom := none }) 0 true := rfl

theorem does_activateStagedImage (takes : GateTakes m ⟨0x1600, 4, 0xF⟩ (leBytes 1 v) s)
    (staged : s.tray.fw.slot s.tray.fw.freeSlot = .staged) (ready : s.tray.fw.trayReady = true) (idle : s.tray.fw.status ≠ 4)
    (ahead : s.tray.fw.rollBack = false) (free : ∀ d, (s.die d).svc.holding = none) :
    Does (.activateStagedImage m v) s fun t =>
      t.tray.fw = { s.tray.fw with
        status := 4, handAt := some (t.tray.now + 20000000), nextDie := none, confirmFrom := none } ∧
      t.tray.hold = s.tray.hold ∧ GateTray s t := by
  obtain ⟨fw, hold, gate, now⟩ := gateEnd_modFw m ⟨0x1600, 4, 0xF⟩ (leBytes 1 v) s fun f =>
    { f with status := 4, handAt := some (s.atTick.tray.now + 20000000), nextDie := none, confirmFrom := none }
  have none : (List.finRange 8).any (fun d => (s.atTick.die d).svc.holding.isSome) = false := by
    rw [List.any_eq_false]
    intro d _
    change ¬ (s.die d).svc.holding.isSome = true
    rw [free]
    decide
  have same : s.atTick.tray.fw = s.tray.fw := rfl
  refine does_gate_done takes rfl ((State.activateApply_eq _).trans (if_neg ?_)) ⟨fw.trans (by rw [now]), hold, gate⟩
  rw [none, same]
  simp [staged, ready, idle, ahead]

theorem does_activateStagedImage_refused (takes : GateTakes m ⟨0x1600, 4, 0xF⟩ (leBytes 1 v) s)
    (bars : s.tray.fw.slot s.tray.fw.freeSlot ≠ .staged ∨ s.tray.fw.trayReady = false ∨ s.tray.fw.status = 4 ∨
      s.tray.fw.rollBack = true ∨ ∃ d, (s.die d).svc.holding.isSome = true) :
    Does (.activateStagedImage m v) s fun t => t = s.atTick := by
  refine does_gate takes rfl ?_
  rw [State.activateApply_eq, if_pos]
  · rfl
  · refine bars.imp_right (.imp (fun h => ?_) (.imp_right (.imp_right fun ⟨d, holds⟩ => ?_)))
    · change (!s.tray.fw.trayReady) = true
      rw [h]
      rfl
    · exact List.any_eq_true.mpr ⟨d, List.mem_finRange d, holds⟩

end

end Machine

open Machine in
/-- Settles O40: each write of the delivery is one change of the firmware part of the tray, or is refused and changes nothing. -/
theorem imageDelivery : Obligations.ImageDelivery :=
  ⟨fun _ _ _ takes low => does_imageChunkNumberWrite takes low,
   fun _ _ _ takes => does_imageChunk takes,
   fun _ _ _ takes low idle ahead => does_stageImage takes low idle ahead,
   fun _ _ stages => does_stagingComplete stages,
   fun _ _ passes => Firmware.stageCode_passes passes,
   fun _ _ _ takes staged ready idle ahead free => does_activateStagedImage takes staged ready idle ahead free,
   fun _ _ _ takes bars => does_activateStagedImage_refused takes bars⟩

end Sys2Proof
end

section
/-! LEGEND_WRITE, colliding writes and the persistent commit (14.3, 14.6, 14.7). -/

namespace Sys2Proof
open Sys2Proof.Machine

namespace Machine

/-! ### Answers leave the tray and the dies -/

/-- A request was answered: the tray and the dies stay. -/
structure Answered (s t : State) : Prop where
  tray : t.tray = s.tray
  dies : t.dies = s.dies

theorem Answered.trans {s t u : State} (h : Answered s t) (k : Answered t u) : Answered s u :=
  ⟨k.tray.trans h.tray, k.dies.trans h.dies⟩

theorem Answered.foldl {α : Type} {f : State → α → State} (hf : ∀ u x, Answered u (f u x)) (l : List α) (s : State) :
    Answered s (l.foldl f s) := by
  induction l generalizing s with
  | nil => exact ⟨rfl, rfl⟩
  | cons x xs ih => exact (hf s x).trans (ih _)

theorem State.lapSend_answered (s : State) (m : MasterId) (seq : Nat) (dst : Option Peer) (frame : List Byte) :
    Answered s (s.lapSend m seq dst frame) := by
  unfold State.lapSend
  split
  · split
    · exact ⟨rfl, rfl⟩
    · split
      · exact ⟨rfl, rfl⟩
      · next p _ _ =>
        have told := State.msix_tells ((s.emit (.lap m dst frame)).modPf p fun x =>
          { x with respBuf := frame, respLen := frame.length, mboxBusy := false, mboxReady := true }) (.pf p.val) 0
        exact ⟨by rw [told.rest]; rfl, told.dies⟩
  · exact ⟨rfl, rfl⟩

theorem State.respond_answered (s : State) (m : MasterId) (service seq : Nat) (k : ObjKey) (status detail : Nat)
    (extra : List Byte) : Answered s (s.respond m service seq k status detail extra) :=
  (s.lapSend_answered ..).trans ⟨rfl, rfl⟩

theorem State.answer_answered (s : State) (m : MasterId) (w : GateWrite) (status detail epoch : Nat) :
    Answered s (s.answer m w status detail epoch) := by
  unfold State.answer
  split
  · exact ⟨rfl, rfl⟩
  · exact s.respond_answered ..

/-! ### LEGEND_WRITE (R402) -/

theorem does_legendWrite {s : State} {m : MasterId} {w : GateOp} (takes : GateTakes m ⟨w.idx, w.sub, w.sel⟩ w.value s) :
    Does (.legendWrite m w []) s fun t => t = (gateEnd m ⟨w.idx, w.sub, w.sel⟩ w.value
      (s.atTick.applyWrite m ⟨w.idx, w.sub, w.sel⟩ w.value)).finishReset :=
  ⟨_, congrArg (fun t : State => Host.Outcome.next t.finishReset) (State.gate_takes takes _), rfl⟩

/-! ### Two writes of the hold time that meet (R396) -/

/-- The object of the hold time. -/
def holdTime : ObjKey := ⟨0x1400, 1, 0xF⟩

section
variable {s : State} {m n : MasterId} {v v2 : List Byte}

/-- A state in which the write of another master waits for the gate. -/
def State.withRival (s : State) (n : MasterId) (k : ObjKey) (v : List Byte) : State :=
  s.modMaster n fun x => { x with queue := [⟨k, v, none⟩] }

/-- A master with a write that waits for the gate, and no other. -/
def Master.asks (x : Master) (k : ObjKey) (v : List Byte) : Master := { x with queue := [⟨k, v, none⟩] }

theorem State.withRival_same (s : State) (n : MasterId) (k : ObjKey) (v : List Byte) :
    (s.withRival n k v).atTick.master n = (s.master n).asks k v := State.modMaster_master s n fun x => x.asks k v

theorem State.withRival_other (s : State) {n j : MasterId} (other : j ≠ n) (k : ObjKey) (v : List Byte) :
    (s.withRival n k v).atTick.master j = s.master j := State.modMaster_master_ne s n j (fun x => x.asks k v) other

theorem Master.dropped {x : Master} (idle : x.queue = []) : { x with queue := x.queue.drop 1 } = x := by
  rw [idle]
  exact congrArg (fun q => { x with queue := q }) idle.symm

theorem State.modMaster_modMaster (s : State) (m : MasterId) (f g : Master → Master) :
    (s.modMaster m f).modMaster m g = s.modMaster m fun x => g (f x) := by
  have first : (s.modMaster m f).masters.get m = f (s.masters.get m) := s.modMaster_master m f
  unfold State.modMaster at *
  rw [first]
  exact congrArg (fun v => { s with masters := v }) (Vector.set_set ..)

theorem State.withRival_popped (idle : ∀ j, (s.master j).queue = []) (other : m ≠ n) (k : ObjKey) (v : List Byte) :
    (((s.withRival n k v).atTick.popGate m).popGate n) = s.atTick := by
  have mine : (s.withRival n k v).atTick.popGate m = (s.withRival n k v).atTick := by
    refine State.modMaster_same _ _ _ ?_
    rw [State.withRival_other s other]
    exact Master.dropped (idle m)
  have back : (s.withRival n k v).popGate n = s := by
    refine (State.modMaster_modMaster ..).trans (State.modMaster_same _ _ _ ?_)
    exact congrArg (fun q => { s.master n with queue := q }) (idle n).symm
  rw [mine]
  exact congrArg State.atTick back

/-- Of the masters the one that a test names. -/
theorem filterMap_only {α : Type} (n : MasterId) (w : α) :
    (List.finRange 4).filterMap (fun j => if j = n then some w else none) = [w] := by
  match n with
  | 0 | 1 | 2 | 3 => rfl

theorem State.withRival_rivals (idle : ∀ j, (s.master j).queue = []) (other : m ≠ n) (k : ObjKey) (v : List Byte) :
    (s.withRival n k v).atTick.rivals m k = [(n, ⟨k, v, none⟩)] := by
  refine Eq.trans (congrArg (fun f => List.filterMap f (List.finRange 4)) (funext fun j => ?_)) (filterMap_only n _)
  by_cases here : j = n
  · subst here
    rw [if_neg other.symm, if_pos rfl, State.withRival_same]
    exact if_pos rfl
  · rw [State.withRival_other s here, idle j, if_neg here, ite_self]

/-- Both writes pass their checks: the one of the lower master number stands, and the other is a conflict. -/
theorem State.gateTick_meeting {u : State} (other : m ≠ n) (mine : u.writeCheck m holdTime v = none)
    (theirs : u.writeCheck n holdTime v2 = none) (apply : State → MasterId → List Byte → GateResult) :
    u.gateTick [(m, ⟨holdTime, v, none⟩), (n, ⟨holdTime, v2, none⟩)] apply =
      gateEnd (if m ≤ n then m else n) holdTime (if m ≤ n then v else v2) (apply (u.modTray fun y => { y with leg := { y.leg with
        conflicts := satAdd 32 y.leg.conflicts 1 } }) (if m ≤ n then m else n) (if m ≤ n then v else v2)) := by
  have plain : limitClass holdTime.idx holdTime.sub = none := by decide
  unfold State.gateTick
  by_cases first : m ≤ n
  · simp [mine, theirs, plain, first, other.symm, State.conflict, State.answer]
    generalize apply _ _ _ = r
    cases r <;> rfl
  · simp [mine, theirs, plain, first, other, State.conflict, State.answer]
    generalize apply _ _ _ = r
    cases r <;> rfl

/-- The gate takes the write of m and that of its rival in one tick. -/
theorem State.gate_meeting (takes : GateTakes m holdTime v s) (other : m ≠ n)
    (theirs : s.atTick.writeCheck n holdTime v2 = none) (apply : State → MasterId → List Byte → GateResult) :
    (s.withRival n holdTime v2).gate m holdTime v apply =
      gateEnd (if m ≤ n then m else n) holdTime (if m ≤ n then v else v2) (apply (s.atTick.modTray fun y => { y with
        leg := { y.leg with conflicts := satAdd 32 y.leg.conflicts 1 } }) (if m ≤ n then m else n) (if m ≤ n then v else v2)) := by
  obtain ⟨runs, answers, noHandoff, idle, valid⟩ := takes
  have queue : ((s.withRival n holdTime v2).master m).queue = [] :=
    (congrArg Master.queue (State.withRival_other s other holdTime v2)).trans (idle m)
  have fw : (s.withRival n holdTime v2).tray.fw = s.tray.fw := rfl
  unfold State.gate
  rw [fw, runs, answers, noHandoff, queue]
  change ((((s.withRival n holdTime v2).atTick.rivals m holdTime).foldl (fun s p => s.popGate p.1)
    ((s.withRival n holdTime v2).atTick.popGate m)).gateTick
      ((m, ⟨holdTime, v, none⟩) :: (s.withRival n holdTime v2).atTick.rivals m holdTime) apply) = _
  rw [State.withRival_rivals idle other, List.foldl_cons, List.foldl_nil, State.withRival_popped idle other]
  exact State.gateTick_meeting other valid theirs apply

theorem does_legendWrite_meeting (other : m ≠ n) (takes : GateTakes m ⟨0x1400, 1, 0xF⟩ v s)
    (theirs : s.atTick.writeCheck n ⟨0x1400, 1, 0xF⟩ v2 = none) (stays : s.tray.fw.resetDue = false)
    (fed : s.tray.hold.onHoldup = false) : Does (.legendWrite m ⟨0x1400, 1, 0xF, v⟩ [(n, v2)]) s fun t =>
      t.setting 0x1400 1 0xF = leNat (if m ≤ n then v else v2) ∧
      t.tray.leg.conflicts = satAdd 32 s.tray.leg.conflicts 1 ∧ t.dies = s.dies := by
  have queued : execLegendWrite m ⟨0x1400, 1, 0xF, v⟩ [(n, v2)] s = .next
      ((s.withRival n holdTime v2).gate m holdTime v fun s m w => s.applyWrite m holdTime w).finishReset := by
    unfold execLegendWrite
    dsimp only
    rw [List.foldl_cons, List.foldl_nil, if_pos]
    · rfl
    · refine ⟨other.symm, by rw [takes.idle n]; rfl, ?_⟩
      unfold State.gateOpen
      rw [takes.runs, takes.answers, takes.noHandoff]
      rfl
  rw [State.gate_meeting takes other theirs] at queued
  generalize (if m ≤ n then m else n) = win at queued
  generalize (if m ≤ n then v else v2) = value at queued ⊢
  generalize counted : (s.atTick.modTray fun y => { y with leg := { y.leg with
    conflicts := satAdd 32 y.leg.conflicts 1 } }) = u at queued
  have hold : u.tray.hold = s.tray.hold := by rw [← counted]; rfl
  have fw : u.tray.fw = s.tray.fw := by rw [← counted]; rfl
  have applies : u.applyWrite win holdTime value = .done (u.putSetting 0x1400 1 0xF (leNat value)) 0 true := by
    refine congrArg (fun x => GateResult.done x 0 true) (if_neg ?_)
    rintro ⟨runs, -⟩
    rw [show (u.putSetting 0x1400 1 0xF (leNat value)).tray.hold = s.tray.hold from hold, fed] at runs
    cases runs
  rw [applies] at queued
  have ends : (gateEnd win holdTime value (.done (u.putSetting 0x1400 1 0xF (leNat value)) 0 true)).finishReset =
      gateEnd win holdTime value (.done (u.putSetting 0x1400 1 0xF (leNat value)) 0 true) := by
    refine if_neg ?_
    rw [gateEnd_done_fw, show (u.putSetting 0x1400 1 0xF (leNat value)).tray.fw = s.tray.fw from fw, stays]
    decide
  refine ⟨_, queued.trans (congrArg _ ends), ?_, ?_, ?_⟩
  · rw [gateEnd_done_setting]
    exact State.setting_putSetting ..
  · rw [gateEnd_done, ← counted]
    rfl
  · rw [gateEnd_done_dies, ← counted]
    rfl

end

/-! ### The commit (R383, R384) -/

theorem does_persistentCommit {s : State} (runs : s.tray.fw.running = true) (answers : s.tray.fw.restarting = false) :
    Does (.persistentCommit true) s fun t =>
    t.tray.leg.nv = s.tray.leg.persistNow.nv ∧ (∀ a ∈ t.tray.leg.acks, a.effect = false) ∧
    t.tray.leg.settings = s.tray.leg.settings ∧ t.dies = s.dies := by
  change ∃ t, execPersistentCommit true s = .next t ∧ _
  unfold execPersistentCommit
  dsimp only
  rw [if_neg (by simp [runs, answers]), if_pos rfl]
  refine ⟨_, rfl, ?_⟩
  unfold State.commitNow State.sweepAcks
  extract_lets ready s1
  have answered : Answered s1 (ready.foldl (fun s a => s.answer a.master a.write rcOk 0 a.epoch) s1) :=
    .foldl (fun u a => u.answer_answered ..) ready s1
  refine ⟨by rw [answered.tray]; rfl, fun a mem => ?_, by rw [answered.tray]; rfl, answered.dies⟩
  rw [answered.tray] at mem
  obtain ⟨was, waits⟩ := List.mem_filter.mp mem
  obtain ⟨b, -, rfl⟩ := List.mem_map.mp was
  simpa using waits

theorem does_persistentCommit_failed {s : State} (runs : s.tray.fw.running = true) (answers : s.tray.fw.restarting = false) :
    Does (.persistentCommit false) s fun t =>
    t.tray.leg.nv = s.tray.leg.nv ∧ t.tray.leg.commitFailures = satAdd 32 s.tray.leg.commitFailures 1 ∧
    t.tray.leg.acks = s.tray.leg.acks.filter (fun a => !a.commit) ∧ Reported t s 0xF 0x1503 [] ∧ t.dies = s.dies := by
  change ∃ t, execPersistentCommit false s = .next t ∧ _
  unfold execPersistentCommit
  extract_lets s1 lost s2
  rw [if_neg (by simp [runs, answers]), if_neg Bool.false_ne_true]
  have answered : Answered s2 (lost.foldl (fun s a => s.answer a.master a.write rcStoreFailed 0 0) s2) :=
    .foldl (fun u a => u.answer_answered ..) lost s2
  have leg : s2.tray.leg = { s.tray.leg with
      commitFailures := satAdd 32 s.tray.leg.commitFailures 1, acks := s.tray.leg.acks.filter fun a => !a.commit } := by
    unfold s2 State.logTray
    rw [State.log_rest]
    rfl
  refine ⟨_, rfl, by rw [answered.tray, leg], by rw [answered.tray, leg], by rw [answered.tray, leg], fun idle => ?_, ?_⟩
  · rw [answered.tray]
    exact State.log_reported _ 0xF 0x1503 [] idle
  · rw [answered.dies]
    unfold s2 State.logTray
    rw [State.log_rest]
    rfl

end Machine

/-- Settles O41: LEGEND_WRITE goes through the gate, which takes the two writes that meet in one tick, and a commit answers
without touching what it stored. -/
theorem legendWritesAndCommit : Obligations.LegendWritesAndCommit :=
  ⟨fun _ _ _ takes => does_legendWrite takes,
   fun _ _ _ _ _ other takes theirs stays fed => does_legendWrite_meeting other takes theirs stays fed,
   fun _ runs answers => does_persistentCommit runs answers,
   fun _ runs answers => does_persistentCommit_failed runs answers⟩

end Sys2Proof
end

section
/-! Site password, unlock key, lockout, sessions and tenant map (14.4, 14.5, 16.2.1). -/

namespace Sys2Proof
open Sys2Proof.Machine

namespace Machine

section
variable {s : State} {m : MasterId} {v : List Byte}

/-! ### Password and key (R388, R393) -/

theorem does_sitePasswordWrite (takes : GateTakes m ⟨0x1100, 5, 0xF⟩ v s)
    (first : s.tray.leg.password = none → s.bySignature m = true) : Does (.sitePasswordWrite m v) s fun t =>
      (∃ salt : List Byte, salt.length = 16 ∧ t.tray.leg.password = some (salt, sha384 (salt ++ v))) ∧ t.dies = s.dies := by
  have taken : ¬ (s.atTick.tray.leg.password.isNone = true ∧ (!s.atTick.bySignature m) = true) := by
    rintro ⟨none, unsigned⟩
    have signed : s.atTick.bySignature m = true := first (Option.isNone_iff_eq_none.mp none)
    rw [signed] at unsigned
    cases unsigned
  refine does_gate_done takes rfl (if_neg taken) ⟨⟨(s.atTick.freeBytes 16).1, ?_, ?_⟩, ?_⟩
  · exact (List.length_map ..).trans List.length_range
  · rw [gateEnd_done_password]
    rfl
  · rw [gateEnd_done_dies]
    rfl

theorem does_sitePasswordWrite_refused (takes : GateTakes m ⟨0x1100, 5, 0xF⟩ v s) (none : s.tray.leg.password = none)
    (unsigned : s.bySignature m = false) : Does (.sitePasswordWrite m v) s fun t => t = s.atTick := by
  have refused : s.atTick.passwordApply m v = .refused rcLevelRequired 0 s.atTick := by
    refine if_pos ⟨Option.isNone_iff_eq_none.mpr none, ?_⟩
    rw [show s.atTick.bySignature m = false from unsigned]
    rfl
  refine does_gate takes rfl ?_
  rw [refused]
  rfl

theorem does_unlockKeyWrite (takes : GateTakes m ⟨0x1100, 7, 0xF⟩ v s)
    (replaces : s.tray.leg.unlockKey.isSome = true → s.bySignature m = true) : Does (.unlockKeyWrite m v) s fun t =>
      t.tray.leg.unlockKey = (if Config.isPoint v = true then some v else s.tray.leg.unlockKey) ∧ t.dies = s.dies := by
  have applies : s.atTick.keyApply m v = if !Config.isPoint v then .refused rcOutOfRange 0 s.atTick
      else .done (s.atTick.modTray fun y => { y with leg := { y.leg with unlockKey := some v } }) 0 true := by
    refine if_neg ?_
    rintro ⟨some, unsigned⟩
    have signed : s.atTick.bySignature m = true := replaces some
    rw [signed] at unsigned
    cases unsigned
  refine does_gate takes rfl ?_
  rw [applies]
  cases Config.isPoint v
  · exact ⟨rfl, rfl⟩
  · rw [if_neg (by decide), if_pos rfl, gateEnd_done_key, gateEnd_done_dies]
    exact ⟨rfl, rfl⟩

/-! ### Lockout and sessions (R387, R389, R394) -/

theorem does_lockoutEnd {e : Ns} (locked : s.tray.leg.lockoutEnd = some e) : Does .lockoutEnd s fun t =>
    t.tray.leg = { s.tray.leg with lockoutEnd := none, pwFailures := 0 } ∧ e ≤ t.accNow ∧ TrayOnly s t := by
  change ∃ t, execLockoutEnd s = .next t ∧ _
  unfold execLockoutEnd
  rw [locked]
  refine ⟨_, rfl, rfl, ?_, rfl⟩
  change e ≤ s.tray.accBase + (s.tray.now + (e - s.accNow))
  rw [← Nat.add_assoc]
  exact Nat.sub_le_iff_le_add'.mp (Nat.le_refl _)

/-- A session of master m ends: no other master and no die changes, and no session opens. -/
structure SessionEnds (m : MasterId) (s t : State) : Prop where
  dies : t.dies = s.dies
  now : t.tray.now = s.tray.now
  others : ∀ n, n ≠ m → t.master n = s.master n
  session : (t.master m).session = none ∨ (t.master m).session = (s.master m).session

theorem SessionEnds.trans {t u : State} (h : SessionEnds m s t) (k : SessionEnds m t u) : SessionEnds m s u := by
  refine ⟨k.dies.trans h.dies, k.now.trans h.now, fun n he => (k.others n he).trans (h.others n he), ?_⟩
  rcases k.session with none | same
  · exact .inl none
  · rw [same]
    exact h.session

theorem State.sendNotify_ends (s : State) (m : MasterId) (q : NotifySeg) : SessionEnds m s (s.sendNotify m q) := by
  refine ⟨rfl, rfl, fun n other => (State.modMaster_master_ne _ _ _ _ other).trans rfl, .inr ?_⟩
  unfold State.sendNotify
  rw [State.modMaster_master]
  rfl

theorem State.tapHold_ends (s : State) (m : MasterId) : SessionEnds m s s.tapHold := by
  unfold State.tapHold
  split
  · exact ⟨rfl, rfl, fun _ _ => rfl, .inr rfl⟩
  · exact ⟨rfl, rfl, fun _ _ => rfl, .inr rfl⟩

theorem State.endSession_ends (s : State) (m : MasterId) :
    SessionEnds m s (s.endSession m) ∧ ((s.endSession m).master m).session = none := by
  unfold State.endSession
  split
  · next shut => exact ⟨⟨rfl, rfl, fun _ _ => rfl, .inr rfl⟩, Option.isNone_iff_eq_none.mp shut⟩
  · extract_lets exp gone s1
    have closed : SessionEnds m s (s.modMaster m fun x => { x with session := none, subs := x.subs.filter fun q => !exp q }) :=
      ⟨rfl, rfl, fun n other => State.modMaster_master_ne _ _ _ _ other, .inl (by rw [State.modMaster_master])⟩
    have shut : ((s.modMaster m fun x => { x with session := none, subs := x.subs.filter fun q => !exp q }).master m).session =
        none := by rw [State.modMaster_master]
    have held : SessionEnds m (s.modMaster m fun x => { x with session := none, subs := x.subs.filter fun q => !exp q }) s1 :=
      State.tapHold_ends ..
    have told (l : List Subscription) (u : State) : SessionEnds m u (l.foldl (fun s q =>
        s.sendNotify m ⟨q.peer, q.no, q.key, rcLevelRequired, s.sampleTime q.key, 0, 0, []⟩) u) := by
      induction l generalizing u with
      | nil => exact ⟨rfl, rfl, fun _ _ => rfl, .inr rfl⟩
      | cons q l ih => exact (u.sendNotify_ends m _).trans (ih _)
    have after := held.trans (told gone s1)
    refine ⟨closed.trans after, ?_⟩
    rcases after.session with h | h
    · exact h
    · exact h.trans shut

theorem does_sessionExpire {e : Session} (opened : (s.master m).session = some e) : Does (.sessionExpire m) s fun t =>
    (t.master m).session = none ∧ e.ends ≤ t.tray.now ∧ t.dies = s.dies ∧ ∀ n, n ≠ m → t.master n = s.master n := by
  change ∃ t, execSessionExpire m s = .next t ∧ _
  unfold execSessionExpire
  rw [opened]
  obtain ⟨ends, none⟩ := (s.advanceTo e.ends).endSession_ends m
  refine ⟨_, rfl, none, ?_, ends.dies, ends.others⟩
  rw [ends.now]
  exact Nat.le_max_right ..

theorem does_endAllExpertSessions {v : Nat} (takes : GateTakes m ⟨0x1100, 0xC, 0xF⟩ (leBytes 1 v) s) :
    Does (.endAllExpertSessions m v) s fun t =>
      (∀ n : MasterId, n ≠ 0 → (t.master n).session = none) ∧ t.dies = s.dies := by
  obtain ⟨ends1, none1⟩ := s.atTick.endSession_ends 1
  obtain ⟨ends2, none2⟩ := (s.atTick.endSession 1).endSession_ends 2
  obtain ⟨ends3, none3⟩ := ((s.atTick.endSession 1).endSession 2).endSession_ends 3
  refine does_gate_done takes rfl rfl ⟨fun n user => ?_, ?_⟩
  · rw [gateEnd_done_master]
    change ((((s.atTick.endSession 1).endSession 2).endSession 3).master n).session = none
    match n with
    | 0 => exact absurd rfl user
    | 1 =>
      rw [ends3.others 1 (by decide), ends2.others 1 (by decide)]
      exact none1
    | 2 =>
      rw [ends3.others 2 (by decide)]
      exact none2
    | 3 => exact none3
  · rw [gateEnd_done_dies]
    exact ((ends3.dies.trans ends2.dies).trans ends1.dies).trans rfl

/-! ### The tenant map (R436) -/

theorem List.eraseDups_of_nodup {l : List Nat} (apart : l.Nodup) : l.eraseDups = l := by
  induction l with
  | nil => rfl
  | cons a l ih =>
    obtain ⟨new, rest⟩ := List.nodup_cons.mp apart
    have kept : l.filter (fun b => !b == a) = l := by
      refine List.filter_eq_self.mpr fun b mem => ?_
      have other : b ≠ a := fun same => new (same ▸ mem)
      simpa using other
    rw [List.eraseDups_cons, kept, ih rest]

theorem does_tenantMapWrite (takes : GateTakes m ⟨0x1000, 0x10, 0xF⟩ v s)
    (apart : (((chunksOf 2 v).map leNat).filter fun e => e != 0xFFFF).Nodup) : Does (.tenantMapWrite m v) s fun t =>
      t.setting 0x1000 0x10 0xF = leNat v ∧ GateOnly ⟨0x1000, 0x10, 0xF⟩ s t ∧ t.dies = s.dies := by
  have applies : s.atTick.mapApply v = s.atTick.plainWrite ⟨0x1000, 0x10, 0xF⟩ v := by
    refine if_neg fun twice => twice ?_
    rw [List.eraseDups_of_nodup apart]
  refine does_gate_done takes rfl applies ⟨?_, ?_, ?_⟩
  · rw [gateEnd_done_setting]
    exact State.setting_putSetting ..
  · exact ((s.atTick_gate _).trans (State.putSetting_gate ..)).trans (gateEnd_done_gate ..)
  · rw [gateEnd_done_dies]
    rfl

end

end Machine

/-- Settles O42: password and key are stored under the named conditions, and the end of a session closes it before it tells the
subscribers, which reopens none. -/
theorem passwordsAndSessions : Obligations.PasswordsAndSessions :=
  ⟨fun _ _ _ takes first => does_sitePasswordWrite takes first,
   fun _ _ _ takes none unsigned => does_sitePasswordWrite_refused takes none unsigned,
   fun _ _ _ takes replaces => does_unlockKeyWrite takes replaces,
   fun _ _ locked => does_lockoutEnd locked,
   fun _ _ _ opened => does_sessionExpire opened,
   fun _ _ _ takes => does_endAllExpertSessions takes,
   fun _ _ _ takes apart => does_tenantMapWrite takes apart⟩

end Sys2Proof
end

section
/-! A new request of the Legend Access Protocol, and what its service answers (15.2 to 15.4). -/

namespace Sys2Proof
open Sys2Proof.Machine

theorem NewRequest.onField {s : State} {m : MasterId} {f : List Byte} (new : NewRequest m f s) : m ≠ 3 := by
  rcases new.port with rfl | rfl <;> decide

theorem MasterSends.trans {s t u : State} {m : MasterId} (h : MasterSends m s t) (k : MasterSends m t u) :
    MasterSends m s u :=
  ⟨by rw [k.rest, h.rest], fun n other => (k.others n other).trans (h.others n other)⟩

theorem MasterSends.modMaster (s : State) (m : MasterId) (h : Master → Master) : MasterSends m s (s.modMaster m h) :=
  ⟨rfl, fun n other => State.modMaster_master_ne s m n h other⟩

namespace Machine

section
variable {s : State} {m : MasterId} {g : Datagram} {f : List Byte}

/-! ### A new request reaches its service (R408, R409, R411, R424) -/

theorem State.finishReset_none (shut : s.tray.fw.resetDue = false) : s.finishReset = s := by
  unfold State.finishReset
  rw [if_neg (by rw [shut]; decide)]

theorem State.lapRequest_new (new : NewRequest m f s) (dst : Option Peer) :
    s.lapRequest m dst f =
      ((s.modMaster m fun x => x.window s.tray.now).modMaster m fun x => x.accept (fSeq f) s.tray.now dst).lapService m f := by
  have fresh : ((s.modMaster m fun x => x.window s.tray.now).master m).classify (fSeq f) = .new := by
    rw [State.modMaster_master]
    exact new.new
  unfold State.lapRequest
  rw [new.answers, new.fits, new.tag, new.formed]
  dsimp only
  rw [fresh]
  rfl

theorem State.lapOf_new (carries : Carries g f) (new : NewRequest m f s) {ok : Nat → Bool} (named : ok (fService f) = true) :
    s.lapOf m g ok = (s.accepted m g).lapService m f := by
  obtain ⟨taken, rfl⟩ := carries
  have notNone : m ≠ 0 := by rcases new.port with rfl | rfl <;> decide
  unfold State.lapOf State.lapRow
  rw [if_pos ⟨named, .inr taken⟩, if_neg notNone, if_neg new.onField]
  exact State.lapRequest_new new _

/-! ### The service a request names (R425) -/

theorem State.lapService_read (service : fService f = 0x01) : s.lapService m f = s.lapRead m f := by
  unfold State.lapService
  rw [service]
  rfl

theorem State.lapService_write (service : fService f = 0x02) : s.lapService m f = s.lapWrite m f false (fBody f) := by
  unfold State.lapService
  rw [service]
  rfl

theorem State.lapService_readBlock (service : fService f = 0x03) : s.lapService m f = s.lapReadBlock m f := by
  unfold State.lapService
  rw [service]
  rfl

theorem State.lapService_writeBlock (service : fService f = 0x04) : s.lapService m f = s.lapWriteBlock m f := by
  unfold State.lapService
  rw [service]
  rfl

theorem State.lapService_command (service : fService f = 0x05) : s.lapService m f = s.lapWrite m f true (fBody f) := by
  unfold State.lapService
  rw [service]
  rfl

theorem State.lapService_subscribe (service : fService f = 0x06) : s.lapService m f = s.lapSubscribe m f := by
  unfold State.lapService
  rw [service]
  rfl

theorem State.lapService_spdm (service : fService f = 0x0B) : s.lapService m f = s.lapSpdm m f := by
  unfold State.lapService
  rw [service]
  rfl

/-! ### What an accepted request and its response change (R408, R411, R412) -/

theorem Master.window_keeps (x : Master) (now : Ns) :
    (x.window now).snapNo = x.snapNo ∧ (x.window now).peers = x.peers ∧
      (x.window now).subs = x.subs ∧ (x.window now).subNo = x.subNo := by
  unfold Master.window
  split <;> exact ⟨rfl, rfl, rfl, rfl⟩

theorem Master.accept_keeps (x : Master) (seq : Nat) (now : Ns) (p : Peer) :
    (x.accept seq now (some p)).snapNo = x.snapNo ∧ (x.accept seq now (some p)).peers = x.peers ++ [(seq, p)] ∧
      (x.accept seq now (some p)).subs = x.subs ∧ (x.accept seq now (some p)).subNo = x.subNo := by
  unfold Master.accept
  exact ⟨rfl, rfl, rfl, rfl⟩

theorem State.accepted_master (s : State) (m : MasterId) (g : Datagram) : (s.accepted m g).master m =
    ((s.master m).window s.tray.now).accept (fSeq g.frame) s.tray.now (some g.peer) := by
  unfold State.accepted
  rw [State.modMaster_master, State.modMaster_master]

theorem State.accepted_sends (s : State) (m : MasterId) (g : Datagram) : MasterSends m s (s.accepted m g) :=
  (MasterSends.modMaster ..).trans (.modMaster ..)

/-- The master after a response to the request `seq`. -/
def Master.responded (x : Master) (seq : Nat) (frame : List Byte) : Master :=
  { x with
    responses := ((seq, frame) :: x.responses.filter fun r => r.1 != seq).take 64
    peers := x.peers.eraseP fun p => p.1 == seq }

/-- On a field port a response is sent to the station that waits for it, and kept. -/
theorem State.respond_field (onField : m ≠ 3) (service seq : Nat) (k : ObjKey) (c det : Nat) (extra : List Byte) :
    ∃ frame, s.respond m service seq k c det extra =
      (s.emit (.lap m (s.peerOf m seq) frame)).modMaster m fun x => x.responded seq frame := by
  refine ⟨s.tagIt m fun tagged => lapFrame tagged m service seq k
    (leBytes 2 c ++ leBytes 2 det ++ (if c = rcOk then extra else [])), ?_⟩
  exact congrArg (fun u : State => u.keepResponse m seq _) (if_neg onField)

theorem State.respond_master (onField : m ≠ 3) (service seq : Nat) (k : ObjKey) (c det : Nat) (extra : List Byte) :
    ∃ frame, (s.respond m service seq k c det extra).master m = (s.master m).responded seq frame := by
  obtain ⟨frame, answer⟩ := State.respond_field (s := s) onField service seq k c det extra
  exact ⟨frame, by rw [answer, State.modMaster_master]; rfl⟩

theorem State.respond_sends (onField : m ≠ 3) (service seq : Nat) (k : ObjKey) (c det : Nat) (extra : List Byte) :
    MasterSends m s (s.respond m service seq k c det extra) := by
  obtain ⟨frame, answer⟩ := State.respond_field (s := s) onField service seq k c det extra
  rw [answer]
  exact ⟨rfl, fun n other => State.modMaster_master_ne _ m n _ other⟩

theorem State.respond_finishReset (shut : s.tray.fw.resetDue = false) (service seq : Nat) (k : ObjKey) (c det : Nat)
    (extra : List Byte) :
    (s.respond m service seq k c det extra).finishReset = s.respond m service seq k c det extra := by
  refine State.finishReset_none ?_
  rw [(State.respond_answered s m service seq k c det extra).tray]
  exact shut

/-- A request that its service only answers: the response goes out, and nothing but its master changes. -/
theorem State.lapOf_responds (carries : Carries g f) (new : NewRequest m f s) {ok : Nat → Bool}
    (named : ok (fService f) = true) {u : State} (sends : MasterSends m s u) {service seq : Nat} {k : ObjKey} {c det : Nat}
    {extra : List Byte} (answer : (s.accepted m g).lapService m f = u.respond m service seq k c det extra) :
    (s.lapOf m g ok).finishReset = u.respond m service seq k c det extra ∧
      MasterSends m s (u.respond m service seq k c det extra) := by
  have shut : u.tray.fw.resetDue = false := by rw [sends.rest]; exact new.noReset
  rw [State.lapOf_new carries new named, answer]
  exact ⟨State.respond_finishReset shut .., sends.trans (State.respond_sends new.onField ..)⟩

theorem State.respond_peer {p : Peer} (onField : m ≠ 3) {seq : Nat}
    (waits : ∃ old, (s.master m).peers = old ++ [(seq, p)] ∧ (old.find? fun q => q.1 == seq) = none)
    (service : Nat) (k : ObjKey) (c det : Nat) (extra : List Byte) :
    (∃ bytes, (s.respond m service seq k c det extra).outputs = .lap m (some p) bytes :: s.outputs) ∧
      (s.respond m service seq k c det extra).peerOf m seq = none := by
  obtain ⟨old, peers, none⟩ := waits
  obtain ⟨frame, answer⟩ := State.respond_field (s := s) onField service seq k c det extra
  have notOld : ∀ q ∈ old, ¬ (q.1 == seq) = true := List.find?_eq_none.mp none
  have station : s.peerOf m seq = some p := by
    unfold State.peerOf
    rw [peers, List.find?_append, none]
    simp
  rw [answer]
  constructor
  · exact ⟨frame, by rw [station]; rfl⟩
  · unfold State.peerOf
    rw [State.modMaster_master]
    change (((s.master m).peers.eraseP fun q => q.1 == seq).find? _).map _ = _
    rw [peers, List.eraseP_append_right _ notOld, List.eraseP_cons_of_pos (by simp), List.append_nil, none]
    rfl

end

/-! ### READ and READ_BLOCK (R414 to R416) -/

section
variable {s : State} {m : MasterId} {g : Datagram} {f v : List Byte} (carries : Carries g f) (new : NewRequest m f s)
include carries new

section
variable (service : fService f = 0x01)
include service

/-- READ answers at once. -/
theorem does_read_answer {c : Nat} {extra : List Byte}
    (answer : (s.accepted m g).lapRead m f = (s.accepted m g).respond m (fService f) (fSeq f) (fKey f) c 0 extra) :
    Does (.read m g) s fun t => t = (s.accepted m g).respond m 1 (fSeq f) (fKey f) c 0 extra ∧ MasterSends m s t := by
  have serves : (s.accepted m g).lapService m f = (s.accepted m g).respond m 1 (fSeq f) (fKey f) c 0 extra := by
    rw [State.lapService_read service, answer, service]
  obtain ⟨done, sends⟩ := State.lapOf_responds carries new (ok := fun c => c == 0x01) (by rw [service]; rfl)
    (State.accepted_sends ..) serves
  exact ⟨_, congrArg Host.Outcome.next done, rfl, sends⟩

theorem does_read (value : (s.accepted m g).readObj m (fKey f) = .ok v) (fits : v.length ≤ 1312) :
    Does (.read m g) s fun t => t = (s.accepted m g).respond m 1 (fSeq f) (fKey f) rcOk 0 v ∧ MasterSends m s t := by
  refine does_read_answer carries new service ?_
  unfold State.lapRead
  rw [value]
  exact if_neg (Nat.not_lt.mpr fits)

theorem does_read_useBlock (value : (s.accepted m g).readObj m (fKey f) = .ok v) (long : 1312 < v.length) :
    Does (.read m g) s fun t => t = (s.accepted m g).respond m 1 (fSeq f) (fKey f) rcUseBlock 0 [] ∧ MasterSends m s t := by
  refine does_read_answer carries new service ?_
  unfold State.lapRead
  rw [value]
  exact if_pos long

theorem does_read_error {c : Nat} (refused : (s.accepted m g).readObj m (fKey f) = .error c) :
    Does (.read m g) s fun t => t = (s.accepted m g).respond m 1 (fSeq f) (fKey f) c 0 [] ∧ MasterSends m s t := by
  refine does_read_answer carries new service ?_
  unfold State.lapRead
  rw [refused]
  rfl

theorem does_read_peer (value : (s.accepted m g).readObj m (fKey f) = .ok v) (fits : v.length ≤ 1312)
    (noOther : s.peerOf m (fSeq f) = none) : Does (.read m g) s fun t =>
      (∃ bytes, t.outputs = .lap m (some ⟨g.src, g.sport⟩) bytes :: s.outputs) ∧ t.peerOf m (fSeq f) = none := by
  have waits : ((s.accepted m g).master m).peers = (s.master m).peers ++ [(fSeq f, ⟨g.src, g.sport⟩)] := by
    rw [State.accepted_master, carries.frame, (Master.accept_keeps ..).2.1, (Master.window_keeps ..).2.1]
    rfl
  refine (does_read carries new service value fits).imp ?_
  rintro t ⟨rfl, -⟩
  exact State.respond_peer new.onField ⟨_, waits, Option.map_eq_none_iff.mp noOther⟩ ..

end

/-- The master whose snapshot of object k is v, the next one in number. -/
def Master.snaps (x : Master) (k : ObjKey) (v : List Byte) (no : Nat) (now : Ns) : Master :=
  { x with snapNo := no, snapshot := some (k, v, no, now) }

omit carries new in
theorem State.lapReadBlock_first (value : s.readObj m (fKey f) = .ok v) (start : fField f 16 4 = 0)
    (some_ : 0 < fField f 20 2) (most : fField f 20 2 ≤ 1024) (fits : fField f 20 2 ≤ v.length) {no : Nat}
    (number : ((s.master m).snapNo + 1) % 2 ^ 32 = no) : s.lapReadBlock m f =
      (s.modMaster m fun x => x.snaps (fKey f) v no s.tray.now).respond m (fService f) (fSeq f) (fKey f) rcOk 0
        (leBytes 4 no ++ leBytes 4 v.length ++ v.take (fField f 20 2)) := by
  unfold State.lapReadBlock
  rw [value, start]
  dsimp only
  rw [if_neg (by omega), if_pos rfl, if_neg (by omega), number]
  rfl

theorem does_readBlock (service : fService f = 0x03) (value : (s.accepted m g).readObj m (fKey f) = .ok v)
    (start : fField f 16 4 = 0) (some_ : 0 < fField f 20 2) (most : fField f 20 2 ≤ 1024) (fits : fField f 20 2 ≤ v.length) :
    Does (.readBlock m g) s fun t =>
      (t.master m).snapshot = some (fKey f, v, ((s.master m).snapNo + 1) % 2 ^ 32, s.tray.now) ∧
      t = ((s.accepted m g).modMaster m fun x => { x with
        snapNo := ((s.master m).snapNo + 1) % 2 ^ 32
        snapshot := some (fKey f, v, ((s.master m).snapNo + 1) % 2 ^ 32, s.tray.now) }).respond m 3 (fSeq f) (fKey f) rcOk 0
          (leBytes 4 (((s.master m).snapNo + 1) % 2 ^ 32) ++ leBytes 4 v.length ++ v.take (fField f 20 2)) ∧
      MasterSends m s t := by
  have last : ((s.accepted m g).master m).snapNo = (s.master m).snapNo := by
    rw [State.accepted_master, (Master.accept_keeps ..).1, (Master.window_keeps ..).1]
  have number : (((s.accepted m g).master m).snapNo + 1) % 2 ^ 32 = ((s.master m).snapNo + 1) % 2 ^ 32 := by rw [last]
  generalize ((s.master m).snapNo + 1) % 2 ^ 32 = no at number ⊢
  have serves : (s.accepted m g).lapService m f = ((s.accepted m g).modMaster m fun x =>
      x.snaps (fKey f) v no s.tray.now).respond m 3 (fSeq f) (fKey f) rcOk 0
        (leBytes 4 no ++ leBytes 4 v.length ++ v.take (fField f 20 2)) := by
    rw [State.lapService_readBlock service, State.lapReadBlock_first value start some_ most fits number, service]
    rfl
  obtain ⟨done, sends⟩ := State.lapOf_responds carries new (ok := fun c => c == 0x03) (by rw [service]; rfl)
    ((State.accepted_sends ..).trans (.modMaster ..)) serves
  refine ⟨_, congrArg Host.Outcome.next done, ?_, rfl, sends⟩
  obtain ⟨frame, kept⟩ := State.respond_master (s := (s.accepted m g).modMaster m _) new.onField 3 (fSeq f) (fKey f) rcOk 0 _
  rw [kept, State.modMaster_master]
  rfl

/-! ### WRITE_BLOCK, WRITE and COMMAND (R402, R403, R417) -/

theorem does_writeBlock (service : fService f = 0x04) (passes : (s.accepted m g).segmentCheck m (fKey f) = none)
    (most : fField f 16 4 ≤ 65536) (start : fField f 20 4 = 0) (full : ((fBody f).drop 8).length = 1024)
    (more : 1024 < fField f 16 4) : Does (.writeBlock m g) s fun t =>
      (t.master m).assembly = some (fKey f, fField f 16 4, (fBody f).drop 8, s.tray.now) ∧
      t = ((s.accepted m g).modMaster m fun x => { x with
        assembly := some (fKey f, fField f 16 4, (fBody f).drop 8, s.tray.now) }).respond m 4 (fSeq f) (fKey f) rcSegmentOk 0
          [] ∧ MasterSends m s t := by
  have serves : (s.accepted m g).lapService m f = ((s.accepted m g).modMaster m fun x => { x with
        assembly := some (fKey f, fField f 16 4, (fBody f).drop 8, s.tray.now) }).respond m 4 (fSeq f) (fKey f) rcSegmentOk 0
          [] := by
    rw [State.lapService_writeBlock service]
    unfold State.lapWriteBlock
    rw [passes]
    dsimp only
    rw [if_neg (by omega), if_pos start]
    dsimp only
    rw [start, full, if_neg (by omega), if_neg (by omega)]
    unfold State.lapRefuse State.lapReply
    rw [service]
    rfl
  obtain ⟨done, sends⟩ := State.lapOf_responds carries new (ok := fun c => c == 0x04) (by rw [service]; rfl)
    ((State.accepted_sends ..).trans (.modMaster ..)) serves
  refine ⟨_, congrArg Host.Outcome.next done, ?_, rfl, sends⟩
  obtain ⟨frame, kept⟩ := State.respond_master (s := (s.accepted m g).modMaster m _) new.onField 4 (fSeq f) (fKey f)
    rcSegmentOk 0 []
  rw [kept, State.modMaster_master]
  rfl

theorem does_write {o : Obj} (service : fService f = 0x02) (named : objOf (fKey f) = some o) (writes : o.access ≠ .cmd) :
    Does (.write m g) s fun t =>
      t = ((s.accepted m g).submit m ⟨fKey f, fBody f, some (fSeq f, 2)⟩).finishReset := by
  refine ⟨_, rfl, ?_⟩
  rw [State.lapOf_new carries new (by rw [service]; rfl)]
  rw [State.lapService_write service]
  unfold State.lapWrite
  rw [named, service]
  dsimp only
  rw [if_neg (by simp [writes])]

theorem does_write_command {o : Obj} (service : fService f = 0x02) (named : objOf (fKey f) = some o)
    (command : o.access = .cmd) : Does (.write m g) s fun t =>
      t = (s.accepted m g).respond m 2 (fSeq f) (fKey f) rcWrongService 0 [] ∧ MasterSends m s t := by
  have serves : (s.accepted m g).lapService m f = (s.accepted m g).respond m 2 (fSeq f) (fKey f) rcWrongService 0 [] := by
    rw [State.lapService_write service]
    unfold State.lapWrite
    rw [named]
    dsimp only
    rw [if_pos (by simp [command])]
    unfold State.lapRefuse State.lapReply
    rw [service]
  obtain ⟨done, sends⟩ := State.lapOf_responds carries new (ok := fun c => c == 0x02) (by rw [service]; rfl)
    (State.accepted_sends ..) serves
  exact ⟨_, congrArg Host.Outcome.next done, rfl, sends⟩

theorem does_command {o : Obj} (service : fService f = 0x05) (named : objOf (fKey f) = some o) (command : o.access = .cmd) :
    Does (.command m g) s fun t =>
      t = ((s.accepted m g).submit m ⟨fKey f, fBody f, some (fSeq f, 5)⟩).finishReset := by
  refine ⟨_, rfl, ?_⟩
  rw [State.lapOf_new carries new (by rw [service]; rfl)]
  rw [State.lapService_command service]
  unfold State.lapWrite
  rw [named, service]
  dsimp only
  rw [if_neg (by simp [command])]

/-! ### A service that no table lists, and a datagram that R408 does not let in (R408, R425) -/

theorem does_unknownService (unknown : knownService (fService f) = false) : Does (.unknownService m g) s fun t =>
    t = (s.accepted m g).respond m (fService f) (fSeq f) (fKey f) rcUnknownService 0 [] ∧ MasterSends m s t := by
  have serves : (s.accepted m g).lapService m f =
      (s.accepted m g).respond m (fService f) (fSeq f) (fKey f) rcUnknownService 0 [] := by
    unfold State.lapService
    split
    case h_11 => rfl
    all_goals
      next service =>
      rw [service] at unknown
      cases unknown
  obtain ⟨done, sends⟩ := State.lapOf_responds carries new (ok := fun c => !knownService c) (by rw [unknown]; rfl)
    (State.accepted_sends ..) serves
  exact ⟨_, congrArg Host.Outcome.next done, rfl, sends⟩

end

theorem does_unknownService_untaken {s : State} {m : MasterId} {g : Datagram} (onField : m ≠ 3) (kept : g.taken = false)
    (shut : s.tray.fw.resetDue = false) : Does (.unknownService m g) s fun t => t = s := by
  have stays : s.lapOf m g (fun c => !knownService c) = s :=
    if_neg fun h => h.2.elim onField fun taken => by rw [kept] at taken; cases taken
  refine ⟨_, rfl, ?_⟩
  rw [stays]
  exact State.finishReset_none shut

end Machine

/-- Settles O43: each service acts as its rule says on the state in which its request has been accepted, and on a field port a
response changes only its master and what was sent. -/
theorem lapServices : Obligations.LapServices := by
  unfold Obligations.LapServices
  exact ⟨fun _ _ _ _ _ carries new service value fits => does_read carries new service value fits,
    fun _ _ _ _ _ carries new service value fits noOther => does_read_peer carries new service value fits noOther,
    fun _ _ _ _ _ carries new service value long => does_read_useBlock carries new service value long,
    fun _ _ _ _ _ carries new service refused => does_read_error carries new service refused,
    fun _ _ _ _ _ carries new service value start some_ most fits =>
      does_readBlock carries new service value start some_ most fits,
    fun _ _ _ _ carries new service passes most start full more =>
      does_writeBlock carries new service passes most start full more,
    fun _ _ _ _ _ carries new service named writes => does_write carries new service named writes,
    fun _ _ _ _ _ carries new service named command => does_write_command carries new service named command,
    fun _ _ _ _ _ carries new service named command => does_command carries new service named command,
    fun _ _ _ _ carries new unknown => does_unknownService carries new unknown,
    fun _ _ _ onField kept shut => does_unknownService_untaken onField kept shut⟩

end Sys2Proof
end

section
/-! LOCK while the observation connector holds an instruction (14.5, 15.5, R27). -/

namespace Sys2Proof
open Sys2Proof.Machine

/-- The header of a tagged LOCK of master 1, without body. -/
def lockHeader : List Byte := [1#8, 2#8, 1#8, 0x0A#8] ++ List.replicate 12 0#8

/-- A link-local datagram that carries the tagged LOCK. -/
def lockDatagram : Datagram :=
  ⟨0x3FA * 2 ^ 118 + 1, 50000, 255, 48710, true, false, false, lockHeader ++ lapTag [] lockHeader⟩

/-- A running tray whose only Expert session, that of master 1, has put the connector to EXTEST. -/
def observedState : State :=
  { State.reset with
    tray := { State.reset.tray with
      fw := { State.reset.tray.fw with running := true }
      pow := { State.reset.tray.pow with tap := .extest } }
    masters := (Vector.replicate 4 {}).set 1 { session := some ⟨false, 10 ^ 12, [], []⟩ } }

theorem lockDatagram_new : NewRequest 1 lockDatagram.frame observedState :=
  ⟨.inl rfl, rfl, rfl, by decide +kernel, by decide +kernel, by decide +kernel, by decide +kernel⟩

/-- Refutes O44: the LOCK that ends the last session takes the instruction of the observation connector with it, so the tray
does not stay as it was (R27). -/
theorem not_expertSessions : ¬ Obligations.ExpertSessions := by
  unfold Obligations.ExpertSessions
  rintro ⟨-, -, -, -, locks⟩
  obtain ⟨t, bypass, -, -, stays, -⟩ := (locks observedState 1 lockDatagram lockDatagram.frame ⟨by decide +kernel, rfl⟩
    lockDatagram_new (by decide +kernel)).seen (test := fun t => t.tray.pow.tap == .bypass) (by decide +kernel)
  rw [stays] at bypass
  exact absurd bypass (by decide)

end Sys2Proof
end

section
/-! What ends by time or by the line on a field port, and subscriptions (15.1, 15.3, 15.4). -/

namespace Sys2Proof
open Sys2Proof.Machine

theorem MasterOnly.modMaster (s : State) (m : MasterId) (h : Master → Master) : MasterOnly m s (s.modMaster m h) :=
  ⟨rfl, fun n other => State.modMaster_master_ne s m n h other⟩

namespace Machine

section
variable {s : State} {m : MasterId}

/-! ### Windows, assemblies, the line and addresses (R406, R407, R413, R417) -/

theorem does_sequenceWindowClear (opened : (s.master m).high.isSome = true) : Does (.sequenceWindowClear m) s fun t =>
    t.master m = { s.master m with high := none, seen := [], responses := [] } ∧
    (s.master m).lastReq + 10000000000 ≤ t.tray.now ∧ t.dies = s.dies ∧ ∀ n, n ≠ m → t.master n = s.master n := by
  have isOpen : ¬ (s.master m).high.isNone = true := by
    rw [Option.isNone_iff_eq_none]
    exact Option.isSome_iff_ne_none.mp opened
  change ∃ t, execSequenceWindowClear m s = .next t ∧ _
  unfold execSequenceWindowClear
  rw [if_neg isOpen]
  have elapsed : (s.master m).lastReq + 10000000000 ≤ (s.advanceTo ((s.master m).lastReq + 10000000000)).tray.now :=
    Nat.le_max_right ..
  refine ⟨_, rfl, ?_, elapsed, rfl, fun n other => State.modMaster_master_ne _ m n _ other⟩
  rw [State.modMaster_master]
  exact if_pos elapsed

theorem does_assemblyTimeout {a : ObjKey × Nat × List Byte × Ns} (begun : (s.master m).assembly = some a) :
    Does (.assemblyTimeout m) s fun t => t.master m = { s.master m with assembly := none } ∧
      a.2.2.2 + 1000000000 ≤ t.tray.now ∧ t.dies = s.dies ∧ ∀ n, n ≠ m → t.master n = s.master n := by
  change ∃ t, execAssemblyTimeout m s = .next t ∧ _
  unfold execAssemblyTimeout
  rw [begun]
  refine ⟨_, rfl, State.modMaster_master .., Nat.le_max_right .., rfl, fun n other => State.modMaster_master_ne _ m n _ other⟩

theorem does_neighbourSolicitation {p : Bool} {src : Nat} (answers : s.trayAnswers = true) (known : src ≠ 0) :
    Does (.neighbourSolicitation p (s.portAddr p) src) s fun t =>
      ∃ bytes, t = s.emit (.field p (s.portAddr p) src bytes) := by
  change ∃ t, execNeighbourSolicitation p (s.portAddr p) src s = .next t ∧ _
  unfold execNeighbourSolicitation
  dsimp only
  rw [if_neg (by simp [answers]), if_neg known]
  exact ⟨_, rfl, _, rfl⟩

theorem does_icmpEcho {p : Bool} {src : Nat} {body : List Byte} (answers : s.trayAnswers = true) :
    Does (.icmpEcho p (s.portAddr p) src body) s fun t =>
      t = s.emit (.field p (s.portAddr p) src (icmp (s.portAddr p) src 129 body)) := by
  change ∃ t, execIcmpEcho p (s.portAddr p) src body s = .next t ∧ _
  unfold execIcmpEcho
  dsimp only
  rw [if_neg (by simp [answers])]
  exact ⟨_, rfl, rfl⟩

/-! ### What is sent leaves the subscriptions of a master -/

/-- Nothing changed but master m and what was sent, and its subscriptions stay. -/
structure SubsStay (m : MasterId) (s t : State) : Prop where
  sends : MasterSends m s t
  subs : (t.master m).subs = (s.master m).subs
  subNo : (t.master m).subNo = (s.master m).subNo

theorem SubsStay.refl (s : State) (m : MasterId) : SubsStay m s s := ⟨⟨rfl, fun _ _ => rfl⟩, rfl, rfl⟩

theorem SubsStay.trans {t u : State} (h : SubsStay m s t) (k : SubsStay m t u) : SubsStay m s u :=
  ⟨h.sends.trans k.sends, k.subs.trans h.subs, k.subNo.trans h.subNo⟩

theorem SubsStay.modMaster (s : State) (m : MasterId) {h : Master → Master} (subs : ∀ x, (h x).subs = x.subs)
    (subNo : ∀ x, (h x).subNo = x.subNo) : SubsStay m s (s.modMaster m h) :=
  ⟨.modMaster .., by rw [State.modMaster_master, subs], by rw [State.modMaster_master, subNo]⟩

theorem State.emit_subs (s : State) (m : MasterId) (o : Output) : SubsStay m s (s.emit o) :=
  ⟨⟨rfl, fun _ _ => rfl⟩, rfl, rfl⟩

theorem State.sendNotify_subs (s : State) (m : MasterId) (q : NotifySeg) : SubsStay m s (s.sendNotify m q) := by
  unfold State.sendNotify
  exact (s.emit_subs m _).trans (.modMaster _ m (fun _ => rfl) fun _ => rfl)

theorem State.sendSegs_subs (s : State) (m : MasterId) (l : List NotifySeg) : SubsStay m s (s.sendSegs m l) := by
  unfold State.sendSegs
  induction l generalizing s with
  | nil => exact .refl s m
  | cons q l ih =>
    refine .trans ?_ (ih _)
    dsimp only
    split
    · exact s.sendNotify_subs m q
    · exact .modMaster s m (fun _ => rfl) fun _ => rfl

theorem State.flushSegs_subs (s : State) (m : MasterId) : SubsStay m s (s.flushSegs m) := by
  refine ((SubsStay.modMaster s m ?_ ?_).trans (.modMaster _ m ?_ ?_)).trans (State.sendSegs_subs ..) <;> exact fun _ => rfl

theorem State.respond_subs (s : State) (onField : m ≠ 3) (service seq : Nat) (k : ObjKey) (c det : Nat) (extra : List Byte) :
    SubsStay m s (s.respond m service seq k c det extra) := by
  obtain ⟨frame, answer⟩ := State.respond_field (s := s) onField service seq k c det extra
  rw [answer]
  exact (s.emit_subs m _).trans (.modMaster _ m (fun _ => rfl) fun _ => rfl)

/-! ### SUBSCRIBE (R418) -/

/-- A master with a new subscription q to object k. -/
def Master.subscribed (x : Master) (k : ObjKey) (q : Subscription) : Master :=
  { x with subs := (x.subs.filter fun q => q.key != k) ++ [q], subNo := q.no }

/-- A new periodic subscription, while none to its object lives: it is added, the request answered, and what waits is sent. -/
theorem State.lapSubscribe_new {f : List Byte} {o : Obj} (onField : m ≠ 3) (periodic : fByte f 16 = 1)
    (named : objOf (fKey f) = some o) (readable : o.access = .ro ∨ o.access = .rw) (base : o.expert = false)
    (positive : 0 < fField f 20 4) (most : fField f 20 4 ≤ 10000) {u : State}
    (live : u = s.modMaster m fun x => x.liveSubs s.tray.now)
    (first : ((u.master m).subs.find? fun q => q.key == fKey f) = none) (room : (u.master m).subs.length < 64) :
    ∃ extra, s.lapSubscribe m f = ((u.modMaster m fun x => x.subscribed (fKey f)
      { no := (u.master m).subNo % 65535 + 1, key := fKey f, period := fField f 20 4, since := s.tray.now
        renewed := s.tray.now, peer := u.peerOf m (fSeq f) }).respond m (fService f) (fSeq f) (fKey f) rcOk 0 extra).flushSegs
          m := by
  have notHidden : ¬ (o.access = .wo ∨ o.access = .cmd) := by rcases readable with h | h <;> simp [h]
  have inRange : ¬ (2 < 1 ∨ (1 = 1 ∧ (fField f 20 4 = 0 ∨ 10000 < fField f 20 4)) ∨ (1 = 2 ∧ fField f 20 4 ≠ 0) ∨
      (1 = 1 ∧ o.access = .stream)) := by
    rcases readable with h | h <;> simp [h] <;> omega
  refine ⟨leBytes 2 ((u.master m).subNo % 65535 + 1) ++ [0#8, 0#8], ?_⟩
  unfold State.lapSubscribe
  rw [periodic, ← live]
  dsimp only
  rw [if_neg onField, if_neg (by decide), named]
  dsimp only
  rw [if_neg notHidden, if_neg (by simp [base]), if_neg inRange, first, if_neg (by omega), if_pos rfl]
  subst live
  rfl

theorem does_subscribe {g : Datagram} {f : List Byte} {o : Obj} (carries : Carries g f) (new : NewRequest m f s)
    (service : fService f = 0x06) (periodic : fByte f 16 = 1) (named : objOf (fKey f) = some o)
    (readable : o.access = .ro ∨ o.access = .rw) (base : o.expert = false) (positive : 0 < fField f 20 4)
    (most : fField f 20 4 ≤ 10000) (first : ((s.master m).subs.find? fun q => q.key == fKey f) = none)
    (room : (s.master m).subs.length < 64) : Does (.subscribe m g) s fun t =>
      (∃ q ∈ (t.master m).subs, q.key = fKey f ∧ q.no = (s.master m).subNo % 65535 + 1 ∧ q.period = fField f 20 4 ∧
        q.since = s.tray.now ∧ q.renewed = s.tray.now) ∧ (t.master m).subNo = (s.master m).subNo % 65535 + 1 ∧
      t.dies = s.dies ∧ ∀ n, n ≠ m → t.master n = s.master n := by
  have subs : ((s.accepted m g).master m).subs = (s.master m).subs := by
    rw [State.accepted_master, (Master.accept_keeps ..).2.2.1, (Master.window_keeps ..).2.2.1]
  have subNo : ((s.accepted m g).master m).subNo = (s.master m).subNo := by
    rw [State.accepted_master, (Master.accept_keeps ..).2.2.2, (Master.window_keeps ..).2.2.2]
  obtain ⟨u, live⟩ : ∃ u, u = (s.accepted m g).modMaster m fun x => x.liveSubs (s.accepted m g).tray.now := ⟨_, rfl⟩
  have kept : (u.master m).subs = (s.master m).subs.filter fun q => decide (s.tray.now < q.renewed + 60000000000) := by
    rw [live, State.modMaster_master, ← subs]
    rfl
  have number : (u.master m).subNo = (s.master m).subNo := by
    rw [live, State.modMaster_master, ← subNo]
    rfl
  have firstLive : ((u.master m).subs.find? fun q => q.key == fKey f) = none := by
    rw [kept, List.find?_eq_none]
    exact fun q lives => List.find?_eq_none.mp first q (List.mem_filter.mp lives).1
  have roomLeft : (u.master m).subs.length < 64 := by
    rw [kept]
    exact Nat.lt_of_le_of_lt (List.length_filter_le ..) room
  have sends : MasterSends m s u := (State.accepted_sends s m g).trans (live ▸ .modMaster ..)
  obtain ⟨extra, answer⟩ := State.lapSubscribe_new (s := s.accepted m g) new.onField periodic named readable base positive
    most live firstLive roomLeft
  obtain ⟨q, made⟩ : ∃ q : Subscription, q = { no := (u.master m).subNo % 65535 + 1, key := fKey f, period := fField f 20 4
                                               since := s.tray.now, renewed := s.tray.now, peer := u.peerOf m (fSeq f) } :=
    ⟨_, rfl⟩
  have stays := (State.respond_subs (u.modMaster m fun x => x.subscribed (fKey f) q) new.onField (fService f) (fSeq f)
    (fKey f) rcOk 0 extra).trans (State.flushSegs_subs _ m)
  have ends : (s.lapOf m g fun c => c == 0x06).finishReset = (((u.modMaster m fun x => x.subscribed (fKey f) q).respond m
      (fService f) (fSeq f) (fKey f) rcOk 0 extra).flushSegs m) := by
    have done : s.lapOf m g (fun c => c == 0x06) = (((u.modMaster m fun x => x.subscribed (fKey f) q).respond m
        (fService f) (fSeq f) (fKey f) rcOk 0 extra).flushSegs m) := by
      rw [State.lapOf_new carries new (by rw [service]; rfl), State.lapService_subscribe service, answer, made]
      rfl
    rw [done]
    refine State.finishReset_none ?_
    rw [stays.sends.rest, show (u.modMaster m fun x => x.subscribed (fKey f) q).tray = u.tray from rfl, sends.rest]
    exact new.noReset
  have all := sends.trans ((MasterSends.modMaster u m fun x => x.subscribed (fKey f) q).trans stays.sends)
  refine ⟨_, congrArg Host.Outcome.next ends, ⟨q, ?_, ?_⟩, ?_, ?_, all.others⟩
  · rw [stays.subs, State.modMaster_master]
    exact List.mem_append_right _ (List.mem_singleton_self q)
  · rw [made, number]
    exact ⟨rfl, rfl, rfl, rfl, rfl⟩
  · rw [stays.subNo, State.modMaster_master, ← number, made]
    rfl
  · rw [all.rest]

/-! ### The end of a subscription and its notifications (R419 to R421) -/

section
variable {no : Nat} {q : Subscription} (known : s.sub? m no = some q)
include known

theorem does_subscriptionExpire : Does (.subscriptionExpire m no) s fun t =>
    q ∉ (t.master m).subs ∧ q.renewed + 60000000000 ≤ t.tray.now ∧ t.dies = s.dies ∧
      ∀ n, n ≠ m → t.master n = s.master n := by
  change ∃ t, execSubscriptionExpire m no s = .next t ∧ _
  unfold execSubscriptionExpire
  rw [known]
  have elapsed : q.renewed + 60000000000 ≤ (s.advanceTo (q.renewed + 60000000000)).tray.now := Nat.le_max_right ..
  refine ⟨_, rfl, ?_, elapsed, rfl, fun n other => State.modMaster_master_ne _ m n _ other⟩
  rw [State.modMaster_master]
  intro lives
  exact absurd (of_decide_eq_true (List.mem_filter.mp lives).2) (Nat.not_lt.mpr elapsed)

theorem does_notifyPeriodic {due : Nat} {u : State} {segs : List NotifySeg} (periodic : q.period ≠ 0)
    (answers : s.trayAnswers = true)
    (dueNext : due = q.since + 1000000 * q.period * max 1 (ceilDiv (s.tray.now - q.since) (1000000 * q.period)))
    (lives : due < q.renewed + 60000000000)
    (after : u = ((s.advanceTo due).modSub m no fun q => { q with since := due }).flushSegs m)
    (cut : segs = segmentsOf q (u.sample m q.key).1 (u.sampleTime q.key) (u.sample m q.key).2) :
    Does (.notifyPeriodic m no) s fun t =>
      ((u.master m).unsent = [] → (segs.map fun g => u.notifyBits m g.data.length).sum ≤ (u.master m).allowance →
        t = u.sendSegs m segs) ∧
      ((u.master m).unsent ≠ [] ∨ (u.master m).allowance < (segs.map fun g => u.notifyBits m g.data.length).sum →
        t = { u with tray := { u.tray with leg := { u.tray.leg with
          notifSkipped := satAdd 32 u.tray.leg.notifSkipped 1 } } }) := by
  change ∃ t, execNotifyPeriodic m no s = .next t ∧ _
  unfold execNotifyPeriodic
  rw [known]
  dsimp only
  rw [if_neg (by simp [periodic, answers]), ← dueNext, if_neg (Nat.not_le.mpr lives), ← after, ← cut]
  split
  · next skips =>
    refine ⟨_, rfl, fun idle covers => absurd skips ?_, fun _ => rfl⟩
    simp [idle, covers]
  · next sends =>
    refine ⟨_, rfl, fun _ _ => rfl, fun skips => absurd skips ?_⟩
    simpa using sends

section
variable (onChange : q.period = 0) (answers : s.trayAnswers = true) (lives : s.tray.now < q.renewed + 60000000000)
  (single : q.key.stream = false)
include onChange answers lives single

theorem does_notifyOnChange_same (same : q.last = some (leBytes 2 (s.sample m q.key).1 ++ (s.sample m q.key).2)) :
    Does (.notifyOnChange m no) s fun t => t = s.flushSegs m := by
  change ∃ t, execNotifyOnChange m no s = .next t ∧ _
  unfold execNotifyOnChange
  rw [known]
  dsimp only
  rw [if_neg (by simp [onChange, answers, lives]), if_neg (by simp [single]), if_pos same]
  exact ⟨_, rfl, rfl⟩

theorem does_notifyOnChange_first (first : q.last = none) :
    Does (.notifyOnChange m no) s fun t => t = (s.flushSegs m).notifyChange m no := by
  change ∃ t, execNotifyOnChange m no s = .next t ∧ _
  unfold execNotifyOnChange
  rw [known]
  dsimp only
  rw [if_neg (by simp [onChange, answers, lives]), if_neg (by simp [single]), if_neg (by simp [first]),
    if_neg (by simp [first])]
  exact ⟨_, rfl, rfl⟩

end

end

end

end Machine

/-- Settles O45: a SUBSCRIBE adds one subscription under the next number, and each notification command does what its rule says
of the subscription that it finds. -/
theorem subscriptions : Obligations.Subscriptions := by
  unfold Obligations.Subscriptions
  exact ⟨fun _ _ _ _ _ carries new service periodic named readable base positive most first room =>
      does_subscribe carries new service periodic named readable base positive most first room,
    fun _ _ _ _ known => does_subscriptionExpire known,
    fun _ _ _ _ _ _ _ known periodic answers dueNext lives after cut =>
      does_notifyPeriodic known periodic answers dueNext lives after cut,
    fun _ _ _ _ known onChange answers lives single same =>
      does_notifyOnChange_same known onChange answers lives single same,
    fun _ _ _ _ known onChange answers lives single first =>
      does_notifyOnChange_first known onChange answers lives single first⟩

/-- Settles O46: each end clears its own part of the port's master, and only what is meant for the port's address is answered. -/
theorem fieldPorts : Obligations.FieldPorts := by
  unfold Obligations.FieldPorts
  exact ⟨fun _ _ opened => does_sequenceWindowClear opened, fun _ _ _ begun => does_assemblyTimeout begun,
    fun s p => ⟨_, rfl, State.modMaster_master .., .modMaster s (if p then 2 else 1) _⟩,
    fun s p => ⟨_, rfl, State.modMaster_master .., .modMaster s (if p then 2 else 1) _⟩,
    fun _ _ _ _ other => ⟨_, if_pos (.inl other), rfl⟩,
    fun _ _ _ answers known => does_neighbourSolicitation answers known, fun _ _ _ _ answers => does_icmpEcho answers⟩

end Sys2Proof
end

section
/-! The SPDM responder over DOE and LAP (17.8, 19.6). -/

namespace Sys2Proof
open Sys2Proof.Machine

theorem PfOnly.modPf (s : State) (p : Fin 2) (h : PF → PF) : PfOnly p s (s.modPf p h) :=
  ⟨rfl, fun q other => State.modPf_pf_ne s p q h other⟩

namespace Machine

/-! ### A request reaches its responder (R461, R462, R534) -/

theorem State.doeSpdm_takes {s : State} {f : Fn} {msg : List Byte} (takes : DoeTakes f s) (fits : msg.length ≤ 8184) :
    s.doeSpdm f msg = (s.spdmRun (.doe f) msg).1.emit (.doe f (doeObject 1 (s.spdmRun (.doe f) msg).2)) := by
  obtain ⟨lives, answers, clear⟩ := takes
  unfold State.doeSpdm
  rw [lives, answers]
  cases f with
  | pf p =>
    dsimp only
    rw [if_neg (by simpa using clear), if_neg (by omega)]
  | vf p n =>
    obtain ⟨v, found, fine⟩ := clear
    dsimp only
    rw [if_neg (by simp [found, fine]), if_neg (by omega)]

/-- The row of a message hands it to the responder of its capability or master. -/
theorem spdmRequests_of {c : SpdmMsg → Instr} {ok : Nat → Bool} (row : ∀ q s, Machine.exec (c q) s = .next (s.spdmRow q ok)) :
    SpdmRequests c ok := by
  refine ⟨fun s f msg takes fits named => ⟨_, row .., ?_⟩, fun s m g f carries new service named => ⟨_, row .., ?_⟩⟩
  · unfold State.spdmRow
    dsimp only
    rw [if_pos named, State.doeSpdm_takes takes fits]
  · unfold State.spdmRow
    dsimp only
    rw [carries.frame, if_pos named, State.lapOf_new carries new (by rw [service]; rfl), State.lapService_spdm service]

theorem does_spdmStateTimeout {s : State} {m : MasterId} (connected : (s.master m).spdm.stage ≠ 0) :
    Does (.spdmStateTimeout m) s fun t =>
      t.master m = { s.master m with spdm := {} } ∧ (s.master m).spdmAt + 60000000000 ≤ t.tray.now ∧ t.dies = s.dies ∧
      ∀ n, n ≠ m → t.master n = s.master n :=
  ⟨_, if_neg connected, State.modMaster_master .., Nat.le_max_right .., rfl, fun n other => State.modMaster_master_ne _ m n _ other⟩

theorem does_doeAbort {s : State} {p : Fin 2} : Does (.doeAbort (.pf p.val)) s fun t =>
    t.pf p = { s.pf p with doe := {} } ∧ PfOnly p s t := by
  refine ⟨s.modPf (portIx p.val) fun x => { x with doe := {} }, rfl, ?_⟩
  rw [portIx_val]
  exact ⟨State.modPf_pf .., .modPf ..⟩

/-! ### The answers (R534 to R536) -/

section
variable {s : State} {r : Responder} {msg : List Byte}

theorem State.spdmAnswer_unsupported (whole : 4 ≤ msg.length) (unknown : (msg.getD 1 0#8).toNat ∉ spdmCodes) :
    s.spdmAnswer r msg = ⟨s.spdm r, [0x12#8, 0x7F#8, 7#8, msg.getD 1 0#8], 0⟩ := by
  unfold State.spdmAnswer
  dsimp only
  rw [if_neg (by omega), if_pos (by simpa using unknown)]
  unfold Spdm.err spdmError
  rw [BitVec.ofNat_toNat, BitVec.setWidth_eq]
  rfl

/-- A request of version 1.2 with a code of the table reaches the answer of that code. -/
theorem State.spdmAnswer_version12 {c : Byte} (whole : 4 ≤ msg.length) (version : msg.getD 0 0#8 = 0x12#8)
    (code : msg.getD 1 0#8 = c) (known : spdmCodes.contains c.toNat = true) (later : c.toNat ≠ 0x84) :
    s.spdmAnswer r msg =
      if c.toNat = 0xE1 then (s.spdm r).getCapabilities r.limit msg
      else if c.toNat = 0xE3 then (s.spdm r).negotiate msg
      else if c.toNat = 0x81 then (s.spdm r).getDigests msg
      else if c.toNat = 0x82 then (s.spdm r).getCertificate r.limit msg
      else if c.toNat = 0x83 then (s.spdm r).challenge s.measAll (s.freeBytes 32).1 msg
      else s.getMeasurements (s.spdm r) (s.freeBytes 32).1 msg := by
  unfold State.spdmAnswer
  rw [code, version]
  dsimp only
  rw [if_neg (by omega), if_neg (by rw [known]; decide), if_neg later, if_neg (by decide), if_neg later]

theorem State.spdmAnswer_getVersion (whole : 4 ≤ msg.length) (version : msg.getD 0 0#8 = 0x10#8)
    (code : msg.getD 1 0#8 = 0x84#8) : (s.spdmAnswer r msg).next.stage = 1 ∧
      (s.spdmAnswer r msg).reply = [0x10#8, 0x04#8, 0#8, 0#8, 0#8, 1#8, 0x00#8, 0x12#8] := by
  have answer : s.spdmAnswer r msg = spdmGetVersion msg := by
    unfold State.spdmAnswer
    rw [code, version]
    dsimp only
    rw [if_neg (by omega), if_neg (by decide), if_neg (by decide), if_pos (by decide)]
  rw [answer]
  exact ⟨rfl, rfl⟩

theorem State.spdmAnswer_getCapabilities (whole : msg.length = 20) (version : msg.getD 0 0#8 = 0x12#8)
    (code : msg.getD 1 0#8 = 0xE1#8) :
    ((s.spdm r).stage = 1 → (s.spdmAnswer r msg).next.stage = 2 ∧ (s.spdmAnswer r msg).reply.length = 20) ∧
    ((s.spdm r).stage ≠ 1 → s.spdmAnswer r msg = ⟨s.spdm r, [0x12#8, 0x7F#8, 4#8, 0#8], 0⟩) := by
  rw [State.spdmAnswer_version12 (by omega) version code (by decide) (by decide), if_pos (by decide)]
  unfold Spdm.getCapabilities
  constructor
  · intro inOrder
    rw [if_neg (not_not_intro inOrder), if_neg (not_not_intro whole)]
    exact ⟨rfl, by simp [leBytes_length]⟩
  · exact fun outOfOrder => if_pos outOfOrder

theorem State.spdmAnswer_negotiate (whole : msg.length = 32) (version : msg.getD 0 0#8 = 0x12#8)
    (code : msg.getD 1 0#8 = 0xE3#8) (length : leNat ((msg.drop 4).take 2) = 32) :
    ((s.spdm r).stage = 2 → (s.spdmAnswer r msg).next.stage = 3 ∧ (s.spdmAnswer r msg).reply.length = 36) ∧
    ((s.spdm r).stage ≠ 2 → s.spdmAnswer r msg = ⟨s.spdm r, [0x12#8, 0x7F#8, 4#8, 0#8], 0⟩) := by
  rw [State.spdmAnswer_version12 (by omega) version code (by decide) (by decide), if_neg (by decide), if_pos (by decide)]
  unfold Spdm.negotiate
  constructor
  · intro inOrder
    rw [if_neg (not_not_intro inOrder), if_neg (by omega)]
    exact ⟨rfl, by simp [leBytes_length]⟩
  · exact fun outOfOrder => if_pos outOfOrder

theorem State.spdmAnswer_getDigests (whole : 4 ≤ msg.length) (version : msg.getD 0 0#8 = 0x12#8)
    (code : msg.getD 1 0#8 = 0x81#8) (ready : (s.spdm r).stage = 3) :
    (s.spdmAnswer r msg).reply = [0x12#8, 0x01#8, 0#8, 1#8] ++ sha384 certChain ∧ (s.spdmAnswer r msg).next.stage = 3 := by
  rw [State.spdmAnswer_version12 whole version code (by decide) (by decide), if_neg (by decide), if_neg (by decide),
    if_pos (by decide)]
  unfold Spdm.getDigests
  rw [if_neg (not_not_intro ready)]
  exact ⟨rfl, ready⟩

theorem State.spdmAnswer_blockCount (whole : msg.length = 4) (version : msg.getD 0 0#8 = 0x12#8)
    (code : msg.getD 1 0#8 = 0xE0#8) (unsigned : msg.getD 2 0#8 = 0#8) (count : msg.getD 3 0#8 = 0#8)
    (ready : (s.spdm r).stage = 3) :
    (s.spdmAnswer r msg).reply.take 8 = [0x12#8, 0x60#8, 13#8, 0#8, 0#8, 0#8, 0#8, 0#8] ∧
    (s.spdmAnswer r msg).next.meas = (s.spdm r).meas ++ msg ++ (s.spdmAnswer r msg).reply := by
  rw [State.spdmAnswer_version12 (by omega) version code (by decide) (by decide), if_neg (by decide), if_neg (by decide),
    if_neg (by decide), if_neg (by decide), if_neg (by decide)]
  unfold State.getMeasurements
  rw [unsigned, count]
  dsimp only
  rw [if_neg (not_not_intro ready), if_neg (by simp [whole]), if_neg (by decide)]
  simp only [BitVec.toNat_ofNat, Nat.zero_mod, if_true]
  exact ⟨rfl, trivial⟩

end

end Machine

/-- Settles O47: a row hands its message to the one responder, whose answer follows from the code and the stage of its
connection. -/
theorem spdmResponder : Obligations.SpdmResponder := by
  unfold Obligations.SpdmResponder
  exact ⟨⟨spdmRequests_of fun _ _ => rfl, spdmRequests_of fun _ _ => rfl, spdmRequests_of fun _ _ => rfl,
      spdmRequests_of fun _ _ => rfl, spdmRequests_of fun _ _ => rfl, spdmRequests_of fun _ _ => rfl,
      spdmRequests_of fun _ _ => rfl, spdmRequests_of fun _ _ => rfl, fun _ _ connected => does_spdmStateTimeout connected,
      fun _ _ => does_doeAbort⟩,
    fun _ _ _ whole unknown => State.spdmAnswer_unsupported whole unknown,
    fun _ _ _ whole version code => State.spdmAnswer_getVersion whole version code,
    fun _ _ _ whole version code => State.spdmAnswer_getCapabilities whole version code,
    fun _ _ _ whole version code length => State.spdmAnswer_negotiate whole version code length,
    fun _ _ _ whole version code ready => State.spdmAnswer_getDigests whole version code ready,
    fun _ _ _ whole version code unsigned count ready => State.spdmAnswer_blockCount whole version code unsigned count ready⟩

end Sys2Proof
end

section
/-! Links, DOE discovery and the mailbox (17.1, 17.7, 17.8). -/

namespace Sys2Proof
open Sys2Proof.Machine

namespace Machine

section
variable {s : State} {p : Fin 2}

/-! ### Links (R438, R439) -/

theorem does_linkTraining {rates widths : List Nat} {flit : Bool} (powered : s.tray.pow.busFrom.isSome = true)
    (enabled : s.tray.pow.trayEn = true) (boots : s.tray.fw.bootFailed = false) (up : s.tray.pow.down = false) :
    Does (.linkTraining p rates widths flit) s fun t =>
      (∀ r w, [64, 32, 16, 8].find? (fun r => rates.contains r && (flit || r != 64)) = some r →
        [16, 8, 4].find? (fun w => widths.contains w) = some w → (t.pf p).link = some (r, w, flit)) ∧
      ((∀ r ∈ [64, 32, 16, 8], r ∉ rates) → (t.pf p).link = none) ∧
      t.pf p = { s.pf p with link := (t.pf p).link } ∧ PfOnly p s t := by
  have leaves : ¬ (s.tray.pow.busFrom.isNone = true ∨ (!s.tray.pow.trayEn) = true ∨ s.tray.fw.bootFailed = true ∨
      s.tray.pow.down = true) := by
    rw [enabled, boots, up, Option.isNone_iff_eq_none]
    simpa using Option.isSome_iff_ne_none.mp powered
  change ∃ t, execLinkTraining p rates widths flit s = .next t ∧ _
  unfold execLinkTraining
  rw [if_neg leaves]
  refine ⟨_, rfl, ?_, ?_, ?_, .modPf ..⟩
  · intro r w rate width
    rw [State.modPf_pf, rate, width]
  · intro slow
    have noRate : [64, 32, 16, 8].find? (fun r => rates.contains r && (flit || r != 64)) = none := by
      refine List.find?_eq_none.mpr fun r listed common => slow r listed ?_
      exact List.contains_iff_mem.mp (Bool.and_eq_true_iff.mp common).1
    rw [State.modPf_pf, noRate]
  · rw [State.modPf_pf]

/-! ### DOE discovery (R461) -/

section
variable (clear : (s.pf p).doe.err = false)
include clear

theorem does_doeDiscovery {idx : Nat} : Does (.doeDiscovery (.pf p.val) 0 idx) s fun t =>
    t = s.emit (.doe (.pf p.val) (doeObject 0 (if idx = 0 then [1#8, 0#8, 0#8, 1#8]
      else if idx = 1 then [1#8, 0#8, 1#8, 0#8] else [0xFF#8, 0xFF#8, 0#8, 0#8]))) := by
  have takes : ¬ ((!s.fnLives (.pf p.val)) = true ∨ (s.pf (portIx p.val)).doe.err = true ∨ 0 = 1) := by
    rw [portIx_val, clear]
    rintro (h | h | h) <;> cases h
  refine ⟨_, (if_neg takes).trans (if_neg (by decide)), rfl⟩

theorem does_doeDiscovery_unknown {ty idx : Nat} (unknown : 1 < ty) : Does (.doeDiscovery (.pf p.val) ty idx) s fun t =>
    (t.pf p).doe.err = true ∧ t.outputs = s.outputs ∧ PfOnly p s t := by
  have takes : ¬ ((!s.fnLives (.pf p.val)) = true ∨ (s.pf (portIx p.val)).doe.err = true ∨ ty = 1) := by
    rw [portIx_val, clear]
    rintro (h | h | h)
    · cases h
    · cases h
    · omega
  refine ⟨_, (if_neg takes).trans (if_pos (by omega)), ?_⟩
  unfold State.modDoe
  dsimp only
  rw [portIx_val]
  exact ⟨by rw [State.modPf_pf], rfl, .modPf ..⟩

end

/-! ### The claim of the mailbox (R457) -/

theorem State.claim_unowned {v : Nat} (claims : v % 2 = 1) (unowned : s.tray.mbox = none) :
    s.claim p v = (s.modPf p fun x => { x with claim := true }).modTray fun y => { y with mbox := some p } := by
  unfold State.claim
  rw [if_neg (by omega), unowned]

theorem State.decodes_pf {t : State} (same : t.pf p = s.pf p) : t.decodes (.pf p.val) = s.decodes (.pf p.val) := by
  unfold State.decodes State.readable
  dsimp only
  rw [portIx_val, same]

/-- A claim that finds no owner, or one whose link is down, succeeds; another leaves the owner. -/
theorem State.claim_mbox {v : Nat} (claims : v % 2 = 1) : (s.claim p v).tray.mbox =
    if ∀ o, s.tray.mbox = some o → o ≠ p ∧ (s.pf o).link = none then some p else s.tray.mbox := by
  unfold State.claim
  rw [if_neg (by omega)]
  dsimp only
  cases owner : s.tray.mbox with
  | none => exact (if_pos fun o h => absurd h (by simp)).symm
  | some o =>
    dsimp only
    by_cases lost : o ≠ p ∧ (s.pf o).link = none
    · rw [if_pos ⟨lost.1, by rw [lost.2]; rfl⟩, if_pos (by simpa using lost)]
      rfl
    · rw [if_neg (by simpa using lost), if_neg (by simpa using lost)]
      exact owner

theorem does_mboxClaim {v : Nat} (decodes : s.decodes (.pf p.val) = true) : Does (.mboxClaim p v false) s fun t =>
    (v % 2 = 1 → s.tray.mbox = none → t.tray.mbox = some p ∧ t.pf p = { s.pf p with claim := true }) ∧
    (∀ o, v % 2 = 1 → s.tray.mbox = some o → o ≠ p → (s.pf o).link.isSome = true → t.tray.mbox = some o) ∧
    (∀ o, v % 2 = 1 → s.tray.mbox = some o → o ≠ p → (s.pf o).link = none → t.tray.mbox = some p) ∧
    (v % 2 = 0 → s.tray.mbox = some p → t.tray.mbox = none ∧ (t.pf p).mboxBusy = false) := by
  refine ⟨s.claim p v, congrArg Host.Outcome.next (if_pos decodes), ?_, ?_, ?_, ?_⟩
  · intro claims unowned
    refine ⟨by rw [State.claim_mbox claims, if_pos (by simp [unowned])], ?_⟩
    rw [State.claim_unowned claims unowned]
    exact State.modPf_pf s p fun x => { x with claim := true }
  · intro o claims owned other linked
    rw [State.claim_mbox claims, owned, if_neg]
    intro lost
    rw [(lost o rfl).2] at linked
    cases linked
  · intro o claims owned other lost
    rw [State.claim_mbox claims, owned, if_pos]
    rintro o' same
    cases same
    exact ⟨other, lost⟩
  · intro gives owned
    unfold State.claim State.mboxRelease
    rw [if_pos gives, if_pos owned, owned]
    exact ⟨rfl, congrArg PF.mboxBusy (State.modPf_pf s p fun x => { x with mboxBusy := false, claim := false })⟩

theorem does_mboxClaim_both {v : Nat} (decodes : ∀ q : Fin 2, s.decodes (.pf q.val) = true) (claims : v % 2 = 1)
    (unowned : s.tray.mbox = none) (linked : (s.pf 0).link.isSome = true) :
    Does (.mboxClaim p v true) s fun t => t.tray.mbox = some 0 := by
  have first := State.claim_unowned (p := 0) (v := 1) (by decide) unowned
  have stillOpen : (s.claim 0 1).decodes (.pf (1 : Fin 2).val) = true := by
    refine (State.decodes_pf ?_).trans (decodes 1)
    rw [first]
    exact State.modPf_pf_ne s 0 1 (fun x => { x with claim := true }) (by decide)
  have stillLinked : ((s.claim 0 1).pf 0).link.isSome = true := by
    rw [first]
    exact (congrArg (fun x : PF => x.link.isSome) (State.modPf_pf s 0 fun x => { x with claim := true })).trans linked
  have goes : Machine.exec (.mboxClaim p v true) s = .next ((s.claim 0 1).claim 1 1) := by
    change execMboxClaim p v true s = _
    unfold execMboxClaim
    dsimp only
    rw [if_neg (by decide), if_pos claims, if_pos (show s.decodes (.pf (0 : Fin 2).val) = true from decodes 0)]
    exact congrArg Host.Outcome.next (if_pos stillOpen)
  refine ⟨_, goes, ?_⟩
  change ((s.claim 0 1).claim 1 1).tray.mbox = some 0
  rw [State.claim_mbox (by decide), if_neg]
  · rw [first]
    rfl
  · intro lost
    rw [(lost 0 (by rw [first]; rfl)).2] at stillLinked
    cases stillLinked

/-! ### The doorbell of the mailbox (R458, R459) -/

theorem does_mboxDoorbell_ignored {len : Nat} (decodes : s.decodes (.pf p.val) = true) (shut : s.tray.fw.resetDue = false) :
    Does (.mboxDoorbell p len) s fun t =>
      (s.tray.mbox ≠ some p → t.pf p = { s.pf p with mboxNotOwner := true } ∧ PfOnly p s t) ∧
      (s.tray.mbox = some p → (s.pf p).mboxBusy = true →
        t.pf p = { s.pf p with mboxNotTaken := true } ∧ PfOnly p s t) := by
  refine ⟨_, if_pos decodes, ?_, ?_⟩
  · intro other
    have bell : s.mboxBell p len = s.modPf p fun x => { x with mboxNotOwner := true } := if_pos other
    rw [bell, State.finishReset_none (by exact shut)]
    exact ⟨State.modPf_pf .., .modPf ..⟩
  · intro owned busy
    have bell : s.mboxBell p len = s.modPf p fun x => { x with mboxNotTaken := true } :=
      (if_neg (not_not_intro owned)).trans (if_pos busy)
    rw [bell, State.finishReset_none (by exact shut)]
    exact ⟨State.modPf_pf .., .modPf ..⟩

theorem does_mboxDoorbell {len : Nat} (decodes : s.decodes (.pf p.val) = true) (owned : s.tray.mbox = some p)
    (idle : (s.pf p).mboxBusy = false) (fits : len ≤ 2048) : Does (.mboxDoorbell p len) s fun t =>
      t = ((s.modPf p fun x => { x with mboxNotOwner := false }).mailbox p
        (((s.pf p).reqBuf ++ List.replicate (2048 - (s.pf p).reqBuf.length) 0#8).take len)).finishReset := by
  refine ⟨_, if_pos decodes, ?_⟩
  unfold State.mboxBell
  dsimp only
  rw [if_neg (not_not_intro owned), if_neg (by simp [idle]), if_neg (by omega)]

end

end Machine

/-- Settles O49: training takes what both sides have in common, and a claim takes the mailbox only from a port without link. -/
theorem hostLinksAndMailbox : Obligations.HostLinksAndMailbox := by
  unfold Obligations.HostLinksAndMailbox
  exact ⟨fun _ _ _ _ _ powered enabled boots up => does_linkTraining powered enabled boots up,
    fun _ _ _ clear => does_doeDiscovery clear, fun _ _ _ _ clear unknown => does_doeDiscovery_unknown clear unknown,
    fun _ _ _ decodes => does_mboxClaim decodes,
    fun _ _ _ decodes claims unowned linked => does_mboxClaim_both decodes claims unowned linked,
    fun _ _ _ decodes shut => does_mboxDoorbell_ignored decodes shut,
    fun _ _ _ decodes owned idle fits => does_mboxDoorbell decodes owned idle fits⟩

end Sys2Proof
end

section
/-! Completion records and malformed commands of a queue (18.2, 18.3, 18.9). -/

namespace Sys2Proof
open Sys2Proof.Machine

namespace Machine

/-- A queue whose head command has completed. -/
def Queue.finished (y : Queue) (status : Nat) : Queue :=
  { y with cmds := y.cmds.drop 1, done := y.done + 1, faulted := y.faulted || statusFaults status }

section
variable {s : State} {t h q : Nat} {y : Queue} {e : Cmd} {rest : List Cmd}

/-- A completion, but for a command that did not run, writes its record, moves its queue on and may send its vector. -/
theorem State.finishHead_parts (queue : s.queue? t h q = some y) (cmds : y.cmds = e :: rest) {status : Nat}
    (ran : status ≠ stNotRun) (detail result : Nat) (deg : Bool) : ∃ u, TellsHost s u ∧
      TellsHost (u.modQueue t h q fun x => x.finished status) (s.finishHead t h q status detail result deg) ∧
      u.outputs <:+ (s.finishHead t h q status detail result deg).outputs ∧
      ∀ f, s.fnOf t = some f → u = s.hostWrite f (y.comp + 16 * e.idx)
        (compRecord e.idx status (b2n (y.done / 2 ^ y.z % 2 = 0) + 2 * b2n deg) detail result) := by
  unfold State.finishHead
  rw [queue]
  dsimp -zeta only
  rw [cmds]
  dsimp -zeta only
  extract_lets phase rec_ s1 s2 s3
  have moved : s3 = s1.modQueue t h q fun x => x.finished status := if_neg fun c => ran c.1
  refine ⟨s1, ?_, ?_, ?_, ?_⟩
  · unfold s1
    split
    · exact State.hostWrite_tells ..
    · exact .refl s
  · rw [← moved]
    refine .ite ?_ (.refl s3)
    split
    · exact State.msix_tells ..
    · exact .refl s3
  · have sent : s1.outputs = s3.outputs := by rw [moved]; rfl
    rw [sent]
    split
    · split
      · exact (State.msix_keeps (.refl s3) ..).outputs
      · exact List.suffix_refl _
    · exact List.suffix_refl _
  · intro f serves
    unfold s1
    rw [serves]

/-- The only command of a queue that completes, but for one that did not run, leaves an empty queue. -/
theorem State.complete_last (queue : s.queue? t h q = some y) (cmds : y.cmds = [e]) {status : Nat}
    (ran : status ≠ stNotRun) (detail result : Nat) (deg : Bool) :
    (s.complete t h q status detail result deg).queue? t h q = some (y.finished status) ∧
      (s.complete t h q status detail result deg).dies = s.dies ∧
      (s.complete t h q status detail result deg).tray = s.tray ∧
      ∀ f, s.fnOf t = some f → s.silent f = false → s.canSend f = true → Output.hostWrite f (y.comp + 16 * e.idx)
        (compRecord e.idx status (b2n (y.done / 2 ^ y.z % 2 = 0) + 2 * b2n deg) detail result) ∈
          (s.complete t h q status detail result deg).outputs := by
  obtain ⟨u, tells, told, sent, written⟩ := State.finishHead_parts queue cmds ran detail result deg
  have after : (s.finishHead t h q status detail result deg).queue? t h q = some (y.finished status) := by
    have same : (s.finishHead t h q status detail result deg).queue? t h q =
        (u.modQueue t h q fun x => x.finished status).queue? t h q := by
      unfold State.queue? State.ctx?
      rw [told.ctxs]
    have before : u.queue? t h q = some y := by
      rw [← queue]
      unfold State.queue? State.ctx?
      rw [tells.ctxs]
    rw [same, State.modQueue_queue?, if_pos rfl, before]
    rfl
  have idle : (y.finished status).cmds.length = 0 := by
    change (y.cmds.drop 1).length = 0
    rw [cmds]
    rfl
  have done : s.complete t h q status detail result deg = s.finishHead t h q status detail result deg := by
    unfold State.complete State.settle
    rw [after]
    dsimp only [Option.map_some, Option.getD_some]
    rw [idle]
    rfl
  rw [done]
  refine ⟨after, told.dies.trans tells.dies, told.tray.trans tells.tray, fun f serves awake enabled => sent.subset ?_⟩
  rw [written f serves]
  unfold State.hostWrite
  rw [if_neg (by simp [awake]), if_pos enabled]
  exact List.mem_cons_self

/-- A malformed command at the head of its queue completes at once. -/
theorem State.withHead_malformed {op i : Nat} (head : s.headCmd t h q = some e) (isOp : e.op = op) (taken : e.refused = false)
    (queue : s.queue? t h q = some y) (clear : y.faulted = false) (bad : e.badAt = some i) (f : State → Cmd → State) :
    s.withHead t h q op f = s.complete t h q stMalformed i 0 false := by
  unfold State.withHead
  rw [head]
  dsimp only
  rw [if_neg (by simp [isOp, taken, queue, clear]), bad]

theorem Cmd.isResume_of_op (isOp : e.op = 0x00) : e.isResume = false := by
  unfold Cmd.isResume
  rw [isOp]
  rfl

theorem does_nopCommand (starts : Heads s t h q 0x00 e) (queue : s.queue? t h q = some y) (cmds : y.cmds = [e]) :
    Does (.nopCommand t h q) s fun x =>
      x.queue? t h q = some { y with cmds := [], done := y.done + 1 } ∧ x.dies = s.dies ∧ x.tray = s.tray ∧
      (∀ f, s.fnOf t = some f → s.silent f = false → s.canSend f = true → Output.hostWrite f (y.comp + 16 * e.idx)
        (compRecord e.idx 0x00 (b2n (y.done / 2 ^ y.z % 2 = 0)) 0 0) ∈ x.outputs) := by
  have clear : y.faulted = false := by
    refine Bool.eq_false_iff.2 fun faulted => ?_
    have resumes := starts.runs (by rw [queue]; simpa using faulted)
    rw [Cmd.isResume_of_op starts.op] at resumes
    cases resumes
  obtain ⟨after, dies, tray, record⟩ := State.complete_last queue cmds (status := stOk) (by decide) 0 0 false
  refine starts.does (f := fun s _ => s.ends t h q stOk) rfl ⟨after.trans (congrArg some ?_), dies, tray, record⟩
  unfold Queue.finished
  rw [clear, cmds]
  rfl

/-- A row of a queue command completes a malformed command of its opcode and acts on nothing. -/
theorem does_malformed {c : Instr} {op i : Nat} {f : State → Cmd → State}
    (row : Machine.exec c s = .next (s.withHead t h q op f)) (head : s.headCmd t h q = some e) (isOp : e.op = op)
    (taken : e.refused = false) (queue : s.queue? t h q = some y) (clear : y.faulted = false) (cmds : y.cmds = [e])
    (bad : e.badAt = some i) : Does c s fun x =>
      x.queue? t h q = some { y with cmds := [], done := y.done + 1, faulted := true } ∧ x.dies = s.dies ∧
      x.tray = s.tray ∧ x = s.complete t h q 0x02 i 0 false := by
  obtain ⟨after, dies, tray, -⟩ := State.complete_last queue cmds (status := stMalformed) (by decide) i 0 false
  refine ⟨_, row, ?_⟩
  rw [State.withHead_malformed head isOp taken queue clear bad]
  refine ⟨after.trans (congrArg some ?_), dies, tray, rfl⟩
  unfold Queue.finished
  rw [clear, cmds]
  rfl

end

/-- The row of a queue command runs its operation on the command at the head of its queue. -/
theorem exec_withHead {t h q op : Nat} {c : Instr} (row : (op, c) ∈ [(0x00, Instr.nopCommand t h q), (0x01, .bind t h q),
      (0x02, .unbind t h q), (0x03, .reside t h q), (0x04, .evict t h q), (0x05, .copy t h q),
      (0x06, .loadPlan t h q (.data [])), (0x07, .runPlan t h q), (0x08, .haltPlan t h q), (0x09, .signal t h q),
      (0x0A, .wait t h q), (0x0B, .query t h q), (0x0C, .scrub t h q), (0x0D, .fence t h q)]) (s : State) :
    ∃ f, Machine.exec c s = .next (s.withHead t h q op f) := by
  simp only [List.mem_cons, Prod.mk.injEq, List.not_mem_nil, or_false] at row
  obtain ⟨rfl, rfl⟩ | ⟨rfl, rfl⟩ | ⟨rfl, rfl⟩ | ⟨rfl, rfl⟩ | ⟨rfl, rfl⟩ | ⟨rfl, rfl⟩ | ⟨rfl, rfl⟩ | ⟨rfl, rfl⟩ | ⟨rfl, rfl⟩ |
    ⟨rfl, rfl⟩ | ⟨rfl, rfl⟩ | ⟨rfl, rfl⟩ | ⟨rfl, rfl⟩ | ⟨rfl, rfl⟩ := row <;> exact ⟨_, rfl⟩

end Machine

/-- Settles O51: every completion goes the one way, which writes the record, moves the queue on and leaves the dies and the
tray. -/
theorem commandCompletion : Obligations.CommandCompletion := by
  unfold Obligations.CommandCompletion
  refine ⟨fun _ _ _ _ _ _ starts queue cmds => does_nopCommand starts queue cmds,
    fun _ _ _ _ _ starts => starts.does (f := fun s _ => s.ends _ _ _ stOk) rfl rfl, ?_⟩
  intro t h q op c row s e y i head isOp taken queue clear cmds bad
  obtain ⟨f, runs⟩ := exec_withHead row s
  exact does_malformed runs head isOp taken queue clear cmds bad

end Sys2Proof
end

section
/-! BIND, UNBIND, RESIDE and EVICT (18.4, 18.5). -/

namespace Sys2Proof
open Sys2Proof.Machine

namespace Machine

/-! ### What the completion of commands changes -/

/-- Commands completed: nothing changed but the contexts, the tenants, the functions and what was sent. -/
def Completes (s t : State) : Prop :=
  t = { s with ctxs := t.ctxs, tenants := t.tenants, pfs := t.pfs, vfs := t.vfs, outputs := t.outputs }

theorem Completes.trans {s t u : State} (h : Completes s t) (k : Completes t u) : Completes s u := by
  unfold Completes at *
  rw [k, h]

theorem Completes.dies {s t : State} (h : Completes s t) : t.dies = s.dies := by rw [h]

theorem TellsHost.completes {s t : State} (h : TellsHost s t) : Completes s t := by
  unfold Completes
  rw [h.rest]

section
variable (s : State)

theorem State.errEvent_completes (t e : Nat) : Completes s (s.errEvent t e) := by
  unfold State.errEvent
  split
  · exact Completes.trans (t := s.modTenant t _) rfl (State.setEvent_tells ..).completes
  · rfl

theorem State.finishHead_completes (t h q status detail result : Nat) (deg : Bool) :
    Completes s (s.finishHead t h q status detail result deg) := by
  unfold State.finishHead
  split
  · rfl
  · split
    · rfl
    · extract_lets phase rec_ s1 s2 s3
      have written : Completes s s1 := by
        unfold s1
        split
        · exact (State.hostWrite_tells ..).completes
        · rfl
      have moved : Completes s s2 := written.trans rfl
      have marked : Completes s s3 := by
        unfold s3
        split
        · exact moved.trans (s2.errEvent_completes ..)
        · exact moved
      split
      · split
        · exact marked.trans (State.msix_tells ..).completes
        · exact marked
      · exact marked

theorem State.settleOnce_completes (t h q : Nat) : Completes s (s.settleOnce t h q) := by
  unfold State.settleOnce
  split
  · rfl
  · split
    · rfl
    · split
      · exact s.finishHead_completes ..
      · split
        · exact s.finishHead_completes ..
        · split
          · exact s.finishHead_completes ..
          · rfl

theorem State.complete_completes (t h q status detail result : Nat) (deg : Bool) :
    Completes s (s.complete t h q status detail result deg) := by
  have go (n : Nat) (u : State) : Completes u (State.settle.go t h q n u) := by
    induction n generalizing u with
    | zero => rfl
    | succ n ih => exact (u.settleOnce_completes t h q).trans (ih _)
  exact (s.finishHead_completes ..).trans (go ..)

theorem State.dropQueue_completes (t h q : Nat) : Completes s (s.dropQueue t h q) := by
  have go (n : Nat) (u : State) : Completes u (State.dropQueue.go t h q n u) := by
    induction n generalizing u with
    | zero => rfl
    | succ n ih =>
      refine Completes.trans ?_ (ih _)
      split
      · rfl
      · exact u.finishHead_completes ..
  exact go ..

end

/-! ### Contexts, their bindings and the owners of granules -/

section
variable {s : State} {t h n : Nat}

theorem State.modCtx_ctx? (s : State) (t h : Nat) (f : Ctx → Ctx) : (s.modCtx t h f).ctx? t h = (s.ctx? t h).map f := by
  unfold State.ctx? State.modCtx
  rw [KV.get?_modify, if_pos rfl]

theorem State.modCtx_tenant (s : State) (t h : Nat) (f : Ctx → Ctx) (u : Nat) : (s.modCtx t h f).tenant u = s.tenant u := rfl

theorem State.tapHold_ctx? (s : State) (t h : Nat) : s.tapHold.ctx? t h = s.ctx? t h := by
  unfold State.tapHold
  split <;> rfl

theorem State.tapHold_die (s : State) (d : DieId) : s.tapHold.die d = s.die d := by
  unfold State.tapHold
  split <;> rfl

theorem State.binding_modCtx_put {y : Ctx} (ctx : s.ctx? t h = some y) (b : Binding) :
    (s.modCtx t h fun c => { c with bindings := KV.put c.bindings n b }).binding t h n = some b := by
  unfold State.binding
  rw [State.modCtx_ctx?, ctx]
  exact KV.get?_put ..

theorem KV.get?_del {κ α : Type} [DecidableEq κ] (l : List (κ × α)) (k : κ) : KV.get? (KV.del l k) k = none := by
  have gone := KV.get?_filter_keys l (fun i => !decide (i = k)) k
  rwa [if_neg (by simp)] at gone

theorem State.binding_modCtx_del (s : State) (t h n : Nat) :
    (s.modCtx t h fun c => { c with bindings := KV.del c.bindings n }).binding t h n = none := by
  unfold State.binding
  rw [State.modCtx_ctx?]
  cases s.ctx? t h with
  | none => rfl
  | some c => exact KV.get?_del ..

theorem Tiles.owner_setOwners (x : Tiles) (first count : Nat) (o : Granule) {i : Nat} (inside : first ≤ i)
    (below : i < first + count) : (x.setOwners first count o).owner i = o := by
  unfold Tiles.setOwners
  induction count with
  | zero => omega
  | succ count ih =>
    rw [List.range_succ, List.foldl_append]
    by_cases last : i = first + count
    · rw [last]
      exact Tiles.owner_setOwner ..
    · exact (Tiles.owner_setOwner_ne _ last o).trans (ih (by omega))

theorem State.unloadPlans_binding (s : State) (t h first count n : Nat) :
    (s.unloadPlans t h first count).binding t h n = s.binding t h n := by
  unfold State.binding State.unloadPlans
  rw [State.modCtx_ctx?]
  cases s.ctx? t h <;> rfl

end

end Machine

theorem Heads.ctx {s : State} {t h q op : Nat} {e : Cmd} (starts : Heads s t h q op e) : ∃ y, s.ctx? t h = some y := by
  obtain ⟨y, queue, -⟩ := Option.bind_eq_some_iff.mp starts.head
  obtain ⟨c, ctx, -⟩ := Option.bind_eq_some_iff.mp queue
  exact ⟨c, ctx⟩

section
variable {s : State} {t h q : Nat} {d : DieId} {e : Cmd}

/-! ### BIND (R481 to R485) -/

theorem does_bind_sram (starts : Heads s t h q 0x01 e) (kind : e.byte 10 = 0) (on : OnDie s t h d)
    (fresh : s.binding t h (e.fld 8 2) = none)
    (free : ∀ i, i < e.fld 18 2 → (s.die d).closed (e.fld 16 2 + i) = false ∧
      ((s.die d).til.owner (e.fld 16 2 + i) = .free ∨ (s.die d).til.owner (e.fld 16 2 + i) = .held t)) :
    Does (.bind t h q) s fun x => ∃ w : State, x = w.ends t h q 0x00 ∧
      (∀ i, i < e.fld 18 2 → (w.die d).til.owner (e.fld 16 2 + i) = .owned t (s.tenant t).objNo) ∧
      w.binding t h (e.fld 8 2) = some (.sram (s.tenant t).objNo (e.fld 16 2) (e.fld 18 2)) ∧
      (w.die d).til.sram = (s.die d).til.sram := by
  obtain ⟨y, ctx⟩ := starts.ctx
  refine starts.does rfl ?_
  dsimp only
  rw [kind]
  rw [on.onDie, fresh, if_neg (by decide)]
  unfold State.bindSram
  extract_lets x gs refused waits o
  have granule {g : Nat} (listed : g ∈ gs) : x.closed g = false ∧ (x.til.owner g = .free ∨ x.til.owner g = .held t) := by
    obtain ⟨i, below, rfl⟩ := List.mem_map.mp listed
    exact free i (List.mem_range.mp below)
  have taken : ¬ gs.any refused = true := by
    rw [List.any_eq_true]
    rintro ⟨g, listed, bad⟩
    obtain ⟨opened, owner | owner⟩ := granule listed <;> simp [refused, opened, owner] at bad
  have ready : ¬ gs.any waits = true := by
    rw [List.any_eq_true]
    rintro ⟨g, listed, bad⟩
    obtain ⟨-, owner | owner⟩ := granule listed <;> simp [waits, owner] at bad
  rw [if_neg taken, if_neg ready]
  refine ⟨_, rfl, fun i below => ?_, State.binding_modCtx_put (y := y) ctx _, ?_⟩
  · rw [State.modCtx_die, State.modDie_die]
    exact Tiles.owner_setOwners _ _ _ _ (Nat.le_add_right ..) (Nat.add_lt_add_left below _)
  · rw [State.modCtx_die, State.modDie_die]
    exact (Tiles.setOwners_keep ..).1

theorem does_bind_owned {i u o : Nat} (starts : Heads s t h q 0x01 e) (kind : e.byte 10 = 0) (on : OnDie s t h d)
    (fresh : s.binding t h (e.fld 8 2) = none) (below : i < e.fld 18 2)
    (owner : (s.die d).til.owner (e.fld 16 2 + i) = .owned u o) :
    Does (.bind t h q) s fun x => x = s.ends t h q 0x07 := by
  refine starts.does rfl ?_
  dsimp only
  rw [kind]
  rw [on.onDie, fresh, if_neg (by decide)]
  unfold State.bindSram
  extract_lets x gs refused
  refine if_pos (List.any_eq_true.mpr ⟨e.fld 16 2 + i, List.mem_map_of_mem (List.mem_range.mpr below), ?_⟩)
  simp [refused, x, owner]

theorem does_bind_host (starts : Heads s t h q 0x01 e) (kind : e.byte 10 = 1) : Does (.bind t h q) s fun x =>
    ((s.binding t h (e.fld 8 2)).isSome = true → x = s.ends t h q 0x08) ∧
    (s.binding t h (e.fld 8 2) = none → ∃ w : State, x = w.ends t h q 0x00 ∧ w.dies = s.dies ∧
      w.binding t h (e.fld 8 2) = some (.host (e.fld 16 8) (e.fld 24 8))) := by
  obtain ⟨y, ctx⟩ := starts.ctx
  refine starts.does rfl ?_
  dsimp only
  rw [kind]
  refine ⟨fun used => if_pos used, fun fresh => ?_⟩
  rw [fresh, if_neg (by decide)]
  exact ⟨_, rfl, rfl, State.binding_modCtx_put ctx _⟩

theorem State.publish_fresh {o first count n id : Nat} {r : Nat × Nat} {y : Ctx} (ctx : s.ctx? t h = some y)
    (resident : (s.ctx? t h).bind Ctx.resident = some r) (bound : s.binding t h n = some (.sram o first count))
    (fresh : KV.get? (s.tenant t).shared id = none) : ∃ w : State, s.publish t h q n id = w.ends t h q 0x00 ∧
      KV.get? (w.tenant t).shared id = some ⟨r.1, o, first, count⟩ ∧ w.binding t h n = some (.shared id) := by
  unfold State.publish
  rw [bound, resident]
  dsimp only
  rw [fresh, if_neg (by decide)]
  obtain ⟨u, unloaded⟩ : ∃ u, (s.unloadPlans t h first count).ctx? t h = some u := by
    unfold State.unloadPlans
    rw [State.modCtx_ctx?, ctx]
    exact ⟨_, rfl⟩
  refine ⟨_, rfl, ?_, State.binding_modCtx_put (s := (s.unloadPlans t h first count).modTenant t _) unloaded _⟩
  rw [State.modCtx_tenant, State.modTenant_tenant]
  exact KV.get?_put ..

theorem does_bind_publish {o first count : Nat} {r : Nat × Nat} (starts : Heads s t h q 0x01 e) (kind : e.byte 10 = 2)
    (resident : (s.ctx? t h).bind Ctx.resident = some r) (bound : s.binding t h (e.fld 8 2) = some (.sram o first count))
    (fresh : KV.get? (s.tenant t).shared (e.fld 12 2) = none) : Does (.bind t h q) s fun x => ∃ w : State, x = w.ends t h q 0x00 ∧
      KV.get? (w.tenant t).shared (e.fld 12 2) = some ⟨r.1, o, first, count⟩ ∧
      w.binding t h (e.fld 8 2) = some (.shared (e.fld 12 2)) := by
  obtain ⟨y, ctx⟩ := starts.ctx
  refine starts.does rfl ?_
  dsimp only
  rw [kind]
  exact State.publish_fresh ctx resident bound fresh

theorem does_bind_shared {o : Shared} (starts : Heads s t h q 0x01 e) (kind : e.byte 10 = 3) (on : OnDie s t h d)
    (published : KV.get? (s.tenant t).shared (e.fld 12 2) = some o) (fresh : s.binding t h (e.fld 8 2) = none) :
    Does (.bind t h q) s fun x =>
      (o.die ≠ d.val → x = s.ends t h q 0x0A) ∧
      (o.die = d.val → ∃ w : State, x = w.ends t h q 0x00 ∧ w.dies = s.dies ∧
        w.binding t h (e.fld 8 2) = some (.shared (e.fld 12 2))) := by
  obtain ⟨y, ctx⟩ := starts.ctx
  refine starts.does rfl ?_
  dsimp only
  rw [kind]
  simp only [on.onDie, published, fresh]
  rw [if_neg (by decide)]
  refine ⟨fun other => if_pos other, fun same => ?_⟩
  rw [if_neg (not_not_intro same)]
  exact ⟨_, rfl, rfl, State.binding_modCtx_put ctx _⟩

/-! ### UNBIND (R484) -/

theorem State.removeBinding_binding {b : Binding} (bound : s.binding t h (e.fld 8 2) = some b) :
    (s.removeBinding d t h (e.fld 8 2)).binding t h (e.fld 8 2) = none := by
  unfold State.removeBinding
  rw [bound]
  extract_lets s1
  have gone : s1.binding t h (e.fld 8 2) = none := State.binding_modCtx_del ..
  have unloaded (g : Nat × Nat) : (s1.unloadPlans t h g.1 g.2).binding t h (e.fld 8 2) = none :=
    (State.unloadPlans_binding ..).trans gone
  cases b with
  | host i j => exact gone
  | sram o first count => exact unloaded (first, count)
  | shared id =>
    dsimp only
    cases s.granulesOf t (.shared id) with
    | none => exact gone
    | some g =>
      dsimp only
      split
      · exact unloaded g
      · exact unloaded g

theorem does_unbind {r : Nat × Nat} {b : Binding} (starts : Heads s t h q 0x02 e)
    (resident : (s.ctx? t h).bind Ctx.resident = some r) (bound : s.binding t h (e.fld 8 2) = some b) :
    Does (.unbind t h q) s fun x =>
      (∀ g, s.granulesOf t b = some g → s.runTouches (dieOf r.1) t h g.1 g.2 = true → x = s.ends t h q 0x0B) ∧
      ((∀ g, s.granulesOf t b = some g → s.runTouches (dieOf r.1) t h g.1 g.2 = false) →
        ∃ w : State, x = w.ends t h q 0x00 ∧ w.binding t h (e.fld 8 2) = none ∧
        ∀ o first count i, b = .sram o first count → first ≤ i → i < first + count →
          (w.die (dieOf r.1)).til.owner i = .zeroing) := by
  refine starts.does rfl ?_
  dsimp only
  rw [resident, bound]
  dsimp only
  constructor
  · intro g granules touched
    rw [granules]
    exact if_pos touched
  · intro untouched
    have unused : ¬ (match s.granulesOf t b with
        | some g => s.runTouches (dieOf r.1) t h g.1 g.2
        | none => false) = true := by
      split
      · next g granules => simp [untouched g granules]
      · decide
    refine ⟨s.removeBinding (dieOf r.1) t h (e.fld 8 2), (if_neg unused).trans rfl, State.removeBinding_binding bound, ?_⟩
    rintro o first count i rfl inside below
    unfold State.removeBinding
    rw [bound]
    change ((State.freeGranules _ (dieOf r.1) first count).die (dieOf r.1)).til.owner i = .zeroing
    unfold State.freeGranules
    rw [State.modDie_die]
    exact Tiles.owner_setOwners _ _ _ _ inside below

/-! ### RESIDE (R479) -/

theorem State.place_spec {y : Ctx} {i : Nat} (ctx : s.ctx? t h = some y) (slot : (s.die d).til.freeSlot = some i) :
    ∃ w : State, s.place d t h q i = w.complete t h q 0x00 0 (d.val + 256 * i) false ∧
      (w.ctx? t h).bind Ctx.resident = some (d.val, i) ∧ (w.die d).til.slots[i]? = some (some (t, h)) := by
  obtain ⟨within, -⟩ := List.findIdx?_eq_some_iff_getElem.mp slot
  refine ⟨_, rfl, ?_, ?_⟩
  · rw [State.tapHold_ctx?, State.modCtx_ctx?, show (s.modDie d _).ctx? t h = some y from ctx]
    rfl
  · rw [State.tapHold_die, State.modCtx_die, State.modDie_die]
    exact List.getElem?_set_self within

theorem does_reside (starts : Heads s t h q 0x03 e) (named : e.byte 8 = d.val)
    (away : (s.ctx? t h).bind Ctx.resident = none) : Does (.reside t h q) s fun x =>
      ((s.die d).svc.state ≠ .running → (s.die d).svc.state ≠ .frost → x = s.ends t h q 0x03) ∧
      (∀ i, s.dieBusy d = false → (s.die d).til.freeSlot = some i → s.admits d t h = true →
        ∃ w : State, x = w.complete t h q 0x00 0 (d.val + 256 * i) false ∧
        (w.ctx? t h).bind Ctx.resident = some (d.val, i) ∧ (w.die d).til.slots[i]? = some (some (t, h))) ∧
      (s.dieBusy d = false → (s.die d).til.freeSlot.isSome = true → s.admits d t h = false → x = s.ends t h q 0x04) := by
  obtain ⟨y, ctx⟩ := starts.ctx
  have awake (free : s.dieBusy d = false) : ¬ ((s.die d).svc.state ≠ .running ∧ (s.die d).svc.state ≠ .frost) := by
    unfold State.dieBusy at free
    simp only [Bool.or_eq_false_iff, bne_eq_false_iff_eq] at free
    exact fun asleep => asleep.1 free.1.1.1.1
  refine starts.does rfl ?_
  dsimp only
  rw [away, named]
  dsimp only
  rw [if_neg (by have := d.isLt; omega), dieOf_val]
  unfold State.resideOn
  dsimp only
  refine ⟨fun notRunning notFrost => if_pos ⟨notRunning, notFrost⟩, ?_, ?_⟩
  · intro i free slot admitted
    rw [if_neg (awake free), if_neg (by simp [free]), slot]
    dsimp only
    rw [if_pos admitted]
    exact State.place_spec ctx slot
  · intro free slot refused
    obtain ⟨i, slot⟩ := Option.isSome_iff_exists.mp slot
    rw [if_neg (awake free), if_neg (by simp [free]), slot]
    exact if_neg (by simp [refused])

theorem does_reside_resident {r : Nat × Nat} (starts : Heads s t h q 0x03 e)
    (resident : (s.ctx? t h).bind Ctx.resident = some r) : Does (.reside t h q) s fun x =>
      (e.byte 8 = 0xF ∨ e.byte 8 = r.1 → x = s.complete t h q 0x00 0 (r.1 + 256 * r.2) false) ∧
      (e.byte 8 ≠ 0xF → e.byte 8 ≠ r.1 → x = s.ends t h q 0x06) := by
  refine starts.does rfl ?_
  dsimp only
  rw [resident]
  exact ⟨fun same => if_pos same, fun noChoice other => if_neg (not_or.mpr ⟨noChoice, other⟩)⟩

/-! ### EVICT (R480) -/

section
variable (noRun : ∀ r ∈ (s.die d).til.runs, ¬(r.tenant = t ∧ r.handle = h))
  (still : ∀ k c, s.headCmd t h k = some c → c.moving = false)
include noRun still

/-- A context none of whose work runs on its die only ceases to wait there. -/
theorem State.evictRunning_idle : (s.evictRunning d t h).ctxs = s.ctxs ∧
    ((s.evictRunning d t h).die d).til.engines = (s.die d).til.engines := by
  have noRuns : ((s.die d).til.runs.filter fun r => r.tenant == t && r.handle == h) = [] :=
    List.filter_eq_nil_iff.mpr fun r runs both => noRun r runs (by simpa using both)
  unfold State.evictRunning
  rw [noRuns]
  generalize List.range 8 = queues
  refine List.foldlRecOn (motive := fun u : State => u.ctxs = s.ctxs ∧ (u.die d).til.engines = (s.die d).til.engines)
    queues _ ⟨rfl, rfl⟩ fun u keeps k _ => ?_
  have left : (u.leaveWait d t h k).ctxs = s.ctxs ∧ ((u.leaveWait d t h k).die d).til.engines = (s.die d).til.engines := by
    refine ⟨keeps.1, ?_⟩
    unfold State.leaveWait
    rw [State.modDie_die]
    exact keeps.2
  dsimp only
  split
  · exact left
  · next c head =>
    rw [State.headCmd_congr left.1] at head
    rw [if_neg (by simp [still k c head])]
    exact left

end

theorem State.setCtxs_del (s : State) (t h : Nat) : (s.setCtxs fun cs => KV.del cs (t, h)).ctx? t h = none := KV.get?_del ..

/-- A destroyed context's queues are emptied without a change of the dies. -/
theorem State.dropQueues_die (s : State) (t h : Nat) (queues : List Nat)
    (f : List ((Nat × Nat) × Ctx) → List ((Nat × Nat) × Ctx)) (d : DieId) :
    ((queues.foldl (fun s k => s.dropQueue t h k) s).setCtxs f).die d = s.die d :=
  congrArg (fun dies => dies.get d) (List.foldlRecOn (motive := fun v : State => v.dies = s.dies) queues _ rfl
    fun v keeps k _ => (v.dropQueue_completes t h k).dies.trans keeps)

theorem State.ends_die (s : State) (t h q status : Nat) (d : DieId) : (s.ends t h q status).die d = s.die d :=
  congrArg (fun dies => dies.get d) (State.complete_completes ..).dies

/-- The context has left the slots of its die. -/
theorem State.leaveDie_spec (s : State) (d : DieId) (t h : Nat) :
    ((s.leaveDie d t h).ctx? t h).bind Ctx.resident = none ∧
      ∀ o ∈ ((s.leaveDie d t h).die d).til.slots, o ≠ some (t, h) := by
  unfold State.leaveDie
  extract_lets bs
  generalize bs.foldl _ _ = u
  constructor
  · change ((u.modCtx t h Ctx.leave).ctx? t h).bind Ctx.resident = none
    rw [State.modCtx_ctx?]
    cases u.ctx? t h <;> rfl
  · rw [State.modDie_die]
    intro o held same
    obtain ⟨o', -, rfl⟩ := List.mem_map.mp held
    split at same
    · cases same
    · next other => exact other same

theorem does_evict (starts : Heads s t h q 0x04 e) (on : OnDie s t h d)
    (noRun : ∀ r ∈ (s.die d).til.runs, ¬(r.tenant = t ∧ r.handle = h)) (noUnit : ∀ k, (s.die d).til.inHand t h k = 0)
    (still : ∀ k c, s.headCmd t h k = some c → c.moving = false) : Does (.evict t h q) s fun x =>
      (e.byte 8 % 2 = 0 → ∃ w : State, x = w.ends t h q 0x00 ∧ (w.ctx? t h).bind Ctx.resident = none ∧
        ∀ o ∈ (w.die d).til.slots, o ≠ some (t, h)) ∧
      (e.byte 8 % 2 = 1 → x.ctx? t h = none ∧ ∀ o ∈ (x.die d).til.slots, o ≠ some (t, h)) := by
  refine starts.doesOn on rfl ?_
  obtain ⟨u, begun⟩ : ∃ u, u = s.modHead t h q fun e => { e with
    started := some (e.started.getD s.tray.now), waitFrom := none } := ⟨_, rfl⟩
  have stillBegun : ∀ k c, u.headCmd t h k = some c → c.moving = false := by
    intro k c head
    by_cases own : k = q
    · rw [own, begun, State.modHead_headCmd, starts.head] at head
      cases head
      change ((decide (e.op = 0x05) || decide (e.op = 0x06) || decide (e.op = 0x0C)) && true) = false
      rw [starts.op]
      rfl
    · refine still k c ?_
      rw [← head, begun]
      unfold State.headCmd State.modHead
      rw [State.modQueue_queue?, if_neg (by simp [own])]
  have idle := State.evictRunning_idle (s := u) (d := d) (by rw [begun]; exact noRun) stillBegun
  have noneInHand : ¬ ((List.range 8).any fun k => 0 < ((u.evictRunning d t h).die d).til.inHand t h k) = true := by
    rw [List.any_eq_true]
    rintro ⟨k, -, units⟩
    have engines : (u.die d).til.engines = (s.die d).til.engines := by rw [begun]; rfl
    have none : ((u.evictRunning d t h).die d).til.inHand t h k = 0 := by
      rw [← noUnit k]
      unfold Tiles.inHand
      rw [idle.2, engines]
    rw [none] at units
    cases units
  dsimp only
  rw [← begun, if_neg noneInHand]
  obtain ⟨away, slots⟩ := State.leaveDie_spec (u.evictRunning d t h) d t h
  constructor
  · intro keeps
    rw [if_neg (by omega)]
    exact ⟨_, rfl, away, slots⟩
  · intro destroys
    rw [if_pos destroys]
    refine ⟨State.setCtxs_del .., fun o held => slots o ?_⟩
    rwa [State.dropQueues_die, State.ends_die] at held

end

/-- Settles O52: each operation acts on the context and its die before the one completion, which leaves the dies. -/
theorem contextCommands : Obligations.ContextCommands := by
  unfold Obligations.ContextCommands
  exact ⟨fun _ _ _ _ _ _ starts kind on fresh free => does_bind_sram starts kind on fresh free,
    fun _ _ _ _ _ _ _ _ _ starts kind on fresh below owner => does_bind_owned starts kind on fresh below owner,
    fun _ _ _ _ _ starts kind => does_bind_host starts kind,
    fun _ _ _ _ _ _ _ _ _ starts kind resident bound fresh => does_bind_publish starts kind resident bound fresh,
    fun _ _ _ _ _ _ _ starts kind on published fresh => does_bind_shared starts kind on published fresh,
    fun _ _ _ _ _ _ _ starts resident bound => does_unbind starts resident bound,
    fun _ _ _ _ _ _ starts named away => does_reside starts named away,
    fun _ _ _ _ _ _ starts resident => does_reside_resident starts resident,
    fun _ _ _ _ _ _ starts on noRun noUnit still => does_evict starts on noRun noUnit still⟩

end Sys2Proof
end

section
/-! The start of the tray and of a die (19.1 to 19.5). -/

namespace Sys2Proof
open Sys2Proof.Machine

namespace Machine

/-! ### A die that is held off (R528) -/

section
variable (s : State) (d : DieId)

theorem State.failResidents_runs (status : Nat) : ((s.failResidents d status).die d).til.runs = [] := by
  unfold State.failResidents
  extract_lets rs s1 s2 s3
  change (s3.die d).til.runs = []
  rw [State.modDie_die]

theorem State.railsOff_runs (keepVio : Bool) (status : Nat) : ((s.railsOff d keepVio status).die d).til.runs = [] := by
  unfold State.railsOff State.sramLost
  dsimp only
  rw [State.modDie_die, State.modDie_die]
  exact s.failResidents_runs d status

theorem State.railsOff_tray (keepVio : Bool) (status : Nat) : (s.railsOff d keepVio status).tray = s.tray :=
  (s.failResidents_endsWork d status).tray

theorem State.holdOff_heldOff (cause : Nat) : HeldOff d cause s (s.holdOff d cause) := by
  have gone := s.railsOff_gone d true stDiePoweredOff
  have die : (s.holdOff d cause).die d = _ := (State.logDie_die ..).trans (State.modDie_die ..)
  refine ⟨?_, ?_, ?_, ?_, ?_, ?_, ?_⟩
  · rw [die]
  · rw [die]
  · rw [die]
    exact gone.vio
  · rw [die]
    exact ⟨gone.vsram, gone.vcore, gone.vana, gone.vhtr⟩
  · rw [die]
    exact s.railsOff_runs d true stDiePoweredOff
  · rw [die]
  · intro idle
    exact State.modDie_logDie_reported _ d _ 0x6004 _ (by rw [s.railsOff_tray d]; exact idle)

end


/-! ### The boot ROM (R517, R518) -/

section
variable (f : Firmware) (b : Bool)

theorem Firmware.runSlot_runB : (f.runSlot b).runB = b := by
  unfold Firmware.runSlot
  extract_lets u
  split
  · assumption
  · rfl

theorem Firmware.runSlot_restarting : (f.runSlot b).restarting = f.restarting := by
  unfold Firmware.runSlot
  extract_lets u
  have idle : u.restarting = f.restarting := by
    unfold u
    split <;> rfl
  split <;> exact idle

/-- The previous image takes the place of one that fails: it runs, and the slot of the other is invalid. -/
theorem Firmware.fallBack_spec : (((f.runSlot (!b)).setSlot b .invalid).setSlot (!b) .active).runB = (!b) ∧
    (((f.runSlot (!b)).setSlot b .invalid).setSlot (!b) .active).slot b = .invalid ∧
    (((f.runSlot (!b)).setSlot b .invalid).setSlot (!b) .active).restarting = f.restarting := by
  have runs := f.runSlot_runB (!b)
  have idle := f.runSlot_restarting (!b)
  cases b
  · exact ⟨runs, rfl, idle⟩
  · exact ⟨runs, rfl, idle⟩

end

section
variable {s : State} {d : DieId}

/-- A die that is neither latched nor tripped starts with the image. -/
theorem State.imageRuns_free (unlatched : (s.die d).heat.latched = false) (untripped : (s.die d).heat.tripped = false) :
    s.imageRuns.die d = { s.die d with svc := { (s.die d).svc with state := .starting, step := 6, heldOff := false } } := by
  have cold : ¬ ((s.die d).heat.latched = true ∨ (s.die d).heat.tripped = true) := by simp [unlatched, untripped]
  exact (State.allDies_die ..).trans (if_neg cold)

theorem State.imageRuns_held (hot : (s.die d).heat.latched = true ∨ (s.die d).heat.tripped = true) :
    (s.imageRuns.die d).rails.vio = true ∧ (s.imageRuns.die d).heat = (s.die d).heat := by
  have die : s.imageRuns.die d = _ := (State.allDies_die ..).trans (if_pos hot)
  rw [die]
  exact ⟨rfl, rfl⟩

end

theorem does_bootRomStart {s : State} {okA okB b : Bool} (boots : s.mayBoot = true) (active : s.tray.fw.slot b = .active)
    (single : s.tray.fw.slot (!b) ≠ .active) : Does (.bootRomStart okA okB) s fun t =>
      ((if b then okB else okA) = true → t.tray.fw.running = true ∧ t.tray.fw.runB = b ∧
        (∀ d, (s.die d).heat.latched = false → (s.die d).heat.tripped = false → t.die d = { s.die d with svc := { (s.die d).svc with
          state := .starting, step := 6, heldOff := false } }) ∧
        (∀ d, (s.die d).heat.latched = true ∨ (s.die d).heat.tripped = true → (t.die d).rails.vio = true ∧
          (t.die d).heat = (s.die d).heat)) ∧
      ((if b then okB else okA) = false → (if b then okA else okB) = true → s.tray.fw.slot (!b) = .previous →
        t.tray.fw.running = true ∧ t.tray.fw.runB = (!b) ∧ t.tray.fw.slot b = .invalid ∧
        Reported t s 0xF 0x1601 [BitVec.ofNat 8 (b2n b)]) ∧
      ((if b then okB else okA) = false → (if b then okA else okB) = false ∨ s.tray.fw.slot (!b) ≠ .previous →
        t = { s with tray := { s.tray with fw := { s.tray.fw with bootFailed := true } } }) := by
  have which : (s.tray.fw.slotA != .active && s.tray.fw.slotB == .active) = b := by
    cases b
    · have a : s.tray.fw.slotA = .active := active
      rw [a]
      rfl
    · have b : s.tray.fw.slotB = .active := active
      have a : s.tray.fw.slotA ≠ .active := single
      simp [a, b]
  have other : (if (!b) = true then okB else okA) = (if b = true then okA else okB) := by cases b <;> rfl
  change ∃ t, execBootRomStart okA okB s = .next t ∧ _
  unfold execBootRomStart
  rw [if_neg (by rw [boots]; decide)]
  dsimp only
  rw [which]
  refine ⟨_, rfl, fun good => ?_, fun bad good previous => ?_, fun bad shut => ?_⟩
  · rw [if_pos good]
    exact ⟨rfl, Firmware.runSlot_runB .., fun d unlatched untripped => State.imageRuns_free unlatched untripped,
      fun d hot => State.imageRuns_held hot⟩
  · obtain ⟨runs, invalid, idle⟩ := s.tray.fw.fallBack_spec b
    rw [if_neg (by rw [bad]; decide), if_pos ⟨other.trans good, previous⟩]
    refine ⟨?_, ?_, ?_, fun free => State.log_reported _ 0xF 0x1601 _ (idle.trans free)⟩
    · rw [State.logTray, State.log_rest]
      rfl
    · rw [State.logTray, State.log_rest]
      exact runs
    · rw [State.logTray, State.log_rest]
      exact invalid
  · rw [if_neg (by rw [bad]; decide), if_neg]
    · rfl
    · rintro ⟨good, previous⟩
      rcases shut with shut | shut
      · rw [other, shut] at good
        cases good
      · exact shut previous

/-! ### The rails of a die (R66, R70) -/

theorem Rails.allUp_pmbus (r : Rails) (v : Nat) : (r.allUp.pmbus v).vio = true ∧ (r.allUp.pmbus v).vsram = true ∧
    (r.allUp.pmbus v).vcore = true ∧ (r.allUp.pmbus v).vana = true ∧ (r.allUp.pmbus v).vhtr = true := by
  have up : r.allUp = { r with vio := true, vsram := true, vcore := true, vana := true, vhtr := true } := rfl
  rw [up]
  unfold Rails.pmbus
  split <;> exact ⟨rfl, rfl, rfl, rfl, rfl⟩

section
variable {s : State} {d : DieId}

/-- The settings that come into force with a die's start change no other die and take no time. -/
theorem State.loadSettings_others : (s.loadSettings d).tray.now = s.tray.now ∧
    ∀ e, e ≠ d → (s.loadSettings d).die e = s.die e := by
  unfold State.loadSettings
  extract_lets due u wide
  have kept : u.tray.now = s.tray.now ∧ u.dies = s.dies := by
    refine List.foldlRecOn (motive := fun v : State => v.tray.now = s.tray.now ∧ v.dies = s.dies) due _ ⟨rfl, rfl⟩ ?_
    exact fun v keeps r _ => keeps
  unfold State.noStepCheck
  dsimp only
  have same (e : DieId) : u.die e = s.die e := congrArg (fun dies => dies.get e) kept.2
  split
  · refine ⟨(State.log_now ..).trans kept.1, fun e other => ?_⟩
    rw [State.logDie_die, State.modDie_die_ne _ _ _ _ other]
    exact same e
  · refine ⟨kept.1, fun e other => ?_⟩
    rw [State.modDie_die_ne _ _ _ _ other]
    exact same e

theorem does_dieStart {g : Ns} (flows : (if loopB d then s.tray.cool.goodB else s.tray.cool.goodA) = some g)
    (starting : (s.die d).svc.state = .starting) (step : (s.die d).svc.step = 6) (runs : s.tray.fw.running = true)
    (cooled : (s.die d).heat.flowLoss = .none) : Does (.dieStart d) s fun t =>
      g + 200000000 ≤ t.tray.now ∧ (t.die d).svc.step = 7 ∧ (t.die d).rails.vio = true ∧ (t.die d).rails.vsram = true ∧
      (t.die d).rails.vcore = true ∧ (t.die d).rails.vana = true ∧ (t.die d).rails.vhtr = true ∧
      ∀ e, e ≠ d → t.die e = s.die e := by
  change ∃ t, execDieStart d s = .next t ∧ _
  unfold execDieStart
  rw [flows]
  extract_lets x good at_
  unfold good
  dsimp only
  rw [if_neg (by simp [x, starting, step, runs, cooled])]
  obtain ⟨now, others⟩ := State.loadSettings_others (s := s.advanceTo (max at_ (g + 200000000))) (d := d)
  obtain ⟨vio, vsram, vcore, vana, vhtr⟩ := Rails.allUp_pmbus
    { (((s.advanceTo (max at_ (g + 200000000))).loadSettings d).die d).rails with
      retention := (((s.advanceTo (max at_ (g + 200000000))).loadSettings d).die d).heldInRetention, avsGov := false
      avsFault := false, voutMax := 3800, ovLimit := 4000 }
    (vcoreTarget d 15 true (((s.advanceTo (max at_ (g + 200000000))).loadSettings d).die d).op.trim 0)
  refine ⟨_, rfl, ?_, ?_, ?_, ?_, ?_, ?_, ?_, fun e other => ?_⟩
  · change g + 200000000 ≤ ((s.advanceTo (max at_ (g + 200000000))).loadSettings d).tray.now
    rw [now]
    exact Nat.le_trans (Nat.le_max_right ..) (Nat.le_max_right ..)
  · rw [State.railsUp, State.modDie_die]
  · rw [State.railsUp, State.modDie_die]
    exact vio
  · rw [State.railsUp, State.modDie_die]
    exact vsram
  · rw [State.railsUp, State.modDie_die]
    exact vcore
  · rw [State.railsUp, State.modDie_die]
    exact vana
  · rw [State.railsUp, State.modDie_die]
    exact vhtr
  · rw [State.railsUp, State.modDie_die_ne _ _ _ _ other, others e other]
    rfl

/-! ### The governor's firmware and the identity of a die (R521, R532, R533) -/

/-- A die held off from a state that has its tray and its VIO is held off from that one too. -/
theorem heldOff_congr {u v : State} {cause : Nat} (held : HeldOff d cause u v) (tray : u.tray = s.tray)
    (vio : (u.die d).rails.vio = (s.die d).rails.vio) : HeldOff d cause s v :=
  ⟨held.heldOff, held.state, held.vio.trans vio, held.rails, held.runs, held.share,
    fun idle => held.reported (by rw [tray]; exact idle)⟩

theorem does_governorFirmwareLoad {ok : Bool} {digest : List Byte} (starting : (s.die d).svc.state = .starting)
    (step : (s.die d).svc.step = 7) (on : (s.die d).rails.vio = true) : Does (.governorFirmwareLoad d ok digest) s fun t =>
      (ok = true → (t.die d).svc.fwDigest = some digest ∧ (t.die d).svc.fwRelease = s.tray.fw.activeRelease ∧
        (t.die d).svc.heldOff = (s.die d).svc.heldOff ∧ DieOnly d s t) ∧
      (ok = false → (s.die d).svc.fwFails = 0 →
        (t.die d).svc = { (s.die d).svc with fwFails := 1 } ∧ DieOnly d s t) ∧
      (ok = false → (s.die d).svc.fwFails ≠ 0 → HeldOff d 1 s t) := by
  change ∃ t, execGovernorFirmwareLoad d ok digest s = .next t ∧ _
  unfold execGovernorFirmwareLoad
  dsimp only
  rw [if_neg (by simp [starting, step, on])]
  cases ok
  · rw [if_neg (by decide)]
    by_cases first : (s.die d).svc.fwFails = 0
    · rw [if_pos first]
      exact ⟨_, rfl, nofun, fun _ _ => ⟨by rw [State.modDie_die], s.modDie_only ..⟩,
        fun _ again => absurd first again⟩
    · rw [if_neg first]
      exact ⟨_, rfl, nofun, fun _ none => absurd none first, fun _ _ => s.holdOff_heldOff d 1⟩
  · rw [if_pos rfl]
    refine ⟨_, rfl, fun _ => ?_, nofun, nofun⟩
    rw [State.modDie_die]
    exact ⟨rfl, rfl, rfl, s.modDie_only ..⟩

theorem does_dieIdentityCheck {key serial sig m : List Byte} {chains : Bool} (starting : (s.die d).svc.state = .starting)
    (measured : (s.die d).svc.fwDigest = some m) (step : 7 ≤ (s.die d).svc.step) :
    Does (.dieIdentityCheck d key serial sig chains) s fun t =>
      (identityOk d key (s.freeBytes 32).1 serial m sig chains = true →
        (t.die d).svc = { (s.die d).svc with idAccepted := true, govRuns := true, step := 9 } ∧
        t = { s with dies := t.dies, fresh := t.fresh } ∧ ∀ e, e ≠ d → t.die e = s.die e) ∧
      (identityOk d key (s.freeBytes 32).1 serial m sig chains = false → HeldOff d 2 s t) ∧
      (chains = false ∨ bindingEntry serial key ≠ dieEntry d → HeldOff d 2 s t) := by
  change ∃ t, execDieIdentityCheck d key serial sig chains s = .next t ∧ _
  unfold execDieIdentityCheck
  dsimp only
  rw [measured]
  dsimp only
  rw [if_neg (by simp [starting, step])]
  have held : HeldOff d 2 s ((s.freeBytes 32).2.holdOff d 2) := heldOff_congr (State.holdOff_heldOff ..) rfl rfl
  have refuses (wrong : chains = false ∨ bindingEntry serial key ≠ dieEntry d) :
      identityOk d key (s.freeBytes 32).1 serial m sig chains = false := by
    unfold identityOk
    rcases wrong with unchained | other
    · rw [unchained]
      rfl
    · rw [beq_false_of_ne other, Bool.and_false]
  by_cases ok : identityOk d key (s.freeBytes 32).1 serial m sig chains = true
  · rw [if_pos ok]
    refine ⟨_, rfl, fun _ => ⟨by rw [State.modDie_die, ← measured]; rfl, rfl, fun e other => ?_⟩, fun bad => ?_, fun wrong => ?_⟩
    · exact (State.modDie_die_ne _ _ _ _ other).trans rfl
    · rw [ok] at bad
      cases bad
    · rw [refuses wrong] at ok
      cases ok
  · rw [if_neg ok]
    exact ⟨_, rfl, fun good => absurd good ok, fun _ => held, fun _ => held⟩

/-! ### The clocks (R522) -/

/-- Of a die nothing changed but the target of its VCORE and the trim in it. -/
structure MovesVcore (x y : Die) : Prop where
  clk : y.clk = x.clk
  til : y.til = x.til
  svc : y.svc = x.svc
  avsGov : y.rails.avsGov = x.rails.avsGov
  vio : y.rails.vio = x.rails.vio

theorem State.moveVcore_moves (goal : Nat) : MovesVcore (s.die d) ((s.moveVcore d goal).die d) := by
  unfold State.moveVcore
  rw [State.modDie_die]
  split
  · exact ⟨rfl, rfl, rfl, rfl, rfl⟩
  · split
    · exact ⟨rfl, rfl, rfl, rfl, rfl⟩
    · split <;> exact ⟨rfl, rfl, rfl, rfl, rfl⟩

theorem does_clockStart (runs : (s.die d).svc.govRuns = true)
    (starting : (s.die d).svc.state = .starting ∨ (s.die d).svc.warm = true)
    (ready : (s.die d).clk.xaReady = true ∨ (s.die d).clk.xbReady = true) : Does (.clockStart d) s fun t =>
      (t.die d).clk.refInUse = (if (s.die d).clk.refReady (s.die d).clk.preferred = true then (s.die d).clk.preferred
        else (s.die d).clk.preferred.other) ∧
      (t.die d).clk.rlReady = true ∧ (t.die d).clk.opllReady = true ∧ (t.die d).clk.loopA.step = 15 ∧
      (t.die d).clk.loopB.step = 15 ∧ (t.die d).rails.avsGov = true ∧ (t.die d).til = (s.die d).til ∧ DieNoted d s t ∧
      ((t.die d).clk.refInUse ≠ (s.die d).clk.refInUse → s.tray.fw.restarting = false →
        ∃ e ∈ t.tray.mor.reports, e.source = d.val ∧ e.code = 0x5001) := by
  change ∃ t, execClockStart d s = .next t ∧ _
  unfold execClockStart
  extract_lets x c ref s1 s2
  have goes : ¬ ((!x.svc.govRuns) = true ∨ (!(decide (x.svc.state = .starting) || x.svc.warm)) = true ∨
      (!(x.clk.xaReady || x.clk.xbReady)) = true) := by
    rcases starting with h | h <;> rcases ready with k | k <;> simp [x, runs, h, k]
  rw [if_neg (by simpa using goes)]
  have noted : DieNoted d s s2 := by
    unfold s2
    split
    · exact (s.modDie_only ..).noted
    · exact (s.modDie_only ..).noted.trans (State.log_noted ..)
  have die : s2.die d = s1.die d := by
    unfold s2
    split
    · rfl
    · exact State.logClk_die ..
  have moved := State.moveVcore_moves (s := s2) (d := d) (s2.targetAt d 15)
  rw [die, State.modDie_die] at moved
  have refs : ((s2.moveVcore d (s2.targetAt d 15)).die d).clk.refInUse = ref := by
    rw [moved.clk]
    dsimp only
    split <;> rfl
  refine ⟨_, rfl, refs, ?_, ?_, ?_, ?_, moved.avsGov, moved.til, noted.trans (s2.modDie_only ..).noted, ?_⟩
  · rw [moved.clk]
    dsimp only
    split <;> rfl
  · rw [moved.clk]
    dsimp only
    split <;> rfl
  · rw [moved.clk]
    dsimp only
    split <;> rfl
  · rw [moved.clk]
    dsimp only
    split <;> rfl
  · intro changed idle
    have logged : s2 = s1.logClk d 0x5001 := if_neg fun same => changed (refs.trans same)
    obtain ⟨r, listed, source, code, -⟩ := s1.log_reported d.val 0x5001 (leBytes 1 (s1.die d).clk.refStatus ++
      leBytes 2 (s1.die d).clk.computeStatus) idle
    refine ⟨r, ?_, source, code⟩
    change r ∈ s2.tray.mor.reports
    rw [logged]
    exact listed

/-! ### The self-test (R523 to R526) -/

/-- A die whose tiles were tested. -/
structure Tested (failed : Nat) (x y : Die) : Prop where
  selfTested : y.svc.selfTested = true
  failedTiles : y.svc.failedTiles = BitVec.ofNat 136 failed
  rowMap : y.til.rowMap = (List.range 8).map fun row => ((rowFails failed row).head?).getD 16
  sram : y.til.sram = []
  owner : ∀ g, y.til.owner g = .free
  vio : y.rails.vio = x.rails.vio

theorem does_selfTest {failed tested detectors : Nat} {lines : List (Nat × Nat)} (starting : (s.die d).svc.state = .starting)
    (runs : (s.die d).svc.govRuns = true) (on : (s.die d).rails.vcore = true) (fresh : (s.die d).svc.selfTested = false)
    (pass : ∀ i, i < 64 → bit detectors i = true) (fails : failed = tested ||| lineFails lines) :
    Does (.selfTest d tested lines detectors) s fun t =>
      ((∀ y, y < 8 → (rowFails failed y).length ≤ 1) →
        (t.die d).svc.selfTested = true ∧ (t.die d).svc.failedTiles = BitVec.ofNat 136 failed ∧
        (t.die d).til.rowMap = (List.range 8).map (fun y => ((rowFails failed y).head?).getD 16) ∧
        (t.die d).til.sram = [] ∧ (∀ g, (t.die d).til.owner g = .free) ∧ DieOnly d s t) ∧
      ((∃ y, y < 8 ∧ 2 ≤ (rowFails failed y).length) → HeldOff d 3 s t) := by
  change ∃ t, execSelfTest d tested lines detectors s = .next t ∧ _
  unfold execSelfTest
  extract_lets x failed' rows maps s1 passed s2
  rw [if_neg (by simp [x, starting, runs, on, fresh])]
  have same : failed' = failed := fails.symm
  have noneFails : ((List.range 64).filter fun i => !bit detectors i && !x.droop.lineFailed.getLsbD i) = [] := by
    refine List.filter_eq_nil_iff.mpr fun i listed => ?_
    simp [pass i (List.mem_range.mp listed)]
  have unmasked : s2 = s1.unmaskLines d passed := by
    unfold s2
    rw [noneFails]
    rfl
  have first : DieOnly d s s1 := by
    unfold s1 State.loadCoeffs State.modNrg State.sramLost
    exact ((s.modDie_only ..).trans (State.modDie_only ..)).trans (State.modDie_only ..)
  have only : DieOnly d s s2 := by
    rw [unmasked]
    exact first.trans ((s1.modDie_only ..).trans (State.retarget_only ..))
  have tests : Tested failed (s.die d) (s1.die d) := by
    unfold s1 State.loadCoeffs State.modNrg State.sramLost
    rw [State.modDie_die, State.modDie_die, State.modDie_die]
    refine ⟨rfl, congrArg (BitVec.ofNat 136) same, ?_, rfl, fun _ => rfl, rfl⟩
    unfold maps rows
    rw [same, List.map_map]
    rfl
  have done : Tested failed (s.die d) (s2.die d) := by
    rw [unmasked]
    unfold State.unmaskLines State.retarget
    generalize State.targetAt _ d _ = goal
    have moved := State.moveVcore_moves (s := s1.modDie d fun x => { x with droop := { x.droop with
      lineFailed := x.droop.lineFailed &&& ~~~passed, lineFailed2 := x.droop.lineFailed2 &&& ~~~passed
      masked := x.droop.masked &&& ~~~passed } }) (d := d) goal
    rw [State.modDie_die] at moved
    exact ⟨(congrArg Service.selfTested moved.svc).trans tests.selfTested,
      (congrArg Service.failedTiles moved.svc).trans tests.failedTiles, (congrArg Tiles.rowMap moved.til).trans tests.rowMap,
      (congrArg Tiles.sram moved.til).trans tests.sram, fun g => (congrArg (fun x => Tiles.owner x g) moved.til).trans (tests.owner g),
      moved.vio.trans tests.vio⟩
  have two : rows.any (fun l => decide (2 ≤ l.length)) = true ↔ ∃ y, y < 8 ∧ 2 ≤ (rowFails failed y).length := by
    unfold rows
    rw [same]
    simp
  refine ⟨_, rfl, fun single => ?_, fun double => ?_⟩
  · rw [if_neg]
    · exact ⟨done.selfTested, done.failedTiles, done.rowMap, done.sram, done.owner, only⟩
    · rw [two]
      rintro ⟨y, below, double⟩
      have := single y below
      omega
  · rw [if_pos (two.mpr double)]
    exact heldOff_congr (s2.holdOff_heldOff d 3) (by rw [only.rest]) done.vio

/-! ### A late step, and a die that is ready (R514, R528) -/

theorem does_startStepLate (starting : (s.die d).svc.state = .starting) : Does (.startStepLate d) s fun t =>
    ((s.die d).svc.lateOnce = false → (t.die d).svc.state = .starting ∧ (t.die d).svc.step = 6 ∧
      (t.die d).svc.lateOnce = true ∧ (t.die d).rails.vio = false) ∧
    ((s.die d).svc.lateOnce = true → HeldOff d 5 s t) := by
  change ∃ t, execStartStepLate d s = .next t ∧ _
  unfold execStartStepLate
  dsimp only
  rw [if_neg (not_not_intro starting)]
  by_cases late : (s.die d).svc.lateOnce = true
  · rw [if_pos late]
    refine ⟨_, rfl, fun first => ?_, fun _ => s.holdOff_heldOff d 5⟩
    rw [late] at first
    cases first
  · rw [if_neg late]
    refine ⟨_, rfl, fun _ => ?_, fun again => absurd again late⟩
    unfold State.powerCycle
    rw [State.modDie_die, State.modDie_die]
    exact ⟨rfl, rfl, rfl, (s.railsOff_gone d false stDiePoweredOff).vio⟩

theorem does_dieReady (ready : s.readyNow d = true) (starting : (s.die d).svc.state = .starting) :
    Does (.dieReady d) s fun t =>
      (t.die d).svc = { (s.die d).svc with state := .running, step := 0, lateOnce := false, tripRestart := false } ∧
      ((s.die d).svc.tripRestart = false →
        t.die d = { s.die d with svc := { (s.die d).svc with
          state := .running, step := 0, lateOnce := false, tripRestart := false } } ∧ DieOnly d s t) ∧
      ((s.die d).svc.tripRestart = true → s.tray.fw.restarting = false →
        ∃ e ∈ t.tray.mor.reports, e.source = d.val ∧ e.code = 0x2307) := by
  change ∃ t, execDieReady d s = .next t ∧ _
  unfold execDieReady
  extract_lets v s1
  rw [if_neg (by rw [ready]; decide), if_pos starting]
  have die : s1.die d = _ := State.modDie_die ..
  by_cases tripped : (s.die d).svc.tripRestart = true
  · rw [if_pos tripped]
    unfold State.heat
    dsimp only
    rw [if_neg (by decide)]
    unfold State.heatEvent
    refine ⟨_, rfl, ?_, fun clean => ?_, fun _ idle => ?_⟩
    · rw [State.logDie_die, State.noticeDie_die, die]
    · rw [tripped] at clean
      cases clean
    · have free : (s1.noticeDie d 1 7).tray.fw.restarting = false := by
        rw [(State.noticeDie_tells ..).tray]
        exact idle
      obtain ⟨r, listed, source, code, -⟩ := (s1.noticeDie d 1 7).log_reported d.val (0x2300 + 7) _ free
      exact ⟨r, listed, source, code⟩
  · rw [if_neg tripped]
    exact ⟨_, rfl, by rw [die], fun _ => ⟨die, s.modDie_only ..⟩, fun again => absurd again tripped⟩

end

end Machine

/-- Settles O55: a step of the start acts on its die alone, and every failure holds the die off the one way. -/
theorem startUp : Obligations.StartUp := by
  unfold Obligations.StartUp
  exact ⟨fun _ _ _ _ boots active single => does_bootRomStart boots active single,
    fun _ _ _ flows starting step runs cooled => does_dieStart flows starting step runs cooled,
    fun _ _ _ _ starting step on => does_governorFirmwareLoad starting step on,
    fun _ _ _ _ _ _ _ starting measured step => does_dieIdentityCheck starting measured step,
    fun _ _ runs starting ready => does_clockStart runs starting ready,
    fun _ _ _ _ _ _ starting runs on fresh pass fails => does_selfTest starting runs on fresh pass fails,
    fun _ _ starting => does_startStepLate starting, fun _ _ ready starting => does_dieReady ready starting⟩

end Sys2Proof
end

section
/-! TRAY_READY, the vault restore and the restart of the tray controller (19.1, 20.4, 23.3). -/

namespace Sys2Proof
open Sys2Proof.Machine

namespace Machine

/-! ### The tray is ready (R515) -/

/-- Die d is ready. -/
def State.isUp (s : State) (d : DieId) : Prop := (s.die d).svc.state = .running ∨ (s.die d).svc.state = .frost

theorem does_trayReady {s : State} (waits : s.tray.fw.trayReady = false) (runs : s.tray.fw.running = true)
    (powered : s.tray.pow.down = false) (one : ∃ d, s.isUp d) : Does .trayReady s fun t =>
      t.tray.fw = { s.tray.fw with trayReady := true } ∧ t.dies = s.dies ∧
      ((∀ d, (s.die d).svc.state = .running ∨ (s.die d).svc.state = .frost ∨ (s.die d).svc.heldOff = true) →
        t.tray.now = s.tray.now) ∧
      ((∃ d, (s.die d).svc.state ≠ .running ∧ (s.die d).svc.state ≠ .frost ∧ (s.die d).svc.heldOff = false) →
        s.tray.fw.startAt + 12000000000 ≤ t.tray.now) ∧
      (s.tray.hold.restoring = false → t.tray.hold.save = none) := by
  change ∃ t, execTrayReady s = .next t ∧ _
  unfold execTrayReady
  extract_lets up every start s1 held
  have upOf (d : DieId) : up d = true ↔ s.isUp d := by simp [up, State.isUp]
  have anyUp : (List.finRange 8).any up = true := by
    obtain ⟨d, ready⟩ := one
    exact List.any_eq_true.mpr ⟨d, List.mem_finRange d, (upOf d).mpr ready⟩
  rw [if_neg (by simp [waits, runs, powered, anyUp])]
  have kept : s1.tray.fw = s.tray.fw ∧ s1.dies = s.dies ∧ s1.tray.hold = s.tray.hold := by
    unfold s1
    split <;> exact ⟨rfl, rfl, rfl⟩
  refine ⟨_, rfl, congrArg (fun f : Firmware => { f with trayReady := true }) kept.1, kept.2.1, fun all => ?_,
    fun waiting => ?_, fun noRestore => ?_⟩
  · have everyUp : every = true := by
      refine List.all_eq_true.mpr fun d _ => ?_
      rw [Bool.or_eq_true, upOf, State.isUp, or_assoc]
      exact all d
    have atOnce : s1 = s := if_pos everyUp
    change s1.tray.now = s.tray.now
    rw [atOnce]
  · have notEvery : ¬ every = true := by
      obtain ⟨d, notRunning, notFrost, starts⟩ := waiting
      intro all
      have one := List.all_eq_true.mp all d (List.mem_finRange d)
      rw [Bool.or_eq_true, upOf, State.isUp, starts] at one
      simp [notRunning, notFrost] at one
    have late : s1 = s.advanceTo (start + 12000000000) := if_neg notEvery
    change s.tray.fw.startAt + 12000000000 ≤ s1.tray.now
    rw [late]
    exact Nat.le_trans (Nat.add_le_add_right (Nat.le_max_left ..) _) (Nat.le_max_right ..)
  · refine if_neg ?_
    rw [kept.2.2, noRestore]
    decide

/-! ### The vault restore (R565, R566) -/

theorem State.modHold_die (s : State) (f : HoldUp → HoldUp) (d : DieId) : (s.modHold f).die d = s.die d := rfl

theorem State.sramWrite_tray (s : State) (d : DieId) (a : Nat) (bs : List Byte) : (s.sramWrite d a bs).tray = s.tray :=
  (s.sramWrite_endsWork d a bs).tray

theorem does_vaultRestore {s : State} {v : VaultSave} {g : SavedGranule} (saved : s.tray.hold.save = some v)
    (due : s.tray.hold.restoring = true) (single : v.granules = [g])
    (tested : (s.die (dieOf g.die)).svc.selfTested = true) (serves : (s.die (dieOf g.die)).svc.heldOff = false) :
    Does .vaultRestore s fun t =>
      t.tray.hold = { s.tray.hold with restoring := false, save := none } ∧
      (g.tagOk = true → (t.die (dieOf g.die)).til.owner g.granule = .held g.tenant) ∧
      (g.tagOk = false → t.dies = s.dies ∧ Reported t s 0xF 0x1403 ([BitVec.ofNat 8 g.die] ++ leBytes 2 g.granule)) := by
  change ∃ t, execVaultRestore s = .next t ∧ _
  unfold execVaultRestore
  rw [saved]
  dsimp only
  rw [single, if_neg (by simp [due, tested]), List.foldl_cons, List.foldl_nil]
  unfold State.restoreGranule
  dsimp only
  rw [if_neg (by simp [tested, serves])]
  by_cases good : g.tagOk = true
  · rw [if_neg (by simp [good])]
    have written : (g.cells.foldl (fun u c => u.sramWrite (dieOf g.die) c.1 [c.2]) s).tray = s.tray :=
      List.foldlRecOn (motive := fun u : State => u.tray = s.tray) g.cells _ rfl fun u keeps c _ =>
        (u.sramWrite_tray ..).trans keeps
    refine ⟨_, rfl, congrArg (fun y : Tray => { y.hold with restoring := false, save := none }) written, fun _ => ?_,
      fun bad => ?_⟩
    · rw [State.modHold_die, State.modDie_die]
      exact Tiles.owner_setOwner ..
    · rw [good] at bad
      cases bad
  · rw [if_pos (by simp [good])]
    refine ⟨_, rfl, ?_, fun fine => absurd fine good, fun _ => ⟨?_, fun idle => State.log_reported s 0xF 0x1403 _ idle⟩⟩
    · rw [State.logTray, State.log_rest]
      rfl
    · rw [State.logTray, State.log_rest]
      rfl

/-! ### The restart of the tray controller (R519, R611) -/

theorem State.allMasters_master (s : State) (f : Master → Master) (n : MasterId) : (s.allMasters f).master n = f (s.master n) := by
  simp [State.allMasters, State.master, vec_get, Vector.getElem_map]

theorem State.allPfs_master (s : State) (f : PF → PF) (n : MasterId) : (s.allPfs f).master n = s.master n := rfl

theorem does_lockstepMismatch {s : State} (enabled : s.tray.pow.trayEn = true) (powered : s.tray.pow.busFrom.isSome = true)
    (runs : s.tray.fw.restarting = false) (boots : s.tray.fw.bootFailed = false) : Does .lockstepMismatch s fun t =>
      (s.tray.fw.running = true → t.tray.fw.restarting = true ∧ t.tray.fw.restarts = s.tray.now :: s.tray.fw.restarts ∧
        t.tray.leg = { s.tray.leg with acks := [] } ∧
        (∀ n, (t.master n).session = none ∧ (t.master n).queue = [] ∧ (t.master n).subs = []) ∧ t.dies = s.dies) ∧
      (s.tray.fw.running = false → t = { s with tray := { s.tray with fw := { s.tray.fw with
        lockMiss := s.tray.fw.lockMiss + 1, bootFailed := decide (1 ≤ s.tray.fw.lockMiss) } } }) := by
  change ∃ t, execLockstepMismatch s = .next t ∧ _
  unfold execLockstepMismatch
  rw [if_neg (by simpa [enabled, runs, boots] using Option.isSome_iff_ne_none.mp powered)]
  cases image : s.tray.fw.running
  · rw [if_pos (show (!false) = true from rfl)]
    exact ⟨_, rfl, nofun, fun _ => rfl⟩
  · rw [if_neg (by decide)]
    refine ⟨_, rfl, fun _ => ⟨rfl, rfl, rfl, fun n => ?_, rfl⟩, nofun⟩
    rw [State.allPfs_master, State.allMasters_master]
    exact ⟨rfl, rfl, rfl⟩

theorem does_trayControllerRestartDone {s : State} (restarts : s.tray.fw.restarting = true) :
    Does .trayControllerRestartDone s fun t =>
      t.tray.fw.restarting = false ∧ t.tray.fw.runB = (s.tray.fw.slotB == .active) ∧ t.dies = s.dies ∧
      ∃ r ∈ t.tray.mor.reports, r.source = 0xF ∧ r.code = 0x1502 ∧ r.detail = leBytes 2 (min s.tray.fw.lostReports 65535) := by
  change ∃ t, execTrayControllerRestartDone s = .next t ∧ _
  unfold execTrayControllerRestartDone
  extract_lets b s1
  rw [if_neg (by simp [restarts])]
  have image : s1.tray.fw.runB = b := by
    change (if s.tray.fw.runB = b then s.tray.fw else s.tray.fw.runSlot b).runB = b
    split
    · assumption
    · exact Firmware.runSlot_runB ..
  refine ⟨_, rfl, ?_, ?_, ?_, s1.log_reported 0xF 0x1502 _ rfl⟩
  · rw [State.logTray, State.log_rest]
    rfl
  · rw [State.logTray, State.log_rest]
    exact image
  · rw [State.logTray, State.log_rest]
    rfl

end Machine

/-- Settles O56: TRAY_READY waits only for dies that still start, and a restart clears what the tray controller holds, not the
dies. -/
theorem trayStartAndRestart : Obligations.TrayStartAndRestart := by
  unfold Obligations.TrayStartAndRestart
  exact ⟨fun _ waits runs powered one => does_trayReady waits runs powered one,
    fun _ _ _ saved due single tested serves => does_vaultRestore saved due single tested serves,
    fun _ enabled powered runs boots => does_lockstepMismatch enabled powered runs boots,
    fun _ restarts => does_trayControllerRestartDone restarts⟩

end Sys2Proof
end

section
/-! Entry into Frost and end of a thaw (20.1). -/

namespace Sys2Proof
open Sys2Proof.Machine

namespace Machine

variable (s : State) (d : DieId)

/-! ### Entry (R541 to R543) -/

theorem does_haltPointsReached (pending : (s.die d).frost.state = .stopPending)
    (halted : ∀ r ∈ (s.die d).til.runs, r.halted = true) : Does (.haltPointsReached d) s fun t =>
      t.die d = { s.die d with frost := { (s.die d).frost with state := .entering, enterAt := s.tray.now } } ∧
      DieOnly d s t := by
  change ∃ t, execHaltPointsReached d s = .next t ∧ _
  unfold execHaltPointsReached
  dsimp only
  rw [if_pos ⟨pending, List.all_eq_true.mpr halted⟩]
  exact ⟨_, rfl, s.modDie_die d _, s.modDie_only d _⟩

/-- Flows that only transit a die are lost without touching more than its fabric (R338). -/
theorem State.loseTransits_ports (cause : Nat) (tr : Transit → Bool) :
    PortsOnly d s (s.loseFlows d cause (fun _ => false) (fun _ => false) tr) := by
  unfold State.loseFlows
  rw [List.filter_eq_nil_iff.mpr fun _ _ => Bool.false_ne_true, List.filter_eq_nil_iff.mpr fun _ _ => Bool.false_ne_true]
  exact .foldl (fun _ _ => State.loseTransit_ports ..) _ s

/-- Ports that go LOW change nothing of their die but its fabric (R345). -/
theorem State.portsLow_ports : PortsOnly d s (s.portsLow d) := by
  unfold State.portsLow
  dsimp only
  refine (PortsOnly.foldl (fun u p => ?_) _ s).trans (State.loseTransits_ports ..)
  exact .ite (((State.stopCal_ports ..).trans (State.sendHop_ports ..)).trans (State.modPort_ports ..)) (.refl ..)

theorem State.followCharge_die : s.followCharge.die d = s.die d := by
  rw [State.followCharge, State.modTray_die]

theorem does_frozen (entering : (s.die d).frost.state = .entering) (idle : ∀ e ∈ (s.die d).til.engines, e.unit = none)
    (stays : (s.die d).frost.thawKept = false) : Does (.frozen d) s fun t =>
      (t.die d).frost.state = .frozen ∧ (t.die d).svc.state = .frost ∧ (t.die d).rails.vcore = false ∧
      (t.die d).rails.retention = true ∧ (t.die d).clk.enablesKept = some (s.die d).clk.enables ∧
      (t.die d).frost.entries = satAdd 32 (s.die d).frost.entries 1 ∧ (t.die d).til.sram = (s.die d).til.sram := by
  change ∃ t, execFrozen d s = .next t ∧ _
  unfold execFrozen
  extract_lets x s1 s2
  have low : s1.die d = { s.die d with fab := (s1.die d).fab } := (s.portsLow_ports d).die
  have same : s2.followCharge.die d = s2.die d := s2.followCharge_die d
  have kept : s2.followCharge.frostFollow d = s2.followCharge := by
    have single : (s2.die d).frost.thawKept = false := by
      unfold s2
      rw [State.modDie_die, low]
      exact stays
    unfold State.frostFollow
    dsimp only
    rw [same, single]
    exact if_neg fun follows => Bool.false_ne_true follows.2.1
  have free : ¬(x.frost.state ≠ .entering ∨ (x.til.engines.any fun e => e.unit.isSome) = true) := by
    rw [List.any_eq_true]
    rintro (h | ⟨e, mem, busy⟩)
    · exact h entering
    · rw [idle e mem] at busy
      exact Bool.false_ne_true busy
  rw [if_neg free]
  refine ⟨_, rfl, ?_⟩
  rw [kept, same, State.modDie_die, low]
  exact ⟨rfl, rfl, rfl, rfl, rfl, rfl, rfl⟩

theorem does_frostEntryTimeout (pending : (s.die d).frost.state = .stopPending) (command : (s.die d).frost.cause = .command)
    (short : ∃ r ∈ (s.die d).til.runs, r.halted = false) : Does (.frostEntryTimeout d) s fun t =>
      (s.die d).frost.requestAt + 100000000 ≤ t.tray.now ∧
      t.die d = { s.die d with
        frost := { (s.die d).frost with state := .running }
        til := { (s.die d).til with runs := (s.die d).til.runs.map fun r => { r with stop := .none, halted := false } } } ∧
      Reported t s d.val 0x7001 [] ∧ DieNoted d s t := by
  change ∃ t, execFrostEntryTimeout d s = .next t ∧ _
  unfold execFrostEntryTimeout State.cancelFrost
  dsimp only
  obtain ⟨r, mem, runs⟩ := short
  rw [if_pos ⟨pending, command, List.any_eq_true.mpr ⟨r, mem, by rw [runs]; rfl⟩⟩]
  refine ⟨_, rfl, ?_, ?_, ?_, ?_⟩
  · rw [State.logDie, State.log_now]
    exact s.advanceTo_now _
  · rw [State.logDie_die, State.modDie_die]
    rfl
  · exact State.modDie_logDie_reported (s.advanceTo _) d _ 0x7001 []
  · exact ((s.advanceTo_noted d _).trans (State.modDie_only ..).noted).trans (State.log_noted ..)

/-- What the deadline of a bus loss does to a die: every plan that still runs ends, and stage 2 begins (R543). -/
def State.haltAtDeadline (s : State) (d : DieId) : State :=
  let x := s.die d
  if x.frost.state ≠ .stopPending ∨ x.frost.cause ≠ .holdup then s
  else ((x.til.runs.filter fun r => !r.halted).foldl (fun s r =>
    s.endRun d r.tenant r.handle r.queue stHalted 1) s).enterStage2 d

theorem State.haltAtDeadline_frame : (s.haltAtDeadline d).tray = s.tray ∧ ∀ e, e ≠ d → (s.haltAtDeadline d).die e = s.die e := by
  unfold State.haltAtDeadline
  dsimp only
  split
  · exact ⟨rfl, fun _ _ => rfl⟩
  · have ended := EndsWork.foldl (d := d) (f := fun s r => s.endRun d r.tenant r.handle r.queue stHalted 1)
      (fun u r => u.endRun_endsWork d ..) ((s.die d).til.runs.filter fun r => !r.halted) s
    refine ⟨ended.tray, fun e other => ?_⟩
    unfold State.enterStage2
    rw [State.modDie_die_ne _ _ _ _ other]
    exact ended.others e other

theorem State.haltAtDeadline_enters (pending : (s.die d).frost.state = .stopPending) (holdup : (s.die d).frost.cause = .holdup) :
    ((s.haltAtDeadline d).die d).frost.state = .entering := by
  unfold State.haltAtDeadline State.enterStage2
  dsimp only
  rw [if_neg (by simp [pending, holdup]), State.modDie_die]

/-- The runtime that a time on record asks for is reached (R612). -/
theorem State.accNow_reaches (t : Ns) : t ≤ (s.modTray fun y => { y with now := y.now + (t - s.accNow) }).accNow := by
  change t ≤ s.tray.accBase + (s.tray.now + (t - s.accNow))
  rw [← Nat.add_assoc]
  exact Nat.sub_le_iff_le_add'.mp (Nat.le_refl _)

theorem State.accNow_congr {u v : State} (tray : u.tray = v.tray) : u.accNow = v.accNow := by
  rw [State.accNow, tray]
  rfl

theorem does_frostHaltDeadline (holds : s.tray.hold.onHoldup = true) : Does .frostHaltDeadline s fun t =>
    s.tray.hold.holdAt + 1500000 ≤ t.accNow ∧
    ∀ d, (s.die d).frost.state = .stopPending → (s.die d).frost.cause = .holdup → (t.die d).frost.state = .entering := by
  change ∃ t, execFrostHaltDeadline s = .next t ∧ _
  have same : execFrostHaltDeadline s = .next ((s.modTray fun y => { y with
      now := y.now + (s.tray.hold.holdAt + 1500000 - s.accNow) }).forDies State.haltAtDeadline) := by
    unfold execFrostHaltDeadline State.haltAtDeadline
    rw [if_neg (by simp [holds])]
  obtain ⟨tray, dies⟩ := State.forDies_die (R := fun u v => v.tray = u.tray) (f := State.haltAtDeadline) (fun _ => rfl)
    (fun _ _ _ h k => k.trans h) (fun u d => (u.haltAtDeadline_frame d).1) (fun u d => (u.haltAtDeadline_frame d).2)
    (s.modTray fun y => { y with now := y.now + (s.tray.hold.holdAt + 1500000 - s.accNow) })
  refine ⟨_, same, ?_, fun d pending holdup => ?_⟩
  · exact le_of_le_of_eq (s.accNow_reaches _) (State.accNow_congr tray).symm
  · obtain ⟨u, -, before, own⟩ := dies d
    rw [State.modTray_die] at before
    rw [own]
    exact u.haltAtDeadline_enters d (before ▸ pending) (before ▸ holdup)

/-! ### The end of a thaw (R544 to R547) -/

theorem State.feedOne_runs (e : Nat) : RunsStay d s (s.feedOne d e) := by
  unfold State.feedOne
  dsimp only
  split
  · exact rfl
  · split
    · exact rfl
    · split
      · exact rfl
      · split
        · exact rfl
        · unfold RunsStay
          rw [State.modDie_die]
          rfl

theorem State.feedEngines_runs : RunsStay d s (s.feedEngines d) := by
  have all (l : List Nat) (s : State) : RunsStay d s (l.foldl (fun s e => s.feedOne d e) s) := by
    induction l generalizing s with
    | nil => exact rfl
    | cons e l ih => exact (s.feedOne_runs d e).trans (ih _)
  unfold State.feedEngines
  split
  · exact all _ s
  · exact rfl

theorem State.feedOne_tray (e : Nat) : (s.feedOne d e).tray = s.tray := by
  unfold State.feedOne
  dsimp only
  split
  · rfl
  · split
    · rfl
    · split
      · rfl
      · split <;> rfl

theorem State.feedEngines_tray : (s.feedEngines d).tray = s.tray := by
  unfold State.feedEngines
  split
  · generalize List.range 8 = l
    exact List.foldlRecOn (motive := fun u : State => u.tray = s.tray) l _ rfl
      fun u same e _ => (u.feedOne_tray d e).trans same
  · rfl

/-- The plans of a die run on after a thaw, from a time on. -/
def Die.resumed (x : Die) (now : Ns) : List Run :=
  x.til.runs.map fun r => { r with stop := .none, halted := false, clockAt := now }

/-- A die that runs on after a thaw, under an armed window of 2 µs. -/
def Die.resume (x : Die) (now : Ns) : Die :=
  { x with
    frost := { x.frost with state := .running }
    svc := { x.svc with state := .running }
    til := { x.til with runs := x.resumed now }
    droop := { x.droop with armed := x.droop.armed ++ [⟨none, some (now + 2000)⟩] } }

/-- What a thaw that has ended leaves of its die: it runs, and its plans run on. -/
structure Thawed (x y : Die) (now : Ns) : Prop where
  frost : y.frost = { x.frost with state := .running }
  svc : y.svc.state = .running
  runs : y.til.runs = x.resumed now

theorem Thawed.steers {x y z : Die} {now : Ns} (h : Thawed x y now) (k : Steers y z) : Thawed x z now :=
  ⟨by rw [k]; exact h.frost, by rw [k]; exact h.svc, by rw [k]; exact h.runs⟩

/-- A request that meets a running die enters, by the halt points of its plans (R541). -/
theorem State.requestFrost_running (cause : FrostCause) (runs : (s.die d).svc.state = .running)
    (thawed : (s.die d).frost.state = .running) : (s.requestFrost d cause).die d = { s.die d with
      frost := { (s.die d).frost with
        state := if (s.die d).til.runs.isEmpty then .entering else .stopPending
        cause := cause, requestAt := s.tray.now, enterAt := s.tray.now, thawKept := false }
      til := { (s.die d).til with runs := (s.die d).til.runs.map fun r => { r with stop := .haltPoint } } } := by
  unfold State.requestFrost
  dsimp only
  rw [if_neg (by simp [runs]), thawed]
  exact s.modDie_die d _

theorem State.requestFrost_now (cause : FrostCause) : (s.requestFrost d cause).tray = s.tray := by
  unfold State.requestFrost
  dsimp only
  split
  · rfl
  · split <;> rfl

theorem does_thawEnd (thawing : (s.die d).frost.state = .thawing) : Does (.thawEnd d) s fun t =>
    (s.die d).frost.thawAt + 400000 ≤ t.tray.now ∧ (t.die d).svc.state = .running ∧
    ((s.die d).frost.entryKept = false → (t.die d).frost.state = .running ∧
      (∀ r ∈ (t.die d).til.runs, r.stop = .none ∧ r.halted = false) ∧
      (t.die d).til.runs.length = (s.die d).til.runs.length) ∧
    ((s.die d).frost.entryKept = true →
      (t.die d).frost.state = (if (s.die d).til.runs.isEmpty then .entering else .stopPending) ∧
      ∀ r ∈ (t.die d).til.runs, r.stop = .haltPoint) := by
  change ∃ t, execThawEnd d s = .next t ∧ _
  unfold execThawEnd
  extract_lets x s0 now g c hit s1 u0 u1 s2
  have switched : Steered d s0 s1 := by
    unfold s1
    split
    · exact s0.modClk_steered ..
    · split
      · exact s0.modClk_steered ..
      · exact (s0.modClk_steered ..).trans (State.clockFault_steered ..)
  have clocks : s1.tray.now = now := switched.now
  have resumed : Thawed (s.die d) (u0.die d) now ∧ u0.tray.now = now := by
    have start : Thawed (s.die d) (Die.resume (s1.die d) now) now := by
      have before : Steers (s.die d) (s1.die d) := switched.die
      rw [before]
      exact ⟨rfl, rfl, rfl⟩
    refine ⟨start.steers ?_, ?_⟩
    · have steers := (State.retarget_urged (s1.modDie d fun x => x.resume now) d).die
      rw [State.modDie_die] at steers
      exact steers
    · unfold u0
      rw [(State.retarget_urged ..).rest]
      exact clocks
  have runsOn : Thawed (s.die d) (u1.die d) now ∧ u1.tray.now = now := by
    unfold u1
    split
    · have steers := u0.urgent_urged d (s0.ceiling d)
      refine ⟨resumed.1.steers steers.die, ?_⟩
      rw [steers.rest]
      exact resumed.2
    · exact resumed
  have fed : Thawed (s.die d) (s2.die d) now ∧ s2.tray.now = now := by
    have only := (u1.shiftWaits d).feedEngines_only d
    have runs := (u1.shiftWaits d).feedEngines_runs d
    refine ⟨⟨?_, ?_, Eq.trans runs runsOn.1.runs⟩, ?_⟩
    · unfold s2
      rw [only.die]
      exact runsOn.1.frost
    · unfold s2
      rw [only.die]
      exact runsOn.1.svc
    · unfold s2
      rw [State.feedEngines_tray]
      exact runsOn.2
  obtain ⟨⟨frost, svc, runs⟩, reached⟩ := fed
  rw [if_neg (not_not_intro thawing)]
  have due : (s.die d).frost.thawAt + 400000 ≤ now := s.advanceTo_now _
  by_cases again : x.frost.entryKept = true
  · rw [if_pos again]
    refine ⟨_, rfl, ?_⟩
    rw [State.requestFrost_now, State.modDie_tray, reached, State.requestFrost_running, State.modDie_die]
    · refine ⟨due, svc, fun h => absurd (h.symm.trans again) Bool.false_ne_true, fun _ => ⟨?_, ?_⟩⟩
      · dsimp only
        rw [runs, Die.resumed, List.isEmpty_map]
      · intro r mem
        obtain ⟨_, -, rfl⟩ := List.mem_map.1 mem
        rfl
    · rw [State.modDie_die]
      exact svc
    · rw [State.modDie_die, frost]
  · rw [if_neg again]
    refine ⟨_, rfl, le_of_le_of_eq due reached.symm, svc, fun _ => ⟨by rw [frost], ?_, ?_⟩, fun h => absurd h again⟩
    · rw [runs]
      intro r mem
      obtain ⟨_, -, rfl⟩ := List.mem_map.1 mem
      exact ⟨rfl, rfl⟩
    · rw [runs]
      exact List.length_map ..

end Machine

/-- Settles O57: entry and end of Frost, by the fact that neither the ports that go LOW nor the steering after a thaw touch the
plans and the Frost part of a die. -/
theorem frostEntryAndThaw : Obligations.FrostEntryAndThaw := by
  unfold Obligations.FrostEntryAndThaw
  exact ⟨fun s d pending halted => does_haltPointsReached s d pending halted,
    fun s d entering idle stays => does_frozen s d entering idle stays,
    fun s d pending command short => does_frostEntryTimeout s d pending command short,
    fun s holds => does_frostHaltDeadline s holds,
    fun s d thawing => does_thawEnd s d thawing⟩

end Sys2Proof
end

section
/-! The hold-up module, the hold and the vault save (20.2 to 20.4). -/

namespace Sys2Proof
open Sys2Proof.Machine

theorem TrayOnly.modHold {s u : State} (only : TrayOnly s u) (f : HoldUp → HoldUp) : TrayOnly s (u.modHold f) := by
  unfold TrayOnly at *
  rw [only]
  rfl

namespace Machine

variable (s : State)

theorem State.modHold_accNow (f : HoldUp → HoldUp) : (s.modHold f).accNow = s.accNow := rfl

/-! ### Availability and fault (R555, R556) -/

theorem State.noticeSupply_tells (code : Nat) : TellsHost s (s.noticeSupply code) :=
  (TellsHost.foldl (fun _ _ => State.notice_tells ..) _ s).trans (State.noticePfs_tells ..)

theorem State.setAvailable_spec (b : Bool) :
    (s.setAvailable b).tray = { s.tray with hold := { s.tray.hold with available := b } } ∧ (s.setAvailable b).dies = s.dies := by
  unfold State.setAvailable
  by_cases same : b = s.tray.hold.available
  · rw [if_pos same, same]
    exact ⟨rfl, rfl⟩
  · rw [if_neg same]
    have told := (s.modHold fun h => { h with available := b }).noticeSupply_tells (if b then 4 else 3)
    exact ⟨told.tray, told.dies⟩

/-- What a fault makes of the hold-up part: the module is not charged and not used. -/
def HoldUp.fault (h : HoldUp) : HoldUp := { h with faulted := true, charging := false, current := 0, available := false }

theorem State.faultModule_spec (works : s.tray.hold.faulted = false) :
    s.faultModule.tray.hold = s.tray.hold.fault ∧ s.faultModule.accNow = s.accNow ∧ s.faultModule.dies = s.dies ∧
    Reported s.faultModule s 0xF 0x1401 (leBytes 2 (s.tray.hold.voltage / 10) ++ leBytes 2 s.tray.hold.capacity) := by
  unfold State.faultModule
  rw [if_neg (by simp [works])]
  generalize leBytes 2 (s.tray.hold.voltage / 10) ++ leBytes 2 s.tray.hold.capacity = detail
  have logged := (s.modHold fun h => { h with faulted := true, charging := false, current := 0 }).log_rest 0xF 0x1401 detail
  obtain ⟨tray, dies⟩ := (((s.modHold fun h => { h with faulted := true, charging := false, current := 0 }).logTray 0x1401
    detail).setAvailable_spec false)
  refine ⟨?_, ?_, ?_, fun idle => ?_⟩
  · rw [tray, State.logTray, logged]
    rfl
  · rw [State.accNow, tray, State.logTray, logged]
    rfl
  · rw [dies, State.logTray, logged]
    rfl
  · rw [tray]
    exact State.log_reported _ 0xF 0x1401 detail idle

theorem does_moduleInserted (ok : Bool) (serial : List Byte) (mv : Nat) (away : s.tray.hold.present = false) :
    Does (.moduleInserted ok serial mv) s fun t =>
      t.tray.hold.present = true ∧ t.tray.hold.since = s.accNow ∧ t.tray.hold.idRead = ok ∧ t.tray.hold.charging = false ∧
      t.tray.hold.serial = (if ok then serial else []) ∧ t.tray.hold.faulted = (!ok) ∧
      (ok = true → TrayOnly s t) ∧ (ok = false → t.tray.hold.available = false) := by
  change ∃ t, execModuleInserted ok serial mv s = .next t ∧ _
  unfold execModuleInserted
  extract_lets s1
  rw [if_neg (by simp [away])]
  cases ok with
  | true => exact ⟨_, rfl, rfl, rfl, rfl, rfl, rfl, rfl, fun _ => rfl, nofun⟩
  | false =>
    have hold := (s1.faultModule_spec rfl).1
    refine ⟨_, rfl, ?_⟩
    rw [if_neg Bool.false_ne_true, hold]
    exact ⟨rfl, rfl, rfl, rfl, rfl, rfl, nofun, fun _ => rfl⟩

/-- The tray when a capacity test has ended, due at a time. -/
def State.tested (s : State) (due : Ns) (mah current : Nat) : State :=
  let s1 := s.modTray fun y => { y with now := y.now + (due - s.accNow) }
  s1.modHold fun h => { h with
    capacity := mah, lastTest := s1.accNow, countedMah := mah - 400, charging := true, current := current }

theorem State.tested_spec (due : Ns) (mah current : Nat) :
    (s.tested due mah current).tray.hold.faulted = s.tray.hold.faulted ∧
    (s.tested due mah current).tray.hold.capacity = mah ∧ due ≤ (s.tested due mah current).accNow ∧
    (s.tested due mah current).dies = s.dies := ⟨rfl, rfl, s.accNow_reaches due, rfl⟩

theorem does_capacityTest (mah rest0 rest1 : Nat) (capacity : mah = capacityOf rest0 rest1)
    (present : s.tray.hold.present = true) (charged : s.tray.hold.charged = true) (works : s.tray.hold.faulted = false)
    (enabled : s.tray.pow.trayEn = true) (powered : s.tray.pow.busLost = false) :
    Does (.capacityTest rest0 rest1) s fun t =>
      t.tray.hold.capacity = mah ∧ t.tray.hold.faulted = decide (mah < 1400) ∧
      s.tray.hold.lastTest + 2592000000000000 ≤ t.accNow ∧ s.tray.hold.chargedAt + 86400000000000 ≤ t.accNow ∧
      t.dies = s.dies := by
  change ∃ t, execCapacityTest rest0 rest1 s = .next t ∧ _
  unfold execCapacityTest
  extract_lets h cap due s1 s2
  rw [if_neg (by simp [h, present, charged, works, enabled, powered])]
  have same : cap = mah := capacity.symm
  have first : s.tray.hold.lastTest + 2592000000000000 ≤ due := Nat.le_max_left ..
  have second : s.tray.hold.chargedAt + 86400000000000 ≤ due := Nat.le_max_right ..
  have tested : s2 = s.tested due cap s.chargeLimit := rfl
  clear_value s2 cap due
  subst same tested
  obtain ⟨faulted, capacity, reached, dies⟩ := s.tested_spec due cap s.chargeLimit
  rw [works] at faulted
  refine ⟨_, rfl, ?_⟩
  by_cases worn : cap < 1400
  · obtain ⟨hold, clock, kept, -⟩ := (s.tested due cap s.chargeLimit).faultModule_spec faulted
    rw [if_pos worn, hold, clock, kept]
    exact ⟨capacity, (decide_eq_true worn).symm, Nat.le_trans first reached, Nat.le_trans second reached, dies⟩
  · rw [if_neg worn]
    exact ⟨capacity, faulted.trans (decide_eq_false worn).symm, Nat.le_trans first reached, Nat.le_trans second reached, dies⟩

theorem does_moduleFault (mv : Nat) (present : s.tray.hold.present = true) (works : s.tray.hold.faulted = false)
    (outside : mv < 20000 ∨ 30000 < mv) : Does (.moduleFault mv) s fun t =>
      t.tray.hold.faulted = true ∧ t.tray.hold.charging = false ∧ t.tray.hold.available = false ∧ t.dies = s.dies ∧
      Reported t s 0xF 0x1401 (leBytes 2 (mv / 10) ++ leBytes 2 s.tray.hold.capacity) := by
  change ∃ t, execModuleFault mv s = .next t ∧ _
  unfold execModuleFault
  rw [if_neg (by simp only [present, Bool.not_true, Bool.false_eq_true, false_or]; omega)]
  obtain ⟨hold, -, dies, told⟩ := (s.modHold fun h => { h with voltage := mv }).faultModule_spec works
  refine ⟨_, rfl, ?_⟩
  rw [hold, dies]
  exact ⟨rfl, rfl, rfl, rfl, told⟩

theorem does_holdupAvailabilityCheck (mah : Nat) : Does (.holdupAvailabilityCheck mah) s fun t =>
    (t.tray.hold.available = true ↔ s.tray.hold.present = true ∧ s.tray.hold.idRead = true ∧
      s.tray.hold.faulted = false ∧ holdCharge (s.setting 0x1400 1 0xF) ≤ (if s.tray.hold.charged then mah else 0)) ∧
    t.dies = s.dies := by
  change ∃ t, execHoldupAvailabilityCheck mah s = .next t ∧ _
  unfold execHoldupAvailabilityCheck
  extract_lets h counted ok
  obtain ⟨tray, dies⟩ := (s.modHold fun h => { h with countedMah := counted }).setAvailable_spec ok
  refine ⟨_, rfl, ?_, dies⟩
  rw [tray]
  change ok = true ↔ _
  simp only [ok, Bool.and_eq_true, Bool.not_eq_true', decide_eq_true_eq, and_assoc]
  exact .rfl

/-! ### The charger (R33, R552, R553, R557) -/

theorem State.chargeLimit_spec :
    ((∀ d, (s.die d).frost.state = .frozen) → s.chargeLimit = min 1000 (10000000 / max 1 s.tray.hold.voltage)) ∧
    ((∃ d, (s.die d).frost.state ≠ .frozen) → s.chargeLimit = 1000) := by
  have frozen : ((List.finRange 8).all fun d => (s.die d).frost.state == .frozen) = true ↔
      ∀ d, (s.die d).frost.state = .frozen := by
    rw [List.all_eq_true]
    exact ⟨fun h d => beq_iff_eq.1 (h d (List.mem_finRange d)), fun h d _ => beq_iff_eq.2 (h d)⟩
  unfold State.chargeLimit
  refine ⟨fun h => if_pos (frozen.2 h), fun ⟨d, runs⟩ => if_neg fun h => runs (frozen.1 h d)⟩

/-- `s`, or what it is when the runtime has reached a time. -/
def State.waitUnless (s : State) (stays : Bool) (due : Ns) : State :=
  if stays then s else s.modTray fun y => { y with now := y.now + (due - s.accNow) }

theorem State.waitUnless_spec (stays : Bool) (due : Ns) : TrayOnly s (s.waitUnless stays due) ∧ (s.waitUnless stays due).dies = s.dies ∧
    (stays = false → due ≤ (s.waitUnless stays due).accNow) := by
  cases stays with
  | true => exact ⟨rfl, rfl, nofun⟩
  | false => exact ⟨rfl, rfl, fun _ => s.accNow_reaches due⟩

theorem does_chargerStart (mv : Nat) (present : s.tray.hold.present = true) (read : s.tray.hold.idRead = true)
    (works : s.tray.hold.faulted = false) (onBus : s.tray.hold.onHoldup = false) (idle : s.tray.hold.charging = false)
    (enabled : s.tray.pow.trayEn = true) (powered : s.tray.pow.busLost = false) (up : s.tray.pow.down = false)
    (low : s.tray.hold.charged = false ∨ mv < 26400) : Does (.chargerStart mv) s fun t =>
      t.tray.hold.charging = true ∧ t.tray.hold.current ≤ 1000 ∧
      ((∀ d, (s.die d).frost.state = .frozen) → t.tray.hold.current * mv ≤ 10000000) ∧
      ((∃ d, (s.die d).frost.state ≠ .frozen) → t.tray.hold.current = 1000) ∧
      (s.tray.hold.charged = false → s.tray.hold.since + 1000000000 ≤ t.accNow) ∧ TrayOnly s t := by
  change ∃ t, execChargerStart mv s = .next t ∧ _
  unfold execChargerStart
  extract_lets h s1 s2
  have idles : ¬(h.charged = true ∧ 26400 ≤ mv) := fun ⟨full, high⟩ =>
    low.elim (fun empty => Bool.false_ne_true (empty.symm.trans full)) fun below => absurd high (Nat.not_le.mpr below)
  rw [if_neg (by simp [h, present, read, works, onBus, idle, enabled, powered, up]; simpa [h] using idles)]
  have waited : s1 = s.waitUnless h.charged (h.since + 1000000000) := rfl
  obtain ⟨only, kept, waits⟩ := s.waitUnless_spec h.charged (h.since + 1000000000)
  rw [← waited] at only kept waits
  clear_value s1
  have dies : s2.dies = s.dies := kept
  have same (d : DieId) : s2.die d = s.die d := by rw [State.die, State.die, dies]
  obtain ⟨frozen, awake⟩ := s2.chargeLimit_spec
  simp only [same] at frozen awake
  have voltage : s2.tray.hold.voltage = mv := rfl
  rw [voltage] at frozen
  refine ⟨_, rfl, rfl, ?_, fun all => ?_, awake, fun empty => ?_, ?_⟩
  · by_cases all : ∀ d, (s.die d).frost.state = .frozen
    · exact Nat.le_trans (Nat.le_of_eq (frozen all)) (Nat.min_le_left ..)
    · exact Nat.le_of_eq (awake (Classical.not_forall.1 all))
  · calc s2.chargeLimit * mv ≤ 10000000 / max 1 mv * max 1 mv :=
          Nat.mul_le_mul (Nat.le_trans (Nat.le_of_eq (frozen all)) (Nat.min_le_right ..)) (Nat.le_max_right ..)
      _ ≤ 10000000 := Nat.div_mul_le_self ..
  · exact le_of_le_of_eq (waits empty) ((s1.modHold_accNow _).symm.trans (s2.modHold_accNow _).symm)
  · exact (only.modHold _).modHold _

theorem does_chargeComplete (ma : Nat) (charging : s.tray.hold.charging = true) (low : ma < 50) :
    Does (.chargeComplete ma) s fun t =>
      t.tray.hold.charging = false ∧ t.tray.hold.current = 0 ∧ t.tray.hold.charged = true ∧
      t.tray.hold.chargedAt = s.accNow ∧ TrayOnly s t := by
  change ∃ t, execChargeComplete ma s = .next t ∧ _
  unfold execChargeComplete
  rw [if_neg (by simp [charging, low])]
  exact ⟨_, rfl, rfl, rfl, rfl, rfl, rfl⟩

theorem does_chargeComplete_high (ma : Nat) (high : 50 ≤ ma) : Does (.chargeComplete ma) s fun t => t = s := by
  change ∃ t, execChargeComplete ma s = .next t ∧ _
  unfold execChargeComplete
  rw [if_pos (.inr high)]
  exact ⟨_, rfl, rfl⟩

theorem does_chargeCurrentCollapse (ma : Nat) : Does (.chargeCurrentCollapse ma) s fun t =>
    (5 * ma < s.tray.hold.current →
      t = { s with tray := { s.tray with hold := { s.tray.hold with charging := false, current := 0 } } }) ∧
    (s.tray.hold.current ≤ 5 * ma → t = s) := by
  change ∃ t, execChargeCurrentCollapse ma s = .next t ∧ _
  unfold execChargeCurrentCollapse
  by_cases draws : s.tray.hold.current ≤ 5 * ma
  · rw [if_pos draws]
    exact ⟨_, rfl, fun below => absurd draws (Nat.not_le.mpr below), fun _ => rfl⟩
  · rw [if_neg draws]
    exact ⟨_, rfl, fun _ => rfl, fun high => absurd high draws⟩

theorem does_moduleFault_inside (mv : Nat) (low : 20000 ≤ mv) (high : mv ≤ 30000) :
    Does (.moduleFault mv) s fun t => t = s := by
  change ∃ t, execModuleFault mv s = .next t ∧ _
  unfold execModuleFault
  rw [if_pos (.inr ⟨low, high⟩)]
  exact ⟨_, rfl, rfl⟩

theorem does_holdupConverterTakeover (mv : Nat) : Does (.holdupConverterTakeover mv) s fun t =>
    t = { s with tray := { s.tray with
      pow := { s.tray.pow with bus12Mv := mv }
      hold := { s.tray.hold with
        converter := (s.tray.hold.available && s.tray.pow.trayEn && decide (mv < 11400)) || s.tray.hold.converter } } } := by
  change ∃ t, execHoldupConverterTakeover mv s = .next t ∧ _
  unfold execHoldupConverterTakeover
  split
  next stays =>
    have off : (s.tray.hold.available && s.tray.pow.trayEn && decide (mv < 11400)) = false := by
      obtain high | off | off := stays
      · rw [decide_eq_false (Nat.not_lt.mpr high), Bool.and_false]
      · rw [show s.tray.hold.available = false by simpa using off, Bool.false_and, Bool.false_and]
      · rw [show s.tray.pow.trayEn = false by simpa using off, Bool.and_false, Bool.false_and]
    rw [off, Bool.false_or]
    exact ⟨_, rfl, rfl⟩
  next takes =>
    have on : (s.tray.hold.available && s.tray.pow.trayEn && decide (mv < 11400)) = true := by
      simpa [not_or, Nat.not_le, and_comm, and_assoc, and_left_comm] using takes
    rw [on, Bool.true_or]
    exact ⟨_, rfl, rfl⟩

/-! ### The tray goes off (R35, R562 to R564) -/

theorem State.railsOff_others (d : DieId) (keepVio : Bool) (status : Nat) {e : DieId} (other : e ≠ d) :
    (s.railsOff d keepVio status).die e = s.die e := by
  unfold State.railsOff State.sramLost
  dsimp only
  rw [State.modDie_die_ne _ _ _ _ other, State.modDie_die_ne _ _ _ _ other]
  exact (s.failResidents_endsWork d status).others e other

/-- One die of the tray goes off. -/
def State.dieOff (s : State) (d : DieId) : State :=
  (s.railsOff d false stDiePoweredOff).modDie d fun x =>
    { x with svc := { x.svc with state := if x.heat.latched then .latched else .off } }

theorem State.dieOff_tray (d : DieId) : (s.dieOff d).tray = s.tray := by
  rw [State.dieOff, State.modDie_tray, State.railsOff_tray]

theorem State.dieOff_others (d : DieId) {e : DieId} (other : e ≠ d) : (s.dieOff d).die e = s.die e := by
  rw [State.dieOff, State.modDie_die_ne _ _ _ _ other]
  exact s.railsOff_others d _ _ other

theorem State.allRailsOff_spec : s.allRailsOff.tray = s.tray ∧ ∀ d, (s.allRailsOff.die d).rails.vio = false := by
  obtain ⟨tray, dies⟩ := State.forDies_die (R := fun u v => v.tray = u.tray) (f := State.dieOff) (fun _ => rfl)
    (fun _ _ _ h k => k.trans h) (fun u d => u.dieOff_tray d)
    (fun u d e other => u.dieOff_others d other) s
  have same : s.allRailsOff = s.forDies State.dieOff := by
    unfold State.allRailsOff State.dieOff
    rfl
  rw [same]
  refine ⟨tray, fun d => ?_⟩
  obtain ⟨u, -, -, own⟩ := dies d
  rw [own, State.dieOff, State.modDie_die]
  exact (u.railsOff_gone d false stDiePoweredOff).vio

/-- What the tray that goes off leaves of its hold-up part. -/
def HoldUp.off (h : HoldUp) : HoldUp :=
  { h with charging := false, current := 0, available := false, onHoldup := false, converter := false, restoring := false }

/-- What a tray that went off left. -/
structure WentOff (s t : State) : Prop where
  hold : t.tray.hold = s.tray.hold.off
  stopped : t.tray.fw.running = false
  vio : ∀ d, (t.die d).rails.vio = false

theorem State.trayOff_wentOff : WentOff s s.trayOff := by
  obtain ⟨tray, vio⟩ := s.allRailsOff_spec
  unfold State.trayOff
  refine ⟨?_, rfl, fun d => ?_⟩
  · rw [State.modTray_tray, tray]
    rfl
  · rw [State.modTray_die]
    exact vio d

theorem State.abandonSave_hold : s.abandonSave.tray.hold.saving = false ∧
    s.abandonSave.tray.hold.present = s.tray.hold.present := by
  unfold State.abandonSave
  by_cases saves : s.tray.hold.saving = true
  · rw [if_pos saves]
    refine ⟨rfl, ?_⟩
    rw [State.modTray_tray, State.logTray, State.log_rest]
  · rw [if_neg saves]
    exact ⟨Bool.eq_false_iff.mpr saves, rfl⟩

theorem does_moduleRemoved (present : s.tray.hold.present = true) : Does .moduleRemoved s fun t =>
    t.tray.hold.present = false ∧ t.tray.hold.charging = false ∧ t.tray.hold.current = 0 ∧
    t.tray.hold.available = false ∧
    (s.tray.hold.onHoldup = true → t.tray.fw.running = false ∧ t.tray.hold.onHoldup = false ∧ t.tray.hold.saving = false) := by
  change ∃ t, execModuleRemoved s = .next t ∧ _
  unfold execModuleRemoved
  extract_lets s1
  rw [if_neg (by simp [present])]
  have hold : s1.tray = _ := (State.setAvailable_spec _ false).1
  by_cases holds : s.tray.hold.onHoldup = true
  · rw [if_pos holds]
    obtain ⟨off, stopped, -⟩ := s1.abandonSave.trayOff_wentOff
    obtain ⟨saving, away⟩ := s1.abandonSave_hold
    refine ⟨_, rfl, ?_⟩
    rw [off]
    refine ⟨away.trans ?_, rfl, rfl, rfl, fun _ => ⟨stopped, rfl, saving⟩⟩
    rw [hold]
    rfl
  · rw [if_neg holds]
    refine ⟨_, rfl, ?_⟩
    rw [hold]
    exact ⟨rfl, rfl, rfl, rfl, fun h => absurd h holds⟩

/-- The save of every die's granules. -/
def State.saveAll (s : State) : List SavedGranule := ((List.finRange 8).map s.saveOf).flatten

theorem does_holdTimerExpire (holds : s.tray.hold.onHoldup = true) (idle : s.tray.hold.saving = false) :
    Does .holdTimerExpire s fun t =>
      (s.saveAll ≠ [] → t.tray.hold.saving = true ∧ t.tray.hold.partialSave = s.saveAll ∧
        s.tray.hold.holdAt + 1000000000 * s.setting 0x1400 1 0xF ≤ t.accNow ∧ TrayOnly s t) ∧
      (s.saveAll = [] → t.tray.fw.running = false ∧ t.tray.hold.onHoldup = false) := by
  change ∃ t, execHoldTimerExpire s = .next t ∧ _
  unfold execHoldTimerExpire
  extract_lets due
  rw [if_neg (by simp [holds])]
  refine ⟨_, rfl, ?_⟩
  let u := s.modTray fun y => { y with now := y.now + (due - s.accNow) }
  have saved : u.saveAll = s.saveAll := rfl
  have start : u.startSave = if s.saveAll.isEmpty then u.trayOff
      else u.modHold fun h => { h with saving := true, partialSave := s.saveAll } := by
    unfold State.startSave
    rw [if_neg (show ¬(u.tray.hold.saving = true) by simp [u, idle])]
    rfl
  rw [start]
  cases granules : s.saveAll with
  | nil =>
    obtain ⟨off, stopped, -⟩ := u.trayOff_wentOff
    refine ⟨fun h => absurd rfl h, fun _ => ⟨stopped, ?_⟩⟩
    exact congrArg HoldUp.onHoldup off
  | cons g gs => exact ⟨fun _ => ⟨rfl, rfl, s.accNow_reaches due, rfl⟩, nofun⟩

theorem does_vaultSaveComplete (saves : s.tray.hold.saving = true) : Does .vaultSaveComplete s fun t =>
    (∃ v : VaultSave, t.tray.hold.save = some v ∧ v.granules = s.tray.hold.partialSave) ∧
    t.tray.hold.saves = satAdd 32 s.tray.hold.saves 1 ∧ t.tray.hold.saving = false ∧ t.tray.fw.running = false ∧
    ∀ d, (t.die d).rails.vio = false := by
  change ∃ t, execVaultSaveComplete s = .next t ∧ _
  unfold execVaultSaveComplete
  extract_lets h time s1
  rw [if_neg (by simp [h, saves])]
  obtain ⟨off, stopped, vio⟩ := s1.trayOff_wentOff
  have hold : s1.tray.hold = { h with
      saving := false, partialSave := [], saves := satAdd 32 h.saves 1, save := some ⟨time, h.partialSave⟩, saveTime := time } := by
    unfold s1
    rw [State.logTray, State.log_rest]
    rfl
  refine ⟨_, rfl, ?_⟩
  rw [off, hold]
  exact ⟨⟨_, rfl, rfl⟩, rfl, rfl, stopped, vio⟩

/-! ### The hold of restored granules ends (R567) -/

theorem Tiles.owner_foldl_setOwner (gs : List Nat) (o : Granule) (x : Tiles) {g : Nat} (listed : g ∈ gs ∨ x.owner g = o) :
    (gs.foldl (fun y g => y.setOwner g o) x).owner g = o := by
  induction gs generalizing x with
  | nil => exact listed.resolve_left List.not_mem_nil
  | cons i gs ih =>
    refine ih (x.setOwner i o) ?_
    by_cases here : g = i
    · subst here
      exact .inr (x.owner_setOwner g o)
    · rw [x.owner_setOwner_ne here]
      exact listed.imp_left fun mem => (List.mem_cons.1 mem).resolve_left here

theorem does_granuleHoldExpire (e : Ns) (held : s.tray.hold.restoredEnd = some e) : Does .granuleHoldExpire s fun t =>
    t.tray.hold.restoredEnd = none ∧ e ≤ t.accNow ∧ (∀ d g u, (s.die d).til.owner g = .held u →
      (s.die d).til.granuleBase ≠ .held u → (t.die d).til.owner g = .zeroing) := by
  change ∃ t, execGranuleHoldExpire s = .next t ∧ _
  unfold execGranuleHoldExpire
  rw [held]
  refine ⟨_, rfl, rfl, ?_, fun d g u owned base => ?_⟩
  · exact s.accNow_reaches e
  · unfold State.dropHeld
    dsimp only
    rw [State.allDies_die, State.modTray_die]
    have entry : KV.get? (s.die d).til.granules g = some (.held u) := by
      unfold Tiles.owner KV.getD at owned
      cases found : KV.get? (s.die d).til.granules g with
      | none =>
        rw [found] at owned
        exact absurd owned base
      | some o =>
        rw [found] at owned
        exact congrArg some owned
    obtain ⟨p, at_g, owner⟩ := Option.map_eq_some_iff.1 entry
    refine Tiles.owner_foldl_setOwner _ _ _ (.inl (List.mem_map.2 ⟨p, List.mem_filter.2 ⟨List.mem_of_find?_eq_some at_g, ?_⟩,
      of_decide_eq_true (List.find?_some at_g :)⟩))
    rw [owner]
    rfl

end Machine

/-- Settles O58: the hold-up module, the hold and the vault save, by what the change of availability, the fault of the module
and the tray that goes off leave of the hold-up part. -/
theorem holdUpAndVault : Obligations.HoldUpAndVault := by
  unfold Obligations.HoldUpAndVault
  exact ⟨fun s ok serial mv away => does_moduleInserted s ok serial mv away,
    fun s present => does_moduleRemoved s present,
    fun s mv present read works onBus idle enabled powered up low =>
      does_chargerStart s mv present read works onBus idle enabled powered up low,
    fun s ma charging low => does_chargeComplete s ma charging low,
    fun s ma high => does_chargeComplete_high s ma high,
    fun s ma => does_chargeCurrentCollapse s ma,
    fun s mah rest0 rest1 capacity present charged works enabled powered =>
      does_capacityTest s mah rest0 rest1 capacity present charged works enabled powered,
    fun s mv low high => does_moduleFault_inside s mv low high,
    fun s mv present works outside => does_moduleFault s mv present works outside,
    fun s mah => does_holdupAvailabilityCheck s mah,
    fun s mv => does_holdupConverterTakeover s mv,
    fun s holds idle => does_holdTimerExpire s holds idle,
    fun s saves => does_vaultSaveComplete s saves,
    fun s e held => does_granuleHoldExpire s e held⟩

end Sys2Proof
end

section
/-! The firmware handoff: its record, the holding pattern, the watchdog and the confirmation (21.3). -/

namespace Sys2Proof
open Sys2Proof.Machine

namespace Machine

section
variable {s t u : State} {d : DieId}

/-! ### What lowerings that waited leave of the handoff (05.9, R400) -/

/-- The handoff stays: the start-up part of die d, and the firmware part of the tray but for its lost reports. -/
structure HandoffStays (d : DieId) (s t : State) : Prop where
  svc : (t.die d).svc = (s.die d).svc
  fw : t.tray.fw = { s.tray.fw with lostReports := t.tray.fw.lostReports }

theorem HandoffStays.refl (d : DieId) (s : State) : HandoffStays d s s := ⟨rfl, rfl⟩

theorem HandoffStays.trans (h : HandoffStays d s t) (k : HandoffStays d t u) : HandoffStays d s u := by
  refine ⟨k.svc.trans h.svc, ?_⟩
  have a := h.fw
  have b := k.fw
  rw [b, a]

theorem HandoffStays.foldl {α : Type} {f : State → α → State} (hf : ∀ u x, HandoffStays d u (f u x)) (l : List α) (s : State) :
    HandoffStays d s (l.foldl f s) := by
  induction l generalizing s with
  | nil => exact .refl d s
  | cons x xs ih => exact (hf s x).trans (ih _)

theorem Answered.handoff (h : Answered s t) : HandoffStays d s t :=
  ⟨by rw [State.die, h.dies]; rfl, by rw [h.tray]⟩

theorem Urged.handoff (h : Urged d s t) : HandoffStays d s t := ⟨by rw [h.die], by rw [h.rest]⟩

theorem PortsOnly.handoff (h : PortsOnly d s t) : HandoffStays d s t := h.urged.handoff

end

section
variable (s : State) (d : DieId)

theorem State.modDie_handoff (e : DieId) (f : Die → Die) (keeps : ∀ x, (f x).svc = x.svc) : HandoffStays d s (s.modDie e f) := by
  refine ⟨?_, rfl⟩
  by_cases here : d = e
  · rw [here, State.modDie_die]
    exact keeps _
  · rw [State.modDie_die_ne _ _ _ _ here]

theorem State.log_handoff (source code : Nat) (detail : List Byte) : HandoffStays d s (s.log source code detail) :=
  ⟨by rw [State.log_die], by rw [State.log_rest]⟩

theorem State.cancelRaise_handoff (k : ObjKey) : HandoffStays d s (s.cancelRaise k) := ⟨rfl, rfl⟩

theorem State.setRaise_handoff (k : ObjKey) (v epoch : Nat) : HandoffStays d s (s.setRaise k v epoch) := ⟨rfl, rfl⟩

theorem State.putSetting_handoff (i u l v : Nat) : HandoffStays d s (s.putSetting i u l v) := ⟨rfl, rfl⟩

theorem State.sweepAcks_handoff : HandoffStays d s s.sweepAcks := by
  unfold State.sweepAcks
  extract_lets ready s1
  have first : HandoffStays d s s1 := ⟨rfl, rfl⟩
  exact first.trans (Answered.foldl (fun _ _ => State.answer_answered ..) ready s1).handoff

theorem State.effectDone_handoff (k : ObjKey) (v epoch : Nat) : HandoffStays d s (s.effectDone k v epoch) := by
  unfold State.effectDone
  extract_lets mark
  refine HandoffStays.trans ?_ (State.sweepAcks_handoff ..)
  exact ⟨rfl, rfl⟩

theorem State.modOp_handoff (e : DieId) (f : OpPoint → OpPoint) : HandoffStays d s (s.modOp e f) :=
  s.modDie_handoff d e _ fun _ => rfl

theorem State.retarget_handoff (e : DieId) : HandoffStays d s (s.retarget e) := by
  unfold State.retarget State.moveVcore
  refine State.modDie_handoff _ _ _ _ fun x => ?_
  split
  · rfl
  · split
    · rfl
    · split <;> rfl

theorem State.noStepCheck_handoff (e : DieId) (was : Bool) : HandoffStays d s (s.noStepCheck e was) := by
  unfold State.noStepCheck
  dsimp only
  split
  · exact State.log_handoff ..
  · exact .refl ..

theorem State.wideInForce_handoff (e : DieId) : HandoffStays d s (s.wideInForce e) := by
  unfold State.wideInForce
  extract_lets k lean was s0 s1
  have first : HandoffStays d s s0 := by
    refine (State.modDie_handoff _ _ _ _ ?_).trans (State.noStepCheck_handoff ..)
    exact fun _ => rfl
  have second : HandoffStays d s s1 := first.trans (State.effectDone_handoff ..)
  split
  · exact (second.trans (State.setRaise_handoff ..)).trans (State.effectDone_handoff ..)
  · exact second

/-- The state that the rule of an object leaves. -/
def GateResult.state : GateResult → State
  | .refused _ _ t => t
  | .done t _ _ => t

theorem HandoffStays.done {t : State} (h : HandoffStays d s t) (epoch : Nat) (effect : Bool) :
    HandoffStays d s (GateResult.done t epoch effect).state := h

theorem State.limitWrite_handoff (k : ObjKey) (v : Nat) (effect : State → State) (keeps : ∀ u, HandoffStays d u (effect u)) :
    HandoffStays d s (s.limitWrite k v effect).state := by
  unfold State.limitWrite
  dsimp only
  split
  · exact HandoffStays.done _ _ (State.cancelRaise_handoff ..) _ _
  · split
    · exact HandoffStays.done _ _ (State.setRaise_handoff ..) _ _
    · split
      · exact HandoffStays.done _ _ (((State.cancelRaise_handoff ..).trans (State.putSetting_handoff ..)).trans (keeps _)) _ _
      · exact HandoffStays.done _ _ (State.setRaise_handoff ..) _ _

theorem State.marginApply_handoff (e : DieId) (v : Nat) (keep : Bool) : HandoffStays d s (s.marginApply e v keep).state := by
  unfold State.marginApply
  extract_lets k x s1 s2 y
  have first : HandoffStays d s s1 :=
    ((s.cancelRaise_handoff d _).trans (State.putSetting_handoff ..)).trans (State.modOp_handoff ..)
  have second : HandoffStays d s s2 := (first.trans (State.modOp_handoff ..)).trans (State.retarget_handoff ..)
  split
  · exact .refl ..
  · split
    · exact HandoffStays.done _ _ ((State.setRaise_handoff ..).trans (State.modOp_handoff ..)) _ _
    · split
      · exact HandoffStays.done _ _ (State.modOp_handoff ..) _ _
      · split
        · split
          · exact HandoffStays.done _ _ (first) _ _
          · split
            · exact HandoffStays.done _ _ (first.trans (State.wideInForce_handoff ..)) _ _
            · split
              · exact HandoffStays.done _ _ (second.trans (State.wideInForce_handoff ..)) _ _
              · exact HandoffStays.done _ _ (second) _ _
        · split
          · exact HandoffStays.done _ _ ((State.putSetting_handoff ..).trans (State.modOp_handoff ..)) _ _
          · split
            · exact HandoffStays.done _ _ (State.setRaise_handoff ..) _ _
            · exact HandoffStays.done _ _ (State.putSetting_handoff ..) _ _

theorem State.vsramSet_handoff (e : DieId) (v : Nat) : HandoffStays d s (s.vsramSet e v) := by
  unfold State.vsramSet State.modRails
  exact State.modDie_handoff _ _ _ _ fun _ => rfl

theorem Die.scaled_svc (x : Die) (roh b : Nat) (pg : Int) (rem : Nat) : ((x.scaled roh b pg).limitRates rem).svc = x.svc := rfl

theorem State.scaleBudgets_handoff (e : DieId) : HandoffStays d s (s.scaleBudgets e) := by
  unfold State.scaleBudgets
  exact State.modDie_handoff _ _ _ _ fun _ => Die.scaled_svc ..

theorem State.followCharge_handoff : HandoffStays d s s.followCharge := by
  unfold State.followCharge
  exact ⟨rfl, rfl⟩

theorem State.lowerNow_handoff (k : ObjKey) (v : Nat) : HandoffStays d s (s.lowerNow k v) := by
  unfold State.lowerNow
  extract_lets e s1 r
  have ruled : HandoffStays d s r.state := by
    refine (s.cancelRaise_handoff d k).trans ?_
    unfold r
    split
    · exact State.marginApply_handoff ..
    · split
      · exact State.limitWrite_handoff _ _ _ _ _ fun _ => State.vsramSet_handoff ..
      · split
        · exact State.limitWrite_handoff _ _ _ _ _ fun _ => State.scaleBudgets_handoff ..
        · exact State.limitWrite_handoff _ _ _ _ _ fun _ => .refl ..
  cases decided : r with
  | refused c n t =>
    rw [decided] at ruled
    exact ruled.trans (State.effectDone_handoff ..)
  | done t e eff =>
    rw [decided] at ruled
    cases eff with
    | true => exact ruled.trans (State.effectDone_handoff ..)
    | false => exact ruled

theorem State.startThaw_handoff : HandoffStays d s (s.startThaw d) := by
  unfold State.startThaw
  dsimp only
  split
  · exact .refl ..
  · refine ((State.modDie_handoff _ _ _ _ ?_).trans (State.portsBack_ports ..).handoff).trans (State.followCharge_handoff ..)
    exact fun _ => rfl

theorem State.frostFollow_handoff : HandoffStays d s (s.frostFollow d) := by
  unfold State.frostFollow
  dsimp only
  split
  · exact s.startThaw_handoff d
  · exact .refl ..

/-! ### The record (R581, R582) -/

variable {s : State} {d : DieId}

theorem does_firnRecordCheck_accept {t0 : Ns} {r : FirnHeader} (hands : (s.die d).svc.handoffAt = some t0)
    (waits : (s.die d).svc.firnTaken = false) (inTime : s.tray.now ≤ t0 + 150000) (ok : s.firnOk (some d) r = true) :
    Does (.firnRecordCheck (some d) r) s fun t =>
      t.die d = { s.die d with svc := { (s.die d).svc with firnTaken := true } } ∧ DieOnly d s t := by
  change ∃ t, execFirnRecordCheck (some d) r s = .next t ∧ _
  unfold execFirnRecordCheck
  dsimp only
  rw [hands]
  dsimp only
  rw [if_neg (by simp [waits, inTime]), if_pos ok]
  refine ⟨_, rfl, ?_, s.modDie_only d _⟩
  rw [State.modDie_die, ← hands]

/-- A governor that has started cold: no phase entry, the lead of its margin, and no raise for four epochs. -/
structure ColdStarted (x y : Die) : Prop where
  svc : y.svc.firnTaken = x.svc.firnTaken
  phases : y.pow.phases = []
  lead : y.op.lead = if x.op.wide then 0 else 120
  noRaise : 4 ≤ y.droop.noRaise

theorem ColdStarted.steers {x y z : Die} (h : ColdStarted x y) (k : Steers y z) : ColdStarted x z :=
  ⟨by rw [k]; exact h.svc, by rw [k]; exact h.phases, by rw [k]; exact h.lead, by rw [k]; exact h.noRaise⟩

theorem ColdStarted.scaled {x y : Die} (h : ColdStarted x y) (roh b : Nat) (pg : Int) (rem : Nat) :
    ColdStarted x ((y.scaled roh b pg).limitRates rem) := ⟨h.svc, h.phases, h.lead, h.noRaise⟩

theorem State.coldStart_coldStarted (s : State) (d : DieId) : ColdStarted (s.die d) ((s.coldStart d).die d) := by
  unfold State.coldStart
  extract_lets x s1 s2
  have cold : ColdStarted (s.die d) (s1.die d) := by
    unfold s1 State.loadCoeffs State.modNrg
    rw [State.modDie_die, State.modDie_die]
    exact ⟨rfl, rfl, rfl, Nat.le_max_left ..⟩
  have scaled : ColdStarted (s.die d) (s2.die d) := by
    unfold s2 State.scaleBudgets
    rw [State.modDie_die]
    exact (cold.steers (s1.retarget_urged d).die).scaled ..
  split
  · exact scaled
  · exact scaled.steers (State.urgent_urged ..).die

theorem does_firnRecordCheck_refuse {t0 : Ns} {r : FirnHeader} (hands : (s.die d).svc.handoffAt = some t0)
    (waits : (s.die d).svc.firnTaken = false) (inTime : s.tray.now ≤ t0 + 150000) (bad : s.firnOk (some d) r = false) :
    Does (.firnRecordCheck (some d) r) s fun t =>
      (t.die d).svc.firnTaken = true ∧ (t.die d).pow.phases = [] ∧
      (t.die d).op.lead = (if (s.die d).op.wide then 0 else 120) ∧ 4 ≤ (t.die d).droop.noRaise := by
  change ∃ t, execFirnRecordCheck (some d) r s = .next t ∧ _
  unfold execFirnRecordCheck
  dsimp -zeta only
  extract_lets v s1
  rw [show v.handoffAt = _ from hands]
  dsimp -zeta only
  rw [if_neg (by simp [v, waits, inTime]), if_neg (by simp [bad])]
  obtain ⟨taken, phases, lead, noRaise⟩ := s1.coldStart_coldStarted d
  have own : s1.die d = { s.die d with svc := { (s.die d).svc with firnTaken := true } } := s.modDie_die d _
  rw [own] at taken lead
  exact ⟨_, rfl, taken, phases, lead, noRaise⟩

theorem State.firnOk_iff (s : State) (who : Option DieId) (r : FirnHeader) : s.firnOk who r = true ↔ r.digestOk = true ∧
    r.index = (match who with | some d => d.val | none => 0xF) ∧
    r.major = (Config.firnVersion (if who.isSome then s.tray.fw.release else s.tray.fw.otherRelease)).toNat / 256 ∧
    r.minor ≤ (Config.firnVersion (if who.isSome then s.tray.fw.release else s.tray.fw.otherRelease)).toNat % 256 := by
  unfold State.firnOk
  cases who <;> simp only [Bool.and_eq_true, beq_iff_eq, decide_eq_true_eq, and_assoc]

/-! ### The tray controller's own handoff (R398, R578) -/

theorem Firmware.runSlot_resetDue (f : Firmware) (b : Bool) : (f.runSlot b).resetDue = f.resetDue := by
  unfold Firmware.runSlot
  extract_lets u
  have same : u.resetDue = f.resetDue := by
    unfold u
    split <;> rfl
  split
  · exact same
  · exact same

/-- Without a write that waits the gate has nothing to apply. -/
theorem State.drainGate_idle (shut : s.tray.fw.resetDue = false) (empty : ∀ n, (s.master n).queue = []) : s.drainGate = s := by
  have heads : s.gateHeads = [] := by
    unfold State.gateHeads
    refine List.filterMap_eq_nil_iff.2 fun m _ => ?_
    rw [empty m]
  have idle : (if s.gateOpen then s.gateRound else s) = s := by
    have round : s.gateRound = s := by
      unfold State.gateRound
      rw [heads]
    rw [round, ite_self]
  unfold State.drainGate
  generalize List.range 64 = l
  rw [List.foldlRecOn (motive := fun u : State => u = s) l _ rfl fun u same _ _ => by rw [same, idle]]
  exact State.finishReset_of_not_due shut

theorem does_firnRecordCheck_trayRefuse {r : FirnHeader} (hands : s.tray.fw.handoff = true) (bad : s.firnOk none r = false) :
    Does (.firnRecordCheck none r) s fun t =>
      t.tray.fw.handoff = false ∧ t.tray.fw.runB = (!s.tray.fw.runB) ∧ t.tray.fw.nextDie = some 0 ∧ t.dies = s.dies ∧
      ∀ n, (t.master n).queue = [] ∧ (t.master n).session = (s.master n).session := by
  change ∃ t, execFirnRecordCheck none r s = .next t ∧ _
  unfold execFirnRecordCheck State.trayHandoffDone
  dsimp only
  rw [if_pos hands, if_neg (by simp [bad])]
  refine ⟨_, rfl, rfl, Firmware.runSlot_runB .., rfl, rfl, fun n => ?_⟩
  rw [State.modTray_master, State.allMasters_master]
  exact ⟨rfl, rfl⟩

theorem does_firnRecordCheck_trayAccept {r : FirnHeader} (hands : s.tray.fw.handoff = true)
    (shut : s.tray.fw.resetDue = false) (empty : ∀ n, (s.master n).queue = []) (ok : s.firnOk none r = true) :
    Does (.firnRecordCheck none r) s fun t =>
      t = { s with tray := { s.tray with fw := t.tray.fw } } ∧ t.tray.fw.handoff = false ∧
      t.tray.fw.runB = (!s.tray.fw.runB) ∧ t.tray.fw.nextDie = some 0 := by
  change ∃ t, execFirnRecordCheck none r s = .next t ∧ _
  unfold execFirnRecordCheck State.trayHandoffDone
  dsimp only
  rw [if_pos hands, if_pos ok]
  refine ⟨_, congrArg Host.Outcome.next (State.drainGate_idle ?_ empty), ?_⟩
  · exact (Firmware.runSlot_resetDue ..).trans shut
  · exact ⟨rfl, rfl, Firmware.runSlot_runB .., rfl⟩

/-! ### The holding pattern (R580) -/

theorem does_holdingPatternCheck {est : Nat} (holds : (s.die d).svc.holding.isSome = true) :
    Does (.holdingPatternCheck d est) s fun t =>
      ((s.die d).uplifted est ≤ min (s.die d).pow.budget 1300000 →
        (s.die d).pow.epochEnergy + (s.die d).uplifted est * 10000 ≤ (s.die d).pow.budget * epochNs → t = s) ∧
      (min (s.die d).pow.budget 1300000 < (s.die d).uplifted est ∨
        (s.die d).pow.budget * epochNs < (s.die d).pow.epochEnergy + (s.die d).uplifted est * 10000 →
        (t.die d).svc.holdCut = true ∧
        (t.die d).til.runs = (s.die d).til.runs.map (fun r => { r with rate := min r.rate 4 }) ∧ DieOnly d s t) := by
  change ∃ t, execHoldingPatternCheck d est s = .next t ∧ _
  unfold execHoldingPatternCheck
  dsimp only
  rw [if_neg (by simp [Option.isSome_iff_ne_none.1 holds])]
  by_cases within : (s.die d).uplifted est ≤ min (s.die d).pow.budget 1300000 ∧
      (s.die d).pow.epochEnergy + (s.die d).uplifted est * 10000 ≤ (s.die d).pow.budget * epochNs
  · rw [if_pos within]
    exact ⟨_, rfl, fun _ _ => rfl, fun passes => passes.elim (fun h => absurd within.1 (Nat.not_le.mpr h))
      fun h => absurd within.2 (Nat.not_le.mpr h)⟩
  · rw [if_neg within]
    refine ⟨_, rfl, fun power energy => absurd ⟨power, energy⟩ within, fun _ => ?_⟩
    rw [State.modDie_die]
    exact ⟨rfl, rfl, s.modDie_only d _⟩

theorem does_holdingPatternEnd {digest : List Byte} {t0 : Ns} (holds : (s.die d).svc.holding = some t0)
    (taken : (s.die d).svc.firnTaken = true) : Does (.holdingPatternEnd d digest) s fun t =>
      (t.die d).svc.holding = none ∧ (t.die d).svc.handoffAt = none ∧ (t.die d).svc.fwDigest = some digest ∧
      (t.die d).svc.fwRelease = s.tray.fw.release ∧ t.tray.fw.confirmFrom = some s.tray.now := by
  change ∃ t, execHoldingPatternEnd d digest s = .next t ∧ _
  unfold execHoldingPatternEnd State.endHandoff
  rw [holds]
  dsimp -zeta only
  rw [if_pos taken]
  extract_lets f s1 due
  have stays : HandoffStays d s1 ((due.foldl (fun s r => s.lowerNow r.1 r.2.1) s1).frostFollow d) :=
    (HandoffStays.foldl (fun u r => u.lowerNow_handoff d r.1 r.2.1) due s1).trans (State.frostFollow_handoff ..)
  refine ⟨_, rfl, ?_⟩
  rw [stays.svc, stays.fw]
  unfold s1 State.modFw
  rw [State.modTray_die, State.modDie_die]
  exact ⟨rfl, rfl, rfl, rfl, rfl⟩

/-! ### The watchdog (R583, R584) -/

/-- A handoff that rolled back. -/
structure RolledBack (who : Nat) (s t : State) : Prop where
  fw : t.tray.fw = { s.tray.fw.setSlot s.tray.fw.freeSlot .invalid with
    status := 5, result := 0x2000 + who, rollBack := who != 0x0F, nextDie := none, confirmFrom := none
    handAt := if who != 0x0F then some s.tray.now else none, lostReports := t.tray.fw.lostReports }
  dies : t.dies = s.dies
  masters : t.masters = s.masters

theorem State.rollBackAll_rolledBack (who : Nat) (updates : s.tray.fw.status = 4) : RolledBack who s (s.rollBackAll who) := by
  unfold State.rollBackAll
  extract_lets back
  rw [if_neg (by simp [updates]), State.logTray, State.log_rest]
  exact ⟨rfl, rfl, rfl⟩

theorem State.rollBackAll_svc (s : State) (who : Nat) (d : DieId) : ((s.rollBackAll who).die d).svc = (s.die d).svc := by
  unfold State.rollBackAll
  extract_lets back
  split
  · rfl
  · rw [State.logTray_die]
    rfl

theorem Firmware.setSlot_stays (f : Firmware) (b : Bool) (x : SlotState) :
    (f.setSlot b x).handoff = f.handoff ∧ (f.setSlot b x).resetDue = f.resetDue := by
  cases b <;> exact ⟨rfl, rfl⟩

theorem does_handoffWatchdog_die {t0 : Ns} (hands : (s.die d).svc.handoffAt = some t0) :
    Does (.handoffWatchdog (some d)) s fun t =>
      (t.die d).svc.holding = none ∧ (t.die d).svc.handoffAt = none ∧ (t.die d).svc.bankB = (!(s.die d).svc.bankB) ∧
      (t.die d).svc.noProposal = true ∧
      (s.tray.fw.status = 4 → t.tray.fw.status = 5 ∧ t.tray.fw.result = 0x2000 + d.val ∧ t.tray.fw.rollBack = true ∧
        t.tray.fw.slot s.tray.fw.freeSlot = .invalid) := by
  change ∃ t, execHandoffWatchdog (some d) s = .next t ∧ _
  unfold execHandoffWatchdog
  dsimp only
  rw [hands]
  refine ⟨_, rfl, ?_⟩
  let v : State := if (s.die d).svc.firnTaken then s else s.advanceTo (t0 + 150000)
  have same : v.die d = s.die d ∧ v.tray.fw = s.tray.fw := by
    unfold v
    split <;> exact ⟨rfl, rfl⟩
  unfold State.dieWatchdog
  extract_lets s1 due
  have stays := HandoffStays.foldl (d := d) (f := fun s r => s.lowerNow r.1 r.2.1) (fun u r => u.lowerNow_handoff d r.1 r.2.1) due s1
  let w : State := due.foldl (fun s r => s.lowerNow r.1 r.2.1) s1
  have follows := (w.rollBackAll d.val).frostFollow_handoff d
  have own : s1.die d = { v.die d with svc := { (v.die d).svc with
      holding := none, handoffAt := none, bankB := !(v.die d).svc.bankB, noProposal := true } } := v.modDie_die d _
  rw [follows.svc, follows.fw, State.rollBackAll_svc, stays.svc, own, same.1]
  refine ⟨rfl, rfl, rfl, rfl, fun updates => ?_⟩
  have before : w.tray.fw = { s.tray.fw with lostReports := w.tray.fw.lostReports } := by
    rw [stays.fw]
    exact congrArg (fun f : Firmware => { f with lostReports := w.tray.fw.lostReports }) same.2
  have rolled := w.rollBackAll_rolledBack d.val (by rw [before]; exact updates)
  have die : (d.val != 0x0F) = true := by
    have := d.isLt
    simp only [bne_iff_ne, ne_eq]
    omega
  rw [rolled.fw, before, die]
  refine ⟨rfl, rfl, rfl, ?_⟩
  exact Firmware.setSlot_slot ..

theorem does_handoffWatchdog_tray (hands : s.tray.fw.handoff = true) (updates : s.tray.fw.status = 4)
    (shut : s.tray.fw.resetDue = false) (empty : ∀ n, (s.master n).queue = []) : Does (.handoffWatchdog none) s fun t =>
      t.tray.fw.handoff = false ∧ t.tray.fw.status = 5 ∧ t.tray.fw.result = 0x200F ∧
      t.tray.fw.slot s.tray.fw.freeSlot = .invalid ∧ t.dies = s.dies := by
  change ∃ t, execHandoffWatchdog none s = .next t ∧ _
  unfold execHandoffWatchdog
  dsimp only
  rw [if_neg (by simp [hands])]
  let v := s.modFw fun f => { f with handoff := false, nextDie := if f.rollBack then some 0 else none }
  obtain ⟨fw, dies, masters⟩ := v.rollBackAll_rolledBack 0x0F updates
  obtain ⟨handed, due⟩ := v.tray.fw.setSlot_stays v.tray.fw.freeSlot .invalid
  have idle : (v.rollBackAll 0x0F).tray.fw.resetDue = false := by
    rw [fw]
    exact due.trans shut
  have waits (n : MasterId) : ((v.rollBackAll 0x0F).master n).queue = [] := by
    rw [State.master, masters]
    exact empty n
  rw [State.drainGate_idle idle waits]
  refine ⟨_, rfl, ?_⟩
  rw [fw, dies]
  exact ⟨handed, rfl, rfl, Firmware.setSlot_slot .., rfl⟩

/-! ### The confirmation (R585) -/

theorem Firmware.setSlot_restarting (f : Firmware) (b : Bool) (x : SlotState) :
    (f.setSlot b x).restarting = f.restarting := by
  cases b <;> rfl

theorem does_updateConfirm {t0 : Ns} (waits : s.tray.fw.confirmFrom = some t0) (updates : s.tray.fw.status = 4)
    (handed : s.tray.fw.handAt = none) (last : s.tray.fw.nextDie = none) (runs : s.tray.fw.handoff = false)
    (held : ∀ d, (s.die d).svc.holding = none) : Does .updateConfirm s fun t =>
      t0 + 1000000000 ≤ t.tray.now ∧ t.tray.fw.status = 0 ∧ t.tray.fw.result = 1 ∧ t.tray.fw.confirmFrom = none ∧
      t.tray.fw.slot s.tray.fw.freeSlot = .active ∧ t.tray.fw.slot (!s.tray.fw.freeSlot) = .previous ∧
      t.tray.fw.floor = max s.tray.fw.floor s.tray.fw.stagedFloor ∧ Reported t s 0xF 0x1602 (leBytes 2 1) ∧
      ∀ d, t.die d = { s.die d with svc := { (s.die d).svc with newImage := false } } := by
  change ∃ t, execUpdateConfirm s = .next t ∧ _
  unfold execUpdateConfirm
  extract_lets f
  rw [show f.confirmFrom = _ from waits]
  dsimp -zeta only
  extract_lets s1
  rw [if_neg (by simp [f, updates, handed, last, runs, held])]
  refine ⟨_, rfl, ?_⟩
  let v := s1.allDies fun x => { x with svc := { x.svc with newImage := false } }
  have told := v.log_reported 0xF 0x1602 (leBytes 2 1)
  have dies (d : DieId) : (v.logTray 0x1602 (leBytes 2 1)).die d = _ := (v.logTray_die ..).trans (s1.allDies_die d _)
  have stays : (v.logTray 0x1602 (leBytes 2 1)).tray.now = v.tray.now ∧ (v.logTray 0x1602 (leBytes 2 1)).tray.fw =
      { v.tray.fw with lostReports := (v.logTray 0x1602 (leBytes 2 1)).tray.fw.lostReports } := by
    rw [State.logTray, State.log_rest]
    exact ⟨rfl, rfl⟩
  have restarts : s.tray.fw.restarting = false → v.tray.fw.restarting = false := fun idle =>
    (Firmware.setSlot_restarting ..).trans ((Firmware.setSlot_restarting ..).trans idle)
  rw [stays.1, stays.2]
  refine ⟨s.advanceTo_now _, rfl, rfl, rfl, Firmware.setSlot_slot .., ?_, rfl, fun idle => told (restarts idle), dies⟩
  exact (Firmware.setSlot_other ..).trans (Firmware.setSlot_slot ..)

end

end Machine

/-- Settles O59: the handoff, by the fact that lowerings which waited leave the start-up part of a die and the firmware part of
the tray as they were. -/
theorem handoff : Obligations.Handoff := by
  unfold Obligations.Handoff
  exact ⟨fun _ _ _ _ hands waits inTime ok => does_firnRecordCheck_accept hands waits inTime ok,
    fun _ _ _ _ hands waits inTime bad => does_firnRecordCheck_refuse hands waits inTime bad,
    fun _ _ hands bad => does_firnRecordCheck_trayRefuse hands bad,
    fun s who r => s.firnOk_iff who r,
    fun _ _ hands shut empty ok => does_firnRecordCheck_trayAccept hands shut empty ok,
    fun _ _ _ holds => does_holdingPatternCheck holds,
    fun _ _ _ _ holds taken => does_holdingPatternEnd holds taken,
    fun _ _ _ hands => does_handoffWatchdog_die hands,
    fun _ hands updates shut empty => does_handoffWatchdog_tray hands updates shut empty,
    fun _ _ waits updates handed last runs held => does_updateConfirm waits updates handed last runs held⟩

end Sys2Proof
end

section
/-! The moraine, repairs, diagnoses, emergency records and boundary scan (02.7, 03.2, 22.4, chapter 23). -/

namespace Sys2Proof
open Sys2Proof.Machine

theorem TrayOnly.trans {s t u : State} (h : TrayOnly s t) (k : TrayOnly t u) : TrayOnly s u := by
  unfold TrayOnly at *
  rw [k, h]

namespace Machine

/-! ### The moraine takes its reports (R613, R614) -/

theorem Moraine.assign_reports (m : Moraine) (r : Report) : (m.assign r).reports = m.reports := by
  unfold Moraine.assign
  dsimp only
  split <;> rfl

theorem Moraine.foldl_assign_reports (l : List Report) (m : Moraine) : (l.foldl Moraine.assign m).reports = m.reports :=
  List.foldlRecOn (motive := fun u : Moraine => u.reports = m.reports) l _ rfl fun u same r _ =>
    (u.assign_reports r).trans same

/-- A report of a source without an entry takes the next sequence. -/
theorem Moraine.assign_first {m : Moraine} {r : Report} (first : ∀ e ∈ m.entries, e.2.source ≠ r.source) :
    m.assign r = { m with entries := ((m.next, r) :: m.entries).take 4096, next := (m.next + 1) % 2 ^ 32 } := by
  have absent : (m.entries.find? fun e => e.2.source == r.source) = none :=
    List.find?_eq_none.2 fun e mem => by simpa using first e mem
  unfold Moraine.assign
  rw [absent]

/-- The least of some stamps is one of them. -/
theorem foldl_min_stamp (l : List Report) (a : Ns) :
    (l.map Report.stamp).foldl min a = a ∨ ∃ q ∈ l, q.stamp = (l.map Report.stamp).foldl min a := by
  induction l generalizing a with
  | nil => exact .inl rfl
  | cons q l ih =>
    rw [List.map_cons, List.foldl_cons]
    obtain least | ⟨p, mem, least⟩ := ih (min a q.stamp)
    · rw [least]
      obtain low | low := Nat.le_total a q.stamp
      · exact .inl (Nat.min_eq_left low)
      · exact .inr ⟨q, List.mem_cons_self, (Nat.min_eq_right low).symm⟩
    · exact .inr ⟨p, List.mem_cons_of_mem _ mem, least⟩

section
variable {s : State}

theorem State.modTray_only (s : State) (f : Tray → Tray) : TrayOnly s (s.modTray f) := rfl

theorem State.modNow_mor (s : State) (n : Tray → Ns) : (s.modTray fun y => { y with now := n y }).tray.mor = s.tray.mor := rfl

theorem State.modMor_accNow (s : State) (f : Moraine → Moraine) :
    (s.modTray fun y => { y with mor := f y.mor }).accNow = s.accNow := rfl

theorem does_moraineAssign {r : Report} {rs : List Report} (waits : s.tray.mor.reports = r :: rs)
    (runs : s.tray.fw.running = true) (stands : s.tray.fw.restarting = false) : Does .moraineAssign s fun t =>
      (∀ q, q ∈ t.tray.mor.reports ↔ q ∈ s.tray.mor.reports ∧ t.accNow < q.stamp + 2000000) ∧
      (∃ q ∈ s.tray.mor.reports, q.stamp + 2000000 ≤ t.accNow) ∧ TrayOnly s t ∧
      (rs = [] → (∀ e ∈ s.tray.mor.entries, e.2.source ≠ r.source) →
        t.tray.mor.entries = ((s.tray.mor.next, r) :: s.tray.mor.entries).take 4096 ∧
        t.tray.mor.next = (s.tray.mor.next + 1) % 2 ^ 32) := by
  change ∃ t, execMoraineAssign s = .next t ∧ _
  unfold execMoraineAssign
  rw [waits]
  dsimp -zeta only
  extract_lets first s1 old due
  rw [if_neg (by simp [runs, stands])]
  have reached : first + 2000000 ≤ s1.accNow := s.accNow_reaches _
  have kept : s1.tray.mor = s.tray.mor := s.modNow_mor _
  refine ⟨_, rfl, fun q => ?_, ?_, (s.modTray_only _).trans (s1.modTray_only _), fun single free => ?_⟩
  · rw [← waits]
    rw [State.modTray_tray, Moraine.foldl_assign_reports, kept, List.mem_filter]
    refine and_congr_right fun _ => ?_
    rw [s1.modMor_accNow fun m => due.foldl Moraine.assign { m with reports := m.reports.filter fun q => !old q }]
    simp only [old, Bool.not_eq_true', decide_eq_false_iff_not, Nat.not_le]
  · rw [s1.modMor_accNow fun m => due.foldl Moraine.assign { m with reports := m.reports.filter fun q => !old q }]
    obtain least | ⟨q, mem, least⟩ := foldl_min_stamp rs r.stamp
    · exact ⟨r, List.mem_cons_self, by rw [← least]; exact reached⟩
    · exact ⟨q, List.mem_cons_of_mem _ mem, by rw [least]; exact reached⟩
  · have only : due = [r] := by
      have ripe : old r = true := by
        refine decide_eq_true ?_
        have least : first = r.stamp := by
          unfold first
          rw [single]
          rfl
        rw [← least]
        exact reached
      unfold due
      rw [single, List.filter_cons_of_pos ripe]
      rfl
    have taken := Moraine.assign_first (m := { s.tray.mor with reports := s.tray.mor.reports.filter fun q => !old q }) free
    rw [only, State.modTray_tray, kept, List.foldl_cons, List.foldl_nil, taken]
    exact ⟨rfl, rfl⟩

/-! ### A tile fails, and its remap (R620, R623) -/

theorem does_remapTile {m : MasterId} {d : DieId} {v : Nat} (takes : GateTakes m ⟨0x6000, 9, d.val⟩ (leBytes 1 v) s)
    (low : v < 128) : Does (.remapTile m d v) s fun t =>
      ((s.die d).til.rowMap.getD (v / 16) 16 ≠ 16 ∨ (s.die d).tileFailed v = true → t = s.atTick) ∧
      ((s.die d).til.rowMap.getD (v / 16) 16 = 16 → (s.die d).tileFailed v = false →
        (t.die d).svc.failedTiles = (s.die d).svc.failedTiles ||| BitVec.twoPow 136 ((s.die d).til.phys v) ∧
        ((∀ M ∈ (s.die d).svc.remap, M / 16 ≠ v / 16) → (t.die d).svc.remap = (s.die d).svc.remap ++ [v]) ∧
        Reported t s d.val 0x6002 [BitVec.ofNat 8 v, BitVec.ofNat 8 ((s.die d).til.phys v)] ∧
        ∀ e, e ≠ d → t.die e = s.die e) := by
  have value : leNat (leBytes 1 v) = v := by
    rw [leNat_leBytes]
    omega
  refine does_gate takes rfl ?_
  rw [value]
  by_cases bad : (s.die d).til.rowMap.getD (v / 16) 16 ≠ 16 ∨ (s.die d).tileFailed v = true
  · have refuses : s.atTick.remapApply d v = .refused rcOutOfRange 0 s.atTick := if_pos bad
    rw [refuses, gateEnd_refused]
    refine ⟨fun _ => rfl, fun whole works => ?_⟩
    rcases bad with moved | failed
    · exact absurd whole moved
    · exact absurd (works.symm.trans failed) Bool.false_ne_true
  · have fails : s.atTick.remapApply d v = .done (s.atTick.failTile d v) 0 true := if_neg bad
    rw [fails]
    refine ⟨fun h => absurd h bad, fun whole works => ?_⟩
    rw [gateEnd_done_die]
    have die : (s.atTick.failTile d v).die d = { s.die d with svc := { (s.die d).svc with
        failedTiles := (s.die d).svc.failedTiles ||| BitVec.twoPow 136 ((s.die d).til.phys v)
        remap := if ((s.die d).svc.remap.any fun M => M / 16 == v / 16) = true
          then (s.die d).svc.remap.filter fun M => M / 16 != v / 16
          else if (s.die d).til.rowMap.getD (v / 16) 16 = 16 then (s.die d).svc.remap ++ [v] else (s.die d).svc.remap } } := by
      unfold State.failTile
      dsimp only
      rw [if_neg (by rw [State.atTick_die, works]; exact Bool.false_ne_true), State.logDie_die, State.modDie_die]
      rfl
    have rest : (∀ e, e ≠ d → (s.atTick.failTile d v).die e = s.die e) ∧
        Reported (s.atTick.failTile d v) s d.val 0x6002 [BitVec.ofNat 8 v, BitVec.ofNat 8 ((s.die d).til.phys v)] := by
      unfold State.failTile
      dsimp only
      rw [if_neg (by rw [State.atTick_die, works]; exact Bool.false_ne_true)]
      exact ⟨fun e other => (State.logDie_die ..).trans (State.modDie_die_ne _ _ _ _ other),
        State.modDie_logDie_reported s.atTick d _ 0x6002 _⟩
    refine ⟨by rw [die], fun apart => ?_, fun idle => ?_, fun e other => (gateEnd_done_die ..).trans (rest.1 e other)⟩
    · rw [die]
      dsimp only
      rw [if_neg ?_, if_pos whole]
      rw [List.any_eq_true]
      rintro ⟨M, mem, same⟩
      exact apart M mem (beq_iff_eq.1 same)
    · rw [gateEnd_done]
      exact rest.2 idle

variable {d : DieId}

theorem does_tileRemap_fails {L : Nat} (next : ((s.die d).svc.remap.find? fun L => (s.die d).quiescent L) = some L) :
    Does (.tileRemap d false) s fun t =>
      (t.die d).svc.remap = (s.die d).svc.remap.filter (fun M => M != L) ∧
      (t.die d).svc.failedTiles = (s.die d).svc.failedTiles ||| BitVec.twoPow 136 (16 + 17 * (L / 16)) ∧
      (t.die d).til = (s.die d).til ∧ DieOnly d s t := by
  change ∃ t, execTileRemap d false s = .next t ∧ _
  unfold execTileRemap
  dsimp only
  rw [next]
  refine ⟨_, rfl, ?_⟩
  rw [State.modDie_die]
  exact ⟨rfl, rfl, rfl, s.modDie_only d _⟩

theorem State.sramFree_svc (s : State) (d : DieId) (a n : Nat) : ((s.sramFree d a n).die d).svc = (s.die d).svc ∧
    ((s.sramFree d a n).die d).til.rowMap = (s.die d).til.rowMap := by
  unfold State.sramFree State.sramWrite
  dsimp only
  rw [State.modDie_die]
  exact ⟨rfl, rfl⟩

theorem Tiles.setOwners_rowMap (x : Tiles) (first n : Nat) (o : Granule) : (x.setOwners first n o).rowMap = x.rowMap := by
  unfold Tiles.setOwners
  exact List.foldlRecOn (motive := fun u : Tiles => u.rowMap = x.rowMap) _ _ rfl fun u same i _ => same

theorem does_tileRemap {L : Nat} (next : ((s.die d).svc.remap.find? fun L => (s.die d).quiescent L) = some L) :
    Does (.tileRemap d true) s fun t =>
      (t.die d).til.rowMap = (s.die d).til.rowMap.set (L / 16) ((s.die d).til.phys L % 17) ∧
      L ∉ (t.die d).svc.remap ∧ (t.die d).svc.spares = (s.die d).svc.spares + 1 ∧
      (∀ g, 128 * L ≤ g → g < 128 * (16 * (L / 16 + 1)) → (t.die d).til.owner g = .free) ∧
      Reported t s d.val 0x6003 [BitVec.ofNat 8 L, BitVec.ofNat 8 ((t.die d).til.phys L)] ∧
      ∀ e, e ≠ d → t.die e = s.die e := by
  change ∃ t, execTileRemap d true s = .next t ∧ _
  unfold execTileRemap
  extract_lets x
  rw [show x.svc.remap.find? (fun L => x.quiescent L) = _ from next]
  dsimp -zeta only
  extract_lets y rest c lo n s1 s2
  rw [if_neg (by decide)]
  obtain ⟨svc, rowMap⟩ := s.sramFree_svc d (65536 * lo) (65536 * n)
  have freed := s.sramFree_endsWork d (65536 * lo) (65536 * n)
  have own : s2.die d = _ := s1.modDie_die d _
  refine ⟨_, rfl, ?_⟩
  rw [State.logDie_die]
  refine ⟨?_, ?_, ?_, fun g above below => ?_, fun idle => ?_, fun e other => ?_⟩
  · rw [own]
    exact congrArg (fun m : List Nat => m.set y c) rowMap
  · rw [own]
    exact fun mem => by simpa using (List.mem_filter.1 mem).2
  · rw [own]
    exact congrArg (fun v : Service => v.spares + 1) svc
  · rw [own]
    exact Tiles.owner_setOwners _ lo n .free above (by unfold n lo; omega)
  · refine State.modDie_logDie_reported s1 d _ 0x6003 _ ?_
    rw [freed.tray]
    exact idle
  · rw [State.logDie_die]
    exact (State.modDie_die_ne _ _ _ _ other).trans (freed.others e other)

/-! ### Diagnoses (R629 to R631) -/

/-- What the diagnosis of indicator i makes of its bit. -/
def Indicators.opens (v : Indicators) (currents : List Nat) (i : Nat) : Bool :=
  let bad := decide (currents.getD i 100 < 50)
  let f := if bad then v.fails.getD i 0 + 1 else 0
  let p := if bad then 0 else v.passes.getD i 0 + 1
  if 3 ≤ f then true else if 3 ≤ p then false else v.openLoads.getLsbD i

/-- The diagnosis of one indicator. -/
def State.ledStep (currents : List Nat) (s : State) (i : Nat) : State :=
  let v := s.tray.ind
  let bad := decide (currents.getD i 100 < 50)
  let f := if bad then v.fails.getD i 0 + 1 else 0
  let p := if bad then 0 else v.passes.getD i 0 + 1
  let was := v.openLoads.getLsbD i
  let is := v.opens currents i
  let one : BitVec 11 := BitVec.twoPow 11 i
  let s1 := s.modTray fun y => { y with ind := { y.ind with
    fails := y.ind.fails.set i (min f 3), passes := y.ind.passes.set i (min p 3)
    openLoads := if is then y.ind.openLoads ||| one else y.ind.openLoads &&& ~~~one } }
  if is = was then s1 else s1.logTray 0x1501 [BitVec.ofNat 8 i, BitVec.ofNat 8 (b2n is)]

/-- The part of indicator i stays. -/
structure LedStays (i : Nat) (v w : Indicators) : Prop where
  fails : w.fails.getD i 0 = v.fails.getD i 0
  passes : w.passes.getD i 0 = v.passes.getD i 0
  bit : w.openLoads.getLsbD i = v.openLoads.getLsbD i

theorem LedStays.trans {i : Nat} {u v w : Indicators} (h : LedStays i u v) (k : LedStays i v w) : LedStays i u w :=
  ⟨k.fails.trans h.fails, k.passes.trans h.passes, k.bit.trans h.bit⟩

theorem LedStays.opens {i : Nat} {v w : Indicators} (h : LedStays i v w) (currents : List Nat) :
    w.opens currents i = v.opens currents i := by
  unfold Indicators.opens
  rw [h.fails, h.passes, h.bit]

theorem List.getD_set_other {l : List Nat} {i j : Nat} (other : i ≠ j) (v : Nat) : (l.set j v).getD i 0 = l.getD i 0 := by
  rw [List.getD_eq_getElem?_getD, List.getElem?_set_ne other.symm, ← List.getD_eq_getElem?_getD]

theorem getLsbD_flag (b : BitVec 11) (j i : Nat) (on : Bool) (inside : i < 11) :
    (if on then b ||| BitVec.twoPow 11 j else b &&& ~~~(BitVec.twoPow 11 j)).getLsbD i =
      if i = j then on else b.getLsbD i := by
  have flag : (BitVec.twoPow 11 j).getLsbD i = decide (i = j) := by
    rw [BitVec.getLsbD_twoPow]
    by_cases same : i = j
    · rw [decide_eq_true same, decide_eq_true (same ▸ inside), decide_eq_true same.symm, Bool.and_true]
    · rw [decide_eq_false same, decide_eq_false (Ne.symm same), Bool.and_false]
  cases on with
  | true =>
    rw [if_pos rfl, BitVec.getLsbD_or, flag]
    by_cases same : i = j
    · rw [if_pos same, decide_eq_true same, Bool.or_true]
    · rw [if_neg same, decide_eq_false same, Bool.or_false]
  | false =>
    rw [if_neg Bool.false_ne_true, BitVec.getLsbD_and, BitVec.getLsbD_not, flag, decide_eq_true inside, Bool.true_and]
    by_cases same : i = j
    · rw [if_pos same, decide_eq_true same, Bool.not_true, Bool.and_false]
    · rw [if_neg same, decide_eq_false same, Bool.not_false, Bool.and_true]

theorem State.ledStep_spec (s : State) (currents : List Nat) (j : Nat) : TrayOnly s (s.ledStep currents j) ∧
    (∀ i, i < 11 → i ≠ j → LedStays i s.tray.ind (s.ledStep currents j).tray.ind) ∧
    (j < 11 → (s.ledStep currents j).tray.ind.openLoads.getLsbD j = s.tray.ind.opens currents j) := by
  unfold State.ledStep
  extract_lets v bad f p was is one s1
  have only : TrayOnly s s1 := rfl
  have others (i : Nat) (inside : i < 11) (other : i ≠ j) : LedStays i s.tray.ind s1.tray.ind :=
    ⟨List.getD_set_other other _, List.getD_set_other other _, (getLsbD_flag _ _ _ _ inside).trans (if_neg other)⟩
  have own (inside : j < 11) : s1.tray.ind.openLoads.getLsbD j = s.tray.ind.opens currents j :=
    (getLsbD_flag _ _ _ _ inside).trans (if_pos rfl)
  split
  · exact ⟨only, others, own⟩
  · have logged (detail : List Byte) : TrayOnly s1 (s1.logTray 0x1501 detail) ∧
        (s1.logTray 0x1501 detail).tray.ind = s1.tray.ind := by
      rw [State.logTray, State.log_rest]
      exact ⟨rfl, rfl⟩
    refine ⟨only.trans (logged _).1, ?_⟩
    rw [(logged _).2]
    exact ⟨others, own⟩

/-- The diagnoses of some indicators: each leaves the part of the others. -/
theorem State.foldl_ledStep_spec (currents : List Nat) (l : List Nat) (apart : l.Nodup) (s : State) :
    TrayOnly s (l.foldl (State.ledStep currents) s) ∧
    ∀ i, i < 11 → (i ∉ l → LedStays i s.tray.ind (l.foldl (State.ledStep currents) s).tray.ind) ∧
      (i ∈ l → (l.foldl (State.ledStep currents) s).tray.ind.openLoads.getLsbD i = s.tray.ind.opens currents i) := by
  induction l generalizing s with
  | nil => exact ⟨rfl, fun i _ => ⟨fun _ => ⟨rfl, rfl, rfl⟩, fun mem => absurd mem List.not_mem_nil⟩⟩
  | cons j l ih =>
    obtain ⟨fresh, rest⟩ := List.nodup_cons.1 apart
    obtain ⟨only, others, own⟩ := s.ledStep_spec currents j
    obtain ⟨after, parts⟩ := ih rest (s.ledStep currents j)
    refine ⟨only.trans after, fun i inside => ⟨fun out => ?_, fun mem => ?_⟩⟩
    · obtain ⟨other, absent⟩ := not_or.1 fun mem => out (List.mem_cons.2 mem)
      exact (others i inside other).trans ((parts i inside).1 absent)
    · by_cases here : i = j
      · subst here
        exact (((parts i inside).1 fresh).bit).trans (own inside)
      · exact ((parts i inside).2 ((List.mem_cons.1 mem).resolve_left here)).trans ((others i inside here).opens currents)

theorem does_ledDiagnosis (currents : List Nat) : Does (.ledDiagnosis currents) s fun t =>
    (∀ i, i < 11 → currents.getD i 100 < 50 → 2 ≤ s.tray.ind.fails.getD i 0 → t.tray.ind.openLoads.getLsbD i = true) ∧
    (∀ i, i < 11 → 50 ≤ currents.getD i 100 → 2 ≤ s.tray.ind.passes.getD i 0 → t.tray.ind.openLoads.getLsbD i = false) ∧
    (∀ i, i < 11 → currents.getD i 100 < 50 → s.tray.ind.fails.getD i 0 < 2 →
      t.tray.ind.openLoads.getLsbD i = s.tray.ind.openLoads.getLsbD i) ∧ TrayOnly s t := by
  have runs : execLedDiagnosis currents s = .next ((List.range 11).foldl (State.ledStep currents) s) := rfl
  obtain ⟨only, parts⟩ := State.foldl_ledStep_spec currents (List.range 11) List.nodup_range s
  have bit (i : Nat) (inside : i < 11) := (parts i inside).2 (List.mem_range.2 inside)
  refine ⟨_, runs, fun i inside bad twice => ?_, fun i inside good twice => ?_, fun i inside bad once => ?_, only⟩
  · rw [bit i inside, Indicators.opens]
    simp only [decide_eq_true bad, if_true]
    rw [if_pos (by omega)]
  · rw [bit i inside, Indicators.opens]
    simp only [decide_eq_false (Nat.not_lt.mpr good), Bool.false_eq_true, if_false]
    rw [if_neg (by decide), if_pos (by omega)]
  · rw [bit i inside, Indicators.opens]
    simp only [decide_eq_true bad, if_true]
    rw [if_neg (by omega), if_neg (by decide)]

theorem State.heaterOpens_isOpen (s : State) (d : DieId) (ring : Nat) :
    (((s.heaterOpens d ring).die d).fab.heater ring).isOpen = true := by
  unfold State.heaterOpens
  extract_lets s1 p drop y b
  have first : ((s1.die d).fab.heater ring).isOpen = true := by
    unfold s1
    rw [State.modDie_die]
    exact congrArg Ring.isOpen (KV.getD_put ..)
  have stays (t : State) (rings : (t.die d).fab.rings = (s1.die d).fab.rings) :
      ((t.die d).fab.heater ring).isOpen = true := by
    rw [Fabric.heater, rings]
    exact first
  split
  · refine stays _ ((State.lineOut_portWork ..).rings.trans ?_)
    rw [State.logDie_die]
  · refine stays _ ?_
    unfold State.failBank
    dsimp only
    split
    · rw [State.logDie_die]
    · rw [State.logDie_die, State.modBank_die, State.logDie_die]

theorem does_heaterDiagnosis {ring meas : Nat} {o : Bool} (low : ring < 10816) (powered : (s.die d).rails.vhtr = true)
    (closed : ((s.die d).fab.heater ring).isOpen = false) (measured : o = heaterBad d ring ((s.die d).heaterDuty d ring) meas) :
    Does (.heaterDiagnosis d ring meas) s fun t =>
      (o = false → (t.die d).fab.heater ring = { (s.die d).fab.heater ring with openFails := 0 } ∧ DieOnly d s t) ∧
      (o = true → ((s.die d).fab.heater ring).openFails < 2 → (t.die d).fab.heater ring = { (s.die d).fab.heater ring with
        openFails := ((s.die d).fab.heater ring).openFails + 1 } ∧ DieOnly d s t) ∧
      (o = true → 2 ≤ ((s.die d).fab.heater ring).openFails → ((t.die d).fab.heater ring).isOpen = true) := by
  change ∃ t, execHeaterDiagnosis d ring meas s = .next t ∧ _
  unfold execHeaterDiagnosis
  extract_lets x r n s1
  rw [if_neg (by simp [x, r, low, powered, closed])]
  have counted : (s1.die d).fab.heater ring = { (s.die d).fab.heater ring with openFails := n } := by
    unfold s1
    rw [State.modDie_die]
    exact KV.getD_put ..
  have only : DieOnly d s s1 := s.modDie_only d _
  refine ⟨_, rfl, fun good => ?_, fun bad few => ?_, fun bad many => ?_⟩
  · have count : n = 0 := if_neg (by rw [← measured, good]; exact Bool.false_ne_true)
    rw [if_pos (by omega), counted, count]
    exact ⟨rfl, only⟩
  · have count : n = r.openFails + 1 := if_pos (by rw [← measured, bad])
    rw [if_pos (by rw [count]; exact Nat.succ_lt_succ few), counted, count]
    exact ⟨rfl, only⟩
  · have count : n = r.openFails + 1 := if_pos (by rw [← measured, bad])
    rw [if_neg (by rw [count]; exact Nat.not_lt.mpr (Nat.succ_le_succ many))]
    exact s1.heaterOpens_isOpen d ring

/-! ### Emergency records (R601) -/

theorem does_emergency (r : EmergencyRec) : Does (.emergency d r) s fun t =>
    t.dies = s.dies ∧ t.tray = s.tray ∧ t.masters = s.masters ∧ t.ctxs = s.ctxs ∧
    (s.residentTenants d = [] → t = s.noticePfs r.kind r.code 0xF r.time 0) := by
  change ∃ t, execEmergency d r s = .next t ∧ _
  unfold execEmergency State.takeEmergency
  have told : TellsHost s (((s.residentTenants d).foldl (fun s t => match s.fnOf t with
      | some f => s.notice f r.kind r.code 0xF r.time 0
      | none => s) s).noticePfs r.kind r.code 0xF r.time 0) := by
    refine TellsHost.trans (.foldl (fun u t => ?_) _ s) (State.noticePfs_tells ..)
    split
    · exact State.notice_tells ..
    · exact .refl _
  refine ⟨_, rfl, told.dies, told.tray, ?_, told.ctxs, fun empty => ?_⟩
  · exact (congrArg State.masters told.rest).trans rfl
  · rw [empty]
    rfl

/-! ### Boundary scan (R27) -/

theorem State.tdoOff_iff (s : State) : s.tdoOff = true ↔ ∀ m : MasterId, m ≠ 0 → (s.master m).session = none := by
  unfold State.tdoOff State.tapServed
  simp only [List.any_cons, List.any_nil, Bool.or_false, Bool.not_eq_true', Bool.or_eq_false_iff,
    Option.isSome_eq_false_iff, Option.isNone_iff_eq_none]
  refine ⟨fun ⟨one, two, three⟩ m other => ?_, fun all => ⟨all 1 (by decide), all 2 (by decide), all 3 (by decide)⟩⟩
  match m with
  | 0 => exact absurd rfl other
  | 1 => exact one
  | 2 => exact two
  | 3 => exact three

theorem State.anyResident_iff (s : State) : s.anyResident = true ↔ ∃ d, s.residents d ≠ [] := by
  unfold State.anyResident State.residents
  simp only [List.any_eq_true, List.mem_finRange, true_and, ne_eq, List.filterMap_eq_nil_iff, id, Classical.not_forall,
    ← Option.isSome_iff_ne_none, exists_prop]

theorem does_boundaryScanInstruction (i : TapInstr) : Does (.boundaryScanInstruction i) s fun t =>
    ((∀ m : MasterId, m ≠ 0 → (s.master m).session = none) → t = s ∧ s.tdoOff = true) ∧
    ((∃ m : MasterId, m ≠ 0 ∧ (s.master m).session.isSome = true) → s.tdoOff = false ∧
      t = { s with tray := { s.tray with pow := { s.tray.pow with tap := t.tray.pow.tap } } } ∧
      (i = .bypass ∨ i = .idcode ∨ (∀ d, s.residents d = []) → t.tray.pow.tap = i) ∧
      (i ≠ .bypass → i ≠ .idcode → (∃ d, s.residents d ≠ []) → t.tray.pow.tap = .bypass)) := by
  change ∃ t, execBoundaryScanInstruction i s = .next t ∧ _
  unfold execBoundaryScanInstruction
  by_cases off : s.tdoOff = true
  · rw [if_pos off]
    refine ⟨_, rfl, fun _ => ⟨rfl, off⟩, fun ⟨m, other, session⟩ => ?_⟩
    rw [s.tdoOff_iff.1 off m other] at session
    exact absurd session Bool.false_ne_true
  · rw [if_neg off]
    have served : s.tapServed = true := by simpa [State.tdoOff] using off
    refine ⟨_, rfl, fun closed => absurd (s.tdoOff_iff.2 closed) off, fun _ => ⟨Bool.eq_false_iff.mpr off, rfl, ?_, ?_⟩⟩
    · intro stands
      refine if_pos ?_
      unfold State.tapAllows
      rw [served, Bool.true_and, Bool.or_eq_true, Bool.or_eq_true, beq_iff_eq, beq_iff_eq]
      refine stands.imp_right (.imp_right fun empty => ?_)
      rw [Bool.not_eq_true', ← Bool.not_eq_true, s.anyResident_iff]
      exact fun ⟨d, resides⟩ => resides (empty d)
    · intro notBypass notIdcode resides
      refine if_neg ?_
      unfold State.tapAllows
      rw [s.anyResident_iff.2 resides]
      simp [notBypass, notIdcode]

/-! ### Sources that lose their ready flag (R41, R42) -/

theorem does_sourceReadyLoss_of (f : Clk → Clk) {src : ClkSource}
    (runs : execSourceReadyLoss d src s = .next (s.modClk d f)) : Does (.sourceReadyLoss d src) s fun t =>
      t.die d = { s.die d with clk := f (s.die d).clk } ∧ DieOnly d s t :=
  ⟨_, runs, State.modClk_die .., State.modClk_only ..⟩

theorem does_sourceReadyLoss_rl : Does (.sourceReadyLoss d .rl) s fun t =>
    t.die d = { s.die d with clk := { (s.die d).clk with
      rlReady := (s.die d).clk.rlReady && ((s.die d).clk.holdover || (s.die d).clk.relockTo.isSome) } } ∧ DieOnly d s t := by
  refine (does_sourceReadyLoss_of (fun c => if c.holdover ∨ c.relockTo.isSome then c else { c with rlReady := false }) rfl).imp
    fun t ⟨die, only⟩ => ⟨die.trans ?_, only⟩
  dsimp only
  by_cases keeps : (s.die d).clk.holdover = true ∨ (s.die d).clk.relockTo.isSome = true
  · rw [if_pos keeps, Bool.or_eq_true _ _ |>.mpr keeps, Bool.and_true]
  · have loses : ((s.die d).clk.holdover || (s.die d).clk.relockTo.isSome) = false := by
      rw [← Bool.not_eq_true, Bool.or_eq_true]
      exact keeps
    rw [if_neg keeps, loses, Bool.and_false]

theorem does_sourceReadyLoss_xa (ready : (s.die d).clk.xaReady = true)
    (spare : (s.die d).clk.refInUse = .xb ∨ (s.die d).clk.holdover = true) : Does (.sourceReadyLoss d .xa) s fun t =>
      (t.die d).clk.xaReady = false ∧ (t.die d).clk.refInUse = (s.die d).clk.refInUse ∧
      ((s.die d).clk.relockTo = some .xa → (t.die d).clk.relockTo = none ∧ (t.die d).clk.switchStatus = 1) ∧
      DieNoted d s t := by
  change ∃ t, execSourceReadyLoss d .xa s = .next t ∧ _
  unfold execSourceReadyLoss State.refGone
  extract_lets c relock last s1
  have unused : ¬((!c.refReady .xa) = true ∨ c.refInUse = .xa ∧ (!c.holdover) = true) := by
    rintro (lost | ⟨inUse, locked⟩)
    · rw [show c.refReady .xa = true from ready] at lost
      exact Bool.false_ne_true lost
    · rcases spare with other | held
      · exact nomatch inUse.symm.trans other
      · rw [show c.holdover = true from held] at locked
        exact Bool.false_ne_true locked
  rw [if_neg unused]
  have own : (s1.die d).clk.xaReady = false ∧ (s1.die d).clk.refInUse = (s.die d).clk.refInUse ∧
      ((s.die d).clk.relockTo = some .xa → (s1.die d).clk.relockTo = none ∧ (s1.die d).clk.switchStatus = 1) := by
    unfold s1
    rw [State.modClk_die]
    refine ⟨rfl, rfl, fun goes => ?_⟩
    have matched : relock = true := beq_iff_eq.2 goes
    exact ⟨if_pos matched, if_pos matched⟩
  have noted : DieNoted d s s1 := (State.modClk_only ..).noted
  refine ⟨_, rfl, ?_⟩
  by_cases lost : relock = true ∧ c.holdover = true
  · rw [if_pos lost, State.logClk_die]
    exact ⟨own.1, own.2.1, own.2.2, noted.trans (State.log_noted ..)⟩
  · rw [if_neg lost]
    exact ⟨own.1, own.2.1, own.2.2, noted⟩

end

end Machine

/-- Settles O60: the moraine, the repairs and diagnoses, emergency records, boundary scan and lost sources, each by what its
step leaves of the part it works on. -/
theorem repairsAndService : Obligations.RepairsAndService := by
  unfold Obligations.RepairsAndService
  exact ⟨fun _ _ _ waits runs stands => does_moraineAssign waits runs stands,
    fun _ _ _ _ takes low => does_remapTile takes low,
    fun _ _ _ next _ _ => does_tileRemap next,
    fun _ _ _ next => does_tileRemap_fails next,
    fun _ currents => does_ledDiagnosis currents,
    fun _ _ _ _ _ low powered closed measured => does_heaterDiagnosis low powered closed measured,
    fun _ _ r => does_emergency r,
    fun _ i => does_boundaryScanInstruction i,
    fun _ _ => does_sourceReadyLoss_of (fun c => { c with foscReady := false }) rfl,
    fun _ _ => does_sourceReadyLoss_of (fun c => { c with soscReady := false }) rfl,
    fun _ _ => does_sourceReadyLoss_of (fun c => { c with opllReady := false }) rfl,
    fun _ _ => does_sourceReadyLoss_rl,
    fun _ _ ready spare => does_sourceReadyLoss_xa ready spare⟩

end Sys2Proof
end

section
/-! VF FLR, VF Enable, PF FLR, conventional reset and D3hot (17.3, 17.4, 17.9). -/

namespace Sys2Proof
open Sys2Proof.Machine

namespace Machine

/-! ### What work for the host leaves of the functions -/

/-- The registers that a reset or a power state sets are as they were. -/
structure PF.Settled (x y : PF) : Prop where
  link : y.link = x.link
  numVFs : y.numVFs = x.numVFs
  vfEnable : y.vfEnable = x.vfEnable
  vfMse : y.vfMse = x.vfMse

/-- The reset and the tenant are as they were, and a function in reset stays as it is. -/
structure VF.Settled (x y : VF) : Prop where
  inReset : y.inReset = x.inReset
  still : x.inReset = true → y = x

/-- Work that leaves the masters and the tray, and every function in reset as it is. -/
structure HostWork (s t : State) : Prop where
  rest : t = { s with
    dies := t.dies, ctxs := t.ctxs, tenants := t.tenants, pfs := t.pfs, vfs := t.vfs, outputs := t.outputs, fresh := t.fresh }
  pf : ∀ q, (s.pf q).Settled (t.pf q)
  vf : ∀ p n x, s.vf? p n = some x → ∃ y, t.vf? p n = some y ∧ x.Settled y

section
variable {s t u : State}

theorem HostWork.of_same (rest : t = { s with
    dies := t.dies, ctxs := t.ctxs, tenants := t.tenants, outputs := t.outputs, fresh := t.fresh }) : HostWork s t := by
  have pfs : t.pfs = s.pfs := by rw [rest]
  have vfs : t.vfs = s.vfs := by rw [rest]
  refine ⟨by rw [pfs, vfs]; exact rest, fun q => ?_, fun p n x found => ⟨x, ?_, rfl, fun _ => rfl⟩⟩
  · have same : t.pf q = s.pf q := by
      rw [State.pf, pfs]
      rfl
    rw [same]
    exact ⟨rfl, rfl, rfl, rfl⟩
  · rw [State.vf?, vfs]
    exact found

theorem HostWork.refl (s : State) : HostWork s s := .of_same rfl

theorem HostWork.trans (h : HostWork s t) (k : HostWork t u) : HostWork s u := by
  refine ⟨?_, fun q => ?_, fun p n x found => ?_⟩
  · have a := h.rest
    have b := k.rest
    rw [b, a]
  · have a := h.pf q
    have b := k.pf q
    exact ⟨b.link.trans a.link, b.numVFs.trans a.numVFs, b.vfEnable.trans a.vfEnable, b.vfMse.trans a.vfMse⟩
  · obtain ⟨y, foundY, a⟩ := h.vf p n x found
    obtain ⟨z, foundZ, b⟩ := k.vf p n y foundY
    exact ⟨z, foundZ, b.inReset.trans a.inReset,
      fun resets => (b.still (a.inReset.trans resets)).trans (a.still resets)⟩

theorem HostWork.ite {c : Prop} [Decidable c] (h : HostWork s t) (k : HostWork s u) : HostWork s (if c then t else u) := by
  split
  · exact h
  · exact k

theorem HostWork.foldl {α : Type} {f : State → α → State} (hf : ∀ u x, HostWork u (f u x)) (l : List α) (s : State) :
    HostWork s (l.foldl f s) := by
  induction l generalizing s with
  | nil => exact .refl s
  | cons x xs ih => exact (hf s x).trans (ih _)

theorem HostWork.tray (h : HostWork s t) : t.tray = s.tray := by rw [h.rest]

/-- A function that is not in reset goes on being so. -/
theorem HostWork.speaks (h : HostWork s t) {f : Fn} (speaks : s.silent f = false) : t.silent f = false := by
  cases f with
  | pf p => rfl
  | vf p n =>
    cases found : s.vf? p n with
    | none => exact absurd (speaks.symm.trans (State.silent_noVf found)) Bool.false_ne_true
    | some x =>
      obtain ⟨y, foundY, settled⟩ := h.vf p n x found
      rw [State.silent_vf found] at speaks
      rw [State.silent_vf foundY, settled.inReset, speaks]

theorem PortsOnly.hostWork {d : DieId} (h : PortsOnly d s t) : HostWork s t := .of_same (by rw [h.rest])

end

section
variable (s : State)

theorem State.modDie_hostWork (d : DieId) (f : Die → Die) : HostWork s (s.modDie d f) := .of_same rfl

theorem State.modPf_hostWork (p : Fin 2) (f : PF → PF) (keeps : ∀ x : PF, x.Settled (f x)) : HostWork s (s.modPf p f) := by
  refine ⟨rfl, fun q => ?_, fun _ _ x found => ⟨x, found, rfl, fun _ => rfl⟩⟩
  by_cases here : q = p
  · rw [here, State.modPf_pf]
    exact keeps _
  · rw [State.modPf_pf_ne _ _ _ _ here]
    exact ⟨rfl, rfl, rfl, rfl⟩

/-- A function that is not in reset may change but for its reset. -/
theorem State.modVf_hostWork {p n : Nat} (speaks : s.silent (.vf p n) = false) (f : VF → VF)
    (keeps : ∀ x : VF, (f x).inReset = x.inReset) : HostWork s (s.modVf p n f) := by
  refine ⟨rfl, fun _ => ⟨rfl, rfl, rfl, rfl⟩, fun q k x found => ?_⟩
  rw [State.vf?_modVf, found]
  split
  next here =>
    obtain ⟨rfl, rfl⟩ := here
    rw [State.silent_vf found] at speaks
    exact ⟨f x, rfl, keeps x, fun resets => absurd (speaks.symm.trans resets) Bool.false_ne_true⟩
  next => exact ⟨x, rfl, rfl, fun _ => rfl⟩

variable {f : Fn}

theorem State.holdOp_hostWork (speaks : s.silent f = false) (o : HostOp) : HostWork s (s.holdOp f o) := by
  unfold State.holdOp
  cases f with
  | pf p =>
    refine s.modPf_hostWork _ _ ?_
    exact fun _ => ⟨rfl, rfl, rfl, rfl⟩
  | vf p n =>
    refine s.modVf_hostWork speaks _ ?_
    exact fun _ => rfl

theorem State.modVec_hostWork (speaks : s.silent f = false) (v : Nat) (g : MsixVec → MsixVec) :
    HostWork s (s.modVec f v g) := by
  unfold State.modVec
  cases f with
  | pf p =>
    refine s.modPf_hostWork _ _ ?_
    exact fun _ => ⟨rfl, rfl, rfl, rfl⟩
  | vf p n =>
    refine s.modVf_hostWork speaks _ ?_
    exact fun _ => rfl

theorem State.modRing_hostWork (speaks : s.silent f = false) (g : Ring32 → Ring32) : HostWork s (s.modRing f g) := by
  unfold State.modRing
  cases f with
  | pf p =>
    refine s.modPf_hostWork _ _ ?_
    exact fun _ => ⟨rfl, rfl, rfl, rfl⟩
  | vf p n =>
    refine s.modVf_hostWork speaks _ ?_
    exact fun _ => rfl

theorem State.emit_hostWork (o : Output) : HostWork s (s.emit o) := .of_same rfl

theorem State.hostWrite_hostWork (f : Fn) (addr : Nat) (bytes : List Byte) : HostWork s (s.hostWrite f addr bytes) := by
  unfold State.hostWrite
  split
  · exact .refl s
  · next loud =>
    split
    · exact s.emit_hostWork _
    · exact s.holdOp_hostWork (Bool.eq_false_iff.mpr loud) _

theorem State.msix_hostWork (f : Fn) (v : Nat) : HostWork s (s.msix f v) := by
  unfold State.msix
  split
  · exact .refl s
  · next loud =>
    have speaks := Bool.eq_false_iff.mpr loud
    have sent : HostWork s (s.sendVec f v) := by
      unfold State.sendVec
      exact (s.emit_hostWork _).trans (State.modVec_hostWork _ ((s.emit_hostWork _).speaks speaks) ..)
    exact .ite (s.holdOp_hostWork speaks _)
      (.ite (s.modVec_hostWork speaks ..) (.ite (s.modVec_hostWork speaks ..) sent))

theorem State.writeNotice_hostWork (speaks : s.silent f = false) (body : List Byte) : HostWork s (s.writeNotice f body) := by
  unfold State.writeNotice
  extract_lets r bytes s1
  have numbered : HostWork s s1 := s.modRing_hostWork speaks _
  split
  · cases f with
    | pf p => exact numbered
    | vf p n =>
      refine numbered.trans (s1.modVf_hostWork (numbered.speaks speaks) _ ?_)
      exact fun _ => rfl
  · refine HostWork.trans ?_ (State.msix_hostWork ..)
    have written (o : Output) : HostWork s (s1.emit o) := numbered.trans (State.emit_hostWork ..)
    exact (written _).trans (State.modRing_hostWork _ ((written _).speaks speaks) _)

theorem State.notice_hostWork (f : Fn) (src code die sysTime detail : Nat) :
    HostWork s (s.notice f src code die sysTime detail) := by
  unfold State.notice
  split
  · exact .refl s
  · next loud =>
    have speaks := Bool.eq_false_iff.mpr loud
    split
    · exact s.writeNotice_hostWork speaks _
    · exact s.holdOp_hostWork speaks _

theorem State.noticePfs_hostWork (src code die sysTime detail : Nat) : HostWork s (s.noticePfs src code die sysTime detail) :=
  (State.notice_hostWork ..).trans (State.notice_hostWork ..)

/-! ### Commands, plans and flows that end -/

theorem State.setEvent_hostWork (t e : Nat) (v : Event) : HostWork s (s.setEvent t e v) := by
  unfold State.setEvent
  extract_lets s1
  have first : HostWork s s1 := .of_same rfl
  split
  · split
    · exact first.trans (State.hostWrite_hostWork ..)
    · exact first
  · exact first

theorem State.finishHead_hostWork (t h q status detail result : Nat) (deg : Bool) :
    HostWork s (s.finishHead t h q status detail result deg) := by
  unfold State.finishHead
  split
  · exact .refl s
  · split
    · exact .refl s
    · extract_lets phase record s1 s2 s3
      have written : HostWork s s1 := by
        unfold s1
        split
        · exact State.hostWrite_hostWork ..
        · exact .refl s
      have popped : HostWork s s2 := written.trans (.of_same rfl)
      have marked : HostWork s s3 := by
        unfold s3 State.errEvent
        split
        · split
          · exact popped.trans (State.setEvent_hostWork ..)
          · exact popped
        · exact popped
      split
      · split
        · exact marked.trans (State.msix_hostWork ..)
        · exact marked
      · exact marked

theorem State.settleOnce_hostWork (t h q : Nat) : HostWork s (s.settleOnce t h q) := by
  unfold State.settleOnce
  split
  · exact .refl s
  · split
    · exact .refl s
    · split
      · exact State.finishHead_hostWork ..
      · split
        · exact State.finishHead_hostWork ..
        · split
          · exact State.finishHead_hostWork ..
          · exact .refl s

theorem State.complete_hostWork (t h q status detail result : Nat) (deg : Bool) :
    HostWork s (s.complete t h q status detail result deg) := by
  have go (n : Nat) (u : State) : HostWork u (State.settle.go t h q n u) := by
    induction n generalizing u with
    | zero => exact .refl u
    | succ n ih => exact (u.settleOnce_hostWork t h q).trans (ih _)
  exact (s.finishHead_hostWork ..).trans (go ..)

theorem State.retarget_hostWork (d : DieId) : HostWork s (s.retarget d) := by
  unfold State.retarget State.moveVcore
  exact State.modDie_hostWork ..

theorem State.leadFall_hostWork (d : DieId) : HostWork s (s.leadFall d) := by
  unfold State.leadFall
  dsimp only
  exact .ite (.refl s) ((State.modDie_hostWork ..).trans (State.retarget_hostWork ..))

theorem State.stopRun_hostWork (d : DieId) (t h q : Nat) : HostWork s (s.stopRun d t h q) := by
  unfold State.stopRun
  split
  · exact .refl s
  · next r _ =>
    extract_lets s0 s1 s2 s3
    have counted : HostWork s s0 := .foldl (fun u a => u.modDie_hostWork d _) _ s
    have freed : HostWork s s1 := counted.trans (.foldl (fun u p => .of_same rfl) _ _)
    have cleared : HostWork s s2 := freed.trans ((State.modDie_hostWork ..).trans (State.modDie_hostWork ..))
    have closed : HostWork s s3 :=
      cleared.trans ((State.modDie_hostWork ..).trans (State.closeFlows_ports ..).hostWork)
    refine HostWork.trans (HostWork.trans closed ?_) (State.leadFall_hostWork ..)
    exact .of_same rfl

theorem State.endRun_hostWork (d : DieId) (t h q status detail : Nat) : HostWork s (s.endRun d t h q status detail) := by
  unfold State.endRun
  split
  · exact .refl s
  · exact (State.stopRun_hostWork ..).trans (State.complete_hostWork ..)

theorem State.loseFlow_hostWork (d : DieId) (t id : Nat) : HostWork s (s.loseFlow d t id) := by
  unfold State.loseFlow
  extract_lets tx rx s1 s2
  have sent : HostWork s s1 := by
    unfold s1 tx
    split
    · exact ((State.modTx_ports ..).trans (State.freeLabel_ports ..)).hostWork.trans (State.endRun_hostWork ..)
    · exact .refl s
  have received : HostWork s s2 := by
    unfold s2 rx
    split
    · exact sent.trans ((State.modRx_ports ..).hostWork.trans (State.endRun_hostWork ..))
    · exact sent
  split
  · exact received.trans (State.modDie_hostWork ..)
  · exact received

theorem State.loseFlows_hostWork (d : DieId) (cause : Nat) (tx : TxFlow → Bool) (rx : RxFlow → Bool) (tr : Transit → Bool) :
    HostWork s (s.loseFlows d cause tx rx tr) := by
  have lose (u : State) (toId t id src dst u' i : Nat) :
      HostWork u ((u.tellLost d toId t cause id src dst).loseFlow d u' i) :=
    (State.tellLost_ports ..).hostWork.trans (State.loseFlow_hostWork ..)
  unfold State.loseFlows
  extract_lets me txs rxs trs s1 s2
  have sent : HostWork s s1 := .foldl (fun _ _ => lose ..) _ s
  have received : HostWork s s2 := sent.trans (.foldl (fun _ _ => lose ..) _ _)
  exact received.trans (.foldl (fun _ _ => (State.loseTransit_ports ..).hostWork) _ _)

theorem State.sendHalt_hostWork (t : Nat) (all : Bool) : HostWork s (s.sendHalt t all) := by
  unfold State.sendHalt
  split
  · exact .refl s
  · unfold State.takeTenantHalt
    exact ((State.loseFlows_hostWork ..).trans (State.modDie_hostWork ..)).trans (State.flood_ports ..).hostWork

theorem State.haltTenant_hostWork (t : Nat) : HostWork s (s.haltTenant t) := by
  unfold State.haltTenant
  extract_lets s1 mine frozen stop f s2 s3
  have stopped : HostWork s s1 := by
    unfold s1 State.forDies
    refine HostWork.foldl (fun u d => ?_) _ s
    exact .foldl (fun _ _ => State.stopRun_hostWork ..) _ u
  clear_value s1
  exact stopped.trans (.of_same rfl)

end

/-! ### The runs of a tenant that is halted -/

/-- No run was added. -/
structure RunsShrink (s t : State) : Prop where
  runs : ∀ d, ∀ r ∈ (t.die d).til.runs, r ∈ (s.die d).til.runs

section
variable {s t u : State} {d : DieId}

theorem RunsShrink.refl (s : State) : RunsShrink s s := ⟨fun _ _ => id⟩

theorem RunsShrink.trans (h : RunsShrink s t) (k : RunsShrink t u) : RunsShrink s u :=
  ⟨fun d r mem => h.runs d r (k.runs d r mem)⟩

theorem RunsShrink.foldl {α : Type} {f : State → α → State} (hf : ∀ u x, RunsShrink u (f u x)) (l : List α) (s : State) :
    RunsShrink s (l.foldl f s) := by
  induction l generalizing s with
  | nil => exact .refl s
  | cons x xs ih => exact (hf s x).trans (ih _)

theorem EndsWork.shrink (h : EndsWork d s t) (own : ∀ r ∈ (t.die d).til.runs, r ∈ (s.die d).til.runs) : RunsShrink s t := by
  refine ⟨fun e => ?_⟩
  by_cases here : e = d
  · rw [here]
    exact own
  · rw [h.others e here]
    exact fun _ => id

theorem PortsOnly.shrink (h : PortsOnly d s t) : RunsShrink s t :=
  h.endsWork.shrink fun r mem => by rwa [show (t.die d).til.runs = (s.die d).til.runs from h.runs] at mem

end

section
variable (s : State) (d : DieId)

theorem RunsStay.foldl {α : Type} {d : DieId} {f : State → α → State} (hf : ∀ u x, RunsStay d u (f u x)) (l : List α)
    (s : State) : RunsStay d s (l.foldl f s) := by
  induction l generalizing s with
  | nil => exact rfl
  | cons x xs ih => exact RunsStay.trans (hf s x) (ih _)

theorem State.sramFree_runs (a n : Nat) : RunsStay d s (s.sramFree d a n) := by
  unfold RunsStay State.sramFree State.sramWrite
  dsimp only
  rw [State.modDie_die]
  exact rfl

/-- A plan that stops is a run no more, and every other run stays. -/
theorem State.stopRun_runs (t h q : Nat) :
    ((s.stopRun d t h q).die d).til.runs = (s.die d).til.runs.filter fun r => !r.is t h q := by
  unfold State.stopRun
  split
  · next absent =>
    refine (List.filter_eq_self.2 fun r mem => ?_).symm
    simpa using List.find?_eq_none.mp absent r mem
  · next r found =>
    extract_lets s0 s1 s2 s3
    have counted : RunsStay d s s0 := by
      unfold s0 State.countRun
      refine RunsStay.foldl (fun u a => ?_) _ s
      unfold RunsStay State.countAct
      rw [State.modDie_die]
    have freed : RunsStay d s s1 := by
      refine RunsStay.trans counted ?_
      exact RunsStay.foldl (f := fun (u : State) (p : Nat × Nat) => u.sramFree d p.1 p.2) (fun u p => u.sramFree_runs d p.1 p.2) _ s0
    have cleared : (s2.die d).til.runs = (s.die d).til.runs.filter fun r => !r.is t h q := by
      unfold s2 State.clearRegion
      rw [State.modDie_die, State.modDie_die, ← show (s1.die d).til.runs = _ from freed]
    have closed : RunsStay d s2 s3 := by
      refine RunsStay.trans ?_ (State.closeFlows_ports ..).runs
      unfold RunsStay State.releaseBanks
      rw [State.modDie_die]
    have last (v : State) (same : v.die d = s3.die d) : RunsStay d s2 (v.leadFall d) :=
      RunsStay.trans (closed.trans (.of_die same)) (State.leadFall_runs ..)
    have ran := fun f => last (s3.modCtx t h f) rfl
    unfold RunsStay at ran
    rw [ran]
    exact cleared

theorem State.stopRun_shrink (t h q : Nat) : RunsShrink s (s.stopRun d t h q) :=
  (s.stopRun_endsWork d t h q).shrink fun r mem => by
    rw [s.stopRun_runs] at mem
    exact (List.mem_filter.mp mem).1

theorem State.endRun_shrink (t h q status detail : Nat) : RunsShrink s (s.endRun d t h q status detail) := by
  unfold State.endRun
  split
  · exact .refl s
  · refine RunsShrink.trans (s.stopRun_shrink d t h q) ?_
    exact (State.complete_endsWork _ d ..).shrink fun r mem => by
      rwa [show _ = _ from State.complete_runs _ d ..] at mem

theorem State.loseFlow_shrink (t id : Nat) : RunsShrink s (s.loseFlow d t id) := by
  unfold State.loseFlow
  extract_lets tx rx s1 s2
  have sent : RunsShrink s s1 := by
    unfold s1 tx
    split
    · exact ((State.modTx_ports ..).trans (State.freeLabel_ports ..)).shrink.trans (State.endRun_shrink ..)
    · exact .refl s
  have received : RunsShrink s s2 := by
    unfold s2 rx
    split
    · exact sent.trans ((State.modRx_ports ..).shrink.trans (State.endRun_shrink ..))
    · exact sent
  split
  · exact received.trans (State.modFab_ports s2 d fun y => { y with flowsLost := satAdd 32 y.flowsLost 1 }).shrink
  · exact received

theorem State.loseFlows_shrink (cause : Nat) (tx : TxFlow → Bool) (rx : RxFlow → Bool) (tr : Transit → Bool) :
    RunsShrink s (s.loseFlows d cause tx rx tr) := by
  have lose (u : State) (toId t id src dst u' i : Nat) :
      RunsShrink u ((u.tellLost d toId t cause id src dst).loseFlow d u' i) :=
    (State.tellLost_ports ..).shrink.trans (State.loseFlow_shrink ..)
  unfold State.loseFlows
  extract_lets me txs rxs trs s1 s2
  have sent : RunsShrink s s1 := .foldl (fun _ _ => lose ..) _ s
  have received : RunsShrink s s2 := sent.trans (.foldl (fun _ _ => lose ..) _ _)
  exact received.trans (.foldl (fun _ _ => (State.loseTransit_ports ..).shrink) _ _)

theorem State.takeTenantHalt_shrink (t : Nat) (all : Bool) (ids : List Nat) :
    RunsShrink s (s.takeTenantHalt d t all ids) := by
  unfold State.takeTenantHalt
  extract_lets me hit s1
  have lost : RunsShrink s s1 := State.loseFlows_shrink ..
  exact lost.trans (State.modFab_ports s1 d fun y => { y with
    pendOpen := y.pendOpen.filter fun o => !hit o.tenant (ids.contains o.source) (ids.contains o.dest) }).shrink

theorem State.sendHalt_shrink (t : Nat) (all : Bool) : RunsShrink s (s.sendHalt t all) := by
  unfold State.sendHalt
  split
  · exact .refl s
  · exact (State.takeTenantHalt_shrink ..).trans (State.flood_ports ..).shrink

/-- Runs that are stopped one after the other: what is left is none of them. -/
theorem State.foldl_stopRun_runs (t : Nat) (l : List Run) (s : State) :
    ∀ r ∈ ((l.foldl (fun s r => s.stopRun d t r.handle r.queue) s).die d).til.runs,
      r ∈ (s.die d).til.runs ∧ ∀ k ∈ l, r.is t k.handle k.queue = false := by
  induction l generalizing s with
  | nil => exact fun r mem => ⟨mem, fun k none => absurd none List.not_mem_nil⟩
  | cons k l ih =>
    intro r mem
    obtain ⟨there, others⟩ := ih _ r mem
    rw [s.stopRun_runs] at there
    obtain ⟨was, other⟩ := List.mem_filter.1 there
    exact ⟨was, List.forall_mem_cons.2 ⟨by simpa using other, others⟩⟩

/-- The plans of a tenant stop on a die. -/
def State.stopTenant (s : State) (d : DieId) (t : Nat) : State :=
  ((s.die d).til.runs.filter fun r => r.tenant == t).foldl (fun s r => s.stopRun d t r.handle r.queue) s

theorem State.stopTenant_runs (t : Nat) : ∀ r ∈ ((s.stopTenant d t).die d).til.runs, r.tenant ≠ t := by
  intro r mem same
  obtain ⟨was, others⟩ := State.foldl_stopRun_runs d t _ s r mem
  have stops := others r (List.mem_filter.2 ⟨was, beq_iff_eq.2 same⟩)
  rw [Run.is, same] at stops
  simp at stops

theorem State.stopTenant_endsWork (t : Nat) : EndsWork d s (s.stopTenant d t) :=
  .foldl (fun _ _ => State.stopRun_endsWork ..) _ s

theorem State.haltTenant_die (t : Nat) :
    ((s.haltTenant t).die d).til.runs = ((s.forDies fun s d => s.stopTenant d t).die d).til.runs := by
  unfold State.haltTenant State.stopTenant
  generalize s.forDies _ = u
  dsimp only
  rw [State.allDies_die]
  exact rfl

theorem State.haltTenant_runs (t : Nat) (d : DieId) : ∀ r ∈ ((s.haltTenant t).die d).til.runs, r.tenant ≠ t := by
  obtain ⟨-, dies⟩ := State.forDies_die (R := fun _ _ => True) (f := fun s d => s.stopTenant d t) (fun _ => trivial)
    (fun _ _ _ _ _ => trivial) (fun _ _ => trivial) (fun u d e other => (u.stopTenant_endsWork d t).others e other) s
  obtain ⟨u, -, -, own⟩ := dies d
  rw [s.haltTenant_die, own]
  exact u.stopTenant_runs d t

end

end Machine
end Sys2Proof
end

section
/-! The resets of the functions, and the power state of a PF (R444, R447, R463, R467, R468). -/

namespace Sys2Proof
open Sys2Proof.Machine

namespace Machine

/-! ### A reset begins (R463, R444) -/

/-- The functions that were in reset, or gone, are so still. -/
structure VF.Keeps (x y : VF) : Prop where
  inReset : x.inReset = true → y.inReset = true
  gone : x.inReset = true → x.gone = true → y.gone = true

/-- Functions began their reset: the tray, the masters and what else sets a PF stay, and no reset ends. -/
structure HostResets (s t : State) : Prop where
  rest : t = { s with
    dies := t.dies, ctxs := t.ctxs, tenants := t.tenants, pfs := t.pfs, vfs := t.vfs, outputs := t.outputs, fresh := t.fresh }
  pf : ∀ q, (s.pf q).Settled (t.pf q)
  vf : ∀ p n x, s.vf? p n = some x → ∃ y, t.vf? p n = some y ∧ VF.Keeps x y

section
variable {s t u : State}

theorem HostWork.resets (h : HostWork s t) : HostResets s t := by
  refine ⟨h.rest, h.pf, fun p n x found => ?_⟩
  obtain ⟨y, foundY, settled⟩ := h.vf p n x found
  exact ⟨y, foundY, fun resets => settled.inReset.trans resets, fun resets gone => by rw [settled.still resets]; exact gone⟩

theorem HostResets.trans (h : HostResets s t) (k : HostResets t u) : HostResets s u := by
  refine ⟨?_, fun q => ?_, fun p n x found => ?_⟩
  · have a := h.rest
    have b := k.rest
    rw [b, a]
  · have a := h.pf q
    have b := k.pf q
    exact ⟨b.link.trans a.link, b.numVFs.trans a.numVFs, b.vfEnable.trans a.vfEnable, b.vfMse.trans a.vfMse⟩
  · obtain ⟨y, foundY, a⟩ := h.vf p n x found
    obtain ⟨z, foundZ, b⟩ := k.vf p n y foundY
    exact ⟨z, foundZ, fun resets => b.inReset (a.inReset resets),
      fun resets gone => b.gone (a.inReset resets) (a.gone resets gone)⟩

theorem HostResets.tray (h : HostResets s t) : t.tray = s.tray := by rw [h.rest]

theorem HostResets.master (h : HostResets s t) (m : MasterId) : t.master m = s.master m := by
  rw [State.master, h.rest]
  rfl

/-- Function (p, n) is in reset, and gone where that was asked for. -/
def State.IsReset (s : State) (p n : Nat) (gone : Bool) : Prop :=
  ∃ x, s.vf? p n = some x ∧ x.inReset = true ∧ (gone = true → x.gone = true)

theorem HostResets.isReset (h : HostResets s t) {p n : Nat} {gone : Bool} (was : s.IsReset p n gone) : t.IsReset p n gone := by
  obtain ⟨x, found, resets, goes⟩ := was
  obtain ⟨y, foundY, keeps⟩ := h.vf p n x found
  exact ⟨y, foundY, keeps.inReset resets, fun asked => keeps.gone resets (goes asked)⟩

end

section
variable (s : State)

/-- What the halt of its tenant, if any, leaves of the functions. -/
theorem State.haltFor_hostWork (tenant : Option Nat) (own : Bool) : HostWork s (match tenant with
    | none => s
    | some t => if own then (s.haltTenant t).sendHalt t false else s.haltTenant t) := by
  cases tenant with
  | none => exact .refl s
  | some t => exact .ite ((s.haltTenant_hostWork t).trans (State.sendHalt_hostWork ..)) (s.haltTenant_hostWork t)

/-- A function that was not in reset: what its reset leaves of it, and of everything else. -/
theorem State.vfReset_begins {p n : Nat} {v : VF} (found : s.vf? p n = some v) (free : v.inReset = false) (gone own : Bool) :
    HostResets s (s.vfReset p n gone own) ∧
      (s.vfReset p n gone own).vf? p n = some { v with inReset := true, gone := gone, held := [] } := by
  unfold State.vfReset
  rw [found]
  dsimp -zeta only
  extract_lets s1
  rw [if_neg (by rw [free]; exact Bool.false_ne_true)]
  have begun : HostResets s (s.modVf p n fun x => { x with inReset := true, gone := gone, held := [] }) := by
    refine ⟨rfl, fun _ => ⟨rfl, rfl, rfl, rfl⟩, fun q k x here => ?_⟩
    rw [State.vf?_modVf, here]
    split
    next same =>
      obtain ⟨rfl, rfl⟩ := same
      obtain rfl : x = v := Option.some.inj (here.symm.trans found)
      exact ⟨_, rfl, fun _ => rfl, fun resets => absurd (free.symm.trans resets) Bool.false_ne_true⟩
    next => exact ⟨x, rfl, id, fun _ => id⟩
  have begunVf : (s.modVf p n fun x => { x with inReset := true, gone := gone, held := [] }).vf? p n =
      some { v with inReset := true, gone := gone, held := [] } := by
    rw [State.vf?_modVf, found]
    exact if_pos rfl
  have after : HostWork (s.modVf p n fun x => { x with inReset := true, gone := gone, held := [] }) _ :=
    (State.noticePfs_hostWork _ 0x10 1 0xF s.trayTime (resetDetail v p n)).trans (s1.haltFor_hostWork v.tenant own)
  refine ⟨begun.trans after.resets, ?_⟩
  obtain ⟨y, foundY, settled⟩ := after.vf p n _ begunVf
  rw [settled.still rfl] at foundY
  exact foundY

theorem State.vfReset_resets (p n : Nat) (gone own : Bool) : HostResets s (s.vfReset p n gone own) ∧
    ((s.vf? p n).isSome = true → (s.vfReset p n gone own).IsReset p n gone) := by
  cases found : s.vf? p n with
  | none =>
    have same : s.vfReset p n gone own = s := by
      unfold State.vfReset
      rw [found]
    rw [same]
    exact ⟨(HostWork.refl s).resets, nofun⟩
  | some v =>
    cases free : v.inReset with
    | false =>
      obtain ⟨resets, vf⟩ := s.vfReset_begins found free gone own
      exact ⟨resets, fun _ => ⟨_, vf, rfl, id⟩⟩
    | true =>
      have same : s.vfReset p n gone own = s.modVf p n fun x => { x with gone := x.gone || gone } := by
        unfold State.vfReset
        rw [found]
        exact if_pos free
      rw [same]
      refine ⟨⟨rfl, fun _ => ⟨rfl, rfl, rfl, rfl⟩, fun q k x here => ?_⟩, fun _ => ⟨{ v with gone := v.gone || gone }, ?_, free, ?_⟩⟩
      · rw [State.vf?_modVf, here]
        split
        · exact ⟨_, rfl, id, fun _ goes => Bool.or_eq_true _ _ |>.mpr (.inl goes)⟩
        · exact ⟨x, rfl, id, fun _ => id⟩
      · rw [State.vf?_modVf, found]
        exact if_pos rfl
      · rintro rfl
        exact Bool.or_true _

/-- The resets of some functions: each that exists is in reset at their end. -/
theorem State.foldl_vfReset (gone : Nat × Nat → Bool) (own : Bool) (l : List (Nat × Nat)) (s : State) :
    HostResets s (l.foldl (fun s k => s.vfReset k.1 k.2 (gone k) own) s) ∧
    ∀ k ∈ l, (s.vf? k.1 k.2).isSome = true →
      (l.foldl (fun s k => s.vfReset k.1 k.2 (gone k) own) s).IsReset k.1 k.2 (gone k) := by
  induction l generalizing s with
  | nil => exact ⟨(HostWork.refl s).resets, fun k none => absurd none List.not_mem_nil⟩
  | cons j l ih =>
    obtain ⟨first, resets⟩ := s.vfReset_resets j.1 j.2 (gone j) own
    obtain ⟨after, others⟩ := ih (s.vfReset j.1 j.2 (gone j) own)
    refine ⟨first.trans after, fun k mem there => ?_⟩
    by_cases here : k = j
    · subst here
      exact after.isReset (resets there)
    · refine others k ((List.mem_cons.1 mem).resolve_left here) ?_
      obtain ⟨x, found⟩ := Option.isSome_iff_exists.1 there
      obtain ⟨y, foundY, -⟩ := first.vf k.1 k.2 x found
      rw [foundY]
      rfl

theorem KV.mem_keys_of_get? {κ α : Type} [DecidableEq κ] {l : List (κ × α)} {k : κ} {v : α} (found : KV.get? l k = some v) :
    k ∈ l.map Prod.fst := by
  obtain ⟨p, listed, -⟩ := Option.map_eq_some_iff.1 found
  exact List.mem_map.2 ⟨p, List.mem_of_find?_eq_some listed, of_decide_eq_true (List.find?_some listed :)⟩

theorem State.dropVfs_resets (p first : Nat) : HostResets s (s.dropVfs p first) ∧
    ∀ n v, first ≤ n → s.vf? p n = some v → (s.dropVfs p first).IsReset p n true := by
  obtain ⟨resets, each⟩ := State.foldl_vfReset (fun _ => true) true
    ((s.vfs.map Prod.fst).filter fun k => k.1 == p && decide (first ≤ k.2)) s
  refine ⟨resets, fun n v above found => each (p, n) (List.mem_filter.2 ⟨KV.mem_keys_of_get? found, ?_⟩) ?_⟩
  · simp [above]
  · rw [found]
    rfl

variable {s} {p : Fin 2} {n : Nat} {v : VF}

theorem State.vfReset_runs (found : s.vf? p.val n = some v) (free : v.inReset = false) (gone : Bool) {u : Nat}
    (tenant : v.tenant = some u) (d : DieId) : ∀ r ∈ ((s.vfReset p.val n gone true).die d).til.runs, r.tenant ≠ u := by
  unfold State.vfReset
  rw [found]
  dsimp -zeta only
  extract_lets s1
  rw [if_neg (by rw [free]; exact Bool.false_ne_true), tenant]
  dsimp only
  rw [if_pos rfl]
  exact fun r mem => s1.haltTenant_runs u d r ((State.sendHalt_shrink (s1.haltTenant u) u false).runs d r mem)

theorem does_vfFlr (found : s.vf? p.val n = some v) (free : v.inReset = false) : Does (.vfFlr p n) s fun t =>
    (∃ x, t.vf? p.val n = some x ∧ x.inReset = true ∧ x.held = [] ∧ x.tenant = v.tenant) ∧
    ∀ u, v.tenant = some u → ∀ d, ∀ r ∈ (t.die d).til.runs, r.tenant ≠ u :=
  ⟨_, rfl, ⟨_, (s.vfReset_begins found free false true).2, rfl, rfl, rfl⟩,
    fun _ tenant d => State.vfReset_runs found free false tenant d⟩

theorem does_vfEnableClear (num : Nat) : Does (.vfEnableClear p num) s fun t =>
    (t.pf p).numVFs = min (s.pf p).numVFs num ∧ (t.pf p).vfEnable = ((s.pf p).vfEnable && num != 0) ∧
    ∀ n v, num ≤ n → s.vf? p.val n = some v → ∃ x, t.vf? p.val n = some x ∧ x.inReset = true ∧ x.gone = true := by
  obtain ⟨resets, each⟩ := State.dropVfs_resets (s.modPf p fun x => { x with
    numVFs := min x.numVFs num, vfEnable := x.vfEnable && num != 0 }) p.val num
  have set := resets.pf p
  rw [State.modPf_pf] at set
  refine ⟨_, rfl, set.numVFs, set.vfEnable, fun n v above found => ?_⟩
  obtain ⟨x, foundX, inReset, gone⟩ := each n v above found
  exact ⟨x, foundX, inReset, gone rfl⟩

/-! ### A reset completes (Table 17.9 step 8) -/

theorem State.clearTenant_host (s : State) (u : Nat) : (s.clearTenant u).vfs = s.vfs ∧ (s.clearTenant u).pfs = s.pfs ∧
    ∀ k ∈ (s.clearTenant u).ctxs, k.1.1 ≠ u := by
  unfold State.clearTenant
  refine ⟨rfl, rfl, fun k mem => ?_⟩
  simpa using (List.mem_filter.1 mem).2

/-- A notice to a PF leaves the virtual functions. -/
theorem State.notice_pf_vfs (s : State) (q src code die sysTime detail : Nat) :
    (s.notice (.pf q) src code die sysTime detail).vfs = s.vfs := by
  have sends (u : State) (v : Nat) : (u.msix (.pf q) v).vfs = u.vfs := by
    unfold State.msix
    split
    · rfl
    · split
      · rfl
      · dsimp only
        split
        · rfl
        · split <;> split <;> rfl
  have writes (u : State) (body : List Byte) : (u.writeNotice (.pf q) body).vfs = u.vfs := by
    unfold State.writeNotice
    dsimp only
    split
    · rfl
    · exact sends ..
  unfold State.notice
  split
  · rfl
  · split
    · exact writes ..
    · rfl

theorem State.noticePfs_vfs (s : State) (src code die sysTime detail : Nat) :
    (s.noticePfs src code die sysTime detail).vfs = s.vfs :=
  (State.notice_pf_vfs ..).trans (State.notice_pf_vfs ..)

/-- The reset of a function in reset completes. -/
theorem State.vfResetDone_spec {q : Nat} (found : s.vf? q n = some v) (resets : v.inReset = true) :
    (s.vfResetDone q n).vfs = (if v.gone then KV.del s.vfs (q, n) else KV.modify s.vfs (q, n) fun x => { tenant := x.tenant }) ∧
    (∀ p, (s.pf p).Settled ((s.vfResetDone q n).pf p)) ∧
    ∀ u, v.tenant = some u → ∀ k ∈ (s.vfResetDone q n).ctxs, k.1.1 ≠ u := by
  unfold State.vfResetDone
  rw [found]
  dsimp -zeta only
  extract_lets s1 s2
  rw [if_neg (by simp [resets])]
  have cleared : s1.vfs = s.vfs ∧ s1.pfs = s.pfs ∧ ∀ u, v.tenant = some u → ∀ k ∈ s1.ctxs, k.1.1 ≠ u := by
    unfold s1
    cases v.tenant with
    | none => exact ⟨rfl, rfl, nofun⟩
    | some t =>
      obtain ⟨vfs, pfs, ctxs⟩ := s.clearTenant_host t
      exact ⟨vfs, pfs, fun u same => Option.some.inj same ▸ ctxs⟩
  obtain ⟨vfs, pfs, ctxs⟩ := cleared
  have ended : s2.vfs = (if v.gone then KV.del s.vfs (q, n) else KV.modify s.vfs (q, n) fun x => { tenant := x.tenant }) ∧
      s2.pfs = s.pfs ∧ s2.ctxs = s1.ctxs := by
    rw [← vfs, ← pfs]
    unfold s2
    split <;> exact ⟨rfl, rfl, rfl⟩
  have told := s2.noticePfs_hostWork 0x10 2 0xF s.trayTime (resetDetail v q n)
  have tells := s2.noticePfs_tells 0x10 2 0xF s.trayTime (resetDetail v q n)
  refine ⟨(State.noticePfs_vfs ..).trans ended.1, fun p => ?_, fun u tenant k mem => ?_⟩
  · have same : s2.pf p = s.pf p := by
      rw [State.pf, ended.2.1]
      rfl
    rw [← same]
    exact told.pf p
  · rw [tells.ctxs, ended.2.2] at mem
    exact ctxs u tenant k mem

theorem does_vfFlrComplete (found : s.vf? p.val n = some v) (resets : v.inReset = true) :
    Does (.vfFlrComplete p n) s fun t =>
      (v.gone = false → t.vf? p.val n = some { tenant := v.tenant }) ∧ (v.gone = true → t.vf? p.val n = none) ∧
      (∀ u, v.tenant = some u → ∀ k ∈ t.ctxs, k.1.1 ≠ u) := by
  obtain ⟨vfs, -, ctxs⟩ := State.vfResetDone_spec found resets
  refine ⟨_, rfl, fun stays => ?_, fun goes => ?_, ctxs⟩
  · rw [State.vf?, vfs, stays, if_neg Bool.false_ne_true, KV.get?_modify, if_pos rfl]
    exact congrArg (Option.map fun x : VF => ({ tenant := x.tenant } : VF)) found
  · rw [State.vf?, vfs, goes, if_pos rfl]
    exact KV.get?_del ..

/-! ### VF Enable (R443, R444) -/

/-- Function n of port p exists; what sets the PFs and the other functions that exist stay. -/
structure Adds (p n : Nat) (s t : State) : Prop where
  pf : ∀ q, (s.pf q).Settled (t.pf q)
  here : (t.vf? p n).isSome = true
  others : ∀ q k, (s.vf? q k).isSome = true → (t.vf? q k).isSome = true

theorem State.addVf_adds (s : State) (q n : Nat) : Adds q n s (s.addVf q n) := by
  have vfs : ∃ x : VF, (s.addVf q n).vfs = KV.put s.vfs (q, n) x ∧ (s.addVf q n).pfs = s.pfs := by
    unfold State.addVf
    extract_lets e v s1
    refine ⟨v, ?_⟩
    split <;> exact ⟨rfl, rfl⟩
  obtain ⟨x, vfs, pfs⟩ := vfs
  refine ⟨fun p => ?_, ?_, fun p k there => ?_⟩
  · have same : (s.addVf q n).pf p = s.pf p := by
      rw [State.pf, pfs]
      rfl
    rw [same]
    exact ⟨rfl, rfl, rfl, rfl⟩
  · rw [State.vf?, vfs, KV.get?_put]
    rfl
  · rw [State.vf?, vfs]
    by_cases same : (p, k) = (q, n)
    · rw [same, KV.get?_put]
      rfl
    · rw [KV.get?_put_ne _ same]
      exact there

theorem State.vfResetDone_others (s : State) (q n : Nat) :
    (∀ p, (s.pf p).Settled ((s.vfResetDone q n).pf p)) ∧
    ∀ p k, (p, k) ≠ (q, n) → (s.vf? p k).isSome = true → ((s.vfResetDone q n).vf? p k).isSome = true := by
  cases found : s.vf? q n with
  | none =>
    have same : s.vfResetDone q n = s := by
      unfold State.vfResetDone
      rw [found]
    rw [same]
    exact ⟨fun _ => ⟨rfl, rfl, rfl, rfl⟩, fun _ _ _ => id⟩
  | some v =>
    cases resets : v.inReset with
    | false =>
      have same : s.vfResetDone q n = s := by
        unfold State.vfResetDone
        rw [found]
        exact if_pos (by rw [resets]; rfl)
      rw [same]
      exact ⟨fun _ => ⟨rfl, rfl, rfl, rfl⟩, fun _ _ _ => id⟩
    | true =>
      obtain ⟨vfs, pf, -⟩ := State.vfResetDone_spec found resets
      refine ⟨pf, fun p k other there => ?_⟩
      rw [State.vf?, vfs]
      split
      · have kept := KV.get?_filter_keys s.vfs (fun i => !decide (i = (q, n))) (p, k)
        rw [if_pos (by rw [decide_eq_false other]; rfl)] at kept
        exact (congrArg Option.isSome kept).trans there
      · rw [KV.get?_modify, if_neg other]
        exact there

theorem State.enableVf_adds (s : State) (q n : Nat) : Adds q n s (s.enableVf q n) := by
  unfold State.enableVf
  cases found : s.vf? q n with
  | none => exact s.addVf_adds q n
  | some v =>
    dsimp only
    split
    · obtain ⟨pf, others⟩ := s.vfResetDone_others q n
      have added := (s.vfResetDone q n).addVf_adds q n
      refine ⟨fun p => ?_, added.here, fun p k there => ?_⟩
      · have a := pf p
        have b := added.pf p
        exact ⟨b.link.trans a.link, b.numVFs.trans a.numVFs, b.vfEnable.trans a.vfEnable, b.vfMse.trans a.vfMse⟩
      · by_cases same : (p, k) = (q, n)
        · obtain ⟨rfl, rfl⟩ := Prod.mk.inj same
          exact added.here
        · exact added.others p k (others p k same there)
    · exact ⟨fun _ => ⟨rfl, rfl, rfl, rfl⟩, by rw [found]; rfl, fun _ _ => id⟩

theorem State.foldl_enableVf (q : Nat) (l : List Nat) (s : State) :
    (∀ p, (s.pf p).Settled ((l.foldl (fun s i => s.enableVf q i) s).pf p)) ∧
    ∀ n, n ∈ l ∨ (s.vf? q n).isSome = true → ((l.foldl (fun s i => s.enableVf q i) s).vf? q n).isSome = true := by
  induction l generalizing s with
  | nil => exact ⟨fun _ => ⟨rfl, rfl, rfl, rfl⟩, fun n there => there.resolve_left List.not_mem_nil⟩
  | cons i l ih =>
    have added := s.enableVf_adds q i
    obtain ⟨pf, each⟩ := ih (s.enableVf q i)
    refine ⟨fun p => ?_, fun n there => each n ?_⟩
    · have a := added.pf p
      have b := pf p
      exact ⟨b.link.trans a.link, b.numVFs.trans a.numVFs, b.vfEnable.trans a.vfEnable, b.vfMse.trans a.vfMse⟩
    · rcases there with mem | there
      · rcases List.mem_cons.1 mem with rfl | mem
        · exact .inr added.here
        · exact .inl mem
      · exact .inr (added.others q n there)

theorem does_vfEnableSet (num : Nat) (mse : Bool) (off : (s.pf p).vfEnable = false) :
    Does (.vfEnableSet p num mse) s fun t => (t.pf p).vfEnable = true ∧ (t.pf p).vfMse = mse ∧
      (t.pf p).numVFs = min num 512 ∧ ∀ n, n < min num 512 → (t.vf? p.val n).isSome = true := by
  change ∃ t, execVfEnableSet p num mse s = .next t ∧ _
  unfold execVfEnableSet
  extract_lets n
  have count : n = min num 512 := by
    unfold n
    rw [off, if_neg Bool.false_ne_true]
    exact Nat.zero_max _
  clear_value n
  subst count
  obtain ⟨pf, each⟩ := State.foldl_enableVf p.val (List.range (min num 512)) (s.modPf p fun x =>
    { x with vfEnable := true, numVFs := min num 512, vfMse := mse })
  have set := pf p
  rw [State.modPf_pf] at set
  exact ⟨_, rfl, set.vfEnable, set.vfMse, set.numVFs, fun n below => each n (.inl (List.mem_range.2 below))⟩

/-! ### The mailbox and its session (R457, R467) -/

/-- Master m lost its session: nothing changed but the masters, what was sent and the instruction of the TAP. -/
structure SessionLeaves (m : MasterId) (s t : State) : Prop where
  rest : t = { s with
    masters := t.masters, outputs := t.outputs, tray := { s.tray with pow := { s.tray.pow with tap := t.tray.pow.tap } } }
  queue : (t.master m).queue = (s.master m).queue

theorem SessionLeaves.trans {m : MasterId} {s t u : State} (h : SessionLeaves m s t) (k : SessionLeaves m t u) :
    SessionLeaves m s u := by
  refine ⟨?_, k.queue.trans h.queue⟩
  have a := h.rest
  have b := k.rest
  rw [b, a]

theorem State.endSession_leaves (s : State) (m : MasterId) : SessionLeaves m s (s.endSession m) := by
  unfold State.endSession
  split
  · exact ⟨rfl, rfl⟩
  · extract_lets exp gone s1
    have closed : SessionLeaves m s (s.modMaster m fun x => { x with session := none, subs := x.subs.filter fun q => !exp q }) :=
      ⟨rfl, by rw [State.modMaster_master]⟩
    have held : SessionLeaves m (s.modMaster m fun x => { x with session := none, subs := x.subs.filter fun q => !exp q }) s1 := by
      unfold s1 State.tapHold
      split
      · exact ⟨rfl, rfl⟩
      · exact ⟨rfl, rfl⟩
    have told (l : List Subscription) (u : State) : SessionLeaves m u (l.foldl (fun s q =>
        s.sendNotify m ⟨q.peer, q.no, q.key, rcLevelRequired, s.sampleTime q.key, 0, 0, []⟩) u) := by
      induction l generalizing u with
      | nil => exact ⟨rfl, rfl⟩
      | cons q l ih =>
        refine SessionLeaves.trans ⟨rfl, ?_⟩ (ih _)
        unfold State.sendNotify
        rw [State.modMaster_master]
        rfl
    exact (closed.trans held).trans (told gone s1)

/-- What the release of the mailbox leaves: no owner, and of the PFs what sets them. -/
theorem State.mboxRelease_spec (s : State) : s.mboxRelease.tray = { s.tray with mbox := none } ∧
    s.mboxRelease.vfs = s.vfs ∧ s.mboxRelease.ctxs = s.ctxs ∧ s.mboxRelease.masters = s.masters ∧
    ∀ q, (s.pf q).Settled (s.mboxRelease.pf q) := by
  cases owner : s.tray.mbox with
  | none =>
    have same : s.mboxRelease = s := by
      unfold State.mboxRelease
      rw [owner]
    rw [same]
    exact ⟨by rw [← owner], rfl, rfl, rfl, fun _ => ⟨rfl, rfl, rfl, rfl⟩⟩
  | some o =>
    have freed : HostWork s (s.modPf o fun x => { x with mboxBusy := false, claim := false }) := by
      refine s.modPf_hostWork o _ ?_
      exact fun _ => ⟨rfl, rfl, rfl, rfl⟩
    unfold State.mboxRelease
    rw [owner]
    exact ⟨rfl, rfl, rfl, rfl, freed.pf⟩

/-! ### PF FLR and conventional reset (R467, R468) -/

theorem does_pfFlr : Does (.pfFlr p) s fun t =>
    t.pf p = { link := (s.pf p).link } ∧ t.tray.mbox = none ∧ (t.master 3).session = none ∧ (t.master 3).queue = [] ∧
    (∀ (q : Fin 2) (n : Nat) (v : VF), s.vf? q.val n = some v → ∃ x, t.vf? q.val n = some x ∧ x.inReset = true ∧
      (q = p → x.gone = true)) ∧ (∀ d, (t.die d).cmp.ringStopped = true) ∧ t.tray.leg = s.tray.leg := by
  change ∃ t, execPfFlr p s = .next t ∧ _
  unfold execPfFlr
  extract_lets s1 s2
  obtain ⟨resets, each⟩ := State.foldl_vfReset (fun k => k.1 == p.val) false (s.vfs.map Prod.fst) s
  have halted : HostResets s (s1.sendHalt 0 true) := resets.trans (s1.sendHalt_hostWork 0 true).resets
  let h := s1.sendHalt 0 true
  obtain ⟨tray, vfs, -, masters, pf⟩ := (h.modMaster 3 fun x => { x with queue := [] }).mboxRelease_spec
  have shut := ((h.modMaster 3 fun x => { x with queue := [] }).mboxRelease.endSession_ends 3).2
  have left := (h.modMaster 3 fun x => { x with queue := [] }).mboxRelease.endSession_leaves 3
  have ended : h.endMailbox = (h.modMaster 3 fun x => { x with queue := [] }).mboxRelease.endSession 3 := rfl
  rw [← ended] at shut left
  refine ⟨_, rfl, ?_, ?_, shut, ?_, fun q n v found => ?_, fun d => ?_, ?_⟩
  · have link : (s2.pf p).link = (s.pf p).link := by
      have same : s2.pf p = (h.modMaster 3 fun x => { x with queue := [] }).mboxRelease.pf p := by
        change h.endMailbox.pf p = _
        rw [State.pf, left.rest]
        rfl
      rw [same]
      exact (pf p).link.trans (halted.pf p).link
    rw [State.modPf_pf, link]
  · have freed : h.endMailbox.tray.mbox = none := by
      rw [left.rest, tray]
    exact freed
  · have empty : (h.endMailbox.master 3).queue = [] := by
      rw [left.queue, State.master, masters]
      exact congrArg Master.queue (State.modMaster_master ..)
    exact empty
  · have reset : h.IsReset q.val n (q.val == p.val) :=
      (s1.sendHalt_hostWork 0 true).resets.isReset (each (q.val, n) (KV.mem_keys_of_get? found) (by rw [found]; rfl))
    obtain ⟨x, foundX, inReset, gone⟩ := reset
    refine ⟨x, ?_, inReset, fun same => gone (by rw [same, beq_self_eq_true])⟩
    have kept : h.endMailbox.vfs = h.vfs := by
      rw [left.rest]
      exact vfs
    exact (congrArg (fun l => KV.get? l (q.val, n)) kept).trans foundX
  · have stopped : (s2.die d).cmp.ringStopped = true := by
      unfold s2
      rw [State.allDies_die]
    exact stopped
  · have kept : h.endMailbox.tray.leg = s.tray.leg := by
      rw [left.rest, tray]
      change h.tray.leg = s.tray.leg
      rw [halted.tray]
    exact kept

theorem does_conventionalReset : Does (.conventionalReset p) s fun t =>
    t.pf p = {} ∧ (∀ n v, s.vf? p.val n = some v → ∃ x, t.vf? p.val n = some x ∧ x.inReset = true ∧ x.gone = true) ∧
    (s.tray.mbox = some p → t.tray.mbox = none ∧ (t.master 3).session = none) ∧
    (s.tray.mbox ≠ some p → t.tray.mbox = s.tray.mbox) := by
  change ∃ t, execConventionalReset p s = .next t ∧ _
  unfold execConventionalReset
  extract_lets s1 s2
  obtain ⟨resets, each⟩ := s.dropVfs_resets p.val 0
  have owner : s1.tray.mbox = s.tray.mbox := congrArg Tray.mbox resets.tray
  obtain ⟨tray, vfs, -, -, -⟩ := s1.mboxRelease_spec
  have left := s1.mboxRelease.endSession_leaves 3
  have kept : s2.vfs = s1.vfs := by
    unfold s2
    split
    · rw [left.rest]
      exact vfs
    · rfl
  refine ⟨_, rfl, State.modPf_pf .., fun n v found => ?_, fun owns => ?_, fun other => ?_⟩
  · obtain ⟨x, foundX, inReset, gone⟩ := each n v (Nat.zero_le n) found
    exact ⟨x, (congrArg (fun l => KV.get? l (p.val, n)) kept).trans foundX, inReset, gone rfl⟩
  · have ended : s2 = s1.mboxRelease.endSession 3 := if_pos (owner.trans owns)
    have freed : s2.tray.mbox = none := by
      rw [ended, left.rest, tray]
    have shut : (s2.master 3).session = none := by
      rw [ended]
      exact (s1.mboxRelease.endSession_ends 3).2
    exact ⟨freed, shut⟩
  · have same : s2 = s1 := if_neg (by rw [owner]; exact other)
    rw [State.modPf_tray, same]
    exact owner

/-! ### D3hot (R447) -/

theorem does_pfD3hot : Does (.pfD3hot p) s fun t =>
    (t.pf p).d3hot = true ∧ t.ctxs = s.ctxs ∧ (s.tray.mbox = some p → t.tray.mbox = none) ∧
    (s.tray.mbox ≠ some p → t.pf p = { s.pf p with d3hot := true } ∧ PfOnly p s t) := by
  change ∃ t, execPfD3hot p s = .next t ∧ _
  unfold execPfD3hot
  by_cases owns : s.tray.mbox = some p
  · rw [if_pos owns]
    obtain ⟨tray, -, ctxs, -, -⟩ := s.mboxRelease_spec
    refine ⟨_, rfl, ?_, ctxs, fun _ => ?_, fun other => absurd owns other⟩
    · rw [State.modPf_pf]
    · exact congrArg Tray.mbox tray
  · rw [if_neg owns]
    refine ⟨_, rfl, ?_, rfl, fun own => absurd own owns, fun _ => ⟨State.modPf_pf .., .modPf ..⟩⟩
    rw [State.modPf_pf]

theorem does_pfReturnToD0 (sleeps : (s.pf p).d3hot = true) : Does (.pfReturnToD0 p) s fun t =>
    (t.pf p).d3hot = false ∧ ((s.pf p).held = [] ∨ (s.pf p).bme = false →
      t.pf p = { s.pf p with d3hot := false } ∧ PfOnly p s t) := by
  change ∃ t, execPfReturnToD0 p s = .next t ∧ _
  unfold execPfReturnToD0
  rw [if_pos sleeps]
  let u := s.modPf p fun x => { x with d3hot := false }
  have own : u.pf p = { s.pf p with d3hot := false } := State.modPf_pf ..
  refine ⟨_, rfl, ?_, fun quiet => ?_⟩
  · exact ((u.flushHeld_pf_tells p.val).pf p).d3hot.trans (congrArg PF.d3hot own)
  · have idle : u.flushHeld (.pf p.val) = u := by
      rcases quiet with empty | off
      · exact State.flushHeld_pf_nil ((congrArg PF.held own).trans empty)
      · refine State.flushHeld_of_not_canSend ?_
        unfold State.canSend
        dsimp only
        rw [portIx_val, own]
        exact (congrArg (· && _) off).trans (Bool.false_and _)
    rw [idle]
    exact ⟨own, .modPf ..⟩

end

end Machine

/-- Settles O50: the resets of functions, by the fact that work for the host leaves a function in reset exactly as it is. -/
theorem hostResets : Obligations.HostResets := by
  unfold Obligations.HostResets
  exact ⟨fun _ _ _ _ found free => does_vfFlr found free, fun _ _ _ _ found resets => does_vfFlrComplete found resets,
    fun _ _ num => does_vfEnableClear num, fun _ _ num mse off => does_vfEnableSet num mse off,
    fun _ _ => does_pfFlr, fun _ _ => does_conventionalReset, fun _ _ => does_pfD3hot,
    fun _ _ sleeps => does_pfReturnToD0 sleeps⟩

end Sys2Proof
end

section
/-! The epoch boundary: what it starts anew on a die, and which dies reach it (R63, R116, R126, R141, R192, R401). -/

namespace Sys2Proof
open Sys2Proof.Machine

namespace Machine

/-! ### The figures of the epoch -/

/-- Of a die the stretch debt, the energy of the epoch, the share and the mode of division stay. -/
structure Die.KeepsLedger (x y : Die) : Prop where
  debtLast : y.droop.debtLast = x.droop.debtLast
  debtEpoch : y.droop.debtEpoch = x.droop.debtEpoch
  energy : y.pow.epochEnergy = x.pow.epochEnergy
  share : y.pow.share = x.pow.share
  shareNext : y.pow.shareNext = x.pow.shareNext
  mode : y.pow.sealed = x.pow.sealed
  modeNext : y.pow.sealedNext = x.pow.sealedNext

theorem Die.KeepsLedger.refl (x : Die) : x.KeepsLedger x := ⟨rfl, rfl, rfl, rfl, rfl, rfl, rfl⟩

theorem Die.KeepsLedger.trans {x y z : Die} (h : x.KeepsLedger y) (k : y.KeepsLedger z) : x.KeepsLedger z :=
  ⟨k.debtLast.trans h.debtLast, k.debtEpoch.trans h.debtEpoch, k.energy.trans h.energy, k.share.trans h.share,
    k.shareNext.trans h.shareNext, k.mode.trans h.mode, k.modeNext.trans h.modeNext⟩

theorem Steers.ledger {x y : Die} (h : Steers x y) : x.KeepsLedger y := by
  rw [h]
  exact ⟨rfl, rfl, rfl, rfl, rfl, rfl, rfl⟩

theorem Ends.ledger {x y : Die} (h : Ends x y) : x.KeepsLedger y := by
  rw [h]
  exact ⟨rfl, rfl, rfl, rfl, rfl, rfl, rfl⟩

/-- The margin mode of a die, whose pending raise a wide write that comes into force may set (R79). -/
def ObjKey.isMargin (k : ObjKey) : Prop := k.idx = 0x2100 ∧ k.sub = 1

/-- Of die d the figures of the epoch stay, and what is pending but for the margin modes. -/
structure PeriodStays (d : DieId) (s t : State) : Prop where
  die : (s.die d).KeepsLedger (t.die d)
  raises : ∀ k : ObjKey, ¬ k.isMargin → t.pendingRaise k = s.pendingRaise k

/-- The part of the die in its group stays too. -/
structure TailStays (d : DieId) (s t : State) : Prop extends PeriodStays d s t where
  mer : (t.die d).mer = (s.die d).mer

section
variable {d : DieId} {s t u : State}

theorem PeriodStays.refl (d : DieId) (s : State) : PeriodStays d s s := ⟨.refl _, fun _ _ => rfl⟩

theorem PeriodStays.trans (h : PeriodStays d s t) (k : PeriodStays d t u) : PeriodStays d s u :=
  ⟨h.die.trans k.die, fun j other => (k.raises j other).trans (h.raises j other)⟩

theorem TailStays.refl (d : DieId) (s : State) : TailStays d s s := ⟨.refl d s, rfl⟩

theorem TailStays.trans (h : TailStays d s t) (k : TailStays d t u) : TailStays d s u :=
  ⟨h.toPeriodStays.trans k.toPeriodStays, k.mer.trans h.mer⟩

theorem Steered.period (h : Steered d s t) : PeriodStays d s t :=
  ⟨h.die.ledger, fun k _ => State.pendingRaise_congr (by rw [h.rest]) k⟩

theorem EndsWork.tail (h : EndsWork d s t) : TailStays d s t :=
  ⟨⟨h.die.ledger, fun k _ => State.pendingRaise_congr (by rw [h.tray]) k⟩, by rw [h.die]⟩

theorem Answered.tail (h : Answered s t) : TailStays d s t := by
  have same : t.die d = s.die d := by
    rw [State.die, h.dies]
    rfl
  exact ⟨⟨by rw [same]; exact .refl _, fun k _ => State.pendingRaise_congr (by rw [h.tray]) k⟩, by rw [same]⟩

end

theorem Die.closeMeridian_step (x : Die) : x.closeMeridian.groupStep = x.mer.groupStep := rfl

theorem Die.closeMeridian_member (x : Die) : x.closeMeridian.member = x.mer.member := rfl

section
variable (s : State) (d : DieId)

theorem State.modDie_period (f : Die → Die) (ledger : ∀ x : Die, x.KeepsLedger (f x)) : PeriodStays d s (s.modDie d f) :=
  ⟨by rw [State.modDie_die]; exact ledger _, fun _ _ => rfl⟩

theorem State.modDie_tail (f : Die → Die) (ledger : ∀ x : Die, x.KeepsLedger (f x)) (mer : ∀ x, (f x).mer = x.mer) :
    TailStays d s (s.modDie d f) :=
  ⟨s.modDie_period d f ledger, by rw [State.modDie_die]; exact mer _⟩

theorem State.log_tail (source code : Nat) (detail : List Byte) : TailStays d s (s.log source code detail) :=
  ⟨⟨by rw [State.log_die]; exact .refl _, fun k _ => State.pendingRaise_congr (by rw [State.log_rest]) k⟩,
    by rw [State.log_die]⟩

/-! ### What the result of the epoch that ends leaves (R192, R201) -/

theorem State.stopMember_period : PeriodStays d s (s.stopMember d) := by
  unfold State.stopMember
  extract_lets s1
  have ended : PeriodStays d s s1 :=
    ((s.dropFlows_ports d 2).endsWork.trans (State.endRuns_endsWork ..)).tail.toPeriodStays
  refine (ended.trans (State.modDie_period _ _ _ ?_)).trans (State.applyStep_steered ..).period
  exact fun _ => ⟨rfl, rfl, rfl, rfl, rfl, rfl, rfl⟩

theorem State.leaveGroup_period (stray merges : Bool) : PeriodStays d s (s.leaveGroup d stray merges) := by
  unfold State.leaveGroup
  refine (s.stopMember_period d).trans (State.modDie_period _ _ _ ?_)
  exact fun _ => ⟨rfl, rfl, rfl, rfl, rfl, rfl, rfl⟩

/-- A stray counts itself, which is recorded (R202). -/
theorem State.strays_period (detail : List Byte) : PeriodStays d s ((s.modDie d fun x => { x with
    mer := { x.mer with strayTotal := satAdd 32 x.mer.strayTotal 1 } }).logDie d 0x2501 detail) := by
  refine (State.modDie_period _ _ _ ?_).trans (State.logDie_steered ..).period
  exact fun _ => ⟨rfl, rfl, rfl, rfl, rfl, rfl, rfl⟩

theorem State.noResult_period : PeriodStays d s (s.noResult d) := by
  unfold State.noResult
  extract_lets det s1 s2
  have noted : PeriodStays d s s1 := by
    refine (State.modDie_period _ _ _ ?_).trans (State.logDie_steered ..).period
    exact fun _ => ⟨rfl, rfl, rfl, rfl, rfl, rfl, rfl⟩
  have bridged : PeriodStays d s s2 := by
    unfold s2
    split
    · exact noted.trans (State.moveVcore_steered ..).period
    · exact noted
  split
  · exact (bridged.trans (State.leaveGroup_period ..)).trans (State.strays_period ..)
  · exact bridged

theorem State.groupSwitch_steered : Steered d s (s.groupSwitch d) := by
  unfold State.groupSwitch
  dsimp only
  split
  · exact .refl ..
  · split
    · exact .refl ..
    · split
      · exact .refl ..
      · exact State.applyStep_steered ..

theorem State.applyResult_period (n : Nat) : PeriodStays d s (s.applyResult d n) := by
  have missed : PeriodStays d s (if (s.die d).mer.member then s.noResult d else s) := by
    split
    · exact State.noResult_period ..
    · exact .refl ..
  unfold State.applyResult
  dsimp only
  split
  · exact missed
  · split
    · exact missed
    · split
      · split
        · exact (State.leaveGroup_period ..).trans (State.strays_period ..)
        · exact State.leaveGroup_period ..
      · split
        · refine (State.modDie_period _ _ _ ?_).trans (State.groupSwitch_steered ..).period
          exact fun _ => ⟨rfl, rfl, rfl, rfl, rfl, rfl, rfl⟩
        · exact .refl ..

/-! ### A wide write comes into force, and the target is formed anew (R77, R78) -/

theorem State.sweepAcks_tail : TailStays d s s.sweepAcks := by
  unfold State.sweepAcks
  extract_lets ready s1
  have first : TailStays d s s1 := ⟨⟨.refl _, fun _ _ => rfl⟩, rfl⟩
  exact first.trans (Answered.foldl (fun _ _ => State.answer_answered ..) ready s1).tail

theorem State.effectDone_tail (k : ObjKey) (v epoch : Nat) : TailStays d s (s.effectDone k v epoch) := by
  unfold State.effectDone
  extract_lets mark
  refine TailStays.trans ?_ (State.sweepAcks_tail ..)
  exact ⟨⟨.refl _, fun _ _ => rfl⟩, rfl⟩

theorem State.setRaise_tail {k : ObjKey} (margin : k.isMargin) (v epoch : Nat) : TailStays d s (s.setRaise k v epoch) := by
  refine ⟨⟨.refl _, fun j other => s.pendingRaise_setRaise_ne ?_ v epoch⟩, rfl⟩
  intro same
  exact other (same ▸ margin)

theorem State.noStepCheck_tail (was : Bool) : TailStays d s (s.noStepCheck d was) := by
  unfold State.noStepCheck
  dsimp only
  split
  · exact State.log_tail ..
  · exact .refl ..

theorem State.wideInForce_tail : TailStays d s (s.wideInForce d) := by
  unfold State.wideInForce
  extract_lets k lean was s0 s1
  have wide : TailStays d s s0 := by
    refine TailStays.trans (State.modDie_tail _ _ _ ?_ ?_) (State.noStepCheck_tail ..)
    · exact fun _ => ⟨rfl, rfl, rfl, rfl, rfl, rfl, rfl⟩
    · exact fun _ => rfl
  have done : TailStays d s s1 := wide.trans (State.effectDone_tail ..)
  split
  · exact (done.trans (State.setRaise_tail _ _ ⟨rfl, rfl⟩ _ _)).trans (State.effectDone_tail ..)
  · exact done

theorem State.wideAtBoundary_tail : TailStays d s (s.wideAtBoundary d) := by
  unfold State.wideAtBoundary
  dsimp only
  split
  · exact State.wideInForce_tail ..
  · exact .refl ..

theorem State.boundaryTarget_tail : TailStays d s (s.boundaryTarget d) := by
  unfold State.boundaryTarget
  split
  · exact .refl ..
  · exact (State.moveVcore_endsWork ..).tail

/-- Budgets set for a new epoch touch of a die its budgets alone, and every run starts the epoch anew (R109, R120). -/
theorem Die.withBudgets_spec (x : Die) (d : DieId) (roh b c : Nat) (pg : Int) :
    ∃ (limit each : Nat) (slots : List SlotBudget) (glacier share : Bool) (runs : List Run),
      x.withBudgets d roh b c pg = { x with
        pow := { x.pow with
          pg := limit, budget := b, roh := roh, poolShare := each, slots := slots, glacierBinds := glacier, shareBinds := share
          surgeCut := false, deviated := false, cutTime := 0 }
        til := { x.til with runs := runs } } ∧
      ∀ r ∈ runs, r.eEpoch = 0 ∧ r.cut = 0 ∧ r.limited = false := by
  refine ⟨_, _, _, _, _, _, rfl, fun r mem => ?_⟩
  obtain ⟨i, _, rfl⟩ := List.mem_iff_getElem.mp mem
  rw [List.getElem_zipWith]
  exact ⟨rfl, rfl, rfl⟩

theorem State.setBudgets_spec : ∃ b : Nat × Nat × Nat, ∃ pg : Int,
    (s.setBudgets d).die d = (s.die d).withBudgets d b.1 b.2.1 b.2.2 pg :=
  ⟨s.budgetOf d, s.glacierAllowance d false, s.modDie_die d _⟩

/-- A die has no cut and no deviation when its budgets are set, and its runs have used no energy. -/
theorem State.setBudgets_anew : ((s.setBudgets d).die d).pow.surgeCut = false ∧
    ((s.setBudgets d).die d).pow.deviated = false ∧ ((s.setBudgets d).die d).pow.cutTime = 0 ∧
    ∀ r ∈ ((s.setBudgets d).die d).til.runs, r.eEpoch = 0 ∧ r.cut = 0 ∧ r.limited = false := by
  obtain ⟨b, pg, budgets⟩ := s.setBudgets_spec d
  obtain ⟨_, _, _, _, _, _, set, anew⟩ := (s.die d).withBudgets_spec d b.1 b.2.1 b.2.2 pg
  rw [budgets, set]
  exact ⟨rfl, rfl, rfl, anew⟩

theorem State.setBudgets_tail : TailStays d s (s.setBudgets d) := by
  obtain ⟨b, pg, budgets⟩ := s.setBudgets_spec d
  obtain ⟨_, _, _, _, _, _, set, _⟩ := (s.die d).withBudgets_spec d b.1 b.2.1 b.2.2 pg
  refine ⟨⟨?_, fun _ _ => rfl⟩, ?_⟩
  · rw [budgets, set]
    exact ⟨rfl, rfl, rfl, rfl, rfl, rfl, rfl⟩
  · rw [budgets, set]

/-! ### Due raises come into force (R130, R401) -/

theorem State.raiseInForce_pending (k j : ObjKey) (v : Nat) :
    (s.raiseInForce k v).pendingRaise j = if j = k then none else s.pendingRaise j := by
  have raised : (s.raiseInForce k v).pendingRaise j = (s.cancelRaise k).pendingRaise j := by
    unfold State.raiseInForce
    dsimp only
    split
    · rfl
    · split <;> rfl
  rw [raised]
  split
  · next same => rw [same, State.pendingRaise_cancelRaise]
  · next other => exact s.pendingRaise_cancelRaise_ne other

theorem State.raiseInForce_ledger (k : ObjKey) (v : Nat) : (s.die d).KeepsLedger ((s.raiseInForce k v).die d) := by
  have changed (u : State) (e : DieId) (f : Die → Die) (ledger : ∀ x : Die, x.KeepsLedger (f x)) :
      (u.die d).KeepsLedger ((u.modDie e f).die d) := by
    by_cases here : d = e
    · rw [here, State.modDie_die]
      exact ledger _
    · rw [State.modDie_die_ne _ _ _ _ here]
      exact .refl _
  unfold State.raiseInForce
  dsimp only
  split
  · refine changed ((s.cancelRaise k).putSetting ..) _ _ ?_
    exact fun _ => ⟨rfl, rfl, rfl, rfl, rfl, rfl, rfl⟩
  · split
    · refine changed ((s.cancelRaise k).putSetting ..) _ _ ?_
      exact fun _ => ⟨rfl, rfl, rfl, rfl, rfl, rfl, rfl⟩
    · exact .refl _

theorem State.applyRaises_ledger (sel n : Nat) : (s.die d).KeepsLedger ((s.applyRaises sel n).die d) :=
  List.foldlRecOn (motive := fun u : State => (s.die d).KeepsLedger (u.die d)) _ _ (.refl _)
    fun u keeps r _ => keeps.trans (u.raiseInForce_ledger d r.1 r.2.1)

/-- A raise that came into force is pending no more. -/
theorem foldl_raiseInForce_pending (l : List (ObjKey × Nat × Nat)) (j : ObjKey)
    (due : s.pendingRaise j = none ∨ ∃ r ∈ l, r.1 = j) :
    (l.foldl (fun s r => s.raiseInForce r.1 r.2.1) s).pendingRaise j = none := by
  induction l generalizing s with
  | nil =>
    obtain gone | ⟨r, mem, _⟩ := due
    · exact gone
    · exact absurd mem List.not_mem_nil
  | cons q l ih =>
    refine ih _ ?_
    rw [State.raiseInForce_pending]
    split
    · exact .inl rfl
    · next other =>
      obtain gone | ⟨r, mem, key⟩ := due
      · exact .inl gone
      · obtain here | later := List.mem_cons.mp mem
        · exact absurd (by rw [← key, here]) other
        · exact .inr ⟨r, later, key⟩

theorem State.applyRaises_pending {sel n : Nat} {r : ObjKey × Nat × Nat} (due : r ∈ s.dueRaises sel n) :
    (s.applyRaises sel n).pendingRaise r.1 = none := foldl_raiseInForce_pending s _ _ (.inr ⟨r, due, rfl⟩)

theorem State.closeHeld_endsWork : EndsWork d s (s.closeHeld d) := .foldl (fun u _ => u.modCtx_endsWork d ..) _ s

/-! ### The stages of the boundary of a die -/

/-- The die closes its figures of the epoch that ends, once the due raises are in force. -/
def State.figuresClosed (n : Nat) : State :=
  ((s.applyRaises d.val n).closeHeld d).modDie d fun x => { x with
    op := x.op.closeTrim, droop := x.closeDroop, nrg := x.closeEnergy d, pow := x.closePower
    svc := { x.svc with leadHold := false, noProposal := false } }

/-- It has taken the result, and closes its part of the group. -/
def State.groupClosed (n : Nat) : State :=
  ((s.figuresClosed d n).applyResult d n).modDie d fun x => { x with mer := x.closeMeridian, clk := { x.clk with nextStep := none } }

/-- Its voltage stands as the new epoch wants it. -/
def State.voltageSet (n : Nat) : State :=
  let t := (s.groupClosed d n).modDie d fun x => { x with pow := { x.pow with
    sealBroken := x.sealNow (s.die d).mer.groupStep (!(s.die d).pow.sealed) } }
  ((if (s.die d).svc.leadHold then t.leadFall d else t).boundaryTarget d).wideAtBoundary d

theorem State.dieBoundary_eq (n : Nat) : s.dieBoundary d n = (s.voltageSet d n).setBudgets d := rfl

theorem State.dieBoundary_tail (n : Nat) : TailStays d (s.groupClosed d n) (s.dieBoundary d n) := by
  rw [State.dieBoundary_eq]
  refine TailStays.trans ?_ (State.setBudgets_tail ..)
  unfold State.voltageSet
  extract_lets t
  have judged : TailStays d (s.groupClosed d n) t := by
    refine State.modDie_tail _ _ _ ?_ fun _ => rfl
    exact fun _ => ⟨rfl, rfl, rfl, rfl, rfl, rfl, rfl⟩
  refine TailStays.trans (TailStays.trans ?_ (State.boundaryTarget_tail ..)) (State.wideAtBoundary_tail ..)
  split
  · exact judged.trans (State.leadFall_endsWork ..).tail
  · exact judged

theorem State.dieBoundary_period (n : Nat) : PeriodStays d (s.figuresClosed d n) (s.dieBoundary d n) := by
  refine PeriodStays.trans ?_ (s.dieBoundary_tail d n).toPeriodStays
  refine (State.applyResult_period _ d n).trans (State.modDie_period _ _ _ ?_)
  exact fun _ => ⟨rfl, rfl, rfl, rfl, rfl, rfl, rfl⟩

theorem State.dieBoundary_mer (n : Nat) :
    ((s.dieBoundary d n).die d).mer = (((s.figuresClosed d n).applyResult d n).die d).closeMeridian := by
  rw [(s.dieBoundary_tail d n).mer]
  unfold State.groupClosed
  rw [State.modDie_die]

end

/-! ### The step of the group through the switch (R44, R192) -/

/-- Die d stays a member, or none, and the step of its group stays. -/
structure GroupStays (d : DieId) (s t : State) : Prop where
  step : (t.die d).mer.groupStep = (s.die d).mer.groupStep
  member : (t.die d).mer.member = (s.die d).mer.member

theorem GroupStays.refl (d : DieId) (s : State) : GroupStays d s s := ⟨rfl, rfl⟩

theorem GroupStays.trans {d : DieId} {s t u : State} (h : GroupStays d s t) (k : GroupStays d t u) : GroupStays d s u :=
  ⟨k.step.trans h.step, k.member.trans h.member⟩

theorem TailStays.group {d : DieId} {s t : State} (h : TailStays d s t) : GroupStays d s t := ⟨by rw [h.mer], by rw [h.mer]⟩

section
variable (s : State) (d : DieId)

theorem State.modDie_group (f : Die → Die) (step : ∀ x, (f x).mer.groupStep = x.mer.groupStep)
    (member : ∀ x, (f x).mer.member = x.mer.member) : GroupStays d s (s.modDie d f) :=
  ⟨by rw [State.modDie_die]; exact step _, by rw [State.modDie_die]; exact member _⟩

theorem State.modClk_group (f : Clk → Clk) : GroupStays d s (s.modClk d f) := s.modDie_group d _ (fun _ => rfl) fun _ => rfl

theorem State.logClk_group (code : Nat) : GroupStays d s (s.logClk d code) := (s.log_tail d ..).group

theorem State.moveVcore_group (goal : Nat) : GroupStays d s (s.moveVcore d goal) := (s.moveVcore_endsWork d goal).tail.group

theorem State.supplyLag_group (g : Nat) : GroupStays d s (s.supplyLag d g) := by
  unfold State.supplyLag
  refine GroupStays.trans (State.modDie_group _ _ _ ?_ ?_) (State.log_tail ..).group
  · exact fun _ => rfl
  · exact fun _ => rfl

theorem State.clockFault_group (l : Option LoopId) : GroupStays d s (s.clockFault d l) := by
  unfold State.clockFault
  extract_lets now s1
  have first : GroupStays d s s1 := s.modDie_group d _ (fun _ => rfl) fun _ => rfl
  exact first.trans (s1.logClk_group ..)

theorem State.loopFault_group (l : LoopId) (g : Nat) : GroupStays d s (s.loopFault d l g) := by
  unfold State.loopFault
  dsimp only
  split
  · exact (State.clockFault_group ..).trans (State.modClk_group ..)
  · exact State.clockFault_group ..

theorem State.raiseRefused_group (l : LoopId) (g : Nat) : GroupStays d s (s.raiseRefused d l g) := by
  unfold State.raiseRefused
  extract_lets s1 s2
  have first : GroupStays d s s1 := ((State.modClk_group ..).trans (State.logClk_group ..)).trans (State.loopFault_group ..)
  have second : GroupStays d s s2 := by
    unfold s2
    split
    · exact first
    · exact first.trans (State.supplyLag_group ..)
  exact second.trans (State.moveVcore_group ..)

theorem State.applyStep_group (g : Nat) : GroupStays d s (s.applyStep d g) := by
  unfold State.applyStep
  extract_lets g x c s1 l ready s2
  have ended : GroupStays d s s1 := s.modDie_group d _ (fun _ => rfl) fun _ => rfl
  have turned (f : Clk → Clk) : GroupStays d s (s1.modClk d f) := ended.trans (State.modClk_group ..)
  have bridged (f : Clk → Clk) (v : Nat) : GroupStays d s (((s1.modClk d f).clockFault d none).moveVcore d v) :=
    ((turned f).trans (State.clockFault_group ..)).trans (State.moveVcore_group ..)
  have lowered : GroupStays d s s2 := by
    unfold s2
    split
    · exact turned _
    · exact ((turned _).trans (State.logClk_group ..)).trans (State.loopFault_group ..)
  split
  · exact .refl ..
  · split
    · exact s.modDie_group d _ (fun _ => rfl) fun _ => rfl
    · split
      · split
        · split
          · exact turned _
          · exact ended.trans (State.supplyLag_group ..)
        · split
          · exact .refl ..
          · split
            · exact bridged _ _
            · exact State.modClk_group ..
      · split
        · exact bridged _ _
        · split
          · exact lowered.trans (State.moveVcore_group ..)
          · split
            · exact ended.trans (State.raiseRefused_group ..)
            · split
              · exact ended.trans (State.supplyLag_group ..)
              · exact turned _

theorem State.groupSwitch_group : GroupStays d s (s.groupSwitch d) := by
  unfold State.groupSwitch
  dsimp only
  split
  · exact .refl ..
  · split
    · exact .refl ..
    · split
      · exact .refl ..
      · exact State.applyStep_group ..

end

/-- A member takes the step of a result of the epoch that ended which names it neither stray nor leaving (R192). -/
theorem State.applyResult_group {s : State} {d : DieId} {n : Nat} {r : MResult} (result : (s.die d).mer.result = some r)
    (fits : r.epoch + 1 = n) (member : (s.die d).mer.member = true) (known : r.strays.contains (s.identity d) = false)
    (stays : r.leaves.contains (s.identity d) = false) :
    ((s.applyResult d n).die d).mer.groupStep = r.step ∧ ((s.applyResult d n).die d).mer.member = true := by
  unfold State.applyResult
  dsimp only
  rw [result]
  dsimp only
  rw [if_neg (by simp [fits]), if_neg (by rw [known, stays]; simp), if_pos (.inl member)]
  obtain ⟨step, mem⟩ := State.groupSwitch_group (s.modDie d fun x => { x with
    mer := x.mer.update r (if (s.die d).mer.member then (s.die d).mer.members else s.knownMembers d (s.die d).mer.resultFrom)
      (s.identity d) n }) d
  rw [State.modDie_die] at step mem
  exact ⟨step, mem⟩

end Machine

/-! ### Which dies reach the boundary (R63) -/

/-- A boundary is that of a die whose count runs. -/
theorem nextBoundary_mem {s : State} {b : Ns} (next : s.nextBoundary = some b) :
    ∃ d, (s.die d).counts = true ∧ (s.die d).clk.boundaryAt s.tray.now = b := by
  have least : (((List.finRange 8).filter fun d => (s.die d).counts).map fun d =>
      (s.die d).clk.boundaryAt s.tray.now).min? = some b := by
    rw [← next]
    unfold State.nextBoundary
    cases ((List.finRange 8).filter fun d => (s.die d).counts).map fun d => (s.die d).clk.boundaryAt s.tray.now with
    | nil => rfl
    | cons a l => rfl
  obtain ⟨d, mem, reached⟩ := List.mem_map.mp (List.min?_mem least)
  exact ⟨d, (List.mem_filter.mp mem).2, reached⟩

/-- The dies that reach their boundary start their epoch in turn, then the tray when its count is among them. -/
theorem does_epochBoundary {s : State} {b : Ns} {hits : List DieId} (next : s.nextBoundary = some b)
    (which : hits = (List.finRange 8).filter fun d => (s.die d).counts && decide ((s.die d).clk.boundaryAt s.tray.now ≤ b)) :
    Does .epochBoundary s fun t =>
      t = (if s.timeDie ∈ hits then State.trayBoundary else fun u _ => u)
        (hits.foldl (fun u d => u.dieBoundary d ((s.advanceTo b).epoch d)) (s.advanceTo b))
        ((s.advanceTo b).epoch s.timeDie) := by
  change ∃ t, execEpochBoundary s = .next t ∧ _
  unfold execEpochBoundary
  rw [next]
  refine ⟨_, rfl, ?_⟩
  rw [which, List.foldl_filter]
  have among : (s.timeDie ∈ (List.finRange 8).filter fun d =>
      (s.die d).counts && decide ((s.die d).clk.boundaryAt s.tray.now ≤ b)) ↔
      ((s.die s.timeDie).counts && decide ((s.die s.timeDie).clk.boundaryAt s.tray.now ≤ b)) = true := by
    simp only [List.mem_filter, List.mem_finRange, true_and]
  by_cases reached : ((s.die s.timeDie).counts && decide ((s.die s.timeDie).clk.boundaryAt s.tray.now ≤ b)) = true
  · rw [if_pos reached, if_pos (among.mpr reached)]
    rfl
  · rw [if_neg reached, if_neg fun mem => reached (among.mp mem)]
    rfl

section
variable (s : State) (d : DieId) (n : Nat)

/-- A die closes its debt, its energy, its share and its mode with the epoch (R116, R126, R141). -/
theorem dieBoundary_figures :
    ((s.dieBoundary d n).die d).droop.debtLast = (s.die d).droop.debtEpoch ∧
    ((s.dieBoundary d n).die d).droop.debtEpoch = 0 ∧ ((s.dieBoundary d n).die d).pow.epochEnergy = 0 ∧
    ((s.dieBoundary d n).die d).pow.share = (s.die d).pow.shareNext.getD (s.die d).pow.share ∧
    ((s.dieBoundary d n).die d).pow.sealed = (s.die d).pow.sealedNext.getD (s.die d).pow.sealed := by
  have before := (s.applyRaises_ledger d d.val n).trans ((s.applyRaises d.val n).closeHeld_endsWork d).die.ledger
  have figures := (s.dieBoundary_period d n).die
  rw [State.figuresClosed, State.modDie_die] at figures
  refine ⟨figures.debtLast.trans before.debtEpoch, figures.debtEpoch, figures.energy, figures.share.trans ?_,
    figures.mode.trans ?_⟩
  · rw [← before.share, ← before.shareNext]
    rfl
  · rw [← before.mode, ← before.modeNext]
    rfl

/-- No due raise is left, but for a lean margin that waited behind a wide one (R79, R401). -/
theorem dieBoundary_raises {r : ObjKey × Nat × Nat} (due : r ∈ s.dueRaises d.val n) (other : ¬ r.1.isMargin) :
    (s.dieBoundary d n).pendingRaise r.1 = none := by
  have held : (s.figuresClosed d n).pendingRaise r.1 = (s.applyRaises d.val n).pendingRaise r.1 :=
    State.pendingRaise_congr (s := s.applyRaises d.val n) (t := (s.applyRaises d.val n).closeHeld d)
      (by rw [((s.applyRaises d.val n).closeHeld_endsWork d).tray]) r.1
  rw [(s.dieBoundary_period d n).raises r.1 other, held]
  exact s.applyRaises_pending due

/-- A member takes the step of the result of the epoch that ended, and stays a member (R192). -/
theorem dieBoundary_group {s : State} {d : DieId} {n : Nat} {r : MResult} (due : s.dueRaises d.val n = [])
    (result : (s.die d).mer.result = some r) (fits : r.epoch + 1 = n) (member : (s.die d).mer.member = true)
    (known : r.strays.contains (s.identity d) = false) (stays : r.leaves.contains (s.identity d) = false) :
    ((s.dieBoundary d n).die d).mer.groupStep = r.step ∧ ((s.dieBoundary d n).die d).mer.member = true := by
  have same : s.applyRaises d.val n = s := by
    rw [State.applyRaises, due]
    rfl
  have held := s.closeHeld_endsWork d
  have mer : ((s.figuresClosed d n).die d).mer = (s.die d).mer := by
    rw [State.figuresClosed, same, State.modDie_die]
    change ((s.closeHeld d).die d).mer = _
    rw [held.die]
  have tray : (s.figuresClosed d n).tray = s.tray := by
    rw [State.figuresClosed, same, State.modDie_tray, held.tray]
  have own : (s.figuresClosed d n).identity d = s.identity d := by
    unfold State.identity State.dset
    rw [mer, State.setting_congr (s := s) (t := s.figuresClosed d n) (by rw [tray]) (by rw [tray])]
  rw [State.dieBoundary_mer, Die.closeMeridian_step, Die.closeMeridian_member]
  exact State.applyResult_group (by rw [mer, result]) fits (by rw [mer, member]) (by rw [own, known]) (by rw [own, stays])

end

/-- With no count running nothing happens. -/
theorem does_epochBoundary_idle {s : State} (idle : ∀ d, (s.die d).counts = false) : Does .epochBoundary s fun t => t = s := by
  have still : s.nextBoundary = none := by
    unfold State.nextBoundary
    rw [List.filter_eq_nil_iff.mpr fun d _ => by simp [idle d]]
    rfl
  change ∃ t, execEpochBoundary s = .next t ∧ _
  unfold execEpochBoundary
  rw [still]
  exact ⟨s, rfl, rfl⟩

/-- Runtime reaches the boundary. -/
theorem does_epochBoundary_time {s : State} {b : Ns} (next : s.nextBoundary = some b) :
    Does .epochBoundary s fun t => s.tray.accBase + b ≤ t.accNow := by
  refine (does_epochBoundary next rfl).imp fun t eq => ?_
  have reached : s.tray.accBase + b ≤ (s.advanceTo b).accNow := Nat.add_le_add_left (Nat.le_max_right _ _) _
  have dies := Keeps.foldl ((List.finRange 8).filter fun d =>
    (s.die d).counts && decide ((s.die d).clk.boundaryAt s.tray.now ≤ b))
    (fun u d keeps => State.dieBoundary_keeps keeps d ((s.advanceTo b).epoch d)) (Keeps.refl (s.advanceTo b))
  rw [eq]
  refine Nat.le_trans reached (Keeps.time ?_)
  split
  · exact State.trayBoundary_keeps dies _
  · exact dies

/-- Settles O10: the boundary is the least of those of the counts that run, so some die reaches it; each shared step of a die's
boundary keeps the figures that the die closed first, and the switch keeps the step that the result named. -/
theorem epochBoundary : Obligations.EpochBoundary := by
  unfold Obligations.EpochBoundary
  refine ⟨fun s idle => does_epochBoundary_idle idle, fun s b next => does_epochBoundary_time next,
    fun s b hits next which => ⟨?_, does_epochBoundary next which⟩, fun s d n => ?_,
    fun s d n r due result fits member known stays => dieBoundary_group due result fits member known stays, fun s d n => ?_⟩
  · obtain ⟨d, counts, reached⟩ := nextBoundary_mem next
    rw [which]
    refine List.ne_nil_of_mem (a := d) (List.mem_filter.mpr ⟨List.mem_finRange d, ?_⟩)
    simp [counts, reached]
  · obtain ⟨debtLast, debt, energy, share, mode⟩ := dieBoundary_figures s d n
    refine ⟨debtLast, debt, energy, share, mode, ?_, ?_, fun r due other => dieBoundary_raises s d n due other⟩
    · rw [State.dieBoundary_mer]
      rfl
    · rw [State.dieBoundary_mer]
      rfl
  · rw [State.dieBoundary_eq]
    exact State.setBudgets_anew ..

end Sys2Proof
end
